-- ==== Sys2Proof/Word.lean ====
section
/-! DEFINITION. The word types of the register pages and of memory: a byte, a 32-bit register and a 64-bit quantity (R24, little-endian throughout). -/

namespace Sys2Proof

/-- One byte of a memory, a palette, a store or host memory. -/
abbrev Byte := BitVec 8

/-- One 32-bit register word (R24). -/
abbrev Word := BitVec 32

/-- A 64-bit quantity: a counter value, a timestamp in ns (R3), a 64-bit register pair. -/
abbrev DWord := BitVec 64

end Sys2Proof
end

