-- ==== Sys2Proof/Syntax.lean ====
section
/-! DEFINITION. The commands of the block (one constructor per row of the opcode table) and the types of their operands. -/

namespace Sys2Proof

/-- How a register page is addressed: through the physical function's BAR0 (R27, page = address / 0x1000)
or through the BAR0 of virtual function t + 1 (R29, page k of tenant t + 1). -/
inductive Acc where
  | pf (page : Fin 4096)
  | vf (t : Fin 32) (k : Fin 16)
  deriving DecidableEq, Repr

/-- What a completion for a read of host memory brings (R314). -/
inductive HostCpl where
  | data (bytes : List Byte)
  | poisoned (bytes : List Byte)
  | error
  deriving DecidableEq, Repr

/-- What a slot of data at a client of a panel's drain path is (R85, R86): inbound against a credit, outbound, or late, for a grant that was
withdrawn. -/
inductive SlotKind where
  | inbound | outbound | late
  deriving DecidableEq, Repr

/-- A flit's move in a canvas mesh (R90): it enters at a stop; comes from the Stretcher through a die-to-die port; or the oldest flit of a virtual channel
goes on, from the buffer of the link that enters a stop in a direction, or from a port's. Destinations 36 to 43 are the die-to-die ports. -/
inductive FlitMove where
  | enter (src : Fin 36) (dest : Fin 44) (vc : Fin 4)
  | fromStretcher (port : Fin 8) (dest : Fin 36) (vc : Fin 4)
  | hop (stop : Fin 36) (dir : Fin 4) (vc : Fin 4)
  | hopPort (port : Fin 8) (vc : Fin 4)
  deriving DecidableEq, Repr

/-- What a Diptych heartbeat brings for one paired domain (R185). -/
structure HbDom where
  dom : Fin 16
  h : DWord                -- H
  word : BitVec 16         -- the last driven OUTPUT_WORD
  snap : BitVec 16         -- instance of the last snapshot sent or applied
  state : Fin 16           -- the domain's STATE
  deriving DecidableEq, Repr

/-- A GigE Vision stream packet (R379), as the standard's headers give it: block ID; the leader's pixel format (a PIXFMT code of
R393, 6 and 7 for any other), width and height; the payload's byte offset within the image. -/
inductive GvspPkt where
  | leader (block : DWord) (fmt : Fin 8) (w h : Fin 65536)
  | payload (block : DWord) (off : Word) (data : List Byte)
  | trailer (block : DWord)
  | outside                -- content outside the accepted subset
  deriving DecidableEq, Repr

/-- An RTP packet, its CSRCs and header extensions skipped (R379). -/
structure RtpPkt where
  seq : BitVec 16
  ts : Word
  marker : Bool
  payload : List Byte
  deriving DecidableEq, Repr

/-- A PTP message (R378): its source; an announce's rank under the best master clock algorithm, the lower the better. -/
inductive PtpMsg where
  | announce (src rank : DWord)
  | sync (src : DWord) (twoStep : Bool) (origin : DWord)
  | followUp (src origin : DWord)
  | delayResp (src received : DWord)
  | absent                 -- a message of a kind that the clock does not take
  deriving DecidableEq, Repr

/-- What an Ethernet frame carries (R376 to R380), as the protocols' headers give it. -/
inductive EthBody where
  | gvsp (dst : Word) (port : Fin 65536) (ext : Bool) (p : GvspPkt)
  | rtp (dst : Word) (port : Fin 65536) (p : RtpPkt)
  | raw (payload : List Byte)
  | arp (target : Word)
  | ptp (udp : Bool) (domain : Fin 256) (m : PtpMsg)
  | igmpQuery
  | unknown
  deriving DecidableEq, Repr

/-- Whose enable check ends: a page's, or a tenant's (R471, R318). -/
inductive CheckOf where
  | page (p : Fin 4096)
  | tenant (t : Fin 33)
  deriving DecidableEq, Repr


/-- A write of PCIe configuration space, by what it changes (R312, R313, R315, R406). -/
inductive CfgWrite where
  | command (fn : Fin 33) (mse bme : Bool)              -- Memory Space Enable and Bus Master Enable of a function
  | vfControl (enable mse : Bool) (num : Fin 33)        -- SR-IOV: VF Enable, VF Memory Space Enable, NumVFs
  | bar (fn : Fin 33) (n : Fin 6) (v : DWord)           -- a BAR of a function
  | vfBar (n : Fin 6) (v : DWord)                       -- a VF BAR of the SR-IOV capability
  | power (fn : Fin 33) (d3 : Bool)                     -- the power state of a function: D3hot or D0
  | other (fn : Fin 33) (off : Fin 4096) (v : Word)     -- any other register
  deriving DecidableEq, Repr

/-- An IDE_KM message (R335), as PCIe names them. -/
inductive IdeKm where
  | query (stream : Fin 34)
  | keyProg (stream : Fin 34)      -- a key set of the stream is programmed
  | setGo (stream : Fin 34)        -- the stream starts with its programmed keys
  | setStop (stream : Fin 34)
  deriving DecidableEq, Repr

/-- Where the next descriptor comes from: a tenant's ring, or a cadence domain's ring (R112, R157). -/
inductive FetchFrom where
  | ring (t : Fin 33) (r : Fin 64)
  | cadence (d : Fin 16)
  deriving DecidableEq, Repr

/-- The part beside which a wear monitor sits (R441). -/
inductive WearPart where
  | core (p : Fin 128) (phys : Fin 68)
  | crossbar (p : Fin 128)
  | muralLane (port : Fin 8) (lane : Fin 9)
  | dipLane (lane : Fin 3)
  | easel (pair : Fin 2)
  deriving DecidableEq, Repr

/-- A write access to a register page, by its form (R24): an aligned 32-bit word; an aligned 64-bit pair of words; one that is narrower than
32 bits or not aligned, with its byte offset, its size in bytes and its data. -/
inductive RegWrite where
  | word (w : Fin 1024) (v : Word)
  | pair (w : Fin 512) (v : DWord)
  | odd (offset : Fin 4096) (size : Fin 9) (v : DWord)
  deriving DecidableEq, Repr

/-- Is an access of a size at a byte offset aligned (R24)? -/
def accessAligned (offset size : Nat) : Bool :=
  if size = 8 then offset % 8 == 0 else if size = 4 then offset % 4 == 0 else offset / 4 == (offset + size - 1) / 4

/-- The commands of the block: one constructor per row of the opcode table, in the table's order. -/
inductive Instr where
  /-- REGISTER_WRITE (R34): A write to any register that has no row of its own stores its fields, or is discarded according to the page state and access rules. -/
  | registerWrite (a : Acc) (x : RegWrite)
  /-- ENABLE (R32): Writing BLK_CTRL.ENABLE 0 to 1 on an OFF or REFUSED page moves it to CHECKING, registers its claims and starts the enable check. -/
  | enable (a : Acc)
  /-- ENABLE_CHECK_END (R471): An enable check that runs in hardware or in Easel firmware ends: it retests its dependencies, then enters RUNNING or REFUSED with REASON and DETAIL. -/
  | enableCheckEnd (c : CheckOf) (now : DWord)
  /-- DISABLE (R32): Writing BLK_CTRL.ENABLE 1 to 0 abandons a check, or takes a RUNNING block with no dependants to QUIESCING; otherwise the write is discarded. -/
  | disable (a : Acc)
  /-- QUIESCE (R33): Writing BLK_CTRL.QUIESCE 1 on a RUNNING page stops new work and moves it to QUIESCING. -/
  | quiesce (a : Acc)
  /-- QUIESCE_CLEAR (R32): Writing QUIESCE 0 with ENABLE 1 returns a QUIESCING page to RUNNING with no new check. -/
  | quiesceClear (a : Acc)
  /-- QUIESCED (R33): The last unit of work of a QUIESCING block ends, EVT_RAW.QUIESCED is set, and the page enters OFF if ENABLE is 0. -/
  | quiesced (page : Fin 4096) (now : DWord)
  /-- SOFT_RESET (R32): A BLK_CTRL write with SOFT_RESET returns the page's registers to reset and STATE to OFF from OFF, REFUSED, FENCED or a non-FATAL FAULT. -/
  | softReset (a : Acc)
  /-- LOCK (R5): Writing BLK_CTRL.LOCK 1 freezes the page's RWL fields until module reset. -/
  | lockPage (a : Acc)
  /-- EVT_RAW_CLEAR (R36): A W1C write to EVT_RAW clears the bits written 1, unless hardware sets the same bit in that cycle. -/
  | evtRawClear (a : Acc) (v : Word)
  /-- EVT_FORCE (R36): A write to EVT_FORCE sets each EVT_RAW bit written 1 as a hardware set would and advances EVT_SETCOUNT. -/
  | evtForce (a : Acc) (v : Word)
  /-- ERR_STATUS_CLEAR (R38): A W1C write to ERR_STATUS.VALID or OVERFLOW re-arms error capture and clears MERGE. -/
  | errStatusClear (a : Acc) (valid overflow : Bool)
  /-- CLR_COUNTS (R38): Writing ERR_STATUS.CLR_COUNTS clears ERR_COUNT_CE and ERR_COUNT_UE. -/
  | clrCounts (a : Acc)
  /-- LEDGER_SNAPSHOT (R39): A write to LEDGER_SEL latches the five counts of the selected ledger in one cycle. -/
  | ledgerSnapshot (a : Acc) (v : Word)
  /-- PWR_REQ_DOZE (R41): Writing PWR_REQ.TARGET DOZE in OFF, REFUSED or drained QUIESCING sets TRANSITION and stops the block taking work. -/
  | pwrReqDoze (a : Acc)
  /-- DOZE_GATED (R41): The block's clocks are gated within 2 µs, TRANSITION returns to 0 and CURRENT reads DOZE. -/
  | dozeGated (a : Acc)
  /-- PWR_REQ_ACTIVE (R41): Writing TARGET ACTIVE on a dozing block starts the restart of its clocks. -/
  | pwrReqActive (a : Acc)
  /-- CLOCKS_RESTARTED (R41): The clocks of a block leaving DOZE have restarted and CURRENT reads ACTIVE. -/
  | clocksRestarted (a : Acc)
  /-- CLK_SEL_WRITE (R40): A write of CLK_SEL.POINT on a PNL or CNV page selects a DVFS point, applied at the panel's next step boundary unless below a cadence floor. -/
  | clkSelWrite (a : Acc) (v : Word)
  /-- MOD_PD_REQ0_WRITE (R48): A write to MOD_PD_REQ0 requests every Stretcher domain bit it changes, or is refused whole with MOD_PD_RESULT recording the reason. -/
  | modPdReq0Write (v : Word)
  /-- MOD_PD_REQ1_WRITE (R48): A write to MOD_PD_REQ1 requests every canvas quad domain it changes, in dependency order, or is refused whole. -/
  | modPdReq1Write (v : Word)
  /-- PD_TRANSITION_DONE (R48): An accepted domain transition completes within 100 µs, BUSY clears and STATE_CHANGE is set in the MOD page. -/
  | pdTransitionDone
  /-- QUAD_CLEAR_DONE (R81): After a quad powers on, its panels' palettes, stores and staging are written to zero and its PNL pages may be enabled. -/
  | quadClearDone (c : Fin 4) (q : Fin 8)
  /-- MODULE_RESET (R49): A MOD_RESET write with KEY 0x4D52 and CMD 0x1 resets every block outside AON and drops the PCIe link. -/
  | moduleReset (v : Word) (now : DWord)
  /-- MOD_TIME_READ (R47): Reading MOD_TIME_LO returns the timebase low word and latches MOD_TIME_HI. -/
  | modTimeRead (now : DWord)
  /-- MOD_PTP_OFFSET_READ (R47): Reading MOD_PTP_OFFSET_LO returns the PTP offset low word and latches the high word. -/
  | modPtpOffsetRead
  /-- STEP_START (R123): The panel sequencer starts an operation's step once its bindings are full, its wait is met and no move, substitution or quiesce holds it. -/
  | stepStart (p : Fin 128)
  /-- STEP_END (R88): A step ends after exactly its cycle count, its outbound bindings begin to drain and any pending end of operation is taken at the boundary. -/
  | stepEnd (p : Fin 128)
  /-- STREAM_SLOT_LAND (R85): A slot of data arrives at a stream or landing port against a credit and is staged for the palette. -/
  | streamSlotLand (p : Fin 128) (port : Fin 4) (kind : SlotKind)
  /-- MESH_FLIT_ARRIVAL (R90): A flit arrives at a canvas mesh stop and is forwarded by dimension-ordered routing or consumed. -/
  | meshFlitArrival (c : Fin 4) (move : FlitMove)
  /-- GRANT_WITHDRAW_TIMEOUT (R86): 10 µs after a withdrawal, a port credit still in transit with no data returns to free and is counted as reclaimed. -/
  | grantWithdrawTimeout (p : Fin 128)
  /-- CORE_SUBSTITUTION (R93): At the step boundary after a core fence or retirement, the slice and instruction store are copied to a free spare and the core map is updated. -/
  | coreSubstitution (p : Fin 128) (storeUe : List (Fin 32768))
  /-- PNL_RETIRE (R93): A PNL_RETIRE write with KEY 0x7E71 requests retirement of a logical core's position at the next step boundary. -/
  | pnlRetire (p : Fin 128) (v : Word)
  /-- PANEL_SUBSTITUTION (R95): After a panel fence and the end of its step, the canvas spare takes the logical panel, its state is copied over VC3 and the page is readmitted. -/
  | panelSubstitution (p : Fin 128) (dead : Bool) (storeUe : List (Fin 0x260000))
  /-- CNV_RETIRE (R97): A CNV_RETIRE write with KEY 0x7E71 requests proactive retirement of a local logical panel. -/
  | cnvRetire (c : Fin 4) (v : Word)
  /-- PROACTIVE_PANEL_RETIREMENT (R97): Easel firmware retires a panel once it is at a step boundary with no operation started and any cadence gap is long enough. -/
  | proactivePanelRetirement (p : Fin 128) (now : DWord)
  /-- PNL_CYCLES_READ (R99): Reading PNL_CYCLES_LO returns the low word of step cycles and latches the high word. -/
  | pnlCyclesRead (p : Fin 128)
  /-- QUANTUM_EXPIRY (R128): A resident tenant's quantum on a SHARED panel runs out, making the panel eligible for a tenant switch. -/
  | quantumExpiry (p : Fin 128)
  /-- TENANT_SWITCH (R129): At a step boundary a SHARED panel drains, primes non-palette state by Gesso and swaps palette and stores with the incoming tenant's saved state. -/
  | tenantSwitch (p : Fin 128) (tagOk : Bool)
  /-- DOORBELL (R321): A write of a ring's doorbell advances its TAIL, or is discarded with DOORBELL_DISCARDED. -/
  | doorbell (t : Fin 33) (r : Fin 64) (tail : Word)
  /-- DESCRIPTOR_FETCH (R112): The Host Interface fetches the next descriptor of a ring in round robin and accepts it with a tag or refuses it with a record. -/
  | descriptorFetch (src : FetchFrom) (pick : Fin 8192) (now : DWord)
  /-- RUN (R121): A ready RUN reads its argument block, checks steps and bindings, and queues its cartoon's steps on the group's panels. -/
  | opRun (tag : Fin 8192) (now : DWord)
  /-- COPY (R122): A ready COPY moves rows from SRC to DST, including Mural addresses, carrying poison. -/
  | opCopy (tag : Fin 8192) (now : DWord)
  /-- FILL (R122): A ready FILL writes a repeated 8-byte pattern over rows at DST. -/
  | opFill (tag : Fin 8192) (now : DWord)
  /-- SIGNAL (R122): A ready SIGNAL performs its descriptor add and up to 8 further adds together. -/
  | opSignal (tag : Fin 8192) (now : DWord)
  /-- WAIT (R122): A WAIT watches its further waits two at a time and completes when all are met. -/
  | opWait (tag : Fin 8192) (now : DWord)
  /-- CARTOON_LOAD (R107): A ready CARTOON_LOAD checks an image, copies it into the panels' stores, verifies its digest on the copy and marks it resident. -/
  | cartoonLoad (tag : Fin 8192) (now : DWord)
  /-- ATTEND (R236): A ready ATTEND validates its rows and Easel walks each row's page table to send page descriptors to the panels. -/
  | attend (tag : Fin 8192) (now : DWord)
  /-- GLAZE_APPEND (R233): A dispatched GLAZE_APPEND validates its rows and waits layer by layer to quantise and write keys and values. -/
  | glazeAppend (tag : Fin 8192) (now : DWord)
  /-- GLAZE_MOVE (R244): A GLAZE_MOVE allocates destination sets, copies a sequence's private sets between HBM and the Loft and frees the sources. -/
  | glazeMove (tag : Option (Fin 8192)) (slot : Fin 65536) (now : DWord)
  /-- SAMPLE (R220): A SAMPLE whose ring holds ROWS free slots checks its rows and hands them to the Sampler in row order. -/
  | sample (tag : Fin 8192) (now : DWord)
  /-- VDEC_OPEN (R257): VDEC OPEN reads and checks a decode parameter block, claims a context and binds any palette destination slot. -/
  | vdecOpen (tag : Fin 8192) (eng : Fin 2) (pick : Fin 256) (now : DWord)
  /-- VDEC_DECODE (R256): VDEC DECODE submits one access or temporal unit of a host-sourced context for decoding. -/
  | vdecDecode (tag : Fin 8192) (eng : Fin 2) (now : DWord)
  /-- VDEC_FLUSH (R256): VDEC FLUSH outputs every frame still held for reordering in output order. -/
  | vdecFlush (tag : Fin 8192) (eng : Fin 2) (now : DWord)
  /-- VDEC_CLOSE (R256): VDEC CLOSE ends a decode context without output and releases its slot. -/
  | vdecClose (tag : Fin 8192) (eng : Fin 2) (now : DWord)
  /-- VENC_OPEN (R270): VENC OPEN checks an encode parameter block against the level limits and claims a context. -/
  | vencOpen (tag : Fin 8192) (eng : Fin 2) (pick : Fin 256) (now : DWord)
  /-- VENC_ENCODE (R269): VENC ENCODE submits one picture to be coded as one frame. -/
  | vencEncode (tag : Fin 8192) (eng : Fin 2) (now : DWord)
  /-- VENC_RECONFIGURE (R269): VENC RECONFIGURE replaces the rate fields of a context from the frame after the last dispatched ENCODE. -/
  | vencReconfigure (tag : Fin 8192) (eng : Fin 2) (now : DWord)
  /-- VENC_FLUSH (R269): VENC FLUSH posts its record once every earlier ENCODE of the context has ended. -/
  | vencFlush (tag : Fin 8192) (eng : Fin 2) (now : DWord)
  /-- VENC_CLOSE (R269): VENC CLOSE ends an encode context without output. -/
  | vencClose (tag : Fin 8192) (eng : Fin 2) (now : DWord)
  /-- EC_ENCODE (R367): EC_ENCODE sends each data chunk and its Q multiple to the stripe's parity holders as EC_CONTRIB packets for a new epoch. -/
  | ecEncode (tag : Fin 8192) (now : DWord)
  /-- EC_REBUILD (R368): EC_REBUILD reconstructs a lost member's data chunks from surviving chunks and complete parity slots. -/
  | ecRebuild (tag : Fin 8192) (now : DWord)
  /-- GESSO (R416): The GESSO opcode primes the issuing tenant's palette or save slot, and optionally its stores, on each panel of its group. -/
  | gesso (tag : Fin 8192) (now : DWord)
  /-- PREFIX_LOOKUP (R216): PREFIX_LOOKUP hashes a host-tracked sequence's blocks, links matched page sets and stores the hashes of unmatched blocks. -/
  | prefixLookup (tag : Fin 8192) (now : DWord)
  /-- OPERATION_COMPLETE (R116): The last part of an operation ends, its SIGNAL is added if due and its completion record becomes due to its queue. -/
  | operationComplete (tag : Fin 8192) (now : DWord)
  /-- COMPLETION_POST (R325): A due completion record is written to its enabled queue when there is room, with its interrupt if requested. -/
  | completionPost (t : Fin 33) (q : Fin 64)
  /-- OPERATION_TIMEOUT (R127): An operation's TIMEOUT expires: it is abandoned, its record is posted with TIMEOUT and its wait slots are reclaimed. -/
  | operationTimeout (tag : Fin 8192) (now : DWord)
  /-- SYN_ADD (R130): A write of SYN_ADD_HI adds the 64-bit value to the selected counter, or is discarded for an unallocated or poisoned counter. -/
  | synAdd (hi : Word)
  /-- SYN_T_ADD (R130): A tenant write of SYN_T_ADD_HI adds to a counter of its allocation. -/
  | synTAdd (t : Fin 33) (hi : Word)
  /-- SYN_VALUE_READ (R130): Reading SYN_VALUE_LO or SYN_T_VALUE_LO returns the selected counter's low word and latches the high word. -/
  | synValueRead (t : Option (Fin 33))
  /-- REFERENCE_EDGE (R145): A filtered edge on a reference channel changes its count by the mode's rule and is timestamped. -/
  | referenceEdge (ch : Fin 4) (a b : Bool) (ha hb : Fin 64) (ts : DWord)
  /-- INDEX_EDGE (R147): An index edge sets the index reference, corrects the count within INDEX_TOL, or raises SLIP on every domain of the channel. -/
  | indexEdge (ch : Fin 4) (held : Fin 64) (ts : DWord)
  /-- TRACKER_UPDATE (R148): At the end of a 1 µs tick with a counted edge, each domain's tracker updates its predicted position and speed. -/
  | trackerUpdate (d : Fin 16) (now : DWord)
  /-- POSITION_EVALUATION (R150): Every 10 ns the predicted position updates the high-water mark H and fires every event point instance H has passed. -/
  | positionEvaluation (d : Fin 16) (now : DWord)
  /-- TRIGGER_PULSE_END (R155): A trigger output's pulse width elapses and the output returns low. -/
  | triggerPulseEnd (j : Fin 16) (now : DWord)
  /-- STANDSTILL (R153): No counted edge arrives for the standstill time, so the domain snaps its position and sets speed and k to 0. -/
  | standstill (d : Fin 16) (now : DWord)
  /-- EPT_COMMIT (R156): A write of CAD_EPT_COMMIT asks Easel firmware to check the shadow event point table and reports in CAD_EPT_STATUS. -/
  | eptCommit (d : Fin 16) (v : Word)
  /-- EPT_BANK_SWITCH (R156): Once the old bank has finished serving instances below n0, the committed table is active and the shadow bank is refreshed. -/
  | eptBankSwitch (d : Fin 16)
  /-- MARK_QUEUE_READ (R170): Reading CAD_MARK_TIME_LO latches the head mark's time and info and removes it from the queue. -/
  | markQueueRead (d : Fin 16)
  /-- CAD_DOM_POSITION_READ (R170): Reading CAD_DOM_POS_LO, CAD_DOM_HWM_LO or CAD_DOM_SPEED_LO latches the matching high word. -/
  | cadDomPositionRead (d : Fin 16) (which : Fin 3) (now : DWord)
  /-- CAD_REF_COUNT_READ (R171): Reading CAD_REF_COUNT_LO latches the count's high word and the last edge timestamp. -/
  | cadRefCountRead (ch : Fin 4)
  /-- LOSS_OF_SIGNAL (R386): A used reference input stays below 100 mV for 1 µs, setting LOS and raising SLIP on its domains. -/
  | lossOfSignal (ch : Fin 4) (line : Fin 3)
  /-- LOS_CLEARED (R386): A reference input in loss of signal stays above 200 mV for 10 µs and the loss ends. -/
  | losCleared (ch : Fin 4) (line : Fin 3)
  /-- VOTE_DECISION (R174): When every Triptych part has ended, the voter compares the OK records and makes a majority result available or reports no majority. -/
  | voteDecision (tag : Fin 8192) (now : DWord)
  /-- SKEW_TIMEOUT (R174): The skew timer started at the second part's end expires, abandoning late parts and deciding the vote. -/
  | skewTimeout (tag : Fin 8192) (now : DWord)
  /-- CHANNEL_RECOVERY (R178): Once the source channel is idle, its state region is copied to the recovering channel and the channel is readmitted IN. -/
  | channelRecovery (d : Fin 16) (c : Fin 3)
  /-- RECOVERY_WINDOW_CLEAR (R179): Every VAR_TRI_WINDOW cycles of the domain the channel recovery count is cleared. -/
  | recoveryWindowClear (d : Fin 16)
  /-- VOTER_CHECK (R180): The active voter fails its self-check and the other voter's decision is used, switching ACTIVE. -/
  | voterCheck (v : Fin 2)
  /-- VOTER_MISMATCH (R180): The two voters' decisions differ without a self-check failure, so the instance has no result and both voters run a built-in test. -/
  | voterMismatch (tag : Fin 8192) (fail0 fail1 : Bool)
  /-- PAIRING_FRAME (R183): Receipt of a pairing frame compares configuration digests and settles the Diptych roles. -/
  | pairingFrame (serial : DWord) (prefer : Bool) (role : Fin 8) (digest : List Byte)
  /-- HEARTBEAT_SEND (R185): Every period P the module sends a heartbeat carrying its role, H, last output word and snapshot state. -/
  | heartbeatSend (now : DWord)
  /-- HEARTBEAT_RECEIVE (R186): A received heartbeat checks alignment and may demote an ACTIVE module or promote a STANDBY one. -/
  | heartbeatReceive (role : Fin 8) (p : Byte) (doms : List HbDom) (hand : Option Nat) (ack : Bool) (now : DWord)
  /-- HB_MISS (R186): A heartbeat window passes with no heartbeat, counting toward demotion, takeover or SOLO activation. -/
  | hbMiss (now : DWord)
  /-- SNAPSHOT_START (R188): At the later of the SNAPSHOT firing and the RESULT RUN's end, the active sends the instance's snapshot over the Diptych port. -/
  | snapshotStart (d : Fin 16) (n : Nat)
  /-- SNAPSHOT_RECEIVE (R189): The standby receives a complete snapshot, checks its CRC and applies or holds it. -/
  | snapshotReceive (d : Fin 16) (n : Nat) (word : BitVec 16) (data : List Byte) (crc : Word)
  /-- SNAPSHOT_COMPARE (R189): Under SHADOW_RUN, after its own instance ends, the standby compares its regions with the snapshot and takes it on a difference. -/
  | snapshotCompare (d : Fin 16)
  /-- HANDOVER (R190): VAR_DIP_CMD HANDOVER on an ACTIVE module schedules a role swap at the DEADLINE of a chosen instance. -/
  | handover (v : Word) (now : DWord)
  /-- TAKE_ACTIVE (R190): VAR_DIP_CMD TAKE_ACTIVE makes an UNPAIRED module that has heard no ACTIVE peer become ACTIVE. -/
  | takeActive (v : Word) (now : DWord)
  /-- VAR_DIP_PEER_SERIAL_READ (R194): Reading VAR_DIP_PEER_SERIAL_LO latches the peer serial's high word. -/
  | varDipPeerSerialRead
  /-- DIPTYCH_FRAME_RECEIVE (R191): A Diptych link frame arrives, is delivered once, or triggers replay, retraining after its retry budget. -/
  | diptychFrameReceive (seq : Nat) (crcOk corrected : Bool) (acked : Nat)
  /-- DIPTYCH_LANE_SWAP (R191): A failing Diptych lane is replaced by the spare within 20 µs with frames held for replay. -/
  | diptychLaneSwap (lane : Fin 3)
  /-- DIPTYCH_LINK_DOWN (R191): Loss of signal takes the Diptych link DOWN and starts the link-down timeout. -/
  | diptychLinkDown (partialSnap : Bool)
  /-- DIPTYCH_LINK_DOWN_TIMEOUT (R191): 100 µs after link down, DIP_CREDITS held for the peer return to free as reclaimed. -/
  | diptychLinkDownTimeout
  /-- DIPTYCH_LINK_UP (R183): The Diptych link comes up and a pairing frame exchange begins. -/
  | diptychLinkUp
  /-- PLAN_LOAD (R201): PLAN_LOAD copies a plan into Easel SRAM, checks it and its digest on the copy and makes it resident. -/
  | planLoad (i : Nat) (now : DWord)
  /-- OPEN (R199): The OPEN request command allocates a sequence slot within the tenant's limit in the chosen mode. -/
  | seqOpen (i pick : Nat) (now : DWord)
  /-- GENERATE (R206): GENERATE appends tokens to an Easel-tracked sequence, runs a prefix lookup, prefills and decodes to an end condition. -/
  | seqGenerate (i : Nat) (now : DWord)
  /-- PAUSE (R207): PAUSE marks a sequence to end its generation at the next commit point and optionally parks it in the Loft. -/
  | seqPause (i : Nat) (now : DWord)
  /-- CANCEL (R208): CANCEL sets the sequence's cancel mark in the Sampler within 2 µs of acceptance. -/
  | seqCancel (i : Nat) (now : DWord)
  /-- CLOSE (R199): CLOSE cancels a sequence, then releases every page and prefix reference and frees its slot. -/
  | seqClose (i : Nat) (now : DWord)
  /-- BATCH_STEP (R204): When a step's last row becomes eligible, Easel firmware writes its batch record, signals it and issues the plan templates. -/
  | batchStep (t : Fin 33) (plan : Fin 4) (only : List Nat) (now : DWord)
  /-- STEP_REISSUE (R205): After a retryable failure and the end of every operation of the step, Easel reissues the step from template 0. -/
  | stepReissue (t : Fin 33) (plan : Fin 4) (k : Nat) (now : DWord)
  /-- EASEL_SAMPLE_ISSUE (R202): When SAMPLE_WAIT's counter reaches the step's threshold, Easel firmware issues the step's SAMPLE. -/
  | easelSampleIssue (t : Fin 33) (plan : Fin 4) (k : Nat) (now : DWord)
  /-- SAMPLER_DECISION (R218): The Sampler reads one row's logits and chooses a token under penalties, biases, mask, temperature and top-k, top-p and min-p. -/
  | samplerDecision (job : Nat) (now : DWord)
  /-- TOKEN_COMMIT (R222): A decided token is written to the token ring, appended to history and advances the sequence, unless a cancel mark drops the row. -/
  | tokenCommit (job : Nat) (now : DWord)
  /-- SEQ_EXPIRED (R245): At the whole second after a PARKED sequence's time to live, its Loft sets are freed and it becomes EXPIRED. -/
  | seqExpired (slot : Fin 65536) (now : DWord)
  /-- TOKEN_RING_HEAD (R226): A write of a token ring's HEAD releases the entries up to it, or is discarded if it passes TAIL. -/
  | tokenRingHead (t : Fin 33) (r : Fin 16) (v : Word)
  /-- DOMAIN_KEY_INSTALL (R225): A write of SMP_DOM_KEY3 installs the shared domain's key and advances its EPOCH. -/
  | domainKeyInstall (v : Word)
  /-- GEN_KEY (R225): Writing SMP_DOM_CTRL.GEN_KEY has the security block draw and install a random domain key. -/
  | genKey (v : Word)
  /-- SHARED_DOMAIN_VALID (R225): A write of SMP_DOM_CTRL.VALID changes a shared domain's validity, invalidating its entries on 1 to 0. -/
  | sharedDomainValid (v : Word)
  /-- SMP_DECISIONS_READ (R225): Reading SMP_DECISIONS_LO latches the decision count's high word. -/
  | smpDecisionsRead
  /-- APPEND_LAYER (R234): When a layer's wait is met, the Glaze Unit allocates sets and quantises each row's keys and values into that layer. -/
  | appendLayer (tag : Fin 8192) (now : DWord)
  /-- ATTEND_LAYER_STEP (R240): A panel runs one ATTEND layer step once the layer's wait, queries and descriptors are in place, computing attention in two passes. -/
  | attendLayerStep (p : Fin 128) (now : DWord)
  /-- DECODE_FRAME_START (R252): At a frame boundary the decode pipeline picks the ready frame of lowest priority and loads that context's state. -/
  | decodeFrameStart (eng : Fin 2) (ctx : Fin 256) (now : DWord)
  /-- DECODE_FRAME_END (R266): A decoded frame is written to its surface or palette bands, its counter is raised and its frame record written. -/
  | decodeFrameEnd (eng : Fin 2) (now : DWord)
  /-- ENCODE_FRAME_START (R252): At a frame boundary the encode pipeline picks a ready ENCODE whose bitstream ring has room. -/
  | encodeFrameStart (eng : Fin 2) (ctx : Fin 256) (now : DWord)
  /-- SLICE_EMIT (R271): A coded slice's bytes are written to the bitstream ring, then its slice record, then SLICE_SIGNAL. -/
  | sliceEmit (eng : Fin 2) (now : DWord)
  /-- PDEST_COMMIT (R262): VCE_PDEST_CMD.COMMIT checks one palette destination slot and registers its region claims. -/
  | pdestCommit (eng : Fin 2) (v : Word)
  /-- PATROL_SCRUB (R295): The patrol scrubber reads the next word of its tier in a free slot and writes back a corrected word. -/
  | patrolScrub (tier : Fin 3) (found : Fin 3) (syn : Byte) (now : DWord)
  /-- WEIGHT_REPAIR (R297): An uncorrectable word in a WEIGHT frame holds reads of its block and starts a refetch from Fresco. -/
  | weightRepair (addr : DWord) (syn : Byte) (now : DWord)
  /-- WEIGHT_REPAIRED (R297): The refetched block is rewritten whole and the held reads are served. -/
  | weightRepaired (block : Fin 8388608) (media : Bool) (now : DWord)
  /-- RETIRED (R298): A 4 KiB piece with an uncorrectable word or too many corrected errors is copied to reserve and remapped. -/
  | pieceRetired (piece : Nat)
  /-- BANK_HANDOVER (R290): A write to STU_BANKn that changes OWNER refuses old requests, drains, scrubs the bank and installs the new owner. -/
  | bankHandover (n : Fin 32) (v : Word)
  /-- HANDOVER_DONE (R290): A bank hand-over ends with OWNER and GUEST at their new values and STATE OWNED. -/
  | handoverDone (n : Fin 32)
  /-- BANK_GUEST_CHANGE (R290): A write to STU_BANKn that changes only GUEST runs the hand-over for port B without a scrub. -/
  | bankGuestChange (n : Fin 32) (guest : Fin 8)
  /-- MARCH_START (R301): xxx_MARCH_CMD START with KEY 0x4D43 starts a March C- test over the target, or is refused. -/
  | marchStart (tier : Fin 3) (v : Word)
  /-- MARCH_DONE (R300): A march test ends, returning its target and reporting failing words. -/
  | marchDone (tier : Fin 3) (fails : List Nat)
  /-- MARCH_FAIL_READ (R301): Reading xxx_MARCH_FAIL_LO latches the high bits of the first failing address. -/
  | marchFailRead (tier : Fin 3)
  /-- CLEAR_DONE (R299): HBM or Loft clearing completes, DONE becomes 1 and frame claims of the tier are allowed. -/
  | clearDone (loft : Bool)
  /-- FRESCO_RING_TAIL (R305): A write of FRS_RING_TAIL makes new Fresco command slots available to the module. -/
  | frescoRingTail (v : Word)
  /-- FRESCO_READ (R305): A Fresco READ command reads blocks of a partition into owner memory. -/
  | frescoRead (media : List Nat)
  /-- FRESCO_WRITE (R305): A Fresco WRITE command writes owner memory to blocks of a partition. -/
  | frescoWrite
  /-- FRESCO_TRIM (R305): A Fresco TRIM command discards blocks of a partition. -/
  | frescoTrim
  /-- FRESCO_FLUSH (R306): A Fresco FLUSH command completes once every earlier WRITE is durable. -/
  | frescoFlush
  /-- CMD_DONE (R306): A Fresco command finishes and writes STATUS, DETAIL and DONE to its slot. -/
  | cmdDone (slot : Fin 65536)
  /-- PERST_ASSERT (R461): Asserting PERST# holds every block outside AON in reset. -/
  | perstAssert (now : DWord)
  /-- RESET_RELEASE (R462): At T0 the reset sequence powers core domains, rebuilds Fresco, boots firmware, trains memory and replays the spare map. -/
  | resetRelease (okA okB : Bool) (svnA svnB : Fin 256) (now : DWord)
  /-- CONFIG_READY (R463): Once the link is up and the palette march has ended, the endpoint stops answering configuration requests with retry status. -/
  | configReady (speed : Fin 7) (lanes : Fin 64) (flit : Bool) (fails : List (Fin 132 × Fin 68)) (now : DWord)
  /-- CONFIG_REQUEST (R463): A PCIe configuration request is answered, with Configuration Request Retry Status before configuration ready. -/
  | configRequest (fn : Fin 33)
  /-- PCI_CONFIG_WRITE (R406): A configuration write that clears Memory Space Enable or changes a VF BAR moves a locked TDI to ERROR. -/
  | pciConfigWrite (w : CfgWrite) (now : DWord)
  /-- FLR (R315): A VF Function Level Reset returns the VF's registers to reset and disables its tenant. -/
  | flr (vf : Fin 32) (now : DWord)
  /-- VF_ENABLE_CLEAR (R331): Clearing VF Enable disables tenants 1-32. -/
  | vfEnableClear (now : DWord)
  /-- D3HOT_ENTRY (R315): A function entering D3hot completes BAR requests as Unsupported Request and issues no host requests. -/
  | d3hotEntry (fn : Fin 33)
  /-- HOST_COMPLETION (R314): A completion for a host-memory read arrives, delivering data, poisoned data or a HOST_ERROR fault. -/
  | hostCompletion (t : Fin 33) (line : Nat) (c : HostCpl)
  /-- HOST_COMPLETION_TIMEOUT (R314): A host read gets no completion in 50 ms and faults with HOST_ERROR. -/
  | hostCompletionTimeout (line : Nat)
  /-- IDE_FAIL (R335): A TLP fails its IDE check, is dropped and the stream enters its insecure state. -/
  | ideFail (stream : Fin 34) (now : DWord)
  /-- IDE_KM (R335): An IDE_KM message in a secured SPDM session manages the keys of an IDE stream. -/
  | ideKm (sid : Fin 4) (m : IdeKm) (now : DWord)
  /-- TENANT_ENABLE (R318): HIF_TEN_CMD ENABLE starts the tenant check of an OFF or REFUSED tenant. -/
  | tenantEnable (t : Fin 64) (now : DWord)
  /-- TENANT_DISABLE (R332): HIF_TEN_CMD DISABLE moves a tenant to QUIESCING, stopping its rings, writes and signals. -/
  | tenantDisable (t : Fin 64) (now : DWord)
  /-- TENANT_QUIET (R332): When every part of a disabling tenant has ended, its state is scrubbed, its units reclaimed and it enters OFF. -/
  | tenantQuiet (t : Fin 33) (now : DWord)
  /-- RING_ENABLE (R322): Writing RING_CFG.ENABLE 1 checks the ring and starts fetching with HEAD, TAIL and the replay window afresh. -/
  | ringEnable (t : Fin 33) (r : Fin 64) (v : Word)
  /-- RING_DISABLE (R322): Writing RING_CFG.ENABLE 0 stops fetching within 1 µs and gives up any held descriptor. -/
  | ringDisable (t : Fin 33) (r : Fin 64)
  /-- CQ_ENABLE (R324): Writing CQ_CFG.ENABLE 1 checks a completion queue and starts its record count from 0. -/
  | cqEnable (t : Fin 33) (q : Fin 64) (v : Word)
  /-- CQ_DISABLE (R324): Writing CQ_CFG.ENABLE 0 disables a queue that nothing names, or is discarded. -/
  | cqDisable (t : Fin 33) (q : Fin 64)
  /-- CQ_HEAD_WRITE (R324): A write of CQ_HEAD consumes records and frees room for posting. -/
  | cqHeadWrite (t : Fin 33) (q : Fin 64) (v : Word)
  /-- CQ_WRITE_RETRY (R325): A queue held by a failed record write tries the write again at least every 100 µs. -/
  | cqWriteRetry (t : Fin 33) (q : Fin 64)
  /-- HOLDOFF_END (R326): A queue's interrupt hold-off ends and any raise due meanwhile is sent once. -/
  | holdoffEnd (t : Fin 33) (q : Fin 64)
  /-- MAP (R328): MMU_CMD MAP checks every page, claims and zeroes free frames, and maps all pages or none. -/
  | mmuMap
  /-- UNMAP (R329): MMU_CMD UNMAP removes COUNT entries once no engine holds their translations. -/
  | mmuUnmap
  /-- SET_WINDOW (R329): MMU_CMD SET_WINDOW places the tenant's palette window at a 1 GiB-aligned DVA. -/
  | setWindow
  /-- CLEAR_WINDOW (R329): MMU_CMD CLEAR_WINDOW stops new resolutions through the window and waits for operations using it. -/
  | clearWindow
  /-- CLEAR_WINDOW_REMOVE (R329): After the last operation resolved through the window ends, the window is removed within 12 µs. -/
  | clearWindowRemove
  /-- MMU_FAULT_POP (R346): Reading MMU_T_FAULT_INFO returns the head translation fault and removes it from the queue. -/
  | mmuFaultPop (t : Fin 33)
  /-- MMU_FAULT_DVA_READ (R346): Reading MMU_T_FAULT_DVA_LO latches the head fault's DVA high bits. -/
  | mmuFaultDvaRead (t : Fin 33)
  /-- GET_TDISP_VERSION (R405): A GET_TDISP_VERSION message returns the supported TDISP version. -/
  | getTdispVersion (sid : Fin 4) (t : Fin 32)
  /-- GET_TDISP_CAPABILITIES (R405): A GET_TDISP_CAPABILITIES message returns the TDI capabilities. -/
  | getTdispCapabilities (sid : Fin 4) (t : Fin 32)
  /-- LOCK_INTERFACE_REQUEST (R405): LOCK_INTERFACE_REQUEST moves a TDI to CONFIG_LOCKED and freezes its tenant's layout. -/
  | lockInterfaceRequest (sid : Fin 4) (t : Fin 32) (stream : Fin 34) (noUpdate : Bool)
  /-- GET_DEVICE_INTERFACE_REPORT (R405): GET_DEVICE_INTERFACE_REPORT returns the TDI's MMIO ranges and layout entries. -/
  | getDeviceInterfaceReport (sid : Fin 4) (t : Fin 32)
  /-- GET_DEVICE_INTERFACE_STATE (R405): GET_DEVICE_INTERFACE_STATE returns the TDI's state. -/
  | getDeviceInterfaceState (sid : Fin 4) (t : Fin 32)
  /-- START_INTERFACE_REQUEST (R405): START_INTERFACE_REQUEST with the LOCK nonce moves a locked TDI to RUN. -/
  | startInterfaceRequest (sid : Fin 4) (t : Fin 32) (nonce : BitVec 256)
  /-- STOP_INTERFACE_REQUEST (R405): STOP_INTERFACE_REQUEST disables the tenant if needed and returns the TDI to CONFIG_UNLOCKED. -/
  | stopInterfaceRequest (sid : Fin 4) (t : Fin 32) (now : DWord)
  /-- GET_VERSION (R402): An SPDM GET_VERSION request is answered with the supported versions. -/
  | getVersion
  /-- GET_CAPABILITIES (R402): An SPDM GET_CAPABILITIES request is answered with the supported capabilities. -/
  | getCapabilities
  /-- NEGOTIATE_ALGORITHMS (R402): An SPDM NEGOTIATE_ALGORITHMS request settles the algorithms. -/
  | negotiateAlgorithms (offered : Fin 16)
  /-- GET_CERTIFICATE (R402): An SPDM certificate request returns the slot-0 chain. -/
  | getCertificate (slot : Fin 8) (off len : Fin 65536)
  /-- CHALLENGE (R402): An SPDM CHALLENGE is answered with CHALLENGE_AUTH signed by the L2 alias key. -/
  | challenge (slot : Fin 8) (nonce : BitVec 256)
  /-- GET_MEASUREMENTS (R403): GET_MEASUREMENTS returns the Provenance report's measurement blocks, signed where allowed. -/
  | getMeasurements (index : Fin 256) (signed : Bool) (nonce : BitVec 256) (now : DWord)
  /-- KEY_EXCHANGE (R402): An SPDM KEY_EXCHANGE opens a secured session, at most four at once. -/
  | keyExchange (data : List Byte) (now : DWord)
  /-- HEARTBEAT (R402): An SPDM HEARTBEAT keeps a secured session alive. -/
  | spdmHeartbeat (sid : Fin 4) (now : DWord)
  /-- KEY_UPDATE (R402): An SPDM KEY_UPDATE refreshes a secured session's keys. -/
  | keyUpdate (sid : Fin 4)
  /-- MURAL_FRAME_RECEIVE (R351): A Mural frame arrives, advancing the receiver's hunt, lock gate or lock tracking by its sync word. -/
  | muralFrameReceive (port : Fin 8) (off : Fin 257) (sync : DWord) (flitsOk : Bool) (fec : BitVec 16) (tail : BitVec 58)
  /-- DATA_FLIT_RECEIVE (R352): A data flit is delivered if its CRC passes and SEQ is expected, discarded as a duplicate, or triggers a NAK. -/
  | dataFlitReceive (port : Fin 8) (flit : List Byte) (now : DWord)
  /-- CONTROL_FLIT_RECEIVE (R352): A control flit delivers ACK, NAK, credit counts and lane status to the sender. -/
  | controlFlitReceive (port : Fin 8) (wire : List Byte) (ackV : Bool) (ack : BitVec 13) (nakV : Bool) (nak : BitVec 13) (c0 c1 c2 : BitVec 16) (now : DWord)
  /-- CONTROL_FLIT_SEND (R352): The receiver sends a control flit at least every 64 flits and every 200 ns while data flows. -/
  | controlFlitSend (port : Fin 8) (now : DWord)
  /-- NAK_REPEAT (R352): A NAK not followed by a replay within 2 µs is sent again. -/
  | nakRepeat (port : Fin 8) (now : DWord)
  /-- REPLAY_TIMEOUT (R353): No ACK covers the oldest flit within 2 µs, so the sender replays, going DOWN after the retry budget. -/
  | replayTimeout (port : Fin 8) (now : DWord)
  /-- LANE_SWAPPED (R354): A failing Mural lane is replaced by the spare within 20 µs, or a second failure takes the port DOWN. -/
  | laneSwapped (port : Fin 8) (lane : Fin 9) (now : DWord)
  /-- PORT_POWER_WRITE (R356): A write of MUR_PORT_CTRL.POWER sets a port's target power state, held until any transition ends. -/
  | portPowerWrite (port : Fin 8) (v : Word)
  /-- POWER_DONE (R356): A port power transition completes and any held target is acted on. -/
  | powerDone (port : Fin 8) (now : DWord)
  /-- LINK_UP (R356): A Mural port completes training, shows its peer and grants credits from zero. -/
  | muralLinkUp (port : Fin 8) (peer : BitVec 12) (peerPort : Fin 8) (stepping : BitVec 16) (x4 : Bool) (rtt : BitVec 16) (now : DWord)
  /-- LINK_DOWN (R357): Loss of signal, lasting loss of lock or LINK_UE takes a port DOWN, failing its queued packets and reclaiming replay and receive units. -/
  | muralLinkDown (port : Fin 8) (los : Bool) (now : DWord)
  /-- LINK_DOWN_TIMEOUT (R357): 100 µs after DOWN, credits held for the peer are reclaimed and training begins if the target is ACTIVE. -/
  | linkDownTimeout (port : Fin 8) (now : DWord)
  /-- MURAL_WRITE (R360): A WRITE packet is checked against job, member and window and written through the MMU or landing port. -/
  | muralWrite (now : DWord)
  /-- MURAL_READ_REQ (R360): A READ_REQ packet is checked and answered with READ_RESP. -/
  | muralReadReq (now : DWord)
  /-- READ_RESP (R359): A READ_RESP packet's data is written to the COPY destination. -/
  | readResp (now : DWord)
  /-- WRITE_ACK (R359): A WRITE_ACK frees its tracking entry and, after the last ack, lets the COPY send its SIGNAL. -/
  | writeAck (now : DWord)
  /-- MURAL_SIGNAL (R360): A SIGNAL packet raises the slot's RX_COUNTER once earlier writes from its source are acknowledged. -/
  | muralSignal (now : DWord)
  /-- SIGNAL_ACK (R359): A SIGNAL_ACK lets the COPY add its own SIGNAL and end. -/
  | signalAck (now : DWord)
  /-- EC_CONTRIB (R367): An EC_CONTRIB packet is written or XORed into the epoch's parity slot bank, or answered EC_STALE. -/
  | ecContrib (now : DWord)
  /-- EC_ACK (R367): An EC_ACK acknowledges a contribution, completing EC_ENCODE after the last. -/
  | ecAck (now : DWord)
  /-- PACKET_ROUTE (R364): A packet arriving at the module is looked up once in the active route table and sent on PORT, ALT or delivered locally. -/
  | packetRoute (n : Nat) (now : DWord)
  /-- ROUTE_WAIT_TIMEOUT (R364): A packet that waited 100 µs for a usable port fails with LINK_DOWN or a FAULT response. -/
  | routeWaitTimeout (n : Nat) (now : DWord)
  /-- REQUEST_TIMEOUT (R363): A request with no response in 40 µs ends its part with LINK_DOWN and its entry is reclaimed. -/
  | requestTimeout (entry : Fin 8192) (now : DWord)
  /-- ROUTE_STALL (R355): A VC holding flits gets no credit for 1 ms, setting ROUTE_STALL. -/
  | routeStall (port : Fin 8) (vc : Fin 3)
  /-- ROUTE_COMMIT (R365): MUR_RT_COMMIT has Easel check the shadow route table and activate it under a new epoch. -/
  | routeCommit (v : Word)
  /-- ROUTE_EPOCH_RETIRE (R365): The last packet of an old route epoch leaves the module and the epoch retires. -/
  | routeEpochRetire
  /-- JOB_OPEN (R375): MUR_JOB_CMD OPEN checks and opens a job slot. -/
  | jobOpen (slot : Fin 64)
  /-- JOB_CLOSE (R375): MUR_JOB_CMD CLOSE ends the slot's operations and frees the slot. -/
  | jobClose (slot : Fin 64)
  /-- MEMBER_STATE_WRITE (R361): A write of MUR_JOB_MEMBER.STATE sets a member ADMITTED, JOINING or LOST, effective at the next step boundary. -/
  | memberStateWrite (v : Word)
  /-- PORT_TEST (R373): Writing MUR_PORT_TEST.RUN on an UP, drained port starts a pseudo-random flit test. -/
  | portTest (port : Fin 8) (v : Word)
  /-- TEST_DONE (R373): A port test ends and reports its errors and PASS. -/
  | testDone (port : Fin 8) (errors : Word)
  /-- ETHERNET_FRAME (R376): An Ethernet frame arrives at an Ingest interface and is matched to a stream or protocol, or dropped. -/
  | ethernetFrame (i : Fin 4) (len : Fin 65536) (fcs : Bool) (tags : Fin 8) (b : EthBody) (now : DWord)
  /-- GVSP_PACKET (R379): A GVSP leader, payload or trailer packet is written into its stream's frame. -/
  | gvspPacket (i : Fin 4) (dst : Word) (port : Fin 65536) (ext : Bool) (p : GvspPkt) (now : DWord)
  /-- RTP_PACKET (R381): An RTP packet is reordered and assembled into access units delivered whole to a VCE input area. -/
  | rtpPacket (i : Fin 4) (dst : Word) (port : Fin 65536) (p : RtpPkt) (now : DWord)
  /-- RTP_REORDER_TIMEOUT (R381): A gap not filled within the 2 ms reorder window is reported as a loss in the access unit. -/
  | rtpReorderTimeout (n : Fin 64) (now : DWord)
  /-- RAW_PACKET (R380): A Quebexa raw FRAME_START, LINE or FRAME_END packet is written into its stream's frame. -/
  | rawPacket (i : Fin 4) (b : List Byte) (now : DWord)
  /-- FRAME_TIMEOUT (R383): FRAME_TIMEOUT after the last accepted packet ends the frame. -/
  | frameTimeout (n : Fin 64) (now : DWord)
  /-- ARP_REQUEST (R377): An ARP request for an interface address is answered. -/
  | arpRequest (i : Fin 4) (target : Word)
  /-- PTP_MESSAGE (R378): A PTP event or general message is timestamped and updates the slave clock's servo. -/
  | ptpMessage (i : Fin 4) (udp : Bool) (domain : Fin 256) (m : PtpMsg) (now : DWord)
  /-- PTP_ANNOUNCE_TIMEOUT (R378): Three announce intervals without an announce put the clock in HOLDOVER. -/
  | ptpAnnounceTimeout
  /-- STREAM_COMMIT (R384): ING_STR_CMD COMMIT checks a stream configuration, applied at its next frame boundary. -/
  | streamCommit
  /-- STREAM_DISABLE (R384): ING_STR_CMD DISABLE stops the stream at its next frame boundary and releases its claims. -/
  | streamDisable
  /-- LINK_CHANGE (R376): An Ingest interface goes up or down. -/
  | linkChange (i : Fin 4) (up : Bool)
  /-- INPUT_EDGE (R388): A filtered edge on a plant input is timestamped and sets INPUT_EDGE. -/
  | inputEdge (i : Fin 4) (high : Bool) (held : Fin 64) (t : DWord)
  /-- MGT_IN_EDGE_READ (R394): Reading MGT_INi_EDGE_LO latches the edge time's high word. -/
  | mgtInEdgeRead (i : Fin 4)
  /-- MGT_OUT_LEVEL_WRITE (R387): A write of MGT_OUT_LEVEL drives every unclaimed plant output to its bit and ends reset behaviour. -/
  | mgtOutLevelWrite (v : Word)
  /-- MGT_POWER_CAP_WRITE (R394): A write of MGT_POWER_CAP sets the owner cap, discarded outside its bounds. -/
  | mgtPowerCapWrite (v : Word)
  /-- POWER_SAMPLE (R451): Each 1 µs power sample updates the 100 µs average and drives the three throttle stages. -/
  | powerSample (mv ma : BitVec 32) (avg proj : BitVec 11) (now : DWord)
  /-- I2C_ENABLE (R392): MGT_I2Cb_CTRL.EN 0 to 1 samples the bus, recovers a stuck SDA and enables or refuses the controller. -/
  | i2cEnable (b : Fin 4) (v : Word) (sdaLow sclLow freed : Bool)
  /-- I2C_DISABLE (R392): Writing EN 0 finishes the current byte and ends with a STOP. -/
  | i2cDisable (b : Fin 4) (v : Word)
  /-- I2C_STRETCH_TIMEOUT (R392): A target holding SCL low for 25 ms makes the controller abort and recover. -/
  | i2cStretchTimeout (b : Fin 4) (recovered : Bool)
  /-- SET_ENDPOINT_ID (R389): MCTP Set Endpoint ID assigns the endpoint ID. -/
  | setEndpointId (op : Fin 4) (eid : Fin 256)
  /-- GET_ENDPOINT_ID (R389): MCTP Get Endpoint ID returns the endpoint ID. -/
  | getEndpointId
  /-- GET_MCTP_VERSION_SUPPORT (R389): MCTP Get MCTP Version Support returns the versions. -/
  | getMctpVersionSupport (typ : Fin 256)
  /-- GET_MESSAGE_TYPE_SUPPORT (R389): MCTP Get Message Type Support returns the message types. -/
  | getMessageTypeSupport
  /-- GET_ENDPOINT_UUID (R389): MCTP Get Endpoint UUID returns the UUID. -/
  | getEndpointUuid
  /-- GET_TID (R389): PLDM GetTID returns the terminus ID. -/
  | getTid
  /-- GET_PLDM_VERSION (R389): PLDM GetPLDMVersion returns a type's version. -/
  | getPldmVersion (typ : Fin 64)
  /-- GET_PLDM_TYPES (R389): PLDM GetPLDMTypes returns the supported types. -/
  | getPldmTypes
  /-- GET_PLDM_COMMANDS (R389): PLDM GetPLDMCommands returns a type's commands. -/
  | getPldmCommands (typ : Fin 64)
  /-- GET_SENSOR_READING (R390): PLDM GetSensorReading returns a sensor of R390 with thresholds. -/
  | getSensorReading (i : Fin 65536)
  /-- SET_EVENT_RECEIVER (R389): PLDM SetEventReceiver sets where threshold events go. -/
  | setEventReceiver (enable : Bool) (eid : Fin 256)
  /-- RESET_STATE_EFFECTER (R389): The PLDM reset state effecter performs MODULE_RESET with cause PLATFORM. -/
  | resetStateEffecter (now : DWord)
  /-- POWER_CAP_EFFECTER (R389): The PLDM numeric power-cap effecter sets MGT_POWER_CAP_PLDM, or rejects a value below the floor. -/
  | powerCapEffecter (w : BitVec 11)
  /-- REQUEST_UPDATE (R389): PLDM type 5 RequestUpdate begins a firmware update of the inactive slot, refused under a locked TDI with NO_FW_UPDATE. -/
  | requestUpdate
  /-- TRANSFER_COMPLETE (R303): PLDM type 5 TransferComplete ends the image transfer, with an error if Fresco could not program it. -/
  | transferComplete (image : List Byte) (programmed : Bool)
  /-- APPLY_COMPLETE (R400): After ApplyComplete the security block verifies the new image and sets SEC_FW.PENDING. -/
  | applyComplete
  /-- FRU_READ (R391): A sideband read at address 0x50 returns FRU EEPROM bytes; writes are NACKed. -/
  | fruRead (write : Bool) (off : Fin 256) (n : Fin 257)
  /-- MOISTURE_CHANGE (R454): The moisture sensor reads wet or open circuit and PLDM reports it by PlatformEventMessage. -/
  | moistureChange (v : Fin 3)
  /-- FLOW_LOW (R454): The coolant temperature rise exceeds its limit for 10 s, so flow is treated as low and ENV_OK drops. -/
  | flowLow (now : DWord)
  /-- DEPLOY (R396): SEC_LC_CMD DEPLOY moves PROVISIONED to DEPLOYED, wipes and resets the module. -/
  | lcDeploy (now : DWord)
  /-- RETURN (R396): SEC_LC_CMD RETURN moves DEPLOYED to RETURNED, trims owner partitions, wipes and resets. -/
  | lcReturn (now : DWord)
  /-- END (R396): SEC_LC_CMD END moves RETURNED to ENDED, wipes and resets. -/
  | lcEnd (now : DWord)
  /-- WIPE (R418): SEC_LC_CMD WIPE performs a solvent wipe recorded as FATAL WIPE_CMD. -/
  | lcWipe (now : DWord)
  /-- DEBUG_FIELD (R397): SEC_LC_CMD DEBUG_FIELD selects FIELD debug from the next module reset. -/
  | debugField
  /-- DEBUG_CLOSE (R397): SEC_LC_CMD DEBUG_CLOSE selects CLOSED debug from the next module reset. -/
  | debugClose
  /-- DEBUG_OPEN (R397): SEC_LC_CMD DEBUG_OPEN with a valid token opens debug at once and wipes the Reserve. -/
  | debugOpen (now : DWord)
  /-- NONCE_READ (R397): Reading SEC_NONCE_LO draws a fresh nonce and latches its high word. -/
  | nonceRead
  /-- ARB_ADVANCE (R401): SEC_ARB_CMD with KEY 0x4152 raises the selected anti-rollback counter. -/
  | arbAdvance (value : Fin 256)
  /-- INSTALL_JOB (R414): SEC_KEY_CMD INSTALL_JOB unwraps a key envelope into a closed Mural job slot. -/
  | installJob (slot : Fin 64)
  /-- INSTALL_PAIR (R414): SEC_KEY_CMD INSTALL_PAIR unwraps the Diptych pair key. -/
  | installPair
  /-- CLEAR_JOB (R414): SEC_KEY_CMD CLEAR_JOB erases a closed job slot's key. -/
  | clearJob (slot : Fin 64)
  /-- CLEAR_PAIR (R414): SEC_KEY_CMD CLEAR_PAIR erases the pair key. -/
  | clearPair
  /-- LOAD (R409): SEC_WR_CMD LOAD unwraps a model image, claims frames and re-encrypts its blocks into HBM under a residence key. -/
  | wrLoad (now : DWord)
  /-- UNLOAD (R411): SEC_WR_CMD UNLOAD zeroes and frees an unmapped weight region and erases its keys. -/
  | wrUnload
  /-- TAMPER (R417): An armed tamper loop or an internal detector trips and a FATAL solvent wipe follows. -/
  | tamper (closed : Fin 4) (held : Fin 256) (dets : Fin 8) (now : DWord)
  /-- ERROR_SIGNAL (R422): A page signals an error on its dual-rail pair, and it is captured, counted, recorded or escalated by class. -/
  | errorSignal (page : Fin 4096) (src : Fin 256) (addr : DWord) (syn : Word) (now : DWord)
  /-- FATAL_RESET (R430): With FATAL_RESET at 1, a MODULE_RESET with cause FATAL follows within 10 ms. -/
  | fatalReset (now : DWord)
  /-- WIRE_POLL (R423): Every 1 µs the Fault Collector reads a broken pair's page and counts its new errors. -/
  | wirePoll (page : Fin 4096) (cls : Fin 4)
  /-- AGGREGATOR_CHECK_FAIL (R424): An aggregator fails its self-check and the other's decision is used, or both are lost. -/
  | aggregatorCheckFail (i : Fin 2)
  /-- ESCALATED (R427): A fault record's grace timer expires and the page is fenced, latched or made FATAL. -/
  | escalated (i : Fin 64) (now : DWord)
  /-- FLT_ACK (R426): A write of FLT_ACK closes an open record whose grace timer runs. -/
  | fltAck (easel : Bool) (v : Word) (now : DWord)
  /-- READMITTED (R429): A fenced page quiet for FLT_QUIET is readmitted to CHECKING and counted. -/
  | readmitted (page : Fin 4096) (now : DWord)
  /-- RECOVERY_WINDOW_EXPIRY (R429): Every FLT_RECOVERY.WINDOW_S seconds each page's IN_WINDOW count clears. -/
  | recoveryWindowExpiry (now : DWord)
  /-- FLT_INJECT (R445): FLT_INJECT with KEY 0x4649 makes the selected page report a listed CORRECTED or CONTAINED source. -/
  | fltInject (v : Word)
  /-- CE_SUMMARY (R436): At each whole minute one CE_SUMMARY record is queued per non-zero corrected-error counter. -/
  | ceSummary (now : DWord)
  /-- LOG_FLUSH (R436): Queued log and spare map records are written to Fresco in blocks within 1 ms. -/
  | logFlush (failLog failSpare : Bool)
  /-- SPARE_MAP_RETRY (R303): Every 1 s a queued spare map record that failed to program is written again. -/
  | spareMapRetry (fail : Bool)
  /-- LOCKSTEP (R439): A mismatch inside the running Easel pair discards it and the shadow pair continues. -/
  | lockstep (pair : Fin 2)
  /-- PAIR_LOST (R439): The two Easel pairs disagree, or the last pair mismatches, raising FATAL PAIR_LOST. -/
  | pairLost
  /-- WATCHDOG (R439): The Easel watchdog is not serviced within 10 ms and FATAL WATCHDOG is raised. -/
  | watchdog
  /-- CLOCK_SWITCH (R440): The active clock reference leaves tolerance and the tree switches glitchlessly to the other. -/
  | clockSwitch
  /-- WEAR_MEASUREMENT (R441): Every 10 s the wear monitors are measured and a monitor past threshold raises a wear event. -/
  | wearMeasurement (part : WearPart) (drift : Fin 65536) (ces : Bool) (day : Bool) (now : DWord)
  /-- LEDGER_CHECK (R443): Every 1,024 cycles a ledger's latched counts are compared with its total, a mismatch being FATAL. -/
  | ledgerCheck (page : Fin 4096) (index : Fin 8)
  /-- AON_POWER_ON (R461): The input is held above 41 V for 10 µs and AON comes up with the timebase at 0. -/
  | aonPowerOn
  /-- PERST_DEASSERT (R461): Deasserting PERST# releases reset at T0. -/
  | perstDeassert (now : DWord)
  /-- OVER_VOLTAGE (R449): The input above 62 V for 10 µs opens the input switch and powers down without hold-up. -/
  | overVoltage (now : DWord)
  /-- POWER_FAIL (R450): The input below 39 V for 10 µs drops ENV_OK, switches off non-essential domains and flushes Fresco and the log. -/
  | powerFail (now : DWord)
  /-- POWER_FAIL_END (R450): After flushing, the module cuts AON or performs a BROWN_OUT reset depending on the input. -/
  | powerFailEnd (recovered : Bool) (now : DWord)
  /-- OVER_VOLTAGE_RECOVERY (R449): After an over-voltage power-down, the input falling below 60 V restarts the module. -/
  | overVoltageRecovery
  /-- TEMPERATURE_THRESHOLD (R455): A die, HBM or coolant-inlet temperature crosses its throttle threshold or range, changing throttling, HBM refresh rate and ENV_OK. -/
  | temperatureThreshold (sensor : Fin 8) (v : BitVec 16) (now : DWord)
  /-- GENERATE_TIMEOUT (R208): A GENERATE's TIMEOUT expires and it behaves as a cancel observed at that moment, ending with status TIMEOUT. -/
  | generateTimeout (slot : Fin 65536) (now : DWord)
  /-- PTP_TIME_COUNT (R145): A PTP_TIME reference channel counts +1 at each instant at which PTP time, or the timebase, is a multiple of PERIOD_NS. -/
  | ptpTimeCount (ch : Fin 4) (ts : DWord)
  /-- DIPTYCH_RETRY_TIMEOUT (R191): A Diptych frame not acknowledged is replayed; after 4 replays or 10 µs it counts as LINK_UE and the link retrains. -/
  | diptychRetryTimeout (expired : Bool)
  /-- WEIGHT_LOAD_COMPLETE (R409): A weight load of several seconds finishes rewriting its blocks and advances its counter, leaving the slot LOADED and clearing BUSY, or FAILED after a late media or tag failure. -/
  | weightLoadComplete (media : List Nat) (now : DWord)
  /-- FINISH (R402): An SPDM FINISH request completes the key exchange and establishes the secured session. -/
  | spdmFinish (sid : Fin 4) (ok : Bool)
  /-- END_SESSION (R402): An SPDM END_SESSION request closes a secured session, freeing one of the four session places. -/
  | endSession (sid : Fin 4)
  /-- TRNG_HEALTH_RESTORED (R398): The TRNG's continuous health tests pass again after a TRNG_FAIL, and key draws succeed once more. -/
  | trngHealthRestored
  deriving DecidableEq, Repr

end Sys2Proof
end

