-- ==== Sys2Proof/Decode.lean ====
section
/-! DEFINITION. What command a word spells by the opcode table's bits: the table gives no row any bits. -/

namespace Sys2Proof

/-- The command a word spells. No row of the opcode table gives bits ("fields": [] throughout), so no word spells a command. -/
def decodeTableWord (_nbits _w : Nat) : Option Instr := none

end Sys2Proof
end

