-- ==== Sys2Proof/Machine/StArith.lean ====
section
/-! DEFINITION. What the cores of a panel do in one step, as plain data: the matrix products, vector operations, conversions and moves that a
cartoon's streams spell out (03, R131). The encoding of the streams is not in the manual: Config decodes it. -/

namespace Sys2Proof.Machine

/-- The value of an element: a NaN, an infinity, or a sign and a magnitude m × 2^e. -/
inductive FV where
  | nan
  | inf (neg : Bool)
  | fin (neg : Bool) (m : Nat) (e : Int)
  deriving DecidableEq, Repr

/-- The element formats, by the numbers f of R103, and binary32 as 13. -/
abbrev FmtNo := Nat

/-- A stored tensor in a palette as an operand reads it: its format; for MXFP8 and MXFP6 whether the elements are E5M2 or E3M2; the address of
its first row's first line and the bytes from row to row; the address of its scale plane (MX, G4) and the bytes from row to row; the address of
its page scale (G4, G8). -/
structure MatSrc where
  fmt : FmtNo
  alt : Bool
  base : Nat
  step : Nat
  scale : Nat
  scaleStep : Nat
  page : Nat
  deriving DecidableEq, Repr

/-- Where an output stands in its logical tensor (R65): column, row, the other coordinates flattened, and its index within the operation. -/
structure Coord where
  x0 : Nat
  x1 : Nat
  x2 : Nat
  out : Nat
  deriving DecidableEq, Repr

/-- One output tile of up to 16 rows and 16 columns (R131): its operands, the grains of its reduction, its window entry, its bias of one element
for each column, the ACC128 records it imports (address of the tile's first record; records of a tile are 16 to a row), where its elements go
and their place in the logical tensor. -/
structure MatOp where
  a : MatSrc
  b : MatSrc
  grains : Nat
  rows : Nat
  cols : Nat
  window : Nat
  bias : Option MatSrc
  imports : List Nat
  out : Nat
  outRow : Nat
  outCol : Nat
  at0 : Coord
  deriving DecidableEq, Repr

/-- The functions of a vector lane (R70, R71): arithmetic in binary32, the transcendental functions, and 32-bit integer operations. -/
inductive VecFn where
  | add | sub | mul | fma | min | max
  | exp | log | recip | rsqrt | tanh | erf
  | iadd | isub | imul | iaddSat | isubSat
  deriving DecidableEq, Repr

/-- One operation of a step. Registers are numbered across the panel and hold 32 bits; none outlives its step (R77). -/
inductive CoreOp where
  | mat (m : MatOp)                                        -- an output tile of a matrix product
  | load (dst : Nat) (src : MatSrc) (row i : Nat)          -- element i of a row, widened exactly to binary32
  | word (dst addr : Nat)                                  -- a 32-bit palette word as it is
  | const (dst : Nat) (v : Word)
  | vec (f : VecFn) (dst a b c : Nat)
  | store (src addr : Nat)                                 -- a register as it is
  | conv (src : Nat) (fmt mode : Nat) (sat : Bool) (addr : Nat) (at0 : Coord) -- to a narrower format (R72)
  | mx (srcs : List Nat) (fmt : FmtNo) (alt : Bool) (mode : Nat) (addr scale : Nat) (at0 : Coord) -- a block of 32 to an MX format
  | move (src dst n : Nat)                                 -- bytes copied within the panel, through the crossbar
  deriving DecidableEq, Repr

end Sys2Proof.Machine
end

