-- ==== Sys2Proof/Config.lean ====
section
/-! DEFINITION. What an implementation fixes and the values the spec leaves open: constants without a body, so that no proof can see a value of them. -/

namespace Sys2Proof

/-- A value the spec leaves open, one for each reading of the state's free-value counter: undefined results, random draws,
the choice of a bound's instant (log entry 1). -/
opaque Config.freeNat : Nat → Nat

/-- MOD_SERIAL, fused at manufacture (02 R47's table, "fused"). -/
opaque Config.serial : Nat

/-- The strap pins ADDR[1:0] (R389). -/
opaque Config.straps : Nat

/-- The 48 bytes of SHA-384 of a byte string (a published standard the manual does not restate). -/
opaque Config.sha384 : List Byte → List Byte

/-- AES-256-GCM sealing: key, initialisation vector, additional data and plain text to cipher text with its tag appended. -/
opaque Config.gcmSeal : List Byte → List Byte → List Byte → List Byte → List Byte

/-- AES-256-GCM opening: the plain text where the tag verifies. -/
opaque Config.gcmOpen : List Byte → List Byte → List Byte → List Byte → Option (List Byte)

/-- The operations that the cores' instruction streams of an image spell out for a step, in their order: the image, the directory entry, the
step. The streams' encoding (the core's instruction set) is not in the manual; what each operation does is (03, R131; log entry 11). -/
opaque Config.stepOps : List Byte → Nat → Nat → List Machine.CoreOp

/-- Does the conflict detector find a cycle of a step that breaks R84's limits? The image, the directory entry and the step: it depends on the
schedule alone. -/
opaque Config.stepConflict : List Byte → Nat → Nat → Bool

/-- What ATTEND gives where R239 states no result: its inputs' bytes; 0 an output's code, 1 a block's attention mass; the place (R18; log entry 38). -/
opaque Config.attOpen : List Byte → Nat → Nat → Nat

/-- The scale code (place 0) and elements (places 1 to 32) of a G4 group one of whose quotients is not finite: the codes of the sources and of the page
scale (R230; log entry 38). -/
opaque Config.quantOpen : List Machine.FV → Machine.FV → Nat → Nat

/-- Which of the kept tokens the Sampler chooses where no exact cumulative sum exceeds the draw (R219; log entry 38): the sampling block and the position. -/
opaque Config.sampOpen : List Byte → Nat → Nat

/-- The key under which the security block has panel states saved (R98). -/
opaque Config.saveKey : List Byte

/-- The mesh stop of row 0 at which a die-to-die port of a canvas lies, modulo 6 (R90; log entry 37). -/
opaque Config.portStop : Nat → Nat

/-- Which of the statuses that apply at one step boundary, by its place in the list of them, ends the operation: the spec orders none of
them (log entry 8). -/
opaque Config.boundaryPick : List Nat → Nat

/-- The SOURCE under which a panel page records a restored state whose tag fails: R98 gives it none (log entry 9). -/
opaque Config.restoreSource : Nat

/-- The bytes a pairing digest covers, laid out from the numbers R183 lists for each paired domain: its CAD page, event point table,
Triptych entry, snapshot regions and RESULT cartoon (the layout is not in the manual). -/
opaque Config.pairBytes : List (List Nat) → List Byte

/-- Which of the binary32 values within 1 ulp of the exact one the stepping's fixed tables give, modulo 3: the function (0 exp, 1 log, 2 reciprocal,
3 reciprocal square root, 4 tanh, 5 erf) and the argument's code (R71). -/
opaque Config.fnTable : Nat → Nat → Nat

/-- The COUNT that an exported ACC128 record shows once more than 2^24 contributions have been made, modulo 2^24 + 1 (R66; log entry 33). -/
opaque Config.accCount : Nat → Nat

/-- The element codes of an MX block whose scale is 0xFF: the 32 values and the element's place (R72; log entry 33). -/
opaque Config.mxElem : List Nat → Nat → Nat

/-- What the decoding process of a codec finds in the last unit of a history (each unit with the losses in it), for the context
parameters that bear on it: field 0 whether it brings a sequence header or parameter set that the context needs, 1 a random-access point, 2 how many
pictures it codes; of those headers, 3 and 4 the coded width and height, 5 the profile by its place in R254's row of the codec (0 another), 6 the
level number as R254 writes it, 7 the tier, 8 the chroma format (0 monochrome, 1 4:2:0, others), 9 the bit depth, 10 the pictures its DPB needs,
11 how many tools that R254 calls absent it uses. -/
opaque Config.vdecUnit : List Nat → List (Nat × List Byte) → Nat → Nat

/-- A fact of picture i of the last unit of a history: field 0 damaged (R261), 1 and 2 its output width and height, 3 ten bits,
4 monochrome, 5 grain applied, 6 matrix_coefficients, 7 full range. -/
opaque Config.vdecPic : List Nat → List (Nat × List Byte) → Nat → Nat → Nat

/-- Can a 64 × 64 block of picture i not be decoded (R261)? Block row and column. -/
opaque Config.vdecBad : List Nat → List (Nat × List Byte) → Nat → Nat → Nat → Bool

/-- The numbers of the pictures that picture i of the last unit references. -/
opaque Config.vdecRefs : List Nat → List (Nat × List Byte) → Nat → List Nat

/-- The numbers of the pictures that become due for output with the last unit of a history, in output order; with the flag, those that
are still held for reordering. -/
opaque Config.vdecOut : List Nat → List (Nat × List Byte) → Bool → List Nat

/-- A sample of picture i of the last unit, as the standard's decoding process gives it (R260): plane, row, column. -/
opaque Config.vdecSample : List Nat → List (Nat × List Byte) → Nat → Nat → Nat → Nat → Nat

/-- A luma sample that the motion search (R272) compares, of the frame to be coded or of a reference: history, picture (0 the frame, 1 the short-term
reference, 2 and on the long-term slots), grid (1 and 2 the pyramid levels of 1/4 and 1/2, 3 full size, 4 and 5 the half-sample and quarter-sample
grids of the codec's filter), row and column. The spec gives no downscaling, and the references are what the codec's process reconstructs. -/
opaque Config.vencSamp : List Nat → List (Nat × List Byte) → Nat → Nat → Int → Int → Nat

/-- The rate term, fixed by QP, of a block's vector in quarter samples (R272). -/
opaque Config.vencRate : List Nat → List (Nat × List Byte) → Nat → Int → Int → Nat

/-- The bytes of slice n of the last frame of an encode history, with its frames' final vectors (R267 to R277); past the last slice, the filler data; none where
there is none. -/
opaque Config.vencSlice : List Nat → List (Nat × List Byte) → Nat → List Byte

/-- A fact of slice n of the last frame: field 0 floor-coded (R274), 1 its average QP beyond the lowest QP of its blocks, 2 and 3 the first row and rows
that the record of filler data names. -/
opaque Config.vencFact : List Nat → List (Nat × List Byte) → Nat → Nat → Nat

/-- NAND blocks of Fresco's raw capacity, of which R302's percentages are taken; the spec gives no block size. -/
opaque Config.nandBlocks : Nat

/-- A payload byte of a control flit, by what it carries (R352): the spec lists the contents and gives no layout. -/
opaque Config.controlPay : List Nat → Nat → Byte

/-- Which limit of a level, as its codec's standard gives them, encode parameters exceed: codec, level, tier, width, height, frame rate
numerator and denominator, TARGET_KBPS, MAX_KBPS, CPB_BITS, slices per frame; 0 none, 1 picture size, 2 sample rate, 3 bit rate, 4 CPB
size, 5 slice count, 6 no such level. -/
opaque Config.levelBreaks : List Nat → Nat

/-- The entries of the matrix of Rec. ITU-T H.273 for a MatrixCoefficients value that R265's table does not come from, as a number
plus 2^20 in units of 2^-14: row (R, G, B), column (Y, Cb, Cr), scaled for the range. -/
opaque Config.matrixK : Nat → Nat → Nat → Nat → Nat

/-- The entries of Get MCTP Version Support, entry count first, for a message type (R389). -/
opaque Config.mctpVersions : Nat → List Byte

/-- The endpoint's 16-byte UUID (R389). -/
opaque Config.uuid : List Byte

/-- What GetPLDMVersion returns for a PLDM type, its transfer fields first (R389). -/
opaque Config.pldmVersions : Nat → List Byte

/-- The 32-byte bit map of the commands supported of PLDM types 2 and 5 (R389). -/
opaque Config.pldmCommands : Nat → List Byte

/-- The bytes of the FRU EEPROM (R391): the manual gives the fields and not their layout. -/
opaque Config.fruByte : Nat → Byte

/-- ECDSA P-384 verification: public point (97 bytes), signature r‖s, digest. -/
opaque Config.ecdsaOk : List Byte → List Byte → List Byte → Bool

/-- The two fused digests of firmware signing keys (R399), and of the debug key (R397) as number 2. -/
opaque Config.fwKeyDigest : Nat → List Byte

/-- The unique device secret, fused (R398). -/
opaque Config.uds : List Byte

/-- HMAC-SHA-384 (a published standard): key, message. -/
opaque Config.hmac384 : List Byte → List Byte → List Byte

/-- The x-coordinate of ECDH between the P-384 key pair that derived bytes make (FIPS 186-5, A.2.2) and a point (R398, R408). -/
opaque Config.ecdhX : List Byte → List Byte → List Byte

/-- HKDF-SHA-384 (a published standard): input key, salt, info, number of bytes. -/
opaque Config.hkdf384 : List Byte → List Byte → List Byte → Nat → List Byte

/-- The slot-0 certificate chain (R402): of the seeds of the IDevID, L1 alias and L2 alias keys, and the digests of L1 and L2. -/
opaque Config.certChain : List (List Byte) → List Byte

/-- An ECDSA P-384 signature by the key pair that derived bytes make, over a message. -/
opaque Config.ecdsaSign : List Byte → List Byte → List Byte

/-- Digests that no register and no memory of the model shows (R403): of the ROM (0); of L1 (1) and L2 (2) of the image a firmware slot holds
since manufacture; of the fuse banks that no register shows (3). -/
opaque Config.measured : Nat → Nat → List Byte

/-- The key material a session derives: the requester's exchange data and the session's number. -/
opaque Config.sessionKey : List Byte → Nat → List Byte

end Sys2Proof
end

