-- ==== Sys2Proof/Machine/SMap.lean ====
section
/-! DEFINITION. Sparse data by key: a list of (key, value) pairs with keys strictly rising, the one representation of every
memory, register store and table of the state. -/

namespace Sys2Proof.Machine

/-- A sparse map from natural-number keys. -/
abbrev SMap (α : Type) := List (Nat × α)

/-- The value listed for a key. -/
def smFind {α : Type} : SMap α → Nat → Option α
  | [], _ => none
  | (k, v) :: r, q => if q = k then some v else smFind r q

/-- The value of a key, with what an unlisted key reads as. -/
def smGet {α : Type} (d : α) (m : SMap α) (q : Nat) : α := (smFind m q).getD d

/-- Lists a value under a key, in its place among rising keys. -/
def smPut {α : Type} : SMap α → Nat → α → SMap α
  | [], q, v => [(q, v)]
  | (k, w) :: r, q, v =>
    if q = k then (k, v) :: r else if q < k then (q, v) :: (k, w) :: r else (k, w) :: smPut r q v

/-- Lists nothing under a key. -/
def smDel {α : Type} (m : SMap α) (q : Nat) : SMap α := m.filter (fun e => decide (e.1 ≠ q))

/-- Writes a key, keeping the canonical form: the value an unlisted key reads as is never listed. -/
def smSet {α : Type} [DecidableEq α] (d : α) (m : SMap α) (q : Nat) (v : α) : SMap α :=
  if v = d then smDel m q else smPut m q v

/-- Keys strictly rise. -/
def smSorted {α : Type} : SMap α → Bool
  | [] => true
  | (k, _) :: r => r.all (fun e => decide (k < e.1)) && smSorted r

/-- The canonical form: keys strictly rise and no entry equals what an unlisted key reads as. -/
def smWf {α : Type} [DecidableEq α] (d : α) (m : SMap α) : Bool :=
  smSorted m && m.all (fun e => decide (e.2 ≠ d))

/-- The entries whose key and value meet a test. -/
def smFilter {α : Type} (m : SMap α) (p : Nat → α → Bool) : SMap α := m.filter (fun e => p e.1 e.2)

/-- The least key at or above `lo` and below `hi` that is not listed. -/
def smFresh {α : Type} (m : SMap α) (lo : Nat) : Nat → Option Nat
  | 0 => none
  | n + 1 => if (smFind m lo).isNone then some lo else smFresh m (lo + 1) n

end Sys2Proof.Machine
end

