-- ==== Sys2Proof/Machine/Bytes.lean ====
section
/-! DEFINITION. Byte strings and byte stores: little-endian numbers (R24), stores of bytes by address, poison marks by 64-bit word (R285), and CRC-32C. -/

namespace Sys2Proof.Machine

open Sys2Proof

/-! ### Byte strings (little-endian, R24) -/

/-- The number a little-endian byte string holds. -/
def leNat : List Byte → Nat
  | [] => 0
  | b :: r => b.toNat + 256 * leNat r

/-- The `k` bytes of a number, little-endian. -/
def toLe : Nat → Nat → List Byte
  | 0, _ => []
  | k + 1, n => BitVec.ofNat 8 n :: toLe k (n / 256)

/-- `k` bytes of a byte string from an offset on; bytes past its end are 0. -/
def sub (bs : List Byte) (o k : Nat) : List Byte := (List.range k).map (fun i => bs.getD (o + i) 0)

/-- The little-endian number in `k` bytes at an offset. -/
def leAt (bs : List Byte) (o k : Nat) : Nat := leNat (sub bs o k)

/-- Bits msb down to lsb of a number. -/
def bits (n msb lsb : Nat) : Nat := n / 2 ^ lsb % 2 ^ (msb + 1 - lsb)

/-! ### Byte stores: an unlisted byte is 0 -/

/-- One byte of a store. -/
def cGet (m : List Host.Cell) (a : Nat) : Byte := smGet 0 m a

/-- Writes one byte. -/
def cSet (m : List Host.Cell) (a : Nat) (b : Byte) : List Host.Cell := smSet 0 m a b

/-- Reads bytes from an address up. -/
def cRead (m : List Host.Cell) (a n : Nat) : List Byte := (List.range n).map (fun i => cGet m (a + i))

/-- Writes bytes from an address up. -/
def cWrite : List Host.Cell → Nat → List Byte → List Host.Cell
  | m, _, [] => m
  | m, a, b :: r => cWrite (cSet m a b) (a + 1) r

/-- Writes zeros over a range. -/
def cClear (m : List Host.Cell) (a n : Nat) : List Host.Cell := m.filter (fun e => decide (e.1 < a ∨ a + n ≤ e.1))

/-- Removes the marks of a range of word numbers. -/
def markClear (m : SMap Bool) (w n : Nat) : SMap Bool := m.filter (fun e => decide (e.1 < w ∨ w + n ≤ e.1))

/-- The word numbers of 64-bit words that a byte range touches. -/
def wordsOf (a n : Nat) : List Nat := (List.range ((a + n + 7) / 8 - a / 8)).map (fun i => a / 8 + i)

/-- Is a word of a byte range marked poisoned? -/
def anyPoison (m : SMap Bool) (a n : Nat) : Bool := (wordsOf a n).any (fun w => smGet false m w)

/-- Poison after a write: a whole word's write clears its poison, a narrower write leaves it (R285). -/
def poisonWrite (m : SMap Bool) (a n : Nat) : SMap Bool :=
  let w0 := (a + 7) / 8
  markClear m w0 ((a + n) / 8 - w0)

/-! ### CRC-32C -/

/-- One bit of the reflected CRC with polynomial 0x1EDC6F41. -/
def crcBit (c : Nat) : Nat := if c % 2 = 1 then (c / 2) ^^^ 0x82F63B78 else c / 2

/-- One byte. -/
def crcByte (c : Nat) (b : Byte) : Nat := crcBit (crcBit (crcBit (crcBit (crcBit (crcBit (crcBit (crcBit (c ^^^ b.toNat))))))))

/-- CRC-32C of a byte string. -/
def crc32c (bs : List Byte) : Nat := bs.foldl crcByte 0xFFFFFFFF ^^^ 0xFFFFFFFF

end Sys2Proof.Machine
end

