-- ==== Sys2Proof/Machine/Num.lean ====
section
/-! DEFINITION. Number formats, rounding and the Long Accumulator (03): exact values, conversions, binary32 arithmetic, window sums. -/

namespace Sys2Proof.Machine

open Sys2Proof

/-- A floating-point format (R51): exponent bits are implied by the others. The FP6 and FP4 formats have neither infinity nor NaN. -/
structure Fmt where
  width : Nat
  man : Nat                  -- mantissa bits
  bias : Nat
  maxCode : Nat              -- code of the largest finite value
  infCode : Option Nat
  nanCode : Nat              -- canonical NaN
  deriving DecidableEq, Repr

def fmtB32 : Fmt := ⟨32, 23, 127, 0x7F7FFFFF, some 0x7F800000, 0x7FC00000⟩
def fmtB16 : Fmt := ⟨16, 10, 15, 0x7BFF, some 0x7C00, 0x7E00⟩
def fmtBf16 : Fmt := ⟨16, 7, 127, 0x7F7F, some 0x7F80, 0x7FC0⟩
def fmtE4M3 : Fmt := ⟨8, 3, 7, 0x7E, none, 0x7F⟩
def fmtE5M2 : Fmt := ⟨8, 2, 15, 0x7B, some 0x7C, 0x7E⟩
def fmtE2M3 : Fmt := ⟨6, 3, 1, 0x1F, none, 0⟩
def fmtE3M2 : Fmt := ⟨6, 2, 3, 0x1F, none, 0⟩
def fmtE2M1 : Fmt := ⟨4, 1, 1, 0x7, none, 0⟩

/-- The value of a code. -/
def Fmt.value (f : Fmt) (c : Nat) : FV :=
  let neg := c / 2 ^ (f.width - 1) % 2 == 1
  let a := c % 2 ^ (f.width - 1)
  if f.maxCode < a then (if f.infCode = some a then .inf neg else .nan)
  else
    let x := a / 2 ^ f.man
    if x = 0 then .fin neg a (1 - f.bias - f.man) else .fin neg (a % 2 ^ f.man + 2 ^ f.man) ((x : Int) - f.bias - f.man)

/-- An integer as a value. -/
def FV.ofInt (n : Int) : FV := .fin (n < 0) n.natAbs 0

/-- A power of two. -/
def FV.pow2 (e : Int) : FV := .fin false 1 e

/-! ### Exact arithmetic -/

def FV.isZero : FV → Bool
  | .fin _ m _ => m == 0
  | _ => false

def FV.neg : FV → FV
  | .nan => .nan
  | .inf n => .inf (!n)
  | .fin n m e => .fin (!n) m e

/-- The exact product; an infinity times zero is a NaN. -/
def FV.mul : FV → FV → FV
  | .nan, _ => .nan
  | _, .nan => .nan
  | .inf a, .inf b => .inf (a != b)
  | .inf a, .fin b m _ => if m = 0 then .nan else .inf (a != b)
  | .fin a m _, .inf b => if m = 0 then .nan else .inf (a != b)
  | .fin a m e, .fin b n f => .fin (a != b) (m * n) (e + f)

/-- Signed magnitude of a finite value in units of 2^f, for f at most its exponent. -/
def scaled (n : Bool) (m : Nat) (e f : Int) : Int :=
  let x : Int := m * 2 ^ (e - f).toNat
  if n then -x else x

/-- The exact sum; a zero sum is positive unless both terms are negative zeros. -/
def FV.add : FV → FV → FV
  | .nan, _ => .nan
  | _, .nan => .nan
  | .inf a, .inf b => if a = b then .inf a else .nan
  | .inf a, .fin _ _ _ => .inf a
  | .fin _ _ _, .inf b => .inf b
  | .fin a m e, .fin b n f =>
    let g := min e f
    let x := scaled a m e g + scaled b n f g
    if x = 0 then .fin (a && b && m == 0 && n == 0) 0 g else .fin (x < 0) x.natAbs g

/-- Is a value less than another? NaN is less than nothing. -/
def FV.lt : FV → FV → Bool
  | .nan, _ => false
  | _, .nan => false
  | .inf a, .inf b => a && !b
  | .inf a, .fin _ _ _ => a
  | .fin _ _ _, .inf b => !b
  | .fin a m e, .fin b n f => decide (scaled a m e (min e f) < scaled b n f (min e f))

/-! ### Rounding (R63, R64) -/

/-- n / d rounded to an integer magnitude: mode 0 RNE, 1 RTZ, 2 RDN, 3 RUP, and 4 + r SR with the draw r (R65): the higher of the two
neighbours where r lies below the fraction's distance from the lower in units of 2^-32. -/
def roundInt (mode : Nat) (neg : Bool) (n d : Nat) : Nat :=
  let q := n / d
  let r := n % d
  let up := if mode = 0 then decide (d < 2 * r ∨ (2 * r = d ∧ q % 2 = 1))
    else if mode = 1 then false
    else if mode = 2 then neg && r != 0
    else if mode = 3 then !neg && r != 0
    else if neg then r != 0 && !decide (mode - 4 < (d - r) * 2 ^ 32 / d)
    else decide (mode - 4 < r * 2 ^ 32 / d)
  if up then q + 1 else q

/-- floor(log2(n / d)) for positive n and d. -/
def log2Ratio (n d : Nat) : Int :=
  let k : Int := (Nat.log2 n : Int) - Nat.log2 d
  let ge := if 0 ≤ k then decide (d * 2 ^ k.toNat ≤ n) else decide (d ≤ n * 2 ^ (-k).toNat)
  if ge then k else k - 1

/-- A sign and a code. -/
def Fmt.signed (f : Fmt) (neg : Bool) (c : Nat) : Nat := if neg then c + 2 ^ (f.width - 1) else c

/-- What a value beyond the largest finite one becomes. -/
def Fmt.overflow (f : Fmt) (sat neg : Bool) : Nat :=
  if sat then f.signed neg f.maxCode
  else match f.infCode with
    | some c => f.signed neg c
    | none => f.nanCode

/-- The code of the exact value ± n / d × 2^e, rounded once. -/
def Fmt.round (f : Fmt) (mode : Nat) (sat neg : Bool) (n d : Nat) (e : Int) : Nat :=
  if n = 0 then f.signed neg 0
  else
    let emin : Int := 1 - f.bias
    let u := max (log2Ratio n d + e) emin - f.man
    let s := e - u
    let t := if 0 ≤ s then roundInt mode neg (n * 2 ^ s.toNat) d else roundInt mode neg n (d * 2 ^ (-s).toNat)
    let c := (u - (emin - f.man)).toNat * 2 ^ f.man + t
    if f.maxCode < c then f.overflow sat neg else f.signed neg c

/-- The code of a value, rounded once. -/
def Fmt.code (f : Fmt) (mode : Nat) (sat : Bool) : FV → Nat
  | .nan => f.nanCode
  | .inf n => f.overflow sat n
  | .fin n m e => f.round mode sat n m 1 e

/-! ### Binary32 arithmetic (R70): each operation rounds once with RNE; NaN results are canonical -/

def fval (c : Nat) : FV := fmtB32.value c
def fcode (v : FV) : Nat := fmtB32.code 0 false v
def fadd (a b : Nat) : Nat := fcode ((fval a).add (fval b))
def fsub (a b : Nat) : Nat := fcode ((fval a).add (fval b).neg)
def fmul (a b : Nat) : Nat := fcode ((fval a).mul (fval b))
def ffma (a b c : Nat) : Nat := fcode (((fval a).mul (fval b)).add (fval c))

/-- The quotient of two values, rounded to a format. Zero over zero and infinity over infinity are NaN; a finite value over zero is infinite. -/
def Fmt.quot (f : Fmt) (mode : Nat) (sat : Bool) : FV → FV → Nat
  | .nan, _ => f.nanCode
  | _, .nan => f.nanCode
  | .inf _, .inf _ => f.nanCode
  | .inf a, .fin b _ _ => f.overflow sat (a != b)
  | .fin a _ _, .inf b => f.signed (a != b) 0
  | .fin a m e, .fin b n g =>
    if n = 0 then (if m = 0 then f.nanCode else f.overflow sat (a != b)) else f.round mode sat (a != b) m n (e - g)

def fdiv (a b : Nat) : Nat := fmtB32.quot 0 false (fval a) (fval b)
def fless (a b : Nat) : Bool := (fval a).lt (fval b)
def fisNan (a : Nat) : Bool := fval a == .nan
def ffinite (a : Nat) : Bool := match fval a with | .fin _ _ _ => true | _ => false

/-- Minimum and maximum as IEEE 754-2019's minimumNumber and maximumNumber (R70): a NaN loses to a number, −0 orders below +0. -/
def fminmax (big : Bool) (a b : Nat) : Nat :=
  if fisNan a ∧ fisNan b then fmtB32.nanCode
  else if fisNan a then b
  else if fisNan b then a
  else
    let low := fless a b || (!fless b a && a / 2 ^ 31 == 1)
    if low != big then a else b

/-! ### Transcendental functions (R71)

Each result is within 1 ulp of the exact value; which of the values within it the fixed tables give stays open (Config.fnTable). The exact value
is taken to 128 fractional bits, far below any ulp. -/

/-- One, ln 2 and 2/√π in units of 2^-128. -/
def fxOne : Nat := 2 ^ 128
def fxLn2 : Nat := 235865763225513294137944142764154484399
def fxErf : Nat := 383967533763538142977158567454335403656

/-- A finite magnitude m × 2^e in units of 2^-128, rounded down. -/
def fxOf (m : Nat) (e : Int) : Nat := if 0 ≤ e + 128 then m * 2 ^ (e + 128).toNat else m / 2 ^ (-(e + 128)).toNat

/-- Σ t_i for i below n, where t_0 = t and t_(i+1) = step i t_i: (the sum, the next term). -/
def fxSeries (step : Nat → Nat → Nat) (t n : Nat) : Nat :=
  ((List.range n).foldl (fun (a : Nat × Nat) i => (a.1 + a.2, step i a.2)) (0, t)).1

/-- e^(± x) for x in units of 2^-128, as a mantissa in units of 2^-128 and a power of two: x = k ln 2 + r, and the series of e^r. -/
def fxExp (neg : Bool) (x : Nat) : Nat × Int :=
  let k := x / fxLn2
  let r := x % fxLn2
  let q := if neg ∧ r ≠ 0 then (fxLn2 - r, -(k : Int) - 1) else if neg then (0, -(k : Int)) else (r, (k : Int))
  (fxSeries (fun i t => t * q.1 / (fxOne * (i + 1))) fxOne 45, q.2)

/-- The natural logarithm of m × 2^e, as a sign and a magnitude in units of 2^-128. -/
def fxLog (m : Nat) (e : Int) : Bool × Nat :=
  let l := Nat.log2 m
  let t := (m - 2 ^ l) * fxOne / (m + 2 ^ l)
  let u := t * t / fxOne
  let p := ((List.range 45).foldl (fun (a : Nat × Nat) i => (a.1 + 2 * a.2 / (2 * i + 1), a.2 * u / fxOne)) (0, t)).1
  let z : Int := (p : Int) + (e + l) * fxLn2
  (z < 0, z.natAbs)

/-- erf of x in units of 2^-128, for x at most 6: the even and the odd terms of its series are summed apart. -/
def fxErfOf (x : Nat) : Nat :=
  let u := x * x / fxOne
  let s := (List.range 200).foldl (fun (a : Nat × Nat × Nat) i =>
    let y := a.2.2 / (2 * i + 1)
    (if i % 2 = 0 then a.1 + y else a.1, if i % 2 = 0 then a.2.1 else a.2.1 + y, a.2.2 * u / (fxOne * (i + 1)))) (0, 0, x)
  (s.1 - s.2.1) * fxErf / fxOne

/-- A fixed-point magnitude in units of 2^-128 as a value. -/
def fxVal (neg : Bool) (n : Nat) : FV := .fin neg n (-128)

/-- One unit in the last place of binary32 at a value. -/
def ulpOf : FV → FV
  | .fin _ m e => .pow2 (max ((Nat.log2 m : Int) + e) (-126) - 23)
  | _ => .pow2 0

def FV.abs : FV → FV
  | .fin _ m e => .fin false m e
  | .inf _ => .inf false
  | .nan => .nan

/-- Is a code's value within 1 ulp of an exact value? -/
def withinUlp (y : FV) (c : Nat) : Bool := ffinite c && !(ulpOf y).lt ((fval c).add y.neg).abs

/-- The result of function `f` at `c`, whose exact value is `y`: the nearest code or a neighbour of it within 1 ulp, as the tables have it; an
exact value beyond the range is infinite. -/
def fnPick (f c : Nat) (y : FV) : Nat :=
  let n := fcode y
  let d := Config.fnTable f c % 3
  let q := if d = 1 then n + 1 else if d = 2 ∧ n % 2 ^ 31 ≠ 0 then n - 1 else n
  if ffinite n && withinUlp y q then q else n

/-- exp: results above the range are +∞, results below it +0 or a subnormal. -/
def fexp (c : Nat) : Nat :=
  match fval c with
  | .nan => fmtB32.nanCode
  | .inf true => 0
  | .inf false => 0x7F800000
  | .fin n m e =>
    let x := fxOf m e
    if 200 * fxOne < x then (if n then fnPick 0 c (.pow2 (-160)) else 0x7F800000)
    else let y := fxExp n x; fnPick 0 c (.fin false y.1 (y.2 - 128))

/-- log. -/
def flog (c : Nat) : Nat :=
  match fval c with
  | .nan => fmtB32.nanCode
  | .inf true => fmtB32.nanCode
  | .inf false => 0x7F800000
  | .fin n m e =>
    if m = 0 then 0xFF800000 else if n then fmtB32.nanCode else if c = 0x3F800000 then 0
    else let y := fxLog m e; fnPick 1 c (fxVal y.1 y.2)

/-- Reciprocal. -/
def frecip (c : Nat) : Nat :=
  match fval c with
  | .nan => fmtB32.nanCode
  | .inf n => fmtB32.signed n 0
  | .fin n m e => if m = 0 then fmtB32.signed n 0x7F800000 else fnPick 2 c (.fin n (2 ^ 160 / m) (-160 - e))

/-- Reciprocal square root. -/
def frsqrt (c : Nat) : Nat :=
  match fval c with
  | .nan => fmtB32.nanCode
  | .inf n => if n then fmtB32.nanCode else 0
  | .fin n m e =>
    if m = 0 then fmtB32.signed n 0x7F800000
    else if n then fmtB32.nanCode
    else
      let m2 := if e % 2 = 0 then m else 2 * m
      let e2 := if e % 2 = 0 then e else e - 1
      fnPick 3 c (.fin false (Nat.sqrt (2 ^ 320 / m2)) (-160 - e2 / 2))

/-- tanh and erf of a small argument: x × k / 2^128 × (1 − x² / 3), where the next term is below 2^-50 of the value. -/
def fxSmall (n : Bool) (m : Nat) (e : Int) (k : Nat) : FV :=
  let x2 := fxOf m e * fxOf m e / fxOne
  ((FV.fin n m e).mul (fxVal false k)).mul (fxVal false (fxOne - x2 / 3))

/-- tanh. -/
def ftanh (c : Nat) : Nat :=
  match fval c with
  | .nan => fmtB32.nanCode
  | .inf n => fmtB32.signed n 0x3F800000
  | .fin n m e =>
    if m = 0 then c
    else if (FV.fin false m e).lt (.pow2 (-13)) then fnPick 4 c (fxSmall n m e fxOne)
    else
      let y := fxExp false (2 * min (fxOf m e) (20 * fxOne))
      let z := y.1 * 2 ^ y.2.toNat
      fnPick 4 c (fxVal n ((z - fxOne) * fxOne / (z + fxOne)))

/-- erf. -/
def ferf (c : Nat) : Nat :=
  match fval c with
  | .nan => fmtB32.nanCode
  | .inf n => fmtB32.signed n 0x3F800000
  | .fin n m e =>
    if m = 0 then c
    else if (FV.fin false m e).lt (.pow2 (-13)) then fnPick 5 c (fxSmall n m e fxErf)
    else fnPick 5 c (fxVal n (min (fxErfOf (min (fxOf m e) (6 * fxOne))) (fxOne - 1)))

/-! ### The Long Accumulator (R58 to R61) -/

/-- An accumulation: the 152-bit sum, the flags and the count. -/
structure Accum where
  sum : Int
  nan : Bool
  pinf : Bool
  ninf : Bool
  ovf : Bool
  count : Nat
  deriving DecidableEq, Repr

def accZero : Accum := ⟨0, false, false, false, false, 0⟩

/-- Clamps to the 128-bit range; whether it was outside. -/
def clamp128 (x : Int) : Int × Bool :=
  if x < -(2 ^ 127) then (-(2 ^ 127), true) else if (2 ^ 127 - 1 : Int) < x then (2 ^ 127 - 1, true) else (x, false)

/-- floor(v / 2^W). -/
def floorAt (n : Bool) (m : Nat) (e w : Int) : Int :=
  let x : Int := if n then -(m : Int) else m
  let s := e - w
  if 0 ≤ s then x * 2 ^ s.toNat else x / (2 ^ (-s).toNat : Int)

/-- Adds one contribution at window base W. -/
def Accum.put (a : Accum) (w : Int) (v : FV) : Accum :=
  let b := { a with count := a.count + 1 }
  match v with
  | .nan => { b with nan := true }
  | .inf n => if n then { b with ninf := true } else { b with pinf := true }
  | .fin n m e =>
    let c := clamp128 (floorAt n m e w)
    { b with sum := b.sum + c.1, ovf := b.ovf || c.2 }

/-- The finished value, with WINDOW_OVF: the final clamp and the count set it whatever the flags resolve to (R60, R61). -/
def Accum.done (a : Accum) (w : Int) : FV × Bool :=
  let c := clamp128 a.sum
  let v : FV :=
    if 2 ^ 24 < a.count ∨ a.nan ∨ (a.pinf ∧ a.ninf) then .nan
    else if a.pinf then .inf false
    else if a.ninf then .inf true
    else .fin (c.1 < 0) c.1.natAbs w
  (v, a.ovf || c.2 || decide (2 ^ 24 < a.count))

/-- A signed 10-bit window base exponent. -/
def winBase (x : Nat) : Int := if x % 1024 < 512 then (x % 1024 : Nat) else (x % 1024 : Nat) - 1024

/-! ### Philox-4x32-10 (R65) -/

/-- One round on four words under a key. -/
def philoxRound (x : Nat × Nat × Nat × Nat) (k0 k1 : Nat) : Nat × Nat × Nat × Nat :=
  let p0 := 0xD2511F53 * x.1
  let p1 := 0xCD9E8D57 * x.2.2.1
  (((p1 / 2 ^ 32) ^^^ x.2.1) ^^^ k0, p1 % 2 ^ 32, ((p0 / 2 ^ 32) ^^^ x.2.2.2) ^^^ k1, p0 % 2 ^ 32)

/-- The remaining rounds, the key advancing between them. -/
def philoxGo (x : Nat × Nat × Nat × Nat) (k0 k1 : Nat) : Nat → Nat × Nat × Nat × Nat
  | 0 => x
  | n + 1 => philoxGo (philoxRound x k0 k1) ((k0 + 0x9E3779B9) % 2 ^ 32) ((k1 + 0xBB67AE85) % 2 ^ 32) n

/-- The four output words for a 64-bit key and four counter words. -/
def philox (key x0 x1 x2 x3 : Nat) : Nat × Nat × Nat × Nat := philoxGo (x0, x1, x2, x3) (key % 2 ^ 32) (key / 2 ^ 32 % 2 ^ 32) 10

/-! ### SipHash-2-4 (R211) -/

/-- One SipRound. -/
def sipRound (v : DWord × DWord × DWord × DWord) : DWord × DWord × DWord × DWord :=
  let a := v.1 + v.2.1
  let b := v.2.1.rotateLeft 13 ^^^ a
  let a1 := a.rotateLeft 32
  let c := v.2.2.1 + v.2.2.2
  let d := v.2.2.2.rotateLeft 16 ^^^ c
  let a2 := a1 + d
  let d1 := d.rotateLeft 21 ^^^ a2
  let c1 := c + b
  let b1 := b.rotateLeft 17 ^^^ c1
  (a2, b1, c1.rotateLeft 32, d1)

/-- Takes one message word. -/
def sipWord (v : DWord × DWord × DWord × DWord) (m : DWord) : DWord × DWord × DWord × DWord :=
  let w := sipRound (sipRound (v.1, v.2.1, v.2.2.1, v.2.2.2 ^^^ m))
  (w.1 ^^^ m, w.2.1, w.2.2.1, w.2.2.2)

/-- SipHash-2-4 of a byte string under a 128-bit key. -/
def sipHash (key : Nat) (bs : List Byte) : Nat :=
  let k0 := BitVec.ofNat 64 key
  let k1 := BitVec.ofNat 64 (key / 2 ^ 64)
  let v0 : DWord × DWord × DWord × DWord :=
    (k0 ^^^ 0x736f6d6570736575#64, k1 ^^^ 0x646f72616e646f6d#64, k0 ^^^ 0x6c7967656e657261#64, k1 ^^^ 0x7465646279746573#64)
  let n := bs.length / 8
  let v := (List.range n).foldl (fun (v : DWord × DWord × DWord × DWord) i => sipWord v (BitVec.ofNat 64 (leAt bs (8 * i) 8))) v0
  let last := leNat (bs.drop (8 * n)) + bs.length % 256 * 2 ^ 56
  let w := sipWord v (BitVec.ofNat 64 last)
  let x := sipRound (sipRound (sipRound (sipRound (w.1, w.2.1, w.2.2.1 ^^^ 0xff#64, w.2.2.2))))
  (x.1 ^^^ x.2.1 ^^^ x.2.2.1 ^^^ x.2.2.2).toNat

end Sys2Proof.Machine
end

