-- ==== Sys2Proof/Machine/Arith.lean ====
section
/-! DEFINITION. What the matrix arrays and vector units compute (03, R131): operands as they lie in the palette, exact accumulation, output
conversion, ACC128 records, vector operations, and the step that a cartoon's operations make. -/

namespace Sys2Proof.Machine

open Sys2Proof

/-! ### Elements (R50 to R55) -/

/-- Bits of an element of a format; a T-weight is narrower than 4 bits (R57). -/
def fmtBits (f : FmtNo) : Nat :=
  if f ≤ 1 then 16 else if f = 5 then 6 else if f = 6 ∨ f = 9 ∨ f = 11 then 4 else if f = 10 then 2 else if f = 13 then 32 else 8

/-- Elements of one grain of a pair (R131): set by the wider operand. -/
def grainLen (a b : FmtNo) : Nat :=
  if a = 10 ∨ b = 10 then 64
  else if fmtBits a = 16 ∨ fmtBits b = 16 then 32
  else if fmtBits a = 4 ∧ fmtBits b = 4 then 128
  else 64

/-- An n-bit two's-complement code as a value. -/
def intVal (n c : Nat) : FV := FV.ofInt (if c % 2 ^ n < 2 ^ (n - 1) then ((c % 2 ^ n : Nat) : Int) else (c % 2 ^ n : Nat) - 2 ^ n)

/-- The value of an E8M0 scale: 0xFF is a NaN. -/
def e8m0 (c : Nat) : FV := if c = 0xFF then .nan else .pow2 ((c : Int) - 127)

/-- A T-weight from digit `j` of a code byte; none for a byte that traps (R53). -/
def tDigit (c j : Nat) : Option FV := if 243 ≤ c then none else some (FV.ofInt (((c / 3 ^ j % 3 : Nat) : Int) - 1))

/-- The number in `n` palette bytes. -/
def rdLe (rd : Nat → Byte) (a n : Nat) : Nat := leNat ((List.range n).map (fun i => rd (a + i)))

/-- Code of element `e` of a line (R52): elements of 6 bits lie four to a 24-bit word, those of 4 bits two to a byte. -/
def lineCode (rd : Nat → Byte) (f : FmtNo) (line e : Nat) : Nat :=
  match fmtBits f with
  | 16 => rdLe rd (line + 2 * e) 2
  | 6 => rdLe rd (line + 3 * (e / 4)) 3 / 2 ^ (6 * (e % 4)) % 64
  | 4 => rdLe rd (line + e / 2) 1 / 2 ^ (4 * (e % 2)) % 16
  | 32 => rdLe rd (line + 4 * e) 4
  | _ => rdLe rd (line + e) 1

/-- The value of an element's code alone, without scales. -/
def codeVal (f : FmtNo) (alt : Bool) (c : Nat) : FV :=
  match f with
  | 0 => fmtBf16.value c
  | 1 => fmtB16.value c
  | 2 => fmtE4M3.value c
  | 3 => fmtE5M2.value c
  | 4 => if alt then fmtE5M2.value c else fmtE4M3.value c
  | 5 => if alt then fmtE3M2.value c else fmtE2M3.value c
  | 6 => fmtE2M1.value c
  | 7 => (intVal 8 c).mul (.pow2 (-6))
  | 8 => intVal 8 c
  | 9 => intVal 4 c
  | 11 => intVal 4 c
  | 12 => fmtE4M3.value c
  | _ => fmtB32.value c

/-- Element k of row r of an operand whose grains have `g` elements, with every block, group and page scale of it (R52, R54, R55), and whether
its code byte traps (R69). T-weights keep their groups of 112 bytes. -/
def MatSrc.elem (m : MatSrc) (rd : Nat → Byte) (g r k : Nat) : FV × Bool :=
  if m.fmt = 10 then
    let grp := m.base + r * m.step + 112 * (k / 512)
    let b := k % 512 / 64
    let i := k % 64
    match tDigit (rdLe rd (grp + 13 * b + i / 5) 1) (i % 5) with
    | none => (.nan, true)
    | some t => (t.mul (fmtE4M3.value (rdLe rd (grp + 104 + b) 1)), false)
  else
    let v := codeVal m.fmt m.alt (lineCode rd m.fmt (m.base + r * m.step + 64 * (k / g)) (k % g))
    let block := e8m0 (rdLe rd (m.scale + r * m.scaleStep + k / 32) 1)
    let page := fmtE4M3.value (rdLe rd m.page 1)
    (if 4 ≤ m.fmt ∧ m.fmt ≤ 7 then v.mul block
     else if m.fmt = 11 then (v.mul block).mul page
     else if m.fmt = 12 then v.mul page
     else v, false)

/-- The palette ranges that rows 0 to `rows − 1` of an operand read over `n` grains of `g` elements (R131): the used bytes of each line, the
scale planes, the groups of T-weights, the page scale. -/
def MatSrc.reads (m : MatSrc) (g rows n : Nat) : List (Nat × Nat) :=
  let row := fun (r : Nat) =>
    if m.fmt = 10 then [(m.base + r * m.step, 112 * ((n * g + 511) / 512))]
    else (List.range n).map (fun q => (m.base + r * m.step + 64 * q, g * fmtBits m.fmt / 8)) ++
      (if (4 ≤ m.fmt ∧ m.fmt ≤ 7) ∨ m.fmt = 11 then [(m.scale + r * m.scaleStep, (n * g + 31) / 32)] else [])
  (List.range rows).flatMap row ++ (if m.fmt = 11 ∨ m.fmt = 12 then [(m.page, 1)] else [])

/-! ### ACC128 records (R66, R67) -/

/-- The 32 bytes of an accumulation. The count is at most 2^24; where more contributions were made, OVF says so, NAN keeps the element's
result a NaN (R60), and what COUNT shows stays open (log entry 33). -/
def Accum.record (a : Accum) (w : Int) : List Byte :=
  let past := decide (2 ^ 24 < a.count)
  let f := (if a.nan || past then 1 else 0) + (if a.pinf then 2 else 0) + (if a.ninf then 4 else 0) + (if a.ovf || past then 8 else 0)
  toLe 19 (a.sum % 2 ^ 152).toNat ++ toLe 1 f ++ toLe 4 (if past then Config.accCount a.count % (2 ^ 24 + 1) else a.count) ++
    toLe 2 (w % 1024).toNat ++ toLe 6 0

/-- Joins a record to an accumulation at window base W; none where the record traps. -/
def Accum.join (a : Accum) (w : Int) (r : List Byte) : Option Accum :=
  let f := leAt r 19 1
  let n := leAt r 20 4
  let s := leAt r 0 19
  if leAt r 24 2 ≠ (w % 1024).toNat ∨ 2 ^ 24 < n ∨ 16 ≤ f ∨ leAt r 26 6 ≠ 0 then none
  else some ⟨a.sum + (if s < 2 ^ 151 then (s : Int) else (s : Int) - 2 ^ 152), a.nan || f % 2 == 1, a.pinf || f / 2 % 2 == 1,
             a.ninf || f / 4 % 2 == 1, a.ovf || f / 8 % 2 == 1, a.count + n⟩

/-! ### Output conversion (R62 to R65) -/

/-- The draw of stochastic rounding for an output (R65): `vec` for a vector-unit conversion. -/
def srDraw (seed : Nat) (c : Coord) (vec : Bool) : Nat :=
  (philox seed (c.x0 % 2 ^ 32) (c.x1 % 2 ^ 32) (c.x2 % 2 ^ 32) (c.out % 65536 + (if vec then 65536 else 0))).1

/-- ROUND as `roundInt` takes it. -/
def roundMode (round seed : Nat) (c : Coord) (vec : Bool) : Nat := if round = 4 then 4 + srDraw seed c vec else round

/-- A value as a two's-complement integer of n bits (R63, R64): clamped, a NaN is 0, infinities are the range's ends. -/
def intCode (n mode : Nat) : FV → Nat
  | .nan => 0
  | .inf neg => if neg then 2 ^ (n - 1) else 2 ^ (n - 1) - 1
  | .fin neg m e =>
    let t := if 0 ≤ e then m * 2 ^ e.toNat else roundInt mode neg m (2 ^ (-e).toNat)
    if neg then (2 ^ n - min t (2 ^ (n - 1))) % 2 ^ n else min t (2 ^ (n - 1) - 1)

/-- The floating-point formats of OUT_FORMAT 0 to 4. -/
def outFloat (f : Nat) : Fmt := if f = 0 then fmtB32 else if f = 1 then fmtB16 else if f = 2 then fmtBf16 else if f = 3 then fmtE4M3 else fmtE5M2

/-- A value in OUT_FORMAT 0 to 6, as bytes. -/
def outBytes (f mode : Nat) (sat : Bool) (v : FV) : List Byte :=
  if f = 5 then toLe 1 (intCode 8 mode v)
  else if f = 6 then toLe 4 (intCode 32 mode v)
  else toLe ((outFloat f).width / 8) ((outFloat f).code mode sat v)

/-- The bytes of a finished output under a window entry (R62), with WINDOW_OVF; ACC128 exports the accumulator before the final clamp. -/
def Accum.output (a : Accum) (entry seed : Nat) (c : Coord) : List Byte × Bool :=
  let w := winBase entry
  if bits entry 17 14 = 7 then (a.record w, a.ovf || decide (2 ^ 24 < a.count))
  else
    let d := a.done w
    (outBytes (bits entry 17 14) (roundMode (bits entry 12 10) seed c false) (bits entry 13 13 == 1) d.1, d.2)

/-! ### A step (R77, R131) -/

/-- What a step runs under: the rounding seed, the window table in force, and the palette it reads. -/
structure StepEnv where
  seed : Nat
  table : List Byte
  old : Nat → Byte

/-- What the operations of a step have done so far: bytes written, registers, WINDOW_OVF, a format trap. -/
structure CoreSt where
  wr : SMap Byte
  regs : SMap Nat
  ovf : Bool
  trap : Bool
  deriving DecidableEq, Repr

def coreStart : CoreSt := ⟨[], [], false, false⟩

/-- A palette address within the panel's 8 MiB. -/
def palAddr (a : Nat) : Nat := a % 0x800000

/-- A byte as the step sees it: what it wrote itself, else what the palette held. -/
def CoreSt.rd (s : CoreSt) (e : StepEnv) (a : Nat) : Byte := (smFind s.wr (palAddr a)).getD (e.old (palAddr a))

/-- Writes bytes. -/
def CoreSt.put (s : CoreSt) : Nat → List Byte → CoreSt
  | _, [] => s
  | a, b :: r => ({ s with wr := smPut s.wr (palAddr a) b }).put (a + 1) r

def CoreSt.reg (s : CoreSt) (r : Nat) : Nat := smGet 0 s.regs r
def CoreSt.setReg (s : CoreSt) (r v : Nat) : CoreSt := { s with regs := smSet 0 s.regs r (v % 2 ^ 32) }

/-- The window entry of an output. -/
def StepEnv.entry (e : StepEnv) (i : Nat) : Nat := leAt e.table (4 * i) 4

/-- The accumulation of output (i, j) of a tile: its bias, every product of the reduction, its imported records (R59, R60, R67); with it, whether
an operand byte or a record traps, in which case what it feeds contributes as a NaN (R69). -/
def MatOp.accum (m : MatOp) (rd : Nat → Byte) (w : Int) (i j : Nat) : Accum × Bool :=
  let g := grainLen m.a.fmt m.b.fmt
  let nan := fun (x : Accum) => { x with nan := true }
  let a0 := match m.bias with
    | none => (accZero, false)
    | some b => let v := b.elem rd 64 0 j; (accZero.put w v.1, v.2)
  let a1 := (List.range (m.grains * g)).foldl (fun (x : Accum × Bool) k =>
    let u := m.a.elem rd g i k
    let v := m.b.elem rd g j k
    (x.1.put w (u.1.mul v.1), x.2 || u.2 || v.2)) a0
  m.imports.foldl (fun (x : Accum × Bool) r =>
    match x.1.join w ((List.range 32).map (fun b => rd (r + 32 * (16 * i + j) + b))) with
    | some y => (y, x.2)
    | none => (nan x.1, true)) a1

/-- An output tile. -/
def MatOp.run (m : MatOp) (e : StepEnv) (s : CoreSt) : CoreSt :=
  let entry := e.entry m.window
  (List.range m.rows).foldl (fun (t : CoreSt) i =>
    (List.range m.cols).foldl (fun (u : CoreSt) j =>
      let x := m.accum (s.rd e) (winBase entry) i j
      let o := x.1.output entry e.seed { m.at0 with x0 := m.at0.x0 + j, x1 := m.at0.x1 + i }
      let u1 := u.put (m.out + i * m.outRow + j * m.outCol) o.1
      { u1 with ovf := u1.ovf || o.2, trap := u1.trap || x.2 }) t) s

/-- A saturated 32-bit two's-complement number. -/
def satInt (x : Int) : Nat := (max (-(2 ^ 31)) (min x (2 ^ 31 - 1)) % 2 ^ 32).toNat
def sgn32 (c : Nat) : Int := if c % 2 ^ 32 < 2 ^ 31 then ((c % 2 ^ 32 : Nat) : Int) else (c % 2 ^ 32 : Nat) - 2 ^ 32

/-- A vector operation on 32-bit codes (R70, R71). -/
def VecFn.apply (f : VecFn) (a b c : Nat) : Nat :=
  match f with
  | .add => fadd a b
  | .sub => fsub a b
  | .mul => fmul a b
  | .fma => ffma a b c
  | .min => fminmax false a b
  | .max => fminmax true a b
  | .exp => fexp a
  | .log => flog a
  | .recip => frecip a
  | .rsqrt => frsqrt a
  | .tanh => ftanh a
  | .erf => ferf a
  | .iadd => a + b
  | .isub => a + 2 ^ 32 - b % 2 ^ 32
  | .imul => a * b
  | .iaddSat => satInt (sgn32 a + sgn32 b)
  | .isubSat => satInt (sgn32 a - sgn32 b)

/-- emax of an MX element format (R72). -/
def mxEmax (f : FmtNo) (alt : Bool) : Int :=
  if f = 4 then (if alt then 15 else 8) else if f = 5 then (if alt then 4 else 2) else if f = 6 then 2 else 0

/-- floor(log2 |v|) of a finite value that is not zero. -/
def fvLog2 : FV → Option Int
  | .fin _ m e => if m = 0 then none else some ((Nat.log2 m : Int) + e)
  | _ => none

/-- The shared scale's code of a block of binary32 values (R72). -/
def mxScale (f : FmtNo) (alt : Bool) (vs : List Nat) : Nat :=
  if vs.any (fun v => !ffinite v) then 0xFF
  else match (vs.filterMap (fun v => fvLog2 (fval v))).max? with
    | none => 0
    | some m => (max (-127) (min (m - mxEmax f alt) 127) + 127).toNat

/-- The code of an MX element under a shared scale: rounded, and saturated to the largest finite value. -/
def mxCode (f : FmtNo) (alt : Bool) (scale mode v : Nat) : Nat :=
  let x := (fval v).mul (.pow2 (127 - (scale : Int)))
  match f with
  | 4 => if alt then fmtE5M2.code mode true x else fmtE4M3.code mode true x
  | 5 => if alt then fmtE3M2.code mode true x else fmtE2M3.code mode true x
  | 6 => fmtE2M1.code mode true x
  | _ => intCode 8 mode (x.mul (.pow2 6))

/-- Element codes packed as R52 packs them. -/
def mxPack (f : FmtNo) (cs : List Nat) : List Byte :=
  toLe (4 * fmtBits f) ((List.range cs.length).foldl (fun a i => a + cs.getD i 0 * 2 ^ (fmtBits f * i)) 0)

/-- One operation of a step. -/
def CoreOp.run (o : CoreOp) (e : StepEnv) (s : CoreSt) : CoreSt :=
  match o with
  | .mat m => m.run e s
  | .load d src row i =>
    let v := src.elem (s.rd e) (64 * 8 / max (fmtBits src.fmt) 4) row i
    { s.setReg d (fcode v.1) with trap := s.trap || v.2 }
  | .word d a => s.setReg d (rdLe (s.rd e) a 4)
  | .const d v => s.setReg d v.toNat
  | .vec f d a b c => s.setReg d (f.apply (s.reg a) (s.reg b) (s.reg c))
  | .store r a => s.put a (toLe 4 (s.reg r))
  | .conv r f mode sat a c => s.put a (outBytes f (roundMode mode e.seed c true) sat (fval (s.reg r)))
  | .mx rs f alt mode a sc c =>
    let vs := rs.map s.reg
    let x := mxScale f alt vs
    let cs := (List.range 32).map (fun i =>
      if x = 0xFF then Config.mxElem vs i % 2 ^ fmtBits f
      else mxCode f alt x (roundMode mode e.seed { c with x0 := c.x0 + i } true) (vs.getD i 0) % 2 ^ fmtBits f)
    (s.put a (mxPack f cs)).put sc (toLe 1 x)
  | .move a d n => s.put d ((List.range n).map (fun i => s.rd e (a + i)))

/-- The palette ranges an operation reads. -/
def CoreOp.reads : CoreOp → List (Nat × Nat)
  | .mat m =>
    let g := grainLen m.a.fmt m.b.fmt
    m.a.reads g m.rows m.grains ++ m.b.reads g m.cols m.grains ++
      (match m.bias with | some b => b.reads 64 1 1 | none => []) ++
      m.imports.flatMap (fun r => (List.range m.rows).map (fun i => (r + 512 * i, 32 * m.cols)))
  | .load _ src row i => (src.reads (64 * 8 / max (fmtBits src.fmt) 4) (row + 1) (i + 1)).drop 0
  | .word _ a => [(a, 4)]
  | .move a _ n => [(a, n)]
  | _ => []

/-- The palette ranges an operation writes: (address, bytes). -/
def CoreOp.writes (tbl : List Byte) : CoreOp → List (Nat × Nat)
  | .mat m =>
    let f := bits (leAt tbl (4 * m.window) 4) 17 14
    let n := if f = 7 then 32 else if f = 5 then 1 else if f = 6 then 4 else (outFloat f).width / 8
    (List.range m.rows).flatMap (fun i => (List.range m.cols).map (fun j => (m.out + i * m.outRow + j * m.outCol, n)))
  | .store _ a => [(a, 4)]
  | .conv _ f _ _ a _ => [(a, if f = 5 then 1 else if f = 6 then 4 else (outFloat f).width / 8)]
  | .mx _ f _ _ a sc _ => [(a, 4 * fmtBits f), (sc, 1)]
  | .move _ d n => [(d, n)]
  | _ => []

/-- Runs a step's operations in their order (R73); `old i` is the palette as operation i finds it, but for what the step wrote itself. -/
def runOps (e : StepEnv) (old : Nat → Nat → Byte) (ops : List CoreOp) : CoreSt :=
  ops.zipIdx.foldl (fun (s : CoreSt) o => o.1.run { e with old := old o.2 } s) coreStart

/-- Does a range of one list meet a byte range? -/
def hitsRange (l : List (Nat × Nat)) (a n : Nat) : Bool := l.any (fun r => decide (palAddr r.1 < a + n ∧ a < palAddr r.1 + r.2))

/-- Does a step of an image read a 64-bit palette word? -/
def stepReads (image : List Byte) (g k word : Nat) : Bool := (Config.stepOps image g k).any (fun o => hitsRange o.reads (8 * word) 8)

/-- Does it write some byte of it, under a window table? -/
def stepWrites (image tbl : List Byte) (g k word : Nat) : Bool := (Config.stepOps image g k).any (fun o => hitsRange (o.writes tbl) (8 * word) 8)

end Sys2Proof.Machine
end

