-- ==== Sys2Proof/Machine/RegTypes.lean ====
section
/-! DEFINITION. The page map (R27, R29, R339, R340), the kinds of register page, and the shape of a row of the register map. -/

namespace Sys2Proof.Machine

open Sys2Proof

/-- The kinds of register page. `none` is a page no block occupies. -/
inductive PageKind where
  | mod | flt | cadDom | cadTrk | cadRef | var0 | dip | hif0 | hifTen | hifSet | sec | mmu | syn | stu
  | hbm | lft | frs | glz | smp | vce | ing | mur0 | murPort | murRt | murJob | mgt | eas | cnv | pnl
  | tnt | ringCfg | doorbell | cqPage | synT | glzT | smpT | vceT | mmuT
  | none
  deriving DecidableEq, Repr

/-- One register, or one array of them, of a page kind: its word offset, the strides (in words) and counts of the array,
whether it is a checked register (R34), its reset value, and the masks of its RW, RWL, W1C, W1S, WO and reserved bits. -/
structure RegRow where
  word : Nat
  dims : List (Nat × Nat)
  checked : Bool
  rst : Nat
  rw : Nat
  rwl : Nat
  w1c : Nat
  w1s : Nat
  wo : Nat
  rsv : Nat
  deriving DecidableEq, Repr

/-- One field: the word of its register within the page, its most and its least significant bit. -/
structure Fld where
  word : Nat
  msb : Nat
  lsb : Nat
  deriving DecidableEq, Repr

/-- Does the array `dims` hold an element `d` words above its first? -/
def dimsHit : List (Nat × Nat) → Nat → Bool
  | [], d => d == 0
  | [(s, n)], d => d % s == 0 && d / s < n
  | (s, n) :: r, d => d / s < n && dimsHit r (d % s)

/-- Does a row of the map hold the register at a word offset? -/
def RegRow.hit (r : RegRow) (w : Nat) : Bool := r.word ≤ w && dimsHit r.dims (w - r.word)

/-- The tenant page kinds, by position k in the VF BAR0 (R29). -/
def tenantPageKind : Nat → PageKind
  | 0 => .tnt | 1 => .ringCfg | 2 => .ringCfg | 3 => .doorbell | 4 => .cqPage | 5 => .synT | 6 => .glzT
  | 7 => .smpT | 8 => .vceT | 9 => .vceT | 10 => .mmuT | _ => .none

/-- Page k of tenant t, as a page number of the PF BAR0: the TNT mirror of R27 for tenants 1 to 32, HIF page 3 + k
for tenant 0 (R340). -/
def tenantPage (t k : Nat) : Nat := if t = 0 then 0x43 + k else 0xC00 + (t - 1) * 16 + k

/-- The page of canvas c. -/
def cnvPage (c : Nat) : Nat := 0x400 + c * 0x200

/-- The page of module panel p. -/
def pnlPage (p : Nat) : Nat := 0x400 + (p / 32) * 0x200 + 1 + p % 32

/-- Page numbers of the blocks (R27): the page's address in the PF BAR0 divided by 0x1000. -/
def pgMOD : Nat := 0x000
def pgFLT : Nat := 0x010
def pgCAD (d : Nat) : Nat := 0x020 + d
def pgVAR0 : Nat := 0x030
def pgDIP : Nat := 0x031
def pgHIF0 : Nat := 0x040
def pgTEN : Nat := 0x041
def pgSET : Nat := 0x042
def pgSEC : Nat := 0x050
def pgMMU : Nat := 0x060
def pgSYN : Nat := 0x070
def pgSTU : Nat := 0x080
def pgHBM : Nat := 0x090
def pgLFT : Nat := 0x0A0
def pgFRS : Nat := 0x0B0
def pgGLZ : Nat := 0x0C0
def pgSMP : Nat := 0x0D0
def pgVCE (e : Nat) : Nat := 0x0E0 + 0x10 * e
def pgING : Nat := 0x100
def pgMUR : Nat := 0x110
def pgPORT (p : Nat) : Nat := 0x111 + p
def pgRT : Nat := 0x119
def pgJOB : Nat := 0x11A
def pgMGT : Nat := 0x120
def pgEAS : Nat := 0x130
def pgTRK : Nat := 0x140
def pgREF (i : Nat) : Nat := 0x141 + i

/-- Homes of the registers that a selector register makes visible one at a time (the selected tenant, job slot, stream,
shared domain, weight region): pages above the 4,096 of the PF BAR0, one for each selection. -/
def hmTEN (t : Nat) : Nat := 0x1000 + t
def hmSET (t : Nat) : Nat := 0x1040 + t
def hmJOB (j : Nat) : Nat := 0x1080 + j
def hmSTR (n : Nat) : Nat := 0x10C0 + n
def hmDOM (d : Nat) : Nat := 0x1100 + d
def hmWR (r : Nat) : Nat := 0x1200 + r

/-- The kind of a page below the tenant mirror. -/
def blockPageKind (n : Nat) : PageKind :=
  if n = 0 then .mod
  else if n = 0x10 then .flt
  else if 0x20 ≤ n ∧ n ≤ 0x2F then .cadDom
  else if n = 0x30 then .var0
  else if n = 0x31 then .dip
  else if n = 0x40 then .hif0
  else if n = 0x41 then .hifTen
  else if n = 0x42 then .hifSet
  else if 0x43 ≤ n ∧ n ≤ 0x4F then tenantPageKind (n - 0x43)
  else if n = 0x50 then .sec
  else if n = 0x60 then .mmu
  else if n = 0x70 then .syn
  else if n = 0x80 then .stu
  else if n = 0x90 then .hbm
  else if n = 0xA0 then .lft
  else if n = 0xB0 then .frs
  else if n = 0xC0 then .glz
  else if n = 0xD0 then .smp
  else if n = 0xE0 ∨ n = 0xF0 then .vce
  else if n = 0x100 then .ing
  else if n = 0x110 then .mur0
  else if 0x111 ≤ n ∧ n ≤ 0x118 then .murPort
  else if n = 0x119 then .murRt
  else if n = 0x11A then .murJob
  else if n = 0x120 then .mgt
  else if n = 0x130 then .eas
  else if n = 0x140 then .cadTrk
  else if 0x141 ≤ n ∧ n ≤ 0x144 then .cadRef
  else if 0x400 ≤ n ∧ n < 0xC00 then
    (if (n - 0x400) % 0x200 = 0 then .cnv else if (n - 0x400) % 0x200 ≤ 32 then .pnl else .none)
  else .none

/-- The kind of page number n (R27, R29, R340), the homes of selected registers included. -/
def pageKind (n : Nat) : PageKind :=
  if n < 0xC00 then blockPageKind n
  else if n < 0xE00 then tenantPageKind ((n - 0xC00) % 16)
  else if n < 0x1000 then .none
  else if n < 0x1040 then .hifTen
  else if n < 0x1080 then .hifSet
  else if n < 0x10C0 then .murJob
  else if n < 0x1100 then .ing
  else if n < 0x1200 then .smp
  else if n < 0x1210 then .sec
  else .none

/-- Position k of a tenant page in its VF BAR0, and the tenant, for a page number of the tenant mirror or of tenant 0. -/
def tenantOfPage (n : Nat) : Option (Nat × Nat) :=
  if 0x43 ≤ n ∧ n ≤ 0x4D then some (0, n - 0x43)
  else if 0xC00 ≤ n ∧ n < 0xE00 then
    (if (n - 0xC00) % 16 ≤ 10 then some ((n - 0xC00) / 16 + 1, (n - 0xC00) % 16) else none)
  else none

end Sys2Proof.Machine
end

