-- ==== Sys2Proof/Machine/RegMap.lean ====
section
/-! DEFINITION. The register map: every register of every page kind with the place, access code and reset value of each of its fields, read off the register tables of spec/02 to spec/17. A reset the spec gives no number for stands as 0 here (log entry 3). -/

namespace Sys2Proof.Machine

/-- Registers of a page of kind mod. -/
def rows_mod : List RegRow := [
  -- MOD_PART (R46)
  ⟨0x40, [], false, 0xa70, 0x0, 0x0, 0x0, 0x0, 0x0, 0xffff0000⟩,
  -- MOD_STEPPING (R46)
  ⟨0x41, [], false, 0xb01, 0x0, 0x0, 0x0, 0x0, 0x0, 0xffff0000⟩,
  -- MOD_SERIAL_LO (R46)
  ⟨0x42, [], false, 0x0, 0x0, 0x0, 0x0, 0x0, 0x0, 0x0⟩,
  -- MOD_SERIAL_HI (R46)
  ⟨0x43, [], false, 0x0, 0x0, 0x0, 0x0, 0x0, 0x0, 0x0⟩,
  -- MOD_TIME_LO (R46)
  ⟨0x44, [], false, 0x0, 0x0, 0x0, 0x0, 0x0, 0x0, 0x0⟩,
  -- MOD_TIME_HI (R46)
  ⟨0x45, [], false, 0x0, 0x0, 0x0, 0x0, 0x0, 0x0, 0x0⟩,
  -- MOD_TIME_CTRL (R46)
  ⟨0x46, [], false, 0x0, 0x1, 0x0, 0x0, 0x0, 0x0, 0xfffffefe⟩,
  -- MOD_PTP_OFFSET_LO (R46)
  ⟨0x48, [], false, 0x0, 0x0, 0x0, 0x0, 0x0, 0x0, 0x0⟩,
  -- MOD_PTP_OFFSET_HI (R46)
  ⟨0x49, [], false, 0x0, 0x0, 0x0, 0x0, 0x0, 0x0, 0x0⟩,
  -- MOD_PD_REQ0 (R46)
  ⟨0x4c, [], false, 0x87, 0xffff, 0x0, 0x0, 0x0, 0x0, 0xffff0000⟩,
  -- MOD_PD_REQ1 (R46)
  ⟨0x4d, [], false, 0x0, 0xffffffff, 0x0, 0x0, 0x0, 0x0, 0x0⟩,
  -- MOD_PD_STATE0 (R46)
  ⟨0x4e, [], false, 0x87, 0x0, 0x0, 0x0, 0x0, 0x0, 0x0⟩,
  -- MOD_PD_STATE1 (R46)
  ⟨0x4f, [], false, 0x0, 0x0, 0x0, 0x0, 0x0, 0x0, 0x0⟩,
  -- MOD_PD_RESULT (R46)
  ⟨0x50, [], false, 0x0, 0x0, 0x0, 0x0, 0x0, 0x0, 0xfffec000⟩,
  -- MOD_RESET (R46)
  ⟨0x54, [], false, 0x0, 0x0, 0x0, 0x0, 0x0, 0xffff000f, 0xfff0⟩,
  -- MOD_RESET_CAUSE (R46)
  ⟨0x55, [], false, 0x0, 0x0, 0x0, 0x0, 0x0, 0x0, 0xfffffff0⟩,
  -- MOD_RESET_COUNT (R46)
  ⟨0x56, [], false, 0x0, 0x0, 0x0, 0x0, 0x0, 0x0, 0x0⟩,
  -- MOD_PROMISE (R46)
  ⟨0x58, [], false, 0x4, 0x0, 0x0, 0x0, 0x0, 0x0, 0xfffffff0⟩,
  -- MOD_LEDGER_COUNT (R46)
  ⟨0x59, [], false, 0x0, 0x0, 0x0, 0x0, 0x0, 0x0, 0xffff0000⟩,
  -- MOD_LEDGER_FIRST_FAULT (R46)
  ⟨0x5a, [], false, 0x0, 0x0, 0x0, 0x0, 0x0, 0x0, 0x0⟩,
  -- MOD_LEDGER_RECLAIMED (R46)
  ⟨0x5b, [], false, 0x0, 0x0, 0x0, 0x0, 0x0, 0x0, 0x0⟩
  ]

/-- Registers of a page of kind flt. -/
def rows_flt : List RegRow := [
  -- FLT_GRACE (R445)
  ⟨0x40, [], false, 0x1388, 0xfffff, 0x0, 0x0, 0x0, 0x0, 0xfff00000⟩,
  -- FLT_QUIET (R445)
  ⟨0x41, [], false, 0x7d0, 0xfffff, 0x0, 0x0, 0x0, 0x0, 0xfff00000⟩,
  -- FLT_RECOVERY (R445)
  ⟨0x42, [], false, 0xe100004, 0xffff00ff, 0x0, 0x0, 0x0, 0x0, 0xff00⟩,
  -- FLT_ACTION (R445)
  ⟨0x43, [], false, 0x3, 0x3, 0x0, 0x0, 0x0, 0x0, 0xfffffffc⟩,
  -- FLT_STATUS (R445)
  ⟨0x44, [], false, 0x0, 0x0, 0x0, 0x0, 0x0, 0x0, 0xffff0030⟩,
  -- FLT_OPEN_SEL (R445)
  ⟨0x45, [], false, 0x0, 0x3f, 0x0, 0x0, 0x0, 0x0, 0xffffffc0⟩,
  -- FLT_OPEN_SRC (R445)
  ⟨0x46, [], false, 0x0, 0x0, 0x0, 0x0, 0x0, 0x0, 0x0⟩,
  -- FLT_OPEN_INFO (R445)
  ⟨0x47, [], false, 0x0, 0x0, 0x0, 0x0, 0x0, 0x0, 0xfff0000⟩,
  -- FLT_OPEN_LEFT (R445)
  ⟨0x48, [], false, 0x0, 0x0, 0x0, 0x0, 0x0, 0x0, 0xfff00000⟩,
  -- FLT_ACK (R445)
  ⟨0x49, [], false, 0x0, 0x0, 0x0, 0x0, 0x0, 0x3f, 0xffffffc0⟩,
  -- FLT_LOG_SEQ (R445)
  ⟨0x4a, [], false, 0x0, 0x0, 0x0, 0x0, 0x0, 0x0, 0x0⟩,
  -- FLT_CNT_LOG_DROP (R445)
  ⟨0x4b, [], false, 0x0, 0x0, 0x0, 0x0, 0x0, 0x0, 0x0⟩,
  -- FLT_CNT_WIRE (R445)
  ⟨0x4c, [], false, 0x0, 0x0, 0x0, 0x0, 0x0, 0x0, 0x0⟩,
  -- FLT_RCV_SEL (R445)
  ⟨0x4d, [], false, 0x0, 0xffffffff, 0x0, 0x0, 0x0, 0x0, 0x0⟩,
  -- FLT_RCV (R445)
  ⟨0x4e, [], false, 0x0, 0x0, 0x0, 0x0, 0x0, 0x0, 0xfe0000⟩,
  -- FLT_FATAL_FIRST (R445)
  ⟨0x4f, [], false, 0x0, 0x0, 0x0, 0x0, 0x0, 0x0, 0x0⟩,
  -- FLT_INJECT (R445)
  ⟨0x50, [], false, 0x0, 0x0, 0x0, 0x0, 0x0, 0xffff03ff, 0xfc00⟩,
  -- FLT_WEAR (R445)
  ⟨0x51, [], false, 0x1e, 0xff, 0x0, 0x0, 0x0, 0x0, 0xffffff00⟩,
  -- FLT_CNT_ESCALATED (R445)
  ⟨0x52, [], false, 0x0, 0x0, 0x0, 0x0, 0x0, 0x0, 0x0⟩
  ]

/-- Registers of a page of kind cadDom. -/
def rows_cadDom : List RegRow := [
  -- CAD_DOM_CTRL (R170)
  ⟨0x40, [], true, 0x0, 0xfff00fd, 0x0, 0x0, 0x0, 0x0, 0xf000ff02⟩,
  -- CAD_DOM_CYCLE (R170)
  ⟨0x41, [], true, 0x1, 0xffffff, 0x0, 0x0, 0x0, 0x0, 0xff000000⟩,
  -- CAD_DOM_SLIP_TOL (R170)
  ⟨0x42, [], true, 0x1000000, 0xffffffff, 0x0, 0x0, 0x0, 0x0, 0x0⟩,
  -- CAD_DOM_RATE (R170)
  ⟨0x43, [], true, 0x3e8, 0xffff, 0x0, 0x0, 0x0, 0x0, 0xffff0000⟩,
  -- CAD_DOM_STANDSTILL (R170)
  ⟨0x44, [], true, 0x186a0, 0xffffff, 0x0, 0x0, 0x0, 0x0, 0xff000000⟩,
  -- CAD_DOM_HORIZON (R170)
  ⟨0x45, [], true, 0x2710, 0xffff, 0x0, 0x0, 0x0, 0x0, 0xffff0000⟩,
  -- CAD_DOM_GAIN (R170)
  ⟨0x46, [], true, 0x1004000, 0xffffffff, 0x0, 0x0, 0x0, 0x0, 0x0⟩,
  -- CAD_DOM_REV_LIMIT (R170)
  ⟨0x47, [], true, 0x100, 0xffffff, 0x0, 0x0, 0x0, 0x0, 0xff000000⟩,
  -- CAD_DOM_OUTS (R170)
  ⟨0x48, [], true, 0x0, 0xffffffff, 0x0, 0x0, 0x0, 0x0, 0x0⟩,
  -- CAD_DOM_SAFE (R170)
  ⟨0x49, [], false, 0x0, 0xffff, 0x0, 0x0, 0x0, 0x0, 0xffff0000⟩,
  -- CAD_DOM_RECORD (R170)
  ⟨0x4a, [], true, 0x20000, 0x7fffffff, 0x0, 0x0, 0x0, 0x0, 0x80000000⟩,
  -- CAD_DOM_CQ (R170)
  ⟨0x4b, [], true, 0x0, 0x3f, 0x0, 0x0, 0x0, 0x0, 0xffffffc0⟩,
  -- CAD_DOM_PANELS (R170)
  ⟨0x4c, [(1, 4)], true, 0x0, 0xffffffff, 0x0, 0x0, 0x0, 0x0, 0x0⟩,
  -- CAD_EPT_SEL (R170)
  ⟨0x50, [], false, 0x0, 0x103ff, 0x0, 0x0, 0x0, 0x0, 0xfffefc00⟩,
  -- CAD_EPT_DATA (R170)
  ⟨0x51, [(1, 4)], false, 0x0, 0xffffffff, 0x0, 0x0, 0x0, 0x0, 0x0⟩,
  -- CAD_EPT_COMMIT (R170)
  ⟨0x55, [], false, 0x0, 0x0, 0x0, 0x0, 0x0, 0x1, 0xfffffffe⟩,
  -- CAD_EPT_STATUS (R170)
  ⟨0x56, [], false, 0x0, 0x0, 0x0, 0x0, 0x0, 0x0, 0xfc0000fc⟩,
  -- CAD_DOM_POS_LO (R170)
  ⟨0x58, [], false, 0x0, 0x0, 0x0, 0x0, 0x0, 0x0, 0x0⟩,
  -- CAD_DOM_POS_HI (R170)
  ⟨0x59, [], false, 0x0, 0x0, 0x0, 0x0, 0x0, 0x0, 0x0⟩,
  -- CAD_DOM_HWM_LO (R170)
  ⟨0x5a, [], false, 0x0, 0x0, 0x0, 0x0, 0x0, 0x0, 0x0⟩,
  -- CAD_DOM_HWM_HI (R170)
  ⟨0x5b, [], false, 0x0, 0x0, 0x0, 0x0, 0x0, 0x0, 0x0⟩,
  -- CAD_DOM_SPEED_LO (R170)
  ⟨0x5c, [], false, 0x0, 0x0, 0x0, 0x0, 0x0, 0x0, 0x0⟩,
  -- CAD_DOM_SPEED_HI (R170)
  ⟨0x5d, [], false, 0x0, 0x0, 0x0, 0x0, 0x0, 0x0, 0x0⟩,
  -- CAD_DOM_STATUS (R170)
  ⟨0x5e, [], false, 0x8, 0x0, 0x0, 0x80, 0x0, 0x0, 0xffffff01⟩,
  -- CAD_DOM_INSTANCE (R170)
  ⟨0x5f, [], false, 0x0, 0x0, 0x0, 0x0, 0x0, 0x0, 0x0⟩,
  -- CAD_DOM_CNT_SLIP (R170)
  ⟨0x60, [], false, 0x0, 0x0, 0x0, 0x0, 0x0, 0x0, 0x0⟩,
  -- CAD_DOM_CNT_LATE (R170)
  ⟨0x61, [], false, 0x0, 0x0, 0x0, 0x0, 0x0, 0x0, 0x0⟩,
  -- CAD_DOM_CNT_MISSED (R170)
  ⟨0x62, [], false, 0x0, 0x0, 0x0, 0x0, 0x0, 0x0, 0x0⟩,
  -- CAD_DOM_CNT_SKIPPED (R170)
  ⟨0x63, [], false, 0x0, 0x0, 0x0, 0x0, 0x0, 0x0, 0x0⟩,
  -- CAD_DOM_CNT_OVERRUN (R170)
  ⟨0x64, [], false, 0x0, 0x0, 0x0, 0x0, 0x0, 0x0, 0x0⟩,
  -- CAD_DOM_CNT_RESULTS (R170)
  ⟨0x65, [], false, 0x0, 0x0, 0x0, 0x0, 0x0, 0x0, 0x0⟩,
  -- CAD_MARK_TIME_LO (R170)
  ⟨0x68, [], false, 0x0, 0x0, 0x0, 0x0, 0x0, 0x0, 0x0⟩,
  -- CAD_MARK_TIME_HI (R170)
  ⟨0x69, [], false, 0x0, 0x0, 0x0, 0x0, 0x0, 0x0, 0x0⟩,
  -- CAD_MARK_INFO (R170)
  ⟨0x6a, [], false, 0x0, 0x0, 0x0, 0x0, 0x0, 0x0, 0xfc00⟩,
  -- CAD_TPL_CTL_W0 (R170)
  ⟨0x80, [(4, 16)], true, 0x0, 0x3, 0x0, 0x0, 0x0, 0x0, 0xfffffffc⟩,
  -- CAD_TPL_CTL_W1 (R170)
  ⟨0x81, [(4, 16)], true, 0x0, 0xffffffff, 0x0, 0x0, 0x0, 0x0, 0x0⟩,
  -- CAD_TPL_CTL_W2 (R170)
  ⟨0x82, [(4, 16)], true, 0x0, 0xffffffff, 0x0, 0x0, 0x0, 0x0, 0x0⟩,
  -- CAD_TPL_CTL_W3 (R170)
  ⟨0x83, [(4, 16)], true, 0x1, 0x1f, 0x0, 0x0, 0x0, 0x0, 0xffffffe0⟩,
  -- CAD_TPL (R170)
  ⟨0x100, [(16, 16), (1, 16)], true, 0x0, 0xffffffff, 0x0, 0x0, 0x0, 0x0, 0x0⟩
  ]

/-- Registers of a page of kind cadTrk. -/
def rows_cadTrk : List RegRow := [
  -- CAD_TRK_LOAD (R171)
  ⟨0x40, [], false, 0x0, 0x0, 0x0, 0x0, 0x0, 0x0, 0xfffe0000⟩,
  -- CAD_TRK_FLOOR (R171)
  ⟨0x41, [], false, 0x0, 0x0, 0x0, 0x0, 0x0, 0x0, 0xfffff000⟩
  ]

/-- Registers of a page of kind cadRef. -/
def rows_cadRef : List RegRow := [
  -- CAD_REF_MODE (R171)
  ⟨0x40, [], true, 0x0, 0x1f, 0x0, 0x0, 0x0, 0x0, 0xffffffe0⟩,
  -- CAD_REF_FILTER (R171)
  ⟨0x41, [], true, 0x4, 0xffff003f, 0x0, 0x0, 0x0, 0x0, 0xffc0⟩,
  -- CAD_REF_INDEX (R171)
  ⟨0x42, [], true, 0x1, 0xffffffff, 0x0, 0x0, 0x0, 0x0, 0x0⟩,
  -- CAD_REF_PERIOD (R171)
  ⟨0x43, [], true, 0xf4240, 0xffffffff, 0x0, 0x0, 0x0, 0x0, 0x0⟩,
  -- CAD_REF_COUNT_LO (R171)
  ⟨0x44, [], false, 0x0, 0x0, 0x0, 0x0, 0x0, 0x0, 0x0⟩,
  -- CAD_REF_COUNT_HI (R171)
  ⟨0x45, [], false, 0x0, 0x0, 0x0, 0x0, 0x0, 0x0, 0x0⟩,
  -- CAD_REF_EDGE_LO (R171)
  ⟨0x46, [], false, 0x0, 0x0, 0x0, 0x0, 0x0, 0x0, 0x0⟩,
  -- CAD_REF_EDGE_HI (R171)
  ⟨0x47, [], false, 0x0, 0x0, 0x0, 0x0, 0x0, 0x0, 0x0⟩,
  -- CAD_REF_STATUS (R171)
  ⟨0x48, [], false, 0x0, 0x0, 0x0, 0x0, 0x0, 0x0, 0xfffffff8⟩,
  -- CAD_REF_CNT_QUAD (R171)
  ⟨0x49, [], false, 0x0, 0x0, 0x0, 0x0, 0x0, 0x0, 0x0⟩,
  -- CAD_REF_CNT_INDEX_FIX (R171)
  ⟨0x4a, [], false, 0x0, 0x0, 0x0, 0x0, 0x0, 0x0, 0x0⟩,
  -- CAD_REF_CNT_INDEX_ERR (R171)
  ⟨0x4b, [], false, 0x0, 0x0, 0x0, 0x0, 0x0, 0x0, 0x0⟩,
  -- CAD_REF_LAST_FIX (R171)
  ⟨0x4c, [], false, 0x0, 0x0, 0x0, 0x0, 0x0, 0x0, 0x0⟩,
  -- CAD_REF_TERM (R171)
  ⟨0x4d, [], true, 0x7, 0x7, 0x0, 0x0, 0x0, 0x0, 0xfffffff8⟩
  ]

/-- Registers of a page of kind var0. -/
def rows_var0 : List RegRow := [
  -- VAR_VOTER (R193)
  ⟨0x40, [], false, 0x0, 0x0, 0x0, 0x0, 0x0, 0x0, 0xffff000e⟩,
  -- VAR_TRI_REFUSE (R193)
  ⟨0x41, [], false, 0x0, 0x0, 0x0, 0x80000000, 0x0, 0x0, 0x7ff0fc00⟩,
  -- VAR_TRI_CHAN (R193)
  ⟨0x100, [(8, 16)], false, 0x0, 0x7f7f, 0x0, 0x0, 0x0, 0x0, 0xffff8080⟩,
  -- VAR_TRI_TIMING (R193)
  ⟨0x101, [(8, 16)], false, 0x30014, 0xff03ff, 0x0, 0x0, 0x0, 0x0, 0xff00fc00⟩,
  -- VAR_TRI_WINDOW (R193)
  ⟨0x102, [(8, 16)], false, 0x2710, 0xffffff, 0x0, 0x0, 0x0, 0x0, 0xff000000⟩,
  -- VAR_TRI_STATE (R193)
  ⟨0x103, [(8, 16)], false, 0x0, 0x3fffffff, 0x0, 0x0, 0x0, 0x0, 0xc0000000⟩,
  -- VAR_TRI_VOTED_LO (R193)
  ⟨0x104, [(8, 16)], false, 0x0, 0xffffffff, 0x0, 0x0, 0x0, 0x0, 0x0⟩,
  -- VAR_TRI_VOTED_HI (R193)
  ⟨0x105, [(8, 16)], false, 0x0, 0xffff, 0x0, 0x0, 0x0, 0x0, 0xffff0000⟩,
  -- VAR_TRI_CHSTATE (R193)
  ⟨0x106, [(8, 16)], false, 0x0, 0x0, 0x0, 0x0, 0x0, 0x0, 0xffff00c0⟩,
  -- VAR_TRI_CNT_MINORITY (R193)
  ⟨0x107, [(8, 16)], false, 0x0, 0x0, 0x0, 0x0, 0x0, 0x0, 0x0⟩
  ]

/-- Registers of a page of kind dip. -/
def rows_dip : List RegRow := [
  -- VAR_DIP_CTRL (R194)
  ⟨0x40, [], true, 0xc, 0xf0f, 0x0, 0x0, 0x0, 0x0, 0xfffff0f0⟩,
  -- VAR_DIP_DOMAINS (R194)
  ⟨0x41, [], true, 0x0, 0xffff, 0x0, 0x0, 0x0, 0x0, 0xffff0000⟩,
  -- VAR_DIP_CMD (R194)
  ⟨0x42, [], false, 0x0, 0x0, 0x0, 0x0, 0x0, 0xffff000f, 0xfff0⟩,
  -- VAR_DIP_STATUS (R194)
  ⟨0x43, [], false, 0x0, 0x0, 0x0, 0x0, 0x0, 0x0, 0xfc08⟩,
  -- VAR_DIP_PERIOD (R194)
  ⟨0x44, [], false, 0x64, 0x0, 0x0, 0x0, 0x0, 0x0, 0xffffff00⟩,
  -- VAR_DIP_CNT_MISS (R194)
  ⟨0x45, [], false, 0x0, 0x0, 0x0, 0x0, 0x0, 0x0, 0x0⟩,
  -- VAR_DIP_CNT_TAKEOVER (R194)
  ⟨0x46, [], false, 0x0, 0x0, 0x0, 0x0, 0x0, 0x0, 0x0⟩,
  -- VAR_DIP_CNT_SNAP_DROP (R194)
  ⟨0x47, [], false, 0x0, 0x0, 0x0, 0x0, 0x0, 0x0, 0x0⟩,
  -- VAR_DIP_CNT_DIVERGED (R194)
  ⟨0x48, [], false, 0x0, 0x0, 0x0, 0x0, 0x0, 0x0, 0x0⟩,
  -- VAR_DIP_PEER_SERIAL_LO (R194)
  ⟨0x49, [], false, 0x0, 0x0, 0x0, 0x0, 0x0, 0x0, 0x0⟩,
  -- VAR_DIP_PEER_SERIAL_HI (R194)
  ⟨0x4a, [], false, 0x0, 0x0, 0x0, 0x0, 0x0, 0x0, 0x0⟩,
  -- VAR_DIP_SNAP_W0 (R194)
  ⟨0x100, [(16, 16), (4, 4)], true, 0x0, 0x1ff, 0x0, 0x0, 0x0, 0x0, 0xfffffe00⟩,
  -- VAR_DIP_SNAP_W1 (R194)
  ⟨0x101, [(16, 16), (4, 4)], true, 0x0, 0xffffffff, 0x0, 0x0, 0x0, 0x0, 0x0⟩,
  -- VAR_DIP_SNAP_W2 (R194)
  ⟨0x102, [(16, 16), (4, 4)], true, 0x0, 0xffff, 0x0, 0x0, 0x0, 0x0, 0xffff0000⟩,
  -- VAR_DIP_SNAP_W3 (R194)
  ⟨0x103, [(16, 16), (4, 4)], true, 0x0, 0x7fffff, 0x0, 0x0, 0x0, 0x0, 0xff800000⟩
  ]

/-- Registers of a page of kind hif0. -/
def rows_hif0 : List RegRow := [
  -- HIF_LINK (R337)
  ⟨0x40, [], false, 0x0, 0x0, 0x0, 0x0, 0x0, 0x0, 0xfffef800⟩,
  -- HIF_LOG (R337)
  ⟨0x41, [], false, 0x0, 0x3f, 0x0, 0x0, 0x0, 0x0, 0xffffffc0⟩,
  -- HIF_CNT_UNMAPPED (R337)
  ⟨0x42, [], false, 0x0, 0x0, 0x0, 0x0, 0x0, 0x0, 0x0⟩,
  -- HIF_CNT_REFUSED (R337)
  ⟨0x43, [], false, 0x0, 0x0, 0x0, 0x0, 0x0, 0x0, 0x0⟩,
  -- HIF_TAGS (R337)
  ⟨0x44, [], false, 0x0, 0x0, 0x0, 0x0, 0x0, 0x0, 0xffffe000⟩,
  -- HIF_CNT_FLR (R337)
  ⟨0x45, [], false, 0x0, 0x0, 0x0, 0x0, 0x0, 0x0, 0x0⟩
  ]

/-- Registers of a page of kind hifTen. -/
def rows_hifTen : List RegRow := [
  -- HIF_TEN_SEL (R338)
  ⟨0x40, [], false, 0x0, 0x3f, 0x0, 0x0, 0x0, 0x0, 0xffffffc0⟩,
  -- HIF_TEN_CMD (R338)
  ⟨0x41, [], false, 0x0, 0x0, 0x0, 0x0, 0x0, 0x33f, 0xfffffcc0⟩,
  -- HIF_TEN_STATE (R338)
  ⟨0x42, [], false, 0x0, 0x0, 0x0, 0x0, 0x0, 0x0, 0xfffd00f0⟩,
  -- HIF_TEN_DETAIL (R338)
  ⟨0x43, [], false, 0x0, 0x0, 0x0, 0x0, 0x0, 0x0, 0x0⟩,
  -- HIF_TEN_CFG (R338)
  ⟨0x44, [], false, 0x0, 0xff7f1fff, 0x0, 0x0, 0x0, 0x0, 0x80e000⟩,
  -- HIF_TEN_QUANTUM (R338)
  ⟨0x45, [], false, 0x7d0, 0x1ffff, 0x0, 0x0, 0x0, 0x0, 0xfffe0000⟩,
  -- HIF_TEN_REPLAY (R338)
  ⟨0x46, [], false, 0x0, 0x3fff, 0x0, 0x0, 0x0, 0x0, 0xffffc000⟩,
  -- HIF_TEN_SAVE (R338)
  ⟨0x47, [], false, 0x0, 0x3fff, 0x0, 0x0, 0x0, 0x0, 0xffffc000⟩,
  -- HIF_TEN_PANELS (R338)
  ⟨0x48, [(1, 4)], false, 0x0, 0xffffffff, 0x0, 0x0, 0x0, 0x0, 0x0⟩,
  -- HIF_TEN_ENABLED_LO (R338)
  ⟨0x4c, [], false, 0x0, 0x0, 0x0, 0x0, 0x0, 0x0, 0x0⟩,
  -- HIF_TEN_ENABLED_HI (R338)
  ⟨0x4d, [], false, 0x0, 0x0, 0x0, 0x0, 0x0, 0x0, 0xfffffffe⟩,
  -- HIF_TEN_QUIET (R338)
  ⟨0x4e, [], false, 0x0, 0x0, 0x0, 0x0, 0x0, 0x0, 0x0⟩
  ]

/-- Registers of a page of kind hifSet. -/
def rows_hifSet : List RegRow := [
  -- HIF_SET (R339)
  ⟨0x40, [(4, 64), (1, 4)], false, 0x0, 0xffffffff, 0x0, 0x0, 0x0, 0x0, 0x0⟩
  ]

/-- Registers of a page of kind sec. -/
def rows_sec : List RegRow := [
  -- SEC_LC (R420)
  ⟨0x40, [], false, 0x0, 0x0, 0x0, 0x0, 0x0, 0x0, 0xfcfcfcf8⟩,
  -- SEC_LC_CMD (R420)
  ⟨0x41, [], false, 0x0, 0x0, 0x0, 0x0, 0x0, 0xffff000f, 0xfff0⟩,
  -- SEC_LC_RESULT (R420)
  ⟨0x42, [], false, 0x0, 0x0, 0x0, 0x0, 0x0, 0x0, 0xfffffe00⟩,
  -- SEC_NONCE_LO (R420)
  ⟨0x43, [], false, 0x0, 0x0, 0x0, 0x0, 0x0, 0x0, 0x0⟩,
  -- SEC_NONCE_HI (R420)
  ⟨0x44, [], false, 0x0, 0x0, 0x0, 0x0, 0x0, 0x0, 0x0⟩,
  -- SEC_TOKEN (R420)
  ⟨0x45, [(1, 24)], false, 0x0, 0x0, 0x0, 0x0, 0x0, 0xffffffff, 0x0⟩,
  -- SEC_TAMPER_CFG (R420)
  ⟨0x60, [], false, 0xa00, 0x0, 0xff33, 0x0, 0x0, 0x0, 0xffff00cc⟩,
  -- SEC_TAMPER_STATUS (R420)
  ⟨0x61, [], false, 0x0, 0x0, 0x0, 0x0, 0x0, 0x0, 0xfffffce0⟩,
  -- SEC_WIPE_COUNT (R420)
  ⟨0x62, [], false, 0x0, 0x0, 0x0, 0x0, 0x0, 0x0, 0x0⟩,
  -- SEC_FW (R420)
  ⟨0x64, [], false, 0x0, 0x0, 0x0, 0x0, 0x0, 0x0, 0xff0000f8⟩,
  -- SEC_ARB_SEL (R420)
  ⟨0x65, [], false, 0x0, 0x1f, 0x0, 0x0, 0x0, 0x0, 0xffffffe0⟩,
  -- SEC_ARB_VALUE (R420)
  ⟨0x66, [], false, 0x0, 0x0, 0x0, 0x0, 0x0, 0x0, 0xffffff00⟩,
  -- SEC_ARB_CMD (R420)
  ⟨0x67, [], false, 0x0, 0x0, 0x0, 0x0, 0x0, 0xffff00ff, 0xff00⟩,
  -- SEC_KEY_CMD (R420)
  ⟨0x68, [], false, 0x0, 0x0, 0x0, 0x0, 0x0, 0x3f07, 0xffffc0f8⟩,
  -- SEC_KEY_ARG_LO (R420)
  ⟨0x69, [], false, 0x0, 0xffffffc0, 0x0, 0x0, 0x0, 0x0, 0x3f⟩,
  -- SEC_KEY_ARG_HI (R420)
  ⟨0x6a, [], false, 0x0, 0xffff, 0x0, 0x0, 0x0, 0x0, 0xffff0000⟩,
  -- SEC_KEY_RESULT (R420)
  ⟨0x6b, [], false, 0x0, 0x0, 0x0, 0x0, 0x0, 0x0, 0xffff00fc⟩,
  -- SEC_CNT_WEIGHT_AUTH (R420)
  ⟨0x6c, [], false, 0x0, 0x0, 0x0, 0x0, 0x0, 0x0, 0x0⟩,
  -- SEC_WR_SEL (R420)
  ⟨0x70, [], false, 0x0, 0xf, 0x0, 0x0, 0x0, 0x0, 0xfffffff0⟩,
  -- SEC_WR_SRC (R420)
  ⟨0x71, [], false, 0x0, 0xffffffff, 0x0, 0x0, 0x0, 0x0, 0x0⟩,
  -- SEC_WR_CFG (R420)
  ⟨0x72, [], false, 0x5, 0x13f0f, 0x0, 0x0, 0x0, 0x0, 0xfffec0f0⟩,
  -- SEC_WR_FRAME (R420)
  ⟨0x73, [], false, 0x0, 0x3ffff, 0x0, 0x0, 0x0, 0x0, 0xfffc0000⟩,
  -- SEC_WR_CMD (R420)
  ⟨0x74, [], false, 0x0, 0x0, 0x0, 0x0, 0x0, 0x3, 0xfffffffc⟩,
  -- SEC_WR_STATUS (R420)
  ⟨0x75, [], false, 0x0, 0x0, 0x0, 0x0, 0x0, 0x0, 0xff0000f0⟩,
  -- SEC_WR_FRAMES (R420)
  ⟨0x76, [], false, 0x0, 0x0, 0x0, 0x0, 0x0, 0x0, 0xfffc0000⟩,
  -- SEC_WR_IMAGE_LO (R420)
  ⟨0x77, [], false, 0x0, 0x0, 0x0, 0x0, 0x0, 0x0, 0x0⟩,
  -- SEC_WR_IMAGE_HI (R420)
  ⟨0x78, [], false, 0x0, 0x0, 0x0, 0x0, 0x0, 0x0, 0x0⟩,
  -- SEC_WR_VERSION (R420)
  ⟨0x79, [], false, 0x0, 0x0, 0x0, 0x0, 0x0, 0x0, 0xffffe000⟩,
  -- SEC_WR_BLOCKS (R420)
  ⟨0x7a, [], false, 0x0, 0x0, 0x0, 0x0, 0x0, 0x0, 0x0⟩
  ]

/-- Registers of a page of kind mmu. -/
def rows_mmu : List RegRow := [
  -- MMU_SEL (R341)
  ⟨0x40, [], false, 0x0, 0x3f, 0x0, 0x0, 0x0, 0x0, 0xffffffc0⟩,
  -- MMU_DVA_LO (R341)
  ⟨0x41, [], false, 0x0, 0xffff0000, 0x0, 0x0, 0x0, 0x0, 0xffff⟩,
  -- MMU_DVA_HI (R341)
  ⟨0x42, [], false, 0x0, 0xffff, 0x0, 0x0, 0x0, 0x0, 0xffff0000⟩,
  -- MMU_TARGET_LO (R341)
  ⟨0x43, [], false, 0x0, 0xffff0000, 0x0, 0x0, 0x0, 0x0, 0xffff⟩,
  -- MMU_TARGET_HI (R341)
  ⟨0x44, [], false, 0x0, 0xffffffff, 0x0, 0x0, 0x0, 0x0, 0x0⟩,
  -- MMU_COUNT (R341)
  ⟨0x45, [], false, 0x1, 0x7fffff, 0x0, 0x0, 0x0, 0x0, 0xff800000⟩,
  -- MMU_ATTR (R341)
  ⟨0x46, [], false, 0x10, 0x37, 0x0, 0x0, 0x0, 0x0, 0xffffffc8⟩,
  -- MMU_CMD (R341)
  ⟨0x47, [], false, 0x0, 0x0, 0x0, 0x0, 0x0, 0x7, 0xfffffff8⟩,
  -- MMU_RESULT (R341)
  ⟨0x48, [], false, 0x0, 0x0, 0x0, 0x0, 0x0, 0x0, 0xfffff00e⟩,
  -- MMU_ENTRIES (R341)
  ⟨0x49, [], false, 0x0, 0x0, 0x0, 0x0, 0x0, 0x0, 0xff800000⟩,
  -- MMU_WINDOW (R341)
  ⟨0x4a, [], false, 0x0, 0x0, 0x0, 0x0, 0x0, 0x0, 0x7ffc0000⟩,
  -- MMU_CNT_FAULTS (R341)
  ⟨0x4b, [], false, 0x0, 0x0, 0x0, 0x0, 0x0, 0x0, 0x0⟩
  ]

/-- Registers of a page of kind syn. -/
def rows_syn : List RegRow := [
  -- SYN_ALLOC (R130)
  ⟨0x40, [(1, 33)], false, 0x0, 0x1fff0fff, 0x0, 0x0, 0x0, 0x0, 0xe000f000⟩,
  -- SYN_SEL (R130)
  ⟨0x64, [], false, 0x0, 0x3ffff, 0x0, 0x0, 0x0, 0x0, 0xfffc0000⟩,
  -- SYN_VALUE_LO (R130)
  ⟨0x65, [], false, 0x0, 0x0, 0x0, 0x0, 0x0, 0x0, 0x0⟩,
  -- SYN_VALUE_HI (R130)
  ⟨0x66, [], false, 0x0, 0x0, 0x0, 0x0, 0x0, 0x0, 0x0⟩,
  -- SYN_ADD_LO (R130)
  ⟨0x68, [], false, 0x0, 0x0, 0x0, 0x0, 0x0, 0xffffffff, 0x0⟩,
  -- SYN_ADD_HI (R130)
  ⟨0x69, [], false, 0x0, 0x0, 0x0, 0x0, 0x0, 0xffffffff, 0x0⟩,
  -- SYN_INFO (R130)
  ⟨0x6a, [], false, 0x3f, 0x0, 0x0, 0x0, 0x0, 0x0, 0xffc0⟩
  ]

/-- Registers of a page of kind stu. -/
def rows_stu : List RegRow := [
  -- STU_MARCH_CTRL (R301)
  ⟨0x60, [], false, 0x0, 0x331, 0x0, 0x0, 0x0, 0x0, 0xfffffcce⟩,
  -- STU_MARCH_BASE (R301)
  ⟨0x61, [], false, 0x0, 0x3ffff, 0x0, 0x0, 0x0, 0x0, 0xfffc0000⟩,
  -- STU_MARCH_SIZE (R301)
  ⟨0x62, [], false, 0x1, 0x3ffff, 0x0, 0x0, 0x0, 0x0, 0xfffc0000⟩,
  -- STU_MARCH_CMD (R301)
  ⟨0x63, [], false, 0x0, 0x0, 0x0, 0x0, 0x0, 0xffff0001, 0xfffe⟩,
  -- STU_MARCH_STATUS (R301)
  ⟨0x64, [], false, 0x0, 0x0, 0x0, 0x0, 0x0, 0x0, 0xf8⟩,
  -- STU_MARCH_FAIL_LO (R301)
  ⟨0x65, [], false, 0x0, 0x0, 0x0, 0x0, 0x0, 0x0, 0x0⟩,
  -- STU_MARCH_FAIL_HI (R301)
  ⟨0x66, [], false, 0x0, 0x0, 0x0, 0x0, 0x0, 0x0, 0xfffffe00⟩,
  -- STU_BANK (R307)
  ⟨0x40, [(1, 32)], false, 0xc00003f, 0x7003f, 0x0, 0x0, 0x0, 0x0, 0xf3f8ffc0⟩,
  -- STU_SCRUB (R307)
  ⟨0x68, [], false, 0x3e8, 0xffff, 0x0, 0x0, 0x0, 0x0, 0xffff0000⟩,
  -- STU_CNT_PATROL_UE (R307)
  ⟨0x69, [], false, 0x0, 0x0, 0x0, 0x0, 0x0, 0x0, 0x0⟩,
  -- STU_SCRUB_PASS (R307)
  ⟨0x6a, [], false, 0x0, 0x0, 0x0, 0x0, 0x0, 0x0, 0x0⟩
  ]

/-- Registers of a page of kind hbm. -/
def rows_hbm : List RegRow := [
  -- HBM_MARCH_CTRL (R301)
  ⟨0x60, [], false, 0x0, 0x331, 0x0, 0x0, 0x0, 0x0, 0xfffffcce⟩,
  -- HBM_MARCH_BASE (R301)
  ⟨0x61, [], false, 0x0, 0x3ffff, 0x0, 0x0, 0x0, 0x0, 0xfffc0000⟩,
  -- HBM_MARCH_SIZE (R301)
  ⟨0x62, [], false, 0x1, 0x3ffff, 0x0, 0x0, 0x0, 0x0, 0xfffc0000⟩,
  -- HBM_MARCH_CMD (R301)
  ⟨0x63, [], false, 0x0, 0x0, 0x0, 0x0, 0x0, 0xffff0001, 0xfffe⟩,
  -- HBM_MARCH_STATUS (R301)
  ⟨0x64, [], false, 0x0, 0x0, 0x0, 0x0, 0x0, 0x0, 0xf8⟩,
  -- HBM_MARCH_FAIL_LO (R301)
  ⟨0x65, [], false, 0x0, 0x0, 0x0, 0x0, 0x0, 0x0, 0x0⟩,
  -- HBM_MARCH_FAIL_HI (R301)
  ⟨0x66, [], false, 0x0, 0x0, 0x0, 0x0, 0x0, 0x0, 0xfffffe00⟩,
  -- HBM_RSV_BASE (R308)
  ⟨0x40, [], true, 0x0, 0x3ffff, 0x0, 0x0, 0x0, 0x0, 0xfffc0000⟩,
  -- HBM_RSV_SIZE (R308)
  ⟨0x41, [], true, 0x100, 0x7fff, 0x0, 0x0, 0x0, 0x0, 0xffff8000⟩,
  -- HBM_SCRUB (R308)
  ⟨0x42, [], false, 0x18, 0xffff, 0x0, 0x0, 0x0, 0x0, 0xffff0000⟩,
  -- HBM_RETIRE (R308)
  ⟨0x43, [], false, 0x108, 0x1ff, 0x0, 0x0, 0x0, 0x0, 0xfffffe00⟩,
  -- HBM_CLEAR (R308)
  ⟨0x44, [], false, 0x0, 0x0, 0x0, 0x0, 0x0, 0x0, 0x7fffff80⟩,
  -- HBM_STACK_SEL (R308)
  ⟨0x45, [], false, 0x0, 0x7, 0x0, 0x0, 0x0, 0x0, 0xfffffff8⟩,
  -- HBM_STACK_RESERVE (R308)
  ⟨0x46, [], false, 0x0, 0x0, 0x0, 0x0, 0x0, 0x0, 0xfffc0000⟩,
  -- HBM_STACK_REPAIR (R308)
  ⟨0x47, [], false, 0x0, 0x0, 0x0, 0x0, 0x0, 0x0, 0x0⟩,
  -- HBM_FRAME_SEL (R308)
  ⟨0x48, [], false, 0x0, 0x3ffff, 0x0, 0x0, 0x0, 0x0, 0xfffc0000⟩,
  -- HBM_FRAME (R308)
  ⟨0x49, [], false, 0x0, 0x0, 0x0, 0x0, 0x0, 0x0, 0xfffffc00⟩,
  -- HBM_CNT_PATROL_UE (R308)
  ⟨0x4a, [], false, 0x0, 0x0, 0x0, 0x0, 0x0, 0x0, 0x0⟩,
  -- HBM_CNT_RETIRED (R308)
  ⟨0x4b, [], false, 0x0, 0x0, 0x0, 0x0, 0x0, 0x0, 0x0⟩,
  -- HBM_CNT_WEIGHT_REPAIR (R308)
  ⟨0x4c, [], false, 0x0, 0x0, 0x0, 0x0, 0x0, 0x0, 0x0⟩,
  -- HBM_SCRUB_PASS (R308)
  ⟨0x4d, [], false, 0x0, 0x0, 0x0, 0x0, 0x0, 0x0, 0x0⟩
  ]

/-- Registers of a page of kind lft. -/
def rows_lft : List RegRow := [
  -- LFT_MARCH_CTRL (R301)
  ⟨0x60, [], false, 0x0, 0x331, 0x0, 0x0, 0x0, 0x0, 0xfffffcce⟩,
  -- LFT_MARCH_BASE (R301)
  ⟨0x61, [], false, 0x0, 0x3ffff, 0x0, 0x0, 0x0, 0x0, 0xfffc0000⟩,
  -- LFT_MARCH_SIZE (R301)
  ⟨0x62, [], false, 0x1, 0x3ffff, 0x0, 0x0, 0x0, 0x0, 0xfffc0000⟩,
  -- LFT_MARCH_CMD (R301)
  ⟨0x63, [], false, 0x0, 0x0, 0x0, 0x0, 0x0, 0xffff0001, 0xfffe⟩,
  -- LFT_MARCH_STATUS (R301)
  ⟨0x64, [], false, 0x0, 0x0, 0x0, 0x0, 0x0, 0x0, 0xf8⟩,
  -- LFT_MARCH_FAIL_LO (R301)
  ⟨0x65, [], false, 0x0, 0x0, 0x0, 0x0, 0x0, 0x0, 0x0⟩,
  -- LFT_MARCH_FAIL_HI (R301)
  ⟨0x66, [], false, 0x0, 0x0, 0x0, 0x0, 0x0, 0x0, 0xfffffe00⟩,
  -- LFT_SCRUB (R309)
  ⟨0x40, [], false, 0x18, 0xffff, 0x0, 0x0, 0x0, 0x0, 0xffff0000⟩,
  -- LFT_RETIRE (R309)
  ⟨0x41, [], false, 0x108, 0x1ff, 0x0, 0x0, 0x0, 0x0, 0xfffffe00⟩,
  -- LFT_CLEAR (R309)
  ⟨0x42, [], false, 0x0, 0x0, 0x0, 0x0, 0x0, 0x0, 0x7fffff80⟩,
  -- LFT_PKG_SEL (R309)
  ⟨0x43, [], false, 0x0, 0xf, 0x0, 0x0, 0x0, 0x0, 0xfffffff0⟩,
  -- LFT_PKG_RESERVE (R309)
  ⟨0x44, [], false, 0x0, 0x0, 0x0, 0x0, 0x0, 0x0, 0xfffc0000⟩,
  -- LFT_FRAME_SEL (R309)
  ⟨0x45, [], false, 0x0, 0x3ffff, 0x0, 0x0, 0x0, 0x0, 0xfffc0000⟩,
  -- LFT_FRAME (R309)
  ⟨0x46, [], false, 0x0, 0x0, 0x0, 0x0, 0x0, 0x0, 0xfffffc00⟩,
  -- LFT_CNT_PATROL_UE (R309)
  ⟨0x47, [], false, 0x0, 0x0, 0x0, 0x0, 0x0, 0x0, 0x0⟩,
  -- LFT_CNT_RETIRED (R309)
  ⟨0x48, [], false, 0x0, 0x0, 0x0, 0x0, 0x0, 0x0, 0x0⟩,
  -- LFT_SCRUB_PASS (R309)
  ⟨0x49, [], false, 0x0, 0x0, 0x0, 0x0, 0x0, 0x0, 0x0⟩,
  -- LFT_CNT_LINK_CE (R309)
  ⟨0x4a, [], false, 0x0, 0x0, 0x0, 0x0, 0x0, 0x0, 0x0⟩
  ]

/-- Registers of a page of kind frs. -/
def rows_frs : List RegRow := [
  -- FRS_PART (R310)
  ⟨0x40, [(1, 16)], true, 0x0, 0xf07fffff, 0x0, 0x0, 0x0, 0x0, 0xf800000⟩,
  -- FRS_RING_BASE_LO (R310)
  ⟨0x50, [], true, 0x0, 0xffffffff, 0x0, 0x0, 0x0, 0x0, 0x0⟩,
  -- FRS_RING_BASE_HI (R310)
  ⟨0x51, [], true, 0x0, 0xffff, 0x0, 0x0, 0x0, 0x0, 0xffff0000⟩,
  -- FRS_RING_CFG (R310)
  ⟨0x52, [], true, 0x6, 0xf, 0x0, 0x0, 0x0, 0x0, 0xfffffff0⟩,
  -- FRS_RING_TAIL (R310)
  ⟨0x53, [], false, 0x0, 0xffff, 0x0, 0x0, 0x0, 0x0, 0xffff0000⟩,
  -- FRS_RING_HEAD (R310)
  ⟨0x54, [], false, 0x0, 0x0, 0x0, 0x0, 0x0, 0x0, 0xffff0000⟩,
  -- FRS_STATUS (R310)
  ⟨0x55, [], false, 0x0, 0x0, 0x0, 0x0, 0x0, 0x0, 0xfffffc00⟩,
  -- FRS_SPARE_BLOCKS (R310)
  ⟨0x56, [], false, 0x0, 0x0, 0x0, 0x0, 0x0, 0x0, 0x0⟩,
  -- FRS_CNT_MEDIA_UE (R310)
  ⟨0x57, [], false, 0x0, 0x0, 0x0, 0x0, 0x0, 0x0, 0x0⟩,
  -- FRS_CNT_READ_RETRY (R310)
  ⟨0x58, [], false, 0x0, 0x0, 0x0, 0x0, 0x0, 0x0, 0x0⟩,
  -- FRS_WRITTEN_GIB (R310)
  ⟨0x59, [], false, 0x0, 0x0, 0x0, 0x0, 0x0, 0x0, 0x0⟩
  ]

/-- Registers of a page of kind glz. -/
def rows_glz : List RegRow := [
  -- GLZ_META_BASE (R248)
  ⟨0x40, [], true, 0x0, 0x3ffff, 0x0, 0x0, 0x0, 0x0, 0xfffc0000⟩,
  -- GLZ_LEAVES (R248)
  ⟨0x41, [], true, 0x40, 0xfff, 0x0, 0x0, 0x0, 0x0, 0xfffff000⟩,
  -- GLZ_SEL (R248)
  ⟨0x42, [], false, 0x0, 0x7, 0x0, 0x0, 0x0, 0x0, 0xfffffff8⟩,
  -- GLZ_GEO_SHAPE (R248)
  ⟨0x80, [(16, 8)], true, 0x410001, 0xc1ffe1ff, 0x0, 0x0, 0x0, 0x0, 0x3e001e00⟩,
  -- GLZ_GEO_EVICT (R248)
  ⟨0x81, [(16, 8)], true, 0x0, 0xffff, 0x0, 0x0, 0x0, 0x0, 0xffff0000⟩,
  -- GLZ_GEO_DECAY (R248)
  ⟨0x82, [(16, 8)], true, 0x3f800000, 0xffffffff, 0x0, 0x0, 0x0, 0x0, 0x0⟩,
  -- GLZ_GEO_SET_BYTES (R248)
  ⟨0x83, [(16, 8)], false, 0x0, 0x0, 0x0, 0x0, 0x0, 0x0, 0x0⟩,
  -- GLZ_GEO_HBM_FIRST (R248)
  ⟨0x84, [(16, 8)], true, 0x0, 0xffffff, 0x0, 0x0, 0x0, 0x0, 0xff000000⟩,
  -- GLZ_GEO_HBM_COUNT (R248)
  ⟨0x85, [(16, 8)], true, 0x0, 0xffffff, 0x0, 0x0, 0x0, 0x0, 0xff000000⟩,
  -- GLZ_GEO_HBM_BASE (R248)
  ⟨0x86, [(16, 8)], true, 0x0, 0x3ffff, 0x0, 0x0, 0x0, 0x0, 0xfffc0000⟩,
  -- GLZ_GEO_LOFT_FIRST (R248)
  ⟨0x88, [(16, 8)], true, 0x0, 0xffffff, 0x0, 0x0, 0x0, 0x0, 0xff000000⟩,
  -- GLZ_GEO_LOFT_COUNT (R248)
  ⟨0x89, [(16, 8)], true, 0x0, 0xffffff, 0x0, 0x0, 0x0, 0x0, 0xff000000⟩,
  -- GLZ_GEO_LOFT_BASE (R248)
  ⟨0x8a, [(16, 8)], true, 0x0, 0x3ffff, 0x0, 0x0, 0x0, 0x0, 0xfffc0000⟩,
  -- GLZ_QUOTA_HBM (R248)
  ⟨0x100, [(2, 33)], false, 0x0, 0xffffff, 0x0, 0x0, 0x0, 0x0, 0xff000000⟩,
  -- GLZ_QUOTA_LOFT (R248)
  ⟨0x101, [(2, 33)], false, 0x0, 0xffffff, 0x0, 0x0, 0x0, 0x0, 0xff000000⟩,
  -- GLZ_SETS_FREE (R248)
  ⟨0x180, [], false, 0x0, 0x0, 0x0, 0x0, 0x0, 0x0, 0xff000000⟩,
  -- GLZ_LOFT_FREE (R248)
  ⟨0x181, [], false, 0x0, 0x0, 0x0, 0x0, 0x0, 0x0, 0xff000000⟩,
  -- GLZ_EVICTIONS (R248)
  ⟨0x182, [], false, 0x0, 0x0, 0x0, 0x0, 0x0, 0x0, 0x0⟩,
  -- GLZ_EXPIRIES (R248)
  ⟨0x183, [], false, 0x0, 0x0, 0x0, 0x0, 0x0, 0x0, 0x0⟩,
  -- GLZ_POISONED (R248)
  ⟨0x184, [], false, 0x0, 0x0, 0x0, 0x0, 0x0, 0x0, 0x0⟩,
  -- GLZ_NONFINITE (R248)
  ⟨0x185, [], false, 0x0, 0x0, 0x0, 0x0, 0x0, 0x0, 0x0⟩,
  -- GLZ_MOVES (R248)
  ⟨0x186, [], false, 0x0, 0x0, 0x0, 0x0, 0x0, 0x0, 0xffffff00⟩
  ]

/-- Registers of a page of kind smp. -/
def rows_smp : List RegRow := [
  -- SMP_SERVE (R225)
  ⟨0x40, [(1, 33)], false, 0x0, 0xffffffff, 0x0, 0x0, 0x0, 0x0, 0x0⟩,
  -- SMP_DOM_SEL (R225)
  ⟨0x64, [], false, 0x40, 0xff, 0x0, 0x0, 0x0, 0x0, 0xffffff00⟩,
  -- SMP_DOM_CTRL (R225)
  ⟨0x65, [], false, 0x0, 0x1, 0x0, 0x0, 0x0, 0x2, 0xffff00fc⟩,
  -- SMP_DOM_MEMBERS_LO (R225)
  ⟨0x66, [], false, 0x0, 0xffffffff, 0x0, 0x0, 0x0, 0x0, 0x0⟩,
  -- SMP_DOM_MEMBERS_HI (R225)
  ⟨0x67, [], false, 0x0, 0x1, 0x0, 0x0, 0x0, 0x0, 0xfffffffe⟩,
  -- SMP_DOM_KEY (R225)
  ⟨0x68, [(1, 4)], false, 0x0, 0x0, 0x0, 0x0, 0x0, 0xffffffff, 0x0⟩,
  -- SMP_DECISIONS_LO (R225)
  ⟨0x6c, [], false, 0x0, 0x0, 0x0, 0x0, 0x0, 0x0, 0x0⟩,
  -- SMP_DECISIONS_HI (R225)
  ⟨0x6d, [], false, 0x0, 0x0, 0x0, 0x0, 0x0, 0x0, 0x0⟩,
  -- SMP_ROWS_DROPPED (R225)
  ⟨0x6e, [], false, 0x0, 0x0, 0x0, 0x0, 0x0, 0x0, 0x0⟩,
  -- SMP_SEQ_OPEN (R225)
  ⟨0x6f, [], false, 0x0, 0x0, 0x0, 0x0, 0x0, 0x0, 0xfffe0000⟩,
  -- SMP_PREFIX_LOOKUPS (R225)
  ⟨0x70, [], false, 0x0, 0x0, 0x0, 0x0, 0x0, 0x0, 0x0⟩,
  -- SMP_PREFIX_HITS (R225)
  ⟨0x71, [], false, 0x0, 0x0, 0x0, 0x0, 0x0, 0x0, 0x0⟩
  ]

/-- Registers of a page of kind vce. -/
def rows_vce : List RegRow := [
  -- VCE_QUOTA (R280)
  ⟨0x40, [(1, 33)], false, 0x0, 0x1ff, 0x0, 0x0, 0x0, 0x0, 0xfffffe00⟩,
  -- VCE_PIPES (R280)
  ⟨0x61, [], false, 0x0, 0x0, 0x0, 0x0, 0x0, 0x0, 0xfe00fe00⟩,
  -- VCE_DEC_LOAD (R280)
  ⟨0x62, [], false, 0x0, 0x0, 0x0, 0x0, 0x0, 0x0, 0xffff0000⟩,
  -- VCE_ENC_LOAD (R280)
  ⟨0x63, [], false, 0x0, 0x0, 0x0, 0x0, 0x0, 0x0, 0xffff0000⟩,
  -- VCE_OPEN (R280)
  ⟨0x64, [], false, 0x0, 0x0, 0x0, 0x0, 0x0, 0x0, 0xfffffe00⟩,
  -- VCE_CNT_CONCEALED (R280)
  ⟨0x65, [], false, 0x0, 0x0, 0x0, 0x0, 0x0, 0x0, 0x0⟩,
  -- VCE_CNT_DROPPED (R280)
  ⟨0x66, [], false, 0x0, 0x0, 0x0, 0x0, 0x0, 0x0, 0x0⟩,
  -- VCE_PDEST_DESC_LO (R280)
  ⟨0x80, [(4, 16)], false, 0x0, 0xffffffff, 0x0, 0x0, 0x0, 0x0, 0x0⟩,
  -- VCE_PDEST_DESC_HI (R280)
  ⟨0x81, [(4, 16)], false, 0x0, 0xffffffff, 0x0, 0x0, 0x0, 0x0, 0x0⟩,
  -- VCE_PDEST_TARGET (R280)
  ⟨0x82, [(4, 16)], false, 0x0, 0x803f077f, 0x0, 0x0, 0x0, 0x0, 0x7fc0f880⟩,
  -- VCE_PDEST_COUNTER (R280)
  ⟨0x83, [(4, 16)], false, 0x0, 0x3ffff, 0x0, 0x0, 0x0, 0x0, 0xfffc0000⟩,
  -- VCE_PDEST_CMD (R280)
  ⟨0xc0, [], false, 0x0, 0x0, 0x0, 0x0, 0x0, 0x10f, 0xfffffef0⟩,
  -- VCE_PDEST_STATUS (R280)
  ⟨0xc1, [], false, 0x0, 0x0, 0x0, 0x0, 0x0, 0x0, 0x0⟩,
  -- VCE_PDEST_RESULT (R280)
  ⟨0xc2, [], false, 0x0, 0x0, 0x0, 0x0, 0x0, 0x0, 0xfc00000c⟩
  ]

/-- Registers of a page of kind ing. -/
def rows_ing : List RegRow := [
  -- ING_PORT_CFG (R393)
  ⟨0x40, [(2, 2)], true, 0x4, 0x7, 0x0, 0x0, 0x0, 0x0, 0xfffffff8⟩,
  -- ING_PORT_STATUS (R393)
  ⟨0x41, [(2, 2)], false, 0x0, 0x0, 0x0, 0x0, 0x0, 0x0, 0xfffffffc⟩,
  -- ING_PTP_CFG (R393)
  ⟨0x44, [], true, 0x0, 0x1dff, 0x0, 0x0, 0x0, 0x0, 0xffffe200⟩,
  -- ING_PTP_STATUS (R393)
  ⟨0x45, [], false, 0x0, 0x0, 0x0, 0x0, 0x0, 0x0, 0xfffffffc⟩,
  -- ING_IF_IPV4 (R393)
  ⟨0x50, [(2, 4)], true, 0x0, 0xffffffff, 0x0, 0x0, 0x0, 0x0, 0x0⟩,
  -- ING_IF_CNT_DROP (R393)
  ⟨0x51, [(2, 4)], false, 0x0, 0x0, 0x0, 0x0, 0x0, 0x0, 0x0⟩,
  -- ING_STR_SEL (R393)
  ⟨0x80, [], false, 0x0, 0x3f, 0x0, 0x0, 0x0, 0x0, 0xffffffc0⟩,
  -- ING_STR_FORMAT (R393)
  ⟨0x81, [], false, 0x0, 0xff070f, 0x0, 0x0, 0x0, 0x0, 0xff00f8f0⟩,
  -- ING_STR_MATCH (R393)
  ⟨0x82, [], false, 0x0, 0xffff, 0x0, 0x0, 0x0, 0x0, 0xffff0000⟩,
  -- ING_STR_GROUP (R393)
  ⟨0x83, [], false, 0x0, 0xffffffff, 0x0, 0x0, 0x0, 0x0, 0x0⟩,
  -- ING_STR_SIZE (R393)
  ⟨0x84, [], false, 0x0, 0x3fff3fff, 0x0, 0x0, 0x0, 0x0, 0xc000c000⟩,
  -- ING_STR_POLICY (R393)
  ⟨0x85, [], false, 0x0, 0xffff0007, 0x0, 0x0, 0x0, 0x0, 0xfff8⟩,
  -- ING_STR_TIMEOUT (R393)
  ⟨0x86, [], false, 0x2710, 0xfffff, 0x0, 0x0, 0x0, 0x0, 0xfff00000⟩,
  -- ING_STR_DEST (R393)
  ⟨0x87, [], false, 0x100000, 0x313f03, 0x0, 0x0, 0x0, 0x0, 0xffcec0fc⟩,
  -- ING_STR_DESC_LO (R393)
  ⟨0x88, [], false, 0x0, 0xffffffff, 0x0, 0x0, 0x0, 0x0, 0x0⟩,
  -- ING_STR_DESC_HI (R393)
  ⟨0x89, [], false, 0x0, 0xffffffff, 0x0, 0x0, 0x0, 0x0, 0x0⟩,
  -- ING_STR_PANEL (R393)
  ⟨0x8a, [(1, 3)], false, 0x0, 0x77f, 0x0, 0x0, 0x0, 0x0, 0xfffff880⟩,
  -- ING_STR_BUF_LO (R393)
  ⟨0x8d, [], false, 0x0, 0xfffff000, 0x0, 0x0, 0x0, 0x0, 0xfff⟩,
  -- ING_STR_BUF_HI (R393)
  ⟨0x8e, [], false, 0x10000, 0xffffffff, 0x0, 0x0, 0x0, 0x0, 0x0⟩,
  -- ING_STR_BUF_BYTES (R393)
  ⟨0x8f, [], false, 0x0, 0xffffffff, 0x0, 0x0, 0x0, 0x0, 0x0⟩,
  -- ING_STR_COUNTER (R393)
  ⟨0x90, [], false, 0x0, 0x3ffff, 0x0, 0x0, 0x0, 0x0, 0xfffc0000⟩,
  -- ING_STR_TRIG (R393)
  ⟨0x91, [], false, 0x0, 0x800f000f, 0x0, 0x0, 0x0, 0x0, 0x7ff0fff0⟩,
  -- ING_STR_CMD (R393)
  ⟨0x92, [], false, 0x0, 0x0, 0x0, 0x0, 0x0, 0x3, 0xfffffffc⟩,
  -- ING_STR_STATUS (R393)
  ⟨0x93, [], false, 0x0, 0x0, 0x0, 0x0, 0x0, 0x0, 0xfc0000f0⟩,
  -- ING_STR_CNT_FRAMES (R393)
  ⟨0x94, [], false, 0x0, 0x0, 0x0, 0x0, 0x0, 0x0, 0x0⟩,
  -- ING_STR_CNT_SHORT (R393)
  ⟨0x95, [], false, 0x0, 0x0, 0x0, 0x0, 0x0, 0x0, 0x0⟩,
  -- ING_STR_CNT_LONG (R393)
  ⟨0x96, [], false, 0x0, 0x0, 0x0, 0x0, 0x0, 0x0, 0x0⟩,
  -- ING_STR_CNT_DROPPED (R393)
  ⟨0x97, [], false, 0x0, 0x0, 0x0, 0x0, 0x0, 0x0, 0x0⟩,
  -- ING_STR_CNT_BAD (R393)
  ⟨0x98, [], false, 0x0, 0x0, 0x0, 0x0, 0x0, 0x0, 0x0⟩
  ]

/-- Registers of a page of kind mur0. -/
def rows_mur0 : List RegRow := [
  -- MUR_ID (R372)
  ⟨0x40, [], true, 0x0, 0xfff, 0x0, 0x0, 0x0, 0x0, 0xfffff000⟩,
  -- MUR_CNT_AUTH (R372)
  ⟨0x41, [], false, 0x0, 0x0, 0x0, 0x0, 0x0, 0x0, 0x0⟩,
  -- MUR_CNT_E2E_REPLAY (R372)
  ⟨0x42, [], false, 0x0, 0x0, 0x0, 0x0, 0x0, 0x0, 0x0⟩,
  -- MUR_CNT_NO_ROUTE (R372)
  ⟨0x43, [], false, 0x0, 0x0, 0x0, 0x0, 0x0, 0x0, 0x0⟩,
  -- MUR_CNT_REFUSED (R372)
  ⟨0x44, [], false, 0x0, 0x0, 0x0, 0x0, 0x0, 0x0, 0x0⟩,
  -- MUR_EC_ACTIVE (R372)
  ⟨0x45, [], false, 0x0, 0x0, 0x0, 0x0, 0x0, 0x0, 0xffffff00⟩
  ]

/-- Registers of a page of kind murPort. -/
def rows_murPort : List RegRow := [
  -- MUR_PORT_CTRL (R373)
  ⟨0x40, [], false, 0x10, 0x1b, 0x0, 0x0, 0x0, 0x0, 0xffffffe4⟩,
  -- MUR_PORT_VC (R373)
  ⟨0x41, [], true, 0x406060, 0xffffff, 0x0, 0x0, 0x0, 0x0, 0xff000000⟩,
  -- MUR_PORT_STATUS (R373)
  ⟨0x42, [], false, 0xf10, 0x0, 0x0, 0x0, 0x0, 0x0, 0xffffe004⟩,
  -- MUR_PORT_PEER (R373)
  ⟨0x43, [], false, 0x0, 0x0, 0x0, 0x0, 0x0, 0x0, 0x0⟩,
  -- MUR_PORT_RTT (R373)
  ⟨0x44, [], false, 0x0, 0x0, 0x0, 0x0, 0x0, 0x0, 0xffff0000⟩,
  -- MUR_PORT_CNT_REPLAY (R373)
  ⟨0x45, [], false, 0x0, 0x0, 0x0, 0x0, 0x0, 0x0, 0x0⟩,
  -- MUR_PORT_CNT_CRC (R373)
  ⟨0x46, [], false, 0x0, 0x0, 0x0, 0x0, 0x0, 0x0, 0x0⟩,
  -- MUR_PORT_CNT_DUP (R373)
  ⟨0x47, [], false, 0x0, 0x0, 0x0, 0x0, 0x0, 0x0, 0x0⟩,
  -- MUR_PORT_CNT_RELOCK (R373)
  ⟨0x48, [], false, 0x0, 0x0, 0x0, 0x0, 0x0, 0x0, 0x0⟩,
  -- MUR_PORT_CNT_DOWN (R373)
  ⟨0x49, [], false, 0x0, 0x0, 0x0, 0x0, 0x0, 0x0, 0x0⟩,
  -- MUR_PORT_TEST (R373)
  ⟨0x4a, [], false, 0xa0000, 0xffff0001, 0x0, 0x0, 0x0, 0x0, 0xfff8⟩,
  -- MUR_PORT_TEST_ERRORS (R373)
  ⟨0x4b, [], false, 0x0, 0x0, 0x0, 0x0, 0x0, 0x0, 0x0⟩,
  -- MUR_PORT_FEC_CE (R373)
  ⟨0x4c, [], false, 0x0, 0x0, 0x0, 0x0, 0x0, 0x0, 0x0⟩
  ]

/-- Registers of a page of kind murRt. -/
def rows_murRt : List RegRow := [
  -- MUR_RT_SEL (R374)
  ⟨0x40, [], false, 0x0, 0x10fff, 0x0, 0x0, 0x0, 0x0, 0xfffef000⟩,
  -- MUR_RT_DATA (R374)
  ⟨0x41, [], false, 0x0, 0x1ff, 0x0, 0x0, 0x0, 0x0, 0xfffffe00⟩,
  -- MUR_RT_COMMIT (R374)
  ⟨0x42, [], false, 0x0, 0x0, 0x0, 0x0, 0x0, 0x1, 0xfffffffe⟩,
  -- MUR_RT_STATUS (R374)
  ⟨0x43, [], false, 0x0, 0x0, 0x0, 0x0, 0x0, 0x0, 0xff00f800⟩,
  -- MUR_RT_INFLIGHT_CUR (R374)
  ⟨0x44, [], false, 0x0, 0x0, 0x0, 0x0, 0x0, 0x0, 0x0⟩,
  -- MUR_RT_INFLIGHT_OLD (R374)
  ⟨0x45, [], false, 0x0, 0x0, 0x0, 0x0, 0x0, 0x0, 0x0⟩
  ]

/-- Registers of a page of kind murJob. -/
def rows_murJob : List RegRow := [
  -- MUR_JOB_SEL (R375)
  ⟨0x40, [], false, 0x0, 0x3f, 0x0, 0x0, 0x0, 0x0, 0xffffffc0⟩,
  -- MUR_JOB_CFG (R375)
  ⟨0x41, [], false, 0x100, 0x3f7f3f, 0x0, 0x0, 0x0, 0x0, 0xffc080c0⟩,
  -- MUR_JOB_ID (R375)
  ⟨0x42, [], false, 0x0, 0xffff, 0x0, 0x0, 0x0, 0x0, 0xffff0000⟩,
  -- MUR_JOB_WIN_LO (R375)
  ⟨0x43, [], false, 0x0, 0xffe00000, 0x0, 0x0, 0x0, 0x0, 0x1fffff⟩,
  -- MUR_JOB_WIN_HI (R375)
  ⟨0x44, [], false, 0x0, 0xffff, 0x0, 0x0, 0x0, 0x0, 0xffff0000⟩,
  -- MUR_JOB_WIN_SIZE (R375)
  ⟨0x45, [], false, 0x0, 0x7fffff, 0x0, 0x0, 0x0, 0x0, 0xff800000⟩,
  -- MUR_JOB_SHARD (R375)
  ⟨0x46, [], false, 0x0, 0xffffffff, 0x0, 0x0, 0x0, 0x0, 0x0⟩,
  -- MUR_JOB_PARITY (R375)
  ⟨0x47, [], false, 0x0, 0xffffffff, 0x0, 0x0, 0x0, 0x0, 0x0⟩,
  -- MUR_JOB_CHUNK (R375)
  ⟨0x48, [], false, 0x1, 0x3ffff, 0x0, 0x0, 0x0, 0x0, 0xfffc0000⟩,
  -- MUR_JOB_RX_COUNTER (R375)
  ⟨0x49, [], false, 0x0, 0x8003ffff, 0x0, 0x0, 0x0, 0x0, 0x7ffc0000⟩,
  -- MUR_JOB_EC_SIGNAL (R375)
  ⟨0x4a, [], false, 0x0, 0xffffffff, 0x0, 0x0, 0x0, 0x0, 0x0⟩,
  -- MUR_JOB_MEMBER_SEL (R375)
  ⟨0x4b, [], false, 0x0, 0x3f, 0x0, 0x0, 0x0, 0x0, 0xffffffc0⟩,
  -- MUR_JOB_MEMBER (R375)
  ⟨0x4c, [], false, 0x0, 0x3fff, 0x0, 0x0, 0x0, 0x0, 0xffffc000⟩,
  -- MUR_JOB_CMD (R375)
  ⟨0x4d, [], false, 0x0, 0x0, 0x0, 0x0, 0x0, 0x33f, 0xfffffcc0⟩,
  -- MUR_JOB_STATUS (R375)
  ⟨0x4e, [], false, 0x0, 0x0, 0x0, 0x0, 0x0, 0x0, 0xff00fff8⟩,
  -- MUR_JOB_OPEN_MASK (R375)
  ⟨0x4f, [], false, 0x0, 0x0, 0x0, 0x0, 0x0, 0x0, 0x0⟩
  ]

/-- Registers of a page of kind mgt. -/
def rows_mgt : List RegRow := [
  -- MGT_POWER_CAP (R394)
  ⟨0x40, [], false, 0x5dc, 0x7ff, 0x0, 0x0, 0x0, 0x0, 0xfffff800⟩,
  -- MGT_POWER_CAP_PLDM (R394)
  ⟨0x41, [], false, 0x5dc, 0x0, 0x0, 0x0, 0x0, 0x0, 0xfffff800⟩,
  -- MGT_POWER_NOW (R394)
  ⟨0x42, [], false, 0x0, 0x0, 0x0, 0x0, 0x0, 0x0, 0xfffff800⟩,
  -- MGT_SMBUS (R394)
  ⟨0x43, [], false, 0x0, 0x0, 0x0, 0x0, 0x0, 0x0, 0xffff0000⟩,
  -- MGT_CNT_SMBUS_ERR (R394)
  ⟨0x44, [], false, 0x0, 0x0, 0x0, 0x0, 0x0, 0x0, 0x0⟩,
  -- MGT_I2C_CTRL (R394)
  ⟨0x48, [(2, 4)], false, 0x3, 0x7, 0x0, 0x0, 0x0, 0x0, 0xfffffff8⟩,
  -- MGT_I2C_STATUS (R394)
  ⟨0x49, [(2, 4)], false, 0x0, 0x0, 0x0, 0x0, 0x0, 0x0, 0xfc⟩,
  -- MGT_OUT_LEVEL (R394)
  ⟨0x50, [], false, 0x0, 0xffff, 0x0, 0x0, 0x0, 0x0, 0xffff0000⟩,
  -- MGT_OUT_SAFE (R394)
  ⟨0x51, [], false, 0x0, 0xffff, 0x0, 0x0, 0x0, 0x0, 0xffff0000⟩,
  -- MGT_OUT_RESET (R394)
  ⟨0x52, [], false, 0x0, 0xffff, 0x0, 0x0, 0x0, 0x0, 0xffff0000⟩,
  -- MGT_OUT_STATE (R394)
  ⟨0x53, [], false, 0x0, 0x0, 0x0, 0x0, 0x0, 0x0, 0x0⟩,
  -- MGT_IN_STATUS (R394)
  ⟨0x54, [], false, 0x0, 0x0, 0x0, 0x0, 0x0, 0x0, 0xfffffff0⟩,
  -- MGT_IN_FILTER (R394)
  ⟨0x55, [], false, 0x4, 0x3f, 0x0, 0x0, 0x0, 0x0, 0xffffffc0⟩,
  -- MGT_IN_EDGE_LO (R394)
  ⟨0x56, [(2, 4)], false, 0x0, 0x0, 0x0, 0x0, 0x0, 0x0, 0x0⟩,
  -- MGT_IN_EDGE_HI (R394)
  ⟨0x57, [(2, 4)], false, 0x0, 0x0, 0x0, 0x0, 0x0, 0x0, 0x0⟩,
  -- MGT_SENSOR_SEL (R394)
  ⟨0x60, [], false, 0x0, 0xf, 0x0, 0x0, 0x0, 0x0, 0xfffffff0⟩,
  -- MGT_SENSOR_VALUE (R394)
  ⟨0x61, [], false, 0x0, 0x0, 0x0, 0x0, 0x0, 0x0, 0x0⟩
  ]

/-- Registers of a page of kind eas. -/
def rows_eas : List RegRow := [
  -- EAS_STATUS (R446)
  ⟨0x40, [], false, 0x0, 0x0, 0x0, 0x0, 0x0, 0x0, 0xfffffec2⟩,
  -- EAS_CNT_SWITCH (R446)
  ⟨0x41, [], false, 0x0, 0x0, 0x0, 0x0, 0x0, 0x0, 0x0⟩,
  -- EAS_LOAD (R446)
  ⟨0x42, [], false, 0x0, 0x0, 0x0, 0x0, 0x0, 0x0, 0xffffff00⟩,
  -- EAS_WATCHDOG (R446)
  ⟨0x43, [], false, 0x0, 0x0, 0x0, 0x0, 0x0, 0x0, 0xffff0000⟩
  ]

/-- Registers of a page of kind cnv. -/
def rows_cnv : List RegRow := [
  -- CNV_MESH_VC (R100)
  ⟨0x40, [], true, 0x4040404, 0xffffffff, 0x0, 0x0, 0x0, 0x0, 0x0⟩,
  -- CNV_D2D_VC (R100)
  ⟨0x41, [], true, 0x8080808, 0xffffffff, 0x0, 0x0, 0x0, 0x0, 0x0⟩,
  -- CNV_SPARE (R100)
  ⟨0x42, [], false, 0x0, 0x0, 0x0, 0x0, 0x0, 0x0, 0xffffe0fc⟩,
  -- CNV_LOST (R100)
  ⟨0x43, [], false, 0x0, 0x0, 0x0, 0x0, 0x0, 0x0, 0x0⟩,
  -- CNV_MAP_SEL (R100)
  ⟨0x44, [], false, 0x0, 0x1f, 0x0, 0x0, 0x0, 0x0, 0xffffffe0⟩,
  -- CNV_MAP_DATA (R100)
  ⟨0x45, [], false, 0x0, 0x0, 0x0, 0x0, 0x0, 0x0, 0xfffffec0⟩,
  -- CNV_RETIRE (R100)
  ⟨0x46, [], false, 0x0, 0x0, 0x0, 0x0, 0x0, 0xffff001f, 0xffe0⟩,
  -- CNV_BYPASS (R100)
  ⟨0x47, [], false, 0xff, 0x0, 0x0, 0x0, 0x0, 0x0, 0xffffff00⟩,
  -- CNV_MOVES (R100)
  ⟨0x48, [], false, 0x800, 0x0, 0x0, 0x0, 0x0, 0x0, 0xfffff0f0⟩
  ]

/-- Registers of a page of kind pnl. -/
def rows_pnl : List RegRow := [
  -- PNL_MODE (R99)
  ⟨0x40, [], true, 0x0, 0xf3f03, 0x0, 0x0, 0x0, 0x0, 0xfff0c0fc⟩,
  -- PNL_STATUS (R99)
  ⟨0x41, [], false, 0x3f, 0x0, 0x0, 0x0, 0x0, 0x0, 0xf0e000c0⟩,
  -- PNL_HOLD (R99)
  ⟨0x42, [], false, 0x400, 0x0, 0x0, 0x0, 0x0, 0x0, 0xfffff810⟩,
  -- PNL_REGION (R99)
  ⟨0x44, [(1, 8)], true, 0x0, 0xffff07ff, 0x0, 0x0, 0x0, 0x0, 0xf800⟩,
  -- PNL_SPARES (R99)
  ⟨0x4c, [], false, 0x4, 0x0, 0x0, 0x0, 0x0, 0x0, 0x80c000f8⟩,
  -- PNL_MAP_SEL (R99)
  ⟨0x4d, [], false, 0x0, 0x3f, 0x0, 0x0, 0x0, 0x0, 0xffffffc0⟩,
  -- PNL_MAP_DATA (R99)
  ⟨0x4e, [], false, 0x0, 0x0, 0x0, 0x0, 0x0, 0x0, 0xffffff80⟩,
  -- PNL_RETIRE (R99)
  ⟨0x4f, [], false, 0x0, 0x0, 0x0, 0x0, 0x0, 0xffff003f, 0xffc0⟩,
  -- PNL_CYCLES_LO (R99)
  ⟨0x50, [], false, 0x0, 0x0, 0x0, 0x0, 0x0, 0x0, 0x0⟩,
  -- PNL_CYCLES_HI (R99)
  ⟨0x51, [], false, 0x0, 0x0, 0x0, 0x0, 0x0, 0x0, 0x0⟩,
  -- PNL_STEPS (R99)
  ⟨0x52, [], false, 0x0, 0x0, 0x0, 0x0, 0x0, 0x0, 0x0⟩,
  -- PNL_PORT (R99)
  ⟨0x54, [(1, 4)], false, 0x0, 0x0, 0x0, 0x0, 0x0, 0x0, 0xf8⟩
  ]

/-- Registers of a page of kind tnt. -/
def rows_tnt : List RegRow := [
  -- TNT_QUOTA (R342)
  ⟨0x40, [], false, 0x0, 0x0, 0x0, 0x0, 0x0, 0x0, 0x8080e000⟩,
  -- TNT_TAGS_HELD (R342)
  ⟨0x41, [], false, 0x0, 0x0, 0x0, 0x0, 0x0, 0x0, 0xffffe000⟩,
  -- TNT_EVT (R342)
  ⟨0x42, [], false, 0x0, 0xff, 0x0, 0x0, 0x0, 0x0, 0xffffff00⟩,
  -- TNT_QUANTUM (R342)
  ⟨0x43, [], false, 0x7d0, 0x0, 0x0, 0x0, 0x0, 0x0, 0xfffe0000⟩,
  -- TNT_CNT_REFUSED (R342)
  ⟨0x44, [], false, 0x0, 0x0, 0x0, 0x0, 0x0, 0x0, 0x0⟩,
  -- TNT_TDI (R342)
  ⟨0x45, [], false, 0x0, 0x0, 0x0, 0x0, 0x0, 0x0, 0xfffffffc⟩
  ]

/-- Registers of a page of kind ringCfg. -/
def rows_ringCfg : List RegRow := [
  -- RING_BASE_LO (R343)
  ⟨0x40, [(8, 32)], false, 0x0, 0xffffffff, 0x0, 0x0, 0x0, 0x0, 0x0⟩,
  -- RING_BASE_HI (R343)
  ⟨0x41, [(8, 32)], false, 0x0, 0xffff, 0x0, 0x0, 0x0, 0x0, 0xffff0000⟩,
  -- RING_CFG (R343)
  ⟨0x42, [(8, 32)], false, 0x6, 0xc03f001f, 0x0, 0x0, 0x0, 0x0, 0x3fc0ffe0⟩,
  -- RING_TIMEOUT (R343)
  ⟨0x43, [(8, 32)], false, 0xffffffff, 0xffffffff, 0x0, 0x0, 0x0, 0x0, 0x0⟩,
  -- RING_HEAD (R343)
  ⟨0x44, [(8, 32)], false, 0x0, 0x0, 0x0, 0x0, 0x0, 0x0, 0x0⟩,
  -- RING_STATUS (R343)
  ⟨0x45, [(8, 32)], false, 0x0, 0x0, 0x0, 0x0, 0x0, 0x0, 0xffff00fc⟩,
  -- RING_SEQ_H (R343)
  ⟨0x46, [(8, 32)], false, 0x0, 0x0, 0x0, 0x0, 0x0, 0x0, 0x0⟩
  ]

/-- Registers of a page of kind doorbell. -/
def rows_doorbell : List RegRow := [
  -- DOORBELL (R344)
  ⟨0x40, [(1, 64)], false, 0x0, 0x0, 0x0, 0x0, 0x0, 0xffffffff, 0x0⟩
  ]

/-- Registers of a page of kind cqPage. -/
def rows_cqPage : List RegRow := [
  -- CQ_BASE_LO (R345)
  ⟨0x40, [(4, 64)], false, 0x0, 0xffffffff, 0x0, 0x0, 0x0, 0x0, 0x0⟩,
  -- CQ_BASE_HI (R345)
  ⟨0x41, [(4, 64)], false, 0x0, 0xffff, 0x0, 0x0, 0x0, 0x0, 0xffff0000⟩,
  -- CQ_CFG (R345)
  ⟨0x42, [(4, 64)], false, 0x6, 0x80ffff1f, 0x0, 0x0, 0x0, 0x0, 0x7f0000e0⟩,
  -- CQ_HEAD (R345)
  ⟨0x43, [(4, 64)], false, 0x0, 0xffffffff, 0x0, 0x0, 0x0, 0x0, 0x0⟩,
  -- CQ_REFUSE (R345)
  ⟨0x140, [], false, 0x0, 0x0, 0x0, 0x80000000, 0x0, 0x0, 0x7fc000ff⟩
  ]

/-- Registers of a page of kind synT. -/
def rows_synT : List RegRow := [
  -- SYN_T_COUNT (R130)
  ⟨0x40, [], false, 0x0, 0x0, 0x0, 0x0, 0x0, 0x0, 0xffffe000⟩,
  -- SYN_T_SEL (R130)
  ⟨0x41, [], false, 0x0, 0x3ffff, 0x0, 0x0, 0x0, 0x0, 0xfffc0000⟩,
  -- SYN_T_VALUE_LO (R130)
  ⟨0x42, [], false, 0x0, 0x0, 0x0, 0x0, 0x0, 0x0, 0x0⟩,
  -- SYN_T_VALUE_HI (R130)
  ⟨0x43, [], false, 0x0, 0x0, 0x0, 0x0, 0x0, 0x0, 0x0⟩,
  -- SYN_T_ADD_LO (R130)
  ⟨0x44, [], false, 0x0, 0x0, 0x0, 0x0, 0x0, 0xffffffff, 0x0⟩,
  -- SYN_T_ADD_HI (R130)
  ⟨0x45, [], false, 0x0, 0x0, 0x0, 0x0, 0x0, 0xffffffff, 0x0⟩,
  -- SYN_T_INFO (R130)
  ⟨0x46, [], false, 0x0, 0x0, 0x0, 0x0, 0x0, 0x0, 0x0⟩
  ]

/-- Registers of a page of kind glzT. -/
def rows_glzT : List RegRow := [
  -- GLZ_T_SEL (R249)
  ⟨0x40, [], false, 0x0, 0xffffff, 0x0, 0x0, 0x0, 0x0, 0xff000000⟩,
  -- GLZ_T_SEQ (R249)
  ⟨0x41, [], false, 0x0, 0x0, 0x0, 0x0, 0x0, 0x0, 0xfffffe00⟩,
  -- GLZ_T_LENGTH (R249)
  ⟨0x42, [], false, 0x0, 0x0, 0x0, 0x0, 0x0, 0x0, 0xffe00000⟩,
  -- GLZ_T_BLOCKS (R249)
  ⟨0x43, [], false, 0x0, 0x0, 0x0, 0x0, 0x0, 0x0, 0x0⟩,
  -- GLZ_T_TTL (R249)
  ⟨0x44, [], false, 0x0, 0x0, 0x0, 0x0, 0x0, 0x0, 0xfffc0000⟩,
  -- GLZ_T_USE_HBM (R249)
  ⟨0x45, [], false, 0x0, 0x0, 0x0, 0x0, 0x0, 0x0, 0xff000000⟩,
  -- GLZ_T_USE_LOFT (R249)
  ⟨0x46, [], false, 0x0, 0x0, 0x0, 0x0, 0x0, 0x0, 0xff000000⟩,
  -- GLZ_T_DOM_SEL (R249)
  ⟨0x47, [], false, 0x40, 0xff, 0x0, 0x0, 0x0, 0x0, 0xffffff00⟩,
  -- GLZ_T_DOM (R249)
  ⟨0x48, [], false, 0x0, 0x0, 0x0, 0x0, 0x0, 0x0, 0xfffffe00⟩
  ]

/-- Registers of a page of kind smpT. -/
def rows_smpT : List RegRow := [
  -- SMP_T_RING_BASE_LO (R226)
  ⟨0x40, [(4, 16)], true, 0x0, 0xffffffff, 0x0, 0x0, 0x0, 0x0, 0x0⟩,
  -- SMP_T_RING_BASE_HI (R226)
  ⟨0x41, [(4, 16)], true, 0x0, 0xffff, 0x0, 0x0, 0x0, 0x0, 0xffff0000⟩,
  -- SMP_T_RING_CFG (R226)
  ⟨0x42, [(4, 16)], true, 0x0, 0xc000001f, 0x0, 0x0, 0x0, 0x0, 0x3fffffe0⟩,
  -- SMP_T_RING_PTR (R226)
  ⟨0x43, [(4, 16)], false, 0x0, 0xffff, 0x0, 0x0, 0x0, 0x0, 0x0⟩,
  -- SMP_T_STATUS (R226)
  ⟨0x80, [], false, 0x0, 0x0, 0x0, 0x0, 0x0, 0x0, 0xff0e0000⟩
  ]

/-- Registers of a page of kind vceT. -/
def rows_vceT : List RegRow := [
  -- VCE_T_COUNT (R281)
  ⟨0x40, [], false, 0x0, 0x0, 0x0, 0x0, 0x0, 0x0, 0xfe00fe00⟩,
  -- VCE_T_SEL (R281)
  ⟨0x41, [], false, 0x0, 0xffff, 0x0, 0x0, 0x0, 0x0, 0xffff0000⟩,
  -- VCE_T_CTX (R281)
  ⟨0x42, [], false, 0x0, 0x0, 0x0, 0x0, 0x0, 0x0, 0xfff8f000⟩,
  -- VCE_T_FRAMES (R281)
  ⟨0x43, [], false, 0x0, 0x0, 0x0, 0x0, 0x0, 0x0, 0x0⟩,
  -- VCE_T_CONCEALED (R281)
  ⟨0x44, [], false, 0x0, 0x0, 0x0, 0x0, 0x0, 0x0, 0x0⟩,
  -- VCE_T_DROPPED (R281)
  ⟨0x45, [], false, 0x0, 0x0, 0x0, 0x0, 0x0, 0x0, 0x0⟩,
  -- VCE_T_SIZE (R281)
  ⟨0x46, [], false, 0x0, 0x0, 0x0, 0x0, 0x0, 0x0, 0xc000c000⟩,
  -- VCE_T_LAST_BYTES (R281)
  ⟨0x47, [], false, 0x0, 0x0, 0x0, 0x0, 0x0, 0x0, 0x0⟩
  ]

/-- Registers of a page of kind mmuT. -/
def rows_mmuT : List RegRow := [
  -- MMU_T_FAULT_COUNT (R346)
  ⟨0x40, [], false, 0x0, 0x0, 0x0, 0x0, 0x0, 0x0, 0x0⟩,
  -- MMU_T_FAULT_STATUS (R346)
  ⟨0x41, [], false, 0x0, 0x0, 0x0, 0x80000000, 0x0, 0x0, 0x7fffffe0⟩,
  -- MMU_T_FAULT_DVA_LO (R346)
  ⟨0x42, [], false, 0x0, 0x0, 0x0, 0x0, 0x0, 0x0, 0x0⟩,
  -- MMU_T_FAULT_DVA_HI (R346)
  ⟨0x43, [], false, 0x0, 0x0, 0x0, 0x0, 0x0, 0x0, 0xffff0000⟩,
  -- MMU_T_FAULT_INFO (R346)
  ⟨0x44, [], false, 0x0, 0x0, 0x0, 0x0, 0x0, 0x0, 0x7e00000⟩,
  -- MMU_T_WINDOW (R346)
  ⟨0x45, [], false, 0x0, 0x0, 0x0, 0x0, 0x0, 0x0, 0x7ffc0000⟩
  ]

/-- The registers of a page kind. -/
def regRows : PageKind → List RegRow
  | .mod => rows_mod
  | .flt => rows_flt
  | .cadDom => rows_cadDom
  | .cadTrk => rows_cadTrk
  | .cadRef => rows_cadRef
  | .var0 => rows_var0
  | .dip => rows_dip
  | .hif0 => rows_hif0
  | .hifTen => rows_hifTen
  | .hifSet => rows_hifSet
  | .sec => rows_sec
  | .mmu => rows_mmu
  | .syn => rows_syn
  | .stu => rows_stu
  | .hbm => rows_hbm
  | .lft => rows_lft
  | .frs => rows_frs
  | .glz => rows_glz
  | .smp => rows_smp
  | .vce => rows_vce
  | .ing => rows_ing
  | .mur0 => rows_mur0
  | .murPort => rows_murPort
  | .murRt => rows_murRt
  | .murJob => rows_murJob
  | .mgt => rows_mgt
  | .eas => rows_eas
  | .cnv => rows_cnv
  | .pnl => rows_pnl
  | .tnt => rows_tnt
  | .ringCfg => rows_ringCfg
  | .doorbell => rows_doorbell
  | .cqPage => rows_cqPage
  | .synT => rows_synT
  | .glzT => rows_glzT
  | .smpT => rows_smpT
  | .vceT => rows_vceT
  | .mmuT => rows_mmuT
  | .none => []

/-- The block-specific event bits a page kind defines (every other bit of [31:8] is reserved). -/
def evtBits : PageKind → Nat
  | .mod => 0xf
  | .flt => 0xff0f
  | .cadDom => 0x7ff0f
  | .cadTrk => 0xf
  | .cadRef => 0x1f0f
  | .var0 => 0x7f0f
  | .dip => 0x1ff0f
  | .hif0 => 0xf
  | .hifTen => 0x30f
  | .hifSet => 0xf
  | .sec => 0x1f0f
  | .mmu => 0x10f
  | .syn => 0x30f
  | .stu => 0x70f
  | .hbm => 0x7f0f
  | .lft => 0x3f0f
  | .frs => 0xf0f
  | .glz => 0xf0f
  | .smp => 0x30f
  | .vce => 0xf0f
  | .ing => 0x1f0f
  | .mur0 => 0x30f
  | .murPort => 0x1f0f
  | .murRt => 0x10f
  | .murJob => 0x10f
  | .mgt => 0xf0f
  | .eas => 0x10f
  | .cnv => 0x70f
  | .pnl => 0x1f0f
  | .tnt => 0x10f
  | .ringCfg => 0x10f
  | .doorbell => 0x10f
  | .cqPage => 0x70f
  | .synT => 0xf
  | .glzT => 0x30f
  | .smpT => 0x70f
  | .vceT => 0x70f
  | .mmuT => 0x10f
  | .none => 0

/-- BLK_ID.TYPE of a page kind (R31). -/
def blkType : PageKind → Nat
  | .mod => 0x1
  | .flt => 0x2
  | .cadDom => 0x3
  | .cadTrk => 0x3
  | .cadRef => 0x3
  | .var0 => 0x4
  | .dip => 0x4
  | .hif0 => 0x5
  | .hifTen => 0x5
  | .hifSet => 0x5
  | .sec => 0x6
  | .mmu => 0x7
  | .syn => 0x8
  | .stu => 0x9
  | .hbm => 0xa
  | .lft => 0xb
  | .frs => 0xc
  | .glz => 0xd
  | .smp => 0xe
  | .vce => 0xf
  | .ing => 0x10
  | .mur0 => 0x11
  | .murPort => 0x11
  | .murRt => 0x11
  | .murJob => 0x11
  | .mgt => 0x12
  | .eas => 0x13
  | .cnv => 0x14
  | .pnl => 0x15
  | .tnt => 0x16
  | .ringCfg => 0x16
  | .doorbell => 0x16
  | .cqPage => 0x16
  | .synT => 0x8
  | .glzT => 0xd
  | .smpT => 0xe
  | .vceT => 0xf
  | .mmuT => 0x7
  | .none => 0


end Sys2Proof.Machine
end

