-- ==== Sys2Proof/Machine/RegNames.lean ====
section
/-! DEFINITION. The names of the registers' fields and of the event bits, as the spec writes them: a field is the word of its register and its bit range. An indexed register takes its index. -/

namespace Sys2Proof.Machine

/-- MOD_PART, 02 R46. -/
def r_MOD_PART : Nat := 0x40
def f_MOD_PART_PRODUCT : Fld := ⟨0x40, 15, 0⟩
/-- MOD_STEPPING, 02 R46. -/
def r_MOD_STEPPING : Nat := 0x41
def f_MOD_STEPPING_STEPPING : Fld := ⟨0x41, 15, 0⟩
/-- MOD_SERIAL_LO, 02 R46. -/
def r_MOD_SERIAL_LO : Nat := 0x42
def f_MOD_SERIAL_LO : Fld := ⟨0x42, 31, 0⟩
/-- MOD_SERIAL_HI, 02 R46. -/
def r_MOD_SERIAL_HI : Nat := 0x43
def f_MOD_SERIAL_HI : Fld := ⟨0x43, 31, 0⟩
/-- MOD_TIME_LO, 02 R46. -/
def r_MOD_TIME_LO : Nat := 0x44
def f_MOD_TIME_LO : Fld := ⟨0x44, 31, 0⟩
/-- MOD_TIME_HI, 02 R46. -/
def r_MOD_TIME_HI : Nat := 0x45
def f_MOD_TIME_HI : Fld := ⟨0x45, 31, 0⟩
/-- MOD_TIME_CTRL, 02 R46. -/
def r_MOD_TIME_CTRL : Nat := 0x46
def f_MOD_TIME_CTRL_PTP_LOCKED : Fld := ⟨0x46, 8, 8⟩
def f_MOD_TIME_CTRL_DISCIPLINE : Fld := ⟨0x46, 0, 0⟩
/-- MOD_PTP_OFFSET_LO, 02 R46. -/
def r_MOD_PTP_OFFSET_LO : Nat := 0x48
def f_MOD_PTP_OFFSET_LO : Fld := ⟨0x48, 31, 0⟩
/-- MOD_PTP_OFFSET_HI, 02 R46. -/
def r_MOD_PTP_OFFSET_HI : Nat := 0x49
def f_MOD_PTP_OFFSET_HI : Fld := ⟨0x49, 31, 0⟩
/-- MOD_PD_REQ0, 02 R46. -/
def r_MOD_PD_REQ0 : Nat := 0x4c
def f_MOD_PD_REQ0_STRETCHER : Fld := ⟨0x4c, 15, 0⟩
/-- MOD_PD_REQ1, 02 R46. -/
def r_MOD_PD_REQ1 : Nat := 0x4d
def f_MOD_PD_REQ1 : Fld := ⟨0x4d, 31, 0⟩
/-- MOD_PD_STATE0, 02 R46. -/
def r_MOD_PD_STATE0 : Nat := 0x4e
def f_MOD_PD_STATE0 : Fld := ⟨0x4e, 31, 0⟩
/-- MOD_PD_STATE1, 02 R46. -/
def r_MOD_PD_STATE1 : Nat := 0x4f
def f_MOD_PD_STATE1 : Fld := ⟨0x4f, 31, 0⟩
/-- MOD_PD_RESULT, 02 R46. -/
def r_MOD_PD_RESULT : Nat := 0x50
def f_MOD_PD_RESULT_BUSY : Fld := ⟨0x50, 16, 16⟩
def f_MOD_PD_RESULT_DOMAIN : Fld := ⟨0x50, 13, 8⟩
def f_MOD_PD_RESULT_REASON : Fld := ⟨0x50, 7, 0⟩
/-- MOD_RESET, 02 R46. -/
def r_MOD_RESET : Nat := 0x54
def f_MOD_RESET_KEY : Fld := ⟨0x54, 31, 16⟩
def f_MOD_RESET_CMD : Fld := ⟨0x54, 3, 0⟩
/-- MOD_RESET_CAUSE, 02 R46. -/
def r_MOD_RESET_CAUSE : Nat := 0x55
def f_MOD_RESET_CAUSE_CAUSE : Fld := ⟨0x55, 3, 0⟩
/-- MOD_RESET_COUNT, 02 R46. -/
def r_MOD_RESET_COUNT : Nat := 0x56
def f_MOD_RESET_COUNT : Fld := ⟨0x56, 31, 0⟩
/-- MOD_PROMISE, 02 R46. -/
def r_MOD_PROMISE : Nat := 0x58
def f_MOD_PROMISE_HOLDS : Fld := ⟨0x58, 3, 3⟩
def f_MOD_PROMISE_NO_FATAL : Fld := ⟨0x58, 2, 2⟩
def f_MOD_PROMISE_ENV_OK : Fld := ⟨0x58, 1, 1⟩
def f_MOD_PROMISE_FW_SIGNED : Fld := ⟨0x58, 0, 0⟩
/-- MOD_LEDGER_COUNT, 02 R46. -/
def r_MOD_LEDGER_COUNT : Nat := 0x59
def f_MOD_LEDGER_COUNT_COUNT : Fld := ⟨0x59, 15, 0⟩
/-- MOD_LEDGER_FIRST_FAULT, 02 R46. -/
def r_MOD_LEDGER_FIRST_FAULT : Nat := 0x5a
def f_MOD_LEDGER_FIRST_FAULT_INDEX : Fld := ⟨0x5a, 31, 24⟩
def f_MOD_LEDGER_FIRST_FAULT_INSTANCE : Fld := ⟨0x5a, 23, 16⟩
def f_MOD_LEDGER_FIRST_FAULT_TYPE : Fld := ⟨0x5a, 15, 0⟩
/-- MOD_LEDGER_RECLAIMED, 02 R46. -/
def r_MOD_LEDGER_RECLAIMED : Nat := 0x5b
def f_MOD_LEDGER_RECLAIMED : Fld := ⟨0x5b, 31, 0⟩
/-- FLT_GRACE, 17 R445. -/
def r_FLT_GRACE : Nat := 0x40
def f_FLT_GRACE_US : Fld := ⟨0x40, 19, 0⟩
/-- FLT_QUIET, 17 R445. -/
def r_FLT_QUIET : Nat := 0x41
def f_FLT_QUIET_MS : Fld := ⟨0x41, 19, 0⟩
/-- FLT_RECOVERY, 17 R445. -/
def r_FLT_RECOVERY : Nat := 0x42
def f_FLT_RECOVERY_WINDOW_S : Fld := ⟨0x42, 31, 16⟩
def f_FLT_RECOVERY_LIMIT : Fld := ⟨0x42, 7, 0⟩
/-- FLT_ACTION, 17 R445. -/
def r_FLT_ACTION : Nat := 0x43
def f_FLT_ACTION_WEAR_AUTO : Fld := ⟨0x43, 1, 1⟩
def f_FLT_ACTION_FATAL_RESET : Fld := ⟨0x43, 0, 0⟩
/-- FLT_STATUS, 17 R445. -/
def r_FLT_STATUS : Nat := 0x44
def f_FLT_STATUS_OPEN : Fld := ⟨0x44, 15, 8⟩
def f_FLT_STATUS_FATAL : Fld := ⟨0x44, 7, 7⟩
def f_FLT_STATUS_CLOCK_REF : Fld := ⟨0x44, 6, 6⟩
def f_FLT_STATUS_A1 : Fld := ⟨0x44, 3, 2⟩
def f_FLT_STATUS_A0 : Fld := ⟨0x44, 1, 0⟩
/-- FLT_OPEN_SEL, 17 R445. -/
def r_FLT_OPEN_SEL : Nat := 0x45
def f_FLT_OPEN_SEL_INDEX : Fld := ⟨0x45, 5, 0⟩
/-- FLT_OPEN_SRC, 17 R445. -/
def r_FLT_OPEN_SRC : Nat := 0x46
def f_FLT_OPEN_SRC_MERGE : Fld := ⟨0x46, 31, 24⟩
def f_FLT_OPEN_SRC_SOURCE : Fld := ⟨0x46, 23, 16⟩
def f_FLT_OPEN_SRC_INSTANCE : Fld := ⟨0x46, 15, 8⟩
def f_FLT_OPEN_SRC_PAGE : Fld := ⟨0x46, 7, 0⟩
/-- FLT_OPEN_INFO, 17 R445. -/
def r_FLT_OPEN_INFO : Nat := 0x47
def f_FLT_OPEN_INFO_VALID : Fld := ⟨0x47, 31, 31⟩
def f_FLT_OPEN_INFO_FENCED : Fld := ⟨0x47, 30, 30⟩
def f_FLT_OPEN_INFO_CLASS : Fld := ⟨0x47, 29, 28⟩
def f_FLT_OPEN_INFO_TYPE : Fld := ⟨0x47, 15, 0⟩
/-- FLT_OPEN_LEFT, 17 R445. -/
def r_FLT_OPEN_LEFT : Nat := 0x48
def f_FLT_OPEN_LEFT_US : Fld := ⟨0x48, 19, 0⟩
/-- FLT_ACK, 17 R445. -/
def r_FLT_ACK : Nat := 0x49
def f_FLT_ACK_INDEX : Fld := ⟨0x49, 5, 0⟩
/-- FLT_LOG_SEQ, 17 R445. -/
def r_FLT_LOG_SEQ : Nat := 0x4a
def f_FLT_LOG_SEQ : Fld := ⟨0x4a, 31, 0⟩
/-- FLT_CNT_LOG_DROP, 17 R445. -/
def r_FLT_CNT_LOG_DROP : Nat := 0x4b
def f_FLT_CNT_LOG_DROP : Fld := ⟨0x4b, 31, 0⟩
/-- FLT_CNT_WIRE, 17 R445. -/
def r_FLT_CNT_WIRE : Nat := 0x4c
def f_FLT_CNT_WIRE : Fld := ⟨0x4c, 31, 0⟩
/-- FLT_RCV_SEL, 17 R445. -/
def r_FLT_RCV_SEL : Nat := 0x4d
def f_FLT_RCV_SEL_TYPE : Fld := ⟨0x4d, 31, 16⟩
def f_FLT_RCV_SEL_INSTANCE : Fld := ⟨0x4d, 15, 8⟩
def f_FLT_RCV_SEL_PAGE : Fld := ⟨0x4d, 7, 0⟩
/-- FLT_RCV, 17 R445. -/
def r_FLT_RCV : Nat := 0x4e
def f_FLT_RCV_IN_WINDOW : Fld := ⟨0x4e, 31, 24⟩
def f_FLT_RCV_LATCHED : Fld := ⟨0x4e, 16, 16⟩
def f_FLT_RCV_RECOVERIES : Fld := ⟨0x4e, 15, 0⟩
/-- FLT_FATAL_FIRST, 17 R445. -/
def r_FLT_FATAL_FIRST : Nat := 0x4f
def f_FLT_FATAL_FIRST_TYPE : Fld := ⟨0x4f, 31, 16⟩
def f_FLT_FATAL_FIRST_INSTANCE : Fld := ⟨0x4f, 15, 8⟩
def f_FLT_FATAL_FIRST_SOURCE : Fld := ⟨0x4f, 7, 0⟩
/-- FLT_INJECT, 17 R445. -/
def r_FLT_INJECT : Nat := 0x50
def f_FLT_INJECT_KEY : Fld := ⟨0x50, 31, 16⟩
def f_FLT_INJECT_CLASS : Fld := ⟨0x50, 9, 8⟩
def f_FLT_INJECT_SOURCE : Fld := ⟨0x50, 7, 0⟩
/-- FLT_WEAR, 17 R445. -/
def r_FLT_WEAR : Nat := 0x51
def f_FLT_WEAR_PERMILLE : Fld := ⟨0x51, 7, 0⟩
/-- FLT_CNT_ESCALATED, 17 R445. -/
def r_FLT_CNT_ESCALATED : Nat := 0x52
def f_FLT_CNT_ESCALATED : Fld := ⟨0x52, 31, 0⟩
/-- CAD_DOM_CTRL, 07 R170. -/
def r_CAD_DOM_CTRL : Nat := 0x40
def f_CAD_DOM_CTRL_OWNER : Fld := ⟨0x40, 27, 22⟩
def f_CAD_DOM_CTRL_CHANNEL : Fld := ⟨0x40, 21, 20⟩
def f_CAD_DOM_CTRL_FLOOR : Fld := ⟨0x40, 19, 18⟩
def f_CAD_DOM_CTRL_SLIP_POLICY : Fld := ⟨0x40, 17, 16⟩
def f_CAD_DOM_CTRL_START : Fld := ⟨0x40, 7, 7⟩
def f_CAD_DOM_CTRL_MISS_ACTION : Fld := ⟨0x40, 6, 6⟩
def f_CAD_DOM_CTRL_LATE_POLICY : Fld := ⟨0x40, 5, 5⟩
def f_CAD_DOM_CTRL_RELEASE : Fld := ⟨0x40, 4, 4⟩
def f_CAD_DOM_CTRL_SHARED_OK : Fld := ⟨0x40, 3, 3⟩
def f_CAD_DOM_CTRL_OVERLAP : Fld := ⟨0x40, 2, 2⟩
def f_CAD_DOM_CTRL_TRIPTYCH : Fld := ⟨0x40, 0, 0⟩
/-- CAD_DOM_CYCLE, 07 R170. -/
def r_CAD_DOM_CYCLE : Nat := 0x41
def f_CAD_DOM_CYCLE_COUNTS : Fld := ⟨0x41, 23, 0⟩
/-- CAD_DOM_SLIP_TOL, 07 R170. -/
def r_CAD_DOM_SLIP_TOL : Nat := 0x42
def f_CAD_DOM_SLIP_TOL : Fld := ⟨0x42, 31, 0⟩
/-- CAD_DOM_RATE, 07 R170. -/
def r_CAD_DOM_RATE : Nat := 0x43
def f_CAD_DOM_RATE_MAX_RATE : Fld := ⟨0x43, 15, 0⟩
/-- CAD_DOM_STANDSTILL, 07 R170. -/
def r_CAD_DOM_STANDSTILL : Nat := 0x44
def f_CAD_DOM_STANDSTILL_US : Fld := ⟨0x44, 23, 0⟩
/-- CAD_DOM_HORIZON, 07 R170. -/
def r_CAD_DOM_HORIZON : Nat := 0x45
def f_CAD_DOM_HORIZON_US : Fld := ⟨0x45, 15, 0⟩
/-- CAD_DOM_GAIN, 07 R170. -/
def r_CAD_DOM_GAIN : Nat := 0x46
def f_CAD_DOM_GAIN_BETA : Fld := ⟨0x46, 31, 16⟩
def f_CAD_DOM_GAIN_ALPHA : Fld := ⟨0x46, 15, 0⟩
/-- CAD_DOM_REV_LIMIT, 07 R170. -/
def r_CAD_DOM_REV_LIMIT : Nat := 0x47
def f_CAD_DOM_REV_LIMIT_DEPTH : Fld := ⟨0x47, 23, 0⟩
/-- CAD_DOM_OUTS, 07 R170. -/
def r_CAD_DOM_OUTS : Nat := 0x48
def f_CAD_DOM_OUTS_RESULT : Fld := ⟨0x48, 31, 16⟩
def f_CAD_DOM_OUTS_TRIG : Fld := ⟨0x48, 15, 0⟩
/-- CAD_DOM_SAFE, 07 R170. -/
def r_CAD_DOM_SAFE : Nat := 0x49
def f_CAD_DOM_SAFE_WORD : Fld := ⟨0x49, 15, 0⟩
/-- CAD_DOM_RECORD, 07 R170. -/
def r_CAD_DOM_RECORD : Nat := 0x4a
def f_CAD_DOM_RECORD_PANEL : Fld := ⟨0x4a, 30, 24⟩
def f_CAD_DOM_RECORD_BYTES : Fld := ⟨0x4a, 23, 17⟩
def f_CAD_DOM_RECORD_ADDR : Fld := ⟨0x4a, 16, 0⟩
/-- CAD_DOM_CQ, 07 R170. -/
def r_CAD_DOM_CQ : Nat := 0x4b
def f_CAD_DOM_CQ_QUEUE : Fld := ⟨0x4b, 5, 0⟩
/-- CAD_DOM_PANELS, 07 R170. -/
def r_CAD_DOM_PANELS (i : Nat) : Nat := 0x4c + 1 * i
def f_CAD_DOM_PANELS (i : Nat) : Fld := ⟨0x4c + 1 * i, 31, 0⟩
/-- CAD_EPT_SEL, 07 R170. -/
def r_CAD_EPT_SEL : Nat := 0x50
def f_CAD_EPT_SEL_BANK : Fld := ⟨0x50, 16, 16⟩
def f_CAD_EPT_SEL_INDEX : Fld := ⟨0x50, 9, 0⟩
/-- CAD_EPT_DATA, 07 R170. -/
def r_CAD_EPT_DATA (w : Nat) : Nat := 0x51 + 1 * w
def f_CAD_EPT_DATA (w : Nat) : Fld := ⟨0x51 + 1 * w, 31, 0⟩
/-- CAD_EPT_COMMIT, 07 R170. -/
def r_CAD_EPT_COMMIT : Nat := 0x55
def f_CAD_EPT_COMMIT_COMMIT : Fld := ⟨0x55, 0, 0⟩
/-- CAD_EPT_STATUS, 07 R170. -/
def r_CAD_EPT_STATUS : Nat := 0x56
def f_CAD_EPT_STATUS_INDEX : Fld := ⟨0x56, 25, 16⟩
def f_CAD_EPT_STATUS_REASON : Fld := ⟨0x56, 15, 8⟩
def f_CAD_EPT_STATUS_REFUSED : Fld := ⟨0x56, 1, 1⟩
def f_CAD_EPT_STATUS_BUSY : Fld := ⟨0x56, 0, 0⟩
/-- CAD_DOM_POS_LO, 07 R170. -/
def r_CAD_DOM_POS_LO : Nat := 0x58
def f_CAD_DOM_POS_LO : Fld := ⟨0x58, 31, 0⟩
/-- CAD_DOM_POS_HI, 07 R170. -/
def r_CAD_DOM_POS_HI : Nat := 0x59
def f_CAD_DOM_POS_HI : Fld := ⟨0x59, 31, 0⟩
/-- CAD_DOM_HWM_LO, 07 R170. -/
def r_CAD_DOM_HWM_LO : Nat := 0x5a
def f_CAD_DOM_HWM_LO : Fld := ⟨0x5a, 31, 0⟩
/-- CAD_DOM_HWM_HI, 07 R170. -/
def r_CAD_DOM_HWM_HI : Nat := 0x5b
def f_CAD_DOM_HWM_HI : Fld := ⟨0x5b, 31, 0⟩
/-- CAD_DOM_SPEED_LO, 07 R170. -/
def r_CAD_DOM_SPEED_LO : Nat := 0x5c
def f_CAD_DOM_SPEED_LO : Fld := ⟨0x5c, 31, 0⟩
/-- CAD_DOM_SPEED_HI, 07 R170. -/
def r_CAD_DOM_SPEED_HI : Nat := 0x5d
def f_CAD_DOM_SPEED_HI : Fld := ⟨0x5d, 31, 0⟩
/-- CAD_DOM_STATUS, 07 R170. -/
def r_CAD_DOM_STATUS : Nat := 0x5e
def f_CAD_DOM_STATUS_MARK_LOST : Fld := ⟨0x5e, 7, 7⟩
def f_CAD_DOM_STATUS_HOLDING : Fld := ⟨0x5e, 6, 6⟩
def f_CAD_DOM_STATUS_SKIPPING : Fld := ⟨0x5e, 5, 5⟩
def f_CAD_DOM_STATUS_BELOW_HWM : Fld := ⟨0x5e, 4, 4⟩
def f_CAD_DOM_STATUS_ACQUIRING : Fld := ⟨0x5e, 3, 3⟩
def f_CAD_DOM_STATUS_STANDSTILL : Fld := ⟨0x5e, 2, 2⟩
def f_CAD_DOM_STATUS_SLIP : Fld := ⟨0x5e, 1, 1⟩
/-- CAD_DOM_INSTANCE, 07 R170. -/
def r_CAD_DOM_INSTANCE : Nat := 0x5f
def f_CAD_DOM_INSTANCE : Fld := ⟨0x5f, 31, 0⟩
/-- CAD_DOM_CNT_SLIP, 07 R170. -/
def r_CAD_DOM_CNT_SLIP : Nat := 0x60
def f_CAD_DOM_CNT_SLIP : Fld := ⟨0x60, 31, 0⟩
/-- CAD_DOM_CNT_LATE, 07 R170. -/
def r_CAD_DOM_CNT_LATE : Nat := 0x61
def f_CAD_DOM_CNT_LATE : Fld := ⟨0x61, 31, 0⟩
/-- CAD_DOM_CNT_MISSED, 07 R170. -/
def r_CAD_DOM_CNT_MISSED : Nat := 0x62
def f_CAD_DOM_CNT_MISSED : Fld := ⟨0x62, 31, 0⟩
/-- CAD_DOM_CNT_SKIPPED, 07 R170. -/
def r_CAD_DOM_CNT_SKIPPED : Nat := 0x63
def f_CAD_DOM_CNT_SKIPPED : Fld := ⟨0x63, 31, 0⟩
/-- CAD_DOM_CNT_OVERRUN, 07 R170. -/
def r_CAD_DOM_CNT_OVERRUN : Nat := 0x64
def f_CAD_DOM_CNT_OVERRUN : Fld := ⟨0x64, 31, 0⟩
/-- CAD_DOM_CNT_RESULTS, 07 R170. -/
def r_CAD_DOM_CNT_RESULTS : Nat := 0x65
def f_CAD_DOM_CNT_RESULTS : Fld := ⟨0x65, 31, 0⟩
/-- CAD_MARK_TIME_LO, 07 R170. -/
def r_CAD_MARK_TIME_LO : Nat := 0x68
def f_CAD_MARK_TIME_LO : Fld := ⟨0x68, 31, 0⟩
/-- CAD_MARK_TIME_HI, 07 R170. -/
def r_CAD_MARK_TIME_HI : Nat := 0x69
def f_CAD_MARK_TIME_HI : Fld := ⟨0x69, 31, 0⟩
/-- CAD_MARK_INFO, 07 R170. -/
def r_CAD_MARK_INFO : Nat := 0x6a
def f_CAD_MARK_INFO_VALID : Fld := ⟨0x6a, 31, 31⟩
def f_CAD_MARK_INFO_INSTANCE : Fld := ⟨0x6a, 30, 16⟩
def f_CAD_MARK_INFO_ENTRY : Fld := ⟨0x6a, 9, 0⟩
/-- CAD_TPL_CTL_W0, 07 R170. -/
def r_CAD_TPL_CTL_W0 (t : Nat) : Nat := 0x80 + 4 * t
def f_CAD_TPL_CTL_W0_RESULT (t : Nat) : Fld := ⟨0x80 + 4 * t, 1, 1⟩
def f_CAD_TPL_CTL_W0_VALID (t : Nat) : Fld := ⟨0x80 + 4 * t, 0, 0⟩
/-- CAD_TPL_CTL_W1, 07 R170. -/
def r_CAD_TPL_CTL_W1 (t : Nat) : Nat := 0x81 + 4 * t
def f_CAD_TPL_CTL_W1 (t : Nat) : Fld := ⟨0x81 + 4 * t, 31, 0⟩
/-- CAD_TPL_CTL_W2, 07 R170. -/
def r_CAD_TPL_CTL_W2 (t : Nat) : Nat := 0x82 + 4 * t
def f_CAD_TPL_CTL_W2 (t : Nat) : Fld := ⟨0x82 + 4 * t, 31, 0⟩
/-- CAD_TPL_CTL_W3, 07 R170. -/
def r_CAD_TPL_CTL_W3 (t : Nat) : Nat := 0x83 + 4 * t
def f_CAD_TPL_CTL_W3_ARG_COUNT (t : Nat) : Fld := ⟨0x83 + 4 * t, 4, 0⟩
/-- CAD_TPL, 07 R170. -/
def r_CAD_TPL (t : Nat) (w : Nat) : Nat := 0x100 + 16 * t + 1 * w
def f_CAD_TPL (t : Nat) (w : Nat) : Fld := ⟨0x100 + 16 * t + 1 * w, 31, 0⟩
/-- CAD_TRK_LOAD, 07 R171. -/
def r_CAD_TRK_LOAD : Nat := 0x40
def f_CAD_TRK_LOAD_RESULTS : Fld := ⟨0x40, 16, 0⟩
/-- CAD_TRK_FLOOR, 07 R171. -/
def r_CAD_TRK_FLOOR : Nat := 0x41
def f_CAD_TRK_FLOOR_WATTS : Fld := ⟨0x41, 11, 0⟩
/-- CAD_REF_MODE, 07 R171. -/
def r_CAD_REF_MODE : Nat := 0x40
def f_CAD_REF_MODE_INDEX_EN : Fld := ⟨0x40, 4, 4⟩
def f_CAD_REF_MODE_INVERT_DIR : Fld := ⟨0x40, 3, 3⟩
def f_CAD_REF_MODE_MODE : Fld := ⟨0x40, 2, 0⟩
/-- CAD_REF_FILTER, 07 R171. -/
def r_CAD_REF_FILTER : Nat := 0x41
def f_CAD_REF_FILTER_HOLDOFF : Fld := ⟨0x41, 31, 16⟩
def f_CAD_REF_FILTER_FILTER : Fld := ⟨0x41, 5, 0⟩
/-- CAD_REF_INDEX, 07 R171. -/
def r_CAD_REF_INDEX : Nat := 0x42
def f_CAD_REF_INDEX_INDEX_TOL : Fld := ⟨0x42, 31, 24⟩
def f_CAD_REF_INDEX_COUNTS_PER_REV : Fld := ⟨0x42, 23, 0⟩
/-- CAD_REF_PERIOD, 07 R171. -/
def r_CAD_REF_PERIOD : Nat := 0x43
def f_CAD_REF_PERIOD : Fld := ⟨0x43, 31, 0⟩
/-- CAD_REF_COUNT_LO, 07 R171. -/
def r_CAD_REF_COUNT_LO : Nat := 0x44
def f_CAD_REF_COUNT_LO : Fld := ⟨0x44, 31, 0⟩
/-- CAD_REF_COUNT_HI, 07 R171. -/
def r_CAD_REF_COUNT_HI : Nat := 0x45
def f_CAD_REF_COUNT_HI : Fld := ⟨0x45, 31, 0⟩
/-- CAD_REF_EDGE_LO, 07 R171. -/
def r_CAD_REF_EDGE_LO : Nat := 0x46
def f_CAD_REF_EDGE_LO : Fld := ⟨0x46, 31, 0⟩
/-- CAD_REF_EDGE_HI, 07 R171. -/
def r_CAD_REF_EDGE_HI : Nat := 0x47
def f_CAD_REF_EDGE_HI : Fld := ⟨0x47, 31, 0⟩
/-- CAD_REF_STATUS, 07 R171. -/
def r_CAD_REF_STATUS : Nat := 0x48
def f_CAD_REF_STATUS_REVERSE : Fld := ⟨0x48, 2, 2⟩
def f_CAD_REF_STATUS_INDEX_SEEN : Fld := ⟨0x48, 1, 1⟩
def f_CAD_REF_STATUS_LOS : Fld := ⟨0x48, 0, 0⟩
/-- CAD_REF_CNT_QUAD, 07 R171. -/
def r_CAD_REF_CNT_QUAD : Nat := 0x49
def f_CAD_REF_CNT_QUAD : Fld := ⟨0x49, 31, 0⟩
/-- CAD_REF_CNT_INDEX_FIX, 07 R171. -/
def r_CAD_REF_CNT_INDEX_FIX : Nat := 0x4a
def f_CAD_REF_CNT_INDEX_FIX : Fld := ⟨0x4a, 31, 0⟩
/-- CAD_REF_CNT_INDEX_ERR, 07 R171. -/
def r_CAD_REF_CNT_INDEX_ERR : Nat := 0x4b
def f_CAD_REF_CNT_INDEX_ERR : Fld := ⟨0x4b, 31, 0⟩
/-- CAD_REF_LAST_FIX, 07 R171. -/
def r_CAD_REF_LAST_FIX : Nat := 0x4c
def f_CAD_REF_LAST_FIX : Fld := ⟨0x4c, 31, 0⟩
/-- CAD_REF_TERM, 07 R171. -/
def r_CAD_REF_TERM : Nat := 0x4d
def f_CAD_REF_TERM_Z : Fld := ⟨0x4d, 2, 2⟩
def f_CAD_REF_TERM_B : Fld := ⟨0x4d, 1, 1⟩
def f_CAD_REF_TERM_A : Fld := ⟨0x4d, 0, 0⟩
/-- VAR_VOTER, 08 R193. -/
def r_VAR_VOTER : Nat := 0x40
def f_VAR_VOTER_SWITCHES : Fld := ⟨0x40, 15, 8⟩
def f_VAR_VOTER_V1_STATE : Fld := ⟨0x40, 7, 6⟩
def f_VAR_VOTER_V0_STATE : Fld := ⟨0x40, 5, 4⟩
def f_VAR_VOTER_ACTIVE : Fld := ⟨0x40, 0, 0⟩
/-- VAR_TRI_REFUSE, 08 R193. -/
def r_VAR_TRI_REFUSE : Nat := 0x41
def f_VAR_TRI_REFUSE_VALID : Fld := ⟨0x41, 31, 31⟩
def f_VAR_TRI_REFUSE_DOMAIN : Fld := ⟨0x41, 19, 16⟩
def f_VAR_TRI_REFUSE_WORD : Fld := ⟨0x41, 9, 0⟩
/-- VAR_TRI_CHAN, 08 R193. -/
def r_VAR_TRI_CHAN (d : Nat) : Nat := 0x100 + 8 * d
def f_VAR_TRI_CHAN_FIRST2 (d : Nat) : Fld := ⟨0x100 + 8 * d, 14, 8⟩
def f_VAR_TRI_CHAN_FIRST1 (d : Nat) : Fld := ⟨0x100 + 8 * d, 6, 0⟩
/-- VAR_TRI_TIMING, 08 R193. -/
def r_VAR_TRI_TIMING (d : Nat) : Nat := 0x101 + 8 * d
def f_VAR_TRI_TIMING_RECOVER_LIMIT (d : Nat) : Fld := ⟨0x101 + 8 * d, 23, 16⟩
def f_VAR_TRI_TIMING_SKEW_US (d : Nat) : Fld := ⟨0x101 + 8 * d, 9, 0⟩
/-- VAR_TRI_WINDOW, 08 R193. -/
def r_VAR_TRI_WINDOW (d : Nat) : Nat := 0x102 + 8 * d
def f_VAR_TRI_WINDOW_CYCLES (d : Nat) : Fld := ⟨0x102 + 8 * d, 23, 0⟩
/-- VAR_TRI_STATE, 08 R193. -/
def r_VAR_TRI_STATE (d : Nat) : Nat := 0x103 + 8 * d
def f_VAR_TRI_STATE_RECORD_G (d : Nat) : Fld := ⟨0x103 + 8 * d, 29, 23⟩
def f_VAR_TRI_STATE_SIZE (d : Nat) : Fld := ⟨0x103 + 8 * d, 22, 11⟩
def f_VAR_TRI_STATE_BASE (d : Nat) : Fld := ⟨0x103 + 8 * d, 10, 0⟩
/-- VAR_TRI_VOTED_LO, 08 R193. -/
def r_VAR_TRI_VOTED_LO (d : Nat) : Nat := 0x104 + 8 * d
def f_VAR_TRI_VOTED_LO (d : Nat) : Fld := ⟨0x104 + 8 * d, 31, 0⟩
/-- VAR_TRI_VOTED_HI, 08 R193. -/
def r_VAR_TRI_VOTED_HI (d : Nat) : Nat := 0x105 + 8 * d
def f_VAR_TRI_VOTED_HI_VA (d : Nat) : Fld := ⟨0x105 + 8 * d, 15, 0⟩
/-- VAR_TRI_CHSTATE, 08 R193. -/
def r_VAR_TRI_CHSTATE (d : Nat) : Nat := 0x106 + 8 * d
def f_VAR_TRI_CHSTATE_RECOVERIES (d : Nat) : Fld := ⟨0x106 + 8 * d, 15, 8⟩
def f_VAR_TRI_CHSTATE_CH (d : Nat) : Fld := ⟨0x106 + 8 * d, 5, 0⟩
/-- VAR_TRI_CNT_MINORITY, 08 R193. -/
def r_VAR_TRI_CNT_MINORITY (d : Nat) : Nat := 0x107 + 8 * d
def f_VAR_TRI_CNT_MINORITY (d : Nat) : Fld := ⟨0x107 + 8 * d, 31, 0⟩
/-- VAR_DIP_CTRL, 08 R194. -/
def r_VAR_DIP_CTRL : Nat := 0x40
def f_VAR_DIP_CTRL_ROLE_OUT : Fld := ⟨0x40, 11, 8⟩
def f_VAR_DIP_CTRL_STANDBY_TRIG : Fld := ⟨0x40, 3, 3⟩
def f_VAR_DIP_CTRL_SHADOW_RUN : Fld := ⟨0x40, 2, 2⟩
def f_VAR_DIP_CTRL_SOLO : Fld := ⟨0x40, 1, 1⟩
def f_VAR_DIP_CTRL_PREFER : Fld := ⟨0x40, 0, 0⟩
/-- VAR_DIP_DOMAINS, 08 R194. -/
def r_VAR_DIP_DOMAINS : Nat := 0x41
def f_VAR_DIP_DOMAINS_DOMAINS : Fld := ⟨0x41, 15, 0⟩
/-- VAR_DIP_CMD, 08 R194. -/
def r_VAR_DIP_CMD : Nat := 0x42
def f_VAR_DIP_CMD_KEY : Fld := ⟨0x42, 31, 16⟩
def f_VAR_DIP_CMD_CMD : Fld := ⟨0x42, 3, 0⟩
/-- VAR_DIP_STATUS, 08 R194. -/
def r_VAR_DIP_STATUS : Nat := 0x43
def f_VAR_DIP_STATUS_LAST_SNAP : Fld := ⟨0x43, 31, 16⟩
def f_VAR_DIP_STATUS_ALIGNED : Fld := ⟨0x43, 9, 9⟩
def f_VAR_DIP_STATUS_CONFIG_MATCH : Fld := ⟨0x43, 8, 8⟩
def f_VAR_DIP_STATUS_PEER_ACTIVE : Fld := ⟨0x43, 7, 7⟩
def f_VAR_DIP_STATUS_SPARE_LANE : Fld := ⟨0x43, 6, 6⟩
def f_VAR_DIP_STATUS_LINK : Fld := ⟨0x43, 5, 4⟩
def f_VAR_DIP_STATUS_ROLE : Fld := ⟨0x43, 2, 0⟩
/-- VAR_DIP_PERIOD, 08 R194. -/
def r_VAR_DIP_PERIOD : Nat := 0x44
def f_VAR_DIP_PERIOD_P_US : Fld := ⟨0x44, 7, 0⟩
/-- VAR_DIP_CNT_MISS, 08 R194. -/
def r_VAR_DIP_CNT_MISS : Nat := 0x45
def f_VAR_DIP_CNT_MISS : Fld := ⟨0x45, 31, 0⟩
/-- VAR_DIP_CNT_TAKEOVER, 08 R194. -/
def r_VAR_DIP_CNT_TAKEOVER : Nat := 0x46
def f_VAR_DIP_CNT_TAKEOVER : Fld := ⟨0x46, 31, 0⟩
/-- VAR_DIP_CNT_SNAP_DROP, 08 R194. -/
def r_VAR_DIP_CNT_SNAP_DROP : Nat := 0x47
def f_VAR_DIP_CNT_SNAP_DROP : Fld := ⟨0x47, 31, 0⟩
/-- VAR_DIP_CNT_DIVERGED, 08 R194. -/
def r_VAR_DIP_CNT_DIVERGED : Nat := 0x48
def f_VAR_DIP_CNT_DIVERGED : Fld := ⟨0x48, 31, 0⟩
/-- VAR_DIP_PEER_SERIAL_LO, 08 R194. -/
def r_VAR_DIP_PEER_SERIAL_LO : Nat := 0x49
def f_VAR_DIP_PEER_SERIAL_LO : Fld := ⟨0x49, 31, 0⟩
/-- VAR_DIP_PEER_SERIAL_HI, 08 R194. -/
def r_VAR_DIP_PEER_SERIAL_HI : Nat := 0x4a
def f_VAR_DIP_PEER_SERIAL_HI : Fld := ⟨0x4a, 31, 0⟩
/-- VAR_DIP_SNAP_W0, 08 R194. -/
def r_VAR_DIP_SNAP_W0 (d : Nat) (r : Nat) : Nat := 0x100 + 16 * d + 4 * r
def f_VAR_DIP_SNAP_W0_G (d : Nat) (r : Nat) : Fld := ⟨0x100 + 16 * d + 4 * r, 8, 2⟩
def f_VAR_DIP_SNAP_W0_KIND (d : Nat) (r : Nat) : Fld := ⟨0x100 + 16 * d + 4 * r, 1, 0⟩
/-- VAR_DIP_SNAP_W1, 08 R194. -/
def r_VAR_DIP_SNAP_W1 (d : Nat) (r : Nat) : Nat := 0x101 + 16 * d + 4 * r
def f_VAR_DIP_SNAP_W1 (d : Nat) (r : Nat) : Fld := ⟨0x101 + 16 * d + 4 * r, 31, 0⟩
/-- VAR_DIP_SNAP_W2, 08 R194. -/
def r_VAR_DIP_SNAP_W2 (d : Nat) (r : Nat) : Nat := 0x102 + 16 * d + 4 * r
def f_VAR_DIP_SNAP_W2_ADDR_HI (d : Nat) (r : Nat) : Fld := ⟨0x102 + 16 * d + 4 * r, 15, 0⟩
/-- VAR_DIP_SNAP_W3, 08 R194. -/
def r_VAR_DIP_SNAP_W3 (d : Nat) (r : Nat) : Nat := 0x103 + 16 * d + 4 * r
def f_VAR_DIP_SNAP_W3_BYTES (d : Nat) (r : Nat) : Fld := ⟨0x103 + 16 * d + 4 * r, 22, 0⟩
/-- HIF_LINK, 13 R337. -/
def r_HIF_LINK : Nat := 0x40
def f_HIF_LINK_DL_UP : Fld := ⟨0x40, 16, 16⟩
def f_HIF_LINK_FLIT : Fld := ⟨0x40, 10, 10⟩
def f_HIF_LINK_WIDTH : Fld := ⟨0x40, 9, 4⟩
def f_HIF_LINK_SPEED : Fld := ⟨0x40, 3, 0⟩
/-- HIF_LOG, 13 R337. -/
def r_HIF_LOG : Nat := 0x41
def f_HIF_LOG_CQ : Fld := ⟨0x41, 5, 0⟩
/-- HIF_CNT_UNMAPPED, 13 R337. -/
def r_HIF_CNT_UNMAPPED : Nat := 0x42
def f_HIF_CNT_UNMAPPED : Fld := ⟨0x42, 31, 0⟩
/-- HIF_CNT_REFUSED, 13 R337. -/
def r_HIF_CNT_REFUSED : Nat := 0x43
def f_HIF_CNT_REFUSED : Fld := ⟨0x43, 31, 0⟩
/-- HIF_TAGS, 13 R337. -/
def r_HIF_TAGS : Nat := 0x44
def f_HIF_TAGS_HELD : Fld := ⟨0x44, 12, 0⟩
/-- HIF_CNT_FLR, 13 R337. -/
def r_HIF_CNT_FLR : Nat := 0x45
def f_HIF_CNT_FLR : Fld := ⟨0x45, 31, 0⟩
/-- HIF_TEN_SEL, 13 R338. -/
def r_HIF_TEN_SEL : Nat := 0x40
def f_HIF_TEN_SEL_TENANT : Fld := ⟨0x40, 5, 0⟩
/-- HIF_TEN_CMD, 13 R338. -/
def r_HIF_TEN_CMD : Nat := 0x41
def f_HIF_TEN_CMD_OP : Fld := ⟨0x41, 9, 8⟩
def f_HIF_TEN_CMD_TENANT : Fld := ⟨0x41, 5, 0⟩
/-- HIF_TEN_STATE, 13 R338. -/
def r_HIF_TEN_STATE : Nat := 0x42
def f_HIF_TEN_STATE_LOCKED : Fld := ⟨0x42, 17, 17⟩
def f_HIF_TEN_STATE_REASON : Fld := ⟨0x42, 15, 8⟩
def f_HIF_TEN_STATE_STATE : Fld := ⟨0x42, 3, 0⟩
/-- HIF_TEN_DETAIL, 13 R338. -/
def r_HIF_TEN_DETAIL : Nat := 0x43
def f_HIF_TEN_DETAIL_TYPE : Fld := ⟨0x43, 31, 16⟩
def f_HIF_TEN_DETAIL_PAGE : Fld := ⟨0x43, 15, 10⟩
def f_HIF_TEN_DETAIL_WORD : Fld := ⟨0x43, 9, 0⟩
/-- HIF_TEN_CFG, 13 R338. -/
def r_HIF_TEN_CFG : Nat := 0x44
def f_HIF_TEN_CFG_GESSO_COMPAT : Fld := ⟨0x44, 31, 31⟩
def f_HIF_TEN_CFG_CQS : Fld := ⟨0x44, 30, 24⟩
def f_HIF_TEN_CFG_RINGS : Fld := ⟨0x44, 22, 16⟩
def f_HIF_TEN_CFG_TAGS : Fld := ⟨0x44, 12, 0⟩
/-- HIF_TEN_QUANTUM, 13 R338. -/
def r_HIF_TEN_QUANTUM : Nat := 0x45
def f_HIF_TEN_QUANTUM_US : Fld := ⟨0x45, 16, 0⟩
/-- HIF_TEN_REPLAY, 13 R338. -/
def r_HIF_TEN_REPLAY : Nat := 0x46
def f_HIF_TEN_REPLAY_FRAME : Fld := ⟨0x46, 13, 0⟩
/-- HIF_TEN_SAVE, 13 R338. -/
def r_HIF_TEN_SAVE : Nat := 0x47
def f_HIF_TEN_SAVE_FRAME : Fld := ⟨0x47, 13, 0⟩
/-- HIF_TEN_PANELS, 13 R338. -/
def r_HIF_TEN_PANELS (i : Nat) : Nat := 0x48 + 1 * i
def f_HIF_TEN_PANELS (i : Nat) : Fld := ⟨0x48 + 1 * i, 31, 0⟩
/-- HIF_TEN_ENABLED_LO, 13 R338. -/
def r_HIF_TEN_ENABLED_LO : Nat := 0x4c
def f_HIF_TEN_ENABLED_LO : Fld := ⟨0x4c, 31, 0⟩
/-- HIF_TEN_ENABLED_HI, 13 R338. -/
def r_HIF_TEN_ENABLED_HI : Nat := 0x4d
def f_HIF_TEN_ENABLED_HI_RUNNING : Fld := ⟨0x4d, 0, 0⟩
/-- HIF_TEN_QUIET, 13 R338. -/
def r_HIF_TEN_QUIET : Nat := 0x4e
def f_HIF_TEN_QUIET : Fld := ⟨0x4e, 31, 0⟩
/-- HIF_SET, 13 R339. -/
def r_HIF_SET (k : Nat) (i : Nat) : Nat := 0x40 + 4 * k + 1 * i
def f_HIF_SET (k : Nat) (i : Nat) : Fld := ⟨0x40 + 4 * k + 1 * i, 31, 0⟩
/-- SEC_LC, 16 R420. -/
def r_SEC_LC : Nat := 0x40
def f_SEC_LC_IDENTITY : Fld := ⟨0x40, 25, 25⟩
def f_SEC_LC_TAMPERED : Fld := ⟨0x40, 24, 24⟩
def f_SEC_LC_DEBUG_NEXT : Fld := ⟨0x40, 17, 16⟩
def f_SEC_LC_DEBUG : Fld := ⟨0x40, 9, 8⟩
def f_SEC_LC_LIFECYCLE : Fld := ⟨0x40, 2, 0⟩
/-- SEC_LC_CMD, 16 R420. -/
def r_SEC_LC_CMD : Nat := 0x41
def f_SEC_LC_CMD_KEY : Fld := ⟨0x41, 31, 16⟩
def f_SEC_LC_CMD_CMD : Fld := ⟨0x41, 3, 0⟩
/-- SEC_LC_RESULT, 16 R420. -/
def r_SEC_LC_RESULT : Nat := 0x42
def f_SEC_LC_RESULT_BUSY : Fld := ⟨0x42, 8, 8⟩
def f_SEC_LC_RESULT_REASON : Fld := ⟨0x42, 7, 0⟩
/-- SEC_NONCE_LO, 16 R420. -/
def r_SEC_NONCE_LO : Nat := 0x43
def f_SEC_NONCE_LO : Fld := ⟨0x43, 31, 0⟩
/-- SEC_NONCE_HI, 16 R420. -/
def r_SEC_NONCE_HI : Nat := 0x44
def f_SEC_NONCE_HI : Fld := ⟨0x44, 31, 0⟩
/-- SEC_TOKEN, 16 R420. -/
def r_SEC_TOKEN (w : Nat) : Nat := 0x45 + 1 * w
def f_SEC_TOKEN (w : Nat) : Fld := ⟨0x45 + 1 * w, 31, 0⟩
/-- SEC_TAMPER_CFG, 16 R420. -/
def r_SEC_TAMPER_CFG : Nat := 0x60
def f_SEC_TAMPER_CFG_FILTER_US : Fld := ⟨0x60, 15, 8⟩
def f_SEC_TAMPER_CFG_POLARITY : Fld := ⟨0x60, 5, 4⟩
def f_SEC_TAMPER_CFG_ARM : Fld := ⟨0x60, 1, 0⟩
/-- SEC_TAMPER_STATUS, 16 R420. -/
def r_SEC_TAMPER_STATUS : Nat := 0x61
def f_SEC_TAMPER_STATUS_EXT_LEVEL : Fld := ⟨0x61, 9, 8⟩
def f_SEC_TAMPER_STATUS_DET : Fld := ⟨0x61, 4, 2⟩
def f_SEC_TAMPER_STATUS_EXT : Fld := ⟨0x61, 1, 0⟩
/-- SEC_WIPE_COUNT, 16 R420. -/
def r_SEC_WIPE_COUNT : Nat := 0x62
def f_SEC_WIPE_COUNT_TAMPERS : Fld := ⟨0x62, 31, 16⟩
def f_SEC_WIPE_COUNT_WIPES : Fld := ⟨0x62, 15, 0⟩
/-- SEC_FW, 16 R420. -/
def r_SEC_FW : Nat := 0x64
def f_SEC_FW_SVN_OTHER : Fld := ⟨0x64, 23, 16⟩
def f_SEC_FW_SVN : Fld := ⟨0x64, 15, 8⟩
def f_SEC_FW_PENDING : Fld := ⟨0x64, 2, 2⟩
def f_SEC_FW_FALLBACK : Fld := ⟨0x64, 1, 1⟩
def f_SEC_FW_ACTIVE : Fld := ⟨0x64, 0, 0⟩
/-- SEC_ARB_SEL, 16 R420. -/
def r_SEC_ARB_SEL : Nat := 0x65
def f_SEC_ARB_SEL_COUNTER : Fld := ⟨0x65, 4, 0⟩
/-- SEC_ARB_VALUE, 16 R420. -/
def r_SEC_ARB_VALUE : Nat := 0x66
def f_SEC_ARB_VALUE_VALUE : Fld := ⟨0x66, 7, 0⟩
/-- SEC_ARB_CMD, 16 R420. -/
def r_SEC_ARB_CMD : Nat := 0x67
def f_SEC_ARB_CMD_KEY : Fld := ⟨0x67, 31, 16⟩
def f_SEC_ARB_CMD_VALUE : Fld := ⟨0x67, 7, 0⟩
/-- SEC_KEY_CMD, 16 R420. -/
def r_SEC_KEY_CMD : Nat := 0x68
def f_SEC_KEY_CMD_SLOT : Fld := ⟨0x68, 13, 8⟩
def f_SEC_KEY_CMD_OP : Fld := ⟨0x68, 2, 0⟩
/-- SEC_KEY_ARG_LO, 16 R420. -/
def r_SEC_KEY_ARG_LO : Nat := 0x69
def f_SEC_KEY_ARG_LO_DVA : Fld := ⟨0x69, 31, 6⟩
/-- SEC_KEY_ARG_HI, 16 R420. -/
def r_SEC_KEY_ARG_HI : Nat := 0x6a
def f_SEC_KEY_ARG_HI_DVA : Fld := ⟨0x6a, 15, 0⟩
/-- SEC_KEY_RESULT, 16 R420. -/
def r_SEC_KEY_RESULT : Nat := 0x6b
def f_SEC_KEY_RESULT_RESULT : Fld := ⟨0x6b, 15, 8⟩
def f_SEC_KEY_RESULT_PAIR_KEY : Fld := ⟨0x6b, 1, 1⟩
def f_SEC_KEY_RESULT_BUSY : Fld := ⟨0x6b, 0, 0⟩
/-- SEC_CNT_WEIGHT_AUTH, 16 R420. -/
def r_SEC_CNT_WEIGHT_AUTH : Nat := 0x6c
def f_SEC_CNT_WEIGHT_AUTH : Fld := ⟨0x6c, 31, 0⟩
/-- SEC_WR_SEL, 16 R420. -/
def r_SEC_WR_SEL : Nat := 0x70
def f_SEC_WR_SEL_REGION : Fld := ⟨0x70, 3, 0⟩
/-- SEC_WR_SRC, 16 R420. -/
def r_SEC_WR_SRC : Nat := 0x71
def f_SEC_WR_SRC : Fld := ⟨0x71, 31, 0⟩
/-- SEC_WR_CFG, 16 R420. -/
def r_SEC_WR_CFG : Nat := 0x72
def f_SEC_WR_CFG_ADVANCE : Fld := ⟨0x72, 16, 16⟩
def f_SEC_WR_CFG_TENANT : Fld := ⟨0x72, 13, 8⟩
def f_SEC_WR_CFG_PARTITION : Fld := ⟨0x72, 3, 0⟩
/-- SEC_WR_FRAME, 16 R420. -/
def r_SEC_WR_FRAME : Nat := 0x73
def f_SEC_WR_FRAME_FRAME : Fld := ⟨0x73, 17, 0⟩
/-- SEC_WR_CMD, 16 R420. -/
def r_SEC_WR_CMD : Nat := 0x74
def f_SEC_WR_CMD_OP : Fld := ⟨0x74, 1, 0⟩
/-- SEC_WR_STATUS, 16 R420. -/
def r_SEC_WR_STATUS : Nat := 0x75
def f_SEC_WR_STATUS_PERCENT : Fld := ⟨0x75, 23, 16⟩
def f_SEC_WR_STATUS_RESULT : Fld := ⟨0x75, 15, 8⟩
def f_SEC_WR_STATUS_BUSY : Fld := ⟨0x75, 3, 3⟩
def f_SEC_WR_STATUS_STATE : Fld := ⟨0x75, 2, 0⟩
/-- SEC_WR_FRAMES, 16 R420. -/
def r_SEC_WR_FRAMES : Nat := 0x76
def f_SEC_WR_FRAMES_FRAMES : Fld := ⟨0x76, 17, 0⟩
/-- SEC_WR_IMAGE_LO, 16 R420. -/
def r_SEC_WR_IMAGE_LO : Nat := 0x77
def f_SEC_WR_IMAGE_LO : Fld := ⟨0x77, 31, 0⟩
/-- SEC_WR_IMAGE_HI, 16 R420. -/
def r_SEC_WR_IMAGE_HI : Nat := 0x78
def f_SEC_WR_IMAGE_HI : Fld := ⟨0x78, 31, 0⟩
/-- SEC_WR_VERSION, 16 R420. -/
def r_SEC_WR_VERSION : Nat := 0x79
def f_SEC_WR_VERSION_COUNTER : Fld := ⟨0x79, 12, 8⟩
def f_SEC_WR_VERSION_IMG_VERSION : Fld := ⟨0x79, 7, 0⟩
/-- SEC_WR_BLOCKS, 16 R420. -/
def r_SEC_WR_BLOCKS : Nat := 0x7a
def f_SEC_WR_BLOCKS : Fld := ⟨0x7a, 31, 0⟩
/-- MMU_SEL, 13 R341. -/
def r_MMU_SEL : Nat := 0x40
def f_MMU_SEL_TENANT : Fld := ⟨0x40, 5, 0⟩
/-- MMU_DVA_LO, 13 R341. -/
def r_MMU_DVA_LO : Nat := 0x41
def f_MMU_DVA_LO_DVA : Fld := ⟨0x41, 31, 16⟩
/-- MMU_DVA_HI, 13 R341. -/
def r_MMU_DVA_HI : Nat := 0x42
def f_MMU_DVA_HI_DVA : Fld := ⟨0x42, 15, 0⟩
/-- MMU_TARGET_LO, 13 R341. -/
def r_MMU_TARGET_LO : Nat := 0x43
def f_MMU_TARGET_LO_TARGET : Fld := ⟨0x43, 31, 16⟩
/-- MMU_TARGET_HI, 13 R341. -/
def r_MMU_TARGET_HI : Nat := 0x44
def f_MMU_TARGET_HI : Fld := ⟨0x44, 31, 0⟩
/-- MMU_COUNT, 13 R341. -/
def r_MMU_COUNT : Nat := 0x45
def f_MMU_COUNT_PAGES : Fld := ⟨0x45, 22, 0⟩
/-- MMU_ATTR, 13 R341. -/
def r_MMU_ATTR : Nat := 0x46
def f_MMU_ATTR_WRITE : Fld := ⟨0x46, 5, 5⟩
def f_MMU_ATTR_READ : Fld := ⟨0x46, 4, 4⟩
def f_MMU_ATTR_TARGET : Fld := ⟨0x46, 2, 1⟩
def f_MMU_ATTR_SIZE : Fld := ⟨0x46, 0, 0⟩
/-- MMU_CMD, 13 R341. -/
def r_MMU_CMD : Nat := 0x47
def f_MMU_CMD_CMD : Fld := ⟨0x47, 2, 0⟩
/-- MMU_RESULT, 13 R341. -/
def r_MMU_RESULT : Nat := 0x48
def f_MMU_RESULT_CODE : Fld := ⟨0x48, 11, 4⟩
def f_MMU_RESULT_BUSY : Fld := ⟨0x48, 0, 0⟩
/-- MMU_ENTRIES, 13 R341. -/
def r_MMU_ENTRIES : Nat := 0x49
def f_MMU_ENTRIES_COUNT : Fld := ⟨0x49, 22, 0⟩
/-- MMU_WINDOW, 13 R341. -/
def r_MMU_WINDOW : Nat := 0x4a
def f_MMU_WINDOW_VALID : Fld := ⟨0x4a, 31, 31⟩
def f_MMU_WINDOW_BASE : Fld := ⟨0x4a, 17, 0⟩
/-- MMU_CNT_FAULTS, 13 R341. -/
def r_MMU_CNT_FAULTS : Nat := 0x4b
def f_MMU_CNT_FAULTS : Fld := ⟨0x4b, 31, 0⟩
/-- SYN_ALLOC, 05 R130. -/
def r_SYN_ALLOC (t : Nat) : Nat := 0x40 + 1 * t
def f_SYN_ALLOC_COUNT (t : Nat) : Fld := ⟨0x40 + 1 * t, 28, 16⟩
def f_SYN_ALLOC_BASE (t : Nat) : Fld := ⟨0x40 + 1 * t, 11, 0⟩
/-- SYN_SEL, 05 R130. -/
def r_SYN_SEL : Nat := 0x64
def f_SYN_SEL_COUNTER : Fld := ⟨0x64, 17, 0⟩
/-- SYN_VALUE_LO, 05 R130. -/
def r_SYN_VALUE_LO : Nat := 0x65
def f_SYN_VALUE_LO : Fld := ⟨0x65, 31, 0⟩
/-- SYN_VALUE_HI, 05 R130. -/
def r_SYN_VALUE_HI : Nat := 0x66
def f_SYN_VALUE_HI : Fld := ⟨0x66, 31, 0⟩
/-- SYN_ADD_LO, 05 R130. -/
def r_SYN_ADD_LO : Nat := 0x68
def f_SYN_ADD_LO : Fld := ⟨0x68, 31, 0⟩
/-- SYN_ADD_HI, 05 R130. -/
def r_SYN_ADD_HI : Nat := 0x69
def f_SYN_ADD_HI : Fld := ⟨0x69, 31, 0⟩
/-- SYN_INFO, 05 R130. -/
def r_SYN_INFO : Nat := 0x6a
def f_SYN_INFO_POISONED : Fld := ⟨0x6a, 31, 31⟩
def f_SYN_INFO_WAITERS : Fld := ⟨0x6a, 30, 16⟩
def f_SYN_INFO_OWNER : Fld := ⟨0x6a, 5, 0⟩
/-- STU_MARCH_CTRL, 12 R301. -/
def r_STU_MARCH_CTRL : Nat := 0x60
def f_STU_MARCH_CTRL_RAW_CHECK : Fld := ⟨0x60, 9, 9⟩
def f_STU_MARCH_CTRL_RETIRE : Fld := ⟨0x60, 8, 8⟩
def f_STU_MARCH_CTRL_BACKGROUNDS : Fld := ⟨0x60, 5, 4⟩
def f_STU_MARCH_CTRL_MODE : Fld := ⟨0x60, 0, 0⟩
/-- STU_MARCH_BASE, 12 R301. -/
def r_STU_MARCH_BASE : Nat := 0x61
def f_STU_MARCH_BASE_BASE : Fld := ⟨0x61, 17, 0⟩
/-- STU_MARCH_SIZE, 12 R301. -/
def r_STU_MARCH_SIZE : Nat := 0x62
def f_STU_MARCH_SIZE_FRAMES : Fld := ⟨0x62, 17, 0⟩
/-- STU_MARCH_CMD, 12 R301. -/
def r_STU_MARCH_CMD : Nat := 0x63
def f_STU_MARCH_CMD_KEY : Fld := ⟨0x63, 31, 16⟩
def f_STU_MARCH_CMD_START : Fld := ⟨0x63, 0, 0⟩
/-- STU_MARCH_STATUS, 12 R301. -/
def r_STU_MARCH_STATUS : Nat := 0x64
def f_STU_MARCH_STATUS_FAILS : Fld := ⟨0x64, 31, 16⟩
def f_STU_MARCH_STATUS_PROGRESS : Fld := ⟨0x64, 15, 8⟩
def f_STU_MARCH_STATUS_REFUSED : Fld := ⟨0x64, 2, 2⟩
def f_STU_MARCH_STATUS_FAILED : Fld := ⟨0x64, 1, 1⟩
def f_STU_MARCH_STATUS_BUSY : Fld := ⟨0x64, 0, 0⟩
/-- STU_MARCH_FAIL_LO, 12 R301. -/
def r_STU_MARCH_FAIL_LO : Nat := 0x65
def f_STU_MARCH_FAIL_LO : Fld := ⟨0x65, 31, 0⟩
/-- STU_MARCH_FAIL_HI, 12 R301. -/
def r_STU_MARCH_FAIL_HI : Nat := 0x66
def f_STU_MARCH_FAIL_HI_ADDR : Fld := ⟨0x66, 8, 0⟩
/-- STU_BANK, 12 R307. -/
def r_STU_BANK (n : Nat) : Nat := 0x40 + 1 * n
def f_STU_BANK_STATE (n : Nat) : Fld := ⟨0x40 + 1 * n, 27, 26⟩
def f_STU_BANK_GUEST (n : Nat) : Fld := ⟨0x40 + 1 * n, 18, 16⟩
def f_STU_BANK_OWNER (n : Nat) : Fld := ⟨0x40 + 1 * n, 5, 0⟩
/-- STU_SCRUB, 12 R307. -/
def r_STU_SCRUB : Nat := 0x68
def f_STU_SCRUB_MS : Fld := ⟨0x68, 15, 0⟩
/-- STU_CNT_PATROL_UE, 12 R307. -/
def r_STU_CNT_PATROL_UE : Nat := 0x69
def f_STU_CNT_PATROL_UE : Fld := ⟨0x69, 31, 0⟩
/-- STU_SCRUB_PASS, 12 R307. -/
def r_STU_SCRUB_PASS : Nat := 0x6a
def f_STU_SCRUB_PASS : Fld := ⟨0x6a, 31, 0⟩
/-- HBM_MARCH_CTRL, 12 R301. -/
def r_HBM_MARCH_CTRL : Nat := 0x60
def f_HBM_MARCH_CTRL_RAW_CHECK : Fld := ⟨0x60, 9, 9⟩
def f_HBM_MARCH_CTRL_RETIRE : Fld := ⟨0x60, 8, 8⟩
def f_HBM_MARCH_CTRL_BACKGROUNDS : Fld := ⟨0x60, 5, 4⟩
def f_HBM_MARCH_CTRL_MODE : Fld := ⟨0x60, 0, 0⟩
/-- HBM_MARCH_BASE, 12 R301. -/
def r_HBM_MARCH_BASE : Nat := 0x61
def f_HBM_MARCH_BASE_BASE : Fld := ⟨0x61, 17, 0⟩
/-- HBM_MARCH_SIZE, 12 R301. -/
def r_HBM_MARCH_SIZE : Nat := 0x62
def f_HBM_MARCH_SIZE_FRAMES : Fld := ⟨0x62, 17, 0⟩
/-- HBM_MARCH_CMD, 12 R301. -/
def r_HBM_MARCH_CMD : Nat := 0x63
def f_HBM_MARCH_CMD_KEY : Fld := ⟨0x63, 31, 16⟩
def f_HBM_MARCH_CMD_START : Fld := ⟨0x63, 0, 0⟩
/-- HBM_MARCH_STATUS, 12 R301. -/
def r_HBM_MARCH_STATUS : Nat := 0x64
def f_HBM_MARCH_STATUS_FAILS : Fld := ⟨0x64, 31, 16⟩
def f_HBM_MARCH_STATUS_PROGRESS : Fld := ⟨0x64, 15, 8⟩
def f_HBM_MARCH_STATUS_REFUSED : Fld := ⟨0x64, 2, 2⟩
def f_HBM_MARCH_STATUS_FAILED : Fld := ⟨0x64, 1, 1⟩
def f_HBM_MARCH_STATUS_BUSY : Fld := ⟨0x64, 0, 0⟩
/-- HBM_MARCH_FAIL_LO, 12 R301. -/
def r_HBM_MARCH_FAIL_LO : Nat := 0x65
def f_HBM_MARCH_FAIL_LO : Fld := ⟨0x65, 31, 0⟩
/-- HBM_MARCH_FAIL_HI, 12 R301. -/
def r_HBM_MARCH_FAIL_HI : Nat := 0x66
def f_HBM_MARCH_FAIL_HI_ADDR : Fld := ⟨0x66, 8, 0⟩
/-- HBM_RSV_BASE, 12 R308. -/
def r_HBM_RSV_BASE : Nat := 0x40
def f_HBM_RSV_BASE_BASE : Fld := ⟨0x40, 17, 0⟩
/-- HBM_RSV_SIZE, 12 R308. -/
def r_HBM_RSV_SIZE : Nat := 0x41
def f_HBM_RSV_SIZE_FRAMES : Fld := ⟨0x41, 14, 0⟩
/-- HBM_SCRUB, 12 R308. -/
def r_HBM_SCRUB : Nat := 0x42
def f_HBM_SCRUB_HOURS : Fld := ⟨0x42, 15, 0⟩
/-- HBM_RETIRE, 12 R308. -/
def r_HBM_RETIRE : Nat := 0x43
def f_HBM_RETIRE_AUTO : Fld := ⟨0x43, 8, 8⟩
def f_HBM_RETIRE_CE_LIMIT : Fld := ⟨0x43, 7, 0⟩
/-- HBM_CLEAR, 12 R308. -/
def r_HBM_CLEAR : Nat := 0x44
def f_HBM_CLEAR_DONE : Fld := ⟨0x44, 31, 31⟩
def f_HBM_CLEAR_PERCENT : Fld := ⟨0x44, 6, 0⟩
/-- HBM_STACK_SEL, 12 R308. -/
def r_HBM_STACK_SEL : Nat := 0x45
def f_HBM_STACK_SEL_STACK : Fld := ⟨0x45, 2, 0⟩
/-- HBM_STACK_RESERVE, 12 R308. -/
def r_HBM_STACK_RESERVE : Nat := 0x46
def f_HBM_STACK_RESERVE_FREE : Fld := ⟨0x46, 17, 0⟩
/-- HBM_STACK_REPAIR, 12 R308. -/
def r_HBM_STACK_REPAIR : Nat := 0x47
def f_HBM_STACK_REPAIR_PPR_DONE : Fld := ⟨0x47, 31, 16⟩
def f_HBM_STACK_REPAIR_PPR_FREE : Fld := ⟨0x47, 15, 0⟩
/-- HBM_FRAME_SEL, 12 R308. -/
def r_HBM_FRAME_SEL : Nat := 0x48
def f_HBM_FRAME_SEL_FRAME : Fld := ⟨0x48, 17, 0⟩
/-- HBM_FRAME, 12 R308. -/
def r_HBM_FRAME : Nat := 0x49
def f_HBM_FRAME_TENANT : Fld := ⟨0x49, 9, 4⟩
def f_HBM_FRAME_KIND : Fld := ⟨0x49, 3, 0⟩
/-- HBM_CNT_PATROL_UE, 12 R308. -/
def r_HBM_CNT_PATROL_UE : Nat := 0x4a
def f_HBM_CNT_PATROL_UE : Fld := ⟨0x4a, 31, 0⟩
/-- HBM_CNT_RETIRED, 12 R308. -/
def r_HBM_CNT_RETIRED : Nat := 0x4b
def f_HBM_CNT_RETIRED : Fld := ⟨0x4b, 31, 0⟩
/-- HBM_CNT_WEIGHT_REPAIR, 12 R308. -/
def r_HBM_CNT_WEIGHT_REPAIR : Nat := 0x4c
def f_HBM_CNT_WEIGHT_REPAIR : Fld := ⟨0x4c, 31, 0⟩
/-- HBM_SCRUB_PASS, 12 R308. -/
def r_HBM_SCRUB_PASS : Nat := 0x4d
def f_HBM_SCRUB_PASS : Fld := ⟨0x4d, 31, 0⟩
/-- LFT_MARCH_CTRL, 12 R301. -/
def r_LFT_MARCH_CTRL : Nat := 0x60
def f_LFT_MARCH_CTRL_RAW_CHECK : Fld := ⟨0x60, 9, 9⟩
def f_LFT_MARCH_CTRL_RETIRE : Fld := ⟨0x60, 8, 8⟩
def f_LFT_MARCH_CTRL_BACKGROUNDS : Fld := ⟨0x60, 5, 4⟩
def f_LFT_MARCH_CTRL_MODE : Fld := ⟨0x60, 0, 0⟩
/-- LFT_MARCH_BASE, 12 R301. -/
def r_LFT_MARCH_BASE : Nat := 0x61
def f_LFT_MARCH_BASE_BASE : Fld := ⟨0x61, 17, 0⟩
/-- LFT_MARCH_SIZE, 12 R301. -/
def r_LFT_MARCH_SIZE : Nat := 0x62
def f_LFT_MARCH_SIZE_FRAMES : Fld := ⟨0x62, 17, 0⟩
/-- LFT_MARCH_CMD, 12 R301. -/
def r_LFT_MARCH_CMD : Nat := 0x63
def f_LFT_MARCH_CMD_KEY : Fld := ⟨0x63, 31, 16⟩
def f_LFT_MARCH_CMD_START : Fld := ⟨0x63, 0, 0⟩
/-- LFT_MARCH_STATUS, 12 R301. -/
def r_LFT_MARCH_STATUS : Nat := 0x64
def f_LFT_MARCH_STATUS_FAILS : Fld := ⟨0x64, 31, 16⟩
def f_LFT_MARCH_STATUS_PROGRESS : Fld := ⟨0x64, 15, 8⟩
def f_LFT_MARCH_STATUS_REFUSED : Fld := ⟨0x64, 2, 2⟩
def f_LFT_MARCH_STATUS_FAILED : Fld := ⟨0x64, 1, 1⟩
def f_LFT_MARCH_STATUS_BUSY : Fld := ⟨0x64, 0, 0⟩
/-- LFT_MARCH_FAIL_LO, 12 R301. -/
def r_LFT_MARCH_FAIL_LO : Nat := 0x65
def f_LFT_MARCH_FAIL_LO : Fld := ⟨0x65, 31, 0⟩
/-- LFT_MARCH_FAIL_HI, 12 R301. -/
def r_LFT_MARCH_FAIL_HI : Nat := 0x66
def f_LFT_MARCH_FAIL_HI_ADDR : Fld := ⟨0x66, 8, 0⟩
/-- LFT_SCRUB, 12 R309. -/
def r_LFT_SCRUB : Nat := 0x40
def f_LFT_SCRUB_HOURS : Fld := ⟨0x40, 15, 0⟩
/-- LFT_RETIRE, 12 R309. -/
def r_LFT_RETIRE : Nat := 0x41
def f_LFT_RETIRE_AUTO : Fld := ⟨0x41, 8, 8⟩
def f_LFT_RETIRE_CE_LIMIT : Fld := ⟨0x41, 7, 0⟩
/-- LFT_CLEAR, 12 R309. -/
def r_LFT_CLEAR : Nat := 0x42
def f_LFT_CLEAR_DONE : Fld := ⟨0x42, 31, 31⟩
def f_LFT_CLEAR_PERCENT : Fld := ⟨0x42, 6, 0⟩
/-- LFT_PKG_SEL, 12 R309. -/
def r_LFT_PKG_SEL : Nat := 0x43
def f_LFT_PKG_SEL_PACKAGE : Fld := ⟨0x43, 3, 0⟩
/-- LFT_PKG_RESERVE, 12 R309. -/
def r_LFT_PKG_RESERVE : Nat := 0x44
def f_LFT_PKG_RESERVE_FREE : Fld := ⟨0x44, 17, 0⟩
/-- LFT_FRAME_SEL, 12 R309. -/
def r_LFT_FRAME_SEL : Nat := 0x45
def f_LFT_FRAME_SEL_FRAME : Fld := ⟨0x45, 17, 0⟩
/-- LFT_FRAME, 12 R309. -/
def r_LFT_FRAME : Nat := 0x46
def f_LFT_FRAME_TENANT : Fld := ⟨0x46, 9, 4⟩
def f_LFT_FRAME_KIND : Fld := ⟨0x46, 3, 0⟩
/-- LFT_CNT_PATROL_UE, 12 R309. -/
def r_LFT_CNT_PATROL_UE : Nat := 0x47
def f_LFT_CNT_PATROL_UE : Fld := ⟨0x47, 31, 0⟩
/-- LFT_CNT_RETIRED, 12 R309. -/
def r_LFT_CNT_RETIRED : Nat := 0x48
def f_LFT_CNT_RETIRED : Fld := ⟨0x48, 31, 0⟩
/-- LFT_SCRUB_PASS, 12 R309. -/
def r_LFT_SCRUB_PASS : Nat := 0x49
def f_LFT_SCRUB_PASS : Fld := ⟨0x49, 31, 0⟩
/-- LFT_CNT_LINK_CE, 12 R309. -/
def r_LFT_CNT_LINK_CE : Nat := 0x4a
def f_LFT_CNT_LINK_CE : Fld := ⟨0x4a, 31, 0⟩
/-- FRS_PART, 12 R310. -/
def r_FRS_PART (p : Nat) : Nat := 0x40 + 1 * p
def f_FRS_PART_VALID (p : Nat) : Fld := ⟨0x40 + 1 * p, 31, 31⟩
def f_FRS_PART_KIND (p : Nat) : Fld := ⟨0x40 + 1 * p, 30, 28⟩
def f_FRS_PART_MIB (p : Nat) : Fld := ⟨0x40 + 1 * p, 22, 0⟩
/-- FRS_RING_BASE_LO, 12 R310. -/
def r_FRS_RING_BASE_LO : Nat := 0x50
def f_FRS_RING_BASE_LO : Fld := ⟨0x50, 31, 0⟩
/-- FRS_RING_BASE_HI, 12 R310. -/
def r_FRS_RING_BASE_HI : Nat := 0x51
def f_FRS_RING_BASE_HI_BASE : Fld := ⟨0x51, 15, 0⟩
/-- FRS_RING_CFG, 12 R310. -/
def r_FRS_RING_CFG : Nat := 0x52
def f_FRS_RING_CFG_LOG2 : Fld := ⟨0x52, 3, 0⟩
/-- FRS_RING_TAIL, 12 R310. -/
def r_FRS_RING_TAIL : Nat := 0x53
def f_FRS_RING_TAIL_TAIL : Fld := ⟨0x53, 15, 0⟩
/-- FRS_RING_HEAD, 12 R310. -/
def r_FRS_RING_HEAD : Nat := 0x54
def f_FRS_RING_HEAD_HEAD : Fld := ⟨0x54, 15, 0⟩
/-- FRS_STATUS, 12 R310. -/
def r_FRS_STATUS : Nat := 0x55
def f_FRS_STATUS_WORN : Fld := ⟨0x55, 9, 9⟩
def f_FRS_STATUS_SPARES_LOW : Fld := ⟨0x55, 8, 8⟩
def f_FRS_STATUS_LIFE_USED : Fld := ⟨0x55, 7, 0⟩
/-- FRS_SPARE_BLOCKS, 12 R310. -/
def r_FRS_SPARE_BLOCKS : Nat := 0x56
def f_FRS_SPARE_BLOCKS : Fld := ⟨0x56, 31, 0⟩
/-- FRS_CNT_MEDIA_UE, 12 R310. -/
def r_FRS_CNT_MEDIA_UE : Nat := 0x57
def f_FRS_CNT_MEDIA_UE : Fld := ⟨0x57, 31, 0⟩
/-- FRS_CNT_READ_RETRY, 12 R310. -/
def r_FRS_CNT_READ_RETRY : Nat := 0x58
def f_FRS_CNT_READ_RETRY : Fld := ⟨0x58, 31, 0⟩
/-- FRS_WRITTEN_GIB, 12 R310. -/
def r_FRS_WRITTEN_GIB : Nat := 0x59
def f_FRS_WRITTEN_GIB : Fld := ⟨0x59, 31, 0⟩
/-- GLZ_META_BASE, 10 R248. -/
def r_GLZ_META_BASE : Nat := 0x40
def f_GLZ_META_BASE_BASE : Fld := ⟨0x40, 17, 0⟩
/-- GLZ_LEAVES, 10 R248. -/
def r_GLZ_LEAVES : Nat := 0x41
def f_GLZ_LEAVES_UNITS : Fld := ⟨0x41, 11, 0⟩
/-- GLZ_SEL, 10 R248. -/
def r_GLZ_SEL : Nat := 0x42
def f_GLZ_SEL_GEOMETRY : Fld := ⟨0x42, 2, 0⟩
/-- GLZ_GEO_SHAPE, 10 R248. -/
def r_GLZ_GEO_SHAPE (g : Nat) : Nat := 0x80 + 16 * g
def f_GLZ_GEO_SHAPE_VALID (g : Nat) : Fld := ⟨0x80 + 16 * g, 31, 31⟩
def f_GLZ_GEO_SHAPE_FORMAT (g : Nat) : Fld := ⟨0x80 + 16 * g, 30, 30⟩
def f_GLZ_GEO_SHAPE_DIM32 (g : Nat) : Fld := ⟨0x80 + 16 * g, 24, 20⟩
def f_GLZ_GEO_SHAPE_KV_HEADS (g : Nat) : Fld := ⟨0x80 + 16 * g, 19, 13⟩
def f_GLZ_GEO_SHAPE_LAYERS (g : Nat) : Fld := ⟨0x80 + 16 * g, 8, 0⟩
/-- GLZ_GEO_EVICT, 10 R248. -/
def r_GLZ_GEO_EVICT (g : Nat) : Nat := 0x81 + 16 * g
def f_GLZ_GEO_EVICT_KEEP (g : Nat) : Fld := ⟨0x81 + 16 * g, 15, 0⟩
/-- GLZ_GEO_DECAY, 10 R248. -/
def r_GLZ_GEO_DECAY (g : Nat) : Nat := 0x82 + 16 * g
def f_GLZ_GEO_DECAY (g : Nat) : Fld := ⟨0x82 + 16 * g, 31, 0⟩
/-- GLZ_GEO_SET_BYTES, 10 R248. -/
def r_GLZ_GEO_SET_BYTES (g : Nat) : Nat := 0x83 + 16 * g
def f_GLZ_GEO_SET_BYTES (g : Nat) : Fld := ⟨0x83 + 16 * g, 31, 0⟩
/-- GLZ_GEO_HBM_FIRST, 10 R248. -/
def r_GLZ_GEO_HBM_FIRST (g : Nat) : Nat := 0x84 + 16 * g
def f_GLZ_GEO_HBM_FIRST_FIRST (g : Nat) : Fld := ⟨0x84 + 16 * g, 23, 0⟩
/-- GLZ_GEO_HBM_COUNT, 10 R248. -/
def r_GLZ_GEO_HBM_COUNT (g : Nat) : Nat := 0x85 + 16 * g
def f_GLZ_GEO_HBM_COUNT_COUNT (g : Nat) : Fld := ⟨0x85 + 16 * g, 23, 0⟩
/-- GLZ_GEO_HBM_BASE, 10 R248. -/
def r_GLZ_GEO_HBM_BASE (g : Nat) : Nat := 0x86 + 16 * g
def f_GLZ_GEO_HBM_BASE_BASE (g : Nat) : Fld := ⟨0x86 + 16 * g, 17, 0⟩
/-- GLZ_GEO_LOFT_FIRST, 10 R248. -/
def r_GLZ_GEO_LOFT_FIRST (g : Nat) : Nat := 0x88 + 16 * g
def f_GLZ_GEO_LOFT_FIRST_FIRST (g : Nat) : Fld := ⟨0x88 + 16 * g, 23, 0⟩
/-- GLZ_GEO_LOFT_COUNT, 10 R248. -/
def r_GLZ_GEO_LOFT_COUNT (g : Nat) : Nat := 0x89 + 16 * g
def f_GLZ_GEO_LOFT_COUNT_COUNT (g : Nat) : Fld := ⟨0x89 + 16 * g, 23, 0⟩
/-- GLZ_GEO_LOFT_BASE, 10 R248. -/
def r_GLZ_GEO_LOFT_BASE (g : Nat) : Nat := 0x8a + 16 * g
def f_GLZ_GEO_LOFT_BASE_BASE (g : Nat) : Fld := ⟨0x8a + 16 * g, 17, 0⟩
/-- GLZ_QUOTA_HBM, 10 R248. -/
def r_GLZ_QUOTA_HBM (t : Nat) : Nat := 0x100 + 2 * t
def f_GLZ_QUOTA_HBM_SETS (t : Nat) : Fld := ⟨0x100 + 2 * t, 23, 0⟩
/-- GLZ_QUOTA_LOFT, 10 R248. -/
def r_GLZ_QUOTA_LOFT (t : Nat) : Nat := 0x101 + 2 * t
def f_GLZ_QUOTA_LOFT_SETS (t : Nat) : Fld := ⟨0x101 + 2 * t, 23, 0⟩
/-- GLZ_SETS_FREE, 10 R248. -/
def r_GLZ_SETS_FREE : Nat := 0x180
def f_GLZ_SETS_FREE_HBM : Fld := ⟨0x180, 23, 0⟩
/-- GLZ_LOFT_FREE, 10 R248. -/
def r_GLZ_LOFT_FREE : Nat := 0x181
def f_GLZ_LOFT_FREE_LOFT : Fld := ⟨0x181, 23, 0⟩
/-- GLZ_EVICTIONS, 10 R248. -/
def r_GLZ_EVICTIONS : Nat := 0x182
def f_GLZ_EVICTIONS : Fld := ⟨0x182, 31, 0⟩
/-- GLZ_EXPIRIES, 10 R248. -/
def r_GLZ_EXPIRIES : Nat := 0x183
def f_GLZ_EXPIRIES : Fld := ⟨0x183, 31, 0⟩
/-- GLZ_POISONED, 10 R248. -/
def r_GLZ_POISONED : Nat := 0x184
def f_GLZ_POISONED : Fld := ⟨0x184, 31, 0⟩
/-- GLZ_NONFINITE, 10 R248. -/
def r_GLZ_NONFINITE : Nat := 0x185
def f_GLZ_NONFINITE : Fld := ⟨0x185, 31, 0⟩
/-- GLZ_MOVES, 10 R248. -/
def r_GLZ_MOVES : Nat := 0x186
def f_GLZ_MOVES_ACTIVE : Fld := ⟨0x186, 7, 0⟩
/-- SMP_SERVE, 09 R225. -/
def r_SMP_SERVE (t : Nat) : Nat := 0x40 + 1 * t
def f_SMP_SERVE_TAGS (t : Nat) : Fld := ⟨0x40 + 1 * t, 31, 25⟩
def f_SMP_SERVE_TOKENS (t : Nat) : Fld := ⟨0x40 + 1 * t, 24, 13⟩
def f_SMP_SERVE_SEQS (t : Nat) : Fld := ⟨0x40 + 1 * t, 12, 0⟩
/-- SMP_DOM_SEL, 09 R225. -/
def r_SMP_DOM_SEL : Nat := 0x64
def f_SMP_DOM_SEL_DOMAIN : Fld := ⟨0x64, 7, 0⟩
/-- SMP_DOM_CTRL, 09 R225. -/
def r_SMP_DOM_CTRL : Nat := 0x65
def f_SMP_DOM_CTRL_EPOCH : Fld := ⟨0x65, 15, 8⟩
def f_SMP_DOM_CTRL_GEN_KEY : Fld := ⟨0x65, 1, 1⟩
def f_SMP_DOM_CTRL_VALID : Fld := ⟨0x65, 0, 0⟩
/-- SMP_DOM_MEMBERS_LO, 09 R225. -/
def r_SMP_DOM_MEMBERS_LO : Nat := 0x66
def f_SMP_DOM_MEMBERS_LO : Fld := ⟨0x66, 31, 0⟩
/-- SMP_DOM_MEMBERS_HI, 09 R225. -/
def r_SMP_DOM_MEMBERS_HI : Nat := 0x67
def f_SMP_DOM_MEMBERS_HI_MEMBERS : Fld := ⟨0x67, 0, 0⟩
/-- SMP_DOM_KEY, 09 R225. -/
def r_SMP_DOM_KEY (w : Nat) : Nat := 0x68 + 1 * w
def f_SMP_DOM_KEY (w : Nat) : Fld := ⟨0x68 + 1 * w, 31, 0⟩
/-- SMP_DECISIONS_LO, 09 R225. -/
def r_SMP_DECISIONS_LO : Nat := 0x6c
def f_SMP_DECISIONS_LO : Fld := ⟨0x6c, 31, 0⟩
/-- SMP_DECISIONS_HI, 09 R225. -/
def r_SMP_DECISIONS_HI : Nat := 0x6d
def f_SMP_DECISIONS_HI : Fld := ⟨0x6d, 31, 0⟩
/-- SMP_ROWS_DROPPED, 09 R225. -/
def r_SMP_ROWS_DROPPED : Nat := 0x6e
def f_SMP_ROWS_DROPPED : Fld := ⟨0x6e, 31, 0⟩
/-- SMP_SEQ_OPEN, 09 R225. -/
def r_SMP_SEQ_OPEN : Nat := 0x6f
def f_SMP_SEQ_OPEN_COUNT : Fld := ⟨0x6f, 16, 0⟩
/-- SMP_PREFIX_LOOKUPS, 09 R225. -/
def r_SMP_PREFIX_LOOKUPS : Nat := 0x70
def f_SMP_PREFIX_LOOKUPS : Fld := ⟨0x70, 31, 0⟩
/-- SMP_PREFIX_HITS, 09 R225. -/
def r_SMP_PREFIX_HITS : Nat := 0x71
def f_SMP_PREFIX_HITS : Fld := ⟨0x71, 31, 0⟩
/-- VCE_QUOTA, 11 R280. -/
def r_VCE_QUOTA (t : Nat) : Nat := 0x40 + 1 * t
def f_VCE_QUOTA_CONTEXTS (t : Nat) : Fld := ⟨0x40 + 1 * t, 8, 0⟩
/-- VCE_PIPES, 11 R280. -/
def r_VCE_PIPES : Nat := 0x61
def f_VCE_PIPES_ENC_BUSY : Fld := ⟨0x61, 24, 24⟩
def f_VCE_PIPES_ENC_CTX : Fld := ⟨0x61, 23, 16⟩
def f_VCE_PIPES_DEC_BUSY : Fld := ⟨0x61, 8, 8⟩
def f_VCE_PIPES_DEC_CTX : Fld := ⟨0x61, 7, 0⟩
/-- VCE_DEC_LOAD, 11 R280. -/
def r_VCE_DEC_LOAD : Nat := 0x62
def f_VCE_DEC_LOAD_MPIX : Fld := ⟨0x62, 15, 0⟩
/-- VCE_ENC_LOAD, 11 R280. -/
def r_VCE_ENC_LOAD : Nat := 0x63
def f_VCE_ENC_LOAD_MPIX : Fld := ⟨0x63, 15, 0⟩
/-- VCE_OPEN, 11 R280. -/
def r_VCE_OPEN : Nat := 0x64
def f_VCE_OPEN_COUNT : Fld := ⟨0x64, 8, 0⟩
/-- VCE_CNT_CONCEALED, 11 R280. -/
def r_VCE_CNT_CONCEALED : Nat := 0x65
def f_VCE_CNT_CONCEALED : Fld := ⟨0x65, 31, 0⟩
/-- VCE_CNT_DROPPED, 11 R280. -/
def r_VCE_CNT_DROPPED : Nat := 0x66
def f_VCE_CNT_DROPPED : Fld := ⟨0x66, 31, 0⟩
/-- VCE_PDEST_DESC_LO, 11 R280. -/
def r_VCE_PDEST_DESC_LO (n : Nat) : Nat := 0x80 + 4 * n
def f_VCE_PDEST_DESC_LO (n : Nat) : Fld := ⟨0x80 + 4 * n, 31, 0⟩
/-- VCE_PDEST_DESC_HI, 11 R280. -/
def r_VCE_PDEST_DESC_HI (n : Nat) : Nat := 0x81 + 4 * n
def f_VCE_PDEST_DESC_HI (n : Nat) : Fld := ⟨0x81 + 4 * n, 31, 0⟩
/-- VCE_PDEST_TARGET, 11 R280. -/
def r_VCE_PDEST_TARGET (n : Nat) : Nat := 0x82 + 4 * n
def f_VCE_PDEST_TARGET_VALID (n : Nat) : Fld := ⟨0x82 + 4 * n, 31, 31⟩
def f_VCE_PDEST_TARGET_TENANT (n : Nat) : Fld := ⟨0x82 + 4 * n, 21, 16⟩
def f_VCE_PDEST_TARGET_REGION (n : Nat) : Fld := ⟨0x82 + 4 * n, 10, 8⟩
def f_VCE_PDEST_TARGET_PANEL (n : Nat) : Fld := ⟨0x82 + 4 * n, 6, 0⟩
/-- VCE_PDEST_COUNTER, 11 R280. -/
def r_VCE_PDEST_COUNTER (n : Nat) : Nat := 0x83 + 4 * n
def f_VCE_PDEST_COUNTER_COUNTER (n : Nat) : Fld := ⟨0x83 + 4 * n, 17, 0⟩
/-- VCE_PDEST_CMD, 11 R280. -/
def r_VCE_PDEST_CMD : Nat := 0xc0
def f_VCE_PDEST_CMD_COMMIT : Fld := ⟨0xc0, 8, 8⟩
def f_VCE_PDEST_CMD_SLOT : Fld := ⟨0xc0, 3, 0⟩
/-- VCE_PDEST_STATUS, 11 R280. -/
def r_VCE_PDEST_STATUS : Nat := 0xc1
def f_VCE_PDEST_STATUS_BOUND : Fld := ⟨0xc1, 31, 16⟩
def f_VCE_PDEST_STATUS_COMMITTED : Fld := ⟨0xc1, 15, 0⟩
/-- VCE_PDEST_RESULT, 11 R280. -/
def r_VCE_PDEST_RESULT : Nat := 0xc2
def f_VCE_PDEST_RESULT_WORD : Fld := ⟨0xc2, 25, 16⟩
def f_VCE_PDEST_RESULT_REASON : Fld := ⟨0xc2, 15, 8⟩
def f_VCE_PDEST_RESULT_SLOT : Fld := ⟨0xc2, 7, 4⟩
def f_VCE_PDEST_RESULT_REFUSED : Fld := ⟨0xc2, 1, 1⟩
def f_VCE_PDEST_RESULT_BUSY : Fld := ⟨0xc2, 0, 0⟩
/-- ING_PORT_CFG, 15 R393. -/
def r_ING_PORT_CFG (p : Nat) : Nat := 0x40 + 2 * p
def f_ING_PORT_CFG_AN (p : Nat) : Fld := ⟨0x40 + 2 * p, 2, 2⟩
def f_ING_PORT_CFG_MODE (p : Nat) : Fld := ⟨0x40 + 2 * p, 1, 0⟩
/-- ING_PORT_STATUS, 15 R393. -/
def r_ING_PORT_STATUS (p : Nat) : Nat := 0x41 + 2 * p
def f_ING_PORT_STATUS_UP (p : Nat) : Fld := ⟨0x41 + 2 * p, 1, 0⟩
/-- ING_PTP_CFG, 15 R393. -/
def r_ING_PTP_CFG : Nat := 0x44
def f_ING_PTP_CFG_ENABLE : Fld := ⟨0x44, 12, 12⟩
def f_ING_PTP_CFG_INTERFACE : Fld := ⟨0x44, 11, 10⟩
def f_ING_PTP_CFG_TRANSPORT : Fld := ⟨0x44, 8, 8⟩
def f_ING_PTP_CFG_DOMAIN : Fld := ⟨0x44, 7, 0⟩
/-- ING_PTP_STATUS, 15 R393. -/
def r_ING_PTP_STATUS : Nat := 0x45
def f_ING_PTP_STATUS_STATE : Fld := ⟨0x45, 1, 0⟩
/-- ING_IF_IPV4, 15 R393. -/
def r_ING_IF_IPV4 (i : Nat) : Nat := 0x50 + 2 * i
def f_ING_IF_IPV4 (i : Nat) : Fld := ⟨0x50 + 2 * i, 31, 0⟩
/-- ING_IF_CNT_DROP, 15 R393. -/
def r_ING_IF_CNT_DROP (i : Nat) : Nat := 0x51 + 2 * i
def f_ING_IF_CNT_DROP (i : Nat) : Fld := ⟨0x51 + 2 * i, 31, 0⟩
/-- ING_STR_SEL, 15 R393. -/
def r_ING_STR_SEL : Nat := 0x80
def f_ING_STR_SEL_STREAM : Fld := ⟨0x80, 5, 0⟩
/-- ING_STR_FORMAT, 15 R393. -/
def r_ING_STR_FORMAT : Nat := 0x81
def f_ING_STR_FORMAT_TAG : Fld := ⟨0x81, 23, 16⟩
def f_ING_STR_FORMAT_PIXFMT : Fld := ⟨0x81, 10, 8⟩
def f_ING_STR_FORMAT_INTERFACE : Fld := ⟨0x81, 3, 2⟩
def f_ING_STR_FORMAT_PROTO : Fld := ⟨0x81, 1, 0⟩
/-- ING_STR_MATCH, 15 R393. -/
def r_ING_STR_MATCH : Nat := 0x82
def f_ING_STR_MATCH_UDP_PORT : Fld := ⟨0x82, 15, 0⟩
/-- ING_STR_GROUP, 15 R393. -/
def r_ING_STR_GROUP : Nat := 0x83
def f_ING_STR_GROUP : Fld := ⟨0x83, 31, 0⟩
/-- ING_STR_SIZE, 15 R393. -/
def r_ING_STR_SIZE : Nat := 0x84
def f_ING_STR_SIZE_HEIGHT : Fld := ⟨0x84, 29, 16⟩
def f_ING_STR_SIZE_WIDTH : Fld := ⟨0x84, 13, 0⟩
/-- ING_STR_POLICY, 15 R393. -/
def r_ING_STR_POLICY : Nat := 0x85
def f_ING_STR_POLICY_FILL : Fld := ⟨0x85, 31, 16⟩
def f_ING_STR_POLICY_LONG : Fld := ⟨0x85, 2, 2⟩
def f_ING_STR_POLICY_SHORT : Fld := ⟨0x85, 1, 0⟩
/-- ING_STR_TIMEOUT, 15 R393. -/
def r_ING_STR_TIMEOUT : Nat := 0x86
def f_ING_STR_TIMEOUT_US : Fld := ⟨0x86, 19, 0⟩
/-- ING_STR_DEST, 15 R393. -/
def r_ING_STR_DEST : Nat := 0x87
def f_ING_STR_DEST_COUNT : Fld := ⟨0x87, 21, 20⟩
def f_ING_STR_DEST_ENGINE : Fld := ⟨0x87, 16, 16⟩
def f_ING_STR_DEST_TENANT : Fld := ⟨0x87, 13, 8⟩
def f_ING_STR_DEST_KIND : Fld := ⟨0x87, 1, 0⟩
/-- ING_STR_DESC_LO, 15 R393. -/
def r_ING_STR_DESC_LO : Nat := 0x88
def f_ING_STR_DESC_LO : Fld := ⟨0x88, 31, 0⟩
/-- ING_STR_DESC_HI, 15 R393. -/
def r_ING_STR_DESC_HI : Nat := 0x89
def f_ING_STR_DESC_HI : Fld := ⟨0x89, 31, 0⟩
/-- ING_STR_PANEL, 15 R393. -/
def r_ING_STR_PANEL (n : Nat) : Nat := 0x8a + 1 * n
def f_ING_STR_PANEL_REGION (n : Nat) : Fld := ⟨0x8a + 1 * n, 10, 8⟩
def f_ING_STR_PANEL_PANEL (n : Nat) : Fld := ⟨0x8a + 1 * n, 6, 0⟩
/-- ING_STR_BUF_LO, 15 R393. -/
def r_ING_STR_BUF_LO : Nat := 0x8d
def f_ING_STR_BUF_LO_BASE : Fld := ⟨0x8d, 31, 12⟩
/-- ING_STR_BUF_HI, 15 R393. -/
def r_ING_STR_BUF_HI : Nat := 0x8e
def f_ING_STR_BUF_HI_SLOTS : Fld := ⟨0x8e, 31, 16⟩
def f_ING_STR_BUF_HI_BASE : Fld := ⟨0x8e, 15, 0⟩
/-- ING_STR_BUF_BYTES, 15 R393. -/
def r_ING_STR_BUF_BYTES : Nat := 0x8f
def f_ING_STR_BUF_BYTES : Fld := ⟨0x8f, 31, 0⟩
/-- ING_STR_COUNTER, 15 R393. -/
def r_ING_STR_COUNTER : Nat := 0x90
def f_ING_STR_COUNTER_COUNTER : Fld := ⟨0x90, 17, 0⟩
/-- ING_STR_TRIG, 15 R393. -/
def r_ING_STR_TRIG : Nat := 0x91
def f_ING_STR_TRIG_VALID : Fld := ⟨0x91, 31, 31⟩
def f_ING_STR_TRIG_DOMAIN : Fld := ⟨0x91, 19, 16⟩
def f_ING_STR_TRIG_OUTPUT : Fld := ⟨0x91, 3, 0⟩
/-- ING_STR_CMD, 15 R393. -/
def r_ING_STR_CMD : Nat := 0x92
def f_ING_STR_CMD_OP : Fld := ⟨0x92, 1, 0⟩
/-- ING_STR_STATUS, 15 R393. -/
def r_ING_STR_STATUS : Nat := 0x93
def f_ING_STR_STATUS_WORD : Fld := ⟨0x93, 25, 16⟩
def f_ING_STR_STATUS_REASON : Fld := ⟨0x93, 15, 8⟩
def f_ING_STR_STATUS_PENDING : Fld := ⟨0x93, 3, 3⟩
def f_ING_STR_STATUS_ACTIVE : Fld := ⟨0x93, 2, 2⟩
def f_ING_STR_STATUS_REFUSED : Fld := ⟨0x93, 1, 1⟩
def f_ING_STR_STATUS_BUSY : Fld := ⟨0x93, 0, 0⟩
/-- ING_STR_CNT_FRAMES, 15 R393. -/
def r_ING_STR_CNT_FRAMES : Nat := 0x94
def f_ING_STR_CNT_FRAMES : Fld := ⟨0x94, 31, 0⟩
/-- ING_STR_CNT_SHORT, 15 R393. -/
def r_ING_STR_CNT_SHORT : Nat := 0x95
def f_ING_STR_CNT_SHORT : Fld := ⟨0x95, 31, 0⟩
/-- ING_STR_CNT_LONG, 15 R393. -/
def r_ING_STR_CNT_LONG : Nat := 0x96
def f_ING_STR_CNT_LONG : Fld := ⟨0x96, 31, 0⟩
/-- ING_STR_CNT_DROPPED, 15 R393. -/
def r_ING_STR_CNT_DROPPED : Nat := 0x97
def f_ING_STR_CNT_DROPPED : Fld := ⟨0x97, 31, 0⟩
/-- ING_STR_CNT_BAD, 15 R393. -/
def r_ING_STR_CNT_BAD : Nat := 0x98
def f_ING_STR_CNT_BAD_LATE : Fld := ⟨0x98, 31, 16⟩
def f_ING_STR_CNT_BAD_FAULT : Fld := ⟨0x98, 15, 8⟩
def f_ING_STR_CNT_BAD_BAD : Fld := ⟨0x98, 7, 0⟩
/-- MUR_ID, 14 R372. -/
def r_MUR_ID : Nat := 0x40
def f_MUR_ID_ID : Fld := ⟨0x40, 11, 0⟩
/-- MUR_CNT_AUTH, 14 R372. -/
def r_MUR_CNT_AUTH : Nat := 0x41
def f_MUR_CNT_AUTH : Fld := ⟨0x41, 31, 0⟩
/-- MUR_CNT_E2E_REPLAY, 14 R372. -/
def r_MUR_CNT_E2E_REPLAY : Nat := 0x42
def f_MUR_CNT_E2E_REPLAY : Fld := ⟨0x42, 31, 0⟩
/-- MUR_CNT_NO_ROUTE, 14 R372. -/
def r_MUR_CNT_NO_ROUTE : Nat := 0x43
def f_MUR_CNT_NO_ROUTE : Fld := ⟨0x43, 31, 0⟩
/-- MUR_CNT_REFUSED, 14 R372. -/
def r_MUR_CNT_REFUSED : Nat := 0x44
def f_MUR_CNT_REFUSED : Fld := ⟨0x44, 31, 0⟩
/-- MUR_EC_ACTIVE, 14 R372. -/
def r_MUR_EC_ACTIVE : Nat := 0x45
def f_MUR_EC_ACTIVE_COUNT : Fld := ⟨0x45, 7, 0⟩
/-- MUR_PORT_CTRL, 14 R373. -/
def r_MUR_PORT_CTRL : Nat := 0x40
def f_MUR_PORT_CTRL_SPARE_AUTO : Fld := ⟨0x40, 4, 4⟩
def f_MUR_PORT_CTRL_DRAIN : Fld := ⟨0x40, 3, 3⟩
def f_MUR_PORT_CTRL_POWER : Fld := ⟨0x40, 1, 0⟩
/-- MUR_PORT_VC, 14 R373. -/
def r_MUR_PORT_VC : Nat := 0x41
def f_MUR_PORT_VC_VC2 : Fld := ⟨0x41, 23, 16⟩
def f_MUR_PORT_VC_VC1 : Fld := ⟨0x41, 15, 8⟩
def f_MUR_PORT_VC_VC0 : Fld := ⟨0x41, 7, 0⟩
/-- MUR_PORT_STATUS, 14 R373. -/
def r_MUR_PORT_STATUS : Nat := 0x42
def f_MUR_PORT_STATUS_X4 : Fld := ⟨0x42, 12, 12⟩
def f_MUR_PORT_STATUS_FAILED_LANE : Fld := ⟨0x42, 11, 8⟩
def f_MUR_PORT_STATUS_SPARE_USED : Fld := ⟨0x42, 7, 7⟩
def f_MUR_PORT_STATUS_LOS : Fld := ⟨0x42, 6, 6⟩
def f_MUR_PORT_STATUS_TRANSITION : Fld := ⟨0x42, 5, 5⟩
def f_MUR_PORT_STATUS_POWER : Fld := ⟨0x42, 4, 3⟩
def f_MUR_PORT_STATUS_LINK : Fld := ⟨0x42, 1, 0⟩
/-- MUR_PORT_PEER, 14 R373. -/
def r_MUR_PORT_PEER : Nat := 0x43
def f_MUR_PORT_PEER_STEPPING : Fld := ⟨0x43, 31, 16⟩
def f_MUR_PORT_PEER_VALID : Fld := ⟨0x43, 15, 15⟩
def f_MUR_PORT_PEER_PORT : Fld := ⟨0x43, 14, 12⟩
def f_MUR_PORT_PEER_ID : Fld := ⟨0x43, 11, 0⟩
/-- MUR_PORT_RTT, 14 R373. -/
def r_MUR_PORT_RTT : Nat := 0x44
def f_MUR_PORT_RTT_NS : Fld := ⟨0x44, 15, 0⟩
/-- MUR_PORT_CNT_REPLAY, 14 R373. -/
def r_MUR_PORT_CNT_REPLAY : Nat := 0x45
def f_MUR_PORT_CNT_REPLAY : Fld := ⟨0x45, 31, 0⟩
/-- MUR_PORT_CNT_CRC, 14 R373. -/
def r_MUR_PORT_CNT_CRC : Nat := 0x46
def f_MUR_PORT_CNT_CRC : Fld := ⟨0x46, 31, 0⟩
/-- MUR_PORT_CNT_DUP, 14 R373. -/
def r_MUR_PORT_CNT_DUP : Nat := 0x47
def f_MUR_PORT_CNT_DUP : Fld := ⟨0x47, 31, 0⟩
/-- MUR_PORT_CNT_RELOCK, 14 R373. -/
def r_MUR_PORT_CNT_RELOCK : Nat := 0x48
def f_MUR_PORT_CNT_RELOCK : Fld := ⟨0x48, 31, 0⟩
/-- MUR_PORT_CNT_DOWN, 14 R373. -/
def r_MUR_PORT_CNT_DOWN : Nat := 0x49
def f_MUR_PORT_CNT_DOWN : Fld := ⟨0x49, 31, 0⟩
/-- MUR_PORT_TEST, 14 R373. -/
def r_MUR_PORT_TEST : Nat := 0x4a
def f_MUR_PORT_TEST_SECONDS : Fld := ⟨0x4a, 31, 16⟩
def f_MUR_PORT_TEST_PASS : Fld := ⟨0x4a, 2, 2⟩
def f_MUR_PORT_TEST_DONE : Fld := ⟨0x4a, 1, 1⟩
def f_MUR_PORT_TEST_RUN : Fld := ⟨0x4a, 0, 0⟩
/-- MUR_PORT_TEST_ERRORS, 14 R373. -/
def r_MUR_PORT_TEST_ERRORS : Nat := 0x4b
def f_MUR_PORT_TEST_ERRORS : Fld := ⟨0x4b, 31, 0⟩
/-- MUR_PORT_FEC_CE, 14 R373. -/
def r_MUR_PORT_FEC_CE : Nat := 0x4c
def f_MUR_PORT_FEC_CE : Fld := ⟨0x4c, 31, 0⟩
/-- MUR_RT_SEL, 14 R374. -/
def r_MUR_RT_SEL : Nat := 0x40
def f_MUR_RT_SEL_BANK : Fld := ⟨0x40, 16, 16⟩
def f_MUR_RT_SEL_ENTRY : Fld := ⟨0x40, 11, 0⟩
/-- MUR_RT_DATA, 14 R374. -/
def r_MUR_RT_DATA : Nat := 0x41
def f_MUR_RT_DATA_ALT_VALID : Fld := ⟨0x41, 8, 8⟩
def f_MUR_RT_DATA_ALT : Fld := ⟨0x41, 7, 5⟩
def f_MUR_RT_DATA_VALID : Fld := ⟨0x41, 4, 4⟩
def f_MUR_RT_DATA_LOCAL : Fld := ⟨0x41, 3, 3⟩
def f_MUR_RT_DATA_PORT : Fld := ⟨0x41, 2, 0⟩
/-- MUR_RT_COMMIT, 14 R374. -/
def r_MUR_RT_COMMIT : Nat := 0x42
def f_MUR_RT_COMMIT_COMMIT : Fld := ⟨0x42, 0, 0⟩
/-- MUR_RT_STATUS, 14 R374. -/
def r_MUR_RT_STATUS : Nat := 0x43
def f_MUR_RT_STATUS_REASON : Fld := ⟨0x43, 23, 16⟩
def f_MUR_RT_STATUS_REFUSED : Fld := ⟨0x43, 10, 10⟩
def f_MUR_RT_STATUS_BUSY : Fld := ⟨0x43, 9, 9⟩
def f_MUR_RT_STATUS_OLD_LIVE : Fld := ⟨0x43, 8, 8⟩
def f_MUR_RT_STATUS_EPOCH : Fld := ⟨0x43, 7, 0⟩
/-- MUR_RT_INFLIGHT_CUR, 14 R374. -/
def r_MUR_RT_INFLIGHT_CUR : Nat := 0x44
def f_MUR_RT_INFLIGHT_CUR : Fld := ⟨0x44, 31, 0⟩
/-- MUR_RT_INFLIGHT_OLD, 14 R374. -/
def r_MUR_RT_INFLIGHT_OLD : Nat := 0x45
def f_MUR_RT_INFLIGHT_OLD : Fld := ⟨0x45, 31, 0⟩
/-- MUR_JOB_SEL, 14 R375. -/
def r_MUR_JOB_SEL : Nat := 0x40
def f_MUR_JOB_SEL_SLOT : Fld := ⟨0x40, 5, 0⟩
/-- MUR_JOB_CFG, 14 R375. -/
def r_MUR_JOB_CFG : Nat := 0x41
def f_MUR_JOB_CFG_MY_INDEX : Fld := ⟨0x41, 21, 16⟩
def f_MUR_JOB_CFG_MEMBERS : Fld := ⟨0x41, 14, 8⟩
def f_MUR_JOB_CFG_TENANT : Fld := ⟨0x41, 5, 0⟩
/-- MUR_JOB_ID, 14 R375. -/
def r_MUR_JOB_ID : Nat := 0x42
def f_MUR_JOB_ID_ID : Fld := ⟨0x42, 15, 0⟩
/-- MUR_JOB_WIN_LO, 14 R375. -/
def r_MUR_JOB_WIN_LO : Nat := 0x43
def f_MUR_JOB_WIN_LO_BASE : Fld := ⟨0x43, 31, 21⟩
/-- MUR_JOB_WIN_HI, 14 R375. -/
def r_MUR_JOB_WIN_HI : Nat := 0x44
def f_MUR_JOB_WIN_HI_BASE : Fld := ⟨0x44, 15, 0⟩
/-- MUR_JOB_WIN_SIZE, 14 R375. -/
def r_MUR_JOB_WIN_SIZE : Nat := 0x45
def f_MUR_JOB_WIN_SIZE_UNITS : Fld := ⟨0x45, 22, 0⟩
/-- MUR_JOB_SHARD, 14 R375. -/
def r_MUR_JOB_SHARD : Nat := 0x46
def f_MUR_JOB_SHARD : Fld := ⟨0x46, 31, 0⟩
/-- MUR_JOB_PARITY, 14 R375. -/
def r_MUR_JOB_PARITY : Nat := 0x47
def f_MUR_JOB_PARITY : Fld := ⟨0x47, 31, 0⟩
/-- MUR_JOB_CHUNK, 14 R375. -/
def r_MUR_JOB_CHUNK : Nat := 0x48
def f_MUR_JOB_CHUNK_UNITS : Fld := ⟨0x48, 17, 0⟩
/-- MUR_JOB_RX_COUNTER, 14 R375. -/
def r_MUR_JOB_RX_COUNTER : Nat := 0x49
def f_MUR_JOB_RX_COUNTER_VALID : Fld := ⟨0x49, 31, 31⟩
def f_MUR_JOB_RX_COUNTER_COUNTER : Fld := ⟨0x49, 17, 0⟩
/-- MUR_JOB_EC_SIGNAL, 14 R375. -/
def r_MUR_JOB_EC_SIGNAL : Nat := 0x4a
def f_MUR_JOB_EC_SIGNAL : Fld := ⟨0x4a, 31, 0⟩
/-- MUR_JOB_MEMBER_SEL, 14 R375. -/
def r_MUR_JOB_MEMBER_SEL : Nat := 0x4b
def f_MUR_JOB_MEMBER_SEL_INDEX : Fld := ⟨0x4b, 5, 0⟩
/-- MUR_JOB_MEMBER, 14 R375. -/
def r_MUR_JOB_MEMBER : Nat := 0x4c
def f_MUR_JOB_MEMBER_STATE : Fld := ⟨0x4c, 13, 12⟩
def f_MUR_JOB_MEMBER_ID : Fld := ⟨0x4c, 11, 0⟩
/-- MUR_JOB_CMD, 14 R375. -/
def r_MUR_JOB_CMD : Nat := 0x4d
def f_MUR_JOB_CMD_OP : Fld := ⟨0x4d, 9, 8⟩
def f_MUR_JOB_CMD_SLOT : Fld := ⟨0x4d, 5, 0⟩
/-- MUR_JOB_STATUS, 14 R375. -/
def r_MUR_JOB_STATUS : Nat := 0x4e
def f_MUR_JOB_STATUS_REASON : Fld := ⟨0x4e, 23, 16⟩
def f_MUR_JOB_STATUS_KEY_VALID : Fld := ⟨0x4e, 2, 2⟩
def f_MUR_JOB_STATUS_REFUSED : Fld := ⟨0x4e, 1, 1⟩
def f_MUR_JOB_STATUS_OPEN : Fld := ⟨0x4e, 0, 0⟩
/-- MUR_JOB_OPEN_MASK, 14 R375. -/
def r_MUR_JOB_OPEN_MASK : Nat := 0x4f
def f_MUR_JOB_OPEN_MASK : Fld := ⟨0x4f, 31, 0⟩
/-- MGT_POWER_CAP, 15 R394. -/
def r_MGT_POWER_CAP : Nat := 0x40
def f_MGT_POWER_CAP_WATTS : Fld := ⟨0x40, 10, 0⟩
/-- MGT_POWER_CAP_PLDM, 15 R394. -/
def r_MGT_POWER_CAP_PLDM : Nat := 0x41
def f_MGT_POWER_CAP_PLDM_WATTS : Fld := ⟨0x41, 10, 0⟩
/-- MGT_POWER_NOW, 15 R394. -/
def r_MGT_POWER_NOW : Nat := 0x42
def f_MGT_POWER_NOW_WATTS : Fld := ⟨0x42, 10, 0⟩
/-- MGT_SMBUS, 15 R394. -/
def r_MGT_SMBUS : Nat := 0x43
def f_MGT_SMBUS_EID : Fld := ⟨0x43, 15, 8⟩
def f_MGT_SMBUS_EVENT_RX : Fld := ⟨0x43, 7, 7⟩
def f_MGT_SMBUS_ADDRESS : Fld := ⟨0x43, 6, 0⟩
/-- MGT_CNT_SMBUS_ERR, 15 R394. -/
def r_MGT_CNT_SMBUS_ERR : Nat := 0x44
def f_MGT_CNT_SMBUS_ERR : Fld := ⟨0x44, 31, 0⟩
/-- MGT_I2C_CTRL, 15 R394. -/
def r_MGT_I2C_CTRL (b : Nat) : Nat := 0x48 + 2 * b
def f_MGT_I2C_CTRL_SPEED (b : Nat) : Fld := ⟨0x48 + 2 * b, 2, 1⟩
def f_MGT_I2C_CTRL_EN (b : Nat) : Fld := ⟨0x48 + 2 * b, 0, 0⟩
/-- MGT_I2C_STATUS, 15 R394. -/
def r_MGT_I2C_STATUS (b : Nat) : Nat := 0x49 + 2 * b
def f_MGT_I2C_STATUS_RECOVERIES (b : Nat) : Fld := ⟨0x49 + 2 * b, 31, 16⟩
def f_MGT_I2C_STATUS_REASON (b : Nat) : Fld := ⟨0x49 + 2 * b, 15, 8⟩
def f_MGT_I2C_STATUS_STATE (b : Nat) : Fld := ⟨0x49 + 2 * b, 1, 0⟩
/-- MGT_OUT_LEVEL, 15 R394. -/
def r_MGT_OUT_LEVEL : Nat := 0x50
def f_MGT_OUT_LEVEL_LEVEL : Fld := ⟨0x50, 15, 0⟩
/-- MGT_OUT_SAFE, 15 R394. -/
def r_MGT_OUT_SAFE : Nat := 0x51
def f_MGT_OUT_SAFE_LEVEL : Fld := ⟨0x51, 15, 0⟩
/-- MGT_OUT_RESET, 15 R394. -/
def r_MGT_OUT_RESET : Nat := 0x52
def f_MGT_OUT_RESET_SAFE : Fld := ⟨0x52, 15, 0⟩
/-- MGT_OUT_STATE, 15 R394. -/
def r_MGT_OUT_STATE : Nat := 0x53
def f_MGT_OUT_STATE_CLAIMED : Fld := ⟨0x53, 31, 16⟩
def f_MGT_OUT_STATE_LEVEL : Fld := ⟨0x53, 15, 0⟩
/-- MGT_IN_STATUS, 15 R394. -/
def r_MGT_IN_STATUS : Nat := 0x54
def f_MGT_IN_STATUS_LEVEL : Fld := ⟨0x54, 3, 0⟩
/-- MGT_IN_FILTER, 15 R394. -/
def r_MGT_IN_FILTER : Nat := 0x55
def f_MGT_IN_FILTER_SAMPLES : Fld := ⟨0x55, 5, 0⟩
/-- MGT_IN_EDGE_LO, 15 R394. -/
def r_MGT_IN_EDGE_LO (i : Nat) : Nat := 0x56 + 2 * i
def f_MGT_IN_EDGE_LO (i : Nat) : Fld := ⟨0x56 + 2 * i, 31, 0⟩
/-- MGT_IN_EDGE_HI, 15 R394. -/
def r_MGT_IN_EDGE_HI (i : Nat) : Nat := 0x57 + 2 * i
def f_MGT_IN_EDGE_HI (i : Nat) : Fld := ⟨0x57 + 2 * i, 31, 0⟩
/-- MGT_SENSOR_SEL, 15 R394. -/
def r_MGT_SENSOR_SEL : Nat := 0x60
def f_MGT_SENSOR_SEL_INDEX : Fld := ⟨0x60, 3, 0⟩
/-- MGT_SENSOR_VALUE, 15 R394. -/
def r_MGT_SENSOR_VALUE : Nat := 0x61
def f_MGT_SENSOR_VALUE : Fld := ⟨0x61, 31, 0⟩
/-- EAS_STATUS, 17 R446. -/
def r_EAS_STATUS : Nat := 0x40
def f_EAS_STATUS_L2_RUNNING : Fld := ⟨0x40, 8, 8⟩
def f_EAS_STATUS_PAIR1 : Fld := ⟨0x40, 5, 4⟩
def f_EAS_STATUS_PAIR0 : Fld := ⟨0x40, 3, 2⟩
def f_EAS_STATUS_ACTIVE : Fld := ⟨0x40, 0, 0⟩
/-- EAS_CNT_SWITCH, 17 R446. -/
def r_EAS_CNT_SWITCH : Nat := 0x41
def f_EAS_CNT_SWITCH : Fld := ⟨0x41, 31, 0⟩
/-- EAS_LOAD, 17 R446. -/
def r_EAS_LOAD : Nat := 0x42
def f_EAS_LOAD_PERCENT : Fld := ⟨0x42, 7, 0⟩
/-- EAS_WATCHDOG, 17 R446. -/
def r_EAS_WATCHDOG : Nat := 0x43
def f_EAS_WATCHDOG_MARGIN_US : Fld := ⟨0x43, 15, 0⟩
/-- CNV_MESH_VC, 04 R100. -/
def r_CNV_MESH_VC : Nat := 0x40
def f_CNV_MESH_VC_VC3 : Fld := ⟨0x40, 31, 24⟩
def f_CNV_MESH_VC_VC2 : Fld := ⟨0x40, 23, 16⟩
def f_CNV_MESH_VC_VC1 : Fld := ⟨0x40, 15, 8⟩
def f_CNV_MESH_VC_VC0 : Fld := ⟨0x40, 7, 0⟩
/-- CNV_D2D_VC, 04 R100. -/
def r_CNV_D2D_VC : Nat := 0x41
def f_CNV_D2D_VC_VC3 : Fld := ⟨0x41, 31, 24⟩
def f_CNV_D2D_VC_VC2 : Fld := ⟨0x41, 23, 16⟩
def f_CNV_D2D_VC_VC1 : Fld := ⟨0x41, 15, 8⟩
def f_CNV_D2D_VC_VC0 : Fld := ⟨0x41, 7, 0⟩
/-- CNV_SPARE, 04 R100. -/
def r_CNV_SPARE : Nat := 0x42
def f_CNV_SPARE_SERVING : Fld := ⟨0x42, 12, 8⟩
def f_CNV_SPARE_STATE : Fld := ⟨0x42, 1, 0⟩
/-- CNV_LOST, 04 R100. -/
def r_CNV_LOST : Nat := 0x43
def f_CNV_LOST : Fld := ⟨0x43, 31, 0⟩
/-- CNV_MAP_SEL, 04 R100. -/
def r_CNV_MAP_SEL : Nat := 0x44
def f_CNV_MAP_SEL_LOGICAL : Fld := ⟨0x44, 4, 0⟩
/-- CNV_MAP_DATA, 04 R100. -/
def r_CNV_MAP_DATA : Nat := 0x45
def f_CNV_MAP_DATA_LOST : Fld := ⟨0x45, 8, 8⟩
def f_CNV_MAP_DATA_PHYS : Fld := ⟨0x45, 5, 0⟩
/-- CNV_RETIRE, 04 R100. -/
def r_CNV_RETIRE : Nat := 0x46
def f_CNV_RETIRE_KEY : Fld := ⟨0x46, 31, 16⟩
def f_CNV_RETIRE_LOGICAL : Fld := ⟨0x46, 4, 0⟩
/-- CNV_BYPASS, 04 R100. -/
def r_CNV_BYPASS : Nat := 0x47
def f_CNV_BYPASS_QUADS : Fld := ⟨0x47, 7, 0⟩
/-- CNV_MOVES, 04 R100. -/
def r_CNV_MOVES : Nat := 0x48
def f_CNV_MOVES_LIMIT : Fld := ⟨0x48, 11, 8⟩
def f_CNV_MOVES_ACTIVE : Fld := ⟨0x48, 3, 0⟩
/-- PNL_MODE, 04 R99. -/
def r_PNL_MODE : Nat := 0x40
def f_PNL_MODE_DOMAIN : Fld := ⟨0x40, 19, 16⟩
def f_PNL_MODE_TENANT : Fld := ⟨0x40, 13, 8⟩
def f_PNL_MODE_MODE : Fld := ⟨0x40, 1, 0⟩
/-- PNL_STATUS, 04 R99. -/
def r_PNL_STATUS : Nat := 0x41
def f_PNL_STATUS_LOST : Fld := ⟨0x41, 27, 27⟩
def f_PNL_STATUS_SUBST : Fld := ⟨0x41, 26, 26⟩
def f_PNL_STATUS_MOVE : Fld := ⟨0x41, 25, 25⟩
def f_PNL_STATUS_STEP_ACTIVE : Fld := ⟨0x41, 24, 24⟩
def f_PNL_STATUS_TAG : Fld := ⟨0x41, 20, 8⟩
def f_PNL_STATUS_RESIDENT : Fld := ⟨0x41, 5, 0⟩
/-- PNL_HOLD, 04 R99. -/
def r_PNL_HOLD : Nat := 0x42
def f_PNL_HOLD_NO_WORK : Fld := ⟨0x42, 10, 10⟩
def f_PNL_HOLD_QUIESCE : Fld := ⟨0x42, 9, 9⟩
def f_PNL_HOLD_SUBST : Fld := ⟨0x42, 8, 8⟩
def f_PNL_HOLD_MOVE : Fld := ⟨0x42, 7, 7⟩
def f_PNL_HOLD_OUT_DRAIN : Fld := ⟨0x42, 6, 6⟩
def f_PNL_HOLD_WAIT : Fld := ⟨0x42, 5, 5⟩
def f_PNL_HOLD_PORT_IN : Fld := ⟨0x42, 3, 0⟩
/-- PNL_REGION, 04 R99. -/
def r_PNL_REGION (n : Nat) : Nat := 0x44 + 1 * n
def f_PNL_REGION_VALID (n : Nat) : Fld := ⟨0x44 + 1 * n, 31, 31⟩
def f_PNL_REGION_WRITER (n : Nat) : Fld := ⟨0x44 + 1 * n, 30, 28⟩
def f_PNL_REGION_SIZE (n : Nat) : Fld := ⟨0x44 + 1 * n, 27, 16⟩
def f_PNL_REGION_BASE (n : Nat) : Fld := ⟨0x44 + 1 * n, 10, 0⟩
/-- PNL_SPARES, 04 R99. -/
def r_PNL_SPARES : Nat := 0x4c
def f_PNL_SPARES_LAST_PHYS : Fld := ⟨0x4c, 30, 24⟩
def f_PNL_SPARES_LAST_LOGICAL : Fld := ⟨0x4c, 21, 16⟩
def f_PNL_SPARES_SUBST_COUNT : Fld := ⟨0x4c, 15, 8⟩
def f_PNL_SPARES_FREE : Fld := ⟨0x4c, 2, 0⟩
/-- PNL_MAP_SEL, 04 R99. -/
def r_PNL_MAP_SEL : Nat := 0x4d
def f_PNL_MAP_SEL_LOGICAL : Fld := ⟨0x4d, 5, 0⟩
/-- PNL_MAP_DATA, 04 R99. -/
def r_PNL_MAP_DATA : Nat := 0x4e
def f_PNL_MAP_DATA_PHYS : Fld := ⟨0x4e, 6, 0⟩
/-- PNL_RETIRE, 04 R99. -/
def r_PNL_RETIRE : Nat := 0x4f
def f_PNL_RETIRE_KEY : Fld := ⟨0x4f, 31, 16⟩
def f_PNL_RETIRE_LOGICAL : Fld := ⟨0x4f, 5, 0⟩
/-- PNL_CYCLES_LO, 04 R99. -/
def r_PNL_CYCLES_LO : Nat := 0x50
def f_PNL_CYCLES_LO : Fld := ⟨0x50, 31, 0⟩
/-- PNL_CYCLES_HI, 04 R99. -/
def r_PNL_CYCLES_HI : Nat := 0x51
def f_PNL_CYCLES_HI : Fld := ⟨0x51, 31, 0⟩
/-- PNL_STEPS, 04 R99. -/
def r_PNL_STEPS : Nat := 0x52
def f_PNL_STEPS : Fld := ⟨0x52, 31, 0⟩
/-- PNL_PORT, 04 R99. -/
def r_PNL_PORT (n : Nat) : Nat := 0x54 + 1 * n
def f_PNL_PORT_UNITS (n : Nat) : Fld := ⟨0x54 + 1 * n, 31, 8⟩
def f_PNL_PORT_DIR (n : Nat) : Fld := ⟨0x54 + 1 * n, 2, 2⟩
def f_PNL_PORT_STATE (n : Nat) : Fld := ⟨0x54 + 1 * n, 1, 0⟩
/-- TNT_QUOTA, 13 R342. -/
def r_TNT_QUOTA : Nat := 0x40
def f_TNT_QUOTA_CQS : Fld := ⟨0x40, 30, 24⟩
def f_TNT_QUOTA_RINGS : Fld := ⟨0x40, 22, 16⟩
def f_TNT_QUOTA_TAGS : Fld := ⟨0x40, 12, 0⟩
/-- TNT_TAGS_HELD, 13 R342. -/
def r_TNT_TAGS_HELD : Nat := 0x41
def f_TNT_TAGS_HELD_COUNT : Fld := ⟨0x41, 12, 0⟩
/-- TNT_EVT, 13 R342. -/
def r_TNT_EVT : Nat := 0x42
def f_TNT_EVT_VECTOR : Fld := ⟨0x42, 7, 0⟩
/-- TNT_QUANTUM, 13 R342. -/
def r_TNT_QUANTUM : Nat := 0x43
def f_TNT_QUANTUM_US : Fld := ⟨0x43, 16, 0⟩
/-- TNT_CNT_REFUSED, 13 R342. -/
def r_TNT_CNT_REFUSED : Nat := 0x44
def f_TNT_CNT_REFUSED : Fld := ⟨0x44, 31, 0⟩
/-- TNT_TDI, 13 R342. -/
def r_TNT_TDI : Nat := 0x45
def f_TNT_TDI_STATE : Fld := ⟨0x45, 1, 0⟩
/-- RING_BASE_LO, 13 R343. -/
def r_RING_BASE_LO (r : Nat) : Nat := 0x40 + 8 * r
def f_RING_BASE_LO (r : Nat) : Fld := ⟨0x40 + 8 * r, 31, 0⟩
/-- RING_BASE_HI, 13 R343. -/
def r_RING_BASE_HI (r : Nat) : Nat := 0x41 + 8 * r
def f_RING_BASE_HI_BASE (r : Nat) : Fld := ⟨0x41 + 8 * r, 15, 0⟩
/-- RING_CFG, 13 R343. -/
def r_RING_CFG (r : Nat) : Nat := 0x42 + 8 * r
def f_RING_CFG_ENABLE (r : Nat) : Fld := ⟨0x42 + 8 * r, 31, 31⟩
def f_RING_CFG_KIND (r : Nat) : Fld := ⟨0x42 + 8 * r, 30, 30⟩
def f_RING_CFG_CQ (r : Nat) : Fld := ⟨0x42 + 8 * r, 21, 16⟩
def f_RING_CFG_LOG2 (r : Nat) : Fld := ⟨0x42 + 8 * r, 4, 0⟩
/-- RING_TIMEOUT, 13 R343. -/
def r_RING_TIMEOUT (r : Nat) : Nat := 0x43 + 8 * r
def f_RING_TIMEOUT (r : Nat) : Fld := ⟨0x43 + 8 * r, 31, 0⟩
/-- RING_HEAD, 13 R343. -/
def r_RING_HEAD (r : Nat) : Nat := 0x44 + 8 * r
def f_RING_HEAD (r : Nat) : Fld := ⟨0x44 + 8 * r, 31, 0⟩
/-- RING_STATUS, 13 R343. -/
def r_RING_STATUS (r : Nat) : Nat := 0x45 + 8 * r
def f_RING_STATUS_REASON (r : Nat) : Fld := ⟨0x45 + 8 * r, 15, 8⟩
def f_RING_STATUS_TAG_WAIT (r : Nat) : Fld := ⟨0x45 + 8 * r, 1, 1⟩
def f_RING_STATUS_ACTIVE (r : Nat) : Fld := ⟨0x45 + 8 * r, 0, 0⟩
/-- RING_SEQ_H, 13 R343. -/
def r_RING_SEQ_H (r : Nat) : Nat := 0x46 + 8 * r
def f_RING_SEQ_H (r : Nat) : Fld := ⟨0x46 + 8 * r, 31, 0⟩
/-- DOORBELL, 13 R344. -/
def r_DOORBELL (r : Nat) : Nat := 0x40 + 1 * r
def f_DOORBELL (r : Nat) : Fld := ⟨0x40 + 1 * r, 31, 0⟩
/-- CQ_BASE_LO, 13 R345. -/
def r_CQ_BASE_LO (q : Nat) : Nat := 0x40 + 4 * q
def f_CQ_BASE_LO (q : Nat) : Fld := ⟨0x40 + 4 * q, 31, 0⟩
/-- CQ_BASE_HI, 13 R345. -/
def r_CQ_BASE_HI (q : Nat) : Nat := 0x41 + 4 * q
def f_CQ_BASE_HI_BASE (q : Nat) : Fld := ⟨0x41 + 4 * q, 15, 0⟩
/-- CQ_CFG, 13 R345. -/
def r_CQ_CFG (q : Nat) : Nat := 0x42 + 4 * q
def f_CQ_CFG_ENABLE (q : Nat) : Fld := ⟨0x42 + 4 * q, 31, 31⟩
def f_CQ_CFG_VECTOR (q : Nat) : Fld := ⟨0x42 + 4 * q, 23, 16⟩
def f_CQ_CFG_HOLDOFF_US (q : Nat) : Fld := ⟨0x42 + 4 * q, 15, 8⟩
def f_CQ_CFG_LOG2 (q : Nat) : Fld := ⟨0x42 + 4 * q, 4, 0⟩
/-- CQ_HEAD, 13 R345. -/
def r_CQ_HEAD (q : Nat) : Nat := 0x43 + 4 * q
def f_CQ_HEAD (q : Nat) : Fld := ⟨0x43 + 4 * q, 31, 0⟩
/-- CQ_REFUSE, 13 R345. -/
def r_CQ_REFUSE : Nat := 0x140
def f_CQ_REFUSE_VALID : Fld := ⟨0x140, 31, 31⟩
def f_CQ_REFUSE_QUEUE : Fld := ⟨0x140, 21, 16⟩
def f_CQ_REFUSE_REASON : Fld := ⟨0x140, 15, 8⟩
/-- SYN_T_COUNT, 05 R130. -/
def r_SYN_T_COUNT : Nat := 0x40
def f_SYN_T_COUNT_COUNT : Fld := ⟨0x40, 12, 0⟩
/-- SYN_T_SEL, 05 R130. -/
def r_SYN_T_SEL : Nat := 0x41
def f_SYN_T_SEL_COUNTER : Fld := ⟨0x41, 17, 0⟩
/-- SYN_T_VALUE_LO, 05 R130. -/
def r_SYN_T_VALUE_LO : Nat := 0x42
def f_SYN_T_VALUE_LO : Fld := ⟨0x42, 31, 0⟩
/-- SYN_T_VALUE_HI, 05 R130. -/
def r_SYN_T_VALUE_HI : Nat := 0x43
def f_SYN_T_VALUE_HI : Fld := ⟨0x43, 31, 0⟩
/-- SYN_T_ADD_LO, 05 R130. -/
def r_SYN_T_ADD_LO : Nat := 0x44
def f_SYN_T_ADD_LO : Fld := ⟨0x44, 31, 0⟩
/-- SYN_T_ADD_HI, 05 R130. -/
def r_SYN_T_ADD_HI : Nat := 0x45
def f_SYN_T_ADD_HI : Fld := ⟨0x45, 31, 0⟩
/-- SYN_T_INFO, 05 R130. -/
def r_SYN_T_INFO : Nat := 0x46
def f_SYN_T_INFO : Fld := ⟨0x46, 31, 0⟩
/-- GLZ_T_SEL, 10 R249. -/
def r_GLZ_T_SEL : Nat := 0x40
def f_GLZ_T_SEL_HANDLE : Fld := ⟨0x40, 23, 0⟩
/-- GLZ_T_SEQ, 10 R249. -/
def r_GLZ_T_SEQ : Nat := 0x41
def f_GLZ_T_SEQ_HOST_TRACKED : Fld := ⟨0x41, 8, 8⟩
def f_GLZ_T_SEQ_GEOMETRY : Fld := ⟨0x41, 7, 5⟩
def f_GLZ_T_SEQ_BOUND : Fld := ⟨0x41, 4, 4⟩
def f_GLZ_T_SEQ_STATE : Fld := ⟨0x41, 3, 0⟩
/-- GLZ_T_LENGTH, 10 R249. -/
def r_GLZ_T_LENGTH : Nat := 0x42
def f_GLZ_T_LENGTH_LENGTH : Fld := ⟨0x42, 20, 0⟩
/-- GLZ_T_BLOCKS, 10 R249. -/
def r_GLZ_T_BLOCKS : Nat := 0x43
def f_GLZ_T_BLOCKS_EVICTED : Fld := ⟨0x43, 31, 16⟩
def f_GLZ_T_BLOCKS_LIVE : Fld := ⟨0x43, 15, 0⟩
/-- GLZ_T_TTL, 10 R249. -/
def r_GLZ_T_TTL : Nat := 0x44
def f_GLZ_T_TTL_SECONDS : Fld := ⟨0x44, 17, 0⟩
/-- GLZ_T_USE_HBM, 10 R249. -/
def r_GLZ_T_USE_HBM : Nat := 0x45
def f_GLZ_T_USE_HBM_SETS : Fld := ⟨0x45, 23, 0⟩
/-- GLZ_T_USE_LOFT, 10 R249. -/
def r_GLZ_T_USE_LOFT : Nat := 0x46
def f_GLZ_T_USE_LOFT_SETS : Fld := ⟨0x46, 23, 0⟩
/-- GLZ_T_DOM_SEL, 10 R249. -/
def r_GLZ_T_DOM_SEL : Nat := 0x47
def f_GLZ_T_DOM_SEL_DOMAIN : Fld := ⟨0x47, 7, 0⟩
/-- GLZ_T_DOM, 10 R249. -/
def r_GLZ_T_DOM : Nat := 0x48
def f_GLZ_T_DOM_MEMBER : Fld := ⟨0x48, 8, 8⟩
def f_GLZ_T_DOM_EPOCH : Fld := ⟨0x48, 7, 0⟩
/-- SMP_T_RING_BASE_LO, 09 R226. -/
def r_SMP_T_RING_BASE_LO (r : Nat) : Nat := 0x40 + 4 * r
def f_SMP_T_RING_BASE_LO (r : Nat) : Fld := ⟨0x40 + 4 * r, 31, 0⟩
/-- SMP_T_RING_BASE_HI, 09 R226. -/
def r_SMP_T_RING_BASE_HI (r : Nat) : Nat := 0x41 + 4 * r
def f_SMP_T_RING_BASE_HI_BASE (r : Nat) : Fld := ⟨0x41 + 4 * r, 15, 0⟩
/-- SMP_T_RING_CFG, 09 R226. -/
def r_SMP_T_RING_CFG (r : Nat) : Nat := 0x42 + 4 * r
def f_SMP_T_RING_CFG_VALID (r : Nat) : Fld := ⟨0x42 + 4 * r, 31, 31⟩
def f_SMP_T_RING_CFG_EVENT (r : Nat) : Fld := ⟨0x42 + 4 * r, 30, 30⟩
def f_SMP_T_RING_CFG_LOG2_SIZE (r : Nat) : Fld := ⟨0x42 + 4 * r, 4, 0⟩
/-- SMP_T_RING_PTR, 09 R226. -/
def r_SMP_T_RING_PTR (r : Nat) : Nat := 0x43 + 4 * r
def f_SMP_T_RING_PTR_TAIL (r : Nat) : Fld := ⟨0x43 + 4 * r, 31, 16⟩
def f_SMP_T_RING_PTR_HEAD (r : Nat) : Fld := ⟨0x43 + 4 * r, 15, 0⟩
/-- SMP_T_STATUS, 09 R226. -/
def r_SMP_T_STATUS : Nat := 0x80
def f_SMP_T_STATUS_PLANS : Fld := ⟨0x80, 23, 20⟩
def f_SMP_T_STATUS_SEQ_OPEN : Fld := ⟨0x80, 16, 0⟩
/-- VCE_T_COUNT, 11 R281. -/
def r_VCE_T_COUNT : Nat := 0x40
def f_VCE_T_COUNT_OPEN : Fld := ⟨0x40, 24, 16⟩
def f_VCE_T_COUNT_QUOTA : Fld := ⟨0x40, 8, 0⟩
/-- VCE_T_SEL, 11 R281. -/
def r_VCE_T_SEL : Nat := 0x41
def f_VCE_T_SEL_HANDLE : Fld := ⟨0x41, 15, 0⟩
/-- VCE_T_CTX, 11 R281. -/
def r_VCE_T_CTX : Nat := 0x42
def f_VCE_T_CTX_PRIORITY : Fld := ⟨0x42, 18, 16⟩
def f_VCE_T_CTX_SLOT : Fld := ⟨0x42, 11, 8⟩
def f_VCE_T_CTX_DEST_PALETTE : Fld := ⟨0x42, 7, 7⟩
def f_VCE_T_CTX_SOURCE_INGEST : Fld := ⟨0x42, 6, 6⟩
def f_VCE_T_CTX_KIND : Fld := ⟨0x42, 5, 4⟩
def f_VCE_T_CTX_STATE : Fld := ⟨0x42, 3, 0⟩
/-- VCE_T_FRAMES, 11 R281. -/
def r_VCE_T_FRAMES : Nat := 0x43
def f_VCE_T_FRAMES : Fld := ⟨0x43, 31, 0⟩
/-- VCE_T_CONCEALED, 11 R281. -/
def r_VCE_T_CONCEALED : Nat := 0x44
def f_VCE_T_CONCEALED : Fld := ⟨0x44, 31, 0⟩
/-- VCE_T_DROPPED, 11 R281. -/
def r_VCE_T_DROPPED : Nat := 0x45
def f_VCE_T_DROPPED : Fld := ⟨0x45, 31, 0⟩
/-- VCE_T_SIZE, 11 R281. -/
def r_VCE_T_SIZE : Nat := 0x46
def f_VCE_T_SIZE_HEIGHT : Fld := ⟨0x46, 29, 16⟩
def f_VCE_T_SIZE_WIDTH : Fld := ⟨0x46, 13, 0⟩
/-- VCE_T_LAST_BYTES, 11 R281. -/
def r_VCE_T_LAST_BYTES : Nat := 0x47
def f_VCE_T_LAST_BYTES : Fld := ⟨0x47, 31, 0⟩
/-- MMU_T_FAULT_COUNT, 13 R346. -/
def r_MMU_T_FAULT_COUNT : Nat := 0x40
def f_MMU_T_FAULT_COUNT : Fld := ⟨0x40, 31, 0⟩
/-- MMU_T_FAULT_STATUS, 13 R346. -/
def r_MMU_T_FAULT_STATUS : Nat := 0x41
def f_MMU_T_FAULT_STATUS_OVERFLOW : Fld := ⟨0x41, 31, 31⟩
def f_MMU_T_FAULT_STATUS_ENTRIES : Fld := ⟨0x41, 4, 0⟩
/-- MMU_T_FAULT_DVA_LO, 13 R346. -/
def r_MMU_T_FAULT_DVA_LO : Nat := 0x42
def f_MMU_T_FAULT_DVA_LO : Fld := ⟨0x42, 31, 0⟩
/-- MMU_T_FAULT_DVA_HI, 13 R346. -/
def r_MMU_T_FAULT_DVA_HI : Nat := 0x43
def f_MMU_T_FAULT_DVA_HI_DVA : Fld := ⟨0x43, 15, 0⟩
/-- MMU_T_FAULT_INFO, 13 R346. -/
def r_MMU_T_FAULT_INFO : Nat := 0x44
def f_MMU_T_FAULT_INFO_VALID : Fld := ⟨0x44, 31, 31⟩
def f_MMU_T_FAULT_INFO_REASON : Fld := ⟨0x44, 30, 28⟩
def f_MMU_T_FAULT_INFO_WRITE : Fld := ⟨0x44, 27, 27⟩
def f_MMU_T_FAULT_INFO_TAG : Fld := ⟨0x44, 20, 8⟩
def f_MMU_T_FAULT_INFO_OPCODE : Fld := ⟨0x44, 7, 0⟩
/-- MMU_T_WINDOW, 13 R346. -/
def r_MMU_T_WINDOW : Nat := 0x45
def f_MMU_T_WINDOW_VALID : Fld := ⟨0x45, 31, 31⟩
def f_MMU_T_WINDOW_BASE : Fld := ⟨0x45, 17, 0⟩

def ev_flt_OPENED : Nat := 8
def ev_flt_ESCALATED : Nat := 9
def ev_flt_FATAL : Nat := 10
def ev_flt_READMITTED : Nat := 11
def ev_flt_LATCHED : Nat := 12
def ev_flt_AGG_SWITCH : Nat := 13
def ev_flt_SPARE_USED : Nat := 14
def ev_flt_LOG_DROP : Nat := 15
def ev_cadDom_SLIP : Nat := 8
def ev_cadDom_SLIP_CLEARED : Nat := 9
def ev_cadDom_STANDSTILL : Nat := 10
def ev_cadDom_MOTION : Nat := 11
def ev_cadDom_REVERSAL : Nat := 12
def ev_cadDom_OVERSPEED : Nat := 13
def ev_cadDom_LATE : Nat := 14
def ev_cadDom_MISSED : Nat := 15
def ev_cadDom_OVERRUN : Nat := 16
def ev_cadDom_EPT_DONE : Nat := 17
def ev_cadDom_MARK_READY : Nat := 18
def ev_cadRef_INDEX_CORRECTED : Nat := 8
def ev_cadRef_INDEX_ERROR : Nat := 9
def ev_cadRef_QUAD_ERROR : Nat := 10
def ev_cadRef_LOS : Nat := 11
def ev_cadRef_LOS_CLEARED : Nat := 12
def ev_var0_VOTE_MINORITY : Nat := 8
def ev_var0_CHANNEL_FENCED : Nat := 9
def ev_var0_CHANNEL_READMITTED : Nat := 10
def ev_var0_CHANNEL_OUT : Nat := 11
def ev_var0_NO_MAJORITY : Nat := 12
def ev_var0_VOTER_SWITCH : Nat := 13
def ev_var0_VOTED_DROPPED : Nat := 14
def ev_dip_ROLE_CHANGE : Nat := 8
def ev_dip_LINK_DOWN : Nat := 9
def ev_dip_LINK_UP : Nat := 10
def ev_dip_HB_MISS : Nat := 11
def ev_dip_SNAP_DROPPED : Nat := 12
def ev_dip_DIVERGED : Nat := 13
def ev_dip_CONFIG_MISMATCH : Nat := 14
def ev_dip_DUAL_ACTIVE : Nat := 15
def ev_dip_HANDOVER_FAILED : Nat := 16
def ev_hifTen_TENANT_STATE : Nat := 8
def ev_hifTen_FLR : Nat := 9
def ev_sec_LC_DONE : Nat := 8
def ev_sec_KEY_DONE : Nat := 9
def ev_sec_WR_DONE : Nat := 10
def ev_sec_WEIGHT_AUTH : Nat := 11
def ev_sec_TAMPER : Nat := 12
def ev_mmu_CMD_DONE : Nat := 8
def ev_syn_SATURATED : Nat := 8
def ev_syn_COUNTER_POISONED : Nat := 9
def ev_stu_HANDOVER_DONE : Nat := 8
def ev_stu_PATROL_UE : Nat := 9
def ev_stu_MARCH_DONE : Nat := 10
def ev_hbm_PATROL_UE : Nat := 8
def ev_hbm_RETIRED : Nat := 9
def ev_hbm_RESERVE_LOW : Nat := 10
def ev_hbm_RESERVE_EXHAUSTED : Nat := 11
def ev_hbm_CLEAR_DONE : Nat := 12
def ev_hbm_MARCH_DONE : Nat := 13
def ev_hbm_WEIGHT_REPAIRED : Nat := 14
def ev_frs_CMD_DONE : Nat := 8
def ev_frs_SPARES_LOW : Nat := 9
def ev_frs_WORN : Nat := 10
def ev_frs_MEDIA_UE : Nat := 11
def ev_glz_SET_POISONED : Nat := 8
def ev_glz_SEQ_EXPIRED : Nat := 9
def ev_glz_NONFINITE : Nat := 10
def ev_glz_POOL_LOW : Nat := 11
def ev_smp_DOMAIN_KEY : Nat := 8
def ev_smp_SEQ_EXPIRED : Nat := 9
def ev_vce_PDEST_DONE : Nat := 8
def ev_vce_CONCEALED : Nat := 9
def ev_vce_STALLED : Nat := 10
def ev_vce_CONTEXT_FAILED : Nat := 11
def ev_ing_STREAM_DONE : Nat := 8
def ev_ing_FRAME_SHORT : Nat := 9
def ev_ing_FRAME_LONG : Nat := 10
def ev_ing_PTP_STATE : Nat := 11
def ev_ing_LINK_CHANGE : Nat := 12
def ev_mur0_AUTH_FAIL : Nat := 8
def ev_mur0_ROUTE_STALL : Nat := 9
def ev_murPort_LINK_UP : Nat := 8
def ev_murPort_LINK_DOWN : Nat := 9
def ev_murPort_LANE_SWAPPED : Nat := 10
def ev_murPort_POWER_DONE : Nat := 11
def ev_murPort_TEST_DONE : Nat := 12
def ev_murRt_ROUTE_DONE : Nat := 8
def ev_murJob_JOB_DONE : Nat := 8
def ev_mgt_INPUT_EDGE : Nat := 8
def ev_mgt_I2C_REFUSED : Nat := 9
def ev_mgt_CAP_CHANGE : Nat := 10
def ev_mgt_SENSOR_THRESHOLD : Nat := 11
def ev_eas_PAIR_SWITCH : Nat := 8
def ev_cnv_PANEL_SUBSTITUTED : Nat := 8
def ev_cnv_PANEL_LOST : Nat := 9
def ev_cnv_BYPASS_CHANGE : Nat := 10
def ev_pnl_CORE_SUBSTITUTED : Nat := 8
def ev_pnl_SPARES_LOW : Nat := 9
def ev_pnl_SPARES_EXHAUSTED : Nat := 10
def ev_pnl_SCHEDULE_CONFLICT : Nat := 11
def ev_pnl_POISON_READ : Nat := 12
def ev_tnt_TAG_WAIT : Nat := 8
def ev_ringCfg_RING_REFUSED : Nat := 8
def ev_doorbell_DOORBELL_DISCARDED : Nat := 8
def ev_cqPage_CQ_FULL : Nat := 8
def ev_cqPage_CQ_FAULT : Nat := 9
def ev_cqPage_CQ_REFUSED : Nat := 10
def ev_glzT_KV_POISONED : Nat := 8
def ev_glzT_SEQ_EXPIRED : Nat := 9
def ev_smpT_TOKENS : Nat := 8
def ev_smpT_RING_STALL : Nat := 9
def ev_smpT_SEQ_EXPIRED : Nat := 10
def ev_vceT_STREAM_ERROR : Nat := 8
def ev_vceT_STREAM_UNSUPPORTED : Nat := 9
def ev_vceT_CONTEXT_FAILED : Nat := 10
def ev_mmuT_FAULT : Nat := 8

end Sys2Proof.Machine
end

