-- ==== Sys2Proof/Machine/StCore.lean ====
section
/-! DEFINITION. The plain-data types of the parts every block shares: ledgers, what the module sends out, fault records and the two journals. -/

namespace Sys2Proof.Machine

open Sys2Proof

/-- A conservation ledger (R16, R39): the fixed total of a pool, its units in three classes, and the reclaimed count. -/
structure Ledger where
  total : Nat
  free : Nat
  held : Nat
  transit : Nat
  reclaimed : Nat
  deriving DecidableEq, Repr

/-- What kind of thing the module sent to the outside (the model's own record of its outputs, log entry 4). -/
inductive OutKind where
  | msix        -- an MSI-X message: function, vector (R326)
  | cfgReply    -- the answer to a PCIe configuration request (R463)
  | ethernet    -- a frame on an Ingest interface (R377, R378)
  | muralFlit   -- a control flit on a Mural port (R352)
  | muralPacket -- a Mural packet (R359)
  | diptych     -- a frame of the Diptych port (R183, R185, R188)
  | mctp        -- an MCTP, PLDM or SPDM answer on the sideband or the DOE mailbox (R389, R402, R405)
  | pldmEvent   -- a PLDM PlatformEventMessage (R454)
  | smbus       -- FRU EEPROM bytes read on the sideband (R391)
  deriving DecidableEq, Repr

/-- One thing the module sent: its kind, the port, function or interface it left by, its fields and its bytes. -/
structure Out where
  kind : OutKind
  port : Nat
  words : List Nat
  bytes : List Byte
  deriving DecidableEq, Repr

/-- An open fault record of the Fault Collector (R426 to R428). -/
structure FltRec where
  page : Nat
  source : Nat
  cls : Nat
  merge : Nat
  opened : Nat
  fenced : Bool
  timer : Bool              -- its grace timer runs
  addr : Nat
  syn : Nat
  grace : Nat               -- FLT_GRACE as the record opened, in microseconds
  deriving DecidableEq, Repr

/-- A record of the Pentimento log or of the spare map (R434, R435). -/
structure LogRec where
  time : Nat
  seq : Nat
  powerOn : Nat
  typ : Nat
  cls : Nat
  commanded : Bool
  page : Nat
  source : Nat
  merge : Nat
  recoveries : Nat
  addr : Nat
  syn : Nat
  detail : List Nat
  deriving DecidableEq, Repr

/-- What the Fault Collector keeps of one page (R429): readmissions since manufacture of the count, those in the window, the latch. -/
structure PageRcv where
  recoveries : Nat
  inWindow : Nat
  latched : Bool
  deriving DecidableEq, Repr

/-- The Fault Collector (17). -/
structure FltSt where
  recs : SMap FltRec          -- open records by index 0 to 63
  queue : List LogRec         -- the 256-record buffer, oldest first (R436)
  beside : List LogRec        -- the place of its own for one FATAL record (R436)
  log : SMap LogRec           -- durable log records by SEQ (R437)
  spare : List LogRec         -- durable spare map records, oldest first
  spareSeq : Nat              -- next SEQ of the spare map
  ce : SMap Nat               -- corrected errors of the minute, by page * 256 + source
  ceOver : Nat                -- corrected errors that found all 256 counters in use
  lostDue : Nat               -- records lost since the last LOG_LOST record
  wire : SMap Bool            -- broken dual-rail pairs by page * 4 + class (R423)
  baseline : SMap Nat         -- what the poller last saw, by page * 4 + class
  otherUe : SMap Nat          -- errors of the other class signalled on its own pair since the poll, by page * 4 + class
  rcv : SMap PageRcv          -- by page
  fatal : SMap Bool           -- pages latched in FAULT for a FATAL error (R33)
  refFailed : SMap Bool       -- clock references recorded as FAILED (R440)
  powerOns : Nat              -- AON power-ons since manufacture
  lastErr : SMap Nat          -- instant of a page's last error, or of its fence (the quiet period of R429)
  window : Nat                -- instant from which IN_WINDOW counts (R429)
  deriving DecidableEq, Repr

/-- Start-up phases (R461 to R463; log entry 2). -/
inductive Phase where
  | off        -- no AON power
  | held       -- every block outside AON held in reset
  | released   -- T0 has passed; configuration requests are answered with retry status
  | ready      -- configuration ready
  deriving DecidableEq, Repr

/-- A change of power domains in progress (R48): the domains as they will be. -/
structure PdChange where
  st0 : Nat
  st1 : Nat
  deriving DecidableEq, Repr

/-- Power, reset and start-up (18, 19). -/
structure PowSt where
  phase : Phase
  perst : Bool                -- PERST# is asserted
  pd : Option PdChange        -- the accepted request whose transition runs
  uncleared : SMap Bool       -- quads (8 * canvas + q) on whose clearing has not ended (R81)
  envOk : Bool                -- the latch behind MOD_PROMISE.ENV_OK (R456)
  fwSigned : Bool             -- MOD_PROMISE.FW_SIGNED
  noFatal : Bool              -- MOD_PROMISE.NO_FATAL
  resetDue : Bool             -- a FATAL error in service owes step 4 of R430 (R466)
  skip : Nat                  -- k of the throttle's stage 1 (R451)
  stage : Nat                 -- the throttle stage acting, 0 for none
  lowSince : Option Nat       -- instant from which k has been at most 8 (R451)
  calmSince : Option Nat      -- instant from which the projection has stayed 10% below the cap
  outSince : Option Nat       -- instant from which the input voltage has been outside 40 to 60 V (R449)
  failing : Bool              -- a power-fail sequence runs (R450)
  overVolt : Bool             -- powered down by over-voltage (R449)
  therm : SMap Nat            -- whole degrees above the throttle threshold, plus 1, by sensor number (R455)
  hbmFast : Bool              -- HBM refreshes at double rate (R455)
  hotSince : Option Nat       -- instant from which the coolant's rise has exceeded what the power explains (R454)
  flowLow : Bool              -- the flow estimate is below 1.8 L/min (R454)
  moist : Bool                -- sensor 11 reads WET or open circuit (R454)
  fwFail : Bool               -- both firmware slots failed at the last boot (R466)
  deriving DecidableEq, Repr

end Sys2Proof.Machine
end

