-- ==== Sys2Proof/Machine/StOps.lean ====
section
/-! DEFINITION. The plain-data types of operations, rings, completion queues, sync counters and the Stretcher MMU (05, 13). -/

namespace Sys2Proof.Machine

open Sys2Proof

/-- An operation descriptor (R110, R111), its fields read from the 64 bytes of its slot. -/
structure Desc where
  opcode : Nat
  priority : Nat
  cadence : Bool
  domain : Nat
  flags : Nat
  rsv3 : Nat
  seq : Nat
  thr0 : Nat
  thr1 : Nat
  sigAdd : Nat
  arg : Nat
  wait0 : Nat
  wait1 : Nat
  sig : Nat
  panels : Nat
  timeout : Nat
  rsv60 : Nat
  deriving DecidableEq, Repr

/-- A completion record before it has a slot (R118); `intr` is the descriptor's INTERRUPT flag. -/
structure CRec where
  start : Nat
  fin : Nat
  seq : Nat
  tag : Nat
  noTag : Bool
  status : Nat
  flags : Nat
  ring : Nat
  opcode : Nat
  detail : Nat
  intr : Bool
  deriving DecidableEq, Repr

/-- How far an accepted operation has come. -/
inductive OpPhase where
  | waiting   -- accepted; its waits or its fence are not met
  | issued    -- ready and issued: its argument block has been read
  | ended     -- its last part has ended
  | due       -- its SIGNAL is added and its record is due to its queue
  deriving DecidableEq, Repr

/-- An operation in flight, held under its tag (R114). -/
structure Op where
  tenant : Nat
  ring : Nat
  cad : Bool                -- from a cadence ring; `ring` is then the domain
  cq : Nat
  d : Desc
  gen : Nat                 -- 3-bit generation of the tag
  order : Nat               -- place in the order of acceptance
  accepted : Nat
  timeout : Nat             -- TIMEOUT in force in µs; 0 none
  phase : OpPhase
  start : Option Nat        -- START, once it has been issued
  fin : Nat
  parts : Nat               -- parts begun and not ended
  status : Nat
  detail : Nat
  flags : Nat
  group : List Nat          -- module panels of the group, rising
  further : List (Nat × Nat) -- the entries of a SIGNAL's block, or a WAIT's further waits not yet watched: counter of the allocation, value
  slots : List (Nat × Nat)  -- the waits that its wait slots watch: global counter, threshold
  abandoned : Bool          -- its record is posted with TIMEOUT (R127) or TENANT_DISABLED (R332)
  winOk : Bool              -- it became ready before any CLEAR_WINDOW of its tenant's window (R329)
  windowed : Bool           -- it has resolved an address through the palette window (R329)
  args : List Byte          -- its argument block as read (R120)
  table : List Byte         -- the window table in force for a RUN with OVERRIDE (R121)
  aux : List Nat            -- what its engine keeps of it (the layer reached, the context served, the stripe)
  deriving DecidableEq, Repr

/-- One sequence number of a ring's replay window (R113): the original's record once it has been made, and the reposts owed. -/
structure WinEnt where
  record : Option CRec
  owed : Nat
  deriving DecidableEq, Repr

/-- A submission or serving ring (R321 to R323). HEAD, REASON, TAG_WAIT, ACTIVE and H are its registers. -/
structure Ring where
  tail : Nat
  fresh : Bool              -- no descriptor has been taken since the ring was enabled
  win : SMap WinEnt         -- by sequence number
  deriving DecidableEq, Repr

/-- A completion queue (R324 to R326). -/
structure Cq where
  posted : Nat              -- records written since enable
  due : List CRec           -- records due and not yet written, in posting order
  failed : Bool             -- the head record's write failed and waits for a retry
  holdoff : Bool            -- a raise happened and its hold-off has not ended
  raiseDue : Bool           -- a raise fell due inside the hold-off
  deriving DecidableEq, Repr

/-- A tenant's state of R316 and what the last check or disable left. -/
structure Tenant where
  state : Nat
  reason : Nat
  detail : Nat              -- HIF_TEN_DETAIL
  tdi : Nat                 -- 0 CONFIG_UNLOCKED, 1 CONFIG_LOCKED, 2 RUN, 3 ERROR (R336)
  quietFrom : Nat
  quiet : Nat               -- HIF_TEN_QUIET
  order : Nat               -- place of its ENABLE among the writes that reached the Host Interface (R44)
  held : Nat                -- sync counters held for it since its enable (R125)
  deriving DecidableEq, Repr

/-- A leaf entry of a tenant's space (R327). -/
structure Leaf where
  big : Bool                -- 2 MiB, else 64 KiB
  host : Bool               -- target HOST, else MODULE
  target : Nat
  rd : Bool
  wr : Bool
  bad : Bool                -- lost to an uncorrectable table word (R330 reason 5)
  deriving DecidableEq, Repr

/-- An MMU command in progress (R328, R329): 1 MAP, 2 UNMAP, 3 SET_WINDOW, 4 CLEAR_WINDOW. -/
structure MmuCmd where
  cmd : Nat
  tenant : Nat
  dva : Nat
  target : Nat
  count : Nat
  big : Bool
  host : Bool
  rd : Bool
  wr : Bool
  deriving DecidableEq, Repr

/-- A queued translation fault (R330, R346). -/
structure MmuFault where
  dva : Nat
  reason : Nat
  write : Bool
  tag : Nat
  opcode : Nat
  deriving DecidableEq, Repr

/-- Operations, rings, queues and counters. -/
structure OpsSt where
  ops : SMap Op               -- by tag
  gens : SMap Nat             -- 3-bit generation of each tag
  nextOrder : Nat
  rings : SMap Ring           -- by tenant * 64 + ring
  cqs : SMap Cq               -- by tenant * 64 + queue
  counters : SMap Nat         -- sync counters by global number, 0 to 262,143
  cpoison : SMap Bool         -- poisoned counters
  addLo : SMap Nat            -- the low half held for SYN_ADD_HI: 0 for the owner's page, t + 1 for tenant t's view
  deriving DecidableEq, Repr

/-- Tenants, the MMU and the PCIe function states (13). -/
structure HifSt where
  tenants : SMap Tenant
  leaves : SMap Leaf          -- by tenant * 2^32 + DVA / 64 KiB of the page's start
  window : SMap Nat           -- base DVA by tenant
  cmd : Option MmuCmd
  clearing : SMap Bool        -- tenants whose window a CLEAR_WINDOW is taking away
  faults : SMap (List MmuFault)
  linkUp : Bool
  mse : SMap Bool             -- Memory Space Enable by function
  bme : SMap Bool             -- Bus Master Enable by function
  d3 : SMap Bool              -- functions in D3hot
  vfEnable : Bool
  numVfs : Nat
  bars : SMap Nat             -- BAR addresses by function
  cfg : SMap Nat              -- other configuration words by function * 4096 + offset
  ide : SMap Nat              -- IDE streams: 1 secure, 2 insecure
  ideKeys : SMap Nat          -- key-set programmed by IDE_KM, by stream
  asserted : SMap Bool        -- pages whose event assertion stands (R326)
  drained : SMap Bool         -- QUIESCING pages whose last unit of work has ended (R33)
  enOrder : SMap Nat          -- place of each page's ENABLE among those writes (R44)
  orders : Nat                -- count of ENABLE writes that reached the Host Interface (R44)
  deriving DecidableEq, Repr

end Sys2Proof.Machine
end

