-- ==== Sys2Proof/Machine/StCad.lean ====
section
/-! DEFINITION. The plain-data types of the Cadence Unit, the voters and the Diptych port (07, 08). -/

namespace Sys2Proof.Machine

open Sys2Proof

/-- A reference channel (R145 to R147). Its count and its last edge's timestamp; the levels of A and B as accepted. -/
structure RefCh where
  count : Int                -- signed 64-bit
  edge : Nat                 -- timestamp of the last counted edge
  a : Bool
  b : Bool
  indexRef : Option Int      -- index reference count
  frozen : Bool              -- a COUNTER error froze the count (R171)
  los : Nat                  -- lines with loss of signal: bit 0 A, 1 B, 2 Z
  deriving DecidableEq, Repr

/-- An entry of an event point table (R154). -/
structure Ept where
  d0 : Nat
  d1 : Nat
  d2 : Nat
  d3 : Nat
  deriving DecidableEq, Repr

/-- A filled slot of a cadence ring (R157): the descriptor's 64 bytes, the instance and the template. -/
structure RingSlot where
  bytes : List Byte
  n : Nat
  t : Nat
  deriving DecidableEq, Repr

/-- What has come of an instance's result (R163 to R165, R188). -/
structure CadInst where
  word : Option Nat          -- OUTPUT_WORD of an available result not yet driven
  due : Bool                 -- its DEADLINE has fired
  missAt : Option Nat        -- when its DEADLINE fired with no result, until that 10 ns evaluation is over (R165)
  passed : Bool              -- its DEADLINE fired, or the RESULT SUBMIT was passed over, while the module did not serve it (R186, R187)
  driven : Bool              -- its result has been driven or counted as held
  ended : Bool               -- its RESULT RUN has ended, on every channel
  snap : Bool                -- its SNAPSHOT has fired and is not yet sent
  chan : Option Nat          -- the lowest channel of its majority, once it has a result
  deriving DecidableEq, Repr

/-- A cadence domain's tracker, tables, ring and results (R148 to R165). Positions are unwrapped: a register shows their low 64 bits. -/
structure Dom where
  origin : Option Int        -- origin count; none while AT_INDEX waits for its edge
  p : Int                    -- predicted position at the last update, in 2^-32 cycle
  v : Int                    -- speed in 2^-48 cycle per ns
  k : Nat
  tLast : Nat
  mLast : Int
  measured : Bool
  pend : Option (Nat × Int)  -- last counted edge of the current tick: timestamp and measured position
  h : Int                    -- high-water mark H
  nextPos : Int              -- instances at or after (nextPos, nextKey) have not fired
  nextKey : Nat
  clearN : Nat               -- consecutive good updates since SLIP
  revBelow : Bool            -- the predicted position was more than REV_LIMIT below H
  skips : List (Nat × Option Nat) -- instances skipped under SKIP_CYCLE, as ranges
  holdEnd : Option Int       -- position at which HOLD_OUTPUTS ends, once SLIP has cleared
  shadow : SMap Ept          -- the shadow bank; an unlisted entry is zero
  active : SMap Ept          -- the active bank
  old : Option (SMap Ept)    -- the old bank while it serves instances below n0
  n0 : Nat                   -- the active bank serves instances from n0 on
  lo : Nat                   -- the old bank serves instances from lo to n0 − 1
  marks : List (Nat × Nat × Nat) -- mark queue: firing time, entry index, instance
  ring : List RingSlot
  offered : Bool             -- the first slot is offered to acceptance
  inst : SMap CadInst
  lastN : Int                -- latest instance whose result has been driven, −1 for none
  lastWord : Nat             -- last driven OUTPUT_WORD
  recov : SMap Nat           -- source channel by recovering channel (R178)
  retired : Option (Nat × Nat) -- cycle and channel of the last proactive panel retirement (R97)
  deriving DecidableEq, Repr

/-- A snapshot received whole (R188, R189). -/
structure Snap where
  n : Nat
  data : List Byte
  deriving DecidableEq, Repr

/-- A frame of the Diptych port, of at most one 4 KiB receive buffer of the peer (R191). -/
structure DipFrame where
  seq : Nat                  -- link sequence number, once it is on the link
  kind : Nat                 -- 1 pairing, 2 heartbeat, 3 a snapshot's header, 4 a piece of a snapshot
  words : List Nat
  bytes : List Byte
  deriving DecidableEq, Repr

/-- The Diptych pair (R183 to R191). ROLE, LINK and the flags are registers. -/
structure DipSt where
  misses : Nat               -- consecutive missed windows
  heardActive : Nat          -- when the last ACTIVE heartbeat was heard
  peerP : Nat                -- P the peer last announced, in µs
  peerRole : Nat
  peerWord : SMap Nat        -- the peer's last driven OUTPUT_WORD by domain
  peerDone : Bool            -- the peer has been heard ACTIVE once (alignment is due)
  hand : Option Nat          -- instance m of a hand-over in progress
  handAck : Bool
  snaps : SMap Snap          -- last complete snapshot by domain, not yet applied or compared
  held : SMap Nat            -- domains with a complete snapshot, with its instance
  sending : Option (Nat × Nat) -- domain and instance of the snapshot in transit
  waiting : Option (Nat × Nat)
  txSeq : Nat
  rxSeq : Nat
  unacked : List DipFrame    -- frames kept for replay, oldest first
  queue : List DipFrame      -- frames that wait for a credit
  lastSnap : SMap Nat        -- the instance of the last snapshot sent or applied, by domain
  replays : Nat
  keyed : Bool               -- a pair key is installed (R414)
  deriving DecidableEq, Repr

/-- Cadence and Varnish. -/
structure CadSt where
  refs : SMap RefCh
  doms : SMap Dom
  dip : DipSt
  pulses : SMap Nat          -- when the pulse on a trigger output ends (R155)
  deriving DecidableEq, Repr

end Sys2Proof.Machine
end

