-- ==== Sys2Proof/Machine/StIng.lean ====
section
/-! DEFINITION. The plain-data types of the Ingest Unit and of the management controller (15). -/

namespace Sys2Proof.Machine

open Sys2Proof

/-- A frame in progress (R383): the words 0x204 to 0x244 it runs under, the bytes that have arrived by their offset in rows of WIDTH
pixels, and which bounds data has gone beyond. -/
structure IngFrame where
  num : Nat
  cfg : List Nat
  inst : Option Nat          -- the instance it belongs to (R159)
  first : Nat                -- PTP time of its first packet
  seen : Nat                 -- instant of its last accepted packet
  row : Nat                  -- bytes of a line as its leader gives them
  data : SMap Byte
  overX : Bool
  overY : Bool
  hurt : List Nat            -- offsets of bytes written poisoned (R285)
  deriving DecidableEq, Repr

/-- A packet in an RTP reorder window. -/
structure IngPkt where
  ts : Nat
  marker : Bool
  payload : List Byte
  pts : Nat
  inst : Option Nat
  bufs : Nat
  deriving DecidableEq, Repr

/-- An access unit in assembly (R381). -/
structure IngAu where
  ts : Nat
  pts : Nat
  inst : Option Nat
  bytes : List Byte
  loss : Nat
  bufs : Nat
  deriving DecidableEq, Repr

/-- A stream (R379 to R384). Its registers, status and counts are registers of its window. -/
structure Stream where
  cfg : Option (List Nat)            -- the words 0x204 to 0x244 in force, none while it is not enabled
  next : Option (Option (List Nat))  -- what waits for the frame boundary: a commit's words, or a disable
  frames : List IngFrame             -- in the order they began
  ended : Option Nat                 -- number of the latest frame that has ended
  k : Nat                            -- frames delivered under the words in force
  last : Option (SMap Byte)          -- the last complete frame
  seq : Option Nat                   -- RTP sequence number expected next
  win : List (Nat × IngPkt)
  au : Option IngAu
  loss : Nat                         -- losses met before the access unit they fall in has begun
  aus : List (List Byte × Nat × Nat) -- access units in the buffer that no context has taken: bytes, PTS, losses
  wr : Nat                           -- bytes written to the buffer
  hurt : Bool                        -- an uncorrectable buffer word: the next packet's data is written poisoned
  deriving DecidableEq, Repr

/-- The PTP clock (R378): its master (source, rank) and the last sync exchange: origin, arrival, and the delay request's departure. -/
structure PtpClk where
  master : Option (Nat × Nat)
  t1 : Option Nat
  t2 : Nat
  t3 : Option Nat
  deriving DecidableEq, Repr

structure IngSt where
  streams : SMap Stream
  trig : SMap Nat            -- instance last fired by (domain * 16 + output)
  marks : SMap Nat           -- SHORT_FRAME and LONG_FRAME by domain * 2^28 + instance
  ptp : PtpClk
  deriving DecidableEq, Repr

/-- A PLDM firmware update in progress (R389, R303): the image bytes received so far and whether Fresco could not program a block. -/
structure FwUpdate where
  image : List Byte
  failed : Bool
  complete : Bool            -- TransferComplete has been answered without error
  deriving DecidableEq, Repr

/-- The management controller. -/
structure MgtSt where
  sensors : SMap Int         -- readings by index of R390
  lost : SMap Bool           -- sensors that have stopped answering
  tid : Nat                  -- PLDM terminus ID
  receiver : Option Nat      -- the event receiver's endpoint
  update : Option FwUpdate
  deriving DecidableEq, Repr

end Sys2Proof.Machine
end

