-- ==== Sys2Proof/Machine/StMem.lean ====
section
/-! DEFINITION. The plain-data types of the stores: module memory, palettes, panel stores, host memory, Fresco (12, 04). -/

namespace Sys2Proof.Machine

open Sys2Proof

/-- A bank hand-over in progress (R290): the owner and guest to come, and whether only the guest changes. -/
structure Handover where
  owner : Nat
  guest : Nat
  guestOnly : Bool
  reclaim : Bool            -- started by a tenant disable (R293)
  deriving DecidableEq, Repr

/-- A march test in progress (R300). -/
structure March where
  base : Nat
  frames : Nat
  destructive : Bool
  retire : Bool
  deriving DecidableEq, Repr

/-- A Fresco command read from the ring and not yet finished or written back (R305). -/
structure FrsCmd where
  slot : Nat
  op : Nat
  part : Nat
  blocks : Nat
  lba : Nat
  addr : Nat
  done : Bool               -- finished; its slot is not yet written (in transit)
  status : Nat
  detail : Nat
  deriving DecidableEq, Repr

/-- The stores. -/
structure MemSt where
  mem : List Host.Cell        -- module memory by module address (R282); an unlisted byte is 0 (R299, R292)
  poison : SMap Bool          -- poisoned 64-bit words of module memory by address / 8 (R285)
  pal : List Host.Cell        -- palettes by module panel * 2^23 + palette address (R78)
  palPoison : SMap Bool       -- poisoned palette words by module panel * 2^20 + word
  palBefore : SMap Byte       -- what palette bytes held that a drain port has written while a step of the panel runs (R79), by address as in pal
  stores : List Host.Cell     -- instruction, schedule and step stores by module panel * 2^22 + offset
  host : List Host.Cell       -- host memory by bus address, as its completions have shown it (log entry 5)
  hostErr : SMap Bool         -- 64-byte lines whose reads end in an error (R314)
  hostPoison : SMap Bool      -- 64-byte lines whose completions are marked poisoned
  fot : SMap Nat              -- frame owner table: KIND + 16 * TENANT by frame; Loft frames from 0x40000
  retired : SMap Nat          -- reserve piece by retired piece (4 KiB pieces by module address / 4096)
  pieceCe : SMap Nat          -- corrected errors per piece since the last pass
  badDue : SMap Bool          -- frames to become BAD once FREE (R298)
  repairs : SMap Bool         -- weight blocks under repair, by module address / 64 KiB (R297)
  patrol : SMap Nat           -- next word of each tier's scrubber: 0 Studio, 1 HBM, 2 Loft
  hand : SMap Handover        -- by bank
  march : SMap March          -- by tier
  retireDue : SMap Bool       -- pieces (module address / 4096) due for retirement (R298)
  pprDone : SMap Nat          -- post-package repairs by stack since manufacture
  badFrames : SMap Bool       -- frames recorded BAD in the spare map
  flash : List Host.Cell      -- Fresco contents by partition * 2^43 + byte offset; an unlisted byte reads 0 (R306)
  flashBad : SMap Bool        -- blocks that end MEDIA_ERROR, by partition * 2^31 + LBA
  frsCmds : List FrsCmd       -- commands held, oldest first
  buffered : List Nat         -- blocks held in the controller's write buffer of 32 MiB (R306), oldest first
  layout : SMap Nat           -- the words of partitions 5 to 15 as Fresco keeps them (R304)
  deriving DecidableEq, Repr

end Sys2Proof.Machine
end

