-- ==== Sys2Proof/Machine/StMur.lean ====
section
/-! DEFINITION. The plain-data types of the Mural fabric (14). -/

namespace Sys2Proof.Machine

open Sys2Proof

/-- A packet within the module: its bytes on the wire (R358), where it came from, and its route once it has been looked up. -/
structure MPkt where
  bytes : List Byte
  inPort : Option Nat        -- the port it arrived by; none for one of the module's own
  flits : Nat                -- receive buffers it holds
  route : Option Nat         -- its route table entry (R364)
  epoch : Nat                -- epoch under which it was looked up
  deriving DecidableEq, Repr

/-- A data flit to be sent (R349): its VC, its 58 bytes, the tracking entry of the module's own request it is part of, and, on the
last flit of a packet, the packet. -/
structure TxFlit where
  vc : Nat
  pay : List Byte
  entry : Option Nat
  last : Option MPkt
  deriving DecidableEq, Repr

/-- A flit in the replay buffer (R353). -/
structure SentFlit where
  seq : Nat
  flit : TxFlit
  first : Nat                -- instant of its first sending
  replays : Nat
  deriving DecidableEq, Repr

/-- What a control flit carries (R352): ACK and NAK, where their VALID bits are set, and the counts of VC0 to VC2. -/
structure CtlFlit where
  ack : Option Nat
  nak : Option Nat
  counts : List Nat
  deriving DecidableEq, Repr

/-- A flit received, descrambled: a data flit, or a control flit with what it carries. -/
inductive RxFlit where
  | data (bytes : List Byte)
  | control (bytes : List Byte) (c : CtlFlit)
  deriving DecidableEq, Repr

/-- A port (R351 to R357). Its registers hold its power state, link state and counters. -/
structure MPort where
  lock : Nat                 -- 0 hunting, 1 in the CRC gate, 2 locked
  off : Nat                  -- 64-bit offset of the frame boundary in use
  count : Nat                -- frames counted: gate frames, or misses
  cand : SMap Nat            -- while it hunts: frames in a row with the sync word, by offset
  gate : List RxFlit         -- flits of the CRC gate's frames, delivered when it passes
  rxSeq : Nat                -- SEQ expected
  rxAny : Bool               -- a data flit has been delivered since UP
  nak : Bool                 -- a NAK of rxSeq has been sent and no replay has begun
  part : SMap (List Byte)    -- bytes of a packet partly received, by VC
  partN : SMap Nat           -- its flits
  freed : SMap Nat           -- cumulative receive buffers freed, by VC
  txSeq : Nat
  queue : List TxFlit
  sent : List SentFlit       -- unacknowledged, oldest first
  seen : SMap Nat            -- the peer's last cumulative counts, by VC
  credit : SMap Nat          -- credits held, by VC
  trans : Option Nat         -- target of the supply change in progress
  heldTarget : Option Nat
  downWait : Bool            -- the link-down timeout runs
  scr : Nat                  -- the last 58 scrambled flit bits sent, the latest in bit 0 (R350)
  dscr : Nat                 -- the last 58 flit bits received
  deriving DecidableEq, Repr

/-- A tracked request (R363). -/
structure MReq where
  tag : Nat
  slot : Nat
  member : Nat
  kind : Nat                 -- TYPE of the request: 0 WRITE, 1 READ_REQ, 4 SIGNAL, 6 EC_CONTRIB
  gen : Nat
  hop : Nat                  -- first-hop port
  dva : Nat                  -- where a response's data goes; for a contribution, its stripe
  len : Nat
  src : Nat                  -- for a rebuild, which source of its unit
  deriving DecidableEq, Repr

/-- A COPY with a Mural address or an erasure operation in flight. -/
structure MOp where
  kind : Nat                 -- 0 COPY to, 1 COPY from, 2 EC_ENCODE, 3 EC_REBUILD
  slot : Nat
  next : Nat                 -- next piece to send
  total : Nat
  out : Nat                  -- requests outstanding
  poison : Bool
  fail : Option (Nat × Nat)
  signal : Nat               -- 0 not sent, 1 sent, 2 acknowledged
  stage : Nat                -- EC_REBUILD: the unit being gathered
  gather : SMap (List Byte)
  deriving DecidableEq, Repr

/-- A job slot (R359 to R363). Its registers hold its configuration. -/
structure MJob where
  isOpen : Bool
  key : Option (List Byte)
  ctr : Nat                  -- the 80-bit transmit counter
  acc : SMap (List Nat)      -- counters accepted within the window, by source module ID
  members : SMap Nat         -- ID + 4,096 × STATE, by index
  epoch : Option Nat         -- the last EPOCH this member started
  deriving DecidableEq, Repr

/-- The Mural fabric. -/
structure MurSt where
  ports : SMap MPort
  arrived : List MPkt        -- packets to be looked up, or waiting for a usable port
  inbox : List MPkt          -- packets delivered to this module's engines
  reqs : SMap MReq           -- by tracking entry
  gens : SMap Nat            -- 3-bit generation of each entry
  ops : SMap MOp             -- by tag
  jobs : SMap MJob
  rtShadow : SMap Nat        -- route entries by module ID
  rtActive : SMap Nat
  deriving DecidableEq, Repr

end Sys2Proof.Machine
end

