-- ==== Sys2Proof/Machine/StPanel.lean ====
section
/-! DEFINITION. The plain-data types of panels, canvases and resident cartoons (04, 05). -/

namespace Sys2Proof.Machine

open Sys2Proof

/-- A cartoon resident on a panel for a tenant (R107, R108): its group index at loading, the verified copy of its image, its
placements and the stale mark. -/
structure Cart where
  g : Nat
  image : List Byte
  instrBase : Nat
  schedBase : Nat
  stepBase : Nat
  stale : Bool
  deriving DecidableEq, Repr

/-- What has come of one stream port's binding on a panel (PNL_PORT, R104): the binding's 32 bytes, the operation and step it
belongs to, the far side (a buffer address, or the peer's module panel), 64-byte units moved and to move, credits granted. -/
structure Port where
  state : Nat                -- 0 IDLE, 1 FILLING, 2 FULL, 3 DRAINING
  tag : Nat
  step : Nat
  bind : List Byte
  far : Nat
  units : Nat
  need : Nat
  granted : Nat
  deriving DecidableEq, Repr

/-- An operation's work on one panel, in the order the panel received it (R116). -/
structure Work where
  tag : Nat
  tenant : Nat
  kind : Nat                 -- 0 RUN, 1 ATTEND
  g : Nat                    -- group index of this panel
  image : List Byte          -- the cartoon it runs
  entry : Nat                -- directory entry of the image that this panel runs
  step : Nat                 -- next step, or the one that runs
  steps : Nat
  running : Bool
  done : Bool                -- its last step has ended; outbound bindings drain
  endWith : Nat              -- a status it takes at the next boundary, 0 none
  deriving DecidableEq, Repr

/-- A core position that leaves service at the next step boundary (R93). -/
structure CoreOut where
  phys : Nat
  commanded : Bool           -- PNL_RETIRE, not WEAR or a fence
  proactive : Bool           -- a retirement, not a fence
  deriving DecidableEq, Repr

/-- A module panel, kept by its logical number (R11). -/
structure Panel where
  work : List Work
  ports : SMap Port          -- the inbound binding of SPn under n, its outbound ones, oldest first, under n + 4, n + 8, …
  coreMap : SMap Nat         -- physical position by logical core; an unlisted core is at its own number
  freeSpares : List Nat      -- free spare positions, rising
  coreOut : List CoreOut
  quantumOut : Bool          -- the resident tenant's quantum has run out (R128)
  withdrawn : SMap Nat       -- credits of each client withdrawn whose data has not arrived (R86)
  substing : Bool            -- a panel substitution runs (R95)
  moving : Option Nat        -- a palette move runs: the tenant that comes in (R98, R129)
  retiredIn : Option Nat     -- the RUN during which a core was retired proactively (R162)
  clocked : Nat              -- changes of ACTUAL during the RUN in progress (R161)
  onSpare : Bool             -- the canvas spare serves it
  lost : Bool
  dead : Bool                -- the panel that was fenced has lost power or clock
  slow : Nat                 -- DVFS points by which the throttle lowers its clock (R451)
  deriving DecidableEq, Repr

/-- The state of a SHARED panel that a save slot holds (R98): palette, poison and store bytes by offset within the panel. -/
structure Saved where
  pal : List Host.Cell
  poison : SMap Bool
  stores : List Host.Cell
  ports : SMap Port          -- the progress of its bindings (R129)
  tag : List Byte            -- the AES-256-GCM tag under which it was saved
  lost : Bool                -- a word of it was poisoned in the save area, so that its tag fails (R287)
  deriving DecidableEq, Repr

/-- A flit on its way (R90). -/
structure Flit where
  src : Nat
  dest : Nat
  seq : Nat                  -- its place among the flits of its source, destination and virtual channel
  poisoned : Bool
  deriving DecidableEq, Repr

/-- A canvas (R76, R91, R95). -/
structure Canvas where
  spare : Nat                -- CNV_SPARE.STATE while PQ7 is on: 0 AVAILABLE, 1 IN_USE, 2 FAILED
  serving : Nat
  moves : Nat                -- palette moves in progress (R98)
  retire : List Nat          -- local panels requested by CNV_RETIRE
  mesh : SMap (List Flit)    -- flits in the buffers of a link, oldest first, by (stop * 4 + incoming direction) * 4 + virtual channel (R90, R91)
  d2d : SMap (List Flit)     -- flits in the canvas-side buffers of a die-to-die port, by port * 4 + virtual channel
  sent : SMap Nat            -- flits sent, by (source * 64 + destination) * 4 + virtual channel
  turn : SMap Bool           -- links whose next flit of VC0 and VC1 is VC1's
  deriving DecidableEq, Repr

/-- Panels, canvases and cartoons. -/
structure PanSt where
  panels : SMap Panel        -- by module panel
  canvases : SMap Canvas
  carts : SMap Cart          -- by (panel * 64 + tenant) * 65,536 + CARTOON_ID
  saved : SMap Saved         -- by panel * 64 + tenant
  deriving DecidableEq, Repr

end Sys2Proof.Machine
end

