-- ==== Sys2Proof/Machine/StSec.lean ====
section
/-! DEFINITION. The plain-data types of the security block (16): fuses, keys of the Reserve, loads, SPDM sessions. -/

namespace Sys2Proof.Machine

open Sys2Proof

/-- A secured SPDM session (R402): open from KEY_EXCHANGE, established by FINISH; how often its keys have been refreshed. -/
structure Session where
  established : Bool
  keyGen : Nat
  heard : Nat
  deriving DecidableEq, Repr

/-- The security block. Lifecycle and debug state, wipe counts and firmware slots are its registers. -/
structure SecSt where
  arb : SMap Nat             -- anti-rollback counters (fused)
  wiped : Bool               -- a wipe with no keys afterwards has happened since module reset (R419)
  trngFail : Bool            -- the noise source's health tests fail (R398)
  load : Option Nat          -- weight region slot whose load runs (R409)
  keys : SMap (List Byte)    -- content key by region; the residence key is drawn with it
  claim : SMap Nat           -- first frame of the run that a region holds (R409)
  fw : SMap Nat              -- what a firmware slot holds: 0 its image of manufacture, 1 an update's image in Fresco, 2 nothing valid (R303)
  tagBad : SMap Bool         -- weight blocks that fail their tag at use, by module address / 64 KiB (R410)
  sessions : SMap Session
  nonces : SMap Nat          -- nonce of the last LOCK response, by TDI (R405)
  bound : SMap Nat           -- selective IDE stream bound by LOCK, by TDI
  noUpdate : SMap Bool       -- NO_FW_UPDATE of the last LOCK, by TDI
  stopDue : SMap Bool        -- TDIs whose STOP response waits for OFF
  deriving DecidableEq, Repr

end Sys2Proof.Machine
end

