-- ==== Sys2Proof/Machine/StServe.lean ====
section
/-! DEFINITION. The plain-data types of serving, the Sampler and the Glaze Unit (09, 10). -/

namespace Sys2Proof.Machine

open Sys2Proof

/-- An accepted request command (R197), its fields read from the 64 bytes of its slot. -/
structure Req where
  tenant : Nat
  ring : Nat
  cq : Nat
  cmd : Nat
  prio : Nat
  intr : Bool
  seq : Nat                  -- SEQUENCE
  arg : Nat
  handle : Nat
  plan : Nat
  tring : Nat
  domain : Nat
  cflags : Nat
  ttl : Nat
  timeout : Nat
  start : Nat
  deriving DecidableEq, Repr

/-- A GENERATE in progress. -/
structure GenJob where
  req : Req
  maxNew : Nat
  noPublish : Bool
  sampling : List Byte       -- the sampling block (R217)
  made : Nat                 -- tokens committed
  todo : List Nat            -- tokens to append, from the sequence's length on
  decoding : Bool            -- prefill is done
  base : Nat                 -- the length before the step in flight
  step : Option Nat          -- the step in flight
  take : Nat                 -- rows it has in that step
  sampled : Bool             -- one of them has SAMPLE set
  ovf : Bool
  timedOut : Bool
  order : Nat                -- order of acceptance
  deriving DecidableEq, Repr

/-- A page-table entry of a sequence (R231). -/
structure Blk where
  set : Nat
  loft : Bool
  shared : Bool
  evicted : Bool
  poisoned : Bool
  score : Nat                -- binary32
  deriving DecidableEq, Repr

/-- A sequence that is not FREE (R195, R196). STATE as GLZ_T_SEQ codes it: 1 IDLE, 2 GENERATING, 3 PAUSING, 4 PARKING, 5 PARKED,
6 EXPIRED, 7 CLOSING, 8 FAILED. -/
structure Seq where
  tenant : Nat
  hosted : Bool
  state : Nat
  plan : Nat
  domain : Nat               -- PREFIX_DOMAIN
  geo : Option Nat           -- the geometry it is bound to
  lens : SMap Nat            -- appended length by layer (R234)
  last : Option (Nat × Nat)  -- the last committed token and its position: the pending input while its position is not appended
  hist : List Nat            -- the last 4,096 committed tokens, oldest first
  toks : SMap Nat            -- known tokens by position
  hashes : SMap (List Nat)   -- by block: hash, check, epoch
  blocks : SMap Blk          -- page table by block
  leaves : List Nat          -- root entries that are VALID
  mark : Bool                -- the cancel mark
  pause : Option Req         -- a PAUSE not yet answered
  parkTtl : Option Nat       -- pages are to move to the Loft for this many seconds
  close : Option Req         -- the CLOSE not yet answered
  job : Option GenJob
  row : Option Nat           -- the sampling job that holds a row of it
  expiry : Option Nat        -- time at which a PARKED sequence expires
  lastGen : Option (Nat × Nat × Nat) -- queue, ring and SEQUENCE of its last ended GENERATE
  deriving DecidableEq, Repr

/-- A page set that is allocated (R228). -/
structure PSet where
  charged : Option Nat       -- the tenant it is charged to
  poisoned : Bool
  refs : Nat                 -- page tables that link it
  named : Bool               -- a prefix entry names it
  readers : List Nat         -- tags of the ATTENDs in flight with a descriptor for it
  scaled : List Nat          -- layers whose page scales are written
  deriving DecidableEq, Repr

/-- A prefix-table entry (R212), by set × 8 + way. -/
structure PEnt where
  tag : Nat
  check : Nat
  set : Nat
  domain : Nat
  epoch : Nat
  plan : Nat
  age : Nat
  deriving DecidableEq, Repr

/-- A shared prefix domain (R215). -/
structure SDom where
  key : Nat
  epoch : Nat
  valid : Bool
  members : Nat
  deriving DecidableEq, Repr

/-- A row of a batch step (R203). -/
structure StepRow where
  slot : Nat
  handle : Nat
  tok : Nat
  pos : Nat
  sample : Bool
  first : Bool
  deriving DecidableEq, Repr

/-- A batch step in flight. -/
structure Step where
  tenant : Nat
  plan : Nat
  k : Nat
  rows : List StepRow
  fail : Option (Nat × Nat)  -- first failing status and its opcode
  tries : Nat                -- reissues made
  sampled : Bool             -- its SAMPLE has been issued, or it has none
  settled : Bool             -- its operations have ended and its rows without SAMPLE have advanced
  deriving DecidableEq, Repr

/-- One row of a SAMPLE. -/
structure SRow where
  slot : Nat
  handle : Nat
  block : List Byte          -- the sampling block
  logits : Nat               -- address of its logits
  ring : Nat                 -- the token ring that holds its slot
  deriving DecidableEq, Repr

/-- What the Sampler decided for a row: no candidate, a token with its LOGPROB, or a status that ends it. -/
inductive Pick where
  | noCand
  | tok (id logprob : Nat)
  | err (status detail : Nat)
  deriving DecidableEq, Repr

/-- A SAMPLE in the Sampler: of an operation (its tag) or of a batch step. -/
structure SampJob where
  tenant : Nat
  tag : Option Nat
  step : Option Nat
  vocab : Nat
  b32 : Bool                 -- logits are binary32, else bfloat16
  rows : List SRow
  next : Nat                 -- the row being decided or committed
  pick : Option Pick
  committed : Nat
  dropped : Nat
  fail : Option (Nat × Nat)
  deriving DecidableEq, Repr

/-- A row of a GLAZE_APPEND or ATTEND (R233). -/
structure GRow where
  slot : Nat
  pos : Nat
  deriving DecidableEq, Repr

/-- A page descriptor (R237). -/
structure PDesc where
  addr : Nat
  key : Nat                  -- TIER × 2^24 + SET
  poisoned : Bool
  block : Nat
  row : Nat
  first : Nat
  lastKeep : Nat
  deriving DecidableEq, Repr

/-- An ATTEND in flight. -/
structure Att where
  rows : List GRow
  descs : List PDesc
  layer : Nat                -- layers completed
  doneOn : List Nat          -- group indices that have run the next layer
  mass : SMap Nat            -- M_b so far, binary32, by row × 32,768 + block
  poisonRow : Option Nat
  deriving DecidableEq, Repr

/-- A GLAZE_MOVE in progress (R244), by the slot of its sequence. -/
structure SeqMove where
  toLoft : Bool
  dests : List (Nat × Nat)   -- a block and the destination set allocated for it
  tag : Option Nat           -- the operation that asked for it, or Easel firmware's own
  ttl : Nat                  -- TTL_S, for a move to the Loft
  deriving DecidableEq, Repr

/-- Serving, the Sampler and the Glaze Unit. -/
structure SrvSt where
  seqs : SMap Seq            -- by slot
  gens : SMap Nat            -- generation of each slot
  reqs : SMap Req            -- accepted request commands not yet acted on, by order
  orders : Nat
  plans : SMap (List Byte)   -- by tenant × 4 + plan
  stepNo : SMap Nat          -- the next k, by tenant × 4 + plan
  steps : SMap Step          -- by (tenant × 4 + plan) × 2^48 + k
  done : List (Nat × CRec)   -- ended operations of Easel firmware, with their step
  jobs : SMap SampJob        -- by tag, or 8,192 + step
  privKeys : SMap Nat        -- private prefix keys by tenant
  doms : SMap SDom
  prefixes : SMap PEnt
  sets : SMap PSet           -- by TIER × 2^24 + SET
  apps : SMap (List GRow)    -- rows of GLAZE_APPENDs in flight, by tag
  atts : SMap Att            -- by tag
  moves : SMap SeqMove       -- by slot
  slotsHeld : SMap Nat       -- token slots held, by tenant × 16 + ring
  slotsUsed : SMap Nat       -- entries written and not released
  written : SMap Nat         -- entries written since the page entered RUNNING
  deriving DecidableEq, Repr

end Sys2Proof.Machine
end

