-- ==== Sys2Proof/Machine/StVce.lean ====
section
/-! DEFINITION. The plain-data types of the Video Codec Engines (11). -/

namespace Sys2Proof.Machine

open Sys2Proof

/-- A picture decoded by a context: where its samples come from (the history's length at its unit, its place in the unit) and
what its frame record says of it. -/
structure VPic where
  num : Nat                  -- pictures decoded before it since OPEN
  len : Nat                  -- units of the history up to and with its own
  idx : Nat
  pts : Nat
  damaged : Bool
  tainted : Bool
  conceal : Nat              -- 64 × 64 blocks concealed
  w : Nat
  h : Nat
  deep : Bool                -- 10-bit samples, else 8-bit
  mono : Bool
  grain : Bool
  matrix : Nat               -- matrix_coefficients of its stream
  full : Bool                -- full range
  deriving DecidableEq, Repr

/-- A unit of work of a context, in dispatch order: an access or temporal unit, a FLUSH, or an ENCODE. -/
structure VUnit where
  tag : Option Nat           -- the operation, none for a unit that Ingest delivered
  flush : Bool
  bytes : List Byte          -- the unit Ingest delivered; the argument block of an operation
  params : List Byte         -- ENCODE: the parameter block in force at its dispatch
  pts : Nat
  loss : Nat                 -- losses Ingest reported within the unit
  order : Nat
  deriving DecidableEq, Repr

/-- A stream context (R251). -/
structure VCtx where
  tenant : Nat
  enc : Bool
  state : Nat                -- 1 OPEN, 2 STALLED, 3 FLUSHING, 4 CLOSING, 5 FAILED
  params : List Byte
  since : Nat                -- order at which its present front unit became the front
  units : List VUnit
  hist : List (Nat × List Byte) -- units decoded, with their losses; frames coded, with their forced keys
  decoded : List VPic        -- latest first
  held : List Nat            -- numbers of pictures decoded and not yet output
  taint : List Nat           -- pictures that were concealed or are tainted since the last random-access point
  dropping : Bool            -- DROP_UNTIL_KEY waits for a random-access point
  outs : Nat                 -- frames output, or coded
  concealed : Nat
  dropped : Nat
  w : Nat
  h : Nat
  lastBytes : Nat
  closeTag : Option Nat      -- the CLOSE that waits for the context to be FREE
  reclaimed : Bool           -- closed by a tenant disable
  sinceKey : Nat             -- frames coded from the last key frame on
  forceKey : Bool            -- the next frame is a key frame (R278)
  lt : List Nat              -- occupied long-term slots
  mvs : List (Option (Nat × Int × Int)) -- the last frame's final vectors, block by block: reference, x, y (R272)
  written : Nat              -- bytes written to the bitstream ring
  records : Nat              -- slice records written
  deriving DecidableEq, Repr

/-- The frame in a pipeline. -/
structure VRun where
  ctx : Nat
  gen : Nat
  unit : VUnit
  hurt : Nat                 -- uncorrectable words it has met (R261, R278)
  slices : Nat               -- slices emitted
  sent : Nat                 -- bytes emitted
  key : Bool
  deriving DecidableEq, Repr

/-- Both engines; contexts by engine × 256 + number. -/
structure VceSt where
  ctxs : SMap VCtx
  gens : SMap Nat
  dec : SMap VRun            -- by engine
  enc : SMap VRun
  load : SMap Nat            -- luma samples by (engine × 2 + pipeline) × 2^40 + second of the timebase
  orders : Nat
  deriving DecidableEq, Repr

end Sys2Proof.Machine
end

