-- ==== Sys2Proof/Machine/State.lean ====
section
/-! DEFINITION. The state of the block: every piece of state the spec gives the module, as plain data, and the state after reset. -/

namespace Sys2Proof.Machine

open Sys2Proof

/-- Why a step stops with a fault. No command of this block does: the module answers every command with a next state, so
the type has no constructor anything raises. -/
inductive Fault where
  /-- Raised by no command; kept so that the type is inhabited (safe). -/
  | none
  deriving DecidableEq, Repr

/-- Why a step is refused. -/
inductive Refusal where
  /-- Raised by an arm of exec whose command has no meaning yet (safe). -/
  | notModelled (mnemonic : String)
  deriving DecidableEq, Repr

/-- The state of the module. -/
structure State where
  pending : List Instr      -- commands waiting, first in first out
  free : Nat                -- the free-value counter (log entry 1)
  time : Nat                -- the device timebase in ns (R47)
  regs : SMap Word          -- registers that differ from their reset value, by page * 1024 + word
  wide : SMap Nat           -- 64-bit values behind LO/HI register pairs, by the LO register's page * 1024 + word
  rsv : SMap Bool           -- registers whose last write put a non-zero value into a reserved field (R37)
  ledgers : SMap Ledger     -- ledgers that differ from their state at reset, by page * 8 + INDEX
  out : List Out            -- what the module has sent, oldest first (log entry 4)
  reply : Nat               -- the value the last read command returned (log entry 4)
  flt : FltSt
  pow : PowSt
  ops : OpsSt
  hif : HifSt
  mem : MemSt
  pan : PanSt
  cad : CadSt
  srv : SrvSt
  vce : VceSt
  mur : MurSt
  ing : IngSt
  mgt : MgtSt
  sec : SecSt
  deriving DecidableEq, Repr

/-- The module at configuration ready (R463) of a part with the factory spare map, the first instant at which it answers the
host (log entry 2): every register at its reset value, nothing stored, nothing waiting; the EAS page (page 0x130) is RUNNING with
ENABLE 1 and L2_RUNNING 1, since the firmware runs (R463), and HIF_LINK shows a link of 16 lanes at 64 GT/s (log entry 2). -/
def State.reset : State where
  pending := []
  free := 0
  time := 0
  regs := [(65600, 0x10506#32), (311298, 1#32), (311299, 3#32), (311360, 0x110#32)]
  wide := []
  rsv := []
  ledgers := []
  out := []
  reply := 0
  flt := { recs := [], queue := [], beside := [], log := [], spare := [], spareSeq := 0, ce := [], ceOver := 0, lostDue := 0, lastErr := [], window := 0,
           wire := [], baseline := [], otherUe := [], rcv := [], fatal := [], refFailed := [], powerOns := 1 }
  pow := { phase := .ready, perst := false, pd := none, uncleared := [], envOk := true, fwSigned := true, noFatal := true, resetDue := false,
           skip := 16, stage := 0, lowSince := none, calmSince := none, outSince := none, failing := false, overVolt := false, therm := [], hbmFast := false, hotSince := none, flowLow := false,
           moist := false, fwFail := false }
  ops := { ops := [], gens := [], nextOrder := 0, rings := [], cqs := [], counters := [], cpoison := [], addLo := [] }
  hif := { tenants := [], leaves := [], window := [], cmd := none, clearing := [], faults := [], linkUp := true, mse := [],
           bme := [], d3 := [], vfEnable := false, numVfs := 0, bars := [], cfg := [], ide := [], ideKeys := [], asserted := [], drained := [],
           enOrder := [], orders := 0 }
  mem := { mem := [], poison := [], pal := [], palPoison := [], palBefore := [], stores := [], host := [], hostErr := [], hostPoison := [],
           fot := [], retired := [], pieceCe := [], badDue := [], repairs := [], patrol := [], hand := [],
           march := [], retireDue := [], pprDone := [], badFrames := [], flash := [], flashBad := [], frsCmds := [], buffered := [], layout := [] }
  pan := { panels := [], canvases := [], carts := [], saved := [] }
  cad := { refs := [], doms := [], dip := ⟨0, 0, 100, 0, [], false, none, false, [], [], none, none, 0, 0, [], [], [], 0, false⟩, pulses := [] }
  srv := ⟨[], [], [], 0, [], [], [], [], [], [], [], [], [], [], [], [], [], [], []⟩
  vce := ⟨[], [], [], [], [], 0⟩
  mur := ⟨[], [], [], [], [], [], [], [], []⟩
  ing := ⟨[], [], [], ⟨none, none, 0, none⟩⟩
  mgt := ⟨[], [], 0, none, none⟩
  sec := ⟨[], false, false, none, [], [], [], [], [], [], [], [], []⟩

end Sys2Proof.Machine
end

