-- ==== Sys2Proof/Machine/Ops.lean ====
section
/-! DEFINITION. The named operations over registers, events, interrupts, ledgers and free values: what every command is made of. -/

namespace Sys2Proof.Machine

open Sys2Proof

/-! ### Register words -/

/-- The row of the register map that holds word `w` of a page kind. -/
def regRow (k : PageKind) (w : Nat) : Option RegRow := (regRows k).find? (fun r => r.hit w)

/-- Ledgers a page of a kind owns (LEDGER_INFO.COUNT; R442). -/
def ledgerCount : PageKind → Nat
  | .pnl => 1 | .cnv => 2 | .syn => 2 | .hif0 => 1 | .cadDom => 1 | .dip => 1 | .smp => 2 | .glz => 5
  | .vce => 2 | .stu => 1 | .frs => 1 | .mur0 => 1 | .murPort => 3 | .ing => 1 | _ => 0

/-- Pages that are RUNNING from reset (R46's MOD, R337, R394, R420, R445). -/
def alwaysRunning (page : Nat) : Bool := page == pgMOD || page == pgFLT || page == pgMGT || page == pgSEC || page == pgHIF0

/-- Resets that the tables give no number for, as a part with the factory spare map has them (log entry 3): the ledger count
(R442), the aggregators (R424), the Easel pairs (R439), the fused serial number, a PROVISIONED lifecycle with an identity (R395), and the
strapped SMBus address (R389). -/
def namedReset (page w : Nat) : Option Word :=
  if page = pgMOD ∧ w = r_MOD_SERIAL_LO then some (BitVec.ofNat 32 Config.serial)
  else if page = pgMOD ∧ w = r_MOD_SERIAL_HI then some (BitVec.ofNat 32 (Config.serial / 2 ^ 32))
  else if page = pgMOD ∧ w = r_MOD_LEDGER_COUNT then some 195#32
  else if page = pgFLT ∧ w = r_FLT_STATUS then some 4#32
  else if page = pgEAS ∧ w = r_EAS_STATUS then some 0x10#32
  else if page = pgSEC ∧ w = r_SEC_LC then some 0x2000001#32
  else if page = pgFRS then
    (if w ≤ 0x41 ∧ 0x40 ≤ w then some 0x80000200#32 else if w = 0x42 then some 0x90000040#32 else if w = 0x43 then some 0xA0001000#32
     else if w = 0x44 then some 0xB0000100#32 else if w = r_FRS_SPARE_BLOCKS then some 65536#32 else none)
  else if page = pgMGT ∧ w = r_MGT_SMBUS then some (BitVec.ofNat 32 (0x68 + Config.straps % 4))
  else none

/-- The word a register holds at reset: the header of R31, then the register map. -/
def resetWord (page w : Nat) : Word :=
  if w < 64 then
    (if w = 1 then 0x100#32
     else if w = 2 then (if alwaysRunning page then 1#32 else 0#32)
     else if w = 3 then (if alwaysRunning page then 3#32 else 0#32)
     else if w = 0x16 then BitVec.ofNat 32 (ledgerCount (pageKind page))
     else 0#32)
  else match namedReset page w with
    | some v => v
    | none => match regRow (pageKind page) w with
      | some r => BitVec.ofNat 32 r.rst
      | none => 0#32

/-- The stored word of a register. -/
def State.word (s : State) (page w : Nat) : Word := smGet (resetWord page w) s.regs (page * 1024 + w)

/-- Stores a register word. -/
def State.setWord (s : State) (page w : Nat) (v : Word) : State :=
  { s with regs := smSet (resetWord page w) s.regs (page * 1024 + w) v }

/-- A bit field of a word, as a number. -/
def fldGet (v : Word) (f : Fld) : Nat := (v.toNat / 2 ^ f.lsb) % 2 ^ (f.msb + 1 - f.lsb)

/-- A word with one bit field replaced. -/
def fldPut (v : Word) (f : Fld) (x : Nat) : Word :=
  BitVec.ofNat 32 (v.toNat - fldGet v f * 2 ^ f.lsb + (x % 2 ^ (f.msb + 1 - f.lsb)) * 2 ^ f.lsb)

/-- The value of a field. -/
def State.fld (s : State) (page : Nat) (f : Fld) : Nat := fldGet (s.word page f.word) f

/-- Sets a field, leaving the register's other bits. -/
def State.setFld (s : State) (page : Nat) (f : Fld) (x : Nat) : State :=
  s.setWord page f.word (fldPut (s.word page f.word) f x)

/-- Is bit `b` of a word set? -/
def bitOf (v : Word) (b : Nat) : Bool := (v.toNat / 2 ^ b) % 2 == 1

/-- Adds to a counter register that saturates at 0xFFFF_FFFF. -/
def State.countUp (s : State) (page w n : Nat) : State :=
  s.setWord page w (BitVec.ofNat 32 (min ((s.word page w).toNat + n) 0xFFFFFFFF))

/-- Adds to a counter field that saturates. -/
def State.countFld (s : State) (page : Nat) (f : Fld) (n : Nat) : State :=
  s.setFld page f (min (s.fld page f + n) (2 ^ (f.msb + 1 - f.lsb) - 1))

/-- The 64-bit value behind a LO/HI register pair. -/
def State.wideOf (s : State) (page w : Nat) : Nat := smGet 0 s.wide (page * 1024 + w)
def State.setWide (s : State) (page w v : Nat) : State := { s with wide := smSet 0 s.wide (page * 1024 + w) (v % 2 ^ 64) }

/-- Reading the LO register of a pair returns its low half and latches the high half in the HI register, the next word. -/
def State.readWide (s : State) (page w : Nat) : State :=
  { s.setWord page (w + 1) (BitVec.ofNat 32 (s.wideOf page w / 2 ^ 32)) with reply := s.wideOf page w % 2 ^ 32 }

/-! ### The common header (R31) -/

def hCTRL : Nat := 2
def hSTATE : Nat := 3
def hRAW : Nat := 4
def hENA : Nat := 5
def hSETCOUNT : Nat := 8
def hERR : Nat := 9
def hCLASS : Nat := 10
def hADDRLO : Nat := 11
def hADDRHI : Nat := 12
def hSYN : Nat := 13
def hCE : Nat := 14
def hUE : Nat := 15
def hLSEL : Nat := 16
def hLTOTAL : Nat := 17
def hLFREE : Nat := 18
def hLHELD : Nat := 19
def hLTRANSIT : Nat := 20
def hLRECL : Nat := 21
def hLINFO : Nat := 22
def hPWRREQ : Nat := 32
def hPWRSTATE : Nat := 33
def hCLKSEL : Nat := 34

def fENABLE : Fld := ⟨2, 0, 0⟩
def fQUIESCE : Fld := ⟨2, 1, 1⟩
def fLOCK : Fld := ⟨2, 3, 3⟩
def fSTATE : Fld := ⟨3, 3, 0⟩
def fREASON : Fld := ⟨3, 15, 8⟩
def fDETAIL : Fld := ⟨3, 31, 16⟩
def fSETCOUNT : Fld := ⟨8, 7, 0⟩
def fERRVALID : Fld := ⟨9, 0, 0⟩
def fERROVF : Fld := ⟨9, 1, 1⟩
def fERRSOURCE : Fld := ⟨9, 15, 8⟩
def fERRMERGE : Fld := ⟨9, 23, 16⟩
def fERRCLASS : Fld := ⟨10, 1, 0⟩
def fTARGET : Fld := ⟨32, 1, 0⟩
def fCURRENT : Fld := ⟨33, 1, 0⟩
def fTRANSITION : Fld := ⟨33, 9, 9⟩
def fPOINT : Fld := ⟨34, 1, 0⟩
def fACTUAL : Fld := ⟨34, 9, 8⟩

/-- BLK_STATE.STATE codes. -/
def stOFF : Nat := 0
def stCHECKING : Nat := 1
def stREFUSED : Nat := 2
def stRUNNING : Nat := 3
def stQUIESCING : Nat := 4
def stFENCED : Nat := 5
def stFAULT : Nat := 6

/-- BLK_STATE.STATE of a page. -/
def State.st (s : State) (page : Nat) : Nat := s.fld page fSTATE

/-- Is the page RUNNING? -/
def State.running (s : State) (page : Nat) : Bool := s.st page == stRUNNING
/-- Does a page go on with the work it holds? One in QUIESCING accepts no new work and completes what it has (R33). -/
def State.working (s : State) (page : Nat) : Bool := s.running page || s.st page == stQUIESCING

/-! ### Events and interrupts -/

/-- Adds to what the module has sent. -/
def State.emit (s : State) (o : Out) : State := { s with out := s.out ++ [o] }

/-- The function and vector that a page's events reach (R326). -/
def State.pageVector (s : State) (page : Nat) : Nat × Nat :=
  match tenantOfPage page with
  | some (t, _) => (t, s.fld (tenantPage t 0) f_TNT_EVT_VECTOR)
  | none =>
    if page < 0x150 then (0, 256 + page / 16)
    else if (page - 0x400) % 0x200 = 0 then (0, 280 + (page - 0x400) / 0x200)
    else (0, 384 + (page - 0x400) / 0x200 * 32 + ((page - 0x400) % 0x200 - 1))

/-- EVT_PENDING: EVT_RAW AND EVT_ENABLE. -/
def State.evtPending (s : State) (page : Nat) : Nat := ((s.word page hRAW) &&& (s.word page hENA)).toNat

/-- Follows the page's event assertion: one MSI-X message each time it goes from deasserted to asserted (R326). -/
def State.irq (s : State) (page : Nat) : State :=
  if s.evtPending page = 0 then { s with hif := { s.hif with asserted := smSet false s.hif.asserted page false } }
  else if smGet false s.hif.asserted page then s
  else
    let v := s.pageVector page
    ({ s with hif := { s.hif with asserted := smSet false s.hif.asserted page true } }).emit ⟨.msix, v.1, [v.2], []⟩

/-- Hardware sets one EVT_RAW bit: EVT_SETCOUNT adds 1 whether or not the bit was already 1 (R36). -/
def State.event (s : State) (page bit : Nat) : State :=
  let s1 := s.setWord page hRAW ((s.word page hRAW) ||| BitVec.ofNat 32 (2 ^ bit))
  let s2 := s1.setFld page fSETCOUNT (s1.fld page fSETCOUNT + 1)
  s2.irq page

def evSTATE_CHANGE : Nat := 0
def evERROR_CAPTURED : Nat := 1
def evQUIESCED : Nat := 2
def evWRITE_DISCARDED : Nat := 3

/-- A write, a field of it or a command of it is discarded (R470). -/
def State.discard (s : State) (page : Nat) : State := s.event page evWRITE_DISCARDED

/-- Changes BLK_STATE.STATE; a change sets STATE_CHANGE. -/
def State.setSt (s : State) (page st : Nat) : State :=
  if s.st page = st then s else (s.setFld page fSTATE st).event page evSTATE_CHANGE

/-! ### Free values -/

/-- The next free value, below `n` (n at least 1). -/
def State.freeBelow (s : State) (n : Nat) : Nat := Config.freeNat s.free % n

/-- Advances the free-value counter. -/
def State.used (s : State) : State := { s with free := s.free + 1 }

/-- Advances the device timebase to an instant the environment supplies; it never steps back (R47). -/
def State.at (s : State) (t : Nat) : State := { s with time := max s.time t }

/-- Returns a value to the reader. -/
def State.answer (s : State) (v : Nat) : State := { s with reply := v }

/-! ### Ledgers (R16, R39) -/

/-- The fixed total of the ledger at INDEX `i` of a page (R442). GLZ's totals depend on its configuration and stand in the
ledger from the enable on (R247). -/
def ledgerTotal (k : PageKind) (i : Nat) : Nat :=
  match k, i with
  | .pnl, 0 => 160 | .cnv, 0 => 1920 | .cnv, 1 => 256 | .syn, 0 => 262144 | .syn, 1 => 16384 | .hif0, 0 => 8192
  | .cadDom, 0 => 64 | .dip, 0 => 64 | .smp, 0 => 65536 | .smp, 1 => 1048576 | .vce, 0 => 256 | .vce, 1 => 512
  | .stu, 0 => 32 | .frs, 0 => 64 | .mur0, 0 => 8192 | .murPort, 0 => 4096 | .murPort, 1 => 4096 | .murPort, 2 => 4096
  | .ing, 0 => 4096 | _, _ => 0

/-- A ledger at reset: every unit free. -/
def ledgerReset (page i : Nat) : Ledger := ⟨ledgerTotal (pageKind page) i, ledgerTotal (pageKind page) i, 0, 0, 0⟩

/-- The counts of a ledger. -/
def State.ledger (s : State) (page i : Nat) : Ledger := smGet (ledgerReset page i) s.ledgers (page * 8 + i)

/-- Replaces the counts of a ledger. -/
def State.setLedger (s : State) (page i : Nat) (l : Ledger) : State :=
  { s with ledgers := smSet (ledgerReset page i) s.ledgers (page * 8 + i) l }

/-- The classes of a ledger's units. -/
inductive UnitClass where
  | free | held | transit
  deriving DecidableEq, Repr

/-- Units of one class. -/
def Ledger.count (l : Ledger) : UnitClass → Nat
  | .free => l.free
  | .held => l.held
  | .transit => l.transit

/-- A ledger with the units of one class replaced. -/
def Ledger.put (l : Ledger) (c : UnitClass) (n : Nat) : Ledger :=
  match c with
  | .free => { l with free := n }
  | .held => { l with held := n }
  | .transit => { l with transit := n }

/-- Moves units of a pool from one class to another, as many as the first class holds: no unit is created or lost (R17). -/
def Ledger.move (l : Ledger) (a b : UnitClass) (n : Nat) : Ledger :=
  let m := min n (l.count a)
  let l1 := l.put a (l.count a - m)
  l1.put b (l1.count b + m)

/-- Moves units of a page's ledger. -/
def State.move (s : State) (page i : Nat) (a b : UnitClass) (n : Nat) : State :=
  s.setLedger page i ((s.ledger page i).move a b n)

/-- Returns units to free by reclamation: they are counted in the reclaimed count too (R16), which saturates, and in MOD_LEDGER_RECLAIMED. -/
def State.reclaim (s : State) (page i : Nat) (a : UnitClass) (n : Nat) : State :=
  let l := s.ledger page i
  let m := min n (l.count a)
  let l1 := l.move a .free n
  (s.setLedger page i { l1 with reclaimed := min (l1.reclaimed + m) 0xFFFFFFFF }).countUp pgMOD r_MOD_LEDGER_RECLAIMED m

/-- Do the three classes add up to the total (R16)? -/
def Ledger.sums (l : Ledger) : Bool := l.free + l.held + l.transit == l.total

/-! ### Who addresses a page -/

/-- The page number an access names. -/
def accPage : Acc → Nat
  | .pf p => p.val
  | .vf t k => 0xC00 + t.val * 16 + k.val

/-- May the access write the page? The TNT mirror is read-only to the owner (R28). -/
def accWrites : Acc → Bool
  | .pf p => !(0xC00 ≤ p.val && p.val < 0xE00)
  | .vf _ _ => true

/-- The function (tenant number) an access comes from. -/
def accFn : Acc → Nat
  | .pf _ => 0
  | .vf t _ => t.val + 1

/-- Does a block occupy the page (R26)? -/
def pageExists (page : Nat) : Bool := page < 0xE00 && pageKind page != .none

/-- A write that reaches a page which no block occupies, when it is not zero, is counted by the Host Interface (R26). -/
def State.unmappedWrite (s : State) (v : Nat) : State :=
  if v = 0 then s else s.countUp pgHIF0 r_HIF_CNT_UNMAPPED 1

/-- BLK_ID.INSTANCE of a page (R30, R31). -/
def pageInstance (page : Nat) : Nat :=
  match tenantOfPage page with
  | some (t, _) => t
  | none =>
    match pageKind page with
    | .vce => if page = 0xF0 then 1 else 0
    | .cnv => (page - 0x400) / 0x200
    | .pnl => (page - 0x400) / 0x200 * 32 + ((page - 0x400) % 0x200 - 1)
    | _ => 0

/-- BLK_ID.PAGE of a page (R27, R30). -/
def pageIndex (page : Nat) : Nat :=
  match tenantOfPage page with
  | some (_, k) => k
  | none =>
    if page < 0x140 then page % 16
    else if page < 0x150 then 16 + page % 16
    else 0

/-- The page that a type, an instance and a page index name, where one exists (FLT_RCV_SEL). -/
def pageOfId (typ inst idx : Nat) : Option Nat :=
  ((List.range 0x145 ++ (List.range 4).map cnvPage ++ (List.range 128).map pnlPage ++
    (List.range 32).flatMap (fun t => (List.range 11).map (fun k => tenantPage (t + 1) k))).find?
    (fun p => pageKind p != .none && blkType (pageKind p) == typ && pageInstance p == inst && pageIndex p == idx))

/-- Does a BAR request to a function reach the module? Not before configuration ready, over a link that is down, in D3hot (R315), or
for a virtual function that VF Enable does not present (R312). -/
def State.reaches (s : State) (fn : Nat) : Bool :=
  s.pow.phase == .ready && s.hif.linkUp && !smGet false s.hif.d3 fn && (fn == 0 || (s.hif.vfEnable && fn ≤ s.hif.numVfs))

/-- What a register access of a function does, where it reaches the module. -/
def State.via (s : State) (fn : Nat) (f : State → State) : State := if s.reaches fn then f s else s

/-- Reserved bits of a header register (R31 to R41): for EVT registers the bits the block does not define. None for an offset that
no register occupies. -/
def headerRsv (k : PageKind) (w : Nat) : Option Nat :=
  if w = 0 ∨ 0xB ≤ w ∧ w ≤ 0xF ∨ 0x11 ≤ w ∧ w ≤ 0x15 then some 0
  else if w = 1 then some 0xFFFF0000
  else if w = 2 then some 0xFFFFFFF0
  else if w = 3 then some 0xF0
  else if 4 ≤ w ∧ w ≤ 7 then some (0xFFFFFFFF - evtBits k)
  else if w = 8 ∨ w = 0x10 ∨ w = 0x16 then some 0xFFFFFF00
  else if w = 9 then some 0xFF0000F8
  else if w = 0xA ∨ w = 0x20 then some 0xFFFFFFFC
  else if w = 0x21 then some 0xFFFFFCFC
  else if w = 0x22 then some (if k = .pnl ∨ k = .cnv then 0xFFFFFCFC else 0xFFFFFFFF)
  else none

/-- Reserved bits of the register at a word, and whether it is a checked register; none where no register is. -/
def rsvOf (k : PageKind) (w : Nat) : Option (Nat × Bool) :=
  if w < 64 then (headerRsv k w).map (fun m => (m, false)) else (regRow k w).map (fun r => (r.rsv, r.checked))

/-- Notes whether a write put a non-zero value into a reserved field (R37); for a live register WRITE_DISCARDED is set too. -/
def State.noteRsv (s : State) (page w : Nat) (v : Word) : State :=
  match rsvOf (pageKind page) w with
  | none => s
  | some (m, checked) =>
    let bad := decide (v.toNat &&& m ≠ 0)
    let s1 := { s with rsv := smSet false s.rsv (page * 1024 + w) bad }
    if bad && !checked then s1.discard page else s1

/-! ### Power domains (R447) -/

/-- The physical quad of its canvas that serves a module panel: PQ7 while the canvas spare does (R81). -/
def State.quadOf (s : State) (p : Nat) : Nat := if (smFind s.pan.panels p).any (fun x => x.onSpare) then 7 else p % 32 / 4

/-- The MOD_PD_STATE0 bit of the Stretcher domain that a page kind needs; canvas pages need their quad. -/
def State.domainOn (s : State) (page : Nat) : Bool :=
  let st0 := s.word pgMOD r_MOD_PD_STATE0
  let st1 := s.word pgMOD r_MOD_PD_STATE1
  match pageKind page with
  | .mod | .flt | .sec | .mgt => true
  | .syn | .stu | .hbm | .lft | .frs | .synT => bitOf st0 1
  | .eas => bitOf st0 2
  | .hif0 | .hifTen | .hifSet | .mmu | .tnt | .ringCfg | .doorbell | .cqPage | .mmuT => bitOf st0 7
  | .mur0 | .murRt | .murJob => bitOf st0 8
  | .murPort => if page < 0x115 then bitOf st0 8 else bitOf st0 9
  | .ing => bitOf st0 10
  | .vce => if page = 0xF0 then bitOf st0 12 else bitOf st0 11
  | .vceT => if pageIndex page = 9 then bitOf st0 12 else bitOf st0 11
  | .glz | .glzT => bitOf st0 13
  | .smp | .smpT => bitOf st0 14
  | .cadDom | .cadTrk | .cadRef | .var0 | .dip => bitOf st0 15
  | .cnv => bitOf st1 (8 * pageInstance page)
  | .pnl =>
    bitOf st1 (8 * (pageInstance page / 32) + s.quadOf (pageInstance page))
  | .none => false

/-- The panel and canvas as manufactured (R76). -/
def panelReset : Panel := ⟨[], [], [], [64, 65, 66, 67], [], false, [], false, none, none, 0, false, false, false, 0⟩
def canvasReset : Canvas := ⟨0, 0, 0, [], [], [], [], []⟩

def State.panel (s : State) (p : Nat) : Panel := smGet panelReset s.pan.panels p
def State.setPanel (s : State) (p : Nat) (x : Panel) : State :=
  { s with pan := { s.pan with panels := smSet panelReset s.pan.panels p x } }
def State.canvas (s : State) (c : Nat) : Canvas := smGet canvasReset s.pan.canvases c
def State.setCanvas (s : State) (c : Nat) (x : Canvas) : State :=
  { s with pan := { s.pan with canvases := smSet canvasReset s.pan.canvases c x } }

/-- A tenant as reset leaves it. -/
def tenantReset : Tenant := ⟨0, 0, 0, 0, 0, 0, 0, 0⟩
def State.tenant (s : State) (t : Nat) : Tenant := smGet tenantReset s.hif.tenants t
def State.setTenant (s : State) (t : Nat) (x : Tenant) : State :=
  { s with hif := { s.hif with tenants := smSet tenantReset s.hif.tenants t x } }

/-- Is the tenant RUNNING (R316)? -/
def State.tenantRunning (s : State) (t : Nat) : Bool := (s.tenant t).state == stRUNNING

/-- Is the tenant enabled: CHECKING, RUNNING or QUIESCING, so that its configuration is in force or held (R318)? -/
def State.tenantEnabled (s : State) (t : Nat) : Bool :=
  (s.tenant t).state == stCHECKING || (s.tenant t).state == stRUNNING || (s.tenant t).state == stQUIESCING

end Sys2Proof.Machine
end

