-- ==== Sys2Proof/Machine/Flags.lean ====
section
/-! DEFINITION. Error capture in a page (R38), dual-rail reporting, fault records, escalation and the FATAL sequence (R421 to R430), and the journals of the Fault Collector (R434 to R437). -/

namespace Sys2Proof.Machine

open Sys2Proof

/-- Class of an error source of a page kind (R425): 0 not listed, 1 CORRECTED, 2 CONTAINED, 3 FATAL. -/
def errClass (k : PageKind) (src : Nat) : Nat :=
  match k, src with
  | .pnl, 1 => 1 | .pnl, 9 => 1 | .pnl, 0xA => 3
  | .pnl, 2 => 2 | .pnl, 3 => 2 | .pnl, 4 => 2 | .pnl, 5 => 2 | .pnl, 6 => 2 | .pnl, 7 => 2 | .pnl, 8 => 2
  | .cnv, 1 => 1 | .cnv, 2 => 2 | .cnv, 3 => 2 | .cnv, 4 => 3
  | .syn, 1 => 1 | .syn, 2 => 2 | .syn, 3 => 3
  | .cadDom, 1 => 1 | .cadDom, 2 => 2 | .cadDom, 3 => 2 | .cadDom, 4 => 3
  | .cadRef, 1 => 2
  | .var0, 1 => 2 | .var0, 2 => 2 | .var0, 3 => 2 | .var0, 4 => 2
  | .dip, 1 => 1 | .dip, 2 => 1 | .dip, 3 => 2 | .dip, 4 => 3
  | .smp, 1 => 1 | .smp, 2 => 2 | .smp, 3 => 2 | .smp, 4 => 2 | .smp, 5 => 3
  | .glz, 1 => 1 | .glz, 2 => 2 | .glz, 3 => 2 | .glz, 4 => 3
  | .vce, 1 => 1 | .vce, 2 => 2 | .vce, 3 => 2 | .vce, 4 => 3
  | .stu, 1 => 1 | .stu, 2 => 2 | .stu, 3 => 2 | .stu, 4 => 3
  | .hbm, 1 => 1 | .hbm, 4 => 1 | .hbm, 5 => 1 | .hbm, 6 => 1 | .hbm, 8 => 1 | .hbm, 2 => 2 | .hbm, 3 => 2 | .hbm, 7 => 3
  | .hbm, 9 => 3
  | .lft, 1 => 1 | .lft, 4 => 1 | .lft, 5 => 1 | .lft, 2 => 2 | .lft, 3 => 2 | .lft, 6 => 2 | .lft, 7 => 3
  | .frs, 1 => 1 | .frs, 3 => 1 | .frs, 2 => 2 | .frs, 4 => 3
  | .hif0, 1 => 1 | .hif0, 2 => 2 | .hif0, 3 => 2 | .hif0, 4 => 3
  | .mmu, 1 => 1 | .mmu, 2 => 2
  | .mur0, 1 => 1 | .mur0, 2 => 2 | .mur0, 3 => 2 | .mur0, 4 => 3
  | .murPort, 1 => 1 | .murPort, 2 => 1 | .murPort, 4 => 1 | .murPort, 3 => 2 | .murPort, 5 => 3
  | .ing, 1 => 1 | .ing, 2 => 2 | .ing, 3 => 3
  | .mgt, 1 => 1 | .mgt, 2 => 2 | .mgt, 3 => 2
  | .sec, 1 => 1 | .sec, 7 => 1 | .sec, 2 => 2 | .sec, 4 => 2 | .sec, 5 => 2 | .sec, 6 => 2 | .sec, 3 => 3 | .sec, 8 => 3
  | .flt, 4 => 1 | .flt, 7 => 1 | .flt, 1 => 2 | .flt, 2 => 2 | .flt, 6 => 2 | .flt, 3 => 3 | .flt, 5 => 3
  | .eas, 1 => 1 | .eas, 2 => 2 | .eas, 3 => 2 | .eas, 4 => 3 | .eas, 5 => 3
  | _, _ => 0

/-- The page's LEDGER source: what a ledger mismatch is reported as (R443). -/
def ledgerSource : PageKind → Nat
  | .pnl => 0xA | .cnv => 4 | .syn => 3 | .hif0 => 4 | .cadDom => 4 | .dip => 4 | .smp => 5 | .glz => 4 | .vce => 4 | .stu => 4
  | .frs => 4 | .mur0 => 4 | .murPort => 5 | .ing => 3 | _ => 0

/-! ### Capture (R38) -/

/-- Fills the page's capture registers. -/
def State.fillCapture (s : State) (page src cls addr syn : Nat) : State :=
  (((((s.setFld page fERRSOURCE src).setFld page fERRCLASS cls).setWord page hADDRLO (BitVec.ofNat 32 addr)).setWord page hADDRHI
    (BitVec.ofNat 32 (addr / 2 ^ 32))).setWord page hSYN (BitVec.ofNat 32 syn)).setFld page fERRVALID 1

/-- Counts an error in ERR_COUNT_CE or ERR_COUNT_UE and captures it under R38. -/
def State.capture (s : State) (page src cls addr syn : Nat) : State :=
  let s1 := s.countUp page (if cls = 1 then hCE else hUE) 1
  if s1.fld page fERRVALID = 0 then (s1.fillCapture page src cls addr syn).event page evERROR_CAPTURED
  else
    let s2 := (s1.setFld page fERROVF 1).countFld page fERRMERGE 1
    if s2.fld page fERRCLASS < cls then (s2.fillCapture page src cls addr syn).event page evERROR_CAPTURED else s2

/-! ### The journals (R434 to R436) -/

def logOPENED : Nat := 0x01
def logCE : Nat := 0x02
def logCLOSED : Nat := 0x03
def logESCALATED : Nat := 0x04
def logREADMITTED : Nat := 0x05
def logLATCHED : Nat := 0x06
def logFATAL : Nat := 0x07
def logLEDGER : Nat := 0x08
def logWIPE : Nat := 0x09
def logLOST : Nat := 0x0A
def spCORE : Nat := 0x20
def spPANEL : Nat := 0x21
def spLOST : Nat := 0x22
def spUNIT : Nat := 0x23
def spREMAP : Nat := 0x24
def spREPAIRED : Nat := 0x25
def spBAD : Nat := 0x26
def spLANE : Nat := 0x27
def spWEAR : Nat := 0x28
def spWIRE : Nat := 0x29

/-- A record about a page, before it has a SEQ. -/
def State.mkRec (s : State) (typ cls : Nat) (commanded : Bool) (page src merge addr syn : Nat) (detail : List Nat) : LogRec :=
  ⟨s.time, 0, s.flt.powerOns, typ, cls, commanded, page, src, merge, (smGet ⟨0, 0, false⟩ s.flt.rcv page).recoveries, addr, syn, detail⟩

/-- A list without its first element that meets a test. -/
def dropFirst {α : Type} (p : α → Bool) : List α → List α
  | [] => []
  | x :: r => if p x then r else x :: dropFirst p r

/-- A log record was dropped or replaced (R436). -/
def State.logLoss (s : State) : State :=
  let s1 := (s.countUp pgFLT r_FLT_CNT_LOG_DROP 1).event pgFLT ev_flt_LOG_DROP
  { s1 with flt := { s1.flt with lostDue := s1.flt.lostDue + 1 } }

/-- Appends to the 256-record buffer. -/
def State.enqueue (s : State) (r : LogRec) : State := { s with flt := { s.flt with queue := s.flt.queue ++ [r] } }

/-- Queues a record (R436): an ordinary record takes the place of the oldest queued CE_SUMMARY when the buffer is full, and is
dropped when none is queued; a spare map record is never dropped and takes no other's place, its writer waits behind the buffer. The LOG_LOST record
precedes the next record written after a loss. -/
def State.journal (s : State) (r : LogRec) : State :=
  let s0 := if s.flt.lostDue = 0 || s.flt.queue.length ≥ 255 then s
    else { s with flt := { s.flt with lostDue := 0, queue := s.flt.queue ++ [s.mkRec logLOST 0 false 0 0 0 0 0 [s.flt.lostDue]] } }
  let s1 := if r.typ ≥ 0x20 then s0.event pgFLT ev_flt_SPARE_USED else s0
  if s1.flt.queue.length < 256 ∨ 0x20 ≤ r.typ then s1.enqueue r
  else if s1.flt.queue.any (fun x => x.typ == logCE) then
    ({ s1 with flt := { s1.flt with queue := dropFirst (fun x => x.typ == logCE) s1.flt.queue } }.enqueue r).logLoss
  else s1.logLoss

/-- The 64 bytes of a record (R434). DETAIL holds 32-bit words where R435 places fields at multiples of 4, single bytes elsewhere. -/
def LogRec.bytes (r : LogRec) (recoveries : Nat) : List Byte :=
  let wide := r.typ ≤ 0x0A && r.typ != logREADMITTED || r.typ == spREMAP || r.typ == spREPAIRED || r.typ == spBAD || r.typ == spWEAR
  let det := r.detail.flatMap (fun x => toLe (if wide then 4 else 1) x)
  let b := toLe 8 r.time ++ toLe 4 r.seq ++ toLe 2 r.powerOn ++ toLe 1 r.typ ++ toLe 1 (r.cls + (if r.commanded then 128 else 0)) ++
    toLe 2 (if r.typ = logLOST ∨ (r.typ = logCE ∧ r.source = 0) then 0 else blkType (pageKind r.page)) ++ toLe 1 (pageInstance r.page) ++
    toLe 1 (pageIndex r.page) ++ toLe 1 r.source ++ toLe 1 r.merge ++ toLe 2 recoveries ++ toLe 8 r.addr ++ toLe 4 r.syn ++
    (det ++ toLe 16 0).take 16 ++ toLe 8 0
  b ++ toLe 4 (crc32c b)

/-- Writes a record's bytes into a Fresco partition (R437; SPARE_MAP is partition 2, PENTIMENTO 3). -/
def State.journalBytes (s : State) (part slot : Nat) (r : LogRec) : State :=
  { s with mem := { s.mem with flash := cWrite s.mem.flash (part * 2 ^ 43 + slot * 64) (r.bytes r.recoveries) } }

/-- Makes a record durable: it takes its journal's next SEQ (R434, R437). -/
def State.durable (s : State) (r : LogRec) : State :=
  if r.typ ≥ 0x20 then
    let r1 := { r with seq := s.flt.spareSeq }
    ({ s with flt := { s.flt with spare := s.flt.spare ++ [r1], spareSeq := s.flt.spareSeq + 1 } }).journalBytes 2 (r1.seq % 1048576) r1
  else
    let q := (s.word pgFLT r_FLT_LOG_SEQ).toNat
    let r1 := { r with seq := q }
    (({ s with flt := { s.flt with log := smPut s.flt.log (q % 67108864) r1 } }).setWord pgFLT r_FLT_LOG_SEQ
      (BitVec.ofNat 32 (q + 1))).journalBytes 3 (q % 67108864) r1

/-- A FATAL record goes ahead of every queued record, behind earlier FATAL records (R430 step 3). -/
def aheadOf (r : LogRec) (q : List LogRec) : List LogRec :=
  q.takeWhile (fun x => x.typ == logFATAL) ++ [r] ++ q.dropWhile (fun x => x.typ == logFATAL)

/-- A queue without its oldest log record: the least TIME; of two records of one instant a FATAL one, which was put ahead, came last. -/
def dropOldest (q : List LogRec) : List LogRec :=
  let m := ((q.filter (fun x => x.typ < 0x20)).map (·.time)).foldl min (2 ^ 64)
  let old := fun (x : LogRec) => decide (x.typ < 0x20) && decide (x.time ≤ m)
  if q.any (fun x => old x && x.typ != logFATAL) then dropFirst (fun x => old x && x.typ != logFATAL) q else dropFirst old q

/-- Queues a FATAL record (R436): with the buffer full it replaces the oldest queued log record, or takes the place beside the
buffer; where that is taken too, it is dropped. -/
def State.journalFatal (s : State) (r : LogRec) : State :=
  if s.flt.queue.length < 256 then { s with flt := { s.flt with queue := aheadOf r s.flt.queue } }
  else if s.flt.queue.any (fun x => x.typ < 0x20) then
    ({ s with flt := { s.flt with queue := aheadOf r (dropOldest s.flt.queue) } }).logLoss
  else if s.flt.beside = [] then { s with flt := { s.flt with beside := [r] } }
  else s.logLoss

/-- Counts a CORRECTED error for the minute's CE_SUMMARY (R436): at most 256 counters. -/
def State.countCe (s : State) (page src : Nat) : State :=
  let k := page * 256 + src
  if (smFind s.flt.ce k).isSome || s.flt.ce.length < 256 then
    { s with flt := { s.flt with ce := smSet 0 s.flt.ce k (smGet 0 s.flt.ce k + 1) } }
  else { s with flt := { s.flt with ceOver := s.flt.ceOver + 1 } }

/-! ### The FATAL sequence (R430) -/

/-- A domain leaves RUNNING: every slot of its ring not yet accepted is emptied without a record and counted as reclaimed (R157). -/
def State.ringDrop (s : State) (d : Nat) : State :=
  let pg := pgCAD d
  let s1 := (s.reclaim pg 0 .held (s.ledger pg 0).held).reclaim pg 0 .transit (s.ledger pg 0).transit
  { s1 with cad := { s1.cad with doms := s1.cad.doms.map (fun e => if e.1 = d then (e.1, { e.2 with ring := [], offered := false }) else e) } }

/-- What a page drops as it is taken out of RUNNING by a fence or a fault. -/
def State.leaveRun (s : State) (page : Nat) : State := if pageKind page = .cadDom then s.ringDrop (pageIndex page) else s

/-- A page enters FAULT, latched for a FATAL error until module reset (R33). -/
def State.faultFatal (s : State) (page : Nat) : State :=
  let s1 := (s.leaveRun page).setSt page stFAULT
  { s1 with flt := { s1.flt with fatal := smSet false s1.flt.fatal page true } }

/-- Drives ROLE_OUT (R181): the plant output that VAR page 1 claims while it runs. -/
def State.roleOut (s : State) (on : Bool) : State :=
  let m := 2 ^ s.fld pgDIP f_VAR_DIP_CTRL_ROLE_OUT
  let old := s.fld pgMGT f_MGT_OUT_STATE_LEVEL
  if s.running pgDIP then s.setFld pgMGT f_MGT_OUT_STATE_LEVEL (if on then old ||| m else (old ||| m) - m) else s

/-- Steps 1 to 3 of R430. Every CAD domain page enters FAULT, and an ACTIVE Diptych member demotes (R186). -/
def State.fatalSeq (s : State) (page src : Nat) : State :=
  let s1 := s.faultFatal page
  let s2 := { s1 with pow := { s1.pow with noFatal := false, resetDue := s1.pow.resetDue || decide (s1.pow.phase = Phase.ready) } }
  let s3 := if s2.word pgFLT r_FLT_FATAL_FIRST = 0#32 then
      s2.setWord pgFLT r_FLT_FATAL_FIRST
        (BitVec.ofNat 32 (blkType (pageKind page) * 65536 + pageInstance page * 256 + src))
    else s2
  let s4 := s3.event pgFLT ev_flt_FATAL
  let s5 : State := (List.range 16).foldl (fun (a : State) d => a.faultFatal (pgCAD d)) s4
  let s6 := if s5.fld pgDIP f_VAR_DIP_STATUS_ROLE = 3 then
      ((s5.setFld pgDIP f_VAR_DIP_STATUS_ROLE 4).event pgDIP ev_dip_ROLE_CHANGE).roleOut false else s5
  s6.journalFatal (s6.mkRec logFATAL 3 false page src 0 0 0 [s6.fld pgFLT f_FLT_ACTION_FATAL_RESET])

/-! ### Fault records (R426 to R429) -/

/-- Index and contents of a page's open record. -/
def State.openRec (s : State) (page : Nat) : Option (Nat × FltRec) := s.flt.recs.find? (fun e => e.2.page == page)

/-- Closes an open record. -/
def State.closeRec (s : State) (i : Nat) : State := { s with flt := { s.flt with recs := smDel s.flt.recs i } }

/-- What the Fault Collector keeps of a page. -/
def State.rcv (s : State) (page : Nat) : PageRcv := smGet ⟨0, 0, false⟩ s.flt.rcv page
def State.setRcv (s : State) (page : Nat) (r : PageRcv) : State :=
  { s with flt := { s.flt with rcv := smSet ⟨0, 0, false⟩ s.flt.rcv page r } }

/-- Pages that cannot be fenced: their escalation makes the error FATAL (R427). -/
def unfenceable (page : Nat) : Bool :=
  page == pgMOD || page == pgFLT || page == pgSEC || page == pgMGT || page == pgEAS || page == pgHIF0

/-- The state of the canvas spare as a fence finds it (R96): it reads UNPOWERED while PQ7 is off. -/
def State.spareState (s : State) (c : Nat) : Nat :=
  if bitOf (s.word pgMOD r_MOD_PD_STATE1) (8 * c + 7) then (s.canvas c).spare else 3

/-- A panel fence (R95, R96): every operation with work on the panel, one of which no step has begun among them (DEDUCED, log entry 34), ends at that
boundary with PANEL_FAULT; a palette move ends, the clients withdraw their grants (R86), held slots return to free as reclaimed; an AVAILABLE spare is
taken, and without one the panel is lost. -/
def State.fencePanel (s : State) (p : Nat) : State :=
  let x := s.panel p
  let c := p / 32
  let s1 := s.reclaim (pnlPage p) 0 .held (s.ledger (pnlPage p) 0).held
  let lost := s.spareState c != 0
  let w := x.ports.foldl (fun (m : SMap Nat) e => smSet 0 m (e.1 % 4) (smGet 0 m (e.1 % 4) + e.2.granted)) x.withdrawn
  let s0 := s1.setCanvas c { s1.canvas c with moves := (s1.canvas c).moves - (if x.moving.isSome then 1 else 0) }
  let sp := s0.setPanel p { x with work := x.work.map (fun w => { w with endWith := 0x13 }), ports := [], withdrawn := w,
                                   lost := lost, substing := !lost, moving := none }
  let s2 := (List.range 4).foldl (fun (a : State) n => a.setWord (pnlPage p) (r_PNL_PORT n) 0) sp
  if lost then
    ((s2.setWord (cnvPage c) r_CNV_LOST ((s2.word (cnvPage c) r_CNV_LOST) ||| BitVec.ofNat 32 (2 ^ (p % 32)))).event (cnvPage c)
      ev_cnv_PANEL_LOST).journal (s2.mkRec spLOST 0 false (pnlPage p) 0 0 0 0 [c, p % 32])
  else s2.setCanvas c { s2.canvas c with spare := 1, serving := p % 32 }

/-- The quiet period of a page runs from now (R428, R429): an error of the page, or its fence. -/
def State.errSeen (s : State) (page : Nat) : State := { s with flt := { s.flt with lastErr := smSet 0 s.flt.lastErr page s.time } }

/-- Fences a RUNNING or QUIESCING page. -/
def State.fence (s : State) (page : Nat) : State :=
  let s1 := ((s.errSeen page).leaveRun page).setSt page stFENCED
  if pageKind page = .pnl then s1.fencePanel (pageInstance page) else s1

/-- Escalates an error of a page (R427, R429), with the index of its open record if it has one. -/
def State.escalate (s : State) (page src cls merge addr syn : Nat) (i : Option Nat) : State :=
  let s0 := (s.event pgFLT ev_flt_ESCALATED).countUp pgFLT r_FLT_CNT_ESCALATED 1
  let close := fun (a : State) => match i with | some k => a.closeRec k | none => a
  let log := fun (a : State) (o : Nat) => a.journal (a.mkRec logESCALATED cls false page src merge addr syn [o])
  if unfenceable page then (close (log s0 2)).fatalSeq page src
  else if s0.st page = stRUNNING ∨ s0.st page = stQUIESCING then
    (if pageKind page ≠ .pnl ∧ s0.fld pgFLT f_FLT_RECOVERY_LIMIT ≤ (s0.rcv page).inWindow then
      let s1 := log s0 3
      let s2 := s1.journal (s1.mkRec logLATCHED cls false page src merge addr syn [])
      let s3 := ((s2.leaveRun page).setSt page stFAULT).event pgFLT ev_flt_LATCHED
      close (s3.setRcv page { s3.rcv page with latched := true })
    else
      let s1 := (log s0 0).fence page
      if pageKind page = .pnl ∧ (s1.panel (pageInstance page)).lost then close s1
      else match i with
        | some k =>
          { s1 with flt := { s1.flt with recs := s1.flt.recs.map (fun e => if e.1 == k then (e.1, { e.2 with fenced := true, timer := false }) else e) } }
        | none => s1)
  else close (log s0 1)

/-- The Fault Collector takes one error (R421, R426, R428), which starts the page's quiet period anew: CORRECTED is counted, CONTAINED opens or merges into the page's record,
FATAL starts the FATAL sequence at once. `patrol` starts no grace timer (R296). -/
def State.collect (s0 : State) (page src cls addr syn : Nat) (patrol : Bool) : State :=
  let s := s0.errSeen page
  if cls = 1 then s.countCe page src
  else
    match s.openRec page with
    | some (i, r) =>
      let r1 := { r with merge := min (r.merge + 1) 255, cls := max r.cls cls }
      let s1 := { s with flt := { s.flt with recs := smPut s.flt.recs i r1 } }
      if cls = 3 then s1.fatalSeq page src else s1
    | none =>
      if cls = 3 then s.fatalSeq page src
      else match smFresh s.flt.recs 0 64 with
        | none => s.escalate page src cls 0 addr syn none
        | some i =>
          let r := ⟨page, src, cls, 0, s.time, false, !patrol, addr, syn, s.fld pgFLT f_FLT_GRACE_US⟩
          let s1 := { s with flt := { s.flt with recs := smPut s.flt.recs i r } }
          (s1.event pgFLT ev_flt_OPENED).journal (s1.mkRec logOPENED cls false page src 0 addr syn [i])

/-- A page's error reaches its capture and, over the pair of its class, the Fault Collector (R422); over a broken pair it is
learnt only by the next poll (R423). -/
def State.report (s : State) (page src addr syn : Nat) (patrol : Bool) : State :=
  let cls := errClass (pageKind page) src
  if cls = 0 then s
  else
    let s1 := s.capture page src cls addr syn
    if smGet false s1.flt.wire (page * 4 + cls) then s1
    else
      let s2 := if cls = 1 then s1 else
        { s1 with flt := { s1.flt with otherUe := smSet 0 s1.flt.otherUe (page * 4 + (5 - cls)) (smGet 0 s1.flt.otherUe (page * 4 + (5 - cls)) + 1) } }
      s2.collect page src cls addr syn patrol

end Sys2Proof.Machine
end

