-- ==== Sys2Proof/Machine/Mem.lean ====
section
/-! DEFINITION. The named operations over byte stores: module memory with its poison (R282 to R285), frames and their owner table (R283), palettes and panel stores, and reserve pieces. -/

namespace Sys2Proof.Machine

open Sys2Proof

/-! ### Module memory (R282) -/

/-- What store a module address lies in. -/
inductive Store where
  | hbm | loft | studio | noStore
  deriving DecidableEq, Repr

def loftBase : Nat := 0x8000000000
def studioBase : Nat := 0x10000000000

def storeOf (a : Nat) : Store :=
  if a < 0x6000000000 then .hbm
  else if loftBase ≤ a ∧ a < 0x10000000000 then .loft
  else if studioBase ≤ a ∧ a < studioBase + 0x8000000 then .studio
  else .noStore

/-- The page of the store that holds an address. -/
def storePage : Store → Nat
  | .hbm => pgHBM
  | .loft => pgLFT
  | .studio => pgSTU
  | .noStore => pgHBM

/-- Frame number of an HBM or Loft address in the owner table: Loft frames count on from 0x40000. -/
def frameOf (a : Nat) : Nat :=
  if a < loftBase then a / 0x200000 else 0x40000 + (a - loftBase) / 0x200000

/-- First module address of a frame. -/
def frameBase (f : Nat) : Nat := if f < 0x40000 then f * 0x200000 else loftBase + (f - 0x40000) * 0x200000

/-- Studio bank of an address. -/
def bankOf (a : Nat) : Nat := (a - studioBase) / 0x400000

def kFREE : Nat := 0
def kTENANT : Nat := 1
def kWEIGHT : Nat := 2
def kPOOL : Nat := 3
def kMETA : Nat := 4
def kMODULE : Nat := 5
def kBAD : Nat := 6
def kTEST : Nat := 7

/-- KIND and TENANT of a frame in the owner table (R283). -/
def State.frameKind (s : State) (f : Nat) : Nat := smGet 0 s.mem.fot f % 16
def State.frameTenant (s : State) (f : Nat) : Nat := smGet 0 s.mem.fot f / 16

/-- Writes a frame's entry. -/
def State.setFrame (s : State) (f kind tenant : Nat) : State :=
  { s with mem := { s.mem with fot := smSet 0 s.mem.fot f (kind + 16 * tenant) } }

/-- A frame whose failing piece found no reserve becomes BAD as soon as it is FREE (R298). -/
def State.freeFrame (s : State) (f : Nat) : State :=
  if smGet false s.mem.badDue f then
    let s1 := s.setFrame f kBAD 0
    let s2 := { s1 with mem := { s1.mem with badDue := smSet false s1.mem.badDue f false,
                                             badFrames := smSet false s1.mem.badFrames f true } }
    s2.journal (s2.mkRec spBAD 0 false (if f < 0x40000 then pgHBM else pgLFT) 0 0 (frameBase f) 0 [f / 0x40000, f % 0x40000])
  else s.setFrame f kFREE 0

/-- Frames `f` to `f + n − 1` get one entry. -/
def State.setFrames (s : State) (f : Nat) : Nat → Nat → Nat → State
  | 0, _, _ => s
  | n + 1, kind, tenant => (s.setFrame f kind tenant).setFrames (f + 1) n kind tenant

/-- Releases frames. -/
def State.freeFrames (s : State) (f : Nat) : Nat → State
  | 0 => s
  | n + 1 => (s.freeFrame f).freeFrames (f + 1) n

/-- Writes zeros with valid check bits over a range of module memory. -/
def State.memZero (s : State) (a n : Nat) : State :=
  { s with mem := { s.mem with mem := cClear s.mem.mem a n, poison := markClear s.mem.poison (a / 8) (n / 8) } }

/-- Zeroes a frame. -/
def State.zeroFrame (s : State) (f : Nat) : State := s.memZero (frameBase f) 0x200000

/-- Writes bytes to module memory (R285). -/
def State.memWrite (s : State) (a : Nat) (bs : List Byte) : State :=
  { s with mem := { s.mem with mem := cWrite s.mem.mem a bs, poison := poisonWrite s.mem.poison a bs.length } }

/-- Bytes of module memory. -/
def State.memRead (s : State) (a n : Nat) : List Byte := cRead s.mem.mem a n

/-- Marks a word of module memory poisoned. -/
def State.memPoison (s : State) (a : Nat) : State :=
  { s with mem := { s.mem with poison := smSet false s.mem.poison (a / 8) true } }

/-! ### Palettes and panel stores (R78, R107) -/

/-- Bytes of a palette. -/
def State.palRead (s : State) (p o n : Nat) : List Byte := cRead s.mem.pal (p * 0x800000 + o) n

/-- What bytes held that a drain port writes while a step of the panel runs is kept, so that its end can tell what the step may have read (R79):
the first value stands. -/
def palKeep (m : SMap Byte) (a : Nat) : List Byte → SMap Byte
  | [] => m
  | b :: r => palKeep (if (smFind m a).isSome then m else smPut m a b) (a + 1) r

/-- Does a step run on the panel? -/
def State.stepRuns (s : State) (p : Nat) : Bool := (s.panel p).work.any (fun w => w.running)

/-- Bytes are stored in a palette; poison as in memory (R80). -/
def State.palStore (s : State) (p o : Nat) (bs : List Byte) : State :=
  { s with mem := { s.mem with pal := cWrite s.mem.pal (p * 0x800000 + o) bs,
                               palPoison := poisonWrite s.mem.palPoison (p * 0x800000 + o) bs.length } }

/-- Writes bytes of a palette through the drain ports (R79). -/
def State.palWrite (s : State) (p o : Nat) (bs : List Byte) : State :=
  let b := if s.stepRuns p then palKeep s.mem.palBefore (p * 0x800000 + o) (s.palRead p o bs.length) else s.mem.palBefore
  { (s.palStore p o bs) with mem := { (s.palStore p o bs).mem with palBefore := b } }

/-- Marks a palette word poisoned. -/
def State.palPoison (s : State) (p o : Nat) : State :=
  { s with mem := { s.mem with palPoison := smSet false s.mem.palPoison ((p * 0x800000 + o) / 8) true } }

/-- Zeroes a panel's palette. -/
def State.palZero (s : State) (p : Nat) : State :=
  { s with mem := { s.mem with pal := cClear s.mem.pal (p * 0x800000) 0x800000,
                               palPoison := markClear s.mem.palPoison (p * 0x100000) 0x100000,
                               palBefore := cClear s.mem.palBefore (p * 0x800000) 0x800000 } }

/-- Zeroes a panel's instruction, schedule and step stores. -/
def State.storesZero (s : State) (p : Nat) : State :=
  { s with mem := { s.mem with stores := cClear s.mem.stores (p * 0x400000) 0x400000 } }

/-! ### Numbers of pieces (R286, R288, R298) -/

/-- The stack or package a 4 KiB piece of HBM or the Loft lies in. -/
def pieceHome (a : Nat) : Nat :=
  if a < loftBase then (bits a 14 12) ^^^ (bits a 23 21) else (bits a 15 12) ^^^ (bits a 24 21)

/-- Reserve pieces of a stack or package: 768 MiB or 512 MiB in 4 KiB pieces. -/
def reserveSize (loft : Bool) : Nat := if loft then 131072 else 196608

/-- Free reserve pieces of a stack or package. -/
def State.reserveFree (s : State) (loft : Bool) (home : Nat) : Nat :=
  reserveSize loft - (s.mem.retired.filter (fun e => decide (loftBase ≤ e.1 * 4096) == loft && pieceHome (e.1 * 4096) == home)).length

end Sys2Proof.Machine
end

