-- ==== Sys2Proof/Machine/Mmu.lean ====
section
/-! DEFINITION. Address translation by the Stretcher MMU (R327 to R330), and the reads and writes that go through it. -/

namespace Sys2Proof.Machine

open Sys2Proof

/-- Where a device virtual address leads: a module address, a bus address, a palette address, or a palette address of a SHARED
panel whose state for the tenant lies in its save slot (log entry 7). -/
inductive Loc where
  | module (a : Nat)
  | host (a : Nat)
  | palette (panel off : Nat)
  | saved (panel tenant off : Nat)
  deriving DecidableEq, Repr

/-- On whose behalf an access is made: the tenant, the operation's panel group, whether the operation may still resolve
addresses through a window under CLEAR_WINDOW (R329), and the TAG and OPCODE a fault is recorded with. -/
structure Who where
  tenant : Nat
  group : List Nat
  winOk : Bool
  tag : Nat
  opcode : Nat
  deriving DecidableEq, Repr

/-- What a read through the MMU gives: bytes with a poison mark for each, or the address and reason of the fault. -/
inductive Rd where
  | ok (bytes : List Byte) (poison : Bool)
  | bad (dva reason : Nat)
  deriving DecidableEq, Repr

def mfUNMAPPED : Nat := 0
def mfPERMISSION : Nat := 1
def mfGROUP : Nat := 2
def mfSTUDIO : Nat := 3
def mfHOST : Nat := 4
def mfTABLE : Nat := 5

/-- The leaf entry that holds a DVA, with the first DVA of its page. -/
def State.leaf (s : State) (t dva : Nat) : Option (Leaf × Nat) :=
  let k := t * 0x100000000
  match smFind s.hif.leaves (k + dva / 0x10000) with
  | some l => some (l, dva / 0x10000 * 0x10000)
  | none =>
    match smFind s.hif.leaves (k + dva / 0x200000 * 32) with
    | some l => if l.big then some (l, dva / 0x200000 * 0x200000) else none
    | none => none

/-- STATE of a Studio bank: 3 UNPOWERED while its domain is off (R292). -/
def State.bankState (s : State) (n : Nat) : Nat :=
  if bitOf (s.word pgMOD r_MOD_PD_STATE0) (3 + n / 8) then s.fld pgSTU (f_STU_BANK_STATE n) else 3

/-- Does a bank serve a request made for a tenant: on port A for guest 0, on port B for the engine given (R289)? While only the
guest changes, port A keeps working (R290). -/
def State.bankServes (s : State) (n t guest : Nat) : Bool :=
  let h := smFind s.mem.hand n
  let stOk := s.bankState n == 0 || (guest == 0 && s.bankState n == 1 && h.any (fun x => x.guestOnly))
  stOk && s.fld pgSTU (f_STU_BANK_OWNER n) == t && (guest == 0 || s.fld pgSTU (f_STU_BANK_GUEST n) == guest)

/-- May requests to host memory be issued for a tenant's function (R314)? -/
def State.hostReach (s : State) (t : Nat) : Bool :=
  s.hif.linkUp && smGet false s.hif.bme t && !smGet false s.hif.d3 t

/-- What a save slot holds for a tenant (R98); a tenant that was never resident has zeros. -/
def savedReset : Saved := ⟨[], [], [], [], [], false⟩
def State.savedOf (s : State) (p t : Nat) : Saved := smGet savedReset s.pan.saved (p * 64 + t)

/-- The AES-256-GCM tag of a saved state, under the save key of the security block: the last 16 bytes of what sealing gives (R98). -/
def saveTag (p t : Nat) (pal stores : List Host.Cell) : List Byte :=
  let c := Config.gcmSeal Config.saveKey (toLe 12 (p * 64 + t)) [] (cRead pal 0 0x800000 ++ cRead stores 0 0x260000)
  sub c (c.length - 16) 16

/-- Writes a save slot with its tag; a state of zeros has none. -/
def State.setSaved (s : State) (p t : Nat) (x : Saved) : State :=
  let tag := if x.pal = [] ∧ x.stores = [] then [] else saveTag p t x.pal x.stores
  { s with pan := { s.pan with saved := smSet savedReset s.pan.saved (p * 64 + t) { x with tag := tag } } }

/-- Translates one DVA for a tenant, or gives the reason it does not translate. -/
def State.translate (s : State) (w : Who) (guest dva : Nat) (write : Bool) : Except Nat Loc :=
  let t := w.tenant
  match s.leaf t dva with
  | some (l, base) =>
    if l.bad then .error mfTABLE
    else if write && !l.wr || !write && !l.rd then .error mfPERMISSION
    else
      let a := l.target + (dva - base)
      if l.host then (if s.hostReach t then .ok (.host a) else .error mfHOST)
      else if storeOf a = .studio then
        (if s.bankServes (bankOf a) t guest then .ok (.module a) else .error mfSTUDIO)
      else if storeOf a = .noStore then .error mfUNMAPPED
      else .ok (.module a)
  | none =>
    match smFind s.hif.window t with
    | none => .error mfUNMAPPED
    | some base =>
      if base ≤ dva ∧ dva < base + 0x40000000 then
        (if smGet false s.hif.clearing t && !w.winOk then .error mfUNMAPPED
        else match w.group[(dva - base) / 0x800000]? with
          | some p =>
            let o := (dva - base) % 0x800000
            if s.fld (pnlPage p) f_PNL_MODE_MODE = 0 ∧ s.fld (pnlPage p) f_PNL_STATUS_RESIDENT ≠ t then .ok (.saved p t o)
            else .ok (.palette p o)
          | none => .error mfGROUP)
      else .error mfUNMAPPED

/-- A range of DVAs cut at 64 KiB boundaries: start and length of each cut. -/
def cuts (dva n : Nat) : List (Nat × Nat) :=
  (List.range ((dva + n + 65535) / 65536 - dva / 65536)).map (fun i =>
    let lo := if i = 0 then dva else (dva / 65536 + i) * 65536
    let hi := min (dva + n) ((dva / 65536 + i + 1) * 65536)
    (lo, hi - lo))

/-- The frames a weight region holds: first and number. SEC_WR_FRAME may have been rewritten since they were claimed. -/
def State.wrFrames (s : State) (r : Nat) : Nat × Nat :=
  ((smFind s.sec.claim r).getD (s.fld (hmWR r) f_SEC_WR_FRAME_FRAME), s.fld (hmWR r) f_SEC_WR_FRAMES_FRAMES)

/-- The weight region whose frames hold a module address (R409). -/
def State.weightRegion (s : State) (a : Nat) : Option Nat :=
  (List.range 16).find? (fun r =>
    let f := s.wrFrames r
    s.fld (hmWR r) f_SEC_WR_STATUS_STATE != 0 && f.1 ≤ a / 0x200000 && a / 0x200000 < f.1 + f.2)

/-- Reasons from here up are no translation faults: the reading operation ends with WEIGHT_AUTH and DETAIL the rest (R412). -/
def mfWEIGHT : Nat := 0x1000

/-- Why a read of module memory fails in the weight engine (R410 to R412, R419): a block that fails its tag, a region that is not LOADED,
or keys that are absent. -/
def State.weightFault (s : State) (a n : Nat) : Option Nat :=
  if 0x6000000000 ≤ a ∨ s.frameKind (a / 0x200000) ≠ kWEIGHT then none
  else
    let r := (s.weightRegion a).getD 0
    if s.sec.wiped then some (mfWEIGHT + r + 0x200)
    else if s.fld (hmWR r) f_SEC_WR_STATUS_STATE ≠ 2 ∨ (s.weightRegion a).isNone then some (mfWEIGHT + r + 0x100)
    else if (List.range ((a + n + 65535) / 65536 - a / 65536)).any (fun i => smGet false s.sec.tagBad (a / 65536 + i)) then some (mfWEIGHT + r)
    else none

/-- Reads bytes at a place. A host line whose completion ended in an error faults; one marked EP reads poisoned. -/
def State.readLoc (s : State) (l : Loc) (dva n : Nat) : Rd :=
  match l with
  | .module a =>
    match s.weightFault a n with
    | some r => .bad dva r
    | none => .ok (s.memRead a n) (anyPoison s.mem.poison a n)
  | .palette p o => .ok (s.palRead p o n) (anyPoison s.mem.palPoison (p * 0x800000 + o) n)
  | .saved p t o => .ok (cRead (s.savedOf p t).pal o n) (anyPoison (s.savedOf p t).poison o n)
  | .host a =>
    let lines := (List.range ((a + n + 63) / 64 - a / 64)).map (fun i => a / 64 + i)
    if lines.any (fun x => smGet false s.mem.hostErr x) then .bad dva mfHOST
    else .ok (cRead s.mem.host a n) (lines.any (fun x => smGet false s.mem.hostPoison x))

/-- Reads bytes through the MMU for a request on port `guest` of any Studio bank it meets (0: port A). -/
def State.readVia (s : State) (w : Who) (guest : Nat) : List (Nat × Nat) → Rd
  | [] => .ok [] false
  | (d, n) :: r =>
    match s.translate w guest d false with
    | .error e => .bad d e
    | .ok l =>
      match s.readLoc l d n, s.readVia w guest r with
      | .ok b p, .ok b2 p2 => .ok (b ++ b2) (p || p2)
      | .bad x e, _ => .bad x e
      | _, .bad x e => .bad x e

/-- Reads `n` bytes at a DVA. -/
def State.readDva (s : State) (w : Who) (dva n : Nat) : Rd := s.readVia w 0 (cuts dva n)

/-- Does a read touch a weight block under repair, so that it is held (R297)? -/
def State.readHeld (s : State) (w : Who) (dva n : Nat) : Bool :=
  !s.mem.repairs.isEmpty && (cuts dva n).any (fun c =>
    match s.translate w 0 c.1 false with
    | .ok (.module a) => (List.range ((a + c.2 + 65535) / 65536 - a / 65536)).any (fun i => smGet false s.mem.repairs (a / 65536 + i))
    | _ => false)

/-- Writes bytes at a place. -/
def State.writeLoc (s : State) (l : Loc) (bs : List Byte) : State :=
  match l with
  | .module a => s.memWrite a bs
  | .palette p o => s.palWrite p o bs
  | .saved p t o =>
    let x := s.savedOf p t
    s.setSaved p t { x with pal := cWrite x.pal o bs, poison := poisonWrite x.poison o bs.length }
  | .host a => { s with mem := { s.mem with host := cWrite s.mem.host a bs,
                                            hostPoison := markClear s.mem.hostPoison ((a + 63) / 64) ((a + bs.length) / 64 - (a + 63) / 64) } }

/-- The first address of a range that does not translate for a write, with the reason. -/
def State.writeFault (s : State) (w : Who) (guest : Nat) : List (Nat × Nat) → Option (Nat × Nat)
  | [] => none
  | (d, _) :: r => match s.translate w guest d true with
    | .error e => some (d, e)
    | .ok _ => s.writeFault w guest r

/-- Writes bytes over cuts that translate. -/
def State.writeCuts (s : State) (w : Who) (guest : Nat) : List (Nat × Nat) → List Byte → State
  | [], _ => s
  | (d, n) :: r, bs =>
    let s1 := match s.translate w guest d true with
      | .error _ => s
      | .ok l => s.writeLoc l (bs.take n)
    s1.writeCuts w guest r (bs.drop n)

/-- Is every write on the tenant's behalf discarded (R332 step 1)? -/
def State.writesOff (s : State) (t : Nat) : Bool := (s.tenant t).state == stQUIESCING

/-- Writes bytes at a DVA that has been shown to translate. -/
def State.writeDva (s : State) (w : Who) (dva : Nat) (bs : List Byte) : State :=
  if s.writesOff w.tenant then s else s.writeCuts w 0 (cuts dva bs.length) bs

/-- Poisons the 64-bit word at a DVA, where its store keeps poison. -/
def State.poisonDva (s : State) (w : Who) (dva : Nat) : State :=
  if s.writesOff w.tenant then s
  else match s.translate w 0 dva true with
    | .ok (.module a) => s.memPoison a
    | .ok (.palette p o) => s.palPoison p o
    | .ok (.saved p t o) =>
      let x := s.savedOf p t
      s.setSaved p t { x with poison := smSet false x.poison (o / 8) true }
    | .ok (.host a) => { s with mem := { s.mem with hostPoison := smSet false s.mem.hostPoison (a / 64) true } }
    | .error _ => s

/-- A weight block's tag failure: counted, recorded with the block's module address, and the block's repair begins (R410, R297). -/
def State.weightBad (s : State) (a : Nat) : State :=
  let s1 := ((s.countUp pgSEC r_SEC_CNT_WEIGHT_AUTH 1).event pgSEC ev_sec_WEIGHT_AUTH).report pgSEC 5 a 0 false
  { s1 with mem := { s1.mem with repairs := smSet false s1.mem.repairs (a / 65536) true } }

/-- A weight block fails its tag at use (R410): it is counted and recorded with the block's module address. -/
def State.weightTold (s : State) (w : Who) (dva : Nat) : State :=
  let a := match s.translate w 0 dva false with | .ok (.module x) => x / 65536 * 65536 | _ => 0
  s.weightBad a

/-- Records a translation fault in the tenant's MMU view (R330); a weight block's tag failure is recorded by the security block instead. -/
def State.mmuFault (s : State) (w : Who) (dva reason : Nat) (write : Bool) : State :=
  if mfWEIGHT ≤ reason then (if reason < mfWEIGHT + 0x100 then s.weightTold w dva else s) else
  let t := w.tenant
  let pg := tenantPage t 10
  let q := smGet [] s.hif.faults t
  let s1 := (s.countUp pg r_MMU_T_FAULT_COUNT 1).countUp pgMMU r_MMU_CNT_FAULTS 1
  let s2 := if q.length < 16 then
      { s1 with hif := { s1.hif with faults := smSet [] s1.hif.faults t (q ++ [⟨dva, reason, write, w.tag, w.opcode⟩]) } }
    else s1.setFld pg f_MMU_T_FAULT_STATUS_OVERFLOW 1
  s2.event pg ev_mmuT_FAULT

/-- Does a DVA lie in the tenant's window? -/
def State.inWindow (s : State) (t dva : Nat) : Bool :=
  match smFind s.hif.window t with
  | some b => b ≤ dva && dva < b + 0x40000000
  | none => false

end Sys2Proof.Machine
end

