-- ==== Sys2Proof/Machine/Sync.lean ====
section
/-! DEFINITION. Sync counters (R125, R126, R130): ownership, adds, values and wait slots. -/

namespace Sys2Proof.Machine

open Sys2Proof

/-- First counter and number of counters of a tenant's allocation. -/
def State.allocBase (s : State) (t : Nat) : Nat := s.fld pgSYN (f_SYN_ALLOC_BASE t) * 64
def State.allocCount (s : State) (t : Nat) : Nat := s.fld pgSYN (f_SYN_ALLOC_COUNT t) * 64

/-- Is the tenant's allocation in force: is it RUNNING or QUIESCING? -/
def State.allocLive (s : State) (t : Nat) : Bool := (s.tenant t).state == stRUNNING || (s.tenant t).state == stQUIESCING

/-- The enabled tenant whose range holds a counter. -/
def State.counterOwner (s : State) (n : Nat) : Option Nat :=
  (List.range 33).find? (fun t => s.allocLive t && s.allocBase t ≤ n && n < s.allocBase t + s.allocCount t)

/-- The global number of a tenant's counter, where it lies in the allocation. -/
def State.relCounter (s : State) (t n : Nat) : Option Nat :=
  if n < s.allocCount t then some (s.allocBase t + n) else none

/-- Value of a counter, by its global number. -/
def State.counter (s : State) (n : Nat) : Nat := smGet 0 s.ops.counters n

def State.setCounter (s : State) (n v : Nat) : State := { s with ops := { s.ops with counters := smSet 0 s.ops.counters n v } }

/-- Is a counter poisoned (R126)? -/
def State.counterPoisoned (s : State) (n : Nat) : Bool := smGet false s.ops.cpoison n

/-- May an add to a counter be made (R125)? -/
def State.synTakes (s : State) (n : Nat) : Bool := (s.counterOwner n).isSome && !s.counterPoisoned n

/-- An add to a counter (R125): it saturates at 2^64 − 1 with SATURATED set; one to a counter of no enabled range or to a
poisoned counter is discarded. -/
def State.synAdd (s : State) (n v : Nat) : State :=
  if s.synTakes n then
    (if s.counter n + v < 2 ^ 64 then s.setCounter n (s.counter n + v)
     else (s.setCounter n (2 ^ 64 - 1)).event pgSYN ev_syn_SATURATED)
  else s

/-- An add by an operation of a tenant, to a counter relative to its allocation; a disabling tenant adds no SIGNAL (R332). -/
def State.relAdd (s : State) (t n v : Nat) : State :=
  if s.writesOff t then s
  else match s.relCounter t n with
    | some g => s.synAdd g v
    | none => s

/-- A 64-bit add value multiplied out of range is taken modulo 2^64 by its field. -/
def m64 (n : Nat) : Nat := n % 2 ^ 64

/-- Wait slots taken to watch waits, returned by a met wait, and reclaimed with a lost operation (R125, R127). -/
def State.takeSlots (s : State) (n : Nat) : State := s.move pgSYN 1 .free .held n
def State.returnSlots (s : State) (n : Nat) : State := s.move pgSYN 1 .held .free n
def State.reclaimSlots (s : State) (n : Nat) : State := s.reclaim pgSYN 1 .held n

/-- The counters of a tenant read 0 and lose their poison when it is enabled (R125, R126, R319). -/
def State.zeroCounters (s : State) (t : Nat) : State :=
  let b := s.allocBase t
  let n := s.allocCount t
  { s with ops := { s.ops with
      counters := s.ops.counters.filter (fun e => decide (e.1 < b ∨ b + n ≤ e.1)),
      cpoison := s.ops.cpoison.filter (fun e => decide (e.1 < b ∨ b + n ≤ e.1)) } }

end Sys2Proof.Machine
end

