-- ==== Sys2Proof/Machine/Operands.lean ====
section
/-! DEFINITION. Operand forms of operations: the descriptor's fields (R110), the panel group (R111), the opcode table (R120) and reserved bytes of argument blocks. -/

namespace Sys2Proof.Machine

open Sys2Proof

/-- The fields of the 64 bytes of a descriptor slot. -/
def parseDesc (b : List Byte) : Desc where
  opcode := leAt b 0 1
  priority := bits (leAt b 1 1) 2 0
  cadence := bits (leAt b 1 1) 3 3 == 1
  domain := bits (leAt b 1 1) 7 4
  flags := leAt b 2 1
  rsv3 := leAt b 3 1
  seq := leAt b 4 4
  thr0 := leAt b 8 8
  thr1 := leAt b 16 8
  sigAdd := leAt b 24 8
  arg := leAt b 32 8
  wait0 := leAt b 40 4
  wait1 := leAt b 44 4
  sig := leAt b 48 4
  panels := leAt b 52 4
  timeout := leAt b 56 4
  rsv60 := leAt b 60 4

/-- VALID bit and counter number of a WAIT or SIGNAL field. -/
def cfValid (f : Nat) : Bool := f / 2 ^ 31 % 2 == 1
def cfCounter (f : Nat) : Nat := f % 2 ^ 18
/-- Are its reserved bits [30:18] zero? -/
def cfClean (f : Nat) : Bool := bits f 30 18 == 0

/-- FORM of a PANEL_GROUP: 0 NONE, 1 RANGE, 2 SET, 3 reserved. -/
def pgForm (f : Nat) : Nat := bits f 31 30
def pgFirst (f : Nat) : Nat := bits f 6 0
def pgCount (f : Nat) : Nat := bits f 15 8

/-- Which forms an opcode's PANEL_GROUP takes (R120): 0 NONE only, 1 RANGE or SET, 2 any. -/
def opPanels (opc : Nat) : Nat :=
  if opc = 1 ∨ opc = 4 ∨ opc = 0xE ∨ opc = 0xF then 1 else if opc = 2 ∨ opc = 3 ∨ opc = 8 then 2 else 0

/-- Is the opcode defined? -/
def opDefined (opc : Nat) : Bool := 1 ≤ opc && opc ≤ 0x10

/-- Retry budget in µs that TIMEOUT must exceed. -/
def opBudget (opc : Nat) : Nat := if opc = 2 ∨ opc = 0xC ∨ opc = 0xD then 40 else 0

/-- May ARG be 0? -/
def opArgOptional (opc : Nat) : Bool := opc == 0xA || opc == 0xB || opc == 0xE

/-- Panels of set k of a tenant's layout (R339), rising. -/
def State.panelSet (s : State) (t k : Nat) : List Nat :=
  (List.range 128).filter (fun p => bitOf (s.word (hmSET t) (r_HIF_SET (k) (p / 32))) (p % 32))

/-- The module panels of a PANEL_GROUP, rising (R111). -/
def State.groupOf (s : State) (t f : Nat) : List Nat :=
  if pgForm f = 1 then (List.range (pgCount f)).map (fun i => pgFirst f + i)
  else if pgForm f = 2 then s.panelSet t (bits f 5 0)
  else []

/-- Does a PANEL_GROUP break its form's rules or the opcode's (R112 test 3)? -/
def State.groupBad (s : State) (t opc f : Nat) : Bool :=
  match pgForm f with
  | 0 => opPanels opc == 1 || bits f 29 0 != 0
  | 1 => opPanels opc == 0 || bits f 7 7 != 0 || bits f 29 16 != 0 || pgCount f == 0 || pgCount f > 128 || pgFirst f + pgCount f > 128
  | 2 => opPanels opc == 0 || bits f 29 6 != 0 || (s.panelSet t (bits f 5 0)).isEmpty
  | _ => true

/-- Offset of the first field at fault under R112 test 3. -/
def State.descFault (s : State) (t : Nat) (d : Desc) : Option Nat :=
  if d.flags / 8 ≠ 0 then some 2
  else if d.rsv3 ≠ 0 then some 3
  else if d.arg % 64 ≠ 0 ∨ (d.arg = 0 ∧ !opArgOptional d.opcode) then some 32
  else if !cfClean d.wait0 then some 40
  else if !cfClean d.wait1 then some 44
  else if !cfClean d.sig then some 48
  else if s.groupBad t d.opcode d.panels then some 52
  else if d.rsv60 ≠ 0 then some 60
  else none

/-- MODE of a panel: 0 SHARED, 1 DEDICATED, 2 RESERVED (R89). -/
def State.panelMode (s : State) (p : Nat) : Nat := s.fld (pnlPage p) f_PNL_MODE_MODE
def State.panelTenant (s : State) (p : Nat) : Nat := s.fld (pnlPage p) f_PNL_MODE_TENANT
def State.panelDomain (s : State) (p : Nat) : Nat := s.fld (pnlPage p) f_PNL_MODE_DOMAIN

/-- Is the panel in the tenant's panel mask (R320)? -/
def State.inMask (s : State) (t p : Nat) : Bool := bitOf (s.word (hmTEN t) (r_HIF_TEN_PANELS (p / 32))) (p % 32)

/-- Is a panel the tenant's under R112 test 5 and R320? -/
def State.panelIs (s : State) (t p : Nat) : Bool :=
  if s.panelMode p = 0 then s.inMask t p else s.panelTenant p == t

/-- Offset of the first resource that the tenant does not own (R112 test 5). -/
def State.descOwner (s : State) (t : Nat) (d : Desc) : Option Nat :=
  let out := fun (f : Nat) => cfValid f && (s.relCounter t (cfCounter f)).isNone
  if out d.wait0 then some 40
  else if out d.wait1 then some 44
  else if out d.sig then some 48
  else if (s.groupOf t d.panels).any (fun p => !s.panelIs t p) then some 52
  else none

/-- TIMEOUT breaks R112 test 6. -/
def descTimeout (d : Desc) : Bool := d.timeout != 0 && d.timeout != 0xFFFFFFFF && d.timeout ≤ opBudget d.opcode

/-- Tests that single bytes are zero, each by its offset. -/
def zeroTests (p : List Byte) (o n : Nat) : List (Nat × Bool) := (List.range n).map (fun i => (o + i, p.getD (o + i) 0 == 0))

/-- Offset of the first byte that is not zero among the reserved byte ranges (offset, length) of an argument block. -/
def rsvByte (b : List Byte) : List (Nat × Nat) → Option Nat
  | [] => none
  | (o, n) :: r =>
    match (List.range n).find? (fun i => b.getD (o + i) 0 != 0) with
    | some i => some (o + i)
    | none => rsvByte b r

end Sys2Proof.Machine
end

