-- ==== Sys2Proof/Machine/Flight.lean ====
section
/-! DEFINITION. Operations in flight: acceptance and refusal (R112 to R114, R472), issue (R115), ends (R117, R119), the signal and record at completion (R116, R118), and posting to completion queues (R324 to R326). -/

namespace Sys2Proof.Machine

open Sys2Proof

/-! ### Status codes (R119) -/

def scOK : Nat := 0
def scOPCODE : Nat := 1
def scRESERVED : Nat := 2
def scPRIV : Nat := 3
def scARG : Nat := 4
def scTRANSLATION : Nat := 5
def scOWNED : Nat := 6
def scSTALE : Nat := 7
def scTIMEOUT : Nat := 8
def scCANCELLED : Nat := 9
def scDISABLED : Nat := 0xA
def scUNKNOWN : Nat := 0xB
def scCSTALE : Nat := 0xC
def scIMAGE : Nat := 0xD
def scDIGEST : Nat := 0xE
def scTRAP : Nat := 0xF
def scCONFLICT : Nat := 0x10
def scPOISON : Nat := 0x11
def scCORE : Nat := 0x12
def scPANEL : Nat := 0x13
def scRESTORE : Nat := 0x14
def scWEIGHT : Nat := 0x78

/-- STATUS and DETAIL for the reason of a failed read or write: TRANSLATION_FAULT with the field, or WEIGHT_AUTH (R412). -/
def faultStatus (reason : Nat) : Nat := if mfWEIGHT ≤ reason then scWEIGHT else scTRANSLATION
def faultDetail (reason field : Nat) : Nat := if mfWEIGHT ≤ reason then reason - mfWEIGHT else field
def scLINK : Nat := 0x15
def scORDER : Nat := 0x16

/-- FLAGS.DROPPED of a completion record. -/
def cfDROPPED : Nat := 4

/-! ### Tables -/

def State.op (s : State) (tag : Nat) : Option Op := smFind s.ops.ops tag
def State.setOp (s : State) (tag : Nat) (o : Op) : State := { s with ops := { s.ops with ops := smPut s.ops.ops tag o } }
def State.dropOp (s : State) (tag : Nat) : State := { s with ops := { s.ops with ops := smDel s.ops.ops tag } }

def ringReset : Ring := ⟨0, true, []⟩
def cqReset : Cq := ⟨0, [], false, false, false⟩
def State.ring (s : State) (t r : Nat) : Ring := smGet ringReset s.ops.rings (t * 64 + r)
def State.setRing (s : State) (t r : Nat) (x : Ring) : State :=
  { s with ops := { s.ops with rings := smSet ringReset s.ops.rings (t * 64 + r) x } }
def State.cq (s : State) (t q : Nat) : Cq := smGet cqReset s.ops.cqs (t * 64 + q)
def State.setCq (s : State) (t q : Nat) (x : Cq) : State :=
  { s with ops := { s.ops with cqs := smSet cqReset s.ops.cqs (t * 64 + q) x } }

/-- Page of a ring's registers and the ring's place in it (R343); page of the completion queues (R345). -/
def ringPage (t r : Nat) : Nat := tenantPage t (1 + r / 32)
def cqPg (t : Nat) : Nat := tenantPage t 4

/-- Is a ring or queue enabled? -/
def State.ringOn (s : State) (t r : Nat) : Bool := s.fld (ringPage t r) (f_RING_CFG_ENABLE (r % 32)) == 1
def State.cqOn (s : State) (t q : Nat) : Bool := s.fld (cqPg t) (f_CQ_CFG_ENABLE q) == 1

/-- The request maker of an operation. -/
def Op.who (o : Op) (tag : Nat) : Who := ⟨o.tenant, o.group, o.winOk, tag, o.d.opcode⟩

/-- A request maker that is no operation. -/
def bareWho (t : Nat) : Who := ⟨t, [], true, 0, 0⟩

/-! ### Records and queues -/

/-- A record becomes due to a queue, in posting order. -/
def State.postDue (s : State) (t q : Nat) (r : CRec) : State :=
  let c := s.cq t q
  s.setCq t q { c with due := c.due ++ [r] }

/-- Is the queue full: has it posted 2^LOG2 records beyond those consumed? -/
def State.cqFull (s : State) (t q : Nat) : Bool :=
  let head := (s.word (cqPg t) (r_CQ_HEAD q)).toNat
  2 ^ s.fld (cqPg t) (f_CQ_CFG_LOG2 q) ≤ ((s.cq t q).posted + 2 ^ 32 - head) % 2 ^ 32

/-- Can the queue take a record now? -/
def State.cqOpen (s : State) (t q : Nat) : Bool :=
  s.cqOn t q && s.running (cqPg t) && !s.cqFull t q && !(s.cq t q).failed

/-- The 32 bytes of a record, written at slot number c of a queue (R118, R324). -/
def CRec.bytes (r : CRec) (phase : Nat) : List Byte :=
  toLe 8 r.start ++ toLe 8 r.fin ++ toLe 4 r.seq ++
  toLe 2 (r.tag + (if r.noTag then 0x2000 else 0) + phase * 0x8000) ++ toLe 1 r.status ++ toLe 1 r.flags ++
  toLe 2 r.ring ++ toLe 1 r.opcode ++ toLe 1 0 ++ toLe 4 r.detail

/-- Sends the queue's vector, at once or at the end of a hold-off (R326). -/
def State.raise (s : State) (t q : Nat) : State :=
  let c := s.cq t q
  if c.holdoff then s.setCq t q { c with raiseDue := true }
  else
    let s1 := s.emit ⟨.msix, t, [s.fld (cqPg t) (f_CQ_CFG_VECTOR q)], []⟩
    if s.fld (cqPg t) (f_CQ_CFG_HOLDOFF_US q) = 0 then s1 else s1.setCq t q { c with holdoff := true, raiseDue := false }

/-- Address of slot c of a queue. -/
def State.cqSlot (s : State) (t q c : Nat) : Nat :=
  let pg := cqPg t
  (s.word pg (r_CQ_BASE_LO q)).toNat + 2 ^ 32 * s.fld pg (f_CQ_BASE_HI_BASE q) + 32 * (c % 2 ^ s.fld pg (f_CQ_CFG_LOG2 q))

/-- Moves the job of a VDEC or VENC that an engine has taken (R279); its engine stands first in what it keeps of the operation. -/
def State.jobMove (s : State) (tag : Nat) (a b : UnitClass) : State :=
  match s.op tag with
  | some o =>
    if o.d.opcode = 8 ∨ o.d.opcode = 9 then
      (match o.aux with
      | e :: _ => s.move (pgVCE e) 1 a b 1
      | [] => s)
    else s
  | none => s

/-- Returns a tag once its record and signal are posted (R114), with its generation advanced. A tag returned while its tenant
is being disabled counts as reclaimed (R332, R334). -/
def State.returnTag (s : State) (tag : Nat) : State :=
  let lost := (s.op tag).any (fun o => (s.tenant o.tenant).state == stQUIESCING)
  let s0 := (s.jobMove tag .transit .free).dropOp tag
  let s1 := if lost then s0.reclaim pgHIF0 0 .transit 1 else s0.move pgHIF0 0 .transit .free 1
  { s1 with ops := { s1.ops with gens := smSet 0 s1.ops.gens tag ((smGet 0 s1.ops.gens tag + 1) % 8) } }

/-- Returns the tag of a posted record, unless a repost of the same operation is still due. -/
def State.afterPost (s : State) (t q : Nat) (r : CRec) : State :=
  if r.noTag then s
  else match s.op r.tag with
    | some o =>
      if o.phase = .due ∧ o.d.seq = r.seq ∧ o.ring = r.ring ∧ (o.tenant = t ∧ o.cq = q ∨ s.writesOff o.tenant) ∧ !((s.cq t q).due.any (fun x => !x.noTag && x.tag == r.tag && x.seq == r.seq))
      then s.returnTag r.tag else s
    | none => s

/-- Writes the record `r` at the slot `a` as `w`, leaving `rest` to write. -/
def State.postGood (s : State) (t q : Nat) (r : CRec) (rest : List CRec) (a : Nat) (w : Who) : State :=
  let c := s.cq t q
  let ph := 1 - (c.posted / 2 ^ s.fld (cqPg t) (f_CQ_CFG_LOG2 q)) % 2
  let s1 := s.writeCuts w 0 (cuts a 32) (r.bytes ph)
  let s2 := s1.setCq t q { c with due := rest, posted := (c.posted + 1) % 2 ^ 32, failed := false }
  let s3 := if r.intr then s2.raise t q else s2
  s3.afterPost t q r

/-- Writes the record, or holds the queue with its failed write (R325). Writes of completion records are the module's own
and are not discarded with a disabling tenant's. -/
def State.postRec (s : State) (t q : Nat) (r : CRec) (rest : List CRec) (a : Nat) (w : Who) : State :=
  match s.writeFault w 0 (cuts a 32) with
  | some (d, e) =>
    if (s.cq t q).failed then s
    else ((s.setCq t q { s.cq t q with failed := true }).mmuFault w d e true).event (cqPg t) ev_cqPage_CQ_FAULT
  | none => s.postGood t q r rest a w

/-- Writes the record at the head of a queue, where the queue may take one. -/
def State.postHead (s : State) (t q : Nat) : State :=
  match (s.cq t q).due with
  | [] => s
  | r :: rest =>
    if !s.cqOn t q || !s.running (cqPg t) then s
    else if s.cqFull t q then s.event (cqPg t) ev_cqPage_CQ_FULL
    else s.postRec t q r rest (s.cqSlot t q (s.cq t q).posted) { bareWho t with tag := r.tag, opcode := r.opcode }

/-! ### The replay window (R113) -/

/-- (a − b) mod 2^32 read as a signed number. -/
def serial (a b : Nat) : Int :=
  let d := (a + 2 ^ 32 - b) % 2 ^ 32
  if d < 2 ^ 31 then Int.ofNat d else Int.ofNat d - 2 ^ 32

/-- H of a ring. -/
def State.ringH (s : State) (t r : Nat) : Nat := (s.word (ringPage t r) (r_RING_SEQ_H (r % 32))).toNat

/-- Is a SEQUENCE new, a duplicate or stale? -/
inductive SeqKind where
  | new | dup | stale
  deriving DecidableEq, Repr

def State.seqKind (s : State) (t r q : Nat) : SeqKind :=
  let x := s.ring t r
  let d := serial q (s.ringH t r)
  if x.fresh then .new
  else if d > 0 then .new
  else if d ≤ -8192 then .stale
  else if (smFind x.win q).isSome then .dup else .new

/-- Enters a SEQUENCE in the ring's window: H advances, and numbers 8,192 or more behind leave. -/
def State.enterSeq (s : State) (t r q : Nat) : State :=
  let x := s.ring t r
  let h := if x.fresh ∨ serial q (s.ringH t r) > 0 then q else s.ringH t r
  let w := (smPut x.win q ⟨none, 0⟩).filter (fun e => decide (-8192 < serial e.1 h))
  (s.setRing t r { x with fresh := false, win := w }).setWord (ringPage t r) (r_RING_SEQ_H (r % 32)) (BitVec.ofNat 32 h)

/-- A record's repost: DUPLICATE set (R118). -/
def CRec.repost (r : CRec) : CRec := { r with flags := r.flags ||| 1 }

/-- A record is made: it enters the window of its ring, is due to its queue, and the reposts owed follow it. The operations that Easel
firmware issues for a batch step have a ring number from 64 up and the step in place of a queue; their ends go to it instead (R202). -/
def State.recordMade (s : State) (t ring cq : Nat) (qt : Nat) (r : CRec) (inWin : Bool) : State :=
  if 64 ≤ ring then { s with srv := { s.srv with done := s.srv.done ++ [(cq, r)] } } else
  let x := s.ring t ring
  let e := if inWin then smFind x.win r.seq else none
  let s1 := match e with
    | some _ => s.setRing t ring { x with win := smPut x.win r.seq ⟨some r, 0⟩ }
    | none => s
  let s2 := s1.postDue qt cq r
  match e with
  | some w => (List.replicate w.owed r.repost).foldl (fun (a : State) y => a.postDue qt cq y) s2
  | none => s2

/-! ### Acceptance -/

/-- HEAD counts one descriptor. -/
def State.headUp (s : State) (t r : Nat) : State :=
  let pg := ringPage t r
  s.setWord pg (r_RING_HEAD (r % 32)) (s.word pg (r_RING_HEAD (r % 32)) + 1)

/-- The completion queue of a ring. -/
def State.ringCq (s : State) (t r : Nat) : Nat := s.fld (ringPage t r) (f_RING_CFG_CQ (r % 32))

/-- A refusal (R112): no tag; its record is due with START = END = now. -/
def State.refuse (s : State) (t r : Nat) (d : Desc) (status detail : Nat) (inWin : Bool) : State :=
  let s1 := (s.countUp pgHIF0 r_HIF_CNT_REFUSED 1).countUp (tenantPage t 0) r_TNT_CNT_REFUSED 1
  s1.recordMade t r (s.ringCq t r) t
    ⟨s.time, s.time, d.seq, 0, true, status, 0, r, d.opcode, detail, bits d.flags 0 0 == 1⟩ inWin

/-- Tags a tenant holds, cadence operations apart. -/
def State.tagsOf (s : State) (t : Nat) : Nat := (s.ops.ops.filter (fun e => e.2.tenant == t && !e.2.cad)).length

/-- The tag taken: the one the module picks, or another free one where that is in use. -/
def State.pickTag (s : State) (lo n pick : Nat) : Option Nat :=
  if lo ≤ pick ∧ pick < lo + n ∧ (s.op pick).isNone then some pick else smFresh s.ops.ops lo n

/-- TIMEOUT in force for a descriptor, 0 for none (R127). -/
def timeoutOf (d : Desc) (ringDefault : Nat) : Nat :=
  let v := if d.timeout = 0 then ringDefault else d.timeout
  if v = 0xFFFFFFFF then 0 else v

/-- Takes an operation under a tag (R114, R125). -/
def State.takeOp (s : State) (tag t ring : Nat) (cad : Bool) (cq : Nat) (d : Desc) (tmo : Nat) : State :=
  let watch := fun (f thr : Nat) => if cfValid f then (s.relCounter t (cfCounter f)).toList.map (fun g => (g, thr)) else []
  let n := watch d.wait0 d.thr0 ++ watch d.wait1 d.thr1
  let o : Op := {
    tenant := t, ring := ring, cad := cad, cq := cq, d := d, gen := smGet 0 s.ops.gens tag, order := s.ops.nextOrder,
    accepted := s.time, timeout := tmo, phase := .waiting, start := none, fin := 0, parts := 0, status := 0, detail := 0,
    flags := 0, group := s.groupOf t d.panels, further := [], slots := n, abandoned := false, winOk := true, windowed := false,
    args := [], table := [], aux := [] }
  let s1 := ((s.setOp tag o).move pgHIF0 0 .free .held 1).takeSlots n.length
  { s1 with ops := { s1.ops with nextOrder := s1.ops.nextOrder + 1 } }

/-- Tests 2 to 6 of R112: the refusal's status and DETAIL. -/
def State.descTests (s : State) (t : Nat) (d : Desc) (cadRing : Bool) : Option (Nat × Nat) :=
  if !opDefined d.opcode then some (scOPCODE, 0)
  else match s.descFault t d with
    | some o => some (scRESERVED, o)
    | none =>
      if (d.priority = 0 ∨ d.cadence) ∧ !cadRing then some (scPRIV, 0)
      else match s.descOwner t d with
        | some o => some (scOWNED, o)
        | none => if descTimeout d then some (scORDER, opBudget d.opcode) else none

/-- The TAG_WAIT bit of a ring. -/
def State.tagWait (s : State) (t r : Nat) (b : Bool) : State :=
  let f := f_RING_STATUS_TAG_WAIT (r % 32)
  if b then
    (if s.fld (ringPage t r) f = 1 then s else (s.setFld (ringPage t r) f 1).event (tenantPage t 0) ev_tnt_TAG_WAIT)
  else s.setFld (ringPage t r) f 0

/-- Accepts or refuses a descriptor of a submission ring (R112, R113). -/
def State.accept (s : State) (t r : Nat) (d : Desc) (pick : Nat) : State :=
  match s.seqKind t r d.seq with
  | .stale => (s.refuse t r d scSTALE (s.ringH t r) false).headUp t r
  | .dup =>
    let x := s.ring t r
    let s1 := s.headUp t r
    match smFind x.win d.seq with
    | some ⟨some rec, _⟩ => s1.postDue t (s.ringCq t r) rec.repost
    | some ⟨none, n⟩ => s1.setRing t r { s1.ring t r with win := smPut x.win d.seq ⟨none, n + 1⟩ }
    | none => s1
  | .new =>
    match s.descTests t d false with
    | some (st, det) => ((s.enterSeq t r d.seq).refuse t r d st det true).headUp t r
    | none =>
      if s.fld (hmTEN t) f_HIF_TEN_CFG_TAGS ≤ s.tagsOf t then s.tagWait t r true
      else match s.pickTag 0 7936 pick with
        | none => s.tagWait t r true
        | some tag =>
          (((s.tagWait t r false).enterSeq t r d.seq).takeOp tag t r false (s.ringCq t r) d
            (timeoutOf d (s.word (ringPage t r) (r_RING_TIMEOUT (r % 32))).toNat)).headUp t r

/-- Address of descriptor slot c of a ring. -/
def State.ringSlot (s : State) (t r c : Nat) : Nat :=
  let pg := ringPage t r
  let i := r % 32
  (s.word pg (r_RING_BASE_LO i)).toNat + 2 ^ 32 * s.fld pg (f_RING_BASE_HI_BASE i) + 64 * (c % 2 ^ s.fld pg (f_RING_CFG_LOG2 i))

/-- A ring slot that cannot be read (R472). -/
def State.slotFault (s : State) (t r dva reason : Nat) : State :=
  let c := (s.word (ringPage t r) (r_RING_HEAD (r % 32))).toNat
  let s1 := (s.mmuFault (bareWho t) dva reason false).recordMade t r (s.ringCq t r) t
    ⟨s.time, s.time, 0, 0, true, scTRANSLATION, 0, r, 0, c, false⟩ false
  ((s1.countUp pgHIF0 r_HIF_CNT_REFUSED 1).countUp (tenantPage t 0) r_TNT_CNT_REFUSED 1).headUp t r

/-- Is a ring held by a refusal record that cannot be posted (R325)? -/
def State.ringHeld (s : State) (t r : Nat) : Bool :=
  let q := s.ringCq t r
  (s.cq t q).due.any (fun x => x.noTag && x.ring == r && x.start == x.fin) && !s.cqOpen t q

/-- May a ring be fetched: is it enabled, its page RUNNING and not quiesced, its tenant RUNNING, a descriptor available? -/
def State.fetchable (s : State) (t r : Nat) : Bool :=
  s.ringOn t r && s.running (ringPage t r) && s.tenantRunning t && !s.ringHeld t r &&
  (s.ring t r).tail != (s.word (ringPage t r) (r_RING_HEAD (r % 32))).toNat

/-! ### Issue and end -/

/-- Is a WAIT field's wait met; does it wait on a poisoned counter? -/
def State.waitMet (s : State) (t f thr : Nat) : Bool :=
  !cfValid f || (s.relCounter t (cfCounter f)).any (fun g => thr ≤ s.counter g)
def State.waitPoisoned (s : State) (t f : Nat) : Bool :=
  cfValid f && (s.relCounter t (cfCounter f)).any (fun g => s.counterPoisoned g)

/-- Has every earlier accepted operation of the ring completed? One abandoned at its TIMEOUT of which a part still runs has not: its last part has not
ended (R127; DEDUCED, log entry 34). -/
def State.fenceMet (s : State) (o : Op) : Bool :=
  bits o.d.flags 1 1 == 0 ||
  s.ops.ops.all (fun e => e.2.phase == .due || e.2.tenant != o.tenant || e.2.ring != o.ring || e.2.cad != o.cad || o.order ≤ e.2.order)

/-- Ends an operation whose parts have all ended, or lets its last part end later: its status is the first one given. -/
def State.opEnd (s : State) (tag status detail flags : Nat) : State :=
  match s.op tag with
  | none => s
  | some o =>
    if o.phase = .due ∨ o.phase = .ended then s
    else s.setOp tag { o with phase := .ended, parts := 0, status := status, detail := detail, flags := o.flags ||| flags }

/-- Marks a status for an operation some of whose parts still run; the first one stands. -/
def State.opMark (s : State) (tag status detail : Nat) : State :=
  match s.op tag with
  | none => s
  | some o => if o.status = 0 then s.setOp tag { o with status := status, detail := detail } else s

/-- Releases the wait slots that an operation holds. -/
def State.slotsMet (s : State) (tag : Nat) : State :=
  match s.op tag with
  | none => s
  | some o => (s.setOp tag { o with slots := [] }).returnSlots o.slots.length

/-- The wait slots of an operation whose waits are met return (R125). -/
def State.letSlots (s : State) (tag : Nat) : State :=
  match s.op tag with
  | none => s
  | some o =>
    let keep := o.slots.filter (fun x => decide (s.counter x.1 < x.2))
    (s.setOp tag { o with slots := keep }).returnSlots (o.slots.length - keep.length)

/-- Is an accepted operation ready (R115)? -/
def State.ready (s : State) (o : Op) : Bool :=
  o.phase == .waiting && !o.abandoned && s.waitMet o.tenant o.d.wait0 o.d.thr0 && s.waitMet o.tenant o.d.wait1 o.d.thr1 && s.fenceMet o &&
  !s.writesOff o.tenant

/-- Do two operations ask for one block that takes one of them at a time: the panels of a group, the Glaze Unit, the Sampler, the Mural engines, or
the copy engines? -/
def contend (a b : Op) : Bool :=
  let pan := fun (o : Op) => o.d.opcode == 1 || o.d.opcode == 4
  let unit := fun (o : Op) => if o.d.opcode = 5 ∨ o.d.opcode = 6 then 1 else if o.d.opcode = 7 ∨ o.d.opcode = 0x10 then 2
    else if o.d.opcode = 0xC ∨ o.d.opcode = 0xD then 3 else if o.d.opcode = 2 ∨ o.d.opcode = 3 then 4 else 0
  (pan a && pan b && a.group.any (fun p => b.group.contains p)) || (unit a != 0 && unit a == unit b)

/-- Does another ready operation come before it at its block: a lower PRIORITY, or the same and an earlier acceptance (R115)? -/
def State.yields (s : State) (o : Op) : Bool :=
  s.ops.ops.any (fun e => contend o e.2 && s.ready e.2 &&
    (decide (e.2.d.priority < o.d.priority) || (e.2.d.priority == o.d.priority && decide (e.2.order < o.order))))

/-- Issues a waiting operation that is ready and whose turn it is (R115), and hands it to its opcode's own effect; one that waits on a poisoned counter
ends with POISON_CONSUMED (R126), one whose group holds a lost panel with PANEL_FAULT (R96). -/
def State.issue (s : State) (tag opc now : Nat) (f : State → Op → State) : State :=
  match s.op tag with
  | none => s
  | some o =>
    if o.phase ≠ .waiting ∨ o.d.opcode ≠ opc ∨ o.abandoned then s
    else if s.waitPoisoned o.tenant o.d.wait0 ∨ s.waitPoisoned o.tenant o.d.wait1 then
      ((s.at now).slotsMet tag).opEnd tag scPOISON 0 0
    else if s.ready o ∧ !s.yields o then
      let s1 := (s.at now).slotsMet tag
      let o1 := { o with slots := [], phase := .issued, start := some s1.time, winOk := !smGet false s1.hif.clearing o.tenant }
      match o.group.findIdx? (fun p => (s.panel p).lost) with
      | some g => (s1.setOp tag o1).opEnd tag scPANEL (g % 128 * 4096) 0
      | none => f (s1.setOp tag o1) o1
    else s.letSlots tag

/-- Reads an operation's argument block (R120), or ends the operation. -/
def State.withArg (s : State) (tag : Nat) (o : Op) (n : Nat) (f : List Byte → State) : State :=
  match s.readDva (o.who tag) o.d.arg n with
  | .bad d e => (s.mmuFault (o.who tag) d e false).opEnd tag (faultStatus e) (faultDetail e 0x10020) 0
  | .ok b p => if p then s.opEnd tag scPOISON 0 0 else f b

/-- Ends an operation with a translation fault at a field (R473); bit 16 of `field` names the descriptor. -/
def State.opFault (s : State) (tag : Nat) (o : Op) (dva reason : Nat) (write : Bool) (field : Nat) : State :=
  (s.mmuFault (o.who tag) dva reason write).opEnd tag (faultStatus reason) (faultDetail reason field) 0

/-- Marks that an operation resolves addresses through its tenant's window, where a range of DVAs meets it (R329). -/
def State.useWindow (s : State) (tag dva : Nat) : State :=
  match s.op tag with
  | some o => if s.inWindow o.tenant dva then s.setOp tag { o with windowed := true } else s
  | none => s

/-- The owner's queue for tenant-disable records (R332). -/
def State.logCq (s : State) : Nat := s.fld pgHIF0 f_HIF_LOG_CQ

/-- Has the operation's SIGNAL to be performed (R117)? -/
def Op.signals (o : Op) : Bool := o.status == 0 || bits o.d.flags 2 2 == 1

/-- Performs the descriptor's SIGNAL and, for a SIGNAL operation that ends OK, its further signals. A SIGNAL operation that ends ARG_INVALID with
SIGNAL_ALWAYS set performs its descriptor's SIGNAL (R117) and none of its block's (R122; DEDUCED, log entry 34). -/
def State.doSignals (s : State) (o : Op) : State :=
  let s1 := if o.signals ∧ cfValid o.d.sig then s.relAdd o.tenant (cfCounter o.d.sig) o.d.sigAdd else s
  if o.d.opcode = 0xA ∧ o.status = 0 then o.further.foldl (fun (a : State) x => a.relAdd o.tenant x.1 x.2) s1 else s1

/-- SHORT_FRAME and LONG_FRAME of the RESULT RUN of an instance whose frame was short or long (R383). -/
def State.frameMarks (s : State) (o : Op) : Nat :=
  if o.cad ∧ s.fld (pgCAD o.ring) (f_CAD_TPL_CTL_W0_RESULT (o.d.seq % 16)) = 1 then smGet 0 s.ing.marks (o.ring * 2 ^ 28 + o.d.seq / 16 % 2 ^ 28)
  else 0

/-- The record of an ended operation; at a tenant disable it is the owner's (R332 step 2). -/
def State.opRecord (s : State) (tag : Nat) (o : Op) (fin : Nat) : CRec :=
  let off := s.writesOff o.tenant
  ⟨o.start.getD fin, fin, o.d.seq, tag, false, if off then scDISABLED else o.status,
   if off then cfDROPPED else o.flags ||| s.frameMarks o, o.ring, o.d.opcode, if off then o.tenant else o.detail, bits o.d.flags 0 0 == 1⟩

/-- Is a record of the operation due to its queue, or to the owner's, and not yet written? -/
def State.recordDue (s : State) (tag : Nat) (o : Op) : Bool :=
  let held := fun (t q : Nat) => (s.cq t q).due.any (fun x => !x.noTag && x.tag == tag && x.seq == o.d.seq)
  held o.tenant o.cq || held 0 s.logCq

/-- Completes an operation whose last part has ended: SIGNAL is added, then the record is due (R116); an abandoned operation's
record was made before, and its tag returns once that is posted (R114, R127). -/
def State.complete (s : State) (tag : Nat) : State :=
  match s.op tag with
  | none => s
  | some o =>
    let s1 := ((s.doSignals o).jobMove tag .held .transit).move pgHIF0 0 .held .transit 1
    if o.abandoned then (if s1.recordDue tag o then s1.setOp tag { o with phase := .due } else s1.returnTag tag)
    else
      let r := s.opRecord tag o s.time
      let off := s.writesOff o.tenant
      let s2 := s1.setOp tag { o with phase := .due, fin := s.time }
      if off then s2.recordMade o.tenant o.ring (if 64 ≤ o.ring then o.cq else s.logCq) 0 r false
      else s2.recordMade o.tenant o.ring o.cq o.tenant r (!o.cad)

/-- TIMEOUT expires (R127): the record is posted at once, the wait slots are reclaimed, and no further part starts. -/
def State.abandon (s : State) (tag : Nat) : State :=
  match s.op tag with
  | none => s
  | some o =>
    let s1 := s.reclaimSlots o.slots.length
    let o1 := { o with slots := [], abandoned := true, status := scTIMEOUT }
    let r := { s.opRecord tag { o1 with detail := o.detail } s.time with status := scTIMEOUT }
    let s2 := (s1.setOp tag o1).recordMade o.tenant o.ring o.cq o.tenant r (!o.cad)
    if o.parts = 0 then (s2.setOp tag { o1 with phase := .ended }).complete tag else s2

/-- Ends one of an operation's parts; with its last part ended, the operation has ended. -/
def State.partEnd (s : State) (tag : Nat) : State :=
  match s.op tag with
  | none => s
  | some o =>
    if o.phase ≠ .issued then s
    else if o.parts ≤ 1 then s.setOp tag { o with parts := 0, phase := .ended }
    else s.setOp tag { o with parts := o.parts - 1 }

end Sys2Proof.Machine
end

