-- ==== Sys2Proof/Machine/Image.lean ====
section
/-! DEFINITION. The cartoon image (R101 to R106): its sections and entries, the rules the module checks, and footprints. -/

namespace Sys2Proof.Machine

open Sys2Proof

/-! ### Fields -/

def imgPanels (b : List Byte) : Nat := leAt b 0x0C 1
def imgWindows (b : List Byte) : Nat := leAt b 0x20 4
def imgBindings (b : List Byte) : Nat := leAt b 0x24 4
def imgFootprints (b : List Byte) : Nat := leAt b 0x28 4

/-- Panel directory entry g (R102). -/
def imgDir (b : List Byte) (g : Nat) : List Byte := sub b (leAt b 0x30 4 + 32 * g) 32
def dirSteps (e : List Byte) : Nat := leAt e 0 4
def dirStepOff (e : List Byte) : Nat := leAt e 4 4
def dirSchedOff (e : List Byte) : Nat := leAt e 8 4
def dirSchedBytes (e : List Byte) : Nat := leAt e 12 4
def dirStreamOff (e : List Byte) : Nat := leAt e 16 4

/-- Step table entry k of directory entry g (R103). -/
def imgStep (b : List Byte) (g k : Nat) : List Byte := sub b (dirStepOff (imgDir b g) + 32 * k) 32
def stepCycles (e : List Byte) : Nat := leAt e 0 4
def stepBind (e : List Byte) (n : Nat) : Nat := leAt e (8 + n) 1
def stepWait (e : List Byte) : Nat := leAt e 12 1
def stepSignal (e : List Byte) : Nat := leAt e 13 1
def stepWaitAdd (e : List Byte) : Nat := leAt e 16 4
def stepSignalAdd (e : List Byte) : Nat := leAt e 20 4
/-- EN and counter slot of a WAIT or SIGNAL byte. -/
def slotEn (x : Nat) : Bool := x / 128 % 2 == 1
def slotOf (x : Nat) : Nat := x % 8

/-- Binding entry i (R104). -/
def imgBinding (b : List Byte) (i : Nat) : List Byte := sub b (leAt b 0x38 4 + 32 * i) 32
def bindOut (e : List Byte) : Bool := bits (leAt e 0 1) 0 0 == 1
def bindPeer (e : List Byte) : Nat := bits (leAt e 0 1) 2 1
def bindTarget (e : List Byte) : Nat := leAt e 1 1
def bindPal (e : List Byte) : Nat := leAt e 4 4
def bindOffset (e : List Byte) : Nat := leAt e 8 8
def bindRowBytes (e : List Byte) : Nat := leAt e 16 4
def bindRows (e : List Byte) : Nat := leAt e 20 4
def bindFarStride (e : List Byte) : Nat := leAt e 24 4
def bindPalStride (e : List Byte) : Nat := leAt e 28 4

/-- 64-byte units a binding moves. -/
def bindUnits (e : List Byte) : Nat := bindRows e * bindRowBytes e / 64

/-- Palette address, and far-side offset, of 64-byte unit u of a binding. Rows that run past 8 MiB of palette wrap where they are used (DESIGN CHOICE,
log entry 34). -/
def bindPalAt (e : List Byte) (u : Nat) : Nat :=
  let per := bindRowBytes e / 64
  bindPal e + u / per * bindPalStride e + u % per * 64
def bindFarAt (e : List Byte) (u : Nat) : Nat :=
  let per := bindRowBytes e / 64
  bindOffset e + u / per * bindFarStride e + u % per * 64

/-- Footprint entry i (R105), as first palette byte, length and phase bits. -/
def imgFootprint (b : List Byte) (i : Nat) : Nat := leAt b (leAt b 0x3C 4 + 4 * i) 4
def fpBase (f : Nat) : Nat := bits f 10 0 * 4096
def fpSize (f : Nat) : Nat := bits f 22 11 * 4096
def fpHead (f : Nat) : Bool := bits f 23 23 == 1
def fpTail (f : Nat) : Bool := bits f 24 24 == 1

/-- Lengths of the 64 streams of directory entry g. -/
def imgStreams (b : List Byte) (g : Nat) : List Nat := (List.range 64).map (fun c => leAt b (dirStreamOff (imgDir b g) + 4 * c) 4)

/-- The sum of a panel's step CYCLES plus 16 for each boundary (R88). -/
def dirCycles (b : List Byte) (g : Nat) : Nat :=
  let n := dirSteps (imgDir b g)
  ((List.range n).map (fun k => stepCycles (imgStep b g k))).sum + 16 * (n - 1)

/-! ### The rules the module checks -/

/-- The offset paired with the first failed test. -/
def firstBad : List (Nat × Bool) → Option Nat
  | [] => none
  | (o, ok) :: r => if ok then firstBad r else some o

/-- Do two byte ranges (start, length) meet? -/
def rangesMeet (a b : Nat × Nat) : Bool := 0 < a.2 && 0 < b.2 && a.1 < b.1 + b.2 && b.1 < a.1 + a.2

/-- The sections of an image: the offset of the field that places each, its start and its length. -/
def imgSections (b : List Byte) : List (Nat × Nat × Nat) :=
  [(0x30, leAt b 0x30 4, 32 * imgPanels b), (0x34, leAt b 0x34 4, 4 * imgWindows b), (0x38, leAt b 0x38 4, 32 * imgBindings b),
   (0x3C, leAt b 0x3C 4, 4 * imgFootprints b)] ++
  (List.range (imgPanels b)).flatMap (fun g =>
    let o := leAt b 0x30 4 + 32 * g
    let e := imgDir b g
    [(o + 4, dirStepOff e, 32 * dirSteps e), (o + 8, dirSchedOff e, dirSchedBytes e),
     (o + 16, dirStreamOff e, 256 + (imgStreams b g).sum)])

/-- The first section that breaks alignment or place, or meets an earlier one. -/
def sectionBad (len : Nat) : List (Nat × Nat × Nat) → List (Nat × Nat) → Option Nat
  | [], _ => none
  | (o, st, n) :: r, seen =>
    if st % 64 ≠ 0 ∨ st < 256 ∨ len < st + n + 64 ∨ seen.any (rangesMeet (st, n)) then some o
    else sectionBad len r ((st, n) :: seen)

/-- The header's own rules (R101), with the length and the group size that CARTOON_LOAD was given. -/
def headerTests (b : List Byte) (len group : Nat) : List (Nat × Bool) :=
  [(0x00, leAt b 0 4 == 0x4E544351), (0x04, leAt b 4 4 == 1), (0x08, leAt b 8 4 == 0x0B01),
   (0x0C, leAt b 0xC 4 == group && 1 ≤ group && group ≤ 128),
   (0x10, leAt b 0x10 4 == len && len % 64 == 0 && 320 ≤ len), (0x14, leAt b 0x14 4 == 0),
   (0x20, imgWindows b ≤ 1024), (0x24, imgBindings b ≤ 255), (0x28, imgFootprints b ≤ 64), (0x2C, leAt b 0x2C 4 == 0),
   (0x40, (sub b 0x40 0xC0).all (fun x => x == 0)), (len - 16, (sub b (len - 16) 16).all (fun x => x == 0))]

/-- The rules of a panel directory entry (R102). -/
def dirTests (b : List Byte) (g : Nat) : List (Nat × Bool) :=
  let o := leAt b 0x30 4 + 32 * g
  let e := imgDir b g
  [(o, 1 ≤ dirSteps e && dirSteps e ≤ 4096), (o + 12, dirSchedBytes e % 64 == 0 && dirSchedBytes e ≤ 229376),
   (o + 16, (imgStreams b g).all (fun n => n % 64 == 0 && n ≤ 32768)), (o + 20, leAt e 20 4 == 0),
   (o + 24, leAt e 24 8 == dirCycles b g)]

/-- The forbidden pairs on a step's format masks (R56, R103): T-weights pair with E4M3, E5M2, MXFP8 and INT8 only. -/
def formatsOk (a b : Nat) : Bool :=
  let ok := fun (m : Nat) => m &&& (0xFFFF - 0x011C) == 0
  (bits a 10 10 == 0 || ok b) && (bits b 10 10 == 0 || ok a)

/-- The rules of a step table entry (R103). -/
def stepTests (b : List Byte) (g k : Nat) : List (Nat × Bool) :=
  let o := dirStepOff (imgDir b g) + 32 * k
  let e := imgStep b g k
  [(o, 1 ≤ stepCycles e && stepCycles e ≤ 1048576), (o + 4, leAt e 4 4 < 4096)] ++
  (List.range 4).map (fun n => (o + 8 + n, stepBind e n == 0xFF || stepBind e n < imgBindings b)) ++
  [(o + 12, bits (stepWait e) 6 3 == 0), (o + 13, bits (stepSignal e) 6 3 == 0), (o + 14, leAt e 14 2 == 0),
   (o + 24, leAt e 24 2 < 0x2000 && formatsOk (leAt e 24 2) (leAt e 26 2)), (o + 26, leAt e 26 2 < 0x2000), (o + 28, leAt e 28 4 == 0)]

/-- The rules of a binding entry (R104). ROW_BYTES may be 2^20, which its field [19:0] cannot hold: that value, with bit 20 set, is taken (DESIGN CHOICE,
log entry 34). -/
def bindingTests (b : List Byte) (i : Nat) : List (Nat × Bool) :=
  let o := leAt b 0x38 4 + 32 * i
  let e := imgBinding b i
  [(o, leAt e 0 1 < 8 && bindPeer e ≤ 1), (o + 1, if bindPeer e = 0 then bindTarget e < 16 else bindTarget e < imgPanels b),
   (o + 2, leAt e 2 2 == 0), (o + 4, bindPal e < 0x800000 && bindPal e % 64 == 0),
   (o + 8, bindOffset e % 64 == 0 && (bindPeer e == 0 || bindOffset e < 0x800000)),
   (o + 16, 64 ≤ bindRowBytes e && bindRowBytes e ≤ 1048576 && bindRowBytes e % 64 == 0),
   (o + 20, 1 ≤ bindRows e && bindRows e ≤ 65535), (o + 24, bindFarStride e % 64 == 0),
   (o + 28, bindPalStride e < 0x800000 && bindPalStride e % 64 == 0)]

/-- The rules of a footprint entry (R105). -/
def footprintTests (b : List Byte) (i : Nat) : List (Nat × Bool) :=
  let o := leAt b 0x3C 4 + 4 * i
  let f := imgFootprint b i
  [(o, f < 0x2000000 && bits f 24 23 != 0 && 4096 ≤ fpSize f && fpSize f ≤ 0x800000)]

/-- Has a window entry no reserved value (R62)? ROUND is ignored for ACC128. -/
def windowOk (w : Nat) : Bool := w < 2 ^ 18 && bits w 17 14 < 8 && (bits w 12 10 < 5 || bits w 17 14 == 7)

/-- The byte offset of the first image rule of R101 to R105 that is broken. -/
def imageFault (b : List Byte) (len group : Nat) : Option Nat :=
  match firstBad (headerTests b len group) with
  | some o => some o
  | none =>
    match sectionBad len (imgSections b) [] with
    | some o => some o
    | none =>
      match firstBad ((List.range group).flatMap (dirTests b)) with
      | some o => some o
      | none =>
        firstBad ([(0x18, leAt b 0x18 8 == ((List.range group).map (fun g => leAt (imgDir b g) 24 8)).foldl max 0)] ++
          (List.range group).flatMap (fun g => (List.range (dirSteps (imgDir b g))).flatMap (stepTests b g)) ++
          (List.range (imgWindows b)).map (fun i => (leAt b 0x34 4 + 4 * i, windowOk (leAt b (leAt b 0x34 4 + 4 * i) 4))) ++
          (List.range (imgBindings b)).flatMap (bindingTests b) ++ (List.range (imgFootprints b)).flatMap (footprintTests b))

/-- Do the HEAD footprints of one image meet the TAIL footprints of another (R124)? -/
def headMeetsTail (b a : List Byte) : Bool :=
  (List.range (imgFootprints b)).any (fun i => fpHead (imgFootprint b i) && (List.range (imgFootprints a)).any (fun j =>
    fpTail (imgFootprint a j) &&
      rangesMeet (fpBase (imgFootprint b i), fpSize (imgFootprint b i)) (fpBase (imgFootprint a j), fpSize (imgFootprint a j))))

/-- The window table of an image (R62), as bytes. -/
def imgWindowTable (b : List Byte) : List Byte := sub b (leAt b 0x34 4) (4 * imgWindows b)

end Sys2Proof.Machine
end

