-- ==== Sys2Proof/Machine/Panels.lean ====
section
/-! DEFINITION. Shared operations of panels: cartoons and placements (R107 to R109), stream ports and their credits (R85, R86), the sequencer's start conditions and step ends (R88, R123, R124), fences of cores and panels (R93 to R97), residency (R128, R129). -/

namespace Sys2Proof.Machine

open Sys2Proof

/-! ### Cartoons -/

def cartKey (p t id : Nat) : Nat := (p * 64 + t) * 65536 + id
def State.cart (s : State) (p t id : Nat) : Option Cart := smFind s.pan.carts (cartKey p t id)
def State.setCarts (s : State) (m : SMap Cart) : State := { s with pan := { s.pan with carts := m } }

/-- Byte ranges that a placement takes in each kind of store: a core's instruction store, the schedule store, the step store. -/
def Cart.instrEnd (c : Cart) : Nat := c.instrBase + (imgStreams c.image c.g).foldl max 0
def Cart.schedEnd (c : Cart) : Nat := c.schedBase + 32768 + dirSchedBytes (imgDir c.image c.g)
def Cart.stepEnd (c : Cart) : Nat := c.stepBase + dirSteps (imgDir c.image c.g)

/-- Offsets of a panel's stores within its store space: 64 instruction stores, the schedule store, the step store. -/
def schedStore : Nat := 0x200000
def stepStore : Nat := 0x240000

/-- The cartoon record at the head of a schedule placement (R107 step 2): header, directory, window, binding and footprint tables and the stream
directory, one after the other (the record's layout is not in the manual: log entry 34). -/
def Cart.record (c : Cart) : List Byte :=
  let b := c.image
  sub b 0 256 ++ sub b (leAt b 0x30 4) (32 * imgPanels b) ++ sub b (leAt b 0x34 4) (4 * imgWindows b) ++
    sub b (leAt b 0x38 4) (32 * imgBindings b) ++ sub b (leAt b 0x3C 4) (4 * imgFootprints b) ++ sub b (dirStreamOff (imgDir b c.g)) 256

/-- The (offset, bytes) pieces that a placement writes (R107 step 2). -/
def Cart.pieces (c : Cart) : List (Nat × List Byte) :=
  let e := imgDir c.image c.g
  let lens := imgStreams c.image c.g
  let starts := (List.range 64).map (fun i => dirStreamOff e + 256 + (lens.take i).sum)
  ((List.range 64).map (fun i => (i * 32768 + c.instrBase, sub c.image (starts.getD i 0) (lens.getD i 0)))) ++
  [(schedStore + c.schedBase, c.record), (schedStore + c.schedBase + 32768, sub c.image (dirSchedOff e) (dirSchedBytes e)),
   (stepStore + 32 * c.stepBase, sub c.image (dirStepOff e) (32 * dirSteps e))]

/-- Writes bytes of a panel's stores for a tenant: in the panel where the tenant is resident or the panel is not SHARED, else in
the tenant's save slot. -/
def State.storeWrite (s : State) (p t o : Nat) (bs : List Byte) : State :=
  if s.panelMode p = 0 ∧ s.fld (pnlPage p) f_PNL_STATUS_RESIDENT ≠ t then
    let x := s.savedOf p t
    s.setSaved p t { x with stores := cWrite x.stores o bs }
  else { s with mem := { s.mem with stores := cWrite s.mem.stores (p * 0x400000 + o) bs } }

/-- Marks every cartoon loaded on a panel that uses one of the store bytes at `o` stale; `none` marks them all (R92, R93). On a
SHARED panel only the resident tenant's cartoons are touched. -/
def State.markStale (s : State) (p : Nat) (o : Option Nat) : State :=
  let res := s.fld (pnlPage p) f_PNL_STATUS_RESIDENT
  s.setCarts (s.pan.carts.map (fun e =>
    let pt := e.1 / 65536
    let hit := match o with | none => true | some a => e.2.pieces.any (fun x => x.1 ≤ a && a < x.1 + x.2.length)
    if pt / 64 = p ∧ (s.panelMode p ≠ 0 ∨ pt % 64 = res) ∧ hit = true then (e.1, { e.2 with stale := true }) else e))

/-- Do two placements of one tenant on one panel meet in a store? -/
def Cart.meets (a b : Cart) : Bool :=
  rangesMeet (a.instrBase, a.instrEnd - a.instrBase) (b.instrBase, b.instrEnd - b.instrBase) ||
  rangesMeet (a.schedBase, a.schedEnd - a.schedBase) (b.schedBase, b.schedEnd - b.schedBase) ||
  rangesMeet (a.stepBase, a.stepEnd - a.stepBase) (b.stepBase, b.stepEnd - b.stepBase)

/-! ### Ports and credits -/

def State.port (s : State) (p n : Nat) : Option Port := smFind (s.panel p).ports n
def State.setPort (s : State) (p n : Nat) (x : Port) : State :=
  let y := s.panel p
  s.setPanel p { y with ports := smPut y.ports n x }
def State.dropPort (s : State) (p n : Nat) : State :=
  let y := s.panel p
  s.setPanel p { y with ports := smDel y.ports n }

/-- The port entry under which client SPn's outbound bindings wait or drain: the oldest. -/
def State.outPort (s : State) (p n : Nat) : Option (Nat × Port) := (s.panel p).ports.find? (fun e => decide (4 ≤ e.1) && e.1 % 4 == n)

/-- The key for one more outbound binding of client SPn, behind those that still drain. -/
def Panel.outKey (x : Panel) (n : Nat) : Nat := ((x.ports.filter (fun e => e.1 % 4 == n)).map (fun e => e.1)).foldl max n + 4

/-- Shows the progress of SPn's binding in PNL_PORTn: the inbound one, or else the outbound one that drains. -/
def State.showPort (s : State) (p n : Nat) : State :=
  let pg := pnlPage p
  match (s.port p n).or ((s.outPort p n).map (fun e => e.2)) with
  | none => s.setWord pg (r_PNL_PORT n) 0
  | some x => s.setWord pg (r_PNL_PORT n) (BitVec.ofNat 32 (x.state + (if bindOut x.bind then 4 else 0) + x.units * 256))

/-- Grants a credit for each free slot of a filling port (R85): free slots become in transit. While a palette move runs none is granted (R129). -/
def State.grant (s : State) (p n : Nat) : State :=
  match s.port p n with
  | none => s
  | some x =>
    if x.state ≠ 1 ∨ (s.panel p).moving.isSome then s
    else
      let more := 32 - smGet 0 (s.panel p).withdrawn n - x.granted
      (s.move (pnlPage p) 0 .free .transit more).setPort p n { x with granted := x.granted + more }

/-- A full port's unused credits come back: its sender has nothing left to send. -/
def State.ungrant (s : State) (p n : Nat) : State :=
  match s.port p n with
  | none => s
  | some x => (s.move (pnlPage p) 0 .transit .free x.granted).setPort p n { x with granted := 0 }

/-- One slot of data passes through a client's staging: its credit goes from in transit through held to free (R86). -/
def State.landCredit (s : State) (p : Nat) : State := (s.move (pnlPage p) 0 .transit .held 1).move (pnlPage p) 0 .held .free 1

/-- Withdraws the grants of one tag's filling ports and drops its ports (R86). -/
def State.dropPorts (s : State) (p tag : Nat) : State :=
  let y := s.panel p
  let lost := fun (n : Nat) => ((y.ports.filter (fun e => e.1 == n && e.2.tag == tag)).map (fun e => e.2.granted)).sum
  let w := (List.range 4).foldl (fun (m : SMap Nat) n => smSet 0 m n (smGet 0 m n + lost n)) y.withdrawn
  let s1 := s.setPanel p { y with withdrawn := w, ports := y.ports.filter (fun e => e.2.tag != tag) }
  (List.range 4).foldl (fun (a : State) n => a.showPort p n) s1

/-- The base address or peer panel of an operation's binding. -/
def bindFar (o : Op) (e : List Byte) : Nat :=
  if bindPeer e = 0 then leAt o.args (0xA0 + 8 * (bindTarget e % 16)) 8 else o.group.getD (bindTarget e) 0

/-- Opens the bindings of one direction that a step names: an inbound one where its port is idle, an outbound one behind those of its port that
still drain. -/
def State.openBinds (s : State) (p tag k : Nat) (w : Work) (out : Bool) : State :=
  match s.op tag with
  | none => s
  | some o =>
    let e := imgStep w.image w.entry k
    (List.range 4).foldl (fun (a : State) n =>
      let b := imgBinding w.image (stepBind e n)
      if stepBind e n = 0xFF ∨ bindOut b != out then a
      else if out then (a.setPort p ((a.panel p).outKey n) ⟨3, tag, k, b, bindFar o b, 0, bindUnits b, 0⟩).showPort p n
      else if (a.port p n).isSome then a
      else ((a.setPort p n ⟨1, tag, k, b, bindFar o b, 0, bindUnits b, 0⟩).grant p n).showPort p n) s

/-! ### The sequencer -/

/-- The tenant whose state a panel holds, 0x3F for none. -/
def State.resident (s : State) (p : Nat) : Nat := s.fld (pnlPage p) f_PNL_STATUS_RESIDENT

/-- The first work of a panel that is not done: on a SHARED panel, the resident tenant's. -/
def State.headWork (s : State) (p : Nat) : Option Work :=
  (s.panel p).work.find? (fun w => !w.done && (s.panelMode p != 0 || w.tenant == s.resident p))

/-- Replaces a tag's work on a panel. -/
def State.setWork (s : State) (p : Nat) (w : Work) : State :=
  let x := s.panel p
  s.setPanel p { x with work := x.work.map (fun y => if y.tag == w.tag then w else y) }

/-- May a step's or an operation's inbound bindings begin to fill: those of the step after the running one, those of the next step,
or step 0 of the following operation during the last step of the one before it unless their footprints meet (R123, R124). -/
def State.fillPorts (s : State) (p : Nat) : State :=
  let ws := (s.panel p).work.filter (fun w => !w.done && (s.panelMode p != 0 || w.tenant == s.resident p))
  match ws with
  | [] => s
  | w :: r =>
    let k := if w.running then w.step + 1 else w.step
    if w.kind ≠ 0 then s
    else if k < w.steps then s.openBinds p w.tag k w false
    else match r with
      | [] => s
      | v :: _ => if v.kind ≠ 0 ∨ headMeetsTail v.image w.image then s else s.openBinds p v.tag 0 v false

/-- Is every inbound binding of a step full? -/
def State.inFull (s : State) (p : Nat) (w : Work) : Bool :=
  (List.range 4).all (fun n =>
    let i := stepBind (imgStep w.image w.entry w.step) n
    i == 0xFF || bindOut (imgBinding w.image i) ||
      (s.port p n).any (fun x => x.tag == w.tag && x.step == w.step && x.state == 2))

/-- The window table in force for an operation (R58, R121). -/
def tableOf (o : Op) (image : List Byte) : List Byte := if o.table = [] then imgWindowTable image else o.table

/-- Does an outbound binding that still drains touch a word the step writes (R123)? For step 0 of an operation after another the footprints
decide (R124). -/
def State.drainMeets (s : State) (p : Nat) (w : Work) : Bool :=
  let tbl := match s.op w.tag with | some o => tableOf o w.image | none => []
  (s.panel p).ports.any (fun e => e.2.state == 3 &&
    (if e.2.tag != w.tag ∧ w.step = 0 then
       (s.panel p).work.any (fun v => v.tag == e.2.tag && headMeetsTail w.image v.image)
     else (List.range (e.2.need - e.2.units)).any (fun u => (List.range 8).any (fun i =>
       stepWrites w.image tbl w.entry w.step (bindPalAt e.2.bind (e.2.units + u) % 0x800000 / 8 + i)))))

/-- The counter and threshold of a step's WAIT, where EN. -/
def State.stepWaitOn (s : State) (o : Op) (x add : Nat) : Option (Nat × Nat) :=
  if slotEn x then
    let a := 0x20 + 16 * slotOf x
    (s.relCounter o.tenant (cfCounter (leAt o.args a 4))).map (fun c => (c, leAt o.args (a + 8) 8 + add))
  else none

/-- The RUN in progress on a panel: the first work of which a step has begun and that has not left. -/
def State.runOn (s : State) (p : Nat) : Option Nat := ((s.panel p).work.find? (fun w => w.running || w.step != 0 || w.done)).map (fun w => w.tag)

/-- The core position that leaves service at the next step boundary: the first of those waiting that is a fence, or a retirement that a RESERVED panel
admits, at most one during each RUN (R162). -/
def State.coreDue (s : State) (p : Nat) : Option CoreOut :=
  let x := s.panel p
  x.coreOut.find? (fun c => !c.proactive || s.panelMode p != 2 || (s.runOn p).isNone || x.retiredIn != s.runOn p)

/-- Is the panel free to start a step: its page RUNNING and awake, its quad cleared, no move or substitution? -/
def State.panelReady (s : State) (p : Nat) : Bool :=
  s.running (pnlPage p) && s.fld (pnlPage p) fQUIESCE == 0 && s.fld (pnlPage p) fCURRENT == 0 &&
  s.fld (pnlPage p) fTRANSITION == 0 && !(s.panel p).substing && (s.panel p).moving.isNone && (s.coreDue p).isNone && !s.stepRuns p

/-- The entries of a map at `b` to `b + n − 1`, counted from `b`. -/
def smCut {α : Type} (m : SMap α) (b n : Nat) : SMap α :=
  (m.filter (fun e => decide (b ≤ e.1 ∧ e.1 < b + n))).map (fun e => (e.1 - b, e.2))

/-- A panel's own palette bytes, by palette address. -/
def State.palOf (s : State) (p : Nat) : List Host.Cell := smCut s.mem.pal (p * 0x800000) 0x800000

/-- Puts the entries of a list below `n` in place of those of a map at `b` to `b + n − 1`. -/
def smSplice {α : Type} (m : SMap α) (b n : Nat) (x : SMap α) : SMap α :=
  m.filter (fun e => decide (e.1 < b)) ++ (x.filter (fun e => decide (e.1 < n))).map (fun e => (e.1 + b, e.2)) ++
    m.filter (fun e => decide (b + n ≤ e.1))

/-- Replaces a panel's palette bytes. -/
def State.setPalOf (s : State) (p : Nat) (m : List Host.Cell) : State :=
  let q := smSplice s.mem.pal (p * 0x800000) 0x800000 m
  { s with mem := { s.mem with pal := q } }

/-- Adds a step's SIGNAL once its outbound bindings have drained (R103). -/
def State.addStepSignal (s : State) (o : Op) (w : Work) (k : Nat) : State :=
  if o.abandoned then s
  else
    let e := imgStep w.image w.entry k
    match s.stepWaitOn o (stepSignal e) 0 with
    | some (c, _) => if s.writesOff o.tenant then s else s.synAdd c (stepSignalAdd e)
    | none => s

/-- Takes a finished work off its panel and ends that part of its operation. -/
def State.workOff (s : State) (p tag : Nat) : State :=
  let x := s.panel p
  if x.work.any (fun w => w.tag == tag) then
    (s.setPanel p { x with work := x.work.filter (fun w => w.tag != tag) }).partEnd tag
  else s

/-- Does an outbound binding of the tag still drain on the panel, of a step given or of any? -/
def State.drains (s : State) (p tag : Nat) (k : Option Nat) : Bool :=
  (s.panel p).ports.any (fun e => e.2.tag == tag && e.2.state == 3 && (k.isNone || k == some e.2.step))

/-- Ends an operation on every panel of its group where none of its steps runs and nothing of it drains: no later step runs. -/
def State.endOnPanels (s : State) (tag : Nat) : State :=
  match s.op tag with
  | none => s
  | some o => o.group.foldl (fun (a : State) p =>
      if (a.panel p).work.any (fun w => w.tag == tag && (w.running || (w.done && a.drains p tag none))) then a
      else (a.dropPorts p tag).workOff p tag) s

/-- DETAIL of a boundary (R119). -/
def boundary (k g : Nat) : Nat := k % 4096 + g % 128 * 4096

/-- Gives an operation a status at a boundary, and ends it on the panels. -/
def State.endAt (s : State) (tag status k g : Nat) : State := (s.opMark tag status (boundary k g)).endOnPanels tag

/-- The status that ends an operation at a boundary, 0 for none; where several apply, which of them it is stays open (log entry 8). -/
def boundaryStatus (l : List (Bool × Nat)) : Nat :=
  match (l.filter (fun x => x.1)).map (fun x => x.2) with
  | [] => 0
  | [x] => x
  | x :: y :: r => (x :: y :: r).getD (Config.boundaryPick (x :: y :: r) % (r.length + 2)) x

/-- A work's outbound bindings have drained: the step's SIGNAL is added, and a work whose last step has ended leaves the panel. -/
def State.drained (s : State) (p tag k : Nat) : State :=
  match (s.panel p).work.find? (fun w => w.tag == tag), s.op tag with
  | some w, some o =>
    if s.drains p tag (some k) then s
    else
      let s1 := s.addStepSignal o w k
      if w.done ∧ !s1.drains p tag none then s1.workOff p tag else s1
  | _, _ => s

/-- The panel's own clock point: the slower of its POINT and its canvas's (R100), lowered by the throttle (R451), a RESERVED
panel never below its domain's floor (R15). -/
def State.clockPoint (s : State) (p : Nat) : Nat :=
  let b := max (s.fld (pnlPage p) fPOINT) (s.fld (cnvPage (p / 32)) fPOINT)
  let n := min 3 (b + (s.panel p).slow)
  if s.panelMode p = 2 then max b (min n (s.fld (pgCAD (s.panelDomain p)) f_CAD_DOM_CTRL_FLOOR)) else n

/-- A clock change takes effect at a step boundary (R88); on a RESERVED panel at most two during each RUN (R161). -/
def State.applyClock (s : State) (p : Nat) : State :=
  let x := s.panel p
  let inRun := s.panelMode p == 2 && (s.runOn p).isSome
  if s.clockPoint p = s.fld (pnlPage p) fACTUAL then (if inRun then s else s.setPanel p { x with clocked := 0 })
  else if inRun ∧ 2 ≤ x.clocked then s
  else (s.setPanel p { x with clocked := if inRun then x.clocked + 1 else 0 }).setFld (pnlPage p) fACTUAL (s.clockPoint p)

/-! ### What a step does to its panel (R77, R79, R131) -/

/-- The palette byte that operation `i` of the running step reads: what the palette holds, or, where a drain port has written it while the step ran,
either that or what stood before, which is open (R79, R75; log entry 35). -/
def State.stepSees (s : State) (p i a : Nat) : Byte :=
  let now := cGet s.mem.pal (p * 0x800000 + a)
  match smFind s.mem.palBefore (p * 0x800000 + a) with
  | some b => if Config.freeNat (s.free + i * 0x100000 + a / 8) % 2 = 0 then b else now
  | none => now

/-- What the cores of the panel do in the running step of a work, before any of it is stored. -/
def State.stepCores (s : State) (p : Nat) (w : Work) (o : Op) : CoreSt :=
  runOps ⟨leAt o.args 8 8, tableOf o w.image, fun _ => 0⟩ (fun i a => s.stepSees p i a) (Config.stepOps w.image w.entry w.step)

/-- The bytes that a step stores: those its operations wrote, open where its accesses conflicted (R84); a word that a drain port wrote too holds
either, which is open (R79). -/
def State.stepStores (s : State) (p : Nat) (c : CoreSt) (conflict : Bool) : List (Nat × Byte) :=
  (c.wr.filter (fun e => (smFind s.mem.palBefore (p * 0x800000 + e.1)).isNone || Config.freeNat (s.free + 2 ^ 40 + e.1 / 8) % 2 == 0)).map
    (fun e => (e.1, if conflict then BitVec.ofNat 8 (Config.freeNat (s.free + 2 ^ 41 + e.1)) else e.2))

/-- Stores a step's bytes; a word that it writes whole loses its poison (R80). -/
def State.stepWrite (s : State) (p : Nat) (l : List (Nat × Byte)) : State :=
  let whole := fun (w : Nat) => (List.range 8).all (fun i => l.any (fun e => e.1 == 8 * w + i))
  let s1 := l.foldl (fun (a : State) e => a.palStore p e.1 [e.2]) s
  { s1 with mem := { s1.mem with palPoison := s1.mem.palPoison.filter (fun x => decide (x.1 / 0x100000 ≠ p) || !whole (x.1 % 0x100000)),
                                 palBefore := cClear s1.mem.palBefore (p * 0x800000) 0x800000 } }

/-- The running step of a panel ends after exactly its CYCLES (R88): counts, the palette it leaves, what its cores found (R60, R69,
R80, R84), the outbound bindings that begin to drain (R123), and any end of the operation at this boundary. -/
def State.stepEnd (s : State) (p : Nat) (w : Work) (o : Op) : State :=
  let pg := pnlPage p
  let k := w.step
  let e := imgStep w.image w.entry k
  let fnd := s.stepCores p w o
  let conflict := Config.stepConflict w.image w.entry k
  let pois := s.mem.palPoison.any (fun x => decide (x.1 / 0x100000 = p) && stepReads w.image w.entry k (x.1 % 0x100000))
  let s1 := s.stepWrite p (s.stepStores p fnd conflict)
  let s2 := { s1 with free := s.free + 2 ^ 42 }
  let s3 := (s2.setWide pg r_PNL_CYCLES_LO (s2.wideOf pg r_PNL_CYCLES_LO + stepCycles e)).countUp pg r_PNL_STEPS 1
  let s4 := s3.setFld pg f_PNL_STATUS_STEP_ACTIVE 0
  let s5 := if pois then s4.event pg ev_pnl_POISON_READ else s4
  let s6 := if conflict then s5.event pg ev_pnl_SCHEDULE_CONFLICT else s5
  let s7 := if (if conflict then decide (Config.freeNat (s.free + 2 ^ 41 + 2 ^ 24) % 2 = 1) else fnd.ovf) then (match s6.op w.tag with
      | some q => s6.setOp w.tag { q with flags := q.flags ||| 8 }
      | none => s6) else s6
  let st := if o.status ≠ 0 ∨ o.abandoned ∨ s.writesOff o.tenant then 0xFF else
    boundaryStatus [(w.endWith != 0, w.endWith), (fnd.trap, scTRAP), (conflict, scCONFLICT), (pois, scPOISON)]
  let last := decide (st ≠ 0 ∨ w.step + 1 = w.steps)
  let s8 := s7.setWork p { w with running := false, done := last, step := if last then k else k + 1, endWith := 0 }
  let s9 := if o.abandoned ∨ s.writesOff o.tenant then s8 else s8.openBinds p w.tag k w true
  let s10 := s9.drained p w.tag k
  let s11 := if st ≠ 0 ∧ st ≠ 0xFF then s10.endAt w.tag st k w.g else if st = 0xFF then s10.endOnPanels w.tag else s10
  (s11.fillPorts p).applyClock p

/-- Can the step of a work start (R123)? -/
def State.canStart (s : State) (p : Nat) (w : Work) (o : Op) : Bool :=
  s.panelReady p && w.kind == 0 && o.status == 0 && !o.abandoned && !s.writesOff o.tenant && s.inFull p w && !s.drainMeets p w &&
  (w.step != 0 || o.group.all (fun q => s.panelMode q != 0 || s.resident q == o.tenant)) &&
  (match s.stepWaitOn o (stepWait (imgStep w.image w.entry w.step))
      (stepWaitAdd (imgStep w.image w.entry w.step)) with
   | some (c, thr) => thr ≤ s.counter c
   | none => true)

/-- Starts a step: its inbound bindings are consumed, and those of the next step begin to fill. -/
def State.startStep (s : State) (p : Nat) (w : Work) : State :=
  let pg := pnlPage p
  let x := s.panel p
  let s0 := { s with mem := { s.mem with palBefore := cClear s.mem.palBefore (p * 0x800000) 0x800000 } }
  let s1 := s0.setPanel p { x with ports := x.ports.filter (fun e => !(e.2.tag == w.tag && e.2.step == w.step && e.2.state == 2)) }
  let s2 := ((s1.setFld pg f_PNL_STATUS_STEP_ACTIVE 1).setFld pg f_PNL_STATUS_TAG w.tag).setWork p { w with running := true }
  let s3 := (List.range 4).foldl (fun (a : State) n => a.showPort p n) s2
  let s4 := if s3.panelMode p = 0 then s3 else s3.setFld pg f_PNL_STATUS_RESIDENT w.tenant
  s4.fillPorts p

/-! ### Fences of cores and panels -/

/-- The physical position that holds a logical core, and the reverse. -/
def State.physOf (s : State) (p l : Nat) : Nat := smGet l (s.panel p).coreMap l
def State.logicalOf (s : State) (p phys : Nat) : Option Nat := (List.range 64).find? (fun l => s.physOf p l == phys)

/-- PNL_SPARES.FREE falls to the positions left (R94). -/
def State.sparesLeft (s : State) (p n : Nat) : State :=
  let pg := pnlPage p
  let s1 := s.setFld pg f_PNL_SPARES_FREE n
  if n = 1 then s1.event pg ev_pnl_SPARES_LOW else if n = 0 then s1.event pg ev_pnl_SPARES_EXHAUSTED else s1

/-- The panel faults as a whole: a position is lost and no spare is free (R94). -/
def State.coreless (s : State) (p phys : Nat) : State := s.escalate (pnlPage p) 7 2 0 phys 0 ((s.openRec (pnlPage p)).map (fun e => e.1))

/-- Fences a core position (R92, R93): the operation whose step runs ends at that boundary with CORE_FAULT, and the spare takes the number before
any other step; with no free spare the panel faults as a whole (R94). A free spare position that is fenced is no spare from then on; one that has
left service already changes nothing. -/
def State.fenceCore (s : State) (p phys : Nat) : State :=
  let x := s.panel p
  let outs := x.coreOut.filter (fun c => c.phys != phys)
  if x.freeSpares.contains phys then
    (let l := x.freeSpares.filter (fun q => q != phys)
     (s.setPanel p { x with freeSpares := l }).sparesLeft p l.length)
  else if (s.logicalOf p phys).isNone then s
  else if x.freeSpares.length ≤ (outs.filter (fun c => !c.proactive)).length then s.coreless p phys
  else s.setPanel p { x with coreOut := (outs.filter (fun c => !c.proactive)) ++ [⟨phys, false, false⟩] ++ outs.filter (fun c => c.proactive),
                             work := x.work.map (fun w => if w.running then { w with endWith := if w.endWith = 0 then scCORE else w.endWith } else w) }

/-- A position is retired proactively at the next step boundary that admits it (R93, R162); one that waits already, or is out of service, is not
queued again. -/
def State.retireCore (s : State) (p phys : Nat) (commanded : Bool) : State :=
  let x := s.panel p
  if (s.logicalOf p phys).isNone ∨ x.coreOut.any (fun c => c.phys == phys) then s
  else s.setPanel p { x with coreOut := x.coreOut ++ [⟨phys, commanded, true⟩] }

/-- The lowest-numbered free spare takes the logical number of the position that leaves service (R93, R94); a cartoon that uses an instruction-store
word at one of the offsets `ue` of that position, which could not be corrected, is stale. With no spare left a retirement is dropped. -/
def State.substCore (s : State) (p : Nat) (ue : List Nat) : State :=
  let x := s.panel p
  let pg := pnlPage p
  match s.coreDue p with
  | none => s
  | some c =>
    let outs := x.coreOut.filter (fun d => d.phys != c.phys)
    match s.logicalOf p c.phys, x.freeSpares with
    | some l, sp :: sps =>
      let run := if c.proactive && s.panelMode p == 2 then s.runOn p else x.retiredIn
      let s1 := s.setPanel p { x with coreOut := outs, freeSpares := sps, coreMap := smSet l x.coreMap l sp, retiredIn := run }
      let s2 := ue.foldl (fun (a : State) o => a.markStale p (some (l * 32768 + o))) s1
      let s3 := s2.countFld pg f_PNL_SPARES_SUBST_COUNT 1
      let s4 := (s3.setFld pg f_PNL_SPARES_LAST_LOGICAL l).setFld pg f_PNL_SPARES_LAST_PHYS sp
      let s5 := (s4.event pg ev_pnl_CORE_SUBSTITUTED).sparesLeft p sps.length
      s5.journal (s5.mkRec spCORE 0 c.commanded pg 0 0 c.phys 0 [l, sp, c.phys])
    | some _, [] => if c.proactive then s.setPanel p { x with coreOut := outs } else s.coreless p c.phys
    | none, _ => s.setPanel p { x with coreOut := outs }

/-- The canvas spare takes a logical panel's number and state (R95 steps 1 and 2). -/
def State.substPanel (s : State) (p : Nat) (commanded : Bool) : State :=
  let c := p / 32
  let x := s.panel p
  let s1 := (s.setPanel p { x with substing := false, onSpare := true, dead := false, coreMap := [], freeSpares := [64, 65, 66, 67], coreOut := [] }).setCanvas c
    { s.canvas c with spare := 1, serving := p % 32, retire := (s.canvas c).retire.filter (fun q => q != p) }
  let s2 := if x.dead then
      let q := smSplice s1.mem.palPoison (p * 0x100000) 0x100000 ((List.range 0x100000).map (fun i => (i, true)))
      ({ s1 with mem := { s1.mem with palPoison := q } }).markStale p none
    else s1
  let s3 := s2.setFld (pnlPage p) f_PNL_SPARES_FREE 4
  let s4 := s3.event (cnvPage c) ev_cnv_PANEL_SUBSTITUTED
  s4.journal (s4.mkRec spPANEL 0 commanded (pnlPage p) 0 0 0 0 [c, p % 32, if x.onSpare then 32 else p % 32])

/-- Ends at once, with the status its fence gave, every operation on the panel that is at a boundary (R95, R96). -/
def State.sweepPanel (s : State) (p : Nat) : State :=
  ((s.panel p).work.filter (fun w => w.endWith != 0 && !w.running)).foldl (fun (a : State) w => a.endAt w.tag w.endWith w.step w.g) s

/-! ### Residency (R128, R129) -/

/-- Tenants with work on a panel. -/
def State.workTenants (s : State) (p : Nat) : List Nat := (s.panel p).work.map (fun w => w.tenant)

/-- Has a tenant PRIORITY 0 work on the panel? -/
def State.urgent (s : State) (p t : Nat) : Bool :=
  (s.panel p).work.any (fun w => w.tenant == t && (s.op w.tag).any (fun o => o.d.priority == 0))

/-- The tenant whose turn is next among those with ready work: PRIORITY 0 first, then in increasing tenant number after the resident. -/
def State.nextTenant (s : State) (p : Nat) : Option Nat :=
  let r := s.resident p
  let cand := (List.range 33).filter (fun t => t != r && (s.workTenants p).contains t)
  match cand.find? (fun t => s.urgent p t) with
  | some t => some t
  | none => match cand.find? (fun t => decide (r < t) || r == 0x3F) with
    | some t => some t
    | none => cand.head?

/-- Puts a panel's state into its tenant's save slot with its tag, leaving zeros (R98, R129 step 4); the progress of the bindings is kept. -/
def State.savePanel (s : State) (p t : Nat) : State :=
  let st := smCut s.mem.stores (p * 0x400000) 0x400000
  let po := smCut s.mem.palPoison (p * 0x100000) 0x100000
  let ports := (s.panel p).ports.map (fun e => (e.1, { e.2 with granted := 0 }))
  ((s.setSaved p t ⟨s.palOf p, po, st, ports, [], false⟩).palZero p).storesZero p

/-- Restores a tenant's saved state into a panel that holds zeros. -/
def State.restorePanel (s : State) (p t : Nat) : State :=
  let x := s.savedOf p t
  let s1 := s.setPalOf p x.pal
  let po := smSplice s1.mem.palPoison (p * 0x100000) 0x100000 x.poison
  let st := smSplice s1.mem.stores (p * 0x400000) 0x400000 x.stores
  let s2 := ({ s1 with mem := { s1.mem with palPoison := po, stores := st } }).setSaved p t savedReset
  s2.setPanel p { s2.panel p with ports := x.ports }

/-- Takes back every grant of a panel for a palette move, once nothing is in transit (R129 step 2): unused credits return to free. -/
def State.ungrantAll (s : State) (p : Nat) : State := (List.range 4).foldl (fun (a : State) n => a.ungrant p n) s

/-- The ports of a panel show their progress, and those that fill are granted credits again. -/
def State.portsBack (s : State) (p : Nat) : State :=
  (List.range 4).foldl (fun (a : State) n => (a.grant p n).showPort p n) s

end Sys2Proof.Machine
end

