-- ==== Sys2Proof/Machine/Pages.lean ====
section
/-! DEFINITION. The register pages (02): plain register writes, events, error capture, ledger snapshots, DOZE, clock points, the timebase reads. -/

namespace Sys2Proof.Machine

open Sys2Proof

/-- What an access to a register page does where it reaches the module: writes through the TNT mirror are discarded (R28), and a page
no block occupies counts non-zero writes (R26). -/
def State.access (s : State) (a : Acc) (v : Word) (f : Nat → State → State) : State :=
  s.via (accFn a) (fun s1 =>
    if !pageExists (accPage a) then s1.unmappedWrite v.toNat
    else if !accWrites a then s1.discard (accPage a)
    else f (accPage a) s1)

/-- The checked registers of a page take writes (R34). -/
def State.checkedOpen (s : State) (page : Nat) : Bool := s.st page == stOFF || s.st page == stREFUSED

/-- The new word of a register after a write: RW fields, RWL fields while LOCK is 0, W1C and W1S fields (00's access codes). -/
def RegRow.apply (r : RegRow) (lock : Bool) (old v : Word) : Word :=
  let m := BitVec.ofNat 32 (if lock then r.rw else r.rw ||| r.rwl)
  (((old &&& ~~~m) ||| (v &&& m)) &&& ~~~(v &&& BitVec.ofNat 32 r.w1c)) ||| (v &&& BitVec.ofNat 32 r.w1s)

/-- A write that stores a register's fields (R34, R37) at the register's home page; the access rules are those of the page written. -/
def State.storeAt (s : State) (page home w : Nat) (v : Word) : State :=
  match regRow (pageKind page) w with
  | none => if v = 0#32 then s else s.discard page
  | some r =>
    if r.checked && !s.checkedOpen page then s.discard page
    else
      let bad := decide (v.toNat &&& r.rsv ≠ 0)
      let s1 := { s with rsv := smSet false s.rsv (home * 1024 + w) bad }
      let s2 := if bad && !r.checked then s1.discard page else s1
      s2.setWord home w (r.apply (s2.fld page fLOCK == 1) (s2.word home w) v)

/-- A write that stores a register's fields in its own page. -/
def State.storeReg (s : State) (page w : Nat) (v : Word) : State := s.storeAt page page w v

/-! ### Events (R36) -/

/-- A W1C write to EVT_RAW. What the write itself makes the module set (WRITE_DISCARDED for its reserved bits, R37) is a hardware set of the
same cycle, which wins over the clear. -/
def State.evtClear (s : State) (page : Nat) (v : Word) : State :=
  ((s.setWord page hRAW (s.word page hRAW &&& ~~~v)).irq page).noteRsv page hRAW v

/-- A write to EVT_ENABLE: undefined bits are never stored. -/
def State.evtEnable (s : State) (page : Nat) (v : Word) : State :=
  let s1 := s.noteRsv page hENA v
  (s1.setWord page hENA (v &&& BitVec.ofNat 32 (evtBits (pageKind page)))).irq page

/-- A write to EVT_FORCE: each defined bit written 1 acts as a hardware set. -/
def State.evtForceW (s : State) (page : Nat) (v : Word) : State :=
  (List.range 32).foldl (fun (a : State) b => if bitOf v b && evtBits (pageKind page) / 2 ^ b % 2 == 1 then a.event page b else a)
    (s.noteRsv page 7 v)

/-- EVT_RAW_CLEAR: the write and hardware sets are taken one after the other, so a set of the same cycle is a later command and wins. -/
def execEvtRawClear (a : Acc) (v : Word) (s : State) : Host.Outcome State Fault Refusal :=
  .next (s.access a v (fun page s1 => s1.evtClear page v))

/-- EVT_FORCE. -/
def execEvtForce (a : Acc) (v : Word) (s : State) : Host.Outcome State Fault Refusal :=
  .next (s.access a v (fun page s1 => s1.evtForceW page v))

/-! ### Error capture (R38) -/

/-- A write to ERR_STATUS: W1C of VALID (which clears MERGE) and OVERFLOW, and CLR_COUNTS, which also sets the poller's baseline to the
cleared value (R423). -/
def State.errWrite (s : State) (page : Nat) (v : Word) : State :=
  let s1 := s.noteRsv page hERR v
  let s2 := if bitOf v 0 then (s1.setFld page fERRVALID 0).setFld page fERRMERGE 0 else s1
  let s3 := if bitOf v 1 then s2.setFld page fERROVF 0 else s2
  if bitOf v 2 then
    let s4 := (s3.setWord page hCE 0).setWord page hUE 0
    { s4 with flt := { s4.flt with baseline := s4.flt.baseline.filter (fun e => decide (e.1 / 4 ≠ page)) } }
  else s3

/-- ERR_STATUS_CLEAR: the write of VALID and OVERFLOW. -/
def execErrStatusClear (a : Acc) (valid overflow : Bool) (s : State) : Host.Outcome State Fault Refusal :=
  let v : Word := BitVec.ofNat 32 ((if valid then 1 else 0) + (if overflow then 2 else 0))
  .next (s.access a v (fun page s1 => s1.errWrite page v))

/-- CLR_COUNTS. -/
def execClrCounts (a : Acc) (s : State) : Host.Outcome State Fault Refusal :=
  .next (s.access a 4#32 (fun page s1 => s1.errWrite page 4#32))

/-! ### Ledgers (R39) -/

/-- A write to LEDGER_SEL latches the five counts of the selected ledger, or zeros for an INDEX at or above COUNT. -/
def State.ledgerSel (s : State) (page : Nat) (v : Word) : State :=
  let i := v.toNat % 256
  let s1 := (s.noteRsv page hLSEL v).setWord page hLSEL (BitVec.ofNat 32 i)
  let l : Ledger := if i < ledgerCount (pageKind page) then s1.ledger page i else ⟨0, 0, 0, 0, 0⟩
  ((((s1.setWord page hLTOTAL (BitVec.ofNat 32 l.total)).setWord page hLFREE (BitVec.ofNat 32 l.free)).setWord page hLHELD
    (BitVec.ofNat 32 l.held)).setWord page hLTRANSIT (BitVec.ofNat 32 l.transit)).setWord page hLRECL (BitVec.ofNat 32 l.reclaimed)

/-- LEDGER_SNAPSHOT. -/
def execLedgerSnapshot (a : Acc) (v : Word) (s : State) : Host.Outcome State Fault Refusal :=
  .next (s.access a v (fun page s1 => s1.ledgerSel page v))

/-! ### DOZE and clock points (R40, R41) -/

/-- Are the page's clocks gated, or a change in progress? -/
def State.gated (s : State) (page : Nat) : Bool := s.fld page fCURRENT == 1 || s.fld page fTRANSITION == 1

/-- Has a QUIESCING page drained: has its last unit of work ended (R33)? -/
def State.drainedPage (s : State) (page : Nat) : Bool := s.st page == stQUIESCING && smGet false s.hif.drained page

/-- A write to PWR_REQ: a reserved TARGET and a DOZE outside R40's states are discarded in every case; a TARGET as it is changes nothing. -/
def State.pwrWrite (s : State) (page : Nat) (v : Word) : State :=
  let s1 := s.noteRsv page hPWRREQ v
  let t := v.toNat % 4
  if 2 ≤ t then s1.discard page
  else if t = 1 ∧ !(s1.checkedOpen page || s1.drainedPage page) then s1.discard page
  else if t = s1.fld page fTARGET then s1
  else (s1.setFld page fTARGET t).setFld page fTRANSITION 1

/-- PWR_REQ_DOZE. -/
def execPwrReqDoze (a : Acc) (s : State) : Host.Outcome State Fault Refusal :=
  .next (s.access a 1#32 (fun page s1 => s1.pwrWrite page 1#32))

/-- PWR_REQ_ACTIVE. -/
def execPwrReqActive (a : Acc) (s : State) : Host.Outcome State Fault Refusal :=
  .next (s.access a 0#32 (fun page s1 => s1.pwrWrite page 0#32))

/-- A change of TARGET ends, where one to this state is in progress. -/
def State.pwrDone (s : State) (page t : Nat) : State :=
  if s.fld page fTRANSITION = 1 ∧ s.fld page fTARGET = t then (s.setFld page fTRANSITION 0).setFld page fCURRENT t else s

/-- DOZE_GATED. -/
def execDozeGated (a : Acc) (s : State) : Host.Outcome State Fault Refusal := .next (s.pwrDone (accPage a) 1)

/-- CLOCKS_RESTARTED. -/
def execClocksRestarted (a : Acc) (s : State) : Host.Outcome State Fault Refusal := .next (s.pwrDone (accPage a) 0)

/-- The slowest point a panel may be given: its domain's cadence floor clock when RESERVED. -/
def State.floorOf (s : State) (p : Nat) : Nat :=
  if s.panelMode p = 2 then s.fld (pgCAD (s.panelDomain p)) f_CAD_DOM_CTRL_FLOOR else 3

/-- Applies a changed clock point to a panel none of whose steps runs; to another at its next boundary. -/
def State.reclock (s : State) (p : Nat) : State := if s.stepRuns p then s else s.applyClock p

/-- A write to CLK_SEL: POINT on PNL and CNV pages, reserved elsewhere. -/
def State.clkWrite (s : State) (page : Nat) (v : Word) : State :=
  let s1 := s.noteRsv page hCLKSEL v
  let n := v.toNat % 4
  match pageKind page with
  | .pnl => if s1.floorOf (pageInstance page) < n then s1.discard page else (s1.setFld page fPOINT n).reclock (pageInstance page)
  | .cnv =>
    let ps := (List.range 32).map (fun i => pageInstance page * 32 + i)
    if ps.any (fun p => s1.floorOf p < n) then s1.discard page
    else ps.foldl (fun (a : State) p => a.reclock p) ((s1.setFld page fPOINT n).setFld page fACTUAL n)
  | _ => s1

/-- CLK_SEL_WRITE. -/
def execClkSelWrite (a : Acc) (v : Word) (s : State) : Host.Outcome State Fault Refusal :=
  .next (s.access a v (fun page s1 => s1.clkWrite page v))

/-! ### The timebase (R47) -/

/-- MOD_TIME_READ: reading LO returns the low word of one instant of the timebase and latches its high word in HI. -/
def execModTimeRead (now : DWord) (s : State) : Host.Outcome State Fault Refusal :=
  .next (s.via 0 (fun a =>
    let b := a.at now.toNat
    (b.setWide pgMOD r_MOD_TIME_LO b.time).readWide pgMOD r_MOD_TIME_LO))

/-- MOD_PTP_OFFSET_READ: the residual difference; reading LO latches HI. -/
def execModPtpOffsetRead (s : State) : Host.Outcome State Fault Refusal := .next (s.via 0 (fun a => a.readWide pgMOD r_MOD_PTP_OFFSET_LO))

end Sys2Proof.Machine
end

