-- ==== Sys2Proof/Machine/Faults.lean ====
section
/-! DEFINITION. The Fault Collector's own commands (17): broken pairs, aggregators, escalation, acknowledgement, injection, the journals, Easel lock-step, clock references and ledger checks. -/

namespace Sys2Proof.Machine

open Sys2Proof

/-! ### Broken dual-rail pairs (R423) -/

/-- The page's count that a pair's errors grow: ERR_COUNT_CE, or ERR_COUNT_UE. -/
def State.pairCount (s : State) (page cls : Nat) : Nat := (s.word page (if cls = 1 then hCE else hUE)).toNat

/-- Takes the poller's baseline for a pair from the page's count. -/
def State.rebase (s : State) (page cls : Nat) : State :=
  let k := page * 4 + cls
  let n := s.pairCount page cls
  { s with flt := { s.flt with baseline := smSet 0 s.flt.baseline k n, otherUe := smSet 0 s.flt.otherUe k 0 } }

/-- A pair is found broken: for the life of the module. -/
def State.wireBroken (s : State) (page cls : Nat) : State :=
  let k := page * 4 + cls
  if smGet false s.flt.wire k then s
  else
    let s1 := ({ s with flt := { s.flt with wire := smSet false s.flt.wire k true } }).rebase page cls
    let s2 := s1.countUp pgFLT r_FLT_CNT_WIRE 1
    s2.journal (s2.mkRec spWIRE 0 false page 0 0 0 0 [cls])

/-- Errors of a pair since the last poll: the growth of its count, less the errors of the other uncorrected class; a saturated count
reads as no growth. -/
def State.pollCount (s : State) (page cls : Nat) : Nat :=
  let n := s.pairCount page cls
  if n = 0xFFFFFFFF then 0
  else n - smGet 0 s.flt.baseline (page * 4 + cls) - (if cls = 1 then 0 else smGet 0 s.flt.otherUe (page * 4 + cls))

/-! ### Aggregators (R424) -/

/-- Field of an aggregator's state: 0 ACTIVE, 1 STANDBY, 2 FAILED. -/
def fAgg (i : Nat) : Fld := if i = 0 then f_FLT_STATUS_A0 else f_FLT_STATUS_A1

/-- Every page of the module. -/
def allPages : List Nat := (List.range 0xE00).filter pageExists

/-! ### Records: escalation and acknowledgement (R426, R427) -/

/-- A write of FLT_ACK: closes an open record that has not escalated. -/
def State.fltAck (s : State) (v : Word) : State :=
  let i := v.toNat % 64
  let s1 := s.noteRsv pgFLT r_FLT_ACK v
  match smFind s1.flt.recs i with
  | some r =>
    if r.fenced then s1.discard pgFLT
    else
      let s2 := s1.closeRec i
      s2.journal (s2.mkRec logCLOSED r.cls false r.page r.source r.merge r.addr r.syn [(s2.time - r.opened) / 1000])
  | none => s1.discard pgFLT

/-- FLT_ACK, written by Easel firmware or by owner software. -/
def execFltAck (easel : Bool) (v : Word) (now : DWord) (s : State) : Host.Outcome State Fault Refusal :=
  let s0 := s.at now.toNat
  .next (if easel then s0.fltAck v else s0.via 0 (fun a => a.fltAck v))

/-- RECOVERY_WINDOW_EXPIRY (R429): every FLT_RECOVERY.WINDOW_S seconds. -/
def execRecoveryWindowExpiry (now : DWord) (s : State) : Host.Outcome State Fault Refusal :=
  let a := s.at now.toNat
  let m := (a.flt.rcv.map (fun e => (e.1, { e.2 with inWindow := 0 }))).filter (fun e => decide (e.2 ≠ ⟨0, 0, false⟩))
  .next (if a.flt.window + a.fld pgFLT f_FLT_RECOVERY_WINDOW_S * 1000000000 ≤ a.time then
      { a with flt := { a.flt with rcv := m, window := a.time } }
    else s)

/-! ### The journals (R436, R437, R303) -/

/-- CE_SUMMARY: one record for each non-zero counter, and one with BLK_TYPE 0 for the errors that found none free. -/
def execCeSummary (now : DWord) (s : State) : Host.Outcome State Fault Refusal :=
  let s0 := s.at now.toNat
  let s1 : State := s0.flt.ce.foldl (fun (a : State) e => a.journal (a.mkRec logCE 1 false (e.1 / 256) (e.1 % 256) 0 0 0 [e.2])) s0
  let s2 := if s1.flt.ceOver = 0 then s1 else s1.journal (s1.mkRec logCE 1 false pgMOD 0 0 0 0 [s1.flt.ceOver])
  .next { s2 with flt := { s2.flt with ce := [], ceOver := 0 } }

/-- Writes the queued records that meet a test; the others stay queued. -/
def State.flushQueue (s : State) (p : LogRec → Bool) : State :=
  let q := s.flt.beside ++ s.flt.queue
  let s1 := { s with flt := { s.flt with beside := [], queue := q.filter (fun r => !p r) } }
  (q.filter p).foldl (fun (a : State) r => a.durable r) s1

/-- LOG_FLUSH: queued records become durable. A log block that fails to program raises LOG_MEDIA and is written again at the next
block position; a spare map record that fails stays queued. -/
def State.logFlush (s : State) (failLog failSpare : Bool) : State :=
  let s1 := s.flushQueue (fun r => if r.typ < 0x20 then !failLog else !failSpare)
  if failLog ∧ (s.flt.beside ++ s.flt.queue).any (fun r => r.typ < 0x20) then
    let q := (s1.word pgFLT r_FLT_LOG_SEQ).toNat
    (s1.setWord pgFLT r_FLT_LOG_SEQ (BitVec.ofNat 32 ((q / 64 + 1) * 64))).report pgFLT 6 0 0 false
  else s1

/-- LOG_FLUSH. -/
def execLogFlush (failLog failSpare : Bool) (s : State) : Host.Outcome State Fault Refusal := .next (s.logFlush failLog failSpare)

/-- SPARE_MAP_RETRY: queued spare map records are written again. -/
def execSpareMapRetry (fail : Bool) (s : State) : Host.Outcome State Fault Refusal :=
  .next (s.flushQueue (fun r => 0x20 ≤ r.typ && !fail))

/-! ### Easel and the clock references (R439, R440) -/

/-- Field of an Easel pair's state: 0 RUNNING, 1 SHADOW, 2 FAILED. -/
def fPair (i : Nat) : Fld := if i = 0 then f_EAS_STATUS_PAIR0 else f_EAS_STATUS_PAIR1

/-- The two cores of one pair disagree: it is discarded and the other continues; with none left, PAIR_LOST. -/
def State.discardPair (s : State) (i : Nat) : State :=
  let other := 1 - i
  if s.fld pgEAS (fPair i) = 2 then s
  else
    let was := s.fld pgEAS (fPair i) == 0
    let s1 := s.setFld pgEAS (fPair i) 2
    let s2 := s1.journal (s1.mkRec spUNIT 0 false pgEAS 0 0 i 0 [3 + i])
    if s2.fld pgEAS (fPair other) = 2 then s2.report pgEAS 4 0 0 false
    else
      let s3 := (s2.setFld pgEAS (fPair other) 0).setFld pgEAS f_EAS_STATUS_ACTIVE other
      let s4 := if was then (s3.countUp pgEAS r_EAS_CNT_SWITCH 1).event pgEAS ev_eas_PAIR_SWITCH else s3
      s4.report pgEAS 3 i 0 false

end Sys2Proof.Machine
end

