-- ==== Sys2Proof/Machine/Cadence.lean ====
section
/-! DEFINITION. Cadence (07): reference channels, the tracker, event points, the cadence ring, results and the plant outputs. -/

namespace Sys2Proof.Machine

open Sys2Proof

/-! ### State access -/

def refReset : RefCh := ⟨0, 0, false, false, none, false, 0⟩
def domReset : Dom := {
  origin := none, p := 0, v := 0, k := 0, tLast := 0, mLast := 0, measured := false, pend := none, h := 0, nextPos := 0, nextKey := 0,
  clearN := 0, revBelow := false, skips := [], holdEnd := none, shadow := [], active := [], old := none, n0 := 0, lo := 0, marks := [],
  ring := [], offered := false, inst := [], lastN := -1, lastWord := 0, recov := [], retired := none }
def State.refCh (s : State) (i : Nat) : RefCh := smGet refReset s.cad.refs i
def State.setRef (s : State) (i : Nat) (x : RefCh) : State := { s with cad := { s.cad with refs := smSet refReset s.cad.refs i x } }
def State.dom (s : State) (d : Nat) : Dom := smGet domReset s.cad.doms d
def State.setDom (s : State) (d : Nat) (x : Dom) : State := { s with cad := { s.cad with doms := smSet domReset s.cad.doms d x } }
def instReset : CadInst := ⟨none, false, none, false, false, false, false, none⟩
def Dom.getInst (x : Dom) (n : Nat) : CadInst := smGet instReset x.inst n
def State.setInst (s : State) (d n : Nat) (i : CadInst) : State :=
  let x := s.dom d
  s.setDom d { x with inst := smSet instReset x.inst n i }

/-- Drops the words of 32 bits of a signed number. -/
def wordOf (n : Int) : Word := BitVec.ofInt 32 n
/-- The low 64 bits of a signed number. -/
def low64 (n : Int) : Nat := (n % (2 ^ 64 : Int)).toNat
/-- (a − b) mod 2^64 read as a signed 64-bit value (R143). -/
def sdiff (a b : Int) : Int := Int.bmod (a - b) (2 ^ 64)
/-- Division that truncates toward zero. -/
def tdiv (a b : Int) : Int := Int.tdiv a b

/-- Owner of a domain, its control fields. -/
def State.ctlOf (s : State) (d : Nat) (f : Fld) : Nat := s.fld (pgCAD d) f
def State.domOwner (s : State) (d : Nat) : Nat := s.ctlOf d f_CAD_DOM_CTRL_OWNER

/-! ### Roles of the module (R181, R182) -/

/-- Is a domain paired: VAR page 1 RUNNING and naming it? -/
def State.paired (s : State) (d : Nat) : Bool := s.running pgDIP && bitOf (s.word pgDIP r_VAR_DIP_DOMAINS) d
def State.role (s : State) : Nat := s.fld pgDIP f_VAR_DIP_STATUS_ROLE
/-- Does the module drive a domain's results? -/
def State.drives (s : State) (d : Nat) : Bool := !s.paired d || s.role == 3
/-- Does it fire the domain's SUBMITs and judge its DEADLINEs? -/
def State.submits (s : State) (d : Nat) : Bool := s.drives d || s.role == 4 || s.fld pgDIP f_VAR_DIP_CTRL_SHADOW_RUN == 1
/-- Does it fire the domain's trigger outputs? -/
def State.triggers (s : State) (d : Nat) : Bool := s.drives d || s.fld pgDIP f_VAR_DIP_CTRL_STANDBY_TRIG == 1

/-! ### Plant outputs (R387) -/

/-- Drives a set of outputs, given as a mask, to the bits of a word. -/
def State.driveOuts (s : State) (mask w : Nat) : State :=
  let old := s.fld pgMGT f_MGT_OUT_STATE_LEVEL
  s.setFld pgMGT f_MGT_OUT_STATE_LEVEL (((old ||| mask) - mask) ||| (w &&& mask))

/-- Drives one output. -/
def State.driveOut (s : State) (j : Nat) (v : Bool) : State := s.driveOuts (2 ^ j) (if v then 2 ^ j else 0)

/-- Outputs claimed by a domain. -/
def State.domOuts (s : State) (d : Nat) : Nat := s.fld (pgCAD d) f_CAD_DOM_OUTS_TRIG ||| s.fld (pgCAD d) f_CAD_DOM_OUTS_RESULT

/-- The trigger pulses in progress (R155). -/
def State.setPulses (s : State) (m : SMap Nat) : State := { s with cad := { s.cad with pulses := m } }

/-- Takes or ends the claims of a set of outputs; an output whose claim ends takes its MGT_OUT_LEVEL bit, and a pulse on it is over. -/
def State.claimOuts (s : State) (mask : Nat) (on : Bool) : State :=
  let c := s.fld pgMGT f_MGT_OUT_STATE_CLAIMED
  if on then s.setFld pgMGT f_MGT_OUT_STATE_CLAIMED (c ||| mask)
  else ((s.setPulses (s.cad.pulses.filter (fun e => !bitOf (BitVec.ofNat 32 mask) e.1))).setFld pgMGT f_MGT_OUT_STATE_CLAIMED
    ((c ||| mask) - mask)).driveOuts mask (s.fld pgMGT f_MGT_OUT_LEVEL_LEVEL)

/-! ### Slip (R151, R152) -/

/-- The predicted position at an instant (R149). -/
def State.predict (s : State) (d t : Nat) : Int :=
  let x := s.dom d
  let dt : Nat := min (t - x.tLast) (s.fld (pgCAD d) f_CAD_DOM_HORIZON_US * 1000)
  tdiv (x.p * 65536 + x.v * dt) 65536

/-- The cycle of H. -/
def Dom.cycle (x : Dom) : Nat := (x.h / (2 ^ 32 : Int)).toNat

/-- Is an instance skipped under SKIP_CYCLE? -/
def Dom.skipped (x : Dom) (n : Nat) : Bool := x.skips.any (fun r => r.1 ≤ n && (match r.2 with | some e => n ≤ e | none => true))

/-- Are the result outputs held under HOLD_OUTPUTS? -/
def State.holding (s : State) (d : Nat) : Bool :=
  s.ctlOf d f_CAD_DOM_CTRL_SLIP_POLICY == 2 &&
  (s.fld (pgCAD d) f_CAD_DOM_STATUS_SLIP == 1 || (s.dom d).holdEnd.any (fun e => (s.dom d).h < e))

/-- Closes or opens the range of skipped instances. -/
def closeSkips (l : List (Nat × Option Nat)) (n : Nat) : List (Nat × Option Nat) :=
  l.map (fun r => if r.2.isNone then (r.1, some n) else r)

/-- Refreshes CAD_DOM_STATUS and CAD_DOM_INSTANCE. -/
def State.showDom (s : State) (d : Nat) : State :=
  let x := s.dom d
  let pg := pgCAD d
  let b := fun (c : Bool) => if c then 1 else 0
  let s1 := s.setFld pg f_CAD_DOM_STATUS_ACQUIRING (b (decide (x.k < 4) || x.origin.isNone))
  let s2 := s1.setFld pg f_CAD_DOM_STATUS_BELOW_HWM (b (x.origin.isSome && decide (sdiff (s.predict d s.time) x.h < 0)))
  let s3 := s2.setFld pg f_CAD_DOM_STATUS_SKIPPING (b (x.skipped x.cycle))
  let s4 := s3.setFld pg f_CAD_DOM_STATUS_HOLDING (b (s3.holding d))
  s4.setWord pg r_CAD_DOM_INSTANCE (BitVec.ofNat 32 x.cycle)

/-- Raises SLIP on a domain, with the further events of its causes. -/
def State.slip (s : State) (d : Nat) (evs : List Nat) : State :=
  let x := s.dom d
  let pg := pgCAD d
  let was := s.fld pg f_CAD_DOM_STATUS_SLIP == 1
  let starts := s.ctlOf d f_CAD_DOM_CTRL_SLIP_POLICY == 1 && !x.skips.any (fun r => r.2.isNone)
  let s1 := (evs.foldl (fun (a : State) e => a.event pg e) s).event pg ev_cadDom_SLIP
  let s2 := (s1.countUp pg r_CAD_DOM_CNT_SLIP 1).setFld pg f_CAD_DOM_STATUS_SLIP 1
  s2.setDom d { x with clearN := 0, p := if x.measured then x.mLast else x.p, holdEnd := if was then x.holdEnd else none,
                       skips := if starts then x.skips ++ [(x.cycle, none)] else x.skips }

/-- The domains that run on a channel. -/
def State.domsOn (s : State) (ch : Nat) : List Nat :=
  (List.range 16).filter (fun d => s.running (pgCAD d) && s.ctlOf d f_CAD_DOM_CTRL_CHANNEL == ch)

/-- Raises SLIP on every domain of a channel. -/
def State.slipAll (s : State) (ch : Nat) : State :=
  (s.domsOn ch).foldl (fun (a : State) d => (a.slip d []).showDom d) s

/-! ### Reference channels (R145 to R147) -/

/-- The measured position for a count (R144). -/
def State.measure (s : State) (d : Nat) (origin count : Int) : Int :=
  let c := Int.bmod (count - origin) (2 ^ 64)
  (c * 2 ^ 32) / (s.fld (pgCAD d) f_CAD_DOM_CYCLE_COUNTS : Int)

/-- A counted edge reaches a domain: it ends a standstill and waits for the tick's end. -/
def State.counted (s : State) (d ts : Nat) (count : Int) : State :=
  let x := s.dom d
  let pg := pgCAD d
  let s1 := if s.fld pg f_CAD_DOM_STATUS_STANDSTILL = 1 then
      (s.setFld pg f_CAD_DOM_STATUS_STANDSTILL 0).event pg ev_cadDom_MOTION else s
  match x.origin with
  | none => s1
  | some o => s1.setDom d { x with pend := some (ts, s.measure d o count) }

/-- Counts one edge on a channel, up or down, and gives it to the domains. -/
def State.countEdge (s : State) (ch : Nat) (up : Bool) (ts : Nat) : State :=
  let r := s.refCh ch
  if r.frozen then s
  else
    let n := Int.bmod (if up then r.count + 1 else r.count - 1) (2 ^ 64)
    let s1 := (s.setRef ch { r with count := n, edge := ts }).setFld (pgREF ch) f_CAD_REF_STATUS_REVERSE (if up then 0 else 1)
    (s1.domsOn ch).foldl (fun (a : State) d => a.counted d ts n) s1

/-- A change of the accepted levels of A and B (R145). HOLDOFF blocks edges of PULSE_PER_CYCLE and MAINS_ZC (R146). -/
def State.edge (s : State) (ch : Nat) (a b : Bool) (ts : Nat) : State :=
  let pg := pgREF ch
  let r := s.refCh ch
  let s1 := s.setRef ch { r with a := a, b := b }
  let mode := s.fld pg f_CAD_REF_MODE_MODE
  let inv := s.fld pg f_CAD_REF_MODE_INVERT_DIR == 1
  let rise := a && !r.a
  if !s.running pg then s1
  else if mode = 0 then
    (if a ≠ r.a ∧ b ≠ r.b then (s1.countUp pg r_CAD_REF_CNT_QUAD 1).event pg ev_cadRef_QUAD_ERROR
    else if a ≠ r.a then s1.countEdge ch ((a != b) != inv) ts
    else if b ≠ r.b then s1.countEdge ch ((a == b) != inv) ts
    else s1)
  else if mode = 1 then (if rise then s1.countEdge ch (b != inv) ts else s1)
  else if mode = 2 ∨ mode = 3 then
    (if rise && (r.edge == 0 || r.edge + s.fld pg f_CAD_REF_FILTER_HOLDOFF * 1000 ≤ ts) then s1.countEdge ch true ts else s1)
  else s1

/-- The glitch filter (R146): a line's new level is accepted once it has held for FILTER samples, and a shorter excursion is removed. -/
def State.accepted (s : State) (ch : Nat) (old new : Bool) (held : Nat) : Bool :=
  if s.fld (pgREF ch) f_CAD_REF_FILTER_FILTER ≤ held then new else old

/-- REFERENCE_EDGE: the levels of a channel's A and B after an edge, how many samples each has held, and the edge's timestamp with the
filter's delay taken off (R146). -/
def execReferenceEdge (ch : Fin 4) (a b : Bool) (ha hb : Fin 64) (ts : DWord) (s : State) : Host.Outcome State Fault Refusal :=
  let r := s.refCh ch.val
  .next (if s.domainOn (pgREF ch.val) then
      s.edge ch.val (s.accepted ch.val r.a a ha.val) (s.accepted ch.val r.b b hb.val) ts.toNat else s)

/-- PTP time at an instant of the timebase: the timebase plus MOD_PTP_OFFSET (R47). -/
def State.ptpAt (s : State) (t : Nat) : Nat := (t + s.wideOf pgMOD r_MOD_PTP_OFFSET_LO) % 2 ^ 64

/-- Is an instant one at which a PTP_TIME channel counts (R145)? -/
def State.ptpCounts (s : State) (ch t : Nat) : Bool :=
  (if s.fld pgMOD f_MOD_TIME_CTRL_DISCIPLINE = 0 then t else s.ptpAt t) % (s.word (pgREF ch) r_CAD_REF_PERIOD).toNat == 0

/-- PTP_TIME_COUNT: an instant of the timebase (R145). -/
def execPtpTimeCount (ch : Fin 4) (ts : DWord) (s : State) : Host.Outcome State Fault Refusal :=
  .next (if s.running (pgREF ch.val) ∧ s.fld (pgREF ch.val) f_CAD_REF_MODE_MODE = 4 ∧ s.ptpCounts ch.val ts.toNat = true then
      s.countEdge ch.val true ts.toNat else s)

/-- A channel enters RUNNING: the next index edge sets its index reference (R147), and a frozen count is released (R171). -/
def State.refStart (s : State) (ch : Nat) : State :=
  (s.setRef ch { s.refCh ch with indexRef := none, frozen := false }).setFld (pgREF ch) f_CAD_REF_STATUS_INDEX_SEEN 0

/-- The distance of a count from the nearest whole multiple of COUNTS_PER_REV from the index reference; `up` decides a tie. -/
def indexDiff (count ref cpr : Int) (up : Bool) : Int :=
  let r := (count - ref) % cpr
  if 2 * r < cpr ∨ (2 * r = cpr ∧ up) then r else r - cpr

/-- An index edge of a channel whose INDEX_EN is 1 (R147): whether the count was corrected. -/
def State.indexFix (s : State) (ch : Nat) : State × Bool :=
  let pg := pgREF ch
  let r := s.refCh ch
  match r.indexRef with
  | none => ((s.setRef ch { r with indexRef := some r.count, frozen := false }).setFld pg f_CAD_REF_STATUS_INDEX_SEEN 1, false)
  | some ref =>
    let cpr : Int := max 1 (s.fld pg f_CAD_REF_INDEX_COUNTS_PER_REV)
    let diff := indexDiff r.count ref cpr (s.freeBelow 2 == 0)
    let s1 := s.used
    if r.frozen then (s1.setRef ch { r with count := r.count - diff, frozen := false }, true)
    else if diff.natAbs ≤ s.fld pg f_CAD_REF_INDEX_INDEX_TOL then
      (if diff = 0 then (s1, false)
      else
        let s2 := (s1.setRef ch { r with count := r.count - diff }).setWord pg r_CAD_REF_LAST_FIX (wordOf (-diff))
        ((s2.countUp pg r_CAD_REF_CNT_INDEX_FIX 1).event pg ev_cadRef_INDEX_CORRECTED, true))
    else (((s1.countUp pg r_CAD_REF_CNT_INDEX_ERR 1).event pg ev_cadRef_INDEX_ERROR).slipAll ch, false)

/-- INDEX_EDGE, of a level that line Z has held for a number of samples (R146): index correction, and the origin of a domain that starts AT_INDEX (R144). -/
def execIndexEdge (ch : Fin 4) (held : Fin 64) (ts : DWord) (s : State) : Host.Outcome State Fault Refusal :=
  let pg := pgREF ch.val
  .next (if !s.running pg ∨ 1 < s.fld pg f_CAD_REF_MODE_MODE ∨ held.val < s.fld pg f_CAD_REF_FILTER_FILTER then s
    else
      let r := if s.fld pg f_CAD_REF_MODE_INDEX_EN = 1 then s.indexFix ch.val else (s, false)
      let n := (r.1.refCh ch.val).count
      (r.1.domsOn ch.val).foldl (fun (a : State) d =>
        let x := a.dom d
        if x.origin.isNone then
          (a.setDom d { x with origin := some n, p := 0, v := 0, k := 0, h := 0, nextPos := 0, nextKey := 0,
                               tLast := ts.toNat, pend := some (ts.toNat, 0) }).showDom d
        else if r.2 then a.counted d ts.toNat n else a) r.1)

/-- Lines a channel's mode uses (R386). -/
def State.usedLines (s : State) (ch : Nat) : Nat :=
  let m := s.fld (pgREF ch) f_CAD_REF_MODE_MODE
  (if m < 2 then 3 else if m < 4 then 1 else 0) + (if m < 2 ∧ s.fld (pgREF ch) f_CAD_REF_MODE_INDEX_EN = 1 then 4 else 0)

/-- LOSS_OF_SIGNAL on a line. -/
def execLossOfSignal (ch : Fin 4) (line : Fin 3) (s : State) : Host.Outcome State Fault Refusal :=
  let pg := pgREF ch.val
  let r := s.refCh ch.val
  let s1 := s.setRef ch.val { r with los := r.los ||| 2 ^ line.val }
  .next (if !s.domainOn pg then s
    else if s.usedLines ch.val &&& 2 ^ line.val = 0 ∨ s.fld pg f_CAD_REF_STATUS_LOS = 1 then s1
    else ((s1.setFld pg f_CAD_REF_STATUS_LOS 1).event pg ev_cadRef_LOS).slipAll ch.val)

/-- LOS_CLEARED on a line. -/
def execLosCleared (ch : Fin 4) (line : Fin 3) (s : State) : Host.Outcome State Fault Refusal :=
  let pg := pgREF ch.val
  let r := s.refCh ch.val
  let n := (r.los ||| 2 ^ line.val) - 2 ^ line.val
  let s1 := s.setRef ch.val { r with los := n }
  .next (if s.fld pg f_CAD_REF_STATUS_LOS = 1 ∧ n &&& s.usedLines ch.val = 0 then
      (s1.setFld pg f_CAD_REF_STATUS_LOS 0).event pg ev_cadRef_LOS_CLEARED
    else s1)

/-- CAD_REF_COUNT_READ: reading COUNT_LO latches the count's high word and the EDGE registers. -/
def execCadRefCountRead (ch : Fin 4) (s : State) : Host.Outcome State Fault Refusal :=
  .next (s.via 0 (fun a =>
    let pg := pgREF ch.val
    let r := a.refCh ch.val
    let a1 := (a.setWord pg r_CAD_REF_EDGE_LO (BitVec.ofNat 32 r.edge)).setWord pg r_CAD_REF_EDGE_HI (BitVec.ofNat 32 (r.edge / 2 ^ 32))
    (a1.setWide pg r_CAD_REF_COUNT_LO (low64 r.count)).readWide pg r_CAD_REF_COUNT_LO))

/-! ### The tracker (R148, R151, R153) -/

/-- The update of R148: new p, v, and the error e where k ≥ 2. -/
def trackStep (x : Dom) (t : Nat) (m alpha beta : Int) : Int × Int × Int :=
  let dt : Int := max 1 ((t : Int) - x.tLast)
  if x.k = 0 then (m, 0, 0)
  else if x.k = 1 then (m, tdiv (sdiff m x.mLast * 65536) dt, 0)
  else
    let pp := tdiv (x.p * 65536 + x.v * dt) 65536
    let e := sdiff m pp
    (tdiv (pp * 65536 + alpha * e) 65536, tdiv (x.v * dt + 4 * beta * e) dt, e)

/-- One tracker update of a domain with a pending edge. -/
def State.track (s : State) (d : Nat) : State :=
  let pg := pgCAD d
  let x := s.dom d
  match x.pend with
  | none => s
  | some (t, m) =>
    let (p, v, e) := trackStep x t m (s.fld pg f_CAD_DOM_GAIN_ALPHA) (s.fld pg f_CAD_DOM_GAIN_BETA)
    let y := { x with pend := none, p := p, v := v, k := min (x.k + 1) 255, tLast := t, mLast := m, measured := true }
    let s1 := s.setDom d y
    let tol : Int := (s.word pg r_CAD_DOM_SLIP_TOL).toNat
    let bad := decide (4 ≤ x.k ∧ tol < e.natAbs)
    let fast := decide ((s.fld pg f_CAD_DOM_RATE_MAX_RATE : Int) * 2 ^ 48 < (v.natAbs : Int) * 1000000000)
    let below := decide (sdiff (s1.predict d s.time) y.h < -((s.fld pg f_CAD_DOM_REV_LIMIT_DEPTH : Int) * 2 ^ 24))
    let rev := below && !x.revBelow
    let s2 := s1.setDom d { y with revBelow := below }
    if bad ∨ fast ∨ rev then
      s2.slip d ((if fast then [ev_cadDom_OVERSPEED] else []) ++ (if rev then [ev_cadDom_REVERSAL] else []))
    else if s.fld pg f_CAD_DOM_STATUS_SLIP = 1 then
      let n := if e.natAbs ≤ tol ∧ !below then x.clearN + 1 else 0
      let z := s2.dom d
      if 4 ≤ n then
        ((s2.setDom d { z with clearN := 0, skips := closeSkips z.skips z.cycle, holdEnd := some (z.h + 2 ^ 32) }).setFld pg
          f_CAD_DOM_STATUS_SLIP 0).event pg ev_cadDom_SLIP_CLEARED
      else s2.setDom d { z with clearN := n }
    else s2

/-- TRACKER_UPDATE at the end of a tick. -/
def execTrackerUpdate (d : Fin 16) (now : DWord) (s : State) : Host.Outcome State Fault Refusal :=
  .next (if s.running (pgCAD d.val) then ((s.at now.toNat).track d.val).showDom d.val else s)

/-- When the last counted edge of a domain's channel arrived; the domain's entry into RUNNING where none has since. -/
def State.lastEdge (s : State) (d : Nat) : Nat := max (s.refCh (s.ctlOf d f_CAD_DOM_CTRL_CHANNEL)).edge (s.dom d).tLast

/-- STANDSTILL (R153): no counted edge has arrived for CAD_DOM_STANDSTILL.US. -/
def execStandstill (d : Fin 16) (now : DWord) (s : State) : Host.Outcome State Fault Refusal :=
  let pg := pgCAD d.val
  .next (if !s.running pg ∨ s.fld pg f_CAD_DOM_STATUS_STANDSTILL = 1 ∨
      now.toNat < s.lastEdge d.val + s.fld pg f_CAD_DOM_STANDSTILL_US * 1000 then s
    else
      let x := s.dom d.val
      (((s.at now.toNat).setDom d.val { x with p := if x.measured then x.mLast else x.p, v := 0, k := 0 }).setFld pg
        f_CAD_DOM_STATUS_STANDSTILL 1 |>.event pg ev_cadDom_STANDSTILL).showDom d.val)

/-! ### Results (R163 to R165) -/

/-- Drives a word on a domain's result outputs. -/
def State.resultOuts (s : State) (d w : Nat) : State := s.driveOuts (s.fld (pgCAD d) f_CAD_DOM_OUTS_RESULT) w

/-- Drives the result of an instance, unless it is skipped or held. -/
def State.driveResult (s : State) (d n w : Nat) : State :=
  let x := s.dom d
  let pg := pgCAD d
  let i := x.getInst n
  if x.skipped n then s.setInst d n { i with word := none }
  else if s.holding d then (s.setInst d n { i with word := none, driven := true }).countUp pg r_CAD_DOM_CNT_SKIPPED 1
  else
    let s1 := s.setInst d n { i with word := none, driven := true }
    let y := s1.dom d
    ((s1.setDom d { y with lastN := max y.lastN n, lastWord := w }).countUp pg r_CAD_DOM_CNT_RESULTS 1).resultOuts d w

/-- MISS_ACTION. -/
def State.missAction (s : State) (d : Nat) : State :=
  if s.ctlOf d f_CAD_DOM_CTRL_MISS_ACTION = 1 ∧ !s.holding d then s.resultOuts d (s.fld (pgCAD d) f_CAD_DOM_SAFE_WORD) else s

/-- The instances whose DEADLINE found no result in an evaluation that is over are missed (R164). A completion in the DEADLINE's own 10 ns
evaluation counts as available before it (R165). -/
def State.settleMisses (s : State) (d now : Nat) : State :=
  (s.dom d).inst.foldl (fun (a : State) e =>
    match e.2.missAt with
    | some t =>
      if t / 10 < now / 10 then
        (((a.setInst d e.1 { (a.dom d).getInst e.1 with missAt := none }).missAction d).countUp (pgCAD d) r_CAD_DOM_CNT_MISSED 1).event
          (pgCAD d) ev_cadDom_MISSED
      else a
    | none => a) s

/-- The result of an instance becomes available: whether it is late. An instance whose DEADLINE fired while the module did not drive the domain
is neither driven nor late (R186). -/
def State.available (s : State) (d n w chan : Nat) : State × Bool :=
  let pg := pgCAD d
  let s1 := s.settleMisses d s.time
  let x := s1.dom d
  let i := { x.getInst n with chan := some chan }
  let s0 := s1.setInst d n i
  if !s.running pg ∨ i.passed then (s0, false)
  else if !s.drives d then
    (if i.due ∨ s.role ≠ 4 ∧ s.fld pgDIP f_VAR_DIP_CTRL_SHADOW_RUN = 0 then s0 else s0.setInst d n { i with word := some w }, false)
  else if (n : Int) ≤ x.lastN ∨ i.due ∧ i.missAt.isNone then
    let s2 := (s0.countUp pg r_CAD_DOM_CNT_LATE 1).event pg ev_cadDom_LATE
    (if x.lastN < n ∧ s.ctlOf d f_CAD_DOM_CTRL_LATE_POLICY = 0 then s2.driveResult d n w else s2, true)
  else if i.due ∨ s.ctlOf d f_CAD_DOM_CTRL_RELEASE = 1 then ((s0.setInst d n { i with missAt := none }).driveResult d n w, false)
  else (s0.setInst d n { i with word := some w }, false)

/-- A DEADLINE fires. A module that does not drive the domain lets it pass, and one that has taken over drives nothing for an instance that was not
submitted (R187). -/
def State.deadline (s : State) (d n : Nat) : State :=
  let x := s.dom d
  let i := { x.getInst n with due := true, word := none }
  if !s.drives d ∨ i.passed then s.setInst d n { i with passed := true }
  else if x.skipped n then ((s.setInst d n i).missAction d).countUp (pgCAD d) r_CAD_DOM_CNT_SKIPPED 1
  else match (x.getInst n).word with
    | some w => (s.setInst d n i).driveResult d n w
    | none => s.setInst d n (if i.driven then i else { i with missAt := some s.time })

/-! ### Role changes (R186, R190) -/

/-- May the Diptych port send frames: the page runs, the link is up and a pair key is installed (R191, R414)? -/
def State.dipReady (s : State) : Bool := s.running pgDIP && s.fld pgDIP f_VAR_DIP_STATUS_LINK == 2 && s.cad.dip.keyed

def State.setDip (s : State) (x : DipSt) : State := { s with cad := { s.cad with dip := x } }

/-- Puts a frame on the link: a receive buffer of the peer is taken, and the frame is kept for replay (R191). -/
def State.dipPut (s : State) (f : DipFrame) : State :=
  let x := s.cad.dip
  let s1 := (s.move pgDIP 0 .transit .held (s.ledger pgDIP 0).transit).move pgDIP 0 .free .transit 1
  (s1.setDip { x with txSeq := x.txSeq + 1, unacked := x.unacked ++ [{ f with seq := x.txSeq + 1 }], queue := x.queue.drop 1 }).emit
    ⟨.diptych, 0, [f.kind, x.txSeq + 1] ++ f.words, f.bytes⟩

/-- Sends the frames that wait, in order, while the peer has a free buffer; at most as many as given. -/
def State.dipPump (s : State) : Nat → State
  | 0 => s
  | n + 1 =>
    match s.cad.dip.queue with
    | [] => s
    | f :: _ => if (s.ledger pgDIP 0).free = 0 then s else (s.dipPut f).dipPump n

/-- Is a frame part of a snapshot? -/
def DipFrame.snap (f : DipFrame) : Bool := decide (3 ≤ f.kind)

/-- Sends frames once the peer has buffers for them. A pairing frame or a heartbeat goes before the snapshot frames that wait (DESIGN CHOICE, log
entry 36: the spec orders no frames). -/
def State.dipSend (s : State) (fs : List DipFrame) : State :=
  if !s.dipReady then s
  else
    let q := s.cad.dip.queue
    (s.setDip { s.cad.dip with queue := q.filter (fun f => !f.snap) ++ fs.filter (fun f => !f.snap) ++
      (q.filter (fun f => f.snap) ++ fs.filter (fun f => f.snap)) }).dipPump 64

/-- The paired domains. -/
def State.pairedDoms (s : State) : List Nat := (List.range 16).filter (fun d => s.paired d)

/-- P of R185: half the cycle time of the fastest paired domain in µs, at most 100; a standstill gives 100. -/
def State.heartPeriod (s : State) : Nat :=
  s.pairedDoms.foldl (fun m d =>
    let v := (s.dom d).v.natAbs
    if v = 0 then m else min m (2 ^ 48 / (2 * v * 1000))) 100

/-- A heartbeat (R185): role, P, the instance of a hand-over, its acknowledgement; for each paired domain H, the last driven word, the
last snapshot and the domain's STATE. -/
def State.heartbeat (s : State) : State :=
  let p := s.heartPeriod
  let x := s.cad.dip
  let h : List Nat := match x.hand with
    | some m => [1, m]
    | none => [0, 0]
  let ds := s.pairedDoms.flatMap (fun d =>
    [d, low64 (s.dom d).h, (s.dom d).lastWord, smGet 0 x.lastSnap d, s.st (pgCAD d)])
  (s.setFld pgDIP f_VAR_DIP_PERIOD_P_US p).dipSend [⟨0, 2, [s.role, p] ++ h ++ [if x.handAck then 1 else 0] ++ ds, []⟩]

/-- Changes the module's role; ROLE_OUT is high only while it is ACTIVE. A module that becomes ACTIVE sends a heartbeat at once. -/
def State.setRole (s : State) (r : Nat) : State :=
  if s.role = r then s
  else
    let s1 := ((s.setFld pgDIP f_VAR_DIP_STATUS_ROLE r).event pgDIP ev_dip_ROLE_CHANGE).roleOut (r == 3)
    if r = 3 then (s1.countUp pgDIP r_VAR_DIP_CNT_TAKEOVER 1).heartbeat else s1

/-- A paired domain has entered FAULT: an ACTIVE module demotes, a STANDBY one synchronises again (R186, R192). -/
def State.roleFault (s : State) (d : Nat) : State :=
  if s.paired d then (if s.role = 3 then (s.setRole 4).heartbeat else if s.role = 2 then s.setRole 1 else s) else s

/-- A domain enters FAULT for a voter's reason (R176, R179): its outputs hold and its ring is emptied. -/
def State.domFault (s : State) (d : Nat) : State :=
  if s.st (pgCAD d) = stFAULT then s
  else
    let pg := pgCAD d
    let s1 := (s.reclaim pg 0 .held (s.ledger pg 0).held).reclaim pg 0 .transit (s.ledger pg 0).transit
    ((s1.setDom d { s1.dom d with ring := [], offered := false }).setSt pg stFAULT).roleFault d

/-- The lowest-numbered paired domain, whose instances a hand-over counts (log entry 22). -/
def State.handDomain (s : State) : Option Nat := (List.range 16).find? (fun d => s.paired d)

/-- The DEADLINE of instance m − 1 has fired (R190): the roles change, or the hand-over lapses. -/
def State.handAt (s : State) (d n : Nat) : State :=
  if s.handDomain = some d ∧ s.cad.dip.hand = some (n + 1) then
    let s1 := { s with cad := { s.cad with dip := { s.cad.dip with hand := none, handAck := false } } }
    if s.role = 3 then (if s.cad.dip.handAck then s1.setRole 2 else s1.event pgDIP ev_dip_HANDOVER_FAILED)
    else if s.role = 2 then s1.setRole 3 else s1
  else s

/-! ### Templates and the cadence ring (R157, R158) -/

/-- The 64 bytes of a template. -/
def State.tplBytes (s : State) (d t : Nat) : List Byte := (List.range 16).flatMap (fun w => toLe 4 (s.word (pgCAD d) (r_CAD_TPL t w)).toNat)
def State.tplValid (s : State) (d t : Nat) : Bool := s.fld (pgCAD d) (f_CAD_TPL_CTL_W0_VALID t) == 1
def State.tplResult (s : State) (d t : Nat) : Bool := s.tplValid d t && s.fld (pgCAD d) (f_CAD_TPL_CTL_W0_RESULT t) == 1
/-- The RESULT template. -/
def State.resultTpl (s : State) (d : Nat) : Option Nat := (List.range 16).find? (fun t => s.tplResult d t)

/-- The bytes that instance n's SUBMIT of a template places in the ring. -/
def State.submitBytes (s : State) (d n t : Nat) : List Byte :=
  let b := s.tplBytes d t
  let pg := pgCAD d
  let thr := leAt b 8 8
  let thr' := if cfValid (leAt b 40 4) then (thr + n * (s.word pg (r_CAD_TPL_CTL_W1 t)).toNat) % 2 ^ 64 else thr
  let cnt := max 1 (s.fld pg (f_CAD_TPL_CTL_W3_ARG_COUNT t))
  let arg := (leAt b 32 8 + (n % cnt) * (s.word pg (r_CAD_TPL_CTL_W2 t)).toNat) % 2 ^ 64
  let fl := leAt b 2 1 ||| (if s.ctlOf d f_CAD_DOM_CTRL_OVERLAP = 0 then 2 else 0)
  sub b 0 1 ++ toLe 1 (d * 16 + 8) ++ toLe 1 fl ++ sub b 3 1 ++ toLe 4 (n * 16 + t) ++ toLe 8 thr' ++ sub b 16 16 ++ toLe 8 arg ++ sub b 40 24

/-- A SUBMIT of a template for an instance. -/
def State.submit (s : State) (d n t : Nat) : State :=
  let x := s.dom d
  let pg := pgCAD d
  if 64 ≤ x.ring.length then (s.countUp pg r_CAD_DOM_CNT_OVERRUN 1).event pg ev_cadDom_OVERRUN
  else (s.setDom d { x with ring := x.ring ++ [⟨s.submitBytes d n t, n, t⟩] }).move pg 0 .free .held 1

/-- Empties the ring's unaccepted slots (R157). -/
def State.emptyRing (s : State) (d : Nat) : State :=
  let s1 := s.ringDrop d
  s1.setDom d { s1.dom d with ring := [], offered := false }

/-! ### Event points (R150, R154, R155) -/

def Ept.action (e : Ept) : Nat := bits e.d1 10 8
def Ept.base (e : Ept) : Int := (bits e.d1 7 0 : Int) * 2 ^ 32 + e.d0

/-- The first instance, at or above `lo` and below `hi` where given, of an entry that has not fired: its position and number. -/
def nextOf (pos : Int) (key : Nat) (base : Int) (k lo : Nat) (hi : Option Nat) : Option (Int × Nat) :=
  let q := -((base - pos) / (2 ^ 32 : Int))
  let n0 : Nat := max lo q.toNat
  let n := if (n0 : Int) * 2 ^ 32 + base = pos ∧ k < key then n0 + 1 else n0
  match hi with
  | some h => if n < h then some ((n : Int) * 2 ^ 32 + base, n) else none
  | none => some ((n : Int) * 2 ^ 32 + base, n)

/-- The candidates of a bank: position, key, instance and entry. The key orders entries at one position by table index. -/
def bankNext (x : Dom) (bank : SMap Ept) (new : Nat) (lo : Nat) (hi : Option Nat) : List (Int × Nat × Nat × Ept) :=
  bank.filterMap (fun e =>
    if e.2.action = 0 then none
    else (nextOf x.nextPos x.nextKey e.2.base (e.1 * 2 + new) lo hi).map (fun c => (c.1, e.1 * 2 + new, c.2, e.2)))

/-- The least of two candidates. -/
def lessC (a b : Int × Nat × Nat × Ept) : Bool := a.1 < b.1 || (a.1 == b.1 && a.2.1 < b.2.1)

/-- The next instance of every entry that has one, of both banks. -/
def Dom.coming (x : Dom) : List (Int × Nat × Nat × Ept) :=
  (match x.old with
    | some b => bankNext x b 0 x.lo (some x.n0)
    | none => []) ++ bankNext x x.active 1 x.n0 none

/-- The next instance to fire, of both banks. -/
def Dom.next (x : Dom) : Option (Int × Nat × Nat × Ept) :=
  x.coming.foldl (fun (m : Option (Int × Nat × Nat × Ept)) c =>
    match m with
    | none => some c
    | some y => if lessC c y then some c else some y) none

/-- Notes the latest instance whose TRIGGER_OUT on an output has fired, to which frames are attributed (R159). -/
def State.trigFired (s : State) (d j n : Nat) : State :=
  { s with ing := { s.ing with trig := smPut s.ing.trig (d * 16 + j) n } }

/-- The effect of an entry that fires for an instance (R155). -/
def State.fireEntry (s : State) (d n idx : Nat) (e : Ept) : State :=
  let x := s.dom d
  let pg := pgCAD d
  let skip := x.skipped n
  if e.action = 1 then
    (if skip || !s.triggers d then s
    else ((s.driveOut (e.d2 % 16) true).setPulses (smPut s.cad.pulses (e.d2 % 16) (s.time + e.d3 % 2 ^ 20))).trigFired d (e.d2 % 16) n)
  else if e.action = 2 then
    (if !s.submits d then (if s.resultTpl d = some (e.d2 % 16) then s.setInst d n { x.getInst n with passed := true } else s)
    else if skip then s
    else s.submit d n (e.d2 % 16))
  else if e.action = 3 then (if s.submits d then s.deadline d n else s.setInst d n { x.getInst n with passed := true }).handAt d n
  else if e.action = 4 then
    (if s.paired d && s.role == 3 && !skip then s.setInst d n { x.getInst n with snap := true } else s)
  else if e.action = 5 ∧ !skip then
    let s1 := if cfValid e.d2 then s.relAdd (s.domOwner d) (cfCounter e.d2) e.d3 else s
    let y := s1.dom d
    if 64 ≤ y.marks.length then s1.setFld pg f_CAD_DOM_STATUS_MARK_LOST 1
    else
      let s2 := s1.setDom d { y with marks := y.marks ++ [(s.time, idx, n)] }
      if y.marks.isEmpty then s2.event pg ev_cadDom_MARK_READY else s2
  else s

/-- Fires passed instances in order, at most as many as given. -/
def State.fireUpTo (s : State) (d : Nat) : Nat → State
  | 0 => s
  | fuel + 1 =>
    match (s.dom d).next with
    | none => s
    | some (pos, key, n, e) =>
      if (s.dom d).h < pos then s
      else
        let x := s.dom d
        ((s.setDom d { x with nextPos := pos, nextKey := key + 1 }).fireEntry d n (key / 2) e).fireUpTo d fuel

/-- Updates H from the predicted position. During standstill only a counted edge moves it (R153). -/
def State.raiseH (s : State) (d : Nat) : State :=
  let x := s.dom d
  let df := sdiff (s.predict d s.time) x.h
  let s1 := if 0 < df ∧ s.fld (pgCAD d) f_CAD_DOM_STATUS_STANDSTILL = 0 then s.setDom d { x with h := x.h + df } else s
  let below := decide (df < -((s.fld (pgCAD d) f_CAD_DOM_REV_LIMIT_DEPTH : Int) * 2 ^ 24))
  let y := s1.dom d
  let s2 := s1.setDom d { y with revBelow := below }
  if below && !x.revBelow then s2.slip d [ev_cadDom_REVERSAL] else s2

/-- POSITION_EVALUATION: the misses of the evaluations before it, H, the instances it passes (at most 64, R150's rate; log entry 20), and the holds that end. -/
def execPositionEvaluation (d : Fin 16) (now : DWord) (s : State) : Host.Outcome State Fault Refusal :=
  .next (if !s.running (pgCAD d.val) ∨ (s.dom d.val).origin.isNone then s
    else ((((s.at now.toNat).settleMisses d.val now.toNat).raiseH d.val).fireUpTo d.val 64).showDom d.val)

/-- TRIGGER_PULSE_END: the width of the pulse on an output has elapsed, since the last firing on it (R155); it runs to its width whatever becomes
of its domain (R387). -/
def execTriggerPulseEnd (j : Fin 16) (now : DWord) (s : State) : Host.Outcome State Fault Refusal :=
  .next (match smFind s.cad.pulses j.val with
    | some t => if t ≤ now.toNat then ((s.at now.toNat).setPulses (smDel s.cad.pulses j.val)).driveOut j.val false else s
    | none => s)

/-! ### Table commits (R156, R167) -/

/-- Entries of a bank in table order, with a test's first failure: REASON and entry index. -/
def eptFind (b : SMap Ept) (p : Ept → Bool) : Option Nat := (b.find? (fun e => e.2.action != 0 && p e.2)).map (fun e => e.1)

/-- Range rules of an entry. -/
def Ept.rangeBad (e : Ept) : Bool :=
  e.d1 / 2048 != 0 || 5 < e.action ||
  (match e.action with
   | 1 => e.d2 / 16 != 0 || e.d3 < 10 || 1000000 < e.d3
   | 2 => e.d2 / 16 != 0 || e.d3 != 0
   | 3 => e.d2 / 16 != 0 || e.d3 != 0
   | 4 => e.d2 != 0 || e.d3 != 0
   | 5 => bits e.d2 30 18 != 0
   | _ => false)

/-- SUBMIT entries of a bank. -/
def submitCount (b : SMap Ept) : Nat := (b.filter (fun e => e.2.action == 2)).length

/-- MAX_RATE times the SUBMIT entries of a domain's active bank. -/
def State.domLoad (s : State) (d : Nat) : Nat :=
  s.fld (pgCAD d) f_CAD_DOM_RATE_MAX_RATE *
  submitCount (if s.st (pgCAD d) = stCHECKING then (s.dom d).shadow else (s.dom d).active)

/-- Does the rate limit of R167 refuse a bank of a domain? -/
def State.rateBad (s : State) (d : Nat) (b : SMap Ept) : Bool :=
  let own := s.fld (pgCAD d) f_CAD_DOM_RATE_MAX_RATE * submitCount b
  let others := (((List.range 16).filter (fun e => e != d && (s.st (pgCAD e) == stRUNNING || s.st (pgCAD e) == stCHECKING))).map
    (fun e => s.domLoad e)).foldl (· + ·) 0
  8000 < own || 64000 < others + own

/-- A panel-clock cycle in 1/36 ns by clock point: 1.5, 1.2, 0.9 and 0.6 GHz. -/
def cycle36 (point : Nat) : Nat := if point = 0 then 24 else if point = 1 then 30 else if point = 2 then 40 else 60

/-- D of R167 for the RESULT template's group and a cartoon's CYCLES, in 1/36 ns. -/
def State.dueTime (s : State) (d : Nat) (panels : List Nat) (cycles : Nat) : Nat :=
  let fl := s.ctlOf d f_CAD_DOM_CTRL_FLOOR
  let fixed := panels.all (fun p => s.fld (pnlPage p) fPOINT == fl && s.fld (cnvPage (p / 32)) fPOINT == fl)
  let comp := (cycles + 2600) * cycle36 fl + (if fixed then 0 else 4000 * 36)
  let sh := panels.filter (fun p => s.panelMode p == 0)
  let slow := (sh.map (fun p => cycle36 (s.fld (pnlPage p) fACTUAL))).foldl max 0
  let pre := if sh = [] then 0 else 2 ^ 20 * slow + 44000 * 36
  let skew := if s.ctlOf d f_CAD_DOM_CTRL_TRIPTYCH = 1 then s.fld pgVAR0 (f_VAR_TRI_TIMING_SKEW_US d) * 1000 * 36 else 0
  1000 * 36 + pre + comp + skew + 800 * 36 + 100 * 36

/-- The panels and cartoons of the RESULT template's group (of its three channels in a Triptych domain). -/
def State.resultPanels (s : State) (d : Nat) : List Nat :=
  match s.resultTpl d with
  | none => []
  | some t =>
    let f := leAt (s.tplBytes d t) 52 4
    let g := s.groupOf (s.domOwner d) f
    if s.ctlOf d f_CAD_DOM_CTRL_TRIPTYCH = 1 then
      g ++ (List.range g.length).map (fun i => s.fld pgVAR0 (f_VAR_TRI_CHAN_FIRST1 d) + i) ++
      (List.range g.length).map (fun i => s.fld pgVAR0 (f_VAR_TRI_CHAN_FIRST2 d) + i)
    else g

/-- The CARTOON_IDs of the RESULT template's argument blocks; none where one cannot be read. -/
def State.resultCartoons (s : State) (d : Nat) : Option (List Nat) :=
  match s.resultTpl d with
  | none => none
  | some t =>
    let arg := leAt (s.tplBytes d t) 32 8
    let stride := (s.word (pgCAD d) (r_CAD_TPL_CTL_W2 t)).toNat
    (List.range (s.fld (pgCAD d) (f_CAD_TPL_CTL_W3_ARG_COUNT t))).mapM (fun i =>
      match s.readDva (bareWho (s.domOwner d)) ((arg + i * stride) % 2 ^ 64) 2 with
      | .ok b _ => some (leNat b)
      | .bad _ _ => none)

/-- The resident RESULT cartoons of the group, none where one is absent. -/
def State.resultCarts (s : State) (d : Nat) : Option (List Cart) :=
  match s.resultCartoons d with
  | none => none
  | some ids => (ids.flatMap (fun id => (s.resultPanels d).map (fun p => s.cart p (s.domOwner d) id))).mapM id

/-- The SUBMIT and DEADLINE entries of the RESULT template. -/
def subsOf (b : SMap Ept) (t : Nat) : List (Nat × Ept) := b.filter (fun e => e.2.action == 2 && e.2.d2 % 16 == t)
def duesOf (b : SMap Ept) (t : Nat) : List (Nat × Ept) := b.filter (fun e => e.2.action == 3 && e.2.d2 % 16 == t)

/-- Is the distance from the RESULT template's SUBMIT to its DEADLINE, as time at MAX_RATE, shorter than D? -/
def State.dueClose (s : State) (d : Nat) (b : SMap Ept) : Option Nat :=
  match s.resultTpl d with
  | none => none
  | some t => match subsOf b t, duesOf b t, s.resultCarts d with
    | [(_, x)], [(i, y)], some cs =>
      let cycles := (cs.map (fun c => leAt c.image 0x18 8)).foldl max 0
      let need := s.dueTime d (s.resultPanels d) cycles * s.fld (pgCAD d) f_CAD_DOM_RATE_MAX_RATE * 2 ^ 32
      if x.base ≤ y.base ∧ (y.base - x.base).toNat * 36000000000 < need then some i else none
    | _, _, _ => none

/-- The table rules of R156: the entry at fault. -/
def State.eptRule (s : State) (d : Nat) (b : SMap Ept) : Option Nat :=
  let dup := (List.range 16).findSome? (fun t => ((subsOf b t).drop 1).head?.map (fun e => e.1))
  let unv := eptFind b (fun e => e.action == 2 && !s.tplValid d (e.d2 % 16))
  let dueT := eptFind b (fun e => e.action == 3 && s.resultTpl d != some (e.d2 % 16))
  let trig := eptFind b (fun e => e.action == 1 && !bitOf (s.word (pgCAD d) r_CAD_DOM_OUTS) (e.d2 % 16))
  let res := match s.resultTpl d with
    | none => none
    | some t => match subsOf b t, duesOf b t with
      | x :: _, [y] => if y.2.base < x.2.base then some y.1 else none
      | _, l => some ((l.getLast?.map (fun e => e.1)).getD 0)
  [dup, unv, dueT, trig, res].findSome? id

/-- The tests of a bank (R156), in order: REASON and entry index of the first failure. -/
def State.eptCheck (s : State) (d : Nat) (b : SMap Ept) : Option (Nat × Nat) :=
  let f := fun (r : Nat) (o : Option Nat) => o.map (fun i => (r, i))
  [f 1 (eptFind b Ept.rangeBad),
   f 4 (eptFind b (fun e => e.action == 5 && cfValid e.d2 && (s.relCounter (s.domOwner d) (cfCounter e.d2)).isNone)),
   f 0x41 (if s.rateBad d b then some 0 else none), f 0x43 (s.dueClose d b), f 0x46 (s.eptRule d b)].findSome? id

/-- Reports a commit's end: REASON and INDEX keep those of the last refusal (R170). -/
def State.eptEnd (s : State) (d reason idx : Nat) : State :=
  let pg := pgCAD d
  let s1 := if reason = 0 then s.setFld pg f_CAD_EPT_STATUS_REFUSED 0
    else ((s.setFld pg f_CAD_EPT_STATUS_REASON reason).setFld pg f_CAD_EPT_STATUS_INDEX idx).setFld pg f_CAD_EPT_STATUS_REFUSED 1
  s1.event pg ev_cadDom_EPT_DONE

/-- Does the old bank still hold an instance that has not fired? -/
def Dom.oldServes (x : Dom) : Bool :=
  match x.old with
  | some b => !(bankNext x b 0 x.lo (some x.n0)).isEmpty
  | none => false

/-- The floor power of a panel by its point, in mW (R161). -/
def floorMw (point : Nat) : Nat := if point = 0 then 6875 else if point = 1 then 4600 else if point = 2 then 2800 else 1500
/-- The panels reserved to a domain (R160). -/
def State.reserved (s : State) (d : Nat) : List Nat := (List.range 128).filter (fun p => bitOf (s.word (pgCAD d) (r_CAD_DOM_PANELS (p / 32))) (p % 32))
/-- The floor power, in mW, of the reserved panels of the domains in some of the states. -/
def State.floorPower (s : State) (p : Nat → Bool) : Nat :=
  (((List.range 16).filter (fun d => p (s.st (pgCAD d)))).map (fun d =>
    (s.reserved d).length * floorMw (s.ctlOf d f_CAD_DOM_CTRL_FLOOR))).foldl (· + ·) 0
/-- Refreshes CAD_TRK_LOAD and CAD_TRK_FLOOR: the loads and the floor power of RUNNING domains, rounded up to whole W (R171). -/
def State.showTrk (s : State) : State :=
  let run := fun (x : Nat) => x == stRUNNING
  let load := (((List.range 16).filter (fun d => s.running (pgCAD d))).map (fun d => s.domLoad d)).foldl (· + ·) 0
  (s.setFld pgTRK f_CAD_TRK_LOAD_RESULTS load).setFld pgTRK f_CAD_TRK_FLOOR_WATTS ((s.floorPower run + 999) / 1000)

/-- A write of CAD_EPT_COMMIT: the check and its end are one step (log entry 21). Easel refuses it as it does a page's check while the EAS page is
not RUNNING (R42; DEDUCED, log entry 36). -/
def State.eptCommit (s : State) (d : Nat) (v : Word) : State :=
  let pg := pgCAD d
  let s1 := s.noteRsv pg r_CAD_EPT_COMMIT v
  let x := s1.dom d
  if v.toNat % 2 = 0 then s1
  else if s1.fld pg f_CAD_EPT_STATUS_BUSY = 1 then s1.eptEnd d 0x47 0
  else if !s1.running pgEAS then s1.eptEnd d 0x03 0
  else match s1.eptCheck d x.shadow with
    | some (r, i) => s1.eptEnd d r i
    | none =>
      if s1.running pg ∧ x.origin.isSome then
        let y := { x with old := some x.active, active := x.shadow, n0 := x.cycle + 1, lo := x.n0 }
        (((s1.setDom d y).setFld pg f_CAD_EPT_STATUS_BUSY 1).eptEnd d 0 0).showTrk
      else (s1.setDom d { x with active := x.shadow }).eptEnd d 0 0

/-- EPT_COMMIT. -/
def execEptCommit (d : Fin 16) (v : Word) (s : State) : Host.Outcome State Fault Refusal :=
  .next (s.via 0 (fun a => a.eptCommit d.val v))

/-- EPT_BANK_SWITCH: the old bank becomes the shadow bank, with the new active bank's contents. -/
def execEptBankSwitch (d : Fin 16) (s : State) : Host.Outcome State Fault Refusal :=
  let x := s.dom d.val
  .next (if x.old.isNone ∨ x.oldServes then s
    else (s.setDom d.val { x with old := none, shadow := x.active }).setFld (pgCAD d.val) f_CAD_EPT_STATUS_BUSY 0)

/-- A write of CAD_EPT_DATA: word w of the selected entry of the shadow bank. -/
def State.eptData (s : State) (d w : Nat) (v : Word) : State :=
  let x := s.dom d
  let i := s.fld (pgCAD d) f_CAD_EPT_SEL_INDEX
  let e := smGet ⟨0, 0, 0, 0⟩ x.shadow i
  let n := v.toNat
  let e1 := if w = 0 then { e with d0 := n } else if w = 1 then { e with d1 := n } else if w = 2 then { e with d2 := n } else { e with d3 := n }
  s.setDom d { x with shadow := smSet ⟨0, 0, 0, 0⟩ x.shadow i e1 }

/-! ### Reads with effects (R170) -/

/-- MARK_QUEUE_READ: latches HI and INFO and removes the head. -/
def execMarkQueueRead (d : Fin 16) (s : State) : Host.Outcome State Fault Refusal :=
  let pg := pgCAD d.val
  .next (s.via 0 (fun a =>
    let x := a.dom d.val
    match x.marks with
    | [] => ((a.setWord pg r_CAD_MARK_INFO 0).setWide pg r_CAD_MARK_TIME_LO 0).readWide pg r_CAD_MARK_TIME_LO
    | (t, i, n) :: r =>
      ((a.setDom d.val { x with marks := r }).setWord pg r_CAD_MARK_INFO (BitVec.ofNat 32 (2 ^ 31 + n % 32768 * 65536 + i)) |>.setWide pg
        r_CAD_MARK_TIME_LO t).readWide pg r_CAD_MARK_TIME_LO))

/-- CAD_DOM_POSITION_READ of one of the three pairs: 0 POS, 1 HWM, 2 SPEED. -/
def execCadDomPositionRead (d : Fin 16) (which : Fin 3) (now : DWord) (s : State) : Host.Outcome State Fault Refusal :=
  let pg := pgCAD d.val
  .next (s.via 0 (fun s0 =>
    let a := s0.at now.toNat
    let x := a.dom d.val
    let (w, v) : Nat × Int := if which = 0 then (r_CAD_DOM_POS_LO, a.predict d.val a.time) else if which = 1 then (r_CAD_DOM_HWM_LO, x.h)
      else (r_CAD_DOM_SPEED_LO, x.v)
    (a.setWide pg w (low64 v)).readWide pg w))

/-! ### Entering and leaving RUNNING (R144, R168, R169) -/

/-- A domain enters RUNNING: the tracker starts with k = 0, H at the starting position, the ring empty. -/
def State.domStart (s : State) (d : Nat) : State :=
  let x := s.dom d
  let atEnable := s.ctlOf d f_CAD_DOM_CTRL_START == 0
  let c := (s.refCh (s.ctlOf d f_CAD_DOM_CTRL_CHANNEL)).count
  let y := { domReset with shadow := x.shadow, active := x.shadow, origin := if atEnable then some c else none, tLast := s.time }
  let s0 := ((s.setDom d y).setFld (pgCAD d) f_CAD_EPT_STATUS_BUSY 0).setFld (pgCAD d) f_CAD_DOM_STATUS_SLIP 0
  let s1 := (s0.setFld (pgCAD d) f_CAD_DOM_STATUS_STANDSTILL 0).setFld pgVAR0 (f_VAR_TRI_CHSTATE_CH d) 0
  let s2 := { s1 with ing := { s1.ing with trig := s1.ing.trig.filter (fun e => e.1 / 16 != d),
                                           marks := s1.ing.marks.filter (fun e => e.1 / 2 ^ 28 != d) } }
  (s2.setFld pgVAR0 (f_VAR_TRI_CHSTATE_RECOVERIES d) 0).showDom d

/-- A domain leaves RUNNING: no instance fires, and its ring is emptied. -/
def State.domLeave (s : State) (d : Nat) : State := ((s.settleMisses d (s.time + 10)).emptyRing d).showTrk

end Sys2Proof.Machine
end

