-- ==== Sys2Proof/Machine/Canvas.lean ====
section
/-! DEFINITION. The commands of panels and canvases (04, 05's steps and time-slicing): one meaning per command. -/

namespace Sys2Proof.Machine

open Sys2Proof

/-- STEP_START (R123): the next step of the panel's first work starts if its conditions hold; a WAIT on a poisoned counter ends
the operation with POISON_CONSUMED (R126). -/
def execStepStart (p : Fin 128) (s : State) : Host.Outcome State Fault Refusal :=
  .next (if (s.panel p.val).lost then s.sweepPanel p.val else match s.headWork p.val with
    | none => s
    | some w => match s.op w.tag with
      | none => s
      | some o =>
        let e := imgStep w.image w.entry w.step
        if (s.stepWaitOn o (stepWait e) (stepWaitAdd e)).any (fun x => s.counterPoisoned x.1) && !w.running && o.status == 0 then
          s.endAt w.tag scPOISON w.step w.g
        else if s.canStart p.val w o then s.startStep p.val w else s)

/-- STEP_END (R88): the running step of the panel ends. -/
def execStepEnd (p : Fin 128) (s : State) : Host.Outcome State Fault Refusal :=
  .next (match (s.panel p.val).work.find? (fun w => w.running && w.kind == 0) with
    | none => s
    | some w => match s.op w.tag with
      | none => s
      | some o => s.stepEnd p.val w o)

/-- The sender's outbound binding of a transfer between panels that a receiver takes: the oldest of the operation that drains towards it. -/
def State.senderOf (s : State) (sender rcv tag : Nat) : Option (Nat × Port) :=
  (s.panel sender).ports.find? (fun e => e.2.state == 3 && e.2.tag == tag && bindPeer e.2.bind == 1 && e.2.far == rcv)

/-- The BUFFER field that a binding's far address came from, as DETAIL names it (R473). -/
def bufferField (x : Port) : Nat := 0xA0 + 8 * (bindTarget x.bind % 16)

/-- Units 0 to k − 1 of a slot are written to the palette of `p`, each from what `f` gives for it; palette rows that run past 8 MiB wrap, and of two
unordered writes of a byte the last stands (R116; DESIGN CHOICE, log entry 34). -/
def State.landUnits (s : State) (p k : Nat) (at_ : Nat → Nat) (f : State → Nat → Rd) : State × Option (Nat × Nat) :=
  (List.range k).foldl (fun (a : State × Option (Nat × Nat)) i =>
    match a.2 with
    | some _ => a
    | none =>
      let pa := at_ i % 0x800000
      match f a.1 i with
      | .bad q e => (a.1, some (q, e))
      | .ok bs po =>
        let b := a.1.palWrite p pa bs
        (if po then b.palPoison p pa else b, none)) (s, none)

/-- A slot of an inbound binding has landed: its credit passes through held to free, and while data is to come another is granted; a full binding's
unused credits return. -/
def State.landed (s : State) (p n k : Nat) (x : Port) : State :=
  let full := decide (x.units + k = x.need)
  let s1 := (s.landCredit p).setPort p n { x with units := x.units + k, granted := x.granted - 1, state := if full then 2 else 1 }
  (if full then s1.ungrant p n else s1.grant p n).showPort p n

/-- A slot of an inbound binding from tenant memory lands (R85): up to 512 bytes, in 64-byte units, are read at the far side and written to the palette
through the drain ports. -/
def State.landSlot (s : State) (p n : Nat) (x : Port) (o : Op) : State :=
  let k := min 8 (x.need - x.units)
  let w := o.who x.tag
  if (List.range k).any (fun i => s.readHeld w (x.far + bindFarAt x.bind (x.units + i)) 64) then s
  else
    let res := s.landUnits p k (fun i => bindPalAt x.bind (x.units + i)) (fun a i => a.readDva w (x.far + bindFarAt x.bind (x.units + i)) 64)
    match res.2 with
    | some (q, e) => (((res.1.landCredit p).mmuFault w q e false).opMark x.tag (faultStatus e) (faultDetail e (bufferField x))).endOnPanels x.tag
    | none => res.1.landed p n k x

/-- 64 bytes of panel `p`'s palette at `pa` are written to `d` as `w`, the data of poisoned words poisoned; the address and
reason of the fault where they are not. -/
def State.sendAt (s : State) (p : Nat) (w : Who) (quiet : Bool) (pa d : Nat) : State × Option (Nat × Nat) :=
  match s.writeFault w 0 (cuts d 64) with
  | some r => (s, some r)
  | none =>
    if quiet then (s, none)
    else ((wordsOf (p * 0x800000 + pa) 64).foldl (fun (c : State) q =>
      if smGet false s.mem.palPoison q then c.poisonDva w (d + (q * 8 - (p * 0x800000 + pa))) else c)
      (s.writeDva w d (s.palRead p pa 64)), none)

/-- An outbound binding has sent `k` units more; once it has sent all of them its port is free for the next (R123). -/
def State.sentUnits (s : State) (p key k : Nat) (x : Port) : State :=
  let done := decide (x.need ≤ x.units + k)
  let s1 := if done then s.dropPort p key else s.setPort p key { x with units := x.units + k }
  let s2 := s1.showPort p (key % 4)
  if done then (s2.drained p x.tag x.step).fillPorts p else s2

/-- A slot of an outbound binding to tenant memory leaves (R85). -/
def State.sendSlot (s : State) (p key : Nat) (x : Port) (o : Op) : State :=
  let k := min 8 (x.need - x.units)
  let w := o.who x.tag
  let res := (List.range k).foldl (fun (a : State × Option (Nat × Nat)) i =>
    match a.2 with
    | some _ => a
    | none => a.1.sendAt p w o.abandoned (bindPalAt x.bind (x.units + i) % 0x800000) (x.far + bindFarAt x.bind (x.units + i))) (s, none)
  match res.2 with
  | some (q, e) =>
    ((((res.1.dropPort p key).showPort p (key % 4)).mmuFault w q e true).opMark x.tag (faultStatus e) (faultDetail e (bufferField x))).endOnPanels x.tag
  | none => res.1.sentUnits p key k x

/-- A slot of a transfer between two panels moves (R104): what it moves, from where to where, is said by the sender's outbound binding alone. -/
def State.passSlot (s : State) (p n : Nat) (x : Port) : State :=
  match s.senderOf x.far p x.tag with
  | none => s
  | some (key, y) =>
    let k := min 8 (min (x.need - x.units) (y.need - y.units))
    let res := s.landUnits p k (fun i => bindFarAt y.bind (y.units + i))
      (fun a i =>
        let o := bindPalAt y.bind (y.units + i) % 0x800000
        .ok (a.palRead x.far o 64) (anyPoison a.mem.palPoison (x.far * 0x800000 + o) 64))
    (res.1.landed p n k x).sentUnits x.far key k y

/-- STREAM_SLOT_LAND (R85, R86): a slot of data moves on a client of the drain path. Inbound data lands against a credit; outbound data to tenant memory
leaves; late data, of a grant that was withdrawn, is discarded and its slot returns to free as reclaimed, or, where that has happened already, the
grant's generation rejects it. -/
def execStreamSlotLand (p : Fin 128) (port : Fin 4) (kind : SlotKind) (s : State) : Host.Outcome State Fault Refusal :=
  .next (match kind with
    | .inbound => (match s.port p.val port.val with
      | some x => if x.state ≠ 1 ∨ x.granted = 0 then s
        else if bindPeer x.bind = 1 then s.passSlot p.val port.val x
        else (match s.op x.tag with
          | some o => s.landSlot p.val port.val x o
          | none => s)
      | none => s)
    | .outbound => (match s.outPort p.val port.val with
      | some (key, x) => if bindPeer x.bind = 1 then s
        else (match s.op x.tag with
          | some o => s.sendSlot p.val key x o
          | none => s)
      | none => s)
    | .late =>
      let x := s.panel p.val
      let n := smGet 0 x.withdrawn port.val
      if n = 0 then s
      else (s.reclaim (pnlPage p.val) 0 .transit 1).setPanel p.val { x with withdrawn := smSet 0 x.withdrawn port.val (n - 1) })

/-! ### The mesh (R90, R91) -/

/-- The stop at which a destination lies: a mesh stop, or, from 36 up, a die-to-die port of row 0. -/
def meshStop (dest : Nat) : Nat := if dest < 36 then dest else Config.portStop (dest - 36) % 6

/-- The mesh stop next on a flit's way, with the direction it goes, dimension-ordered: along the row first, then along the column; direction 4 is
arrival (R90). -/
def meshNext (stop dest : Nat) : Nat × Nat :=
  let r := stop / 6
  let c := stop % 6
  let dr := dest / 6
  let dc := dest % 6
  if c < dc then (stop + 1, 0) else if dc < c then (stop - 1, 1) else if r < dr then (stop + 6, 2) else if dr < r then (stop - 6, 3)
  else (stop, 4)

/-- Flit buffers of a virtual channel on each directed link (CNV_MESH_VC), and at each die-to-die port (CNV_D2D_VC). -/
def State.meshVc (s : State) (c vc : Nat) : Nat :=
  if vc = 0 then s.fld (cnvPage c) f_CNV_MESH_VC_VC0 else if vc = 1 then s.fld (cnvPage c) f_CNV_MESH_VC_VC1
  else if vc = 2 then s.fld (cnvPage c) f_CNV_MESH_VC_VC2 else s.fld (cnvPage c) f_CNV_MESH_VC_VC3
def State.d2dVc (s : State) (c vc : Nat) : Nat :=
  if vc = 0 then s.fld (cnvPage c) f_CNV_D2D_VC_VC0 else if vc = 1 then s.fld (cnvPage c) f_CNV_D2D_VC_VC1
  else if vc = 2 then s.fld (cnvPage c) f_CNV_D2D_VC_VC2 else s.fld (cnvPage c) f_CNV_D2D_VC_VC3

/-- Key of a link's buffers: the stop at its receiving end, the direction it runs in, the virtual channel. -/
def meshKey (stop dir vc : Nat) : Nat := (stop * 4 + dir) * 4 + vc

/-- The flits that wait at a stop, each with its virtual channel: the oldest of every buffer there, those of the die-to-die ports among them. -/
def Canvas.heads (x : Canvas) (stop : Nat) : List (Nat × Flit) :=
  let oldest := fun (m : SMap (List Flit)) (k vc : Nat) => ((smGet [] m k).head?).toList.map (fun f => (vc, f))
  (List.range 4).flatMap (fun vc =>
    (List.range 4).flatMap (fun d => oldest x.mesh (meshKey stop d vc) vc) ++
    ((List.range 8).filter (fun q => meshStop (36 + q) == stop)).flatMap (fun q => oldest x.d2d (q * 4 + vc) vc))

/-- Has the next link's buffer of the virtual channel a credit? -/
def State.linkFree (s : State) (c vc : Nat) (nx : Nat × Nat) : Bool :=
  decide ((smGet [] (s.canvas c).mesh (meshKey nx.1 nx.2 vc)).length < s.meshVc c vc)

/-- May a flit of `vc` take the link `nx` from `stop` now: fixed priority VC2, then VC3, then VC0 and VC1 in alternation, among those with a credit? -/
def State.linkTurn (s : State) (c stop vc : Nat) (nx : Nat × Nat) : Bool :=
  let x := s.canvas c
  let wants := fun (v : Nat) => s.linkFree c v nx && (x.heads stop).any (fun e => e.1 == v && meshNext stop (meshStop e.2.dest) == nx)
  let one := smGet false x.turn (nx.1 * 4 + nx.2)
  s.linkFree c vc nx &&
    (if vc = 2 then true else if vc = 3 then !wants 2
     else !wants 2 && !wants 3 && (if vc = 0 then !(one && wants 1) else one || !wants 0))

/-- A flit at `stop`, taken out of `x`, arrives or goes on: its state, where it is now, and whether it stayed. -/
def State.flitOn (s : State) (c stop vc : Nat) (f : Flit) (x : Canvas) : Option (State × Nat) :=
  let nx := meshNext stop (meshStop f.dest)
  if nx.2 = 4 then some (s.setCanvas c x, stop + (if f.poisoned then 64 else 0))
  else if !s.linkTurn c stop vc nx then none
  else
    let k := meshKey nx.1 nx.2 vc
    let turn := if vc ≤ 1 then smSet false x.turn (nx.1 * 4 + nx.2) (vc == 0) else x.turn
    some (s.setCanvas c { x with mesh := smSet [] x.mesh k (smGet [] x.mesh k ++ [f]), turn := turn }, nx.1)

/-- The next number of a flow's flits, and the canvas that has counted it. -/
def Canvas.numbered (x : Canvas) (src dest vc : Nat) : Nat × Canvas :=
  let k := (src * 64 + dest) * 4 + vc
  (smGet 0 x.sent k, { x with sent := smSet 0 x.sent k (smGet 0 x.sent k + 1) })

/-- MESH_FLIT_ARRIVAL (R90, R91): a flit enters the mesh at its source, comes from the Stretcher into a die-to-die port's buffer, or the oldest flit of a
buffer goes on. At its destination it is consumed and its buffer's credit returns; elsewhere it takes a credit of the next link in its turn, or waits.
The reply is the stop it is at afterwards, plus 64 for one delivered poisoned. -/
def execMeshFlitArrival (c : Fin 4) (move : FlitMove) (s : State) : Host.Outcome State Fault Refusal :=
  let pg := cnvPage c.val
  let x := s.canvas c.val
  .next (match move with
    | .enter src dest vc =>
      let (n, y) := x.numbered src.val dest.val vc.val
      (match s.flitOn c.val src.val vc.val ⟨src.val, dest.val, n, false⟩ y with
      | none => s.answer src.val
      | some (t, at_) => (if meshNext src.val (meshStop dest.val) == (src.val, 4) then t else t.move pg 0 .free .held 1).answer at_)
    | .fromStretcher port dest vc =>
      let k := port.val * 4 + vc.val
      if s.d2dVc c.val vc.val ≤ (smGet [] x.d2d k).length then s
      else
        let (n, y) := x.numbered (36 + port.val) dest.val vc.val
        ((s.setCanvas c.val { y with d2d := smSet [] y.d2d k (smGet [] y.d2d k ++ [⟨36 + port.val, dest.val, n, false⟩]) }).move pg 1 .free .held 1).answer
          (meshStop (36 + port.val))
    | .hop stop dir vc =>
      let k := meshKey stop.val dir.val vc.val
      (match smGet [] x.mesh k with
      | [] => s
      | f :: r => match s.flitOn c.val stop.val vc.val f { x with mesh := smSet [] x.mesh k r } with
        | none => s.answer stop.val
        | some (t, at_) => (if meshNext stop.val (meshStop f.dest) == (stop.val, 4) then t.move pg 0 .held .free 1 else t).answer at_)
    | .hopPort port vc =>
      let k := port.val * 4 + vc.val
      let stop := meshStop (36 + port.val)
      (match smGet [] x.d2d k with
      | [] => s
      | f :: r => match s.flitOn c.val stop vc.val f { x with d2d := smSet [] x.d2d k r } with
        | none => s.answer stop
        | some (t, at_) =>
          let t1 := t.move pg 1 .held .free 1
          (if meshNext stop (meshStop f.dest) == (stop, 4) then t1 else t1.move pg 0 .free .held 1).answer at_))

/-- A flit whose resending failed is delivered poisoned (R100): the oldest of the link's or the port's buffers, that of the virtual channel which comes
first at the link (DESIGN CHOICE, log entry 37). -/
def State.flitUe (s : State) (c : Nat) (port : Bool) (addr : Nat) : State :=
  let x := s.canvas c
  let m := if port then x.d2d else x.mesh
  let key := fun (vc : Nat) => if port then bits addr 10 8 * 4 + vc else meshKey (bits addr 5 0) (bits addr 7 6) vc
  match [2, 3, 0, 1].find? (fun vc => (smGet [] m (key vc)) != []) with
  | none => s
  | some vc => match smGet [] m (key vc) with
    | [] => s
    | f :: r =>
      let m1 := smSet [] m (key vc) ({ f with poisoned := true } :: r)
      s.setCanvas c (if port then { x with d2d := m1 } else { x with mesh := m1 })

/-- GRANT_WITHDRAW_TIMEOUT (R86): every withdrawn credit still in transit returns to free and is counted as reclaimed. -/
def execGrantWithdrawTimeout (p : Fin 128) (s : State) : Host.Outcome State Fault Refusal :=
  let x := s.panel p.val
  .next ((s.reclaim (pnlPage p.val) 0 .transit ((x.withdrawn.map (fun e => e.2)).foldl (· + ·) 0)).setPanel p.val { x with withdrawn := [] })

/-- CORE_SUBSTITUTION (R93): at a step boundary the lowest-numbered free spare takes a logical number; `storeUe` gives the offsets of the
instruction-store words of the position that could not be corrected. -/
def execCoreSubstitution (p : Fin 128) (storeUe : List (Fin 32768)) (s : State) : Host.Outcome State Fault Refusal :=
  .next (if s.stepRuns p.val then s else (s.substCore p.val (storeUe.map (fun o => o.val))))

/-- A write of PNL_RETIRE (R93, R99). -/
def State.pnlRetire (s : State) (page : Nat) (v : Word) : State :=
  let p := pageInstance page
  let x := s.panel p
  if fldGet v f_PNL_RETIRE_KEY = 0x7E71 ∧ x.freeSpares ≠ [] then s.retireCore p (s.physOf p (fldGet v f_PNL_RETIRE_LOGICAL)) true
  else s.discard page

/-- PNL_RETIRE (R93): KEY 0x7E71 retires the position that holds a logical core at the next step boundary; without the key or a
free spare the write is discarded. -/
def execPnlRetire (p : Fin 128) (v : Word) (s : State) : Host.Outcome State Fault Refusal := .next (s.via 0 (fun a => (a.noteRsv (pnlPage p.val) r_PNL_RETIRE v).pnlRetire (pnlPage p.val) v))

/-- A readmitted page is checked again (R32). -/
def State.readmitCheck (s : State) (page : Nat) : State :=
  if s.st page = stFENCED then ((s.setFld page fREASON 0).setFld page fDETAIL 0).setSt page stCHECKING else s

/-- PANEL_SUBSTITUTION (R95): after the fence and the end of its step the spare takes the logical panel; `dead` says that the fenced
panel's quad has lost power or clock, and `storeUe` gives the store words, by their offsets among the panel's stores, that could not be corrected in
the copy: cartoons that use one are stale. The page is readmitted. -/
def execPanelSubstitution (p : Fin 128) (dead : Bool) (storeUe : List (Fin 0x260000)) (s : State) : Host.Outcome State Fault Refusal :=
  let x := s.panel p.val
  .next (if !x.substing || (s.stepRuns p.val && !dead) then s
    else
      let s1 := (s.setPanel p.val { x with dead := dead, work := x.work.map (fun w => { w with running := w.running && !dead }) }).sweepPanel p.val
      let s2 := storeUe.foldl (fun (a : State) o => a.markStale p.val (some o.val)) (s1.substPanel p.val false)
      s2.readmitCheck (pnlPage p.val))

/-- A write of CNV_RETIRE (R97, R100). -/
def State.cnvRetire (s : State) (page : Nat) (v : Word) : State :=
  let c := pageInstance page
  if fldGet v f_CNV_RETIRE_KEY = 0x7E71 ∧ s.spareState c = 0 then
    s.setCanvas c { s.canvas c with retire := (s.canvas c).retire ++ [c * 32 + fldGet v f_CNV_RETIRE_LOGICAL] }
  else s.discard page

/-- CNV_RETIRE (R97): KEY 0x7E71 requests proactive retirement of a local logical panel, while the spare is AVAILABLE. -/
def execCnvRetire (c : Fin 4) (v : Word) (s : State) : Host.Outcome State Fault Refusal := .next (s.via 0 (fun a => (a.noteRsv (cnvPage c.val) r_CNV_RETIRE v).cnvRetire (cnvPage c.val) v))

/-- PNL_CYCLES_READ (R99). -/
def execPnlCyclesRead (p : Fin 128) (s : State) : Host.Outcome State Fault Refusal := .next (s.via 0 (fun a => a.readWide (pnlPage p.val) r_PNL_CYCLES_LO))

/-- QUANTUM_EXPIRY (R128): the resident tenant's quantum on a SHARED panel runs out. -/
def execQuantumExpiry (p : Fin 128) (s : State) : Host.Outcome State Fault Refusal :=
  .next (if s.panelMode p.val = 0 ∧ s.resident p.val ≠ 0x3F then s.setPanel p.val { s.panel p.val with quantumOut := true } else s)

/-- A tenant's tag on a restored state fails (R98): the panel is primed, the tenant's operations on it end with RESTORE_AUTH, and the
page records a CONTAINED event; the manual gives that event no SOURCE, so which it is stays open (log entry 9). -/
def State.restoreFail (s : State) (p t : Nat) : State :=
  let s1 := ((s.palZero p).storesZero p).setSaved p t savedReset
  let s2 := (s1.panel p).work.foldl (fun (a : State) w => if w.tenant = t then (a.opMark w.tag scRESTORE w.g).endOnPanels w.tag else a) s1
  let src := Config.restoreSource % 256
  (s2.capture (pnlPage p) src 2 0 0).collect (pnlPage p) src 2 0 0 false

/-- May a palette move begin on the panel (R128, R129): a SHARED panel at a step boundary whose resident has had its quantum, or on which PRIORITY 0
work of the tenant that comes is ready, with fewer moves on the canvas than its limit (R98)? -/
def State.switchMay (s : State) (p t : Nat) : Bool :=
  let x := s.panel p
  s.panelMode p == 0 && s.running (pnlPage p) && !s.stepRuns p && !x.substing && x.moving.isNone &&
    (s.resident p == 0x3F || x.quantumOut || s.urgent p t) &&
    decide ((s.canvas (p / 32)).moves < s.fld (cnvPage (p / 32)) f_CNV_MOVES_LIMIT)

/-- A palette move begins: no credit is granted from now on, and CNV_MOVES counts it. -/
def State.switchStart (s : State) (p t : Nat) : State :=
  let c := s.canvas (p / 32)
  (s.setPanel p { s.panel p with moving := some t }).setCanvas (p / 32) { c with moves := c.moves + 1 }

/-- A palette move ends, once the outgoing tenant's bindings have drained: everything outside the palette and stores is primed, and the outgoing state is
swapped for the incoming tenant's. A saved state that held a poisoned word fails its tag (R287). -/
def State.switchEnd (s : State) (p t : Nat) (tagOk : Bool) : State :=
  let r := s.resident p
  let lost := (s.savedOf p t).lost
  let s1 := s.ungrantAll p
  let s2 := if r = 0x3F then (s1.palZero p).storesZero p else s1.savePanel p r
  let s3 := ((s2.restorePanel p t).setFld (pnlPage p) f_PNL_STATUS_RESIDENT t)
  let c := s3.canvas (p / 32)
  let s4 := (s3.setPanel p { s3.panel p with quantumOut := false, moving := none }).setCanvas (p / 32) { c with moves := c.moves - 1 }
  ((if tagOk && !lost && !s.sec.wiped then s4.portsBack p else s4.restoreFail p t).fillPorts p)

/-- TENANT_SWITCH (R129): at a step boundary a SHARED panel is given to the tenant whose turn is next. The first command begins the palette move; the
second ends it, once no outbound binding drains. `tagOk` says whether the tag of the saved state verifies. -/
def execTenantSwitch (p : Fin 128) (tagOk : Bool) (s : State) : Host.Outcome State Fault Refusal :=
  .next (match (s.panel p.val).moving with
    | some t => if (s.panel p.val).ports.all (fun e => e.2.state != 3) then s.switchEnd p.val t tagOk else s
    | none => match s.nextTenant p.val with
      | some t => if s.switchMay p.val t then s.switchStart p.val t else s
      | none => s)

end Sys2Proof.Machine
end

