-- ==== Sys2Proof/Machine/Opcodes.lean ====
section
/-! DEFINITION. The operations RUN, FILL, SIGNAL, WAIT and CARTOON_LOAD and the local part of COPY (R107 to R109, R121, R122), the completion, posting and timeout of operations, and the commands of the sync counters (R130). -/

namespace Sys2Proof.Machine

open Sys2Proof

/-! ### RUN -/

/-- The first rule of the RUN argument block (R121) that is broken, by its offset. -/
def State.runArgFault (s : State) (t : Nat) (a : List Byte) : Option Nat :=
  let slot := fun (i : Nat) => 0x20 + 16 * i
  firstBad (zeroTests a 2 2 ++ ([(4, leAt a 4 4 < 2), (0x10, leAt a 4 4 == 0 || leAt a 0x10 8 % 64 == 0)] : List (Nat × Bool)) ++
    zeroTests a 0x18 8 ++
    (List.range 8).map (fun i => (slot i, cfClean (leAt a (slot i) 4) && leAt a (slot i + 4) 4 == 0 &&
      (!cfValid (leAt a (slot i) 4) || (s.relCounter t (cfCounter (leAt a (slot i) 4))).isSome))) ++
    zeroTests a 0x120 32)

/-- The first step of a directory entry that names a slot which is not VALID, by that slot's offset (R121). -/
def slotFaultOf (a image : List Byte) (g : Nat) : Option Nat :=
  let bad := fun (x : Nat) => slotEn x && !cfValid (leAt a (0x20 + 16 * slotOf x) 4)
  (List.range (dirSteps (imgDir image g))).findSome? (fun k =>
    let e := imgStep image g k
    if bad (stepWait e) then some (0x20 + 16 * slotOf (stepWait e))
    else if bad (stepSignal e) then some (0x20 + 16 * slotOf (stepSignal e)) else none)

/-- The first row of a buffer binding that does not translate: the address, the reason, the direction and the BUFFER offset. -/
def State.bindFault (s : State) (w : Who) (a b : List Byte) : Option (Nat × Nat × Bool × Nat) :=
  if bindPeer b ≠ 0 then none
  else
    let base := leAt a (0xA0 + 8 * (bindTarget b % 16)) 8
    (List.range (bindRows b)).findSome? (fun r =>
      (cuts (base + bindOffset b + r * bindFarStride b) (bindRowBytes b)).findSome? (fun c =>
        match s.translate w 0 c.1 (bindOut b) with
        | .error e => some (c.1, e, bindOut b, 0xA0 + 8 * (bindTarget b % 16))
        | .ok _ => none))

/-- The binding numbers that the steps of a directory entry name. -/
def bindsOf (image : List Byte) (g : Nat) : List Nat :=
  (List.range (dirSteps (imgDir image g))).flatMap (fun k =>
    ((List.range 4).map (stepBind (imgStep image g k))).filter (fun i => i != 0xFF))

/-- Puts an operation's work on the panels of its group; the operation has one part for each. -/
def State.queueWork (s : State) (tag : Nat) (o : Op) (ws : List (Nat × Work)) : State :=
  let s1 := s.setOp tag { o with parts := ws.length }
  let s2 := ws.foldl (fun (a : State) x => let y := a.panel x.1; a.setPanel x.1 { y with work := y.work ++ [x.2] }) s1
  ws.foldl (fun (a : State) x => a.fillPorts x.1) s2

/-- The effect of an issued RUN (R121): its argument block and cartoon are checked at this point, then its steps are queued. -/
def State.runStart (s : State) (tag : Nat) (o : Op) : State :=
  s.withArg tag o 320 (fun a =>
    let t := o.tenant
    let w := o.who tag
    let carts := o.group.map (fun p => s.cart p t (leAt a 0 2))
    let idx := List.range o.group.length
    match s.runArgFault t a with
    | some d => s.opEnd tag scARG d 0
    | none =>
        match idx.find? (fun g => (carts.getD g none).isNone) with
        | some g => s.opEnd tag scUNKNOWN g 0
        | none =>
          match idx.find? (fun g => (carts.getD g none).any (fun c => c.stale)) with
          | some g => s.opEnd tag scCSTALE g 0
          | none =>
            let cs := carts.filterMap id
            match cs.findSome? (fun c => slotFaultOf a c.image c.g) with
            | some d => s.opEnd tag scARG d 0
            | none =>
              match cs.findSome? (fun c => (bindsOf c.image c.g).findSome? (fun i => s.bindFault w a (imgBinding c.image i))) with
              | some (d, e, wr, f) => s.opFault tag o d e wr f
              | none =>
                let n := 4 * ((cs.map (fun c => imgWindows c.image)).foldl max 0)
                let tbl := if leAt a 4 4 % 2 = 1 then s.readDva w (leAt a 0x10 8) n else .ok [] false
                match tbl with
                | .bad d e => s.opFault tag o d e false 0x10
                | .ok tb _ =>
                  if !((List.range (tb.length / 4)).all (fun i => windowOk (leAt tb (4 * i) 4))) then s.opEnd tag scARG 0x10 0
                  else (s.queueWork tag { o with args := a, table := tb, windowed := (List.range 16).any (fun i => s.inWindow t (leAt a (0xA0 + 8 * i) 8)) }
                    ((idx.zip (o.group.zip cs)).map (fun x =>
                      (x.2.1, ⟨tag, t, 0, x.1, x.2.2.image, x.2.2.g, 0, dirSteps (imgDir x.2.2.image x.2.2.g), false, false, 0⟩)))))

/-! ### COPY within the module, FILL -/

/-- Copies one row; a poisoned source word is written poisoned at its destination, and the rest is copied (R285). -/
def State.copyRow (s : State) (w : Who) (src dst n : Nat) : State × Option (Nat × Nat × Bool) × Bool :=
  match s.readDva w src n with
  | .bad d e => (s, some (d, e, false), false)
  | .ok bs po =>
    match s.writeFault w 0 (cuts dst n) with
    | some (d, e) => (s, some (d, e, true), false)
    | none =>
      let s1 := s.writeDva w dst bs
      if po then
        ((List.range n).foldl (fun (a : State) i =>
          match s.readDva w ((src + i) / 8 * 8) 1 with
          | .ok _ true => a.poisonDva w (dst + i)
          | _ => a) s1, none, true)
      else (s1, none, false)

/-- Copies rows until one faults: the state, the fault with its direction, and whether poison was met. -/
def State.copyRows (s : State) (w : Who) (src dst n ss ds : Nat) : Nat → State × Option (Nat × Nat × Bool) × Bool
  | 0 => (s, none, false)
  | r + 1 =>
    match s.copyRow w src dst n with
    | (s1, some f, p) => (s1, some f, p)
    | (s1, none, p) =>
      let x := s1.copyRows w (src + ss) (dst + ds) n ss ds r
      (x.1, x.2.1, p || x.2.2)

/-- Rules of the COPY argument block (R122), by the offset of the first that is broken. -/
def copyArgFault (a : List Byte) : Option Nat :=
  match firstBad [(0x10, 1 ≤ leAt a 0x10 4 && leAt a 0x10 4 ≤ 2 ^ 31), (0x14, 1 ≤ leAt a 0x14 4 && leAt a 0x14 4 ≤ 2 ^ 24)] with
  | some o => some o
  | none => rsvByte a [(0x28, 24)]

/-- A COPY between addresses of the module and host memory. -/
def State.copyLocal (s : State) (tag : Nat) (o : Op) (a : List Byte) : State :=
  let w := o.who tag
  let s0 := (s.useWindow tag (leAt a 0 8)).useWindow tag (leAt a 8 8)
  match s0.copyRows w (leAt a 0 8) (leAt a 8 8) (leAt a 0x10 4) (leAt a 0x18 8) (leAt a 0x20 8) (leAt a 0x14 4) with
  | (s1, some (d, e, wr), _) => s1.opFault tag o d e wr (if wr then 8 else 0)
  | (s1, none, p) => s1.opEnd tag (if p then scPOISON else scOK) 0 0

/-- Writes one row of a FILL. -/
def State.fillRows (s : State) (w : Who) (pat : List Byte) (dst n ds k : Nat) : Nat → State × Option (Nat × Nat)
  | 0 => (s, none)
  | r + 1 =>
    match s.writeFault w 0 (cuts dst n) with
    | some f => (s, some f)
    | none =>
      (s.writeDva w dst ((List.range n).map (fun i => pat.getD ((k + i) % 8) 0))).fillRows w pat (dst + ds) n ds (k + n) r

/-- The effect of an issued FILL (R122): the pattern is repeated from DST. -/
def State.fillStart (s : State) (tag : Nat) (o : Op) : State :=
  s.withArg tag o 64 (fun a =>
    let n := leAt a 0x10 4
    match firstBad [(0x10, 8 ≤ n && n ≤ 2 ^ 31 && n % 8 == 0), (0x14, 1 ≤ leAt a 0x14 4 && leAt a 0x14 4 ≤ 2 ^ 24)] with
    | some d => s.opEnd tag scARG d 0
    | none =>
      match rsvByte a [(0x18, 8), (0x28, 24)] with
      | some d => s.opEnd tag scARG d 0
      | none =>
        match (s.useWindow tag (leAt a 0 8)).fillRows (o.who tag) (sub a 8 8) (leAt a 0 8) n (leAt a 0x20 8) 0 (leAt a 0x14 4) with
        | (s1, some (d, e)) => s1.opFault tag o d e true 0
        | (s1, none) => s1.opEnd tag scOK 0 0)

/-- FILL (R122). -/
def execOpFill (tag : Fin 8192) (now : DWord) (s : State) : Host.Outcome State Fault Refusal :=
  .next (s.issue tag.val 3 now.toNat (fun a o => a.fillStart tag.val o))

/-! ### SIGNAL and WAIT -/

/-- The VALID entries of a SIGNAL or WAIT argument block: counter and value. -/
def entriesOf (a : List Byte) : List (Nat × Nat) :=
  ((List.range 8).filter (fun i => cfValid (leAt a (16 * i) 4))).map (fun i => (cfCounter (leAt a (16 * i) 4), leAt a (16 * i + 8) 8))

/-- The first entry of a SIGNAL or WAIT block that breaks a rule (R122). -/
def State.entryFault (s : State) (t : Nat) (a : List Byte) : Option Nat :=
  firstBad ((List.range 8).map (fun i =>
    let f := leAt a (16 * i) 4
    (16 * i, cfClean f && leAt a (16 * i + 4) 4 == 0 && (!cfValid f || (s.relCounter t (cfCounter f)).isSome))))

/-- The effect of an issued SIGNAL: its adds are made together when it completes. -/
def State.signalStart (s : State) (tag : Nat) (o : Op) : State :=
  if o.d.arg = 0 then s.opEnd tag scOK 0 0
  else s.withArg tag o 128 (fun a =>
    match s.entryFault o.tenant a with
    | some d => s.opEnd tag scARG d 0
    | none => (s.setOp tag { o with further := entriesOf a }).opEnd tag scOK 0 0)

/-- SIGNAL (R122). -/
def execOpSignal (tag : Fin 8192) (now : DWord) (s : State) : Host.Outcome State Fault Refusal :=
  .next (s.issue tag.val 0xA now.toNat (fun a o => a.signalStart tag.val o))

/-- Watches a WAIT's further waits two at a time (R125): the next pair is loaded once the last is met, and with none left the WAIT ends. One on a
poisoned counter ends it with POISON_CONSUMED. -/
def State.waitGo (s : State) (tag : Nat) : Nat → State
  | 0 => s
  | n + 1 =>
    match s.op tag with
    | none => s
    | some o =>
      if o.slots.any (fun x => s.counterPoisoned x.1) then (s.slotsMet tag).opEnd tag scPOISON 0 0
      else if o.slots.any (fun x => decide (s.counter x.1 < x.2)) then s.letSlots tag
      else if o.further.isEmpty then (s.slotsMet tag).opEnd tag scOK 0 0
      else
        let pair := (o.further.take 2).map (fun x => ((s.relCounter o.tenant x.1).getD 0, x.2))
        (((s.slotsMet tag).setOp tag { o with slots := pair, further := o.further.drop 2 }).takeSlots pair.length).waitGo tag n

/-- The effect of an issued WAIT (R122): its further waits are read once both descriptor waits are met. -/
def State.waitStart (s : State) (tag : Nat) (o : Op) : State :=
  if o.d.arg = 0 then s.opEnd tag scOK 0 0
  else s.withArg tag o 128 (fun a =>
    match s.entryFault o.tenant a with
    | some d => s.opEnd tag scARG d 0
    | none => (s.setOp tag { o with further := entriesOf a, parts := 1 }).waitGo tag 5)

/-- WAIT (R122): issues it, or, once issued, watches its further waits. -/
def execOpWait (tag : Fin 8192) (now : DWord) (s : State) : Host.Outcome State Fault Refusal :=
  .next (match s.op tag.val with
    | some o => if o.phase = .issued ∧ o.d.opcode = 0xB ∧ !o.abandoned then (s.at now.toNat).waitGo tag.val 5
                else s.issue tag.val 0xB now.toNat (fun a o => a.waitStart tag.val o)
    | none => s)

/-! ### CARTOON_LOAD -/

/-- Rules of the CARTOON_LOAD argument block (R122). -/
def loadArgFault (a : List Byte) : Option Nat :=
  match firstBad [(0, leAt a 0 8 % 64 == 0), (0xC, leAt a 0xC 4 < 65536), (0x10, leAt a 0x10 4 < 2), (0x14, leAt a 0x14 4 % 256 == 0),
      (0x18, leAt a 0x18 4 % 64 == 0), (0x1C, leAt a 0x1C 4 < 4096)] with
  | some o => some o
  | none => rsvByte a [(0x20, 32), (0x70, 16)]

/-- The first placement field that runs past its store (R122) or meets another cartoon of the tenant on the panel (R107). A placement that meets
another ends ARG_INVALID with DETAIL 0x14, whichever of the stores they meet in (DESIGN CHOICE, log entry 34). -/
def State.placeFault (s : State) (p t id : Nat) (c : Cart) : Option Nat :=
  let other := s.pan.carts.any (fun e => decide (e.1 / 65536 = p * 64 + t ∧ e.1 % 65536 ≠ id) && c.meets e.2)
  firstBad [(0x14, c.instrEnd ≤ 32768 && !other), (0x18, c.schedEnd ≤ 262144), (0x1C, c.stepEnd ≤ 4096)]

/-- A field of an operation's argument block as it stands in memory now. -/
def State.argNow (s : State) (tag : Nat) (o : Op) (off n : Nat) : Nat :=
  match s.readDva (o.who tag) (o.d.arg + off) n with | .ok b _ => leNat b | .bad _ _ => 0

/-- Is there an operation of the tenant accepted before `o` and not ended, of an opcode, on a panel of its group, whose block names a CARTOON_ID at an
offset? -/
def State.ahead (s : State) (o : Op) (opc off id : Nat) : Bool :=
  s.ops.ops.any (fun e => e.2.d.opcode == opc && e.2.tenant == o.tenant && decide (e.2.order < o.order) && !e.2.abandoned &&
    (e.2.phase == .waiting || e.2.phase == .issued) && e.2.group.any (fun p => o.group.contains p) && s.argNow e.1 e.2 off 2 == id)

/-- Does an operation hold the cartoon that a CARTOON_LOAD replaces (R109): one whose steps are queued with it, or a RUN of it accepted before the load? -/
def State.cartHeld (s : State) (o : Op) (id : Nat) : Bool :=
  o.group.any (fun p => (s.panel p).work.any (fun w => w.tenant == o.tenant && (s.cart p o.tenant id).any (fun c => c.image == w.image))) ||
  (o.group.any (fun p => (s.cart p o.tenant id).isSome) && s.ahead o 1 0 id)

/-- A RUN waits for a CARTOON_LOAD of its CARTOON_ID that was accepted before it (R109). -/
def State.runHeld (s : State) (tag : Nat) : Bool := (s.op tag).any (fun o => s.ahead o 0xF 0xC (s.argNow tag o 0 2))

/-- Places a cartoon on one panel. -/
def State.placeCart (s : State) (p t id : Nat) (c : Cart) : State :=
  (c.pieces.foldl (fun (a : State) x => a.storeWrite p t x.1 x.2) s).setCarts (smPut s.pan.carts (cartKey p t id) c)

/-- Zeroes a placement and leaves its CARTOON_ID free (R107 step 4). -/
def State.unplaceCart (s : State) (p t id : Nat) (c : Cart) : State :=
  (c.pieces.foldl (fun (a : State) x => a.storeWrite p t x.1 (x.2.map (fun _ => 0))) s).setCarts (smDel s.pan.carts (cartKey p t id))

/-- The effect of an issued CARTOON_LOAD (R107): check, copy, digest of the copy, residence. -/
def State.loadStart (s : State) (tag : Nat) (o : Op) : State :=
  s.withArg tag o 128 (fun a =>
    let t := o.tenant
    let len := leAt a 8 4
    let id := leAt a 0xC 4
    match loadArgFault a with
    | some d => s.opEnd tag scARG d 0
    | none =>
        match s.readDva (o.who tag) (leAt a 0 8) len with
        | .bad d e => s.opFault tag o d e false 0
        | .ok img po =>
          if po then s.opEnd tag scPOISON 0 0
          else match imageFault img len o.group.length with
            | some d => s.opEnd tag scIMAGE d 0
            | none =>
              let cs := (List.range o.group.length).zip o.group |>.map (fun x =>
                (x.2, (⟨x.1, img, leAt a 0x14 4, leAt a 0x18 4, leAt a 0x1C 4, false⟩ : Cart)))
              match cs.findSome? (fun x => s.placeFault x.1 t id x.2) with
              | some d => s.opEnd tag scARG d 0
              | none =>
                let dig := Config.sha384 (img.take (len - 64))
                let ok0 := decide (sub img (len - 64) 48 = sub dig 0 48)
                let ok1 := leAt a 0x10 4 % 2 == 0 || decide (sub a 0x40 48 = sub dig 0 48)
                if ok0 && ok1 then (cs.foldl (fun (b : State) x => b.placeCart x.1 t id x.2) s).opEnd tag scOK 0 0
                else (cs.foldl (fun (b : State) x => b.unplaceCart x.1 t id x.2) s).opEnd tag scDIGEST (if ok0 then 1 else 0) 0)

/-- CARTOON_LOAD (R107): it waits while an operation holds the cartoon that it replaces (R109). -/
def execCartoonLoad (tag : Fin 8192) (now : DWord) (s : State) : Host.Outcome State Fault Refusal :=
  .next (match s.op tag.val with
    | none => s
    | some o =>
      if s.cartHeld o (s.argNow tag.val o 0xC 4) then s
      else s.issue tag.val 0xF now.toNat (fun a q => a.loadStart tag.val q))

/-! ### Ends -/

/-- COMPLETION_POST (R324, R325): the record at the head of a queue is written, when there is room. -/
def execCompletionPost (t : Fin 33) (q : Fin 64) (s : State) : Host.Outcome State Fault Refusal :=
  .next (if (s.cq t.val q.val).failed then s else s.postHead t.val q.val)

/-- Withdraws the grants and ends the parts that have not begun, of an operation abandoned or disabled, on every panel (R86, R127). -/
def State.dropParts (s : State) (tag : Nat) : State :=
  match s.op tag with
  | none => s
  | some o =>
    let s1 := o.group.foldl (fun (a : State) p => a.dropPorts p tag) s
    s1.endOnPanels tag

/-! ### Sync counter commands -/

/-- The counter selected in the owner's SYN page, or in a tenant's view where it lies in the allocation. -/
def State.selCounter (s : State) (page : Nat) : Option Nat :=
  match tenantOfPage page with
  | some (t, _) => s.relCounter t (s.fld page f_SYN_T_SEL_COUNTER)
  | none => some (s.fld pgSYN f_SYN_SEL_COUNTER)

/-- The half held for the next add: 0 names the owner's page, t + 1 tenant t's view. -/
def addKey (page : Nat) : Nat := match tenantOfPage page with | some (t, _) => t + 1 | none => 0

/-- A write of an ADD_LO register: the value is held until the next add or the next write of the selector. -/
def State.addLoWrite (s : State) (page : Nat) (v : Word) : State :=
  { s with ops := { s.ops with addLo := smSet 0 s.ops.addLo (addKey page) v.toNat } }

/-- A write of an ADD_HI register performs the add with the low half held, which returns to 0. -/
def State.addHiWrite (s : State) (page : Nat) (v : Word) : State :=
  let n := smGet 0 s.ops.addLo (addKey page) + 2 ^ 32 * v.toNat
  let s1 := { s with ops := { s.ops with addLo := smSet 0 s.ops.addLo (addKey page) 0 } }
  match s1.selCounter page with
  | some c => if s1.synTakes c then s1.synAdd c n else s1.discard page
  | none => s1.discard page

/-- SYN_ADD (R130): the add of a 64-bit value to the counter selected in the SYN page. -/
def execSynAdd (hi : Word) (s : State) : Host.Outcome State Fault Refusal := .next (s.via 0 (fun a => a.addHiWrite pgSYN hi))

/-- SYN_T_ADD (R130): the same through a tenant's view. -/
def execSynTAdd (t : Fin 33) (hi : Word) (s : State) : Host.Outcome State Fault Refusal := .next (s.via t.val (fun a => a.addHiWrite (tenantPage t.val 5) hi))

/-- Reading a VALUE_LO register: the low word, with the high word latched (R130). -/
def State.synRead (s : State) (page : Nat) : State :=
  let v := match s.selCounter page with | some c => s.counter c | none => 0
  let hi := if (tenantOfPage page).isSome then r_SYN_T_VALUE_HI else r_SYN_VALUE_HI
  (s.setWord page hi (BitVec.ofNat 32 (v / 2 ^ 32))).answer (v % 2 ^ 32)

/-- SYN_VALUE_READ (R130): `t` is none for the owner's page. -/
def execSynValueRead (t : Option (Fin 33)) (s : State) : Host.Outcome State Fault Refusal :=
  .next (match t with
    | some x => s.via x.val (fun a => a.synRead (tenantPage x.val 5))
    | none => s.via 0 (fun a => a.synRead pgSYN))

end Sys2Proof.Machine
end

