-- ==== Sys2Proof/Machine/Vote.lean ====
section
/-! DEFINITION. RUN and the ends of operations, with the Triptych channels of a RESULT RUN (R172 to R180) and the acceptance of cadence rings (R157). -/

namespace Sys2Proof.Machine

open Sys2Proof

/-! ### What an operation of a cadence ring is: `aux` holds its instance, template, whether it is the RESULT RUN, whether its result
has been decided, and the channels dispatched (as a mask) -/

def Op.auxAt (o : Op) (i : Nat) : Nat := o.aux.getD i 0
def Op.instance' (o : Op) : Nat := o.auxAt 0
def Op.isResult (o : Op) : Bool := o.cad && o.auxAt 2 == 1
def Op.decided (o : Op) : Bool := o.auxAt 3 == 1
def Op.channels (o : Op) : Nat := o.auxAt 4
def State.triptych (s : State) (d : Nat) : Bool := s.ctlOf d f_CAD_DOM_CTRL_TRIPTYCH == 1
/-- Is it a RESULT RUN that has been dispatched on channels? -/
def Op.onChannels (o : Op) : Bool := o.isResult && o.channels != 0

/-- The key under which the part on channel c is kept in the table of operations; its low 13 bits are the tag. -/
def partTag (tag c : Nat) : Nat := tag + 8192 * (c + 1)

/-- Channels of a mask. -/
def chans (m : Nat) : List Nat := (List.range 3).filter (fun c => m / 2 ^ c % 2 == 1)
def maskOf (l : List Nat) : Nat := (List.range 3).foldl (fun m c => if l.contains c then m + 2 ^ c else m) 0

/-- State of a channel: 0 IN, 1 RECOVERING, 2 OUT. -/
def State.chState (s : State) (d c : Nat) : Nat := s.fld pgVAR0 (f_VAR_TRI_CHSTATE_CH d) / 4 ^ c % 4
def State.setChState (s : State) (d c v : Nat) : State :=
  let m := s.fld pgVAR0 (f_VAR_TRI_CHSTATE_CH d)
  s.setFld pgVAR0 (f_VAR_TRI_CHSTATE_CH d) (m - m / 4 ^ c % 4 * 4 ^ c + v * 4 ^ c)

/-- The panels of a channel (R172). -/
def State.chanPanels (s : State) (d : Nat) (o : Op) (c : Nat) : List Nat :=
  let n := pgCount o.d.panels
  let first := if c = 0 then pgFirst o.d.panels else s.fld pgVAR0 (if c = 1 then f_VAR_TRI_CHAN_FIRST1 d else f_VAR_TRI_CHAN_FIRST2 d)
  (List.range n).map (fun i => first + i)

/-- Does a cartoon break the rules of a Triptych RESULT cartoon (R173)? -/
def triCartBad (c : Cart) : Bool :=
  (bindsOf c.image c.g).any (fun i => bindOut (imgBinding c.image i) && bindPeer (imgBinding c.image i) == 0) ||
  (List.range (dirSteps (imgDir c.image c.g))).any (fun k => slotEn (stepSignal (imgStep c.image c.g k)))

/-- Two channels OUT: the domain latches CHANNELS_LOST and enters FAULT (R179). -/
def State.outCheck (s : State) (d : Nat) : State :=
  if 2 ≤ ((chans 7).filter (fun c => s.chState d c == 2)).length ∧ s.st (pgCAD d) ≠ stFAULT then
    (s.report pgVAR0 4 d 0 false).domFault d else s

/-- The first panel of a Triptych domain's channel and the panels of each, by the RESULT template's group (R172). -/
def State.channelSpan (s : State) (d c : Nat) : Nat × Nat :=
  match s.resultTpl d with
  | none => (0, 0)
  | some t =>
    let f := leAt (s.tplBytes d t) 52 4
    (if c = 0 then pgFirst f else s.fld pgVAR0 (if c = 1 then f_VAR_TRI_CHAN_FIRST1 d else f_VAR_TRI_CHAN_FIRST2 d), pgCount f)
def State.channelHas (s : State) (d c p : Nat) : Bool :=
  decide ((s.channelSpan d c).1 ≤ p) && decide (p < (s.channelSpan d c).1 + (s.channelSpan d c).2)

/-- A channel with a lost panel is OUT (R179). -/
def State.lostChannels (s : State) (d : Nat) : State :=
  if !s.triptych d ∨ !(s.running (pgCAD d) || s.st (pgCAD d) == stQUIESCING) then s
  else ((chans 7).foldl (fun (a : State) c =>
    if a.chState d c = 2 ∨ !(List.range 128).any (fun p => (a.panel p).lost && a.channelHas d c p) then a
    else
      let x := a.dom d
      ((a.setDom d { x with recov := smDel x.recov c }).setChState d c 2).event pgVAR0 ev_var0_CHANNEL_OUT) s).outCheck d

/-- A RESULT RUN dispatched on no channel: no record, so VOTE_SHORT with every channel OUT, and the domain enters FAULT (R176, R177). -/
def State.voteNone (s : State) (tag : Nat) (o : Op) : State :=
  let d := o.ring
  let s1 := ((s.event pgVAR0 ev_var0_VOTE_MINORITY).countUp pgVAR0 (r_VAR_TRI_CNT_MINORITY d) 1).event pgVAR0 ev_var0_NO_MAJORITY
  (s1.opEnd tag 0x41 (4096 * 7 + 2 ^ 15 * s.fld pgVAR0 f_VAR_VOTER_ACTIVE) 128).domFault d

/-- Dispatches a RESULT RUN on the channels that are IN (R173). -/
def State.triStart (s : State) (tag : Nat) (o : Op) : State :=
  let d := o.ring
  s.withArg tag o 320 (fun a =>
    match s.runArgFault o.tenant a with
    | some x => s.opEnd tag scARG x 0
    | none =>
      let cs := (chans 7).filter (fun c => s.chState d c == 0)
      let carts := (cs.flatMap (fun c => s.chanPanels d o c)).filterMap (fun p => s.cart p o.tenant (leAt a 0 2))
      if carts.any triCartBad then s.opEnd tag scARG 0 0
      else if cs = [] then s.voteNone tag o
      else
        let s1 := s.setOp tag { o with parts := cs.length, args := a, aux := o.aux.take 3 ++ [0, maskOf cs] }
        cs.foldl (fun (b : State) c =>
          let q := { o with group := s.chanPanels d o c, args := a, aux := [] }
          (b.setOp (partTag tag c) q).runStart (partTag tag c) q) s1)

/-- RUN (R121), the RESULT RUN of a Triptych domain on its channels. -/
def execOpRun (tag : Fin 8192) (now : DWord) (s : State) : Host.Outcome State Fault Refusal :=
  .next (if s.runHeld tag.val then s else s.issue tag.val 1 now.toNat (fun a o =>
    if o.isResult && a.triptych o.ring then (a.lostChannels o.ring).triStart tag.val o else a.runStart tag.val o))

/-! ### The vote -/

/-- Has the part on a channel ended? -/
def State.partEnded (s : State) (tag c : Nat) : Bool := (s.op (partTag tag c)).any (fun q => q.phase == .ended)

/-- The record of a channel, none where it holds a poisoned word (R175). -/
def State.record (s : State) (d : Nat) (panel : Nat) : Option (List Byte) :=
  let a := s.fld (pgCAD d) f_CAD_DOM_RECORD_ADDR * 64
  let n := s.fld (pgCAD d) f_CAD_DOM_RECORD_BYTES * 64
  if anyPoison s.mem.palPoison (panel * 0x800000 + a) n then none else some (s.palRead panel a n)

/-- The channels whose records form the majority among OK records (R176). -/
def majority (l : List (Nat × Option (List Byte))) : List Nat :=
  let eq := fun (x y : Nat × Option (List Byte)) => x.1 == y.1 || (x.2.isSome && x.2 == y.2)
  match l.find? (fun x => 2 ≤ (l.filter (fun y => eq x y)).length) with
  | some x => (l.filter (fun y => eq x y)).map (fun y => y.1)
  | none => []

/-- Fences one channel after a decision (R178, R179). -/
def State.fenceChannel (s : State) (d c src : Nat) (lost : Bool) : State :=
  if s.chState d c ≠ 0 then s
  else
    let n := s.fld pgVAR0 (f_VAR_TRI_CHSTATE_RECOVERIES d) + 1
    let s1 := s.setFld pgVAR0 (f_VAR_TRI_CHSTATE_RECOVERIES d) (min n 255)
    if s.fld pgVAR0 (f_VAR_TRI_TIMING_RECOVER_LIMIT d) < n ∨ lost then (s1.setChState d c 2).event pgVAR0 ev_var0_CHANNEL_OUT
    else
      let x := s1.dom d
      ((s1.setDom d { x with recov := smPut x.recov c src }).setChState d c 1).event pgVAR0 ev_var0_CHANNEL_FENCED

/-- Writes the majority record to the owner's array (R177). -/
def State.votedWrite (s : State) (d n : Nat) (r : List Byte) : State :=
  let va := (s.word pgVAR0 (r_VAR_TRI_VOTED_LO d)).toNat + 2 ^ 32 * s.fld pgVAR0 (f_VAR_TRI_VOTED_HI_VA d)
  if va = 0 then s
  else
    let a := va + n % 16 * r.length
    let w := bareWho (s.domOwner d)
    match s.writeFault w 0 (cuts a r.length) with
    | some (x, e) => (s.mmuFault w x e true).event pgVAR0 ev_var0_VOTED_DROPPED
    | none => s.writeDva w a r

/-- Decides the vote of a RESULT RUN; `broken` is a decision the voters disagree on, which gives no result (R180). -/
def State.decideVote (s : State) (tag : Nat) (o : Op) (broken : Bool) : State :=
  let d := o.ring
  let n := o.instance'
  let dis := chans o.channels
  let late := dis.filter (fun c => (s.op (partTag tag c)).any (fun q => q.abandoned && q.phase != .ended))
  let st := fun (c : Nat) => ((s.op (partTag tag c)).map (fun q => q.status)).getD 0
  let faulted := dis.filter (fun c => !late.contains c && st c != 0)
  let ok := dis.filter (fun c => !late.contains c && st c == 0)
  let g := s.fld pgVAR0 (f_VAR_TRI_STATE_RECORD_G d)
  let recs := ok.map (fun c => (c, s.record d ((s.chanPanels d o c).getD g 0)))
  let maj := if broken then [] else majority recs
  let dissent := ok.filter (fun c => !maj.contains c)
  let status := if maj ≠ [] then scOK else if broken then [scOK, 0x40, 0x41].getD (s.freeBelow 3) 0 else if 2 ≤ ok.length then 0x40 else 0x41
  let detail := maskOf maj + 8 * maskOf faulted + 64 * maskOf late + 512 * maskOf dissent + 4096 * (7 - o.channels) +
    2 ^ 15 * s.fld pgVAR0 f_VAR_VOTER_ACTIVE + 2 ^ 16 * (faulted.head?.map st).getD 0
  let ovf := maj.any (fun c => (s.op (partTag tag c)).any (fun q => bits q.flags 3 3 == 1))
  let flags := o.flags ||| (if maskOf maj = 7 then 0 else 128) ||| (if ovf then 8 else 0)
  let s0 := if broken then s.used else s
  let s1 := if maskOf maj = 7 then s0 else (s0.event pgVAR0 ev_var0_VOTE_MINORITY).countUp pgVAR0 (r_VAR_TRI_CNT_MINORITY d) 1
  let s2 := if maj = [] then s1.event pgVAR0 ev_var0_NO_MAJORITY else s1
  let r := (recs.find? (fun x => maj.contains x.1)).bind (fun x => x.2)
  let (s3, lateRes) := match r, maj.head? with
    | some b, some c => s2.available d n (leAt b 0 2) c
    | _, _ => (s2, false)
  let s4 := match r with | some b => s3.votedWrite d n b | none => s3
  let s5 := s4.setOp tag { o with status := status, detail := detail, flags := flags ||| (if lateRes then 64 else 0),
                                  aux := o.aux.take 3 ++ [1, o.channels] }
  let src := match maj.head? with
    | some c => c
    | none => (ok.find? (fun c => s.chState d c == 0)).getD 0
  let s6 := (faulted ++ late ++ dissent).foldl (fun (a : State) c =>
    a.fenceChannel d c src ((s.chanPanels d o c).any (fun p => (a.panel p).lost))) s5
  let s7 := s6.outCheck d
  if maj = [] ∧ !broken then
    (if status = 0x40 then (s7.report pgVAR0 3 d 0 false).domFault d else if ok = [] then s7.domFault d else s7)
  else s7

/-- The single record of a domain that is not Triptych becomes available (R163). -/
def State.readRecord (s : State) (tag : Nat) (o : Op) : State :=
  let d := o.ring
  let a := s.fld (pgCAD d) f_CAD_DOM_RECORD_ADDR * 64
  let (s1, late) := s.available d o.instance' (leNat (s.palRead (s.fld (pgCAD d) f_CAD_DOM_RECORD_PANEL) a 2)) 0
  s1.setOp tag { o with aux := o.aux.take 3 ++ [1, 0], flags := o.flags ||| (if late then 64 else 0) }

/-- VOTE_DECISION: every part has ended, or the single RUN has ended OK. -/
def execVoteDecision (tag : Fin 8192) (now : DWord) (s : State) : Host.Outcome State Fault Refusal :=
  .next (match s.op tag.val with
    | some o =>
      if !o.isResult ∨ o.decided ∨ o.abandoned then s
      else if o.onChannels then
        (if (chans o.channels).all (fun c => s.partEnded tag.val c) then (s.at now.toNat).decideVote tag.val o false else s)
      else if o.phase = .ended ∧ o.status = 0 then (s.at now.toNat).readRecord tag.val o else s
    | none => s)

/-- The channels of a RESULT RUN whose part still runs. -/
def State.partsLeft (s : State) (tag : Nat) (o : Op) : List Nat := (chans o.channels).filter (fun c => !s.partEnded tag c)

/-- Does the skew timer apply: three parts, of which one still runs (R174, R178)? -/
def State.skewed (s : State) (tag : Nat) (o : Op) : Bool := o.channels == 7 && (s.partsLeft tag o).length == 1

/-- The decision at the skew timer: the part that still runs is LATE and is abandoned. -/
def State.decideSkew (s : State) (tag : Nat) (o : Op) (broken : Bool) : State :=
  let run := s.partsLeft tag o
  let s1 := run.foldl (fun (a : State) c =>
    match a.op (partTag tag c) with
    | some q => (a.setOp (partTag tag c) { q with abandoned := true }).dropParts (partTag tag c)
    | none => a) s
  -- the part stays LATE although dropping its parts may have ended it
  let s2 := run.foldl (fun (a : State) c =>
    match a.op (partTag tag c) with
    | some q => a.setOp (partTag tag c) { q with phase := .issued }
    | none => a) s1
  let s3 := s2.decideVote tag o broken
  run.foldl (fun (a : State) c =>
    match a.op (partTag tag c) with
    | some q => if (s1.op (partTag tag c)).any (fun x => x.phase == .ended) then a.setOp (partTag tag c) { q with phase := .ended } else a
    | none => a) s3

/-- SKEW_TIMEOUT: the third part is late and is abandoned, and the vote is decided. -/
def execSkewTimeout (tag : Fin 8192) (now : DWord) (s : State) : Host.Outcome State Fault Refusal :=
  .next (match s.op tag.val with
    | some o => if !o.onChannels ∨ o.decided ∨ o.abandoned ∨ !s.skewed tag.val o then s else (s.at now.toNat).decideSkew tag.val o false
    | none => s)

/-- Can a palette move begin on a panel's canvas: fewer run than CNV_MOVES.LIMIT (R98)? -/
def State.moveFree (s : State) (p : Nat) : Bool := decide ((s.canvas (p / 32)).moves < s.fld (cnvPage (p / 32)) f_CNV_MOVES_LIMIT)

/-- CHANNEL_RECOVERY: the state region is copied from the idle source, each copy a palette move (R98, R178), and the channel is readmitted. -/
def execChannelRecovery (d : Fin 16) (c : Fin 3) (s : State) : Host.Outcome State Fault Refusal :=
  let x := s.dom d.val
  .next (match smFind x.recov c.val, s.resultTpl d.val with
    | some src, some t =>
      let first := fun (k : Nat) => (s.channelSpan d.val k).1
      let n := pgCount (leAt (s.tplBytes d.val t) 52 4)
      let busy := fun (k : Nat) => s.ops.ops.any (fun e => decide (8192 ≤ e.1) && decide (e.1 / 8192 = k + 1) && e.2.ring == d.val && e.2.phase != .ended)
      let moving := (List.range n).any (fun g => (s.panel (first c.val + g)).substing || (s.panel (first c.val + g)).lost) ||
        !s.moveFree (first c.val) || !s.moveFree (first src)
      if busy src ∨ busy c.val ∨ moving ∨ s.chState d.val c.val ≠ 1 then s
      else
        let b := s.fld pgVAR0 (f_VAR_TRI_STATE_BASE d.val) * 4096
        let z := s.fld pgVAR0 (f_VAR_TRI_STATE_SIZE d.val) * 4096
        let s1 := (List.range n).foldl (fun (a : State) g =>
          let o := (first src + g) * 0x800000 + b
          let poison := (wordsOf o z).filter (fun w => smGet false a.mem.palPoison w)
          let a1 := a.palWrite (first c.val + g) b (a.palRead (first src + g) b z)
          poison.foldl (fun (q : State) w => q.palPoison (first c.val + g) (w * 8 - (first src + g) * 0x800000)) a1) s
        let y := s1.dom d.val
        ((s1.setDom d.val { y with recov := smDel y.recov c.val }).setChState d.val c.val 0).event pgVAR0 ev_var0_CHANNEL_READMITTED
    | _, _ => s)

/-- RECOVERY_WINDOW_CLEAR (R179). -/
def execRecoveryWindowClear (d : Fin 16) (s : State) : Host.Outcome State Fault Refusal :=
  .next (s.setFld pgVAR0 (f_VAR_TRI_CHSTATE_RECOVERIES d.val) 0)

/-! ### The voters (R180) -/

def fVoter (v : Nat) : Fld := if v = 0 then f_VAR_VOTER_V0_STATE else f_VAR_VOTER_V1_STATE

/-- A voter becomes FAILED; the other, where it is READY, is the active one. With both FAILED every Triptych domain in service is lost. -/
def State.voterFail (s : State) (v : Nat) : State :=
  if s.fld pgVAR0 (fVoter v) = 1 then s
  else
    let s1 := s.setFld pgVAR0 (fVoter v) 1
    let s2 := s1.journal (s1.mkRec spUNIT 0 false pgVAR0 0 0 v 0 [1 + v])
    if s2.fld pgVAR0 (fVoter (1 - v)) = 1 then
      (List.range 16).foldl (fun (a : State) d =>
        if a.triptych d ∧ (a.st (pgCAD d) = stRUNNING ∨ a.st (pgCAD d) = stQUIESCING) then (a.report pgVAR0 4 d 0 false).domFault d else a) s2
    else if s2.fld pgVAR0 f_VAR_VOTER_ACTIVE = v then
      ((s2.setFld pgVAR0 f_VAR_VOTER_ACTIVE (1 - v)).countFld pgVAR0 f_VAR_VOTER_SWITCHES 1).event pgVAR0 ev_var0_VOTER_SWITCH
    else s2

/-- VOTER_CHECK: a voter fails its self-check. -/
def execVoterCheck (v : Fin 2) (s : State) : Host.Outcome State Fault Refusal :=
  .next (if s.fld pgVAR0 (fVoter v.val) = 1 then s else (s.voterFail v.val).report pgVAR0 1 v.val 0 false)

/-- A Triptych domain that enters RUNNING with both voters FAILED is lost at once (R180). -/
def State.votersGone (s : State) (d : Nat) : State :=
  if s.triptych d ∧ s.fld pgVAR0 (fVoter 0) = 1 ∧ s.fld pgVAR0 (fVoter 1) = 1 then (s.report pgVAR0 4 d 0 false).domFault d else s

/-- VOTER_MISMATCH: the decisions of two READY voters differ, when every part has ended or at the skew timer; the instance has no result, and a
voter that fails the built-in test becomes FAILED. -/
def execVoterMismatch (tag : Fin 8192) (fail0 fail1 : Bool) (s : State) : Host.Outcome State Fault Refusal :=
  .next (match s.op tag.val with
    | some o =>
      if !o.onChannels ∨ o.decided ∨ o.abandoned ∨ s.fld pgVAR0 (fVoter 0) = 1 ∨ s.fld pgVAR0 (fVoter 1) = 1 ∨
        !((s.partsLeft tag.val o).isEmpty || s.skewed tag.val o) then s
      else
        let s1 := (if s.skewed tag.val o then s.decideSkew tag.val o true else s.decideVote tag.val o true).report pgVAR0 2 0 0 false
        let s2 := if fail0 then s1.voterFail 0 else s1
        if fail1 then s2.voterFail 1 else s2
    | none => s)

/-! ### Ends of operations -/

/-- Removes the parts of a RESULT RUN. -/
def State.dropChannels (s : State) (tag : Nat) : State := (chans 7).foldl (fun (a : State) c => a.dropOp (partTag tag c)) s

/-- The RESULT RUN of an instance has ended, or will not run (R188, R189). -/
def State.instEnded (s : State) (o : Op) : State :=
  if o.isResult then s.setInst o.ring o.instance' { (s.dom o.ring).getInst o.instance' with ended := true } else s

/-- The end of an operation (R116): one whose last part has ended adds its SIGNAL, and its record is due. A RESULT RUN that ended OK
waits for its record to be read; one on channels waits for its decision and for every part (R177). -/
def State.opComplete (s : State) (tag now : Nat) : State :=
  match s.op tag with
  | some o =>
    if o.onChannels then
      (if o.phase = .issued ∧ (o.decided ∨ o.abandoned) ∧ (chans o.channels).all (fun c => s.partEnded tag c) then
        (((s.instEnded o).dropChannels tag |>.setOp tag { o with phase := .ended, parts := 0 }).at now).complete tag
      else s)
    else if o.phase = .ended ∧ !(o.isResult ∧ o.status = 0 ∧ !o.decided ∧ !o.abandoned) then ((s.instEnded o).at now).complete tag
    else s
  | none => s

/-- The expiry of an operation's TIMEOUT (R127): one that has not ended is abandoned, on every channel. -/
def State.opTimeout (s : State) (tag now : Nat) : State :=
  match s.op tag with
  | some o =>
    if (o.phase = .waiting ∨ o.phase = .issued) ∧ !o.abandoned ∧ o.timeout ≠ 0 ∧ !o.decided then
      let s1 := (chans o.channels).foldl (fun (a : State) c =>
        match a.op (partTag tag c) with
        | some q => (a.setOp (partTag tag c) { q with abandoned := true }).dropParts (partTag tag c)
        | none => a) (s.at now)
      let s2 := (s1.abandon tag).dropParts tag
      if o.d.opcode = 0xB then s2.opEnd tag scTIMEOUT 0 0 else s2
    else s
  | none => s

/-! ### Proactive panel retirement (R97) -/

/-- Does the Cadence Unit predict a SUBMIT of the domain within 100 µs? -/
def State.submitNear (s : State) (d : Nat) : Bool :=
  let x := s.dom d
  s.running (pgCAD d) && x.origin.isSome && x.coming.any (fun c => c.2.2.2.action == 2 &&
    (let dist := c.1 - s.predict d s.time
    decide (dist ≤ 0) || (decide (0 < x.v) && decide (dist * 65536 < x.v * 100000))))

/-- Has the domain's last RUN of the cycle completed: none is still to be submitted in the cycle, in the ring, or pending? -/
def State.cycleDone (s : State) (d : Nat) : Bool :=
  let x := s.dom d
  let isRun := fun (t : Nat) => leAt (s.tplBytes d t) 0 1 == 1
  let later := s.running (pgCAD d) && x.origin.isSome && x.coming.any (fun c =>
    c.2.2.2.action == 2 && isRun (c.2.2.2.d2 % 16) && decide (c.1 < (x.cycle + 1 : Nat) * 2 ^ 32))
  !later && !x.ring.any (fun r => isRun r.t) &&
  !s.ops.ops.any (fun e => e.2.cad && e.2.ring == d && e.2.d.opcode == 1 && e.2.phase != .ended)

/-- May a requested panel be retired at this moment: a RESERVED one waits for its domain's gap, and in a Triptych domain the panels of one channel are
retired per cadence cycle? -/
def State.retireMay (s : State) (p : Nat) : Bool :=
  let d := s.panelDomain p
  let idle := (s.panel p).work.all (fun w => !w.running && w.step == 0 && !w.done)
  let chan := (List.range 3).find? (fun c => s.triptych d && s.channelHas d c p)
  (s.canvas (p / 32)).retire.contains p && idle && s.spareState (p / 32) == 0 &&
  (s.panelMode p != 2 || ((s.panel p).work.isEmpty && s.cycleDone d && !s.submitNear d &&
    (match chan, (s.dom d).retired with
     | some c, some r => r.1 != (s.dom d).cycle || r.2 == c
     | _, _ => true)))

/-- PROACTIVE_PANEL_RETIREMENT (R97): a requested panel at a step boundary with no operation started on it gives its place to the spare. -/
def execProactivePanelRetirement (p : Fin 128) (now : DWord) (s : State) : Host.Outcome State Fault Refusal :=
  let a := s.at now.toNat
  let d := a.panelDomain p.val
  .next (if a.retireMay p.val then
      match (List.range 3).find? (fun c => a.panelMode p.val == 2 && a.triptych d && a.channelHas d c p.val) with
      | some c => (a.setDom d { a.dom d with retired := some ((a.dom d).cycle, c) }).substPanel p.val true
      | none => a.substPanel p.val true
    else s)

/-! ### Acceptance of a cadence ring (R112, R157) -/

/-- A cadence ring's first descriptor is offered to acceptance. -/
def State.cadAccept (s : State) (d pick : Nat) : State :=
  let x := s.dom d
  let pg := pgCAD d
  match x.ring with
  | [] => s
  | r :: rest =>
    if !s.running pg then s
    else
      let s0 := if x.offered then s else (s.setDom d { x with offered := true }).move pg 0 .held .transit 1
      let t := s0.domOwner d
      let q := s0.fld pg f_CAD_DOM_CQ_QUEUE
      let ds := parseDesc r.bytes
      let taken := fun (a : State) => (a.setDom d { a.dom d with ring := rest, offered := false }).move pg 0 .transit .free 1
      match s0.descTests t ds true with
      | some (st, det) =>
        let s1 := (s0.countUp pgHIF0 r_HIF_CNT_REFUSED 1).countUp (tenantPage t 0) r_TNT_CNT_REFUSED 1
        let s2 := if s0.tplResult d r.t then s1.setInst d r.n { (s1.dom d).getInst r.n with ended := true } else s1
        taken (s2.recordMade t d q t ⟨s.time, s.time, ds.seq, 0, true, st, 0, d, ds.opcode, det, bits ds.flags 0 0 == 1⟩ false)
      | none =>
        match s0.pickTag (7936 + 16 * d) 16 pick with
        | none => s0
        | some tag =>
          let s1 := s0.takeOp tag t d true q ds (timeoutOf ds 0)
          let res := s0.tplResult d r.t
          taken (match s1.op tag with
            | some o => s1.setOp tag { o with aux := [r.n, r.t, if res then 1 else 0, 0, 0] }
            | none => s1)

end Sys2Proof.Machine
end

