-- ==== Sys2Proof/Machine/Glaze.lean ====
section
/-! DEFINITION. The Glaze Unit (10): geometries, page sets, page tables, prefix entries, GLAZE_APPEND with its layers, eviction, poisoned
sets, GLAZE_MOVE and expiry. -/

namespace Sys2Proof.Machine

open Sys2Proof

/-! ### Statuses (R200, R246) -/

def scSEQUNKNOWN : Nat := 0x40
def scSEQBUSY : Nat := 0x41
def scSEQLIMIT : Nat := 0x42
def scCONTEXT : Nat := 0x43
def scPLANUNKNOWN : Nat := 0x44
def scPLANINVALID : Nat := 0x45
def scPLANBUSY : Nat := 0x46
def scSEQEXPIRED : Nat := 0x47
def scNOCAND : Nat := 0x48
def scPAGES : Nat := 0x49
def scSTEPFAILED : Nat := 0x4A
def scMODE : Nat := 0x4B
def scKVNOTREADY : Nat := 0x50
def scGEOMETRY : Nat := 0x51
def scKVPOISONED : Nat := 0x52
def scGAP : Nat := 0x53
def scSHAREDWRITE : Nat := 0x54

/-! ### Sequences -/

def sqIDLE : Nat := 1
def sqGENERATING : Nat := 2
def sqPAUSING : Nat := 3
def sqPARKING : Nat := 4
def sqPARKED : Nat := 5
def sqEXPIRED : Nat := 6
def sqCLOSING : Nat := 7
def sqFAILED : Nat := 8

def State.seq (s : State) (slot : Nat) : Option Seq := smFind s.srv.seqs slot
def State.setSeq (s : State) (slot : Nat) (q : Seq) : State := { s with srv := { s.srv with seqs := smPut s.srv.seqs slot q } }
def State.seqGen (s : State) (slot : Nat) : Nat := smGet 0 s.srv.gens slot
def State.handleOf (s : State) (slot : Nat) : Nat := slot + 65536 * s.seqGen slot

/-- The sequence of a tenant that a handle names, with its slot (R195). -/
def State.named (s : State) (t handle : Nat) : Option (Nat × Seq) :=
  let slot := handle % 65536
  match s.seq slot with
  | some q => if q.tenant = t ∧ s.handleOf slot = handle then some (slot, q) else none
  | none => none

/-! ### Geometries (R227 to R229) -/

def State.geoValid (s : State) (g : Nat) : Bool := s.fld pgGLZ (f_GLZ_GEO_SHAPE_VALID g) == 1
def State.geoG8 (s : State) (g : Nat) : Bool := s.fld pgGLZ (f_GLZ_GEO_SHAPE_FORMAT g) == 1
def State.geoDim (s : State) (g : Nat) : Nat := 32 * s.fld pgGLZ (f_GLZ_GEO_SHAPE_DIM32 g)
def State.geoHeads (s : State) (g : Nat) : Nat := s.fld pgGLZ (f_GLZ_GEO_SHAPE_KV_HEADS g)
def State.geoLayers (s : State) (g : Nat) : Nat := s.fld pgGLZ (f_GLZ_GEO_SHAPE_LAYERS g)
def State.geoKeep (s : State) (g : Nat) : Nat := s.fld pgGLZ (f_GLZ_GEO_EVICT_KEEP g)

/-- PB. -/
def State.pageBytes (s : State) (g : Nat) : Nat := s.geoHeads g * (if s.geoG8 g then 64 else 34) * s.geoDim g + 64
/-- SET_BYTES. -/
def State.setBytes (s : State) (g : Nat) : Nat := s.geoLayers g * s.pageBytes g

/-- First ID, count and base address of a geometry's range in a tier. -/
def State.pool (s : State) (g : Nat) (loft : Bool) : Nat × Nat × Nat :=
  if loft then (s.fld pgGLZ (f_GLZ_GEO_LOFT_FIRST_FIRST g), s.fld pgGLZ (f_GLZ_GEO_LOFT_COUNT_COUNT g),
    loftBase + s.fld pgGLZ (f_GLZ_GEO_LOFT_BASE_BASE g) * 0x200000)
  else (s.fld pgGLZ (f_GLZ_GEO_HBM_FIRST_FIRST g), s.fld pgGLZ (f_GLZ_GEO_HBM_COUNT_COUNT g), s.fld pgGLZ (f_GLZ_GEO_HBM_BASE_BASE g) * 0x200000)

def tierKey (loft : Bool) (id : Nat) : Nat := (if loft then 0x1000000 else 0) + id
def keyLoft (k : Nat) : Bool := 0x1000000 ≤ k

/-- The geometry whose range holds a set. -/
def State.geoOfSet (s : State) (k : Nat) : Option Nat :=
  (List.range 8).find? (fun g =>
    let p := s.pool g (keyLoft k)
    s.geoValid g && p.1 ≤ k % 0x1000000 && k % 0x1000000 < p.1 + p.2.1)

/-- The address of a set. -/
def State.setAddr (s : State) (g k : Nat) : Nat :=
  let p := s.pool g (keyLoft k)
  p.2.2 + (k % 0x1000000 - p.1) * s.setBytes g

def Blk.key (b : Blk) : Nat := tierKey b.loft b.set
def Blk.live (b : Blk) : Bool := !b.evicted

/-- A sequence's length (R234): the least appended length over its geometry's layers. -/
def State.seqLen (s : State) (q : Seq) : Nat :=
  match q.geo with
  | none => 0
  | some g => ((List.range (s.geoLayers g)).map (fun l => smGet 0 q.lens l)).foldl min 0x200000

/-- The pending input. -/
def State.pendingOf (s : State) (q : Seq) : Option Nat :=
  match q.last with
  | some (tok, pos) => if s.seqLen q ≤ pos then some tok else none
  | none => none

/-- The position of the next token it produces. -/
def State.nextPos (s : State) (q : Seq) : Nat := s.seqLen q + (if (s.pendingOf q).isSome then 1 else 0)

/-! ### Page sets and their ledgers (R228, R247) -/

def State.pset (s : State) (k : Nat) : Option PSet := smFind s.srv.sets k
def State.setPset (s : State) (k : Nat) (x : PSet) : State := { s with srv := { s.srv with sets := smPut s.srv.sets k x } }
def tierLedger (k : Nat) : Nat := if keyLoft k then 1 else 0

/-- Sets of a tier charged to a tenant. -/
def State.charged (s : State) (t : Nat) (loft : Bool) : Nat :=
  (s.srv.sets.filter (fun e => keyLoft e.1 == loft && e.2.charged == some t)).length

/-- Sets of a geometry's range that are not allocated. -/
def State.freeSets (s : State) (g : Nat) (loft : Bool) : Nat :=
  let p := s.pool g loft
  p.2.1 - (s.srv.sets.filter (fun e => decide (tierKey loft p.1 ≤ e.1 ∧ e.1 < tierKey loft (p.1 + p.2.1)))).length

def State.setQuota (s : State) (t : Nat) (loft : Bool) : Nat :=
  s.fld pgGLZ (if loft then f_GLZ_QUOTA_LOFT_SETS t else f_GLZ_QUOTA_HBM_SETS t)

/-- May `n` more sets be allocated for a tenant? -/
def State.setsFit (s : State) (t g n : Nat) (loft : Bool) : Bool :=
  n ≤ s.freeSets g loft && s.charged t loft + n ≤ s.setQuota t loft

/-- Allocates a set of a range for a tenant and links it once. The spec does not say which free set it is. -/
def State.allocSet (s : State) (t g : Nat) (loft : Bool) : Option (Nat × State) :=
  let p := s.pool g loft
  if !s.setsFit t g 1 loft then none
  else
    let want := tierKey loft (p.1 + s.freeBelow (max 1 p.2.1))
    let k := if (s.pset want).isNone then some want else smFresh s.srv.sets (tierKey loft p.1) p.2.1
    match k with
    | none => none
    | some k =>
      let s1 := (s.used.setPset k ⟨some t, false, 1, false, [], []⟩).move pgGLZ (tierLedger k) .free .held 1
      some (k, if !loft ∧ p.2.1 ≤ 64 * s.freeSets g loft ∧ 64 * s1.freeSets g loft < p.2.1 then s1.event pgGLZ ev_glz_POOL_LOW else s1)

/-- Frees a set that nothing names; one that an ATTEND in flight reads is in transit until that ends (R242). -/
def State.settleSet (s : State) (k : Nat) (reclaimed : Bool) : State :=
  match s.pset k with
  | none => s
  | some x =>
    if x.refs ≠ 0 ∨ x.named then s
    else if x.readers ≠ [] then s.move pgGLZ (tierLedger k) .held .transit 1
    else
      let s1 := if reclaimed then s.reclaim pgGLZ (tierLedger k) .held 1 else s.move pgGLZ (tierLedger k) .held .free 1
      let s2 := { s1 with srv := { s1.srv with sets := smDel s1.srv.sets k } }
      if x.poisoned then s2.setWord pgGLZ r_GLZ_POISONED (s2.word pgGLZ r_GLZ_POISONED - 1) else s2

/-- Drops one link of a set. -/
def State.unlinkSet (s : State) (k : Nat) (reclaimed : Bool) : State :=
  match s.pset k with
  | none => s
  | some x => (s.setPset k { x with refs := x.refs - 1 }).settleSet k reclaimed

/-- An ATTEND no longer reads its sets: those that nothing else names go from transit to free. -/
def State.endReaders (s : State) (tag : Nat) : State :=
  (s.srv.sets.filter (fun e => e.2.readers.contains tag)).foldl (fun (a : State) e =>
    let y := { e.2 with readers := e.2.readers.filter (fun r => r != tag) }
    let a1 := a.setPset e.1 y
    if y.refs = 0 ∧ !y.named ∧ y.readers = [] then
      let a2 := { a1.move pgGLZ (tierLedger e.1) .transit .free 1 with srv := { a1.srv with sets := smDel a1.srv.sets e.1 } }
      if y.poisoned then a2.setWord pgGLZ r_GLZ_POISONED (a2.word pgGLZ r_GLZ_POISONED - 1) else a2
    else a1) s

/-! ### Prefix entries (R211 to R215) -/

/-- Removes a prefix entry and releases its set. -/
def State.dropPrefix (s : State) (k : Nat) (reclaimed : Bool) : State :=
  match smFind s.srv.prefixes k with
  | none => s
  | some e =>
    let s1 := { s with srv := { s.srv with prefixes := smDel s.srv.prefixes k } }
    let s2 := if reclaimed then s1.reclaim pgGLZ 3 .held 1 else s1.move pgGLZ 3 .held .free 1
    match s2.pset e.set with
    | some x => (s2.setPset e.set { x with named := false }).settleSet e.set reclaimed
    | none => s2

/-- Removes every prefix entry that a test picks. -/
def State.dropPrefixes (s : State) (p : PEnt → Bool) (reclaimed : Bool) : State :=
  (s.srv.prefixes.filter (fun e => p e.2)).foldl (fun (a : State) e => a.dropPrefix e.1 reclaimed) s

/-- A shared domain as reset leaves it. -/
def sdomReset : SDom := ⟨0, 0, false, 0⟩
def State.sdom (s : State) (d : Nat) : SDom := smGet sdomReset s.srv.doms d
def State.setSdom (s : State) (d : Nat) (x : SDom) : State := { s with srv := { s.srv with doms := smSet sdomReset s.srv.doms d x } }

/-- Is a tenant in a shared domain that is VALID? -/
def State.domMember (s : State) (d t : Nat) : Bool := 64 ≤ d && (s.sdom d).valid && (s.sdom d).members / 2 ^ t % 2 == 1

/-- The prefix domain a sequence uses: DOMAIN, key, EPOCH and PLAN of its entries; none while its shared domain does not serve it. -/
def State.prefixDom (s : State) (q : Seq) : Option (Nat × Nat × Nat × Nat) :=
  if q.domain = 0 then (smFind s.srv.privKeys q.tenant).map (fun k => (q.tenant, k, 0, q.plan))
  else if s.domMember q.domain q.tenant then some (q.domain, (s.sdom q.domain).key, (s.sdom q.domain).epoch, 0)
  else none

/-- PLAN_TAG of a sequence's plan. -/
def State.planTag (s : State) (q : Seq) : Nat := leAt (smGet [] s.srv.plans (q.tenant * 4 + q.plan)) 0x10 8

/-- Hash and check of a block from the hash before it and its 32 tokens (R211). -/
def blockHash (key prev : Nat) (toks : List Nat) : Nat × Nat :=
  let m := toLe 8 prev ++ toks.flatMap (fun t => toLe 4 t)
  (sipHash key m, sipHash (2 ^ 128 - 1 - key % 2 ^ 128) m % 2 ^ 32)

/-- The hash held for block b − 1 of a sequence under an epoch, or PLAN_TAG at the start. -/
def State.prevHash (s : State) (q : Seq) (b epoch : Nat) : Option Nat :=
  if b = 0 then some (s.planTag q)
  else match smFind q.hashes (b - 1) with
    | some [h, _, e] => if e = epoch then some h else none
    | _ => none

/-- Hash and check of block b, held or computed from its tokens where all 32 are known. -/
def State.hashAt (s : State) (q : Seq) (b key epoch : Nat) : Option (Nat × Nat) :=
  match smFind q.hashes b with
  | some [h, c, e] => if e = epoch then some (h, c) else none
  | _ =>
    let ts := (List.range 32).filterMap (fun i => smFind q.toks (32 * b + i))
    match s.prevHash q b epoch with
    | some p => if ts.length = 32 then some (blockHash key p ts) else none
    | none => none

/-- The entry that matches a lookup (R212). -/
def State.prefixFind (s : State) (d : Nat × Nat × Nat × Nat) (h c : Nat) : Option (Nat × PEnt) :=
  s.srv.prefixes.find? (fun e => e.1 / 8 == h % 0x40000 && e.2.tag == h / 0x40000 && e.2.check == c && e.2.domain == d.1 &&
    e.2.epoch == d.2.2.1 && (64 ≤ d.1 || e.2.plan == d.2.2.2))

/-- Makes a way the most recent of its set. -/
def State.touchPrefix (s : State) (k : Nat) : State :=
  match smFind s.srv.prefixes k with
  | none => s
  | some e =>
    { s with srv := { s.srv with prefixes := s.srv.prefixes.map (fun x =>
        if x.1 = k then (x.1, { x.2 with age := 0 })
        else if x.1 / 8 = k / 8 ∧ x.2.age < e.age then (x.1, { x.2 with age := x.2.age + 1 }) else x) } }

/-- Inserts an entry; a full set loses the way of greatest AGE (R214). -/
def State.insertPrefix (s : State) (d : Nat × Nat × Nat × Nat) (h c k : Nat) : State :=
  let base := h % 0x40000 * 8
  let ways := s.srv.prefixes.filter (fun e => e.1 / 8 == h % 0x40000)
  let oldest := ways.foldl (fun (m : Option (Nat × PEnt)) e => match m with
    | none => some e
    | some x => if x.2.age < e.2.age then some e else some x) none
  let s1 := match smFresh s.srv.prefixes base 8, oldest with
    | none, some e => s.dropPrefix e.1 false
    | _, _ => s
  match smFresh s1.srv.prefixes base 8 with
  | none => s1
  | some w =>
    let aged := s1.srv.prefixes.map (fun x => if x.1 / 8 = base / 8 then (x.1, { x.2 with age := min (x.2.age + 1) 7 }) else x)
    let s2 := { s1 with srv := { s1.srv with prefixes := smPut aged w ⟨h / 0x40000, c, k, d.1, d.2.2.1, d.2.2.2, 0⟩ } }
    let s3 := s2.move pgGLZ 3 .free .held 1
    match s3.pset k with
    | some x => s3.setPset k { x with named := true }
    | none => s3

/-! ### Page tables (R231) and eviction (R242) -/

/-- Takes the leaf for a block, where the sequence does not hold it yet. -/
def State.takeLeaf (s : State) (slot b : Nat) : Option State :=
  match s.seq slot with
  | none => none
  | some q =>
    if q.leaves.contains (b / 256) then some s
    else if (s.ledger pgGLZ 2).free = 0 then none
    else some ((s.move pgGLZ 2 .free .held 1).setSeq slot { q with leaves := q.leaves ++ [b / 256] })

/-- The block that is evicted before block i is allocated or linked. -/
def evictPick (q : Seq) (i : Nat) : Option Nat :=
  let cs := q.blocks.filter (fun e => e.2.live && decide (4 ≤ e.1 ∧ e.1 + 8 < i))
  (cs.foldl (fun (m : Option (Nat × Blk)) e => match m with
    | none => some e
    | some x => if fless e.2.score x.2.score then some e else some x) none).map (fun e => e.1)

/-- Makes room under EVICT_KEEP for block i: none where there is no candidate. -/
def State.evictFor (s : State) (slot g i : Nat) : Option State :=
  match s.seq slot with
  | none => none
  | some q =>
    if s.geoKeep g = 0 ∨ (q.blocks.filter (fun e => e.2.live)).length < s.geoKeep g then some s
    else match evictPick q i with
      | none => none
      | some b => match smFind q.blocks b with
        | none => none
        | some x =>
          some (((s.setSeq slot { q with blocks := smPut q.blocks b { x with evicted := true } }).unlinkSet x.key false).countUp pgGLZ
            r_GLZ_EVICTIONS 1)

/-- Gives a block of a sequence a set of its own. -/
def State.newBlock (s : State) (slot t g b : Nat) : Option State :=
  match s.evictFor slot g b with
  | none => none
  | some s1 => match s1.takeLeaf slot b with
    | none => none
    | some s2 => match s2.allocSet t g false with
      | none => none
      | some (k, s3) => match s3.seq slot with
        | none => none
        | some q => some (s3.setSeq slot { q with blocks := smPut q.blocks b ⟨k, false, false, false, false, 0⟩ })

/-- Links a shared set as a block of a sequence, read-only, and advances its length over it (R213). -/
def State.linkBlock (s : State) (slot g b k : Nat) : Option State :=
  match s.evictFor slot g b with
  | none => none
  | some s1 => match s1.takeLeaf slot b with
    | none => none
    | some s2 => match s2.seq slot, s2.pset k with
      | some q, some x =>
        let q1 := { q with geo := some g, blocks := smPut q.blocks b ⟨k, false, true, false, false, 0⟩,
                           lens := (List.range (s.geoLayers g)).foldl (fun (m : SMap Nat) l => smPut m l (32 * (b + 1))) q.lens }
        some ((s2.setSeq slot q1).setPset k { x with refs := x.refs + 1 })
      | _, _ => none

/-- One block of a lookup: its hash and, on a hit, its PAGE_SET. -/
structure Looked where
  h : Nat
  set : Option Nat
  deriving DecidableEq, Repr

/-- Remembers the hash, check value and salt of a block of a sequence. -/
def State.setHash (s : State) (slot b : Nat) (x : List Nat) : State :=
  match s.seq slot with
  | some q => s.setSeq slot { q with hashes := smPut q.hashes b x }
  | none => s

/-- MAX_CONTEXT of a sequence's plan, which bounds its length (R195). -/
def State.maxContext (s : State) (q : Seq) : Nat :=
  match smFind s.srv.plans (q.tenant * 4 + q.plan) with
  | some b => min (leAt b 0x20 4) (2 ^ 20)
  | none => 2 ^ 20

/-- Links the set a prefix entry names as block `b` of a sequence of its geometry, within its MAX_CONTEXT, and counts the hit. -/
def State.lookupTake (s : State) (slot b w set : Nat) : Option State :=
  match s.geoOfSet set with
  | some g => if (s.seq slot).any (fun q => (q.geo.isNone || q.geo == some g) && decide (32 * (b + 1) ≤ s.maxContext q)) then
      (s.linkBlock slot g b set).map (fun a => (a.touchPrefix w).countUp pgSMP r_SMP_PREFIX_HITS 1) else none
  | none => none

/-- Looks up consecutive complete blocks from block b on and stops matching at the first miss; the hashes of the others are kept. -/
def State.lookupGo (s : State) (slot : Nat) (d : Nat × Nat × Nat × Nat) (excl : Nat) :
    List (List Nat) → Nat → Nat → Bool → State × List Looked
  | [], _, _, _ => (s, [])
  | ts :: r, b, prev, hit =>
    let hc := blockHash d.2.1 prev ts
    let cand := if hit && b != excl then s.prefixFind d hc.1 hc.2 else none
    let s1 := if hit ∧ b ≠ excl then s.countUp pgSMP r_SMP_PREFIX_LOOKUPS 1 else s
    match cand.bind (fun x => s1.lookupTake slot b x.1 x.2.set) with
    | some s2 =>
      let x := (s2.setHash slot b [hc.1, hc.2, d.2.2.1]).lookupGo slot d excl r (b + 1) hc.1 true
      (x.1, ⟨hc.1, cand.map (fun x => x.2.set)⟩ :: x.2)
    | none =>
      let x := (s1.setHash slot b [hc.1, hc.2, d.2.2.1]).lookupGo slot d excl r (b + 1) hc.1 false
      (x.1, ⟨hc.1, none⟩ :: x.2)

/-- Cuts a list into whole blocks of 32. -/
def blocksOf (ts : List Nat) : List (List Nat) := (List.range (ts.length / 32)).map (fun i => (ts.drop (32 * i)).take 32)

/-- A prefix lookup of a sequence over tokens that start at its length (R213). `sampling` excludes the block that holds the last of them. -/
def State.prefixLookup (s : State) (slot : Nat) (ts : List Nat) (sampling : Bool) : State × List Looked :=
  match s.seq slot with
  | none => (s, [])
  | some q =>
    let b := s.seqLen q / 32
    match s.prefixDom q with
    | none => (s, (blocksOf ts).map (fun _ => ⟨0, none⟩))
    | some d =>
      match s.prevHash q b d.2.2.1 with
      | none => (s, (blocksOf ts).map (fun _ => ⟨0, none⟩))
      | some p =>
        let excl := if sampling ∧ ts.length % 32 = 0 ∧ ts ≠ [] then b + ts.length / 32 - 1 else 0x1000000
        s.lookupGo slot d excl (blocksOf ts) b p true

/-- Publishes a block whose 32 positions are in place in every layer (R214, R234). -/
def State.publish (s : State) (slot g b : Nat) (withhold : Bool) : State :=
  match s.seq slot with
  | none => s
  | some q =>
    match smFind q.blocks b, s.prefixDom q with
    | some x, some d =>
      if s.seqLen q < 32 * (b + 1) ∨ x.shared ∨ x.evicted then s
      else match s.hashAt q b d.2.1 d.2.2.1 with
        | none => s
        | some (h, c) =>
          let q1 := { q with hashes := smPut q.hashes b [h, c, d.2.2.1] }
          let s1 := s.setSeq slot q1
          if withhold ∨ q.blocks.any (fun e => e.2.evicted) ∨ (s1.prefixFind d h c).isSome ∨ s.geoOfSet x.key ≠ some g ∨
             (s.pset x.key).any (fun y => y.poisoned) then s1
          else (s1.setSeq slot { q1 with blocks := smPut q1.blocks b { x with shared := true } }).insertPrefix d h c x.key
    | _, _ => s

/-! ### Poisoned sets (R243) -/

/-- Marks a set poisoned. -/
def State.poisonSet (s : State) (k : Nat) : State :=
  match s.pset k with
  | none => s
  | some x =>
    if x.poisoned then s
    else
      let s1 := ((s.setPset k { x with poisoned := true }).countUp pgGLZ r_GLZ_POISONED 1).event pgGLZ ev_glz_SET_POISONED
      s1.dropPrefixes (fun e => e.set == k) false

/-- A read of a set found a poisoned word: KV_UE, and the set is poisoned. -/
def State.kvUe (s : State) (k : Nat) : State :=
  if (s.pset k).any (fun x => x.poisoned) then s else (s.report pgGLZ 3 k 0 false).poisonSet k

/-! ### Operations of the Glaze Unit -/

/-- Keeps the WAIT0 slot for the per-layer waits (05, wait slots). -/
def State.holdWait (s : State) (tag : Nat) : State :=
  match s.op tag with
  | some o => match (if cfValid o.d.wait0 then s.relCounter o.tenant (cfCounter o.d.wait0) else none) with
    | some g => (s.setOp tag { o with slots := [(g, o.d.thr0)] }).takeSlots 1
    | none => s
  | none => s

/-- Ends an operation of the Glaze Unit. -/
def State.glzEnd (s : State) (tag status detail : Nat) : State :=
  let s1 := (s.slotsMet tag).endReaders tag
  ({ s1 with srv := { s1.srv with apps := smDel s1.srv.apps tag, atts := smDel s1.srv.atts tag } }).opEnd tag status detail 0

/-- Rules that the argument blocks of GLAZE_APPEND and ATTEND share (R233, R236). -/
def State.glzArgFault (s : State) (o : Op) (a : List Byte) (geoRsv : Nat) : Option Nat :=
  let g := leAt a 0x30 4 % 8
  let lf := leAt a 0x34 4 % 256
  let lc := leAt a 0x34 4 / 256 % 512
  let sig := leAt a 0x3C 4
  firstBad [(0x20, leAt a 0x20 8 % 64 == 0), (0x28, leAt a 0x28 8 % 64 == 0), (0x30, leAt a 0x30 4 &&& geoRsv == 0 && s.geoValid g),
    (0x34, leAt a 0x34 4 / 0x20000 == 0 && 1 ≤ lc && lc ≤ 256 && lf + lc ≤ s.geoLayers g),
    (0x38, leAt a 0x38 4 == 0 || cfValid o.d.wait0),
    (0x3C, cfClean sig && (!cfValid sig || (s.relCounter o.tenant (cfCounter sig)).isSome))]

/-- The rows of a GLAZE_APPEND or ATTEND: handles and position words, or the status that ends it. -/
def State.glzRows (s : State) (tag : Nat) (o : Op) (a : List Byte) : Except (State × Nat × Nat) (List (Nat × Nat)) :=
  let w := o.who tag
  match s.readDva w (leAt a 0 8) 4 with
  | .bad d e => .error (s.mmuFault w d e false, faultStatus e, faultDetail e 0)
  | .ok b p =>
    let n := leNat b % 8192
    if p then .error (s, scPOISON, 0)
    else if n = 0 ∨ 4096 < n then .error (s, scARG, 0)
    else match s.readDva w (leAt a 8 8) (16 * n) with
      | .bad d e => .error (s.mmuFault w d e false, faultStatus e, faultDetail e 8)
      | .ok r p2 => if p2 then .error (s, scPOISON, 0)
        else .ok ((List.range n).map (fun i => (leAt r (16 * i) 3, leAt r (16 * i + 8) 4)))

/-- The first row that R234 refuses: status and DETAIL. -/
def State.rowFault (s : State) (o : Op) (g : Nat) (rows : List (Nat × Nat)) : Option (Nat × Nat) :=
  (List.range rows.length).findSome? (fun i =>
    let r := rows.getD i (0, 0)
    match s.named o.tenant r.1 with
    | none => some (scSEQUNKNOWN, r.1)
    | some (_, q) =>
      if q.hosted = decide (64 ≤ o.ring) ∨ (64 ≤ o.ring ∧ q.plan ≠ o.ring - 100) then some (scMODE, r.1)
      else if q.state = sqPARKING ∨ q.state = sqPARKED ∨ q.state = sqCLOSING then some (scSEQBUSY, r.1)
      else if q.state = sqEXPIRED then some (scSEQEXPIRED, r.1)
      else if q.state = sqFAILED then some (scPOISON, 0)
      else if q.geo.any (fun x => x != g) then some (scGEOMETRY, i)
      else if (rows.take i).contains r then some (scARG, 8)
      else none)

/-! ### Quantisation (R230) -/

/-- The scale code and elements of a G4 group, and whether a source was not finite; open where the spec states no result, as a function of the group
and its page scale `p` alone (R18; log entry 38). -/
def quantG4 (xs : List FV) (p : FV) : (Nat × List Int) × Bool :=
  let unstated : Nat × List Int := (Config.quantOpen xs p 0 % 255, (List.range xs.length).map (fun i => ((Config.quantOpen xs p (i + 1) % 15 : Nat) : Int) - 7))
  if xs.any (fun x => match x with | .fin _ _ _ => false | _ => true) then ((0xFF, xs.map (fun _ => 0)), true)
  else
    let ys := xs.map (fun x => fval (fmtB32.quot 0 false x p))
    if ys.any (fun y => match y with | .fin _ _ _ => false | _ => true) then (unstated, false)
    else
      let mag := fun (y : FV) => match y with | .fin _ m e => FV.fin false m e | v => v
      let a := ys.foldl (fun (m : FV) y => if m.lt (mag y) then mag y else m) (.fin false 0 0)
      match a with
      | .fin _ m e =>
        if m = 0 then ((0, xs.map (fun _ => 0)), false)
        else
          let f := log2Ratio m 7 + e
          let sx := if FV.lt (.fin false 7 f) a then f + 1 else f
          let c := max 0 (min 254 (sx + 127))
          let z := c - 127
          let el := fun (y : FV) => match y with
            | .fin n k u =>
              let v : Nat := if 0 ≤ u - z then roundInt 0 n (k * 2 ^ (u - z).toNat) 1 else roundInt 0 n k (2 ^ (z - u).toNat)
              let w : Int := min v 7
              if n then -w else w
            | _ => 0
          ((c.toNat, ys.map el), false)
      | _ => (unstated, false)

/-- Two 4-bit elements to a byte, the first in the low nibble (R52). -/
def packNibbles : List Int → List Byte
  | a :: b :: r => BitVec.ofNat 8 ((a % 16).toNat + 16 * (b % 16).toNat) :: packNibbles r
  | [a] => [BitVec.ofNat 8 (a % 16).toNat]
  | [] => []

/-- A G8 element: the E4M3 code, and whether the source was not finite. -/
def quantG8 (x p : FV) : Nat × Bool :=
  match x with
  | .fin _ _ _ => (fmtE4M3.code 0 true (fval (fmtB32.quot 0 false x p)), false)
  | _ => (0x7F, true)

/-- Free bytes where the spec states no result. -/
def State.freeBytes (s : State) (n : Nat) : List Byte := (List.range n).map (fun i => BitVec.ofNat 8 (Config.freeNat (s.free + i)))

/-- Writes one head's row of keys or values at a position of a page. `base` is the part's offset in the page. -/
def State.quantRow (s : State) (g page base pos : Nat) (xs : List FV) (p : FV) : State :=
  let e := s.geoDim g
  if s.geoG8 g then
    let qs := xs.map (fun x => quantG8 x p)
    let bad := (qs.filter (fun x => x.2)).length
    let s1 := s.memWrite (page + base + pos * e) (qs.map (fun x => BitVec.ofNat 8 x.1))
    if bad = 0 then s1 else (s1.countUp pgGLZ r_GLZ_NONFINITE bad).event pgGLZ ev_glz_NONFINITE
  else
    (List.range (e / 32)).foldl (fun (a : State) j =>
      let at1 := page + base + pos * (e / 2) + 16 * j
      let at2 := page + base + 16 * e + pos * (e / 32) + j
      let q := quantG4 ((xs.drop (32 * j)).take 32) p
      let a1 := (a.memWrite at1 (packNibbles q.1.2)).memWrite at2 [BitVec.ofNat 8 q.1.1]
      if q.2 then (a1.countUp pgGLZ r_GLZ_NONFINITE 1).event pgGLZ ev_glz_NONFINITE else a1) s

/-- Source values of a row. -/
def srcVals (b32 : Bool) (b : List Byte) (n : Nat) : List FV :=
  (List.range n).map (fun i => if b32 then fmtB32.value (leAt b (4 * i) 4) else fmtBf16.value (leAt b (2 * i) 2))

/-! ### GLAZE_APPEND (R233 to R235) -/

/-- Takes up the work of a GLAZE_APPEND over its rows. -/
def State.appendRun (s : State) (tag : Nat) (o : Op) (a : List Byte) (rows : List (Nat × Nat)) : State :=
  match s.rowFault o (leAt a 0x30 4 % 8) rows with
  | some (st, d) => s.opEnd tag st d 0
  | none =>
    let s1 := (s.setOp tag { o with args := a, parts := 1, aux := [0] }).holdWait tag
    { s1 with srv := { s1.srv with apps := smPut s1.srv.apps tag (rows.map (fun r => ⟨r.1 % 65536, r.2 % 0x100000⟩)) } }

/-- GLAZE_APPEND is dispatched: its rows are validated. -/
def State.appendStart (s : State) (tag : Nat) (o : Op) : State :=
  s.withArg tag o 128 (fun a =>
    match s.glzArgFault o a 0xFFFFFEF8 with
    | some d => s.opEnd tag scARG d 0
    | none =>
      match rsvByte a [(0x48, 56)] with
      | some d => s.opEnd tag scARG d 0
      | none =>
        match s.glzRows tag o a with
        | .error (s1, st, d) => s1.opEnd tag st d 0
        | .ok rows => s.appendRun tag o a rows)

/-- GLAZE_APPEND. -/
def execGlazeAppend (tag : Fin 8192) (now : DWord) (s : State) : Host.Outcome State Fault Refusal :=
  .next (s.issue tag.val 5 now.toNat (fun a o => if a.running pgGLZ then a.appendStart tag.val o else s))

/-- Has the wait of layer index i of a GLAZE_APPEND or ATTEND been met? -/
def State.layerReady (s : State) (o : Op) (i : Nat) : Bool := s.waitMet o.tenant o.d.wait0 (o.d.thr0 + i * leAt o.args 0x38 4)

/-- Is NO_PUBLISH set for a sequence's generation? -/
def Seq.withhold (q : Seq) : Bool := q.job.any (fun j => j.noPublish)

/-- Puts the scales of a set's layer beside its rows, where they are not there yet. -/
def State.appendScale (s : State) (k l at0 : Nat) (pb : List Byte) : State :=
  match s.pset k with
  | some y => (s.memWrite at0 pb).setPset k { y with scaled := y.scaled ++ [l] }
  | none => s

/-- Quantises the keys and values of one head of a row into a page. -/
def State.appendHead (s : State) (g page at0 pos : Nat) (b32 : Bool) (kb vb : List Byte) (h : Nat) : State :=
  let e := s.geoDim g
  let p := fmtE4M3.value (leNat (s.memRead (at0 + h) 1))
  let part := h * (if s.geoG8 g then 64 else 34) * e
  let ks := srcVals b32 (sub kb (h * e * (if b32 then 4 else 2)) (e * (if b32 then 4 else 2))) e
  let vs := srcVals b32 (sub vb (h * e * (if b32 then 4 else 2)) (e * (if b32 then 4 else 2))) e
  (s.quantRow g page part pos ks p).quantRow g page (part + (if s.geoG8 g then 32 else 17) * e) pos vs p

/-- Writes a row's keys and values, with the layer's scales before the first row of a set. -/
def State.appendPut (s : State) (g l page key : Nat) (r : GRow) (b32 fresh : Bool) (kb vb pb : List Byte) (q : Seq) (len : Nat) : State :=
  let hds := s.geoHeads g
  let at0 := page + hds * (if s.geoG8 g then 64 else 34) * s.geoDim g
  let s2 := if fresh then s.appendScale key l at0 (pb ++ List.replicate (64 - hds) 0) else s
  let s3 := (List.range hds).foldl (fun (c : State) h => c.appendHead g page at0 (r.pos % 32) b32 kb vb h) s2
  s3.setSeq r.slot { q with lens := smPut q.lens l (max len (r.pos + 1)) }

/-- Reads a row's keys, values and scales and writes them to the set `key`. -/
def State.appendData (s : State) (tag : Nat) (o : Op) (i ri : Nat) (r : GRow) (q : Seq) (key len : Nat) : State × Option (Nat × Nat) :=
  let a := o.args
  let g := leAt a 0x30 4 % 8
  let l := leAt a 0x34 4 % 256 + i
  let w := o.who tag
  let hds := s.geoHeads g
  let b32 := leAt a 0x30 4 / 256 % 2 == 1
  let n := hds * s.geoDim g * (if b32 then 4 else 2)
  let off := ri * leAt a 0x20 8 + i * leAt a 0x28 8
  let sc := leAt a 0x40 8
  let fresh := (s.pset key).any (fun y => !y.scaled.contains l)
  match s.readDva w (leAt a 0x10 8 + off) n with
  | .bad d f => (s.mmuFault w d f false, some (faultStatus f, faultDetail f 0x10))
  | .ok kb kp =>
    match s.readDva w (leAt a 0x18 8 + off) n with
    | .bad d f => (s.mmuFault w d f false, some (faultStatus f, faultDetail f 0x18))
    | .ok vb vp =>
      match (if sc = 0 ∨ !fresh then Rd.ok ((List.range hds).map (fun _ => 0x38#8)) false else s.readDva w (sc + hds * l) hds) with
      | .bad d f => (s.mmuFault w d f false, some (faultStatus f, faultDetail f 0x40))
      | .ok pb pp =>
        if kp ∨ vp ∨ pp then (s, some (scPOISON, 0))
        else (s.appendPut g l (s.setAddr g key + l * s.pageBytes g) key r b32 fresh kb vb pb q len, none)

/-- Appends one row in a layer: the status and DETAIL that end the operation, if any. A position at or past MAX_CONTEXT, which no length may pass
(R195), ends it with ARG_INVALID (DESIGN CHOICE, log entry 40: no rule names the status). -/
def State.appendRow (s : State) (tag : Nat) (o : Op) (i : Nat) (ri : Nat) (r : GRow) : State × Option (Nat × Nat) :=
  let a := o.args
  let g := leAt a 0x30 4 % 8
  let l := leAt a 0x34 4 % 256 + i
  match s.seq r.slot with
  | none => (s, some (scSEQUNKNOWN, s.handleOf r.slot))
  | some q0 =>
    let q := { q0 with geo := some g }
    let b := r.pos / 32
    let ll := smGet 0 q.lens l
    if s.maxContext q0 ≤ r.pos then (s, some (scARG, ri))
    else if ll < r.pos then (s, some (scGAP, ri))
    else
      let have0 := (smFind q.blocks b).any (fun x => x.live)
      let s0 := s.setSeq r.slot q
      match (if have0 then some s0 else s0.newBlock r.slot q.tenant g b) with
      | none => (s, some (scPAGES, s.handleOf r.slot))
      | some s1 =>
        match (s1.seq r.slot).bind (fun x => (smFind x.blocks b).map (fun y => (x, y))) with
        | none => (s, some (scPAGES, s.handleOf r.slot))
        | some (q1, x) =>
          if r.pos < ll ∧ x.shared then (s1, some (scSHAREDWRITE, ri))
          else s1.appendData tag o i ri r q1 x.key ll

/-- Appends the rows of a layer in row order. -/
def State.appendRows (s : State) (tag : Nat) (o : Op) (i : Nat) : List (Nat × GRow) → State × Option (Nat × Nat)
  | [] => (s, none)
  | (ri, r) :: rest =>
    match s.appendRow tag o i ri r with
    | (s1, some f) => (s1, some f)
    | (s1, none) => s1.appendRows tag o i rest

/-- Adds LAYER_SIGNAL. -/
def State.layerSignal (s : State) (o : Op) : State :=
  let f := leAt o.args 0x3C 4
  if cfValid f then s.relAdd o.tenant (cfCounter f) 1 else s

/-- APPEND_LAYER: the next layer of a GLAZE_APPEND. -/
def execAppendLayer (tag : Fin 8192) (now : DWord) (s : State) : Host.Outcome State Fault Refusal :=
  .next (match s.op tag.val, smFind s.srv.apps tag.val with
    | some o, some rows =>
      let i := o.aux.getD 0 0
      let lc := leAt o.args 0x34 4 / 256 % 512
      if o.abandoned ∨ s.writesOff o.tenant then (s.at now.toNat).glzEnd tag.val o.status o.detail
      else if s.waitPoisoned o.tenant o.d.wait0 then (s.at now.toNat).glzEnd tag.val scPOISON 0
      else if !s.working pgGLZ ∨ !s.layerReady o i then s
      else
        match (s.at now.toNat).appendRows tag.val o i ((List.range rows.length).zip rows) with
        | (s1, some (st, d)) => s1.glzEnd tag.val st d
        | (s1, none) =>
          let g := leAt o.args 0x30 4 % 8
          let s2 := s1.layerSignal o
          let s3 := rows.foldl (fun (a : State) r => match a.seq r.slot with
            | some q => a.publish r.slot g (r.pos / 32) q.withhold
            | none => a) s2
          if i + 1 = lc then s3.glzEnd tag.val scOK 0
          else match s3.op tag.val with
            | some o1 => s3.setOp tag.val { o1 with aux := [i + 1] }
            | none => s3
    | _, _ => s)

/-! ### Moves and expiry (R244, R245) -/

/-- Has the sequence an ATTEND, GLAZE_APPEND or GLAZE_MOVE in flight? -/
def State.seqBusyOps (s : State) (slot : Nat) : Bool :=
  s.srv.apps.any (fun e => e.2.any (fun r => r.slot == slot)) || s.srv.atts.any (fun e => e.2.rows.any (fun r => r.slot == slot)) ||
  (smFind s.srv.moves slot).isSome

/-- Copies a set; poisoned words arrive poisoned. -/
def State.copySet (s : State) (src dst n : Nat) : State :=
  let s1 := s.memWrite dst (s.memRead src n)
  ((wordsOf src n).filter (fun w => smGet false s.mem.poison w)).foldl (fun (a : State) w => a.memPoison (dst + (w * 8 - src))) s1

/-- Allocates the destination sets of a move, in transit until they are linked (R247). -/
def State.moveAlloc (s : State) (t g : Nat) (toLoft : Bool) : List Nat → State × List (Nat × Nat)
  | [] => (s, [])
  | b :: r => match s.allocSet t g toLoft with
    | none => (s, [])
    | some (k, s1) =>
      let x := (s1.move pgGLZ (tierLedger k) .held .transit 1).moveAlloc t g toLoft r
      (x.1, (b, k) :: x.2)

/-- The private sets of a sequence that a move takes to the other tier. -/
def Seq.toMove (q : Seq) (toLoft : Bool) : List Nat :=
  (q.blocks.filter (fun e => e.2.live && !e.2.shared && e.2.loft != toLoft)).map (fun e => e.1)

/-- Stage 1 of a move (R244): every destination set at once, or none where they do not fit. The move holds the sequence from here, and one that leaves
the Loft has won against the expiry (R245). -/
def State.moveOpen (s : State) (slot : Nat) (toLoft : Bool) (tag : Option Nat) (ttl : Nat) : Option State :=
  match s.seq slot with
  | none => none
  | some q =>
    let bs := q.toMove toLoft
    let g := q.geo.getD 0
    if bs ≠ [] ∧ !s.setsFit q.tenant g bs.length toLoft then none
    else
      let x := s.moveAlloc q.tenant g toLoft bs
      let s1 := x.1.setSeq slot { q with expiry := none, state := if toLoft then sqPARKING else q.state }
      some { s1 with srv := { s1.srv with moves := smPut s1.srv.moves slot ⟨toLoft, x.2, tag, ttl⟩ } }

/-- Stages 2 and 3 of a move for one block: its set is copied, its leaf rewritten and the source freed. -/
def State.moveSet (s : State) (slot : Nat) (toLoft : Bool) (d : Nat × Nat) : State :=
  match s.seq slot with
  | none => s
  | some q => match q.geo, smFind q.blocks d.1 with
    | some g, some e =>
      let a1 := s.move pgGLZ (tierLedger d.2) .transit .held 1
      let src := a1.setAddr g e.key
      let n := a1.setBytes g
      let a2 := if anyPoison a1.mem.poison src n then a1.kvUe e.key else a1
      let a3 := a2.copySet src (a2.setAddr g d.2) n
      let a4 := match a3.pset d.2, a3.pset e.key with
        | some y, some z => a3.setPset d.2 { y with scaled := z.scaled }
        | _, _ => a3
      let a5 := if (a3.pset e.key).any (fun x => x.poisoned) then a4.poisonSet d.2 else a4
      (a5.setSeq slot { q with blocks := smPut q.blocks d.1 { e with set := d.2 % 0x1000000, loft := toLoft } }).unlinkSet e.key false
    | _, _ => s

/-- A move is given up with its sequence: its destination sets return, counted as reclaimed (R247), and its operation ends. -/
def State.moveDrop (s : State) (slot : Nat) : State :=
  match smFind s.srv.moves slot with
  | none => s
  | some m =>
    let s1 : State := { s with srv := { s.srv with moves := smDel s.srv.moves slot } }
    let s2 := m.dests.foldl (fun (a : State) d => (a.move pgGLZ (tierLedger d.2) .transit .held 1).unlinkSet d.2 true) s1
    match m.tag with
    | some t => s2.opEnd t scSEQUNKNOWN (s.handleOf slot) 0
    | none => s2

/-- The first whole second of the timebase at or after a time. -/
def wholeSecond (t : Nat) : Nat := (t + 999999999) / 1000000000 * 1000000000

/-- A sequence is PARKED: its time to live starts. -/
def State.parked (s : State) (slot ttl : Nat) : State :=
  match s.seq slot with
  | none => s
  | some q => s.setSeq slot { q with state := sqPARKED, parkTtl := none, expiry := some (wholeSecond (s.time + ttl * 1000000000)) }

/-- Rules of the GLAZE_MOVE argument block. -/
def moveArgFault (a : List Byte) : Option Nat :=
  let dir := leAt a 4 4
  match firstBad [(0, leAt a 0 4 / 2 ^ 24 == 0), (4, dir < 2), (8, if dir = 0 then 1 ≤ leAt a 8 4 && leAt a 8 4 ≤ 259200 else leAt a 8 4 == 0)] with
  | some d => some d
  | none => rsvByte a [(0xC, 52)]

/-- A GLAZE_MOVE that tenant software submits: its checks and its first stage. -/
def State.moveStart (s : State) (tag : Nat) (o : Op) : State :=
  s.withArg tag o 64 (fun a =>
    match moveArgFault a with
    | some d => s.opEnd tag scARG d 0
    | none =>
      let h := leAt a 0 3
      let toLoft := leAt a 4 4 == 0
      match s.named o.tenant h with
      | none => s.opEnd tag scSEQUNKNOWN h 0
      | some (slot, q) =>
        if !q.hosted then s.opEnd tag scMODE h 0
        else if q.state = sqFAILED then s.opEnd tag scPOISON 0 0
        else if q.state = sqEXPIRED then s.opEnd tag scSEQEXPIRED h 0
        else if q.state ≠ (if toLoft then sqIDLE else sqPARKED) ∨ s.seqBusyOps slot ∨ q.row.isSome then s.opEnd tag scSEQBUSY h 0
        else match (s.setOp tag { o with args := a, parts := 1 }).moveOpen slot toLoft (some tag) (leAt a 8 4) with
          | none => s.opEnd tag scPAGES h 0
          | some s1 => s1)

/-- Releases a sequence's sets and leaves (R245, R199 CLOSE). -/
def State.freePages (s : State) (slot : Nat) (reclaimed : Bool) : State :=
  match s.seq slot with
  | none => s
  | some q =>
    let s1 := s.setSeq slot { q with blocks := [], leaves := [], lens := [] }
    let s2 := (q.blocks.filter (fun e => e.2.live)).foldl (fun (a : State) e => a.unlinkSet e.2.key reclaimed) s1
    if reclaimed then s2.reclaim pgGLZ 2 .held q.leaves.length else s2.move pgGLZ 2 .held .free q.leaves.length

/-- SEQ_EXPIRED: the time to live of a PARKED sequence has run out, and neither a GENERATE nor a move reached it first. -/
def execSeqExpired (slot : Fin 65536) (now : DWord) (s : State) : Host.Outcome State Fault Refusal :=
  .next (match s.seq slot.val with
    | none => s
    | some q =>
      if q.state ≠ sqPARKED ∨ !q.expiry.any (fun e => decide (e ≤ max s.time now.toNat)) ∨ q.job.isSome then s
      else
        let s1 := (s.at now.toNat).freePages slot.val false
        let s2 := match s1.seq slot.val with
          | some x => s1.setSeq slot.val { x with state := sqEXPIRED, expiry := none }
          | none => s1
        let s3 := ((s2.countUp pgGLZ r_GLZ_EXPIRIES 1).event pgGLZ ev_glz_SEQ_EXPIRED).event pgSMP ev_smp_SEQ_EXPIRED
        (s3.event (tenantPage q.tenant 6) ev_glzT_SEQ_EXPIRED).event (tenantPage q.tenant 7) ev_smpT_SEQ_EXPIRED)

/-- The Glaze page enters RUNNING: its ledgers take the totals of its configuration (R247), and SET_BYTES shows. -/
def State.glzStart (s : State) : State :=
  let sum := fun (loft : Bool) => ((List.range 8).map (fun g => if s.geoValid g then (s.pool g loft).2.1 else 0)).foldl (· + ·) 0
  let put := fun (a : State) (i n : Nat) =>
    let l := a.ledger pgGLZ i
    a.setLedger pgGLZ i ⟨n, n, 0, 0, l.reclaimed⟩
  let s1 := put (put (put (put (put s 0 (sum false)) 1 (sum true)) 2 (s.fld pgGLZ f_GLZ_LEAVES_UNITS * 1024)) 3 2097152) 4 32768
  (List.range 8).foldl (fun (a : State) g => if a.geoValid g then a.setWord pgGLZ (r_GLZ_GEO_SET_BYTES g) (BitVec.ofNat 32 (a.setBytes g)) else a) s1

end Sys2Proof.Machine
end

