-- ==== Sys2Proof/Machine/Attend.lean ====
section
/-! DEFINITION. ATTEND (10, R236 to R243): the page walk, the layer steps and their arithmetic, and the eviction scores. -/

namespace Sys2Proof.Machine

open Sys2Proof

/-! ### The argument block -/

/-- Fields of a window entry (R62). -/
def winFormat (x : Nat) : Nat := bits x 17 14
def winSat (x : Nat) : Bool := bits x 13 13 == 1
def winRound (x : Nat) : Nat := bits x 12 10

/-- The output formats that ATTEND takes, with the bytes of an element. -/
def outFmt (c : Nat) : Fmt × Nat := if c = 0 then (fmtB32, 4) else if c = 1 then (fmtB16, 2) else if c = 2 then (fmtBf16, 2) else (fmtE4M3, 1)

/-- Rules of the ATTEND argument block beyond those of R233. -/
def State.attArgFault (s : State) (a : List Byte) : Option Nat :=
  let qh := leAt a 0x40 4
  let scale := leAt a 0x44 4
  let wq := leAt a 0x48 4
  let wo := leAt a 0x4C 4
  let sc := leAt a 0x58 4
  match firstBad [(0x40, 1 ≤ qh && qh ≤ 127 && qh % s.geoHeads (leAt a 0x30 4 % 8) == 0), (0x44, ffinite scale && fless 0 scale),
    (0x48, windowOk wq && winFormat wq == 0 && winRound wq != 4), (0x4C, windowOk wo && winFormat wo ≤ 3 && winRound wo != 4),
    (0x50, leAt a 0x50 4 < 1024), (0x54, leAt a 0x54 4 ≤ 1048576),
    (0x58, sc / 2 ^ 23 == 0 && 256 ≤ sc / 2048 && sc / 2048 ≤ 2048 && sc % 2048 + sc / 2048 ≤ 2048), (0x5C, leAt a 0x5C 4 < 2)] with
  | some d => some d
  | none => rsvByte a [(0x60, 32)]

/-! ### Descriptors (R237, R238) -/

/-- FIRST_KEEP and LAST_KEEP of a block for a query position. -/
def keepOf (q b win : Nat) : Nat × Nat := (if win = 0 then 0 else q + 1 - win - 32 * b, min 31 (q - 32 * b))

/-- The descriptors of one row, in increasing block order. -/
def State.rowDescs (s : State) (g : Nat) (q : Seq) (ri pos win : Nat) : List PDesc :=
  (q.blocks.filter (fun e => e.2.live && decide (32 * e.1 ≤ pos) && decide ((keepOf pos e.1 win).1 ≤ (keepOf pos e.1 win).2))).map (fun e =>
    ⟨s.setAddr g e.2.key, e.2.key, (s.pset e.2.key).any (fun x => x.poisoned), e.1, ri, (keepOf pos e.1 win).1, (keepOf pos e.1 win).2⟩)

/-- Does the panel at a group index hold work items of a row? -/
def holdsRow (n heads g r : Nat) : Bool := (List.range heads).any (fun h => (r * heads + h) % n == g)

/-- The 32 bytes of a descriptor. -/
def PDesc.bytes (d : PDesc) : List Byte :=
  toLe 8 d.addr ++ toLe 4 (d.key % 0x2000000 + (if d.poisoned then 0x2000000 else 0)) ++ toLe 4 d.block ++ toLe 4 d.row ++
  toLe 4 (d.first + 32 * d.lastKeep) ++ toLe 8 0

/-- Takes up the work of an ATTEND over its rows (R222). -/
def State.attendRun (s : State) (tag : Nat) (o : Op) (a : List Byte) (rows : List (Nat × Nat)) : State :=
  let g := leAt a 0x30 4 % 8
  match s.rowFault o g rows with
  | some (st, d) => s.opEnd tag st d 0
  | none =>
    if rows.any (fun r => decide (1048576 ≤ r.2)) then s.opEnd tag scARG 8 0
    else
      let win := leAt a 0x54 4
      let idx := List.range rows.length
      let ds := idx.flatMap (fun i =>
        let r := rows.getD i (0, 0)
        match s.seq (r.1 % 65536) with
        | some q => s.rowDescs g q i r.2 win
        | none => [])
      let n := o.group.length
      let hds := s.geoHeads g
      let room := (leAt a 0x58 4 / 2048) * 4096
      let tooMany := (List.range n).any (fun k => decide (room < 32 * (ds.filter (fun d => holdsRow n hds k d.row)).length + 524288))
      if tooMany then s.opEnd tag scARG 0x58 0
      else
        let at0 : Att := ⟨rows.map (fun r => ⟨r.1 % 65536, r.2⟩), ds, 0, [], [], none⟩
        let s1 := ds.foldl (fun (c : State) d => match c.pset d.key with
          | some x => c.setPset d.key { x with readers := if x.readers.contains tag then x.readers else x.readers ++ [tag] }
          | none => c) s
        let s2 := { s1 with srv := { s1.srv with atts := smPut s1.srv.atts tag at0 } }
        let lc := leAt a 0x34 4 / 256 % 512
        let s3 := s2.queueWork tag { o with args := a } ((List.range n).map (fun k =>
          (o.group.getD k 0, ⟨tag, o.tenant, 1, k, [], 0, 0, lc, false, false, 0⟩)))
        s3.holdWait tag

/-- ATTEND is dispatched: its rows are validated and its page tables walked. -/
def State.attendStart (s : State) (tag : Nat) (o : Op) : State :=
  s.withArg tag o 128 (fun a =>
    match s.glzArgFault o a 0xFFFFEDF8, s.attArgFault a with
    | some d, _ => s.opEnd tag scARG d 0
    | none, some d => s.opEnd tag scARG d 0
    | none, none =>
      match s.glzRows tag o a with
      | .error (s1, st, d) => s1.opEnd tag st d 0
      | .ok rows => s.attendRun tag o a rows)

/-- ATTEND. -/
def execAttend (tag : Fin 8192) (now : DWord) (s : State) : Host.Outcome State Fault Refusal :=
  .next (s.issue tag.val 4 now.toNat (fun a o => if a.running pgGLZ then a.attendStart tag.val o else s))

/-! ### Arithmetic (R239) -/

/-- A 4-bit two's-complement integer. -/
def nibble (x : Nat) : Int := if x < 8 then x else (x : Int) - 16

/-- The decoded elements of one position's row of keys or values (R55, R229). `part` is the address of the part. -/
def State.kvRow (s : State) (g part pos : Nat) (p : FV) : List FV :=
  let e := s.geoDim g
  if s.geoG8 g then (List.range e).map (fun i => (fmtE4M3.value (cGet s.mem.mem (part + pos * e + i)).toNat).mul p)
  else (List.range e).map (fun i =>
    let b := (cGet s.mem.mem (part + pos * (e / 2) + i / 2)).toNat
    let c := (cGet s.mem.mem (part + 16 * e + pos * (e / 32) + i / 32)).toNat
    if c = 0xFF then .nan else ((FV.ofInt (nibble (if i % 2 = 0 then b % 16 else b / 16))).mul (.pow2 ((c : Int) - 127))).mul p)

/-- What one row, layer and query head gives: its output codes, WINDOW_OVF, and each block's share of the sum as a fraction; none where the
spec states no output, `poison` where a poisoned set is read. -/
structure HeadOut where
  codes : Option (List Nat)
  ovf : Bool
  shares : List (Nat × Nat × Nat)
  nan : Bool
  deriving DecidableEq, Repr

/-- A magnitude in units of 2^-160; a value that is not finite counts nothing. -/
def units (v : FV) : Nat :=
  match v with
  | .fin _ m e => if 0 ≤ e + 160 then m * 2 ^ (e + 160).toNat else 0
  | _ => 0

/-- The attention of one query head over the kept positions of its row. -/
def State.attHead (s : State) (a : List Byte) (ds : List PDesc) (l h : Nat) (q : List FV) : HeadOut :=
  let g := leAt a 0x30 4 % 8
  let e := s.geoDim g
  let wq := leAt a 0x48 4
  let wo := leAt a 0x4C 4
  let f := (outFmt (winFormat wo)).1
  let part := h * (if s.geoG8 g then 64 else 34) * e
  let vOff := (if s.geoG8 g then 32 else 17) * e
  let pf := if bits (leAt a 0x30 4) 12 12 = 1 then fmtBf16 else fmtE4M3
  let keys := ds.flatMap (fun d =>
    let page := d.addr + l * s.pageBytes g
    let p := fmtE4M3.value (cGet s.mem.mem (page + s.geoHeads g * (if s.geoG8 g then 64 else 34) * e + h)).toNat
    ((List.range 32).filter (fun i => decide (d.first ≤ i ∧ i ≤ d.lastKeep))).map (fun i => (d.block, page + part, i, p)))
  let score := fun (x : Nat × Nat × Nat × FV) =>
    let acc := ((s.kvRow g x.2.1 x.2.2.1 x.2.2.2).zip q).foldl (fun (c : Accum) y => c.put (winBase wq) (y.1.mul y.2)) accZero
    let v := acc.done (winBase wq)
    (fmul (fmtB32.code (winRound wq) (winSat wq) v.1) (leAt a 0x44 4), v.2)
  let ss := keys.map score
  let ovf1 := ss.any (fun x => x.2)
  let bad := ss.any (fun x => fisNan x.1) || (ss.any (fun x => x.1 == 0x7F800000) && ss.any (fun x => x.1 == 0xFF800000))
  if ss = [] then ⟨none, false, [], true⟩
  else if bad then ⟨some (List.replicate e f.nanCode), ovf1, [], true⟩
  else
    let m := ss.foldl (fun (m : Nat) x => if fless m x.1 then x.1 else m) 0xFF800000
    let ps := ss.map (fun x => pf.value (pf.code 0 false (fval (fexp (fsub x.1 m)))))
    let sum := (ps.foldl (fun (c : Accum) p => c.put (winBase (leAt a 0x50 4)) p) accZero).done (winBase (leAt a 0x50 4))
    let rows := keys.map (fun x => s.kvRow g (x.2.1 + vOff) x.2.2.1 x.2.2.2)
    let outs := (List.range e).map (fun i =>
      ((ps.zip rows).foldl (fun (c : Accum) y => c.put (winBase wo) (y.1.mul (y.2.getD i .nan))) accZero).done (winBase wo))
    let ovf := ovf1 || sum.2 || outs.any (fun x => x.2)
    let tot := (ps.map units).foldl (· + ·) 0
    let shares := ds.map (fun d => (d.block, (((keys.zip ps).filter (fun x => x.1.1 == d.block)).map (fun x => units x.2)).foldl (· + ·) 0, tot))
    if sum.1.isZero ∧ !outs.any (fun x => x.1 == .nan) then ⟨none, ovf, shares, false⟩
    else ⟨some (outs.map (fun x => f.quot (winRound wo) (winSat wo) x.1 sum.1)), ovf, shares, ps.any (fun p => p == .nan)⟩

/-- Adds fractions exactly. -/
def addFrac (x y : Nat × Nat) : Nat × Nat := (x.1 * y.2 + y.1 * x.2, x.2 * y.2)

/-! ### Layer steps (R240) -/

/-- Raises the mass of a block for a row to a value at least that given. -/
def Att.raise (t : Att) (row block m : Nat) : Att :=
  let k := row * 32768 + block
  { t with mass := if fless (smGet 0 t.mass k) m then smPut t.mass k m else t.mass }

def State.att (s : State) (tag : Nat) : Option Att := smFind s.srv.atts tag
def State.setAtt (s : State) (tag : Nat) (x : Att) : State := { s with srv := { s.srv with atts := smPut s.srv.atts tag x } }

/-- Does a row and head read a poisoned word of a set, or a set marked poisoned? The sets found poisoned are named. -/
def State.poisonedReads (s : State) (g l h : Nat) (ds : List PDesc) : List Nat :=
  let sec := (if s.geoG8 g then 64 else 34) * s.geoDim g
  (ds.filter (fun d =>
    let page := d.addr + l * s.pageBytes g
    d.poisoned || (s.pset d.key).any (fun x => x.poisoned) || anyPoison s.mem.poison (page + h * sec) sec ||
    anyPoison s.mem.poison (page + s.geoHeads g * sec) 64)).map (fun d => d.key)

/-- One work item: a row with one KV head, all its query heads. -/
def State.attItem (s : State) (tag : Nat) (o : Op) (i ri h : Nat) : State × Option (Nat × Nat) :=
  match s.att tag with
  | none => (s, none)
  | some t =>
    let a := o.args
    let w := o.who tag
    let g := leAt a 0x30 4 % 8
    let l := leAt a 0x34 4 % 256 + i
    let e := s.geoDim g
    let qh := leAt a 0x40 4
    let per := qh / s.geoHeads g
    let qb := if bits (leAt a 0x30 4) 9 9 = 1 then 2 else 1
    let ob := (outFmt (winFormat (leAt a 0x4C 4))).2
    let off := ri * leAt a 0x20 8 + i * leAt a 0x28 8
    let src := leAt a 0x10 8 + off + h * per * e * qb
    let dst := leAt a 0x18 8 + off + h * per * e * ob
    match s.readDva w src (per * e * qb), s.writeFault w 0 (cuts dst (per * e * ob)) with
    | .bad d f, _ => (s.mmuFault w d f false, some (faultStatus f, faultDetail f 0x10))
    | .ok _ _, some (d, f) => (s.mmuFault w d f true, some (scTRANSLATION, 0x18))
    | .ok qs pois, none =>
      if pois then (s, some (scPOISON, boundary i 0))
      else
        let ds := t.descs.filter (fun d => d.row == ri)
        let bad := s.poisonedReads g l h ds
        let f := (outFmt (winFormat (leAt a 0x4C 4))).1
        let qv := fun (j : Nat) => (List.range e).map (fun x =>
          if qb = 2 then fmtBf16.value (leAt qs (2 * (j * e + x)) 2) else fmtE4M3.value (leAt qs (j * e + x) 1))
        let outs := (List.range per).map (fun j => s.attHead a ds l h (qv j))
        let codes := if bad ≠ [] then outs.flatMap (fun _ => (List.replicate e f.nanCode).map some)
          else outs.flatMap (fun x => match x.codes with
            | some c => c.map some
            | none => List.replicate e none)
        let sec := (if s.geoG8 g then 64 else 34) * e
        let inputs := a ++ qs ++ ds.flatMap (fun d =>
          s.memRead (d.addr + l * s.pageBytes g + h * sec) sec ++ s.memRead (d.addr + l * s.pageBytes g + s.geoHeads g * sec) 64)
        let bytes := ((List.range codes.length).zip codes).flatMap (fun x => match x.2 with
          | some c => toLe ob c
          | none => toLe ob (Config.attOpen inputs 0 x.1))
        let s1 := (s.useWindow tag dst).writeDva w dst bytes
        let s3 := bad.foldl (fun (c : State) k => c.kvUe k) s1
        let unknown := decide (bad ≠ []) || outs.any (fun x => x.nan)
        let t1 := ds.foldl (fun (x : Att) d =>
          let m := if unknown then Config.attOpen inputs 1 d.block % 2 ^ 31
            else
              let fr := outs.foldl (fun (c : Nat × Nat) y => match y.shares.find? (fun z => z.1 == d.block) with
                | some z => addFrac c z.2
                | none => c) (0, 1)
              fmtB32.round 0 false false fr.1 fr.2 0
          x.raise ri d.block m) t
        let t2 := { t1 with poisonRow := if bad ≠ [] ∧ (t1.poisonRow.isNone ∨ t1.poisonRow.any (fun x => ri < x)) then some ri else t1.poisonRow }
        let s5 := s3.setAtt tag t2
        (match s5.op tag with
          | some o1 => if outs.any (fun x => x.ovf) then s5.setOp tag { o1 with flags := o1.flags ||| 8 } else s5
          | none => s5, none)

/-- The work items of a panel, in order. -/
def State.attItems (s : State) (tag : Nat) (o : Op) (i : Nat) : List (Nat × Nat) → State × Option (Nat × Nat)
  | [] => (s, none)
  | (r, h) :: rest =>
    match s.attItem tag o i r h with
    | (s1, some f) => (s1, some f)
    | (s1, none) => s1.attItems tag o i rest

/-- After the last layer every row's blocks take their scores (R241). -/
def State.scoreRows (s : State) (o : Op) (t : Att) : State :=
  if leAt o.args 0x5C 4 = 1 then s
  else
    let decay := (s.word pgGLZ (r_GLZ_GEO_DECAY (leAt o.args 0x30 4 % 8))).toNat
    t.descs.foldl (fun (a : State) d =>
      let slot := (t.rows.getD d.row ⟨0, 0⟩).slot
      match a.seq slot with
      | none => a
      | some q => match smFind q.blocks d.block with
        | none => a
        | some b => if b.key ≠ d.key then a else
            a.setSeq slot { q with blocks := smPut q.blocks d.block { b with score := ffma b.score decay (smGet 0 t.mass (d.row * 32768 + d.block)) } }) s

/-- Marks the leaf entries of sequences that read poisoned sets, and tells their tenants. -/
def State.tellPoison (s : State) (t : Att) : State :=
  let bad := t.descs.filter (fun d => (s.pset d.key).any (fun x => x.poisoned))
  bad.foldl (fun (a : State) d =>
    let slot := (t.rows.getD d.row ⟨0, 0⟩).slot
    match a.seq slot with
    | none => a
    | some q => match smFind q.blocks d.block with
      | none => a
      | some b => (a.setSeq slot { q with blocks := smPut q.blocks d.block { b with poisoned := true } }).event (tenantPage q.tenant 6)
          ev_glzT_KV_POISONED) s

/-- Ends an ATTEND and takes its work off the panels. -/
def State.attEnd (s : State) (tag : Nat) (o : Op) (status detail : Nat) : State :=
  o.group.foldl (fun (a : State) p => a.workOff p tag) (s.glzEnd tag status detail)

/-- Writes a panel's descriptors to its scratch region; what else the region holds afterwards is not stated. -/
def State.scratchFill (s : State) (p k : Nat) (o : Op) (t : Att) : State :=
  let sc := leAt o.args 0x58 4
  let n := sc / 2048 * 4096
  let hds := s.geoHeads (leAt o.args 0x30 4 % 8)
  let bs := (t.descs.filter (fun d => holdsRow o.group.length hds k d.row)).flatMap PDesc.bytes
  let s1 := s.palWrite p (sc % 2048 * 4096) (bs ++ s.freeBytes (n - bs.length))
  { s1 with free := s1.free + n }

/-- Runs the next layer of an ATTEND on a panel of its group. -/
def State.attLayer (s : State) (p : Nat) (w : Work) (o : Op) (t : Att) : State :=
  let tag := w.tag
  let i := w.step
  let a := o.args
  let g := leAt a 0x30 4 % 8
  let l := leAt a 0x34 4 % 256 + i
  let lc := w.steps
  let late := (List.range t.rows.length).find? (fun r =>
    let x := t.rows.getD r ⟨0, 0⟩
    !(s.seq x.slot).any (fun q => decide (x.pos < smGet 0 q.lens l)))
  match late with
  | some r => s.attEnd tag o scKVNOTREADY r
  | none =>
    let n := o.group.length
    let hds := s.geoHeads g
    let items := (List.range t.rows.length).flatMap (fun r => ((List.range hds).filter (fun h => (r * hds + h) % n == w.g)).map (fun h => (r, h)))
    let s0 := if i = 0 then s.scratchFill p w.g o t else s
    match s0.attItems tag o i items with
    | (s1, some (st, d)) => s1.attEnd tag o st d
    | (s1, none) =>
      let pg := pnlPage p
      let s2 := ((s1.setWide pg r_PNL_CYCLES_LO (s1.wideOf pg r_PNL_CYCLES_LO + s1.freeBelow 1048577)).used).countUp pg r_PNL_STEPS 1
      let s3 := s2.setWork p { w with step := i + 1, done := decide (i + 1 = lc) }
      match s3.att tag, s3.op tag with
      | some t1, some o1 =>
        let t2 := { t1 with doneOn := t1.doneOn ++ [w.g] }
        if t2.doneOn.length < n then s3.setAtt tag t2
        else
          let s4 := (s3.setAtt tag { t2 with layer := i + 1, doneOn := [] }).layerSignal o1
          if i + 1 < lc then s4
          else
            let s5 := (s4.scoreRows o1 t2).tellPoison t2
            match t2.poisonRow with
            | some r => s5.attEnd tag o1 scKVPOISONED r
            | none => s5.attEnd tag o1 scOK 0
      | _, _ => s3

/-- ATTEND_LAYER_STEP on a panel: its head work is an ATTEND whose layer's wait is met. -/
def execAttendLayerStep (p : Fin 128) (now : DWord) (s : State) : Host.Outcome State Fault Refusal :=
  .next (match s.headWork p.val with
    | none => s
    | some w =>
      match s.op w.tag, s.att w.tag with
      | some o, some t =>
        if w.kind ≠ 1 ∨ !s.panelReady p.val ∨ o.status ≠ 0 ∨ o.abandoned ∨ s.writesOff o.tenant ∨ t.layer ≠ w.step ∨ !s.working pgGLZ then s
        else if w.step = 0 ∧ !(o.group.all (fun q => s.panelMode q != 0 || s.resident q == o.tenant)) then s
        else if s.waitPoisoned o.tenant o.d.wait0 then (s.at now.toNat).attEnd w.tag o scPOISON 0
        else if !s.layerReady o w.step then s
        else (s.at now.toNat).attLayer p.val w o t
      | _, _ => s)

end Sys2Proof.Machine
end

