-- ==== Sys2Proof/Machine/Diptych.lean ====
section
/-! DEFINITION. The Diptych pair (R181 to R192): pairing, heartbeats and roles, snapshots, hand-over, and the port. -/

namespace Sys2Proof.Machine

open Sys2Proof

/-! ### Pairing (R183) -/

/-- What the configuration digest covers for one paired domain: of its CAD page the registers that configure it, CAD_DOM_SAFE among them. -/
def State.pairParts (s : State) (d : Nat) : List Nat :=
  let pg := pgCAD d
  let cad := ((List.range 1024).filter (fun w => decide (64 ≤ w) && (w == r_CAD_DOM_SAFE || (rsvOf .cadDom w).any (fun r => r.2)))).map
    (fun w => (s.word pg w).toNat)
  let ept := (s.dom d).active.flatMap (fun e => [e.1, e.2.d0, e.2.d1, e.2.d2, e.2.d3])
  let tri := ((List.range 6).map (fun i => (s.word pgVAR0 (r_VAR_TRI_CHAN d + i)).toNat))
  let snap := (List.range 16).map (fun i => (s.word pgDIP (r_VAR_DIP_SNAP_W0 d 0 + i)).toNat)
  let carts := match s.resultCarts d with
    | some cs => cs.flatMap (fun c => c.image.map (fun b => b.toNat))
    | none => []
  cad ++ ept ++ tri ++ snap ++ carts

/-- The module's own digest. -/
def State.pairDigest (s : State) : List Byte := Config.sha384 (Config.pairBytes (s.pairedDoms.map (fun d => s.pairParts d)))

/-- Sends a pairing frame. -/
def State.sendPairing (s : State) : State :=
  s.dipSend [⟨0, 1, [Config.serial % 2 ^ 64, s.fld pgDIP f_VAR_DIP_CTRL_PREFER, s.role], s.pairDigest⟩]

/-- PAIRING_FRAME from the peer: the digests are compared and the roles settled. -/
def State.pairingFrame (s : State) (serial : Nat) (prefer : Bool) (role : Nat) (digest : List Byte) : State :=
  let s1 := s.setWide pgDIP r_VAR_DIP_PEER_SERIAL_LO serial
  let mine := s.fld pgDIP f_VAR_DIP_CTRL_PREFER == 1
  if digest ≠ s.pairDigest then
    let s2 := (s1.setFld pgDIP f_VAR_DIP_STATUS_CONFIG_MATCH 0).event pgDIP ev_dip_CONFIG_MISMATCH
    if s.role = 3 then s2 else s2.setRole 0
  else
    let s2 := s1.setFld pgDIP f_VAR_DIP_STATUS_CONFIG_MATCH 1
    if s.role = 3 then s2
    else if role = 3 then s2.setRole 1
    else if mine ∧ !prefer then s2.setRole 3
    else if prefer ∧ !mine then s2.setRole 1
    else if Config.serial % 2 ^ 64 < serial then s2.setRole 3 else s2.setRole 1

/-- PAIRING_FRAME. -/
def execPairingFrame (serial : DWord) (prefer : Bool) (role : Fin 8) (digest : List Byte) (s : State) :
    Host.Outcome State Fault Refusal :=
  .next (if s.dipReady then s.pairingFrame serial.toNat prefer role.val digest else s)

/-! ### Snapshot regions (R188) -/

def State.regKind (s : State) (d r : Nat) : Nat := s.fld pgDIP (f_VAR_DIP_SNAP_W0_KIND d r)
def State.regBytes (s : State) (d r : Nat) : Nat := if s.regKind d r = 0 then 0 else s.fld pgDIP (f_VAR_DIP_SNAP_W3_BYTES d r)
def State.regAddr (s : State) (d r : Nat) : Nat :=
  (s.word pgDIP (r_VAR_DIP_SNAP_W1 d r)).toNat + 2 ^ 32 * s.fld pgDIP (f_VAR_DIP_SNAP_W2_ADDR_HI d r)
def State.regTotal (s : State) (d : Nat) : Nat := ((List.range 4).map (fun r => s.regBytes d r)).foldl (· + ·) 0

/-- The panel at group index g of the RESULT group; of a channel's panels in a Triptych domain. -/
def State.regPanel (s : State) (d g c : Nat) : Nat :=
  match s.resultTpl d with
  | none => 0
  | some t =>
    let f := leAt (s.tplBytes d t) 52 4
    if s.triptych d then
      (if c = 0 then pgFirst f else s.fld pgVAR0 (if c = 1 then f_VAR_TRI_CHAN_FIRST1 d else f_VAR_TRI_CHAN_FIRST2 d)) + g
    else (s.groupOf (s.domOwner d) f).getD g 0

/-- One region's contents, none where its memory does not translate. -/
def State.regRead (s : State) (d r c : Nat) : Option (List Byte) :=
  if s.regKind d r = 1 then some (s.palRead (s.regPanel d (s.fld pgDIP (f_VAR_DIP_SNAP_W0_G d r)) c) (s.regAddr d r) (s.regBytes d r))
  else if s.regKind d r = 2 then
    match s.readDva (bareWho (s.domOwner d)) (s.regAddr d r) (s.regBytes d r) with
    | .ok b _ => some b
    | .bad _ _ => none
  else some []

/-- The regions in index order. -/
def State.regsRead (s : State) (d c : Nat) : Option (List Byte) :=
  let l := (List.range 4).map (fun r => s.regRead d r c)
  if l.all (fun x => x.isSome) then some (l.flatMap (fun x => x.getD [])) else none

/-- Writes one region. In a Triptych domain every channel that is IN takes a palette region. -/
def State.regWrite (s : State) (d r : Nat) (bs : List Byte) : State :=
  if s.regKind d r = 1 then
    let cs := if s.triptych d then (chans 7).filter (fun c => s.chState d c == 0) else [0]
    cs.foldl (fun (a : State) c => a.palWrite (a.regPanel d (a.fld pgDIP (f_VAR_DIP_SNAP_W0_G d r)) c) (a.regAddr d r) bs) s
  else if s.regKind d r = 2 then
    let w := bareWho (s.domOwner d)
    match s.writeFault w 0 (cuts (s.regAddr d r) bs.length) with
    | some (x, e) => s.mmuFault w x e true
    | none => s.writeDva w (s.regAddr d r) bs
  else s

/-- A snapshot is dropped or discarded. -/
def State.snapDrop (s : State) : State := (s.event pgDIP ev_dip_SNAP_DROPPED).countUp pgDIP r_VAR_DIP_CNT_SNAP_DROP 1

/-- The first region of a domain that cannot be written: its translation fails. -/
def State.regsFault (s : State) (d : Nat) : Option (Nat × Nat) :=
  (List.range 4).findSome? (fun r => if s.regKind d r = 2 then s.writeFault (bareWho (s.domOwner d)) 0 (cuts (s.regAddr d r) (s.regBytes d r)) else none)

/-- The instance of the last snapshot sent or applied, of a domain and of the module (R185, R194). -/
def State.lastSnapIs (s : State) (d n : Nat) : State :=
  (s.setDip { s.cad.dip with lastSnap := smPut s.cad.dip.lastSnap d n }).setFld pgDIP f_VAR_DIP_STATUS_LAST_SNAP n

/-- Takes a snapshot's contents into every region, never partly (R189): one whose regions cannot all be written is discarded. -/
def State.regsWrite (s : State) (d n : Nat) (bs : List Byte) : State :=
  match s.regsFault d with
  | some (x, e) => (s.mmuFault (bareWho (s.domOwner d)) x e true).snapDrop
  | none =>
    (((List.range 4).foldl (fun (q : State × List Byte) r => (q.1.regWrite d r (q.2.take (s.regBytes d r)), q.2.drop (s.regBytes d r))) (s, bs)).1).lastSnapIs
      d n

/-- A standby that holds a complete snapshot of every paired domain, aligned and with every domain RUNNING, leaves SYNCING (R183, R192). -/
def State.standbyCheck (s : State) : State :=
  if s.role = 1 ∧ s.fld pgDIP f_VAR_DIP_STATUS_ALIGNED = 1 ∧
     s.pairedDoms.all (fun d => (smFind s.cad.dip.held d).isSome && s.running (pgCAD d)) then s.setRole 2 else s

/-! ### Heartbeats (R184 to R186) -/

/-- HEARTBEAT_SEND: a period has passed. -/
def execHeartbeatSend (now : DWord) (s : State) : Host.Outcome State Fault Refusal :=
  .next (if s.running pgDIP then (s.at now.toNat).heartbeat else s)

/-- Whole cycles from H to the peer's H, rounded to the nearest; the spec leaves a tie open. -/
def cyclesTo (h peer : Int) (tieUp : Bool) : Int :=
  let x := sdiff peer h
  let q := (x + 2 ^ 31) / (2 ^ 32 : Int)
  if x % (2 ^ 32 : Int) = 2 ^ 31 ∧ !tieUp then q - 1 else q

/-- Shifts a domain's origin by whole cycles (R184): its positions and instance numbers rise by k. -/
def State.shiftDom (s : State) (d : Nat) (k : Int) : State :=
  let x := s.dom d
  let dz : Int := k * 2 ^ 32
  let sh := fun (n : Nat) => ((n : Int) + k).toNat
  let cc : Int := s.fld (pgCAD d) f_CAD_DOM_CYCLE_COUNTS
  s.setDom d { x with
    origin := x.origin.map (fun o => o - k * cc), p := x.p + dz, mLast := x.mLast + dz, h := x.h + dz, nextPos := x.nextPos + dz,
    pend := x.pend.map (fun e => (e.1, e.2 + dz)), holdEnd := x.holdEnd.map (fun e => e + dz), n0 := sh x.n0,
    skips := x.skips.map (fun r => (sh r.1, r.2.map sh)), lastN := if x.lastN < 0 then x.lastN else max 0 (x.lastN + k),
    inst := (x.inst.filter (fun e => decide (0 ≤ (e.1 : Int) + k))).map (fun e => (sh e.1, e.2)) }

/-- Alignment on a heartbeat from an ACTIVE peer: the first shifts the origins, each later one compares the fractions. -/
def State.alignTo (s : State) (doms : List HbDom) : State :=
  let ds := doms.filter (fun x => s.paired x.dom.val)
  if !s.cad.dip.peerDone then
    let s1 := ds.foldl (fun (a : State) x =>
      ((a.shiftDom x.dom.val (cyclesTo (a.dom x.dom.val).h x.h.toInt (a.freeBelow 2 == 0))).used).showDom x.dom.val) s
    (s1.setDip { s1.cad.dip with peerDone := true }).setFld pgDIP f_VAR_DIP_STATUS_ALIGNED 1
  else
    let off := ds.any (fun x =>
      let f := ((s.dom x.dom.val).h - x.h.toInt) % (2 ^ 32 : Int)
      decide (2 ^ 30 < min f (2 ^ 32 - f)))
    if off then
      let s1 := s.setFld pgDIP f_VAR_DIP_STATUS_ALIGNED 0
      if s.role = 2 then s1.setRole 1 else s1
    else s.setFld pgDIP f_VAR_DIP_STATUS_ALIGNED 1

/-- The role a heartbeat from the peer leads to (R186). -/
def State.heardRole (s : State) (peer : Nat) : State :=
  if s.role = 3 ∧ peer = 3 then (s.event pgDIP ev_dip_DUAL_ACTIVE).setRole 4
  else if s.role = 2 ∧ peer = 4 then s.setRole 3
  else if s.role = 4 ∧ peer = 3 then s.setRole 1
  else s

/-- Follows the peer's last driven words in the roles that neither drive nor hold (R181). -/
def State.followWords (s : State) (doms : List HbDom) : State :=
  if s.role = 3 ∨ s.role = 4 then s
  else doms.foldl (fun (a : State) x => if a.paired x.dom.val then a.resultOuts x.dom.val x.word.toNat else a) s

/-- HEARTBEAT_RECEIVE. -/
def execHeartbeatReceive (role : Fin 8) (p : Byte) (doms : List HbDom) (hand : Option Nat) (ack : Bool) (now : DWord) (s : State) :
    Host.Outcome State Fault Refusal :=
  .next (if !s.dipReady then s
    else
      let a := s.at now.toNat
      let x := a.cad.dip
      let mine := a.role
      let words := doms.foldl (fun (m : SMap Nat) e => smPut m e.dom.val e.word.toNat) x.peerWord
      let y := { x with misses := 0, heardActive := if role.val = 3 then a.time else x.heardActive, peerP := p.toNat, peerRole := role.val,
                        peerWord := words, hand := if mine = 2 then hand else x.hand,
                        handAck := if mine = 2 then hand.isSome else if mine = 3 then x.handAck || (ack && x.hand.isSome) else false }
      let s1 := (a.setDip y).setFld pgDIP f_VAR_DIP_STATUS_PEER_ACTIVE (if role.val = 3 then 1 else 0)
      let s2 := if role.val = 3 ∧ (mine = 1 ∨ mine = 2) then s1.alignTo doms else s1
      ((s2.heardRole role.val).standbyCheck).followWords doms)

/-- HB_MISS: a window has passed with no heartbeat. -/
def execHbMiss (now : DWord) (s : State) : Host.Outcome State Fault Refusal :=
  .next (if !s.running pgDIP then s
    else
      let a := s.at now.toNat
      let n := a.cad.dip.misses + 1
      let s1 := ((a.setDip { a.cad.dip with misses := n }).countUp pgDIP r_VAR_DIP_CNT_MISS 1).event pgDIP ev_dip_HB_MISS
      if s.role = 3 then s1.setRole 4
      else if s.role = 2 ∧ 3 ≤ n then s1.setRole 3
      else if s.role = 0 ∧ 3 ≤ n ∧ s.fld pgDIP f_VAR_DIP_CTRL_SOLO = 1 then s1.setRole 3
      else s1)

/-! ### Snapshots (R188, R189) -/

/-- May an instance's snapshot be sent: its SNAPSHOT has fired, its RESULT RUN has ended, with a result? -/
def State.snapDue (s : State) (d n : Nat) : Option Nat :=
  let i := (s.dom d).getInst n
  if s.paired d && s.role == 3 && i.snap && i.ended then i.chan else none

/-- Sends the snapshot of an instance. -/
def State.sendSnap (s : State) (d n c : Nat) : State :=
  let i := (s.dom d).getInst n
  let s1 := s.setInst d n { i with snap := false }
  let s2 := s1.setDip { s1.cad.dip with waiting := if s1.cad.dip.waiting = some (d, n) then none else s1.cad.dip.waiting }
  match s2.regsRead d c with
  | none => s2.snapDrop
  | some bs =>
    let lens := (List.range 4).map (fun r => s2.regBytes d r)
    let pieces := (List.range ((bs.length + 4095) / 4096)).map (fun i => (⟨0, 4, [d, n, i * 4096], sub bs (i * 4096) 4096⟩ : DipFrame))
    ((s2.setDip { s2.cad.dip with sending := some (d, n) }).dipSend
      (⟨0, 3, [d, n, low64 (s2.dom d).h, (s2.dom d).lastWord] ++ lens ++ [crc32c bs], []⟩ :: pieces)).lastSnapIs d n

/-- SNAPSHOT_START: one snapshot is in transit and one may wait behind it; a newer one replaces the one waiting. -/
def execSnapshotStart (d : Fin 16) (n : Nat) (s : State) : Host.Outcome State Fault Refusal :=
  .next (match s.snapDue d.val n with
    | none => s
    | some c =>
      if !s.dipReady then s
      else match s.cad.dip.sending, s.cad.dip.waiting with
        | none, _ => s.sendSnap d.val n c
        | some _, none => s.setDip { s.cad.dip with waiting := some (d.val, n) }
        | some _, some w =>
          if w = (d.val, n) then s
          else
            let i := (s.dom w.1).getInst w.2
            let s1 := (s.setInst w.1 w.2 { i with snap := false }).snapDrop
            s1.setDip { s1.cad.dip with waiting := some (d.val, n) })

/-- SNAPSHOT_RECEIVE: a snapshot has arrived whole. -/
def execSnapshotReceive (d : Fin 16) (n : Nat) (word : BitVec 16) (data : List Byte) (crc : Word) (s : State) :
    Host.Outcome State Fault Refusal :=
  .next (if !s.dipReady ∨ !s.paired d.val ∨ (s.role ≠ 1 ∧ s.role ≠ 2) then s
    else if crc32c data ≠ crc.toNat ∨ data.length ≠ s.regTotal d.val then s.snapDrop
    else
      let x := s.cad.dip
      let y := { x with held := smPut x.held d.val n, peerWord := smPut x.peerWord d.val word.toNat }
      let s1 := if s.fld pgDIP f_VAR_DIP_CTRL_SHADOW_RUN = 0 then
          (s.setDip y).regsWrite d.val n data
        else s.setDip { y with snaps := smPut y.snaps d.val ⟨n, data⟩ }
      s1.standbyCheck)

/-- SNAPSHOT_COMPARE: the standby's own instance has ended. -/
def execSnapshotCompare (d : Fin 16) (s : State) : Host.Outcome State Fault Refusal :=
  .next (match smFind s.cad.dip.snaps d.val with
    | none => s
    | some x =>
      let i := (s.dom d.val).getInst x.n
      if !i.ended then s
      else
        let s1 := s.setDip { s.cad.dip with snaps := smDel s.cad.dip.snaps d.val }
        if s.regsRead d.val (i.chan.getD 0) = some x.data then s1.lastSnapIs d.val x.n
        else ((s1.regsWrite d.val x.n x.data).event pgDIP ev_dip_DIVERGED).countUp pgDIP r_VAR_DIP_CNT_DIVERGED 1)

/-! ### Commands of owner software (R190) -/

/-- The first instance whose DEADLINE is predicted at least 200 µs from now. -/
def State.handInstance (s : State) (d : Nat) : Nat :=
  let x := s.dom d
  let pos := s.predict d s.time + tdiv (x.v * 200000) 65536
  let base := match s.resultTpl d with
    | none => 0
    | some t => ((duesOf x.active t).head?.map (fun e => e.2.base)).getD 0
  (-((base - pos) / (2 ^ 32 : Int))).toNat

/-- A write of VAR_DIP_CMD. -/
def State.dipCmd (s : State) (v : Word) : State :=
  let s1 := s.noteRsv pgDIP r_VAR_DIP_CMD v
  let cmd := fldGet v f_VAR_DIP_CMD_CMD
  let x := s1.cad.dip
  if fldGet v f_VAR_DIP_CMD_KEY ≠ 0x4450 ∨ !s1.running pgDIP then s1.discard pgDIP
  else if cmd = 2 ∧ s1.role = 3 ∧ x.peerRole = 2 then
    match s1.handDomain with
    | some d => s1.setDip { x with hand := some (s1.handInstance d), handAck := false }
    | none => s1.discard pgDIP
  else if cmd = 1 ∧ s1.role = 0 ∧ x.heardActive + 3 * (x.peerP + 25) * 1000 ≤ s1.time then s1.setRole 3
  else s1.discard pgDIP

/-- HANDOVER. -/
def execHandover (v : Word) (now : DWord) (s : State) : Host.Outcome State Fault Refusal :=
  .next (s.via 0 (fun a => (a.at now.toNat).dipCmd v))

/-- TAKE_ACTIVE. -/
def execTakeActive (v : Word) (now : DWord) (s : State) : Host.Outcome State Fault Refusal :=
  .next (s.via 0 (fun a => (a.at now.toNat).dipCmd v))

/-- VAR_DIP_PEER_SERIAL_READ. -/
def execVarDipPeerSerialRead (s : State) : Host.Outcome State Fault Refusal :=
  .next (s.via 0 (fun a => a.readWide pgDIP r_VAR_DIP_PEER_SERIAL_LO))

/-! ### The port (R191) -/

/-- Frames up to a sequence number are acknowledged: their credits return, and frames that wait are sent. -/
def State.dipAcked (s : State) (seq : Nat) : State :=
  let x := s.cad.dip
  let gone := x.unacked.filter (fun f => decide (f.seq ≤ seq))
  let keep := x.unacked.filter (fun f => decide (seq < f.seq))
  let s1 := (s.move pgDIP 0 .transit .held (s.ledger pgDIP 0).transit).move pgDIP 0 .held .free gone.length
  (s1.setDip { x with unacked := keep, replays := if gone = [] then x.replays else 0,
                      sending := if keep.any DipFrame.snap || x.queue.any DipFrame.snap then x.sending else none }).dipPump 64

/-- DIPTYCH_FRAME_RECEIVE: a frame whose CRC holds is delivered once, in sequence; one that arrived before is discarded. -/
def execDiptychFrameReceive (seq : Nat) (crcOk corrected : Bool) (acked : Nat) (s : State) : Host.Outcome State Fault Refusal :=
  .next (if s.fld pgDIP f_VAR_DIP_STATUS_LINK ≠ 2 ∨ !crcOk then s
    else
      let s1 := s.dipAcked acked
      let x := s1.cad.dip
      if seq ≠ x.rxSeq + 1 then s1
      else
        let s2 := s1.setDip { x with rxSeq := seq }
        if corrected then s2.report pgDIP 1 0 0 false else s2)

/-- DIPTYCH_RETRY_TIMEOUT: the oldest unacknowledged frame is sent again; after 4 replays or 10 µs it is given up and the link retrains. -/
def execDiptychRetryTimeout (expired : Bool) (s : State) : Host.Outcome State Fault Refusal :=
  .next (match s.cad.dip.unacked with
    | [] => s
    | f :: _ =>
      if s.fld pgDIP f_VAR_DIP_STATUS_LINK ≠ 2 then s
      else if expired ∨ 4 ≤ s.cad.dip.replays then
        ((s.setDip { s.cad.dip with replays := 0 }).setFld pgDIP f_VAR_DIP_STATUS_LINK 1).report pgDIP 3 0 0 false
      else (s.setDip { s.cad.dip with replays := s.cad.dip.replays + 1 }).emit
        ⟨.diptych, 0, [f.kind, f.seq] ++ f.words, f.bytes⟩)

/-- The Diptych's spare lane takes a lane's place (R191). -/
def State.dipLaneSwap (s : State) (lane : Nat) : State :=
  if s.fld pgDIP f_VAR_DIP_STATUS_LINK = 0 ∨ s.fld pgDIP f_VAR_DIP_STATUS_SPARE_LANE = 1 then s
  else
    let s1 := (s.setFld pgDIP f_VAR_DIP_STATUS_SPARE_LANE 1).report pgDIP 2 lane 0 false
    s1.journal (s1.mkRec spLANE 0 false pgDIP 0 0 lane 0 [8, lane])

/-- DIPTYCH_LANE_SWAP: the spare takes a failing lane's place, and the spare map records it. -/
def execDiptychLaneSwap (lane : Fin 3) (s : State) : Host.Outcome State Fault Refusal :=
  .next (s.dipLaneSwap lane.val)

/-- DIPTYCH_LINK_DOWN: loss of signal. A snapshot arriving is discarded. -/
def execDiptychLinkDown (partialSnap : Bool) (s : State) : Host.Outcome State Fault Refusal :=
  .next (if s.fld pgDIP f_VAR_DIP_STATUS_LINK = 0 then s
    else
      let s1 := (s.setFld pgDIP f_VAR_DIP_STATUS_LINK 0).event pgDIP ev_dip_LINK_DOWN
      if partialSnap then s1.snapDrop else s1)

/-- DIPTYCH_LINK_DOWN_TIMEOUT: held and in-transit credits are reclaimed, and a snapshot in transit is discarded whole. -/
def execDiptychLinkDownTimeout (s : State) : Host.Outcome State Fault Refusal :=
  .next (if s.fld pgDIP f_VAR_DIP_STATUS_LINK ≠ 0 then s
    else
      let s1 := (s.reclaim pgDIP 0 .held (s.ledger pgDIP 0).held).reclaim pgDIP 0 .transit (s.ledger pgDIP 0).transit
      let s2 := s1.setDip { s1.cad.dip with unacked := [], queue := [], sending := none, replays := 0 }
      if s.cad.dip.sending.isSome then s2.snapDrop else s2)

/-- DIPTYCH_LINK_UP: the link comes up, from DOWN or after training, and a running pair exchanges pairing frames. -/
def execDiptychLinkUp (s : State) : Host.Outcome State Fault Refusal :=
  .next (if s.fld pgDIP f_VAR_DIP_STATUS_LINK = 2 ∨ !s.domainOn pgDIP then s
    else
      let s1 := (s.setFld pgDIP f_VAR_DIP_STATUS_LINK 2).event pgDIP ev_dip_LINK_UP
      s1.sendPairing)

/-- VAR page 1 enters RUNNING: UNPAIRED with ROLE_OUT low (R181), nothing heard, and a pairing frame is sent (R183). -/
def State.dipStart (s : State) : State :=
  let x := s.cad.dip
  let y : DipSt := { x with misses := 0, heardActive := s.time, peerP := 100, peerRole := 0, peerWord := [], peerDone := false, hand := none,
                            handAck := false, snaps := [], held := [], sending := none, waiting := none, queue := x.queue.filter (fun f => !f.snap),
                            lastSnap := [] }
  let s1 := ((s.setDip y).setRole 0).roleOut false
  ((s1.setFld pgDIP f_VAR_DIP_STATUS_ALIGNED 0).setFld pgDIP f_VAR_DIP_STATUS_CONFIG_MATCH 0).sendPairing

end Sys2Proof.Machine
end

