-- ==== Sys2Proof/Machine/Memory.lean ====
section
/-! DEFINITION. The commands of Studio banks, march tests, retirement, clearing and Fresco (12): one meaning per command, over the operations stated beside them. -/

namespace Sys2Proof.Machine

open Sys2Proof

/-! ### Studio banks (R289 to R293) -/

def ownerNone : Nat := 0x3F

/-- Starts a bank hand-over (R290): the bank is in transit from now on. -/
def State.handoverStart (s : State) (n : Nat) (h : Handover) : State :=
  let old := s.fld pgSTU (f_STU_BANK_OWNER n)
  let s1 := s.setFld pgSTU (f_STU_BANK_STATE n) 1
  let s2 := s1.move pgSTU 0 (if old = ownerNone then .free else .held) .transit 1
  { s2 with mem := { s2.mem with hand := smPut s2.mem.hand n h } }

/-- A write of STU_BANKn (R290, R307). -/
def State.stuBankWrite (s : State) (n : Nat) (v : Word) : State :=
  let owner := fldGet v (f_STU_BANK_OWNER n)
  let guest := fldGet v (f_STU_BANK_GUEST n)
  if (32 < owner ∧ owner ≠ ownerNone) ∨ 4 < guest ∨ !s.running pgSTU ∨ s.bankState n ≠ 0 ∨
     (owner ≠ ownerNone ∧ owner ≠ s.fld pgSTU (f_STU_BANK_OWNER n) ∧ !s.tenantRunning owner) then s.discard pgSTU
  else if owner ≠ s.fld pgSTU (f_STU_BANK_OWNER n) then s.handoverStart n ⟨owner, guest, false, false⟩
  else if guest ≠ s.fld pgSTU (f_STU_BANK_GUEST n) then s.handoverStart n ⟨owner, guest, true, false⟩
  else s

/-- Ends a bank hand-over (R290 steps 3 and 4). -/
def State.handoverEnd (s : State) (n : Nat) (h : Handover) : State :=
  let old := s.fld pgSTU (f_STU_BANK_OWNER n)
  let s1 := if h.owner ≠ old ∧ old ≠ ownerNone then s.memZero (studioBase + n * 0x400000) 0x400000 else s
  let s2 := ((s1.setFld pgSTU (f_STU_BANK_OWNER n) h.owner).setFld pgSTU (f_STU_BANK_GUEST n) h.guest).setFld pgSTU (f_STU_BANK_STATE n) 0
  let s3 := if h.reclaim then s2.reclaim pgSTU 0 .transit 1
    else s2.move pgSTU 0 .transit (if h.owner = ownerNone then .free else .held) 1
  ({ s3 with mem := { s3.mem with hand := smDel s3.mem.hand n } }).event pgSTU ev_stu_HANDOVER_DONE

/-- BANK_HANDOVER (R290). -/
def execBankHandover (n : Fin 32) (v : Word) (s : State) : Host.Outcome State Fault Refusal :=
  .next (s.via 0 (fun a => (a.noteRsv pgSTU (r_STU_BANK n.val) v).stuBankWrite n.val v))

/-- BANK_GUEST_CHANGE (R290): a write of STU_BANKn whose OWNER is the one in force. -/
def execBankGuestChange (n : Fin 32) (guest : Fin 8) (s : State) : Host.Outcome State Fault Refusal :=
  .next (s.via 0 (fun a => a.stuBankWrite n.val (fldPut (s.word pgSTU (r_STU_BANK n.val)) (f_STU_BANK_GUEST n.val) guest.val)))

/-- HANDOVER_DONE (R290). -/
def execHandoverDone (n : Fin 32) (s : State) : Host.Outcome State Fault Refusal :=
  .next (match smFind s.mem.hand n.val with
    | some h => s.handoverEnd n.val h
    | none => s)

/-! ### March tests (R300, R301) -/

/-- Page of a tier: 0 Studio, 1 HBM, 2 Loft. -/
def tierPage (t : Nat) : Nat := if t = 0 then pgSTU else if t = 1 then pgHBM else pgLFT

/-- Frames of a tier, and the owner-table number of its first frame. -/
def tierFrames (t : Nat) : Nat := if t = 1 then 196608 else 262144
def tierFrame0 (t : Nat) : Nat := if t = 1 then 0 else 0x40000

/-- Is a START refused (R301)? -/
def State.marchRefused (s : State) (t : Nat) : Bool :=
  let pg := tierPage t
  let base := s.fld pg f_HBM_MARCH_BASE_BASE
  let n := s.fld pg f_HBM_MARCH_SIZE_FRAMES
  let destr := s.fld pg f_HBM_MARCH_CTRL_MODE == 0
  !s.running pg || s.fld pg f_HBM_MARCH_STATUS_BUSY == 1 || s.fld pg f_HBM_MARCH_CTRL_BACKGROUNDS == 3 ||
  (if t = 0 then n != 1 || base ≥ 32 || (destr && !(s.fld pg (f_STU_BANK_OWNER base) == ownerNone && s.bankState base == 0))
   else n == 0 || tierFrames t < base + n || (destr && (List.range n).any (fun i => s.frameKind (tierFrame0 t + base + i) != kFREE)))

/-- Starts a march test over the target its registers name. -/
def State.marchGo (s : State) (t : Nat) : State :=
  let pg := tierPage t
  let base := s.fld pg f_HBM_MARCH_BASE_BASE
  let n := s.fld pg f_HBM_MARCH_SIZE_FRAMES
  let destr := s.fld pg f_HBM_MARCH_CTRL_MODE == 0
  let m : March := ⟨base, n, destr, s.fld pg f_HBM_MARCH_CTRL_RETIRE == 1⟩
  let s1 := { s.setWord pg r_HBM_MARCH_STATUS 1 with mem := { s.mem with march := smPut s.mem.march t m } }
  if !destr then s1
  else if t = 0 then (s1.setFld pg (f_STU_BANK_STATE base) 2).move pgSTU 0 .free .transit 1
  else s1.setFrames (tierFrame0 t + base) n kTEST 0

/-- A write of xxx_MARCH_CMD (R301). -/
def State.marchCmd (s : State) (t : Nat) (v : Word) : State :=
  let pg := tierPage t
  if fldGet v f_HBM_MARCH_CMD_START = 0 then s
  else if fldGet v f_HBM_MARCH_CMD_KEY ≠ 0x4D43 then s.discard pg
  else if s.marchRefused t then (s.setFld pg f_HBM_MARCH_STATUS_REFUSED 1).discard pg
  else s.marchGo t

/-- MARCH_START (R301). -/
def execMarchStart (tier : Fin 3) (v : Word) (s : State) : Host.Outcome State Fault Refusal :=
  .next (s.via 0 (fun a => (a.noteRsv (tierPage tier.val) r_HBM_MARCH_CMD v).marchCmd tier.val v))

/-- A piece is due for retirement. -/
def State.retireLater (s : State) (piece : Nat) : State :=
  if (smFind s.mem.retired piece).isSome then s
  else { s with mem := { s.mem with retireDue := smSet false s.mem.retireDue piece true } }

/-- Does a word lie in a march test's target? -/
def marchIn (t : Nat) (m : March) (a : Nat) : Bool :=
  if t = 0 then studioBase + m.base * 0x400000 ≤ a && a < studioBase + (m.base + 1) * 0x400000
  else tierPage t == storePage (storeOf a) && tierFrame0 t + m.base ≤ frameOf a && frameOf a < tierFrame0 t + m.base + m.frames

/-- Ends a march test that found the failing words at the module addresses given (R300). -/
def State.marchEnd (s : State) (t : Nat) (m : March) (fails : List Nat) : State :=
  let pg := tierPage t
  let st := (if fails.isEmpty then 0 else 2) + 100 * 256 + min fails.length 65535 * 65536
  let s1 := { s.setWord pg r_HBM_MARCH_STATUS (BitVec.ofNat 32 st) with mem := { s.mem with march := smDel s.mem.march t } }
  let s2 := match fails with
    | [] => s1
    | a :: _ => s1.setWide pg r_HBM_MARCH_FAIL_LO a
  let s3 := if m.destructive then
      (if t = 0 then ((s2.memZero (studioBase + m.base * 0x400000) 0x400000).setFld pg (f_STU_BANK_STATE m.base) 0).move pgSTU 0 .transit .free 1
       else ((List.range m.frames).foldl (fun (a : State) i => a.zeroFrame (tierFrame0 t + m.base + i)) s2).freeFrames
         (tierFrame0 t + m.base) m.frames)
    else s2
  let s4 := if m.retire ∧ t ≠ 0 then fails.foldl (fun (a : State) x => a.retireLater (x / 4096)) s3 else s3
  s4.event pg (if t = 0 then ev_stu_MARCH_DONE else ev_hbm_MARCH_DONE)

/-- MARCH_DONE (R300): the test ends with the failing words' module addresses. -/
def execMarchDone (tier : Fin 3) (fails : List Nat) (s : State) : Host.Outcome State Fault Refusal :=
  .next (match smFind s.mem.march tier.val with
    | some m => s.marchEnd tier.val m (fails.filter (marchIn tier.val m))
    | none => s)

/-- MARCH_FAIL_READ (R301). -/
def execMarchFailRead (tier : Fin 3) (s : State) : Host.Outcome State Fault Refusal :=
  .next (s.via 0 (fun a => a.readWide (tierPage tier.val) r_HBM_MARCH_FAIL_LO))

/-! ### Retirement and clearing (R298, R299) -/

/-- Retires a piece that is due: it takes a free piece of its stack's or package's reserve, or, with none left, its frame becomes BAD. -/
def State.retirePiece (s : State) (piece : Nat) : State :=
  let a := piece * 4096
  let loft := decide (loftBase ≤ a)
  let pg := if loft then pgLFT else pgHBM
  let home := pieceHome a
  let s0 := { s with mem := { s.mem with retireDue := smSet false s.mem.retireDue piece false } }
  let n := s0.reserveFree loft home
  if n = 0 then
    let f := frameOf a
    let s1 := { s0 with mem := { s0.mem with badDue := smSet false s0.mem.badDue f true } }
    let s2 := if s1.frameKind f = kFREE then s1.freeFrame f else s1
    (s2.event pg ev_hbm_RESERVE_EXHAUSTED).report pg 5 a 0 false
  else
    let s1 := { s0 with mem := { s0.mem with retired := smPut s0.mem.retired piece (reserveSize loft - n) } }
    let s2 := (s1.countUp pg (if loft then r_LFT_CNT_RETIRED else r_HBM_CNT_RETIRED) 1).event pg ev_hbm_RETIRED
    let s3 := (s2.report pg 4 a 0 false)
    let s4 := s3.journal (s3.mkRec spREMAP 0 false pg 4 0 a 0 [(if loft then 1 else 0) + 256 * home, piece, reserveSize loft - n])
    if n - 1 < reserveSize loft / 16 ∧ reserveSize loft / 16 ≤ n then s4.event pg ev_hbm_RESERVE_LOW else s4

/-- RETIRED (R298). -/
def execPieceRetired (piece : Nat) (s : State) : Host.Outcome State Fault Refusal :=
  .next (if smGet false s.mem.retireDue piece then s.retirePiece piece else s)

/-- Writes a tier to zero with valid check bits. -/
def State.clearTier (s : State) (loft : Bool) : State :=
  if loft then s.memZero loftBase 0x8000000000 else s.memZero 0 0x6000000000

/-- CLEAR_DONE (R299): HBM or Loft clearing ends; DONE becomes 1. -/
def execClearDone (loft : Bool) (s : State) : Host.Outcome State Fault Refusal :=
  let pg := if loft then pgLFT else pgHBM
  let r := if loft then r_LFT_CLEAR else r_HBM_CLEAR
  .next (if bitOf (s.word pg r) 31 ∨ (s.pow.phase ≠ .ready ∧ s.pow.phase ≠ .released) then s
    else ((s.clearTier loft).setWord pg r 0x80000064#32).event pg ev_hbm_CLEAR_DONE)

/-! ### Fresco (R302 to R306) -/

def frOK : Nat := 0
def frINVALID : Nat := 1
def frACCESS : Nat := 2
def frRANGE : Nat := 3
def frMEDIA : Nat := 4
def frTRANSLATION : Nat := 5
def frWORN : Nat := 6

/-- A write of FRS_RING_TAIL (R305, R310). -/
def State.frsTail (s : State) (v : Word) : State :=
  let head := s.fld pgFRS f_FRS_RING_HEAD_HEAD
  let new := fldGet v f_FRS_RING_TAIL_TAIL
  if 2 ^ s.fld pgFRS f_FRS_RING_CFG_LOG2 < (new + 65536 - head) % 65536 then s.discard pgFRS
  else s.setFld pgFRS f_FRS_RING_TAIL_TAIL new

/-- FRESCO_RING_TAIL (R305). -/
def execFrescoRingTail (v : Word) (s : State) : Host.Outcome State Fault Refusal :=
  .next (s.via 0 (fun a => (a.noteRsv pgFRS r_FRS_RING_TAIL v).frsTail v))

/-- DVA of a slot of the Fresco ring. -/
def State.frsSlot (s : State) (c : Nat) : Nat :=
  (s.word pgFRS r_FRS_RING_BASE_LO).toNat + 2 ^ 32 * s.fld pgFRS f_FRS_RING_BASE_HI_BASE + 32 * (c % 2 ^ s.fld pgFRS f_FRS_RING_CFG_LOG2)

/-- A partition's word in the layout that Fresco keeps (R304): the module's own are fixed. -/
def State.partWord (s : State) (p : Nat) : Word :=
  if p < 5 then resetWord pgFRS (r_FRS_PART p) else BitVec.ofNat 32 (smGet 0 s.mem.layout p)

/-- Blocks of a partition's word; none where it is not VALID. -/
def wordBlocks (p : Nat) (w : Word) : Nat := if fldGet w (f_FRS_PART_VALID p) = 1 then fldGet w (f_FRS_PART_MIB p) * 256 else 0
def State.partBlocks (s : State) (p : Nat) : Nat := wordBlocks p (s.partWord p)
def State.partKind (s : State) (p : Nat) : Nat := fldGet (s.partWord p) (f_FRS_PART_KIND p)

/-- Where a block's bytes and its mark lie. -/
def flashAt (p lba : Nat) : Nat := p * 2 ^ 43 + lba * 4096
def flashKey (p lba : Nat) : Nat := p * 2 ^ 31 + lba

/-- The status of a command before any data moves (R304, R305). -/
def State.frsStatus (s : State) (b : List Byte) : Nat :=
  let op := leAt b 0 1
  let p := leAt b 1 1
  let n := leAt b 4 4
  if op = 0 ∨ 4 < op ∨ 16 ≤ p ∨ leAt b 2 2 ≠ 0 ∨ leAt b 26 2 ≠ 0 ∨ (op = 4 ∧ n ≠ 0) ∨ (op ≠ 4 ∧ (n = 0 ∨ 65536 < n)) ∨
     (op ≤ 2 ∧ leAt b 16 8 % 4096 ≠ 0) then frINVALID
  else if p = 0 ∨ p = 1 ∨ p = 4 ∨ (p < 5 ∧ op ≠ 1) then frACCESS
  else if op ≠ 4 ∧ s.partBlocks p < leAt b 8 8 + n then frRANGE
  else if op = 2 ∧ s.fld pgFRS f_FRS_STATUS_WORN = 1 then frWORN
  else frOK

/-- Takes the slot at HEAD when the page runs and its OP is the one given or none defined (R305): HEAD counts it and a command slot is
held. -/
def State.frsTake (s : State) (op : Nat) (f : State → List Byte → Nat → State) : State :=
  let head := s.fld pgFRS f_FRS_RING_HEAD_HEAD
  if !s.running pgFRS || head == s.fld pgFRS f_FRS_RING_TAIL_TAIL || 64 ≤ s.mem.frsCmds.length then s
  else
    let up := fun (a : State) => a.setFld pgFRS f_FRS_RING_HEAD_HEAD (head + 1)
    match s.readDva (bareWho 0) (s.frsSlot head) 32 with
    | .bad d e => up (s.mmuFault (bareWho 0) d e false)
    | .ok b _ =>
      let o := leAt b 0 1
      if o = op ∨ o = 0 ∨ 4 < o then
        (let s1 := (up s).move pgFRS 0 .free .held 1
         let st := s1.frsStatus b
         if st ≠ frOK then f s1 b st else f s1 b frOK)
      else s

/-- A command finishes: its slot is in transit until it is written. -/
def State.frsFinish (s : State) (b : List Byte) (status detail : Nat) : State :=
  let slot := (s.fld pgFRS f_FRS_RING_HEAD_HEAD + 65535) % 65536
  let c : FrsCmd := ⟨slot, leAt b 0 1, leAt b 1 1, leAt b 4 4, leAt b 8 8, leAt b 16 8, true, status, detail⟩
  ({ s with mem := { s.mem with frsCmds := s.mem.frsCmds ++ [c] } }).move pgFRS 0 .held .transit 1

/-- A NAND block that fails to program or erase is retired from over-provisioning; SPARES_LOW and WORN follow the spare blocks (R302). -/
def State.spareLost (s : State) : State :=
  let n := (s.word pgFRS r_FRS_SPARE_BLOCKS).toNat - 1
  let mark := fun (a : State) (below : Bool) (f : Fld) (e : Nat) => if below && a.fld pgFRS f == 0 then (a.setFld pgFRS f 1).event pgFRS e else a
  let s1 := s.setWord pgFRS r_FRS_SPARE_BLOCKS (BitVec.ofNat 32 n)
  mark (mark s1 (decide (n * 100 < 2 * Config.nandBlocks)) f_FRS_STATUS_SPARES_LOW ev_frs_SPARES_LOW) (decide (n * 1000 < 5 * Config.nandBlocks))
    f_FRS_STATUS_WORN ev_frs_WORN

/-- A block ends MEDIA_ERROR (R306). -/
def State.mediaUe (s : State) (p lba : Nat) : State :=
  let s1 := { s with mem := { s.mem with flashBad := smSet false s.mem.flashBad (flashKey p lba) true } }
  ((s1.countUp pgFRS r_FRS_CNT_MEDIA_UE 1).event pgFRS ev_frs_MEDIA_UE).report pgFRS 2 (p * 2 ^ 60 + lba) 0 false

/-- Reads one block into owner memory at `d`; the address and reason of the fault where it is not written. -/
def State.frsBlock (s : State) (p i d : Nat) : State × Option (Nat × Nat) :=
  match s.writeFault (bareWho 0) 0 (cuts d 4096) with
  | some f => (s, some f)
  | none => (s.writeDva (bareWho 0) d (cRead s.mem.flash (flashAt p i) 4096), none)

/-- Reads the blocks of a command into owner memory; those that fail stay untransferred. -/
def State.frsRead (s : State) (b : List Byte) (media : List Nat) : State :=
  let p := leAt b 1 1
  let lba := leAt b 8 8
  let n := leAt b 4 4
  let bad := fun (i : Nat) => media.contains i || smGet false s.mem.flashBad (flashKey p (lba + i))
  let s1 := ((List.range n).filter bad).foldl (fun (a : State) i => a.mediaUe p (lba + i)) s
  let r := (List.range n).foldl (fun (a : State × Option (Nat × Nat)) i =>
    if a.2.isSome || bad i then a
    else a.1.frsBlock p (lba + i) (leAt b 16 8 + 4096 * i)) (s1, none)
  match r.2, (List.range n).find? bad with
  | some (d, e), _ => (r.1.mmuFault (bareWho 0) d e true).frsFinish b frTRANSLATION 0
  | none, some i => r.1.frsFinish b frMEDIA i
  | none, none => r.1.frsFinish b frOK 0

/-- FRESCO_READ (R305): `media` lists the command's blocks that cannot be read after every retry. -/
def execFrescoRead (media : List Nat) (s : State) : Host.Outcome State Fault Refusal :=
  .next (s.frsTake 1 (fun a b st => if st = frOK then a.frsRead b media else a.frsFinish b st 0))

/-- Removes the marks and bytes of a run of blocks. -/
def State.flashClear (s : State) (p lba n : Nat) : State :=
  { s with mem := { s.mem with flash := cClear s.mem.flash (flashAt p lba) (n * 4096), flashBad := markClear s.mem.flashBad (flashKey p lba) n,
                               buffered := s.mem.buffered.filter (fun k => decide (k < flashKey p lba ∨ flashKey p lba + n ≤ k)) } }

/-- The FRS page enters RUNNING: its layout is kept in Fresco, and every partition whose start or size has changed is trimmed (R304). -/
def State.frsEnter (s : State) : State :=
  let new := fun (p : Nat) => if p < 5 then s.partBlocks p else wordBlocks p (s.word pgFRS (r_FRS_PART p))
  let start := fun (f : Nat → Nat) (p : Nat) => ((List.range p).map f).sum
  let s1 := (List.range 16).foldl (fun (a : State) p =>
    if new p = s.partBlocks p ∧ start new p = start s.partBlocks p then a else a.flashClear p 0 (s.partBlocks p)) s
  { s1 with mem := { s1.mem with
      layout := (List.range 11).foldl (fun (m : SMap Nat) i => smSet 0 m (i + 5) (s.word pgFRS (r_FRS_PART (i + 5))).toNat) s1.mem.layout } }

/-- Counts bytes written by any user (FRS_WRITTEN_GIB). -/
def State.flashWrote (s : State) (n : Nat) : State :=
  let t := s.wideOf pgFRS r_FRS_WRITTEN_GIB + n
  (s.setWide pgFRS r_FRS_WRITTEN_GIB t).setWord pgFRS r_FRS_WRITTEN_GIB (BitVec.ofNat 32 (t / 2 ^ 30))

/-- Puts bytes into a run of blocks, held in the write buffer until programmed. -/
def State.flashPut (s : State) (p lba n : Nat) (bs : List Byte) : State :=
  let s1 := s.flashClear p lba n
  let held := s1.mem.buffered ++ (List.range n).map (fun i => flashKey p (lba + i))
  { s1 with mem := { s1.mem with flash := cWrite s1.mem.flash (flashAt p lba) bs, buffered := held.drop (held.length - 8192) } }

/-- Writes owner memory to the blocks of a command. -/
def State.frsWrite (s : State) (b : List Byte) : State :=
  match s.readDva (bareWho 0) (leAt b 16 8) (leAt b 4 4 * 4096) with
  | .bad d e => (s.mmuFault (bareWho 0) d e false).frsFinish b frTRANSLATION 0
  | .ok bs _ => ((s.flashPut (leAt b 1 1) (leAt b 8 8) (leAt b 4 4) bs).flashWrote (leAt b 4 4 * 4096)).frsFinish b frOK 0

/-- FRESCO_WRITE (R305). -/
def execFrescoWrite (s : State) : Host.Outcome State Fault Refusal :=
  .next (s.frsTake 2 (fun a b st => if st = frOK then a.frsWrite b else a.frsFinish b st 0))

/-- FRESCO_TRIM (R305). -/
def execFrescoTrim (s : State) : Host.Outcome State Fault Refusal :=
  .next (s.frsTake 3 (fun a b st =>
    if st = frOK then (a.flashClear (leAt b 1 1) (leAt b 8 8) (leAt b 4 4)).frsFinish b frOK 0 else a.frsFinish b st 0))

/-- FRESCO_FLUSH (R306): every earlier WRITE is programmed before it completes. -/
def execFrescoFlush (s : State) : Host.Outcome State Fault Refusal :=
  .next (s.frsTake 4 (fun a b st =>
    if st = frOK then ({ a with mem := { a.mem with buffered := [] } }).frsFinish b frOK 0 else a.frsFinish b st 0))

/-- Writes a finished command's slot bytes 24 to 31 at `a`, DONE after the others (R305). -/
def State.frsAnswer (s : State) (c : FrsCmd) (a : Nat) : State :=
  match s.writeFault (bareWho 0) 0 (cuts a 8) with
  | some (d, e) => s.mmuFault (bareWho 0) d e true
  | none => (s.writeDva (bareWho 0) a (toLe 1 c.status ++ [0] ++ toLe 2 0 ++ toLe 4 c.detail)).writeDva (bareWho 0) (a + 1) [1]

/-- Answers a finished command and gives its slot back. -/
def State.frsPost (s : State) (c : FrsCmd) : State :=
  let s0 := { s with mem := { s.mem with frsCmds := s.mem.frsCmds.filter (fun x => x != c) } }
  ((s0.frsAnswer c (s.frsSlot c.slot + 24)).move pgFRS 0 .transit .free 1).event pgFRS ev_frs_CMD_DONE

/-- CMD_DONE (R306): the finished command of a ring slot writes its slot. -/
def execCmdDone (slot : Fin 65536) (s : State) : Host.Outcome State Fault Refusal :=
  .next (match s.mem.frsCmds.find? (fun c => c.done && c.slot == slot.val) with
    | some c => s.frsPost c
    | none => s)

end Sys2Proof.Machine
end

