-- ==== Sys2Proof/Machine/Host.lean ====
section
/-! DEFINITION. The commands of rings, completion queues, the Stretcher MMU and the PCIe endpoint (13), tenant enables and disables apart: one meaning per command. -/

namespace Sys2Proof.Machine

open Sys2Proof

/-! ### Doorbells and rings (R321, R322) -/

/-- A write of ring r's doorbell (R321). -/
def State.doorbellWrite (s : State) (t r : Nat) (v : Word) : State :=
  let pg := tenantPage t 3
  let x := s.ring t r
  let head := (s.word (ringPage t r) (r_RING_HEAD (r % 32))).toNat
  let room := 2 ^ s.fld (ringPage t r) (f_RING_CFG_LOG2 (r % 32)) - (x.tail + 2 ^ 32 - head) % 2 ^ 32
  if !s.running pg ∨ !s.ringOn t r ∨ !s.tenantRunning t ∨ room < (v.toNat + 2 ^ 32 - x.tail) % 2 ^ 32 then s.event pg ev_doorbell_DOORBELL_DISCARDED
  else s.setRing t r { x with tail := v.toNat }

/-- DOORBELL (R321). -/
def execDoorbell (t : Fin 33) (r : Fin 64) (tail : Word) (s : State) : Host.Outcome State Fault Refusal :=
  .next (s.via t.val (fun a => a.doorbellWrite t.val r.val tail))

/-- The refusal of a ring's enable (R322), for the RING_CFG value written. -/
def State.ringRefusal (s : State) (t r : Nat) (v : Word) : Option Nat :=
  let pg := ringPage t r
  let i := r % 32
  let lg := fldGet v (f_RING_CFG_LOG2 i)
  let base := (s.word pg (r_RING_BASE_LO i)).toNat + 2 ^ 32 * s.fld pg (f_RING_BASE_HI_BASE i)
  let q := fldGet v (f_RING_CFG_CQ i)
  if !s.running pg ∨ !s.cqOn t q then some 3
  else if lg < 6 ∨ 16 < lg ∨ (fldGet v (f_RING_CFG_KIND i) = 1 ∧ !s.running (tenantPage t 7)) then some 1
  else if base % (64 * 2 ^ lg) ≠ 0 then some 0xB
  else if s.fld (hmTEN t) f_HIF_TEN_CFG_RINGS ≤ r then some 0xC
  else none

/-- Takes a ring out of use: HEAD, TAIL and the replay window start afresh at the next enable. -/
def State.ringOff (s : State) (t r : Nat) : State :=
  let pg := ringPage t r
  (((s.setFld pg (f_RING_CFG_ENABLE (r % 32)) 0).setFld pg (f_RING_STATUS_ACTIVE (r % 32)) 0).setFld pg (f_RING_STATUS_TAG_WAIT (r % 32)) 0)

/-- A write of RING_CFG (R322, R343). -/
def State.ringCfgWrite (s : State) (t r : Nat) (v : Word) : State :=
  let pg := ringPage t r
  let i := r % 32
  let keep := (s.word pg (r_RING_CFG i)) &&& 0x403F001F#32
  let new := v &&& 0x403F001F#32
  if s.ringOn t r then
    let s1 := if keep = new then s else s.discard pg
    if bitOf v 31 then s1 else s1.ringOff t r
  else
    let s1 := s.setWord pg (r_RING_CFG i) new
    if !bitOf v 31 then s1
    else match s1.ringRefusal t r v with
      | some e => (s1.setFld pg (f_RING_STATUS_REASON i) e).event pg ev_ringCfg_RING_REFUSED
      | none =>
        let s2 := ((s1.setFld pg (f_RING_CFG_ENABLE i) 1).setFld pg (f_RING_STATUS_ACTIVE i) 1).setWord pg (r_RING_HEAD i) 0
        (s2.setRing t r ringReset).setWord pg (r_RING_SEQ_H i) 0

/-- RING_ENABLE (R322): a write of RING_CFG with ENABLE 1. -/
def execRingEnable (t : Fin 33) (r : Fin 64) (v : Word) (s : State) : Host.Outcome State Fault Refusal :=
  .next (s.via t.val (fun a => (a.noteRsv (ringPage t.val r.val) (r_RING_CFG (r.val % 32)) v).ringCfgWrite t.val r.val (v ||| 0x80000000#32)))

/-- RING_DISABLE (R322): a write of RING_CFG with ENABLE 0 and its other fields as they stand. -/
def execRingDisable (t : Fin 33) (r : Fin 64) (s : State) : Host.Outcome State Fault Refusal :=
  .next (s.via t.val (fun a => a.ringCfgWrite t.val r.val (a.word (ringPage t.val r.val) (r_RING_CFG (r.val % 32)) &&& 0x7FFFFFFF#32)))

/-! ### Completion queues (R324 to R326) -/

/-- The refusal of a queue's enable (R324), for the CQ_CFG value written. -/
def State.cqRefusal (s : State) (t q : Nat) (v : Word) : Option Nat :=
  let pg := cqPg t
  let lg := fldGet v (f_CQ_CFG_LOG2 q)
  let base := (s.word pg (r_CQ_BASE_LO q)).toNat + 2 ^ 32 * s.fld pg (f_CQ_BASE_HI_BASE q)
  if !s.running pg then some 3
  else if lg < 6 ∨ 16 < lg ∨ (if t = 0 then 255 else 31) < fldGet v (f_CQ_CFG_VECTOR q) then some 1
  else if base % (32 * 2 ^ lg) ≠ 0 then some 0xB
  else if s.fld (hmTEN t) f_HIF_TEN_CFG_CQS ≤ q then some 0xC
  else none

/-- Does something name the queue (R324): an enabled ring, a cadence domain that is not OFF or REFUSED, HIF_LOG? -/
def State.cqNamed (s : State) (t q : Nat) : Bool :=
  (List.range 64).any (fun r => s.ringOn t r && s.ringCq t r == q) ||
  (List.range 16).any (fun d => s.st (pgCAD d) != stOFF && s.st (pgCAD d) != stREFUSED && s.fld (pgCAD d) f_CAD_DOM_CTRL_OWNER == t &&
    s.fld (pgCAD d) f_CAD_DOM_CQ_QUEUE == q) ||
  (t == 0 && s.logCq == q)

/-- A write of CQ_CFG (R324, R345). -/
def State.cqCfgWrite (s : State) (t q : Nat) (v : Word) : State :=
  let pg := cqPg t
  let fixed := fun (x : Word) => x &&& 0x00FF001F#32
  if s.cqOn t q then
    let s1 := if fixed (s.word pg (r_CQ_CFG q)) = fixed v then s else s.discard pg
    let s2 := s1.setFld pg (f_CQ_CFG_HOLDOFF_US q) (fldGet v (f_CQ_CFG_HOLDOFF_US q))
    if bitOf v 31 then s2 else if s2.cqNamed t q then s2.discard pg else s2.setFld pg (f_CQ_CFG_ENABLE q) 0
  else
    let s1 := s.setWord pg (r_CQ_CFG q) (v &&& 0x00FFFF1F#32)
    if !bitOf v 31 then s1
    else match s1.cqRefusal t q v with
      | some e => (s1.setWord pg r_CQ_REFUSE (BitVec.ofNat 32 (2 ^ 31 + q * 65536 + e * 256))).event pg ev_cqPage_CQ_REFUSED
      | none =>
        let s2 := (s1.setFld pg (f_CQ_CFG_ENABLE q) 1).setWord pg (r_CQ_HEAD q) 0
        s2.setCq t q { s2.cq t q with posted := 0, failed := false, holdoff := false, raiseDue := false }

/-- CQ_ENABLE (R324): a write of CQ_CFG with ENABLE 1. -/
def execCqEnable (t : Fin 33) (q : Fin 64) (v : Word) (s : State) : Host.Outcome State Fault Refusal :=
  .next (s.via t.val (fun a => (a.noteRsv (cqPg t.val) (r_CQ_CFG q.val) v).cqCfgWrite t.val q.val (v ||| 0x80000000#32)))

/-- CQ_DISABLE (R324): a write of CQ_CFG with ENABLE 0 and its other fields as they stand. -/
def execCqDisable (t : Fin 33) (q : Fin 64) (s : State) : Host.Outcome State Fault Refusal :=
  .next (s.via t.val (fun a => a.cqCfgWrite t.val q.val (a.word (cqPg t.val) (r_CQ_CFG q.val) &&& 0x7FFFFFFF#32)))

/-- A write of CQ_HEAD (R324): discarded when it moves backward, passes the records posted, or reaches a queue that is not enabled. -/
def State.cqHead (s : State) (t q : Nat) (v : Word) : State :=
  let h := (s.word (cqPg t) (r_CQ_HEAD q)).toNat
  if !s.cqOn t q ∨ ((s.cq t q).posted + 2 ^ 32 - h) % 2 ^ 32 < (v.toNat + 2 ^ 32 - h) % 2 ^ 32 then s.discard (cqPg t)
  else s.setWord (cqPg t) (r_CQ_HEAD q) v

/-- CQ_HEAD_WRITE (R324). -/
def execCqHeadWrite (t : Fin 33) (q : Fin 64) (v : Word) (s : State) : Host.Outcome State Fault Refusal :=
  .next (s.via t.val (fun a => a.cqHead t.val q.val v))

/-- CQ_WRITE_RETRY (R325): a queue held by a failed record write tries it again. -/
def execCqWriteRetry (t : Fin 33) (q : Fin 64) (s : State) : Host.Outcome State Fault Refusal :=
  .next (if (s.cq t.val q.val).failed then s.postHead t.val q.val else s)

/-- HOLDOFF_END (R326): a raise that fell due inside the hold-off is sent once. -/
def execHoldoffEnd (t : Fin 33) (q : Fin 64) (s : State) : Host.Outcome State Fault Refusal :=
  let c := s.cq t.val q.val
  .next (if !c.holdoff then s
    else
      let s1 := s.setCq t.val q.val { c with holdoff := false, raiseDue := false }
      if c.raiseDue then s1.raise t.val q.val else s1)

/-! ### The Stretcher MMU (R327 to R329) -/

def mrOK : Nat := 0
def mrRANGE : Nat := 1
def mrOVERLAP : Nat := 2
def mrFRAME : Nat := 3
def mrENTRIES : Nat := 4
def mrSTATE : Nat := 5
def mrLOCKED : Nat := 6
def mrNOTMAPPED : Nat := 7

/-- The command that the registers of the MMU page spell. -/
def State.mmuRegs (s : State) (cmd : Nat) : MmuCmd :=
  ⟨cmd, s.fld pgMMU f_MMU_SEL_TENANT, s.fld pgMMU f_MMU_DVA_LO_DVA * 65536 + s.fld pgMMU f_MMU_DVA_HI_DVA * 2 ^ 32,
   s.fld pgMMU f_MMU_TARGET_LO_TARGET * 65536 + (s.word pgMMU r_MMU_TARGET_HI).toNat * 2 ^ 32, s.fld pgMMU f_MMU_COUNT_PAGES,
   s.fld pgMMU f_MMU_ATTR_SIZE == 1, s.fld pgMMU f_MMU_ATTR_TARGET == 1, s.fld pgMMU f_MMU_ATTR_READ == 1, s.fld pgMMU f_MMU_ATTR_WRITE == 1⟩

/-- Bytes of a page of a command, and of its whole range. -/
def MmuCmd.size (c : MmuCmd) : Nat := if c.big then 0x200000 else 0x10000
def MmuCmd.len (c : MmuCmd) : Nat := c.count * c.size

/-- Does a range of module addresses lie wholly in stores (R282)? The Loft and Studio SRAM adjoin. -/
def moduleRange (a n : Nat) : Bool :=
  a + n ≤ 0x6000000000 || (loftBase ≤ a && a + n ≤ studioBase + 0x8000000)

/-- Does a DVA range meet a mapping of the tenant, or its window? -/
def State.dvaMeets (s : State) (t a n : Nat) : Bool :=
  s.hif.leaves.any (fun e => decide (e.1 / 0x100000000 = t) &&
    rangesMeet (e.1 % 0x100000000 * 0x10000, if e.2.big then 0x200000 else 0x10000) (a, n))
def State.winMeets (s : State) (t a n : Nat) : Bool := (smFind s.hif.window t).any (fun b => rangesMeet (b, 0x40000000) (a, n))

/-- Frames of the owner table that a module range touches; none for Studio SRAM. -/
def framesOf (a n : Nat) : List Nat :=
  if n = 0 ∨ studioBase ≤ a then []
  else (List.range (frameOf (min (a + n) studioBase - 1) + 1 - frameOf a)).map (fun i => frameOf a + i)

/-- Is a tier's clearing done (R299)? -/
def State.tierClear (s : State) (f : Nat) : Bool :=
  if f < 0x40000 then s.fld pgHBM f_HBM_CLEAR_DONE == 1 else s.fld pgLFT f_LFT_CLEAR_DONE == 1

/-- Frames that the HBM page's and the GLZ page's configurations claim (R308, R248): first frame and number of each region. -/
def State.hbmClaim (s : State) : Nat × Nat := (s.fld pgHBM f_HBM_RSV_BASE_BASE, s.fld pgHBM f_HBM_RSV_SIZE_FRAMES)
def State.glzPool (s : State) (g : Nat) (loft : Bool) : Nat × Nat :=
  let p := s.pool g loft
  let n := if s.geoValid g then p.2.1 * s.setBytes g else 0
  (frameOf p.2.2, (n + 0x1FFFFF) / 0x200000)
def State.glzClaims (s : State) : List (Nat × Nat) :=
  (s.fld pgGLZ f_GLZ_META_BASE_BASE, 48 + s.fld pgGLZ f_GLZ_LEAVES_UNITS) ::
    (List.range 8).flatMap (fun g => [s.glzPool g false, s.glzPool g true])

/-- Does a page in CHECKING claim a frame (R44)? -/
def State.frameClaimed (s : State) (f : Nat) : Bool :=
  (s.st pgHBM == stCHECKING && rangesMeet s.hbmClaim (f, 1)) ||
  (s.st pgGLZ == stCHECKING && s.glzClaims.any (fun r => rangesMeet r (f, 1)))

/-- May the tenant map a frame (R328 code 3)? -/
def State.frameOk (s : State) (t f : Nat) (wr : Bool) : Bool :=
  s.tierClear f && !s.frameClaimed f && (s.frameKind f == kFREE || (s.frameKind f == kTENANT && s.frameTenant f == t) ||
    (s.frameKind f == kWEIGHT && s.frameTenant f == t && !wr))

/-- The tests of the tenant's state that every command ends with (R328 codes 5 and 6). -/
def State.mmuState (s : State) (t : Nat) : Nat :=
  if (s.tenant t).state = stCHECKING ∨ (s.tenant t).state = stQUIESCING then mrSTATE
  else if (s.tenant t).tdi ≠ 0 then mrLOCKED else mrOK

/-- The result of a MAP, tests in the order of R328. -/
def State.mapResult (s : State) (c : MmuCmd) : Nat :=
  if 32 < c.tenant ∨ c.dva % c.size ≠ 0 ∨ c.target % c.size ≠ 0 ∨ c.count = 0 ∨ 2 ^ 48 < c.dva + c.len ∨
     2 ≤ s.fld pgMMU f_MMU_ATTR_TARGET ∨ (!c.host ∧ !moduleRange c.target c.len) then mrRANGE
  else if s.dvaMeets c.tenant c.dva c.len ∨ s.winMeets c.tenant c.dva c.len then mrOVERLAP
  else if !c.host ∧ (framesOf c.target c.len).any (fun f => !s.frameOk c.tenant f c.wr) then mrFRAME
  else if 4194304 < s.hif.leaves.length + c.count then mrENTRIES
  else s.mmuState c.tenant

/-- Claims a frame for a tenant: a FREE one is zeroed first. -/
def State.claimFrame (s : State) (t f : Nat) : State :=
  if s.frameKind f = kFREE then (s.zeroFrame f).setFrame f kTENANT t else s

/-- Puts one leaf entry in. -/
def State.putLeaf (s : State) (c : MmuCmd) (i : Nat) : State :=
  let lv := smPut s.hif.leaves (c.tenant * 0x100000000 + (c.dva + i * c.size) / 0x10000)
    ⟨c.big, c.host, c.target + i * c.size, c.rd, c.wr, false⟩
  { s with hif := { s.hif with leaves := lv } }

/-- Maps every page of a command. -/
def State.mapPages (s : State) (c : MmuCmd) : State :=
  let s1 := if c.host then s else (framesOf c.target c.len).foldl (fun (a : State) f => a.claimFrame c.tenant f) s
  (List.range c.count).foldl (fun (a : State) i => a.putLeaf c i) s1

/-- Is the frame mapped into a tenant's space by any entry? -/
def State.frameMapped (s : State) (t f : Nat) : Bool :=
  s.hif.leaves.any (fun e => decide (e.1 / 0x100000000 = t) && !e.2.host && storeOf e.2.target != .studio && frameOf e.2.target == f)

/-- A TENANT frame whose last mapping is gone returns to FREE (R329). -/
def State.releaseFrame (s : State) (t f : Nat) : State :=
  if s.frameKind f = kTENANT ∧ s.frameTenant f = t ∧ !s.frameMapped t f then s.freeFrame f else s

/-- Keys of the entries of an UNMAP. -/
def MmuCmd.keys (c : MmuCmd) : List Nat := (List.range c.count).map (fun i => c.tenant * 0x100000000 + (c.dva + i * c.size) / 0x10000)

/-- The result of an UNMAP: the tenant's state, then NOT_MAPPED (R329; DEDUCED, log entry 45). -/
def State.unmapResult (s : State) (c : MmuCmd) : Nat :=
  if s.mmuState c.tenant ≠ mrOK then s.mmuState c.tenant
  else if c.dva % c.size ≠ 0 ∨ c.count = 0 ∨ c.keys.any (fun k => !((smFind s.hif.leaves k).any (fun l => l.big == c.big))) then mrNOTMAPPED
  else mrOK

/-- Removes the entries of an UNMAP and releases their frames. -/
def State.unmapPages (s : State) (c : MmuCmd) : State :=
  let gone := c.keys.filterMap (fun k => smFind s.hif.leaves k)
  let s1 := { s with hif := { s.hif with leaves := s.hif.leaves.filter (fun e => !c.keys.contains e.1) } }
  (gone.filter (fun l => !l.host)).foldl (fun (a : State) l =>
    (framesOf l.target (if l.big then 0x200000 else 0x10000)).foldl (fun (b : State) f => b.releaseFrame c.tenant f) a) s1

/-- The result of a SET_WINDOW; a tenant number beyond 32 ends it with RANGE (log entry 45). -/
def State.windowResult (s : State) (c : MmuCmd) : Nat :=
  if 32 < c.tenant ∨ c.dva % 0x40000000 ≠ 0 then mrRANGE
  else if s.dvaMeets c.tenant c.dva 0x40000000 ∨ (smFind s.hif.window c.tenant).isSome then mrOVERLAP
  else s.mmuState c.tenant

/-- Tries the held record writes of a tenant again (R325). -/
def State.retryQueues (s : State) (t : Nat) : State :=
  (List.range 64).foldl (fun (a : State) q => if (a.cq t q).failed then a.postHead t q else a) s

/-- An MMU command ends with a result. -/
def State.mmuEnd (s : State) (t code : Nat) : State :=
  ((s.setWord pgMMU r_MMU_RESULT (BitVec.ofNat 32 (code * 16))).event pgMMU ev_mmu_CMD_DONE).retryQueues t

/-- Is a write of MMU_CMD discarded (R328)? -/
def State.mmuBusy (s : State) : Bool := s.hif.cmd.isSome || !s.running pgMMU

/-- A write of MMU_CMD (R328, R329). -/
def State.mmuCmd (s : State) (cmd : Nat) : State :=
  let c := s.mmuRegs cmd
  let t := c.tenant
  if s.mmuBusy ∨ cmd = 0 ∨ 4 < cmd then s.discard pgMMU
  else if cmd = 1 then (if s.mapResult c = mrOK then (s.mapPages c).mmuEnd t mrOK else s.mmuEnd t (s.mapResult c))
  else if cmd = 2 then (if s.unmapResult c = mrOK then (s.unmapPages c).mmuEnd t mrOK else s.mmuEnd t (s.unmapResult c))
  else if cmd = 3 then
    (if s.windowResult c = mrOK then ({ s with hif := { s.hif with window := smPut s.hif.window t c.dva } }).mmuEnd t mrOK
     else s.mmuEnd t (s.windowResult c))
  else if s.mmuState t ≠ mrOK then s.mmuEnd t (s.mmuState t)
  else if (smFind s.hif.window t).isNone then s.mmuEnd t mrNOTMAPPED
  else
    { s.setWord pgMMU r_MMU_RESULT ((s.word pgMMU r_MMU_RESULT) ||| 1#32) with
      hif := { s.hif with cmd := some c, clearing := smSet false s.hif.clearing t true } }

/-- MAP, UNMAP, SET_WINDOW and CLEAR_WINDOW: a write of MMU_CMD with CMD 1, 2, 3 or 4 (R328, R329). -/
def execMmuMap (s : State) : Host.Outcome State Fault Refusal := .next (s.via 0 (fun a => a.mmuCmd 1))
def execMmuUnmap (s : State) : Host.Outcome State Fault Refusal := .next (s.via 0 (fun a => a.mmuCmd 2))
def execSetWindow (s : State) : Host.Outcome State Fault Refusal := .next (s.via 0 (fun a => a.mmuCmd 3))
def execClearWindow (s : State) : Host.Outcome State Fault Refusal := .next (s.via 0 (fun a => a.mmuCmd 4))

/-- CLEAR_WINDOW_REMOVE (R329): no operation in flight has resolved an address through the window any more, and it is removed. -/
def execClearWindowRemove (s : State) : Host.Outcome State Fault Refusal :=
  .next (match s.hif.cmd with
    | none => s
    | some c =>
      if s.ops.ops.any (fun e => e.2.tenant == c.tenant && e.2.windowed && e.2.phase == .issued) then s
      else
        ({ s with hif := { s.hif with cmd := none, window := smDel s.hif.window c.tenant,
                                      clearing := smSet false s.hif.clearing c.tenant false } }).mmuEnd c.tenant mrOK)

/-- MMU_T_FAULT_INFO of the head of a tenant's fault queue (R346). -/
def faultInfo : List MmuFault → Nat
  | [] => 0
  | f :: _ => 2 ^ 31 + f.reason * 2 ^ 28 + (if f.write then 2 ^ 27 else 0) + f.tag % 8192 * 256 + f.opcode % 256

/-- MMU_FAULT_POP (R346): the head fault is returned and removed. -/
def execMmuFaultPop (t : Fin 33) (s : State) : Host.Outcome State Fault Refusal :=
  .next (s.via t.val (fun a =>
    let q := smGet [] a.hif.faults t.val
    ({ a with hif := { a.hif with faults := smSet [] a.hif.faults t.val q.tail } }).answer (faultInfo q)))

/-- MMU_FAULT_DVA_READ (R346). -/
def execMmuFaultDvaRead (t : Fin 33) (s : State) : Host.Outcome State Fault Refusal :=
  .next (s.via t.val (fun a =>
    let d := match smGet [] a.hif.faults t.val with | f :: _ => f.dva | [] => 0
    (a.setWord (tenantPage t.val 10) r_MMU_T_FAULT_DVA_HI (BitVec.ofNat 32 (d / 2 ^ 32))).answer (d % 2 ^ 32)))

/-! ### Host memory and IDE (R314, R335) -/

/-- HOST_COMPLETION (R314): a completion brings a 64-byte line of host memory with its data, marked poisoned, or an error status. -/
def execHostCompletion (t : Fin 33) (line : Nat) (c : HostCpl) (s : State) : Host.Outcome State Fault Refusal :=
  let put := fun (b : List Byte) (e p : Bool) =>
    { s with mem := { s.mem with host := cWrite s.mem.host (line * 64) (sub b 0 64), hostErr := smSet false s.mem.hostErr line e,
                                 hostPoison := smSet false s.mem.hostPoison line p } }
  .next (match c with
    | .data b => put b false false
    | .poisoned b => (put b false true).report pgHIF0 3 t.val 0 false
    | .error => { s with mem := { s.mem with hostErr := smSet false s.mem.hostErr line true } })

/-- HOST_COMPLETION_TIMEOUT (R314): no completion came in 50 ms; reads of the line fault with HOST_ERROR. -/
def execHostCompletionTimeout (line : Nat) (s : State) : Host.Outcome State Fault Refusal :=
  .next { s with mem := { s.mem with hostErr := smSet false s.mem.hostErr line true } }

end Sys2Proof.Machine
end

