-- ==== Sys2Proof/Machine/Motion.lean ====
section
/-! DEFINITION. The encoder's motion search (R272): the three pyramid levels, the refinement, the costs and their ties. Vectors are (x, y); what a
grid's samples are is the caller's (`Config.vencSamp`), since the spec gives no downscaling and no interpolation filter of its own. -/

namespace Sys2Proof.Machine

open Sys2Proof

/-- A candidate: its cost and its vector in the samples of its grid. -/
abbrev MvCand := Nat × Int × Int

/-- The order of candidates: cost, then vector magnitude (Euclidean; DEDUCED, log entry 41), then raster position. -/
def mvLess (a b : MvCand) : Bool :=
  let m := fun (c : MvCand) => (c.2.1 * c.2.1 + c.2.2 * c.2.2).natAbs
  a.1 < b.1 || (a.1 == b.1 && (m a < m b || (m a == m b && (decide (a.2.2 < b.2.2) || (a.2.2 == b.2.2 && decide (a.2.1 < b.2.1))))))

/-- Puts a candidate in its place among the n best. -/
def mvInsert (n : Nat) (l : List MvCand) (c : MvCand) : List MvCand :=
  if l.contains c then l else (l.takeWhile (fun x => mvLess x c) ++ [c] ++ l.dropWhile (fun x => mvLess x c)).take n

/-- The n best of some vectors by a cost, among those a bound allows. -/
def mvBest (n : Nat) (cost : Int → Int → Nat) (ok : Int → Int → Bool) (vs : List (Int × Int)) : List MvCand :=
  vs.foldl (fun l v => if ok v.1 v.2 then mvInsert n l (cost v.1 v.2, v.1, v.2) else l) []

/-- The vectors within ±rx and ±ry of a base. -/
def mvAround (rx ry : Nat) (b : Int × Int) : List (Int × Int) :=
  (List.range (2 * ry + 1)).flatMap (fun j => (List.range (2 * rx + 1)).map (fun i => (b.1 + (i : Int) - rx, b.2 + (j : Int) - ry)))

/-- The sum of absolute differences of an n × n block at (bx, by) of one picture and the block that lies at g times that place plus the vector, in
steps of g, of another grid. -/
def mvSad (cur ref : Int → Int → Nat) (g : Int) (n : Nat) (bx b_y : Int) (vx vy : Int) : Nat :=
  (List.range n).foldl (fun t j => (List.range n).foldl (fun u i =>
    u + ((cur (b_y + j) (bx + i) : Int) - ref (g * (b_y + j) + vy) (g * (bx + i) + vx)).natAbs) t) 0

/-- Does a vector on a grid of g steps a luma sample reach no further than 256 samples horizontally and 128 vertically? -/
def mvReach (num den : Int) (x y : Int) : Bool := decide ((x * num).natAbs ≤ (256 * den).natAbs) && decide ((y * num).natAbs ≤ (128 * den).natAbs)

/-- Candidates as bases of the next finer grid. -/
def mvFiner (l : List MvCand) : List (Int × Int) := l.map (fun c => (2 * c.2.1, 2 * c.2.2))

/-- The search of a 64 × 64 block in one reference: cost and vector in quarter samples. `samp p g y x` is a luma sample of picture p (0 the frame
itself) on grid g: 1 and 2 the quarter-size and half-size pyramid levels, 3 full size, 4 and 5 the half-sample and quarter-sample grids; `rate`
is the rate term of a vector in quarter samples, `col` the co-located vector of the previous frame and `near` those of the left, above and
above-right blocks. A vector taken to a coarser level truncates toward zero (DESIGN CHOICE, log entry 41). -/
def mvSearch (samp : Nat → Nat → Int → Int → Nat) (rate : Int → Int → Nat) (ref : Nat) (bc br : Nat) (col : Int × Int) (near : List (Int × Int)) :
    Option MvCand :=
  let at' := fun (g n : Nat) (unit : Int) (x y : Int) =>
    mvSad (samp 0 g) (samp ref g) 1 n (bc * n : Nat) (br * n : Nat) x y + rate (x * unit) (y * unit)
  let coarse := fun (d : Int) (v : Int × Int) => (Int.tdiv v.1 d, Int.tdiv v.2 d)
  let l1 := mvBest 4 (at' 1 16 16) (mvReach 4 1) (mvAround 64 32 (0, 0) ++ mvAround 64 32 (coarse 16 col))
  let l2 := mvBest 2 (at' 2 32 8) (mvReach 2 1) ((mvFiner l1 ++ near.map (coarse 8)).flatMap (mvAround 4 4))
  let l3 := mvBest 1 (at' 3 64 4) (mvReach 1 1) ((mvFiner l2).flatMap (mvAround 2 2))
  let sub' := fun (g : Nat) (k : Int) (x y : Int) =>
    mvSad (samp 0 3) (samp ref g) k 64 (bc * 64 : Nat) (br * 64 : Nat) x y + rate (x * (4 / k)) (y * (4 / k))
  let h := mvBest 1 (sub' 4 2) (mvReach 1 2) ((mvFiner l3).flatMap (mvAround 1 1))
  (mvBest 1 (sub' 5 4) (mvReach 1 4) ((mvFiner h).flatMap (mvAround 1 1))).head?

/-- A block's final vector: the reference picture and the vector in quarter samples. -/
abbrev MvBlock := Nat × Int × Int

/-- The best of the references: the lower cost, the reference named first on a tie. -/
def mvChoose (l : List (Nat × Option MvCand)) : Option MvBlock :=
  (l.foldl (fun (m : Option (Nat × MvCand)) x =>
    match m, x.2 with
    | none, some c => some (x.1, c)
    | some b, some c => if c.1 < b.2.1 then some (x.1, c) else m
    | _, none => m) none).map (fun b => (b.1, b.2.2.1, b.2.2.2))

/-- The final vectors of a frame's blocks in raster order, none for an intra block: `prev` holds the previous frame's. -/
def mvFrame (samp : Nat → Nat → Int → Int → Nat) (rate : Nat → Int → Int → Nat) (cols rows : Nat) (refs : List Nat) (intra : Nat → Bool)
    (prev : List (Option MvBlock)) : List (Option MvBlock) :=
  (List.range (cols * rows)).foldl (fun (acc : List (Option MvBlock)) i =>
    let c := i % cols
    let vec := fun (b : Option MvBlock) => b.map (fun v => (v.2.1, v.2.2))
    let here := fun (k : Nat) => vec (acc.getD k none)
    let near := [if c = 0 then none else here (i - 1), if i < cols then none else here (i - cols),
      if i < cols ∨ c + 1 = cols then none else here (i + 1 - cols)].filterMap id
    acc ++ [if intra c then none
      else mvChoose (refs.map (fun r => (r, mvSearch samp (rate i) r c (i / cols) ((vec (prev.getD i none)).getD (0, 0)) near)))]) []

/-- The bytes that a frame's vectors add to what its slices are coded from. -/
def mvBytes (l : List (Option MvBlock)) : List Byte :=
  l.flatMap (fun b => match b with
    | none => [0#8]
    | some (r, x, y) => toLe 1 (r + 1) ++ toLe 2 (x % 65536).toNat ++ toLe 2 (y % 65536).toNat)

end Sys2Proof.Machine
end

