-- ==== Sys2Proof/Machine/PalImage.lean ====
section
/-! DEFINITION. Palette image layouts (R140 to R142), the scaler and the colour conversion in front of them (R264, R265), and landing regions (R87). -/

namespace Sys2Proof.Machine

open Sys2Proof

/-! ### The descriptor (R140) -/

def pdLayout (d : Nat) : Nat := bits d 2 0
def pdElem (d : Nat) : Nat := bits d 4 3
def pdPadX (d : Nat) : Nat := bits d 11 8
def pdHalo (d : Nat) : Nat := bits d 15 12
def pdPitch (d : Nat) : Nat := 64 * bits d 27 16
def pdOrder (d : Nat) : Nat := bits d 31 28
def pdRows (d : Nat) : Nat := bits d 43 32
def pdBands (d : Nat) : Nat := bits d 54 48
def pdAlternate (d : Nat) : Bool := bits d 56 56 == 1

/-- Bytes of an element, channels of a pixel block, P (R134), and the block side of a space-to-depth layout. -/
def pdElemBytes (d : Nat) : Nat := if pdElem d = 2 then 2 else 1
def pdChannels (d : Nat) : Nat := if pdLayout d = 1 then 32 else 16
def pdP (d : Nat) : Nat := pdChannels d * pdElemBytes d
def pdBlock (d : Nat) : Nat := if pdLayout d = 2 then 4 else if pdLayout d = 3 then 2 else 1

/-- The band panels of a destination. -/
def pdPanels (d first : Nat) : List Nat := (List.range (pdBands d)).map (fun g => first + g)

/-- Bytes of a region that a band fills. -/
def pdBandBytes (d : Nat) : Nat := (pdRows d + 2 * pdHalo d) * pdPitch d

/-- SIZE in bytes of landing region r of a panel, and its base. -/
def State.regionBytes (s : State) (p r : Nat) : Nat := s.fld (pnlPage p) (f_PNL_REGION_SIZE r) * 4096
def State.regionBase (s : State) (p r : Nat) : Nat := s.fld (pnlPage p) (f_PNL_REGION_BASE r) * 4096

/-- Does a panel hold a VALID region of an index for a writer class: 0 INGEST, 1 VCE0, 2 VCE1, 3 MURAL (R87)? -/
def State.hasRegion (s : State) (p r writer : Nat) : Bool :=
  s.fld (pnlPage p) (f_PNL_REGION_VALID r) == 1 && s.fld (pnlPage p) (f_PNL_REGION_WRITER r) == writer

/-- The region indices a destination names. -/
def pdRegions (d r : Nat) : List Nat := if pdAlternate d then [r, r + 1] else [r]

/-- Is a VALID landing region too small for a band? One that is not VALID is the writer's own refusal (R141). -/
def State.regionShort (s : State) (d p r : Nat) : Bool :=
  s.fld (pnlPage p) (f_PNL_REGION_VALID r) == 1 && decide (s.regionBytes p r < pdBandBytes d)

/-- The cases of R141 that the descriptor's low word alone shows, for a frame of width `w` and height `h`. -/
def pdFaultLo (d w h : Nat) : Bool :=
  bits d 7 5 != 0 || 4 ≤ pdLayout d || pdElem d == 3 || 4 ≤ pdOrder d || (pdElem d == 2 && pdLayout d != 0) || pdPitch d == 0 ||
  (pdOrder d == 2 && pdLayout d == 3) || (pdOrder d != 2 && pdLayout d == 2) || w % pdBlock d != 0 || h % pdBlock d != 0 ||
  pdPitch d < (w / pdBlock d + 2 * pdPadX d) * pdP d

/-- The cases of R141 whose last field stands in the descriptor's high word (R43), for a frame of height `h`. -/
def State.pdFaultHi (s : State) (d first region h : Nat) : Bool :=
  bits d 47 44 != 0 || bits d 55 55 != 0 || bits d 63 57 != 0 || pdRows d == 0 || pdBands d == 0 || 64 < pdBands d ||
  pdBands d * pdRows d < h / pdBlock d || (pdRegions d region).any (fun r => (pdPanels d first).any (fun p => s.regionShort d p r))

/-- DESIGN CHOICE (log entry 39): band panels past panel 127, and the second region of an ALTERNATE destination past region 7, are refused as
FIELD_RANGE; no rule names the REASON. -/
def pdFaultTo (d first region : Nat) : Bool := 128 < first + pdBands d || (pdRegions d region).any (fun r => decide (8 ≤ r))

/-! ### Elements and layout (R140) -/

/-- A sample of depth D as the bytes of an element. DESIGN CHOICE (log entry 39): a 12-bit sample that binary16 does not hold exactly rounds to
nearest even; the spec calls the conversion exact up to D = 11 and names no rounding beyond. -/
def pdConvert (d depth v : Nat) : List Byte :=
  if pdElem d = 0 then [BitVec.ofNat 8 (v / 2 ^ (depth - 8) + 128)]
  else
    let x := FV.fin false v (-(depth : Int))
    if pdElem d = 1 then [BitVec.ofNat 8 (fmtE4M3.code 0 false x)] else toLe 2 (fmtB16.code 0 false x)

/-- The sample in channel c of layout pixel (y, x): `pix k y x` is colour k of the frame in ORDER. -/
def pdChannel (d : Nat) (pix : Nat → Nat → Nat → Nat) (y x c : Nat) : Option Nat :=
  if pdLayout d = 2 then some (pix 0 (4 * y + c / 4) (4 * x + c % 4))
  else if pdLayout d = 3 then (if c < 12 then some (pix (c % 3) (2 * y + c / 3 / 2) (2 * x + c / 3 % 2)) else none)
  else if c < (if pdOrder d = 2 then 1 else 3) then some (pix c y x) else none

/-- The P bytes of a layout pixel; unused channels hold zero. -/
def pdPixel (d depth : Nat) (pix : Nat → Nat → Nat → Nat) (y x : Nat) : List Byte :=
  (List.range (pdChannels d)).flatMap (fun c =>
    match pdChannel d pix y x c with
    | some v => pdConvert d depth v
    | none => toLe (pdElemBytes d) 0)

/-- The bytes of row r of band g's region (R142), for a frame of width w and height h. DESIGN CHOICE (log entry 39): of a decoded frame that does
not fit its descriptor, a row longer than the pitch is cut, rows beyond BANDS × ROWS are dropped, and a size that is no multiple of the block is
rounded down. -/
def pdRow (d depth w h : Nat) (pix : Nat → Nat → Nat → Nat) (g r : Nat) : List Byte :=
  let w2 := w / pdBlock d
  let h2 := h / pdBlock d
  let zero := toLe (pdPitch d) 0
  let y := g * pdRows d + r
  if y < pdHalo d ∨ h2 ≤ y - pdHalo d ∨ (g + 1 = pdBands d ∧ pdHalo d + pdRows d ≤ r) then zero
  else
    let pad := toLe (pdPadX d * pdP d) 0
    let row := (List.range w2).flatMap (fun x => pdPixel d depth pix (y - pdHalo d) x)
    (pad ++ row ++ zero).take (pdPitch d)

/-- May the landing port write the panel? -/
def State.landOpen (s : State) (p : Nat) : Bool := s.st (pnlPage p) == stRUNNING || s.st (pnlPage p) == stQUIESCING

/-- Writes a frame to region index `region` of every band (R142), through the landing port. Each slot of it is granted, lands and is written
within the step, so the ledger of PORT_CREDITS ends as it began (R85, R86). -/
def State.palImage (s : State) (d first region depth w h : Nat) (pix : Nat → Nat → Nat → Nat) : State :=
  (List.range (pdBands d)).foldl (fun (a : State) g =>
    let p := first + g
    if a.landOpen p then
      (List.range (pdRows d + 2 * pdHalo d)).foldl (fun (b : State) r =>
        b.palWrite p (a.regionBase p region + r * pdPitch d) (pdRow d depth w h pix g r)) a
    else a) s

/-! ### The scaler (R264) -/

/-- Output index x of a dimension scaled from n to m: NEAREST. -/
def scaleNearest (n m x : Nat) : Nat := (2 * x + 1) * n / (2 * m)

/-- BILINEAR: the two clamped input indices and the weight f of the second, of 64. -/
def scaleBilinear (n m x : Nat) : Nat × Nat × Nat :=
  let p : Int := (((2 * x + 1) * n * 64 / (2 * m) : Nat) : Int) - 32
  let i := p / 64
  let f := (p - 64 * i).toNat
  let clampN := fun (j : Int) => (min (max j 0) ((n : Int) - 1)).toNat
  (clampN i, clampN (i + 1), f)

/-- A plane of size (w, h) scaled to (ow, oh), at output row y and column x. -/
def scaleSample (bilinear : Bool) (w h ow oh : Nat) (src : Nat → Nat → Nat) (y x : Nat) : Nat :=
  if !bilinear then src (scaleNearest h oh y) (scaleNearest w ow x)
  else
    let (x0, x1, fx) := scaleBilinear w ow x
    let (y0, y1, fy) := scaleBilinear h oh y
    let row := fun (r : Nat) => src r x0 * (64 - fx) + src r x1 * fx
    (row y0 * (64 - fy) + row y1 * fy + 2048) / 4096

/-! ### Colour (R265) -/

/-- K_R and K_B of a Y′CbCr matrix, in units of 1/10,000, as Rec. ITU-T H.273 gives them by MatrixCoefficients. -/
def matrixRB : Nat → Option (Nat × Nat)
  | 1 => some (2126, 722)
  | 2 => some (2126, 722)
  | 4 => some (3000, 1100)
  | 5 => some (2990, 1140)
  | 6 => some (2990, 1140)
  | 7 => some (2120, 870)
  | 9 => some (2627, 593)
  | _ => none

/-- A signed rational rounded to the nearest multiple of 2^-14, ties to even, in those units. -/
def toQ14 (neg : Bool) (n d : Nat) : Int :=
  let m := roundInt 0 false (n * 2 ^ 14) d
  if neg then -(m : Int) else m

/-- The scales Sy and Sc as fractions, for depth D. -/
def colourScale (full : Bool) (depth : Nat) (luma : Bool) : Nat × Nat :=
  if full then (1, 1) else (2 ^ depth - 1, (if luma then 219 else 224) * 2 ^ (depth - 8))

/-- The entry K of output colour k (0 R, 1 G, 2 B) and input j (0 Y, 1 Cb, 2 Cr), in units of 2^-14. -/
def colourK (matrix : Nat) (full : Bool) (depth k j : Nat) : Int :=
  match matrixRB matrix with
  | none => (Config.matrixK matrix (if full then 1 else 0) k j : Int) - 2 ^ 20
  | some (kr, kb) =>
    let kg := 10000 - kr - kb
    let s := colourScale full depth (j == 0)
    if j = 0 then toQ14 false s.1 s.2
    else if k = 0 then (if j = 1 then 0 else toQ14 false (2 * (10000 - kr) * s.1) (10000 * s.2))
    else if k = 2 then (if j = 2 then 0 else toQ14 false (2 * (10000 - kb) * s.1) (10000 * s.2))
    else if j = 1 then toQ14 true (2 * kb * (10000 - kb) * s.1) (kg * 10000 * s.2)
    else toQ14 true (2 * kr * (10000 - kr) * s.1) (kg * 10000 * s.2)

/-- floor(sum + 1/2) of a sum in units of 2^-14, clamped to D bits. -/
def colourClamp (depth : Nat) (sum : Int) : Nat := (min (max ((sum + 8192) / 16384) 0) (2 ^ depth - 1)).toNat

/-- Output colour k (0 R, 1 G, 2 B) of a pixel. -/
def colourOf (matrix : Nat) (full : Bool) (depth k y cb cr : Nat) : Nat :=
  let oy : Int := if full then 0 else 16 * 2 ^ (depth - 8)
  let oc : Int := 2 ^ (depth - 1)
  colourClamp depth (colourK matrix full depth k 0 * ((y : Int) - oy) + colourK matrix full depth k 1 * ((cb : Int) - oc) +
    colourK matrix full depth k 2 * ((cr : Int) - oc))

/-- The luma of ORDER 2: the Y term only. -/
def lumaOf (matrix : Nat) (full : Bool) (depth y : Nat) : Nat :=
  let oy : Int := if full then 0 else 16 * 2 ^ (depth - 8)
  colourClamp depth (colourK matrix full depth 0 0 * ((y : Int) - oy))

/-- Colour k of a pixel in ORDER (R263 stage 3), from its 4:4:4 samples. -/
def orderPix (order matrix : Nat) (full : Bool) (depth k y cb cr : Nat) : Nat :=
  if order = 0 then colourOf matrix full depth k y cb cr
  else if order = 1 then colourOf matrix full depth (2 - k) y cb cr
  else if order = 2 then lumaOf matrix full depth y
  else if k = 0 then y else if k = 1 then cb else cr

end Sys2Proof.Machine
end

