-- ==== Sys2Proof/Machine/Sampler.lean ====
section
/-! DEFINITION. The Sampler and the token rings (09, R208, R216 to R226): decisions, commits, ends of generations, SAMPLE, PREFIX_LOOKUP and the
shared prefix domains. -/

namespace Sys2Proof.Machine

open Sys2Proof

/-! ### Token rings (R222, R226) -/

def smpPg (t : Nat) : Nat := tenantPage t 7
def State.ringSize (s : State) (t r : Nat) : Nat := 2 ^ s.fld (smpPg t) (f_SMP_T_RING_CFG_LOG2_SIZE r)
def State.ringValid (s : State) (t r : Nat) : Bool := r < 16 && s.running (smpPg t) && s.fld (smpPg t) (f_SMP_T_RING_CFG_VALID r) == 1
def State.slotsHeld (s : State) (t r : Nat) : Nat := smGet 0 s.srv.slotsHeld (t * 16 + r)
def State.slotsUsed (s : State) (t r : Nat) : Nat := smGet 0 s.srv.slotsUsed (t * 16 + r)
def State.slotsFree (s : State) (t r : Nat) : Nat := s.ringSize t r - s.slotsUsed t r - s.slotsHeld t r

/-- Holds slots of a ring for rows. -/
def State.holdSlots (s : State) (t r n : Nat) : State :=
  let m := smSet 0 s.srv.slotsHeld (t * 16 + r) (s.slotsHeld t r + n)
  ({ s with srv := { s.srv with slotsHeld := m } }).move pgSMP 1 .free .held n

/-- A held slot returns to free, counted as reclaimed (R224). -/
def State.dropSlots (s : State) (t r n : Nat) : State :=
  let m := smSet 0 s.srv.slotsHeld (t * 16 + r) (s.slotsHeld t r - n)
  ({ s with srv := { s.srv with slotsHeld := m } }).reclaim pgSMP 1 .held n

/-- Writes the entry at TAIL in a held slot. -/
def State.putEntry (s : State) (t r tok : Nat) (fin : Option Nat) (handle pos lp : Nat) : State :=
  let pg := smpPg t
  let size := s.ringSize t r
  let n := smGet 0 s.srv.written (t * 16 + r)
  let base := (s.word pg (r_SMP_T_RING_BASE_LO r)).toNat + 2 ^ 32 * s.fld pg (f_SMP_T_RING_BASE_HI_BASE r)
  let tail := s.fld pg (f_SMP_T_RING_PTR_TAIL r)
  let e := match fin with
    | some x => 0x40000 + x * 0x80000
    | none => 0
  let ph := 1 - n / size % 2
  let b := toLe 4 (tok % 0x40000 + e + ph * 2 ^ 31) ++ toLe 4 handle ++ toLe 4 pos ++ toLe 4 lp
  let a := base + 16 * tail
  let s1 := match s.writeFault (bareWho t) 0 (cuts a 16) with
    | some (d, f) => s.mmuFault (bareWho t) d f true
    | none => s.writeDva (bareWho t) a b
  let s2 := (s1.setFld pg (f_SMP_T_RING_PTR_TAIL r) ((tail + 1) % size)).move pgSMP 1 .held .transit 1
  let x : SrvSt := { s2.srv with
    slotsHeld := smSet 0 s2.srv.slotsHeld (t * 16 + r) (s2.slotsHeld t r - 1),
    slotsUsed := smSet 0 s2.srv.slotsUsed (t * 16 + r) (s2.slotsUsed t r + 1),
    written := smSet 0 s2.srv.written (t * 16 + r) (n + 1) }
  let s3 : State := { s2 with srv := x }
  if s3.fld pg (f_SMP_T_RING_CFG_EVENT r) = 1 then s3.event pg ev_smpT_TOKENS else s3

/-- A write of a ring's PTR: HEAD moves and the entries up to it are released, unless it would pass TAIL. -/
def State.tokenHead (s : State) (t r : Nat) (v : Word) : State :=
  let pg := smpPg t
  let h := v.toNat % 65536
  let size := s.ringSize t r
  let old := s.fld pg (f_SMP_T_RING_PTR_HEAD r)
  let n := (h + size - old % size) % size
  if size ≤ h ∨ s.slotsUsed t r < n then s.discard pg
  else
    let s1 := (s.setFld pg (f_SMP_T_RING_PTR_HEAD r) h).move pgSMP 1 .transit .free n
    { s1 with srv := { s1.srv with slotsUsed := smSet 0 s1.srv.slotsUsed (t * 16 + r) (s1.slotsUsed t r - n) } }

/-- TOKEN_RING_HEAD. -/
def execTokenRingHead (t : Fin 33) (r : Fin 16) (v : Word) (s : State) : Host.Outcome State Fault Refusal :=
  .next (s.via t.val (fun a => a.tokenHead t.val r.val v))

/-! ### Ends of requests -/

/-- Posts the record of a request command. -/
def State.postReq (s : State) (r : Req) (status flags detail : Nat) : State :=
  if s.writesOff r.tenant then
    s.recordMade r.tenant r.ring s.logCq 0 ⟨r.start, s.time, r.seq, 0, true, scDISABLED, cfDROPPED, r.ring, r.cmd, r.tenant, r.intr⟩ false
  else
  s.recordMade r.tenant r.ring r.cq r.tenant ⟨r.start, s.time, r.seq, 0, true, status, flags, r.ring, r.cmd, detail, r.intr⟩ true

/-- Drops what a sequence knows beyond its next position. -/
def State.trimSeq (s : State) (q : Seq) : Seq :=
  let n := s.nextPos q
  { q with hashes := q.hashes.filter (fun e => decide (e.1 < s.seqLen q / 32)), toks := q.toks.filter (fun e => decide (e.1 < n)) }

/-- A sequence's length reverts to a value before a step (R208). -/
def Seq.revert (q : Seq) (base : Nat) : Seq := { q with lens := q.lens.map (fun e => (e.1, min e.2 base)) }

/-- A generation ends: its record is due, the mark clears, and the sequence is IDLE, or PARKING where a PAUSE with PARK waits; one that waited for a PARKED
sequence's pages leaves it PARKED. -/
def State.genEnd (s : State) (slot status flags detail : Nat) : State :=
  match s.seq slot with
  | none => s
  | some q => match q.job with
    | none => s
    | some j =>
      let s1 := s.postReq j.req status (flags ||| (if j.ovf then 8 else 0)) detail
      let st := if q.state = sqCLOSING ∨ q.state = sqFAILED ∨ q.state = sqPARKED then q.state else if q.parkTtl.isSome then sqPARKING else sqIDLE
      let q1 := s1.trimSeq { q with job := none, mark := false, state := st, lastGen := some (j.req.cq, j.req.ring, j.req.seq) }
      match q1.pause with
      | none => s1.setSeq slot q1
      | some p =>
        if st = sqFAILED then (s1.setSeq slot { q1 with pause := none, parkTtl := none }).postReq p scPOISON 0 0
        else if q1.parkTtl.isNone then (s1.setSeq slot { q1 with pause := none }).postReq p scOK 0 0
        else s1.setSeq slot q1

/-- Status and flags with which a marked generation ends. -/
def GenJob.cancelStatus (j : GenJob) : Nat := if j.timedOut then scTIMEOUT else scCANCELLED

/-! ### Sampling blocks (R217) -/

/-- The offset of the first field out of its range. -/
def samplingFault (b : List Byte) : Option Nat :=
  let f := fun (o : Nat) => leAt b o 4
  let one := 0x3F800000
  match firstBad [(0x08, ffinite (f 0x08) && ((fval (f 0x08)).isZero || fless 0 (f 0x08))), (0x0C, f 0x0C ≤ 1024),
    (0x10, fless 0 (f 0x10) && !fless one (f 0x10) && !fisNan (f 0x10)),
    (0x14, ffinite (f 0x14) && !fless (f 0x14) 0 && fless (f 0x14) one), (0x18, ffinite (f 0x18) && fless 0 (f 0x18)), (0x1C, ffinite (f 0x1C)),
    (0x20, f 0x20 ≤ 4096), (0x24, f 0x24 ≤ 256), (0x38, f 0x38 ≤ 8), (0x3C, f 0x3C < 2)] with
  | some o => some o
  | none => rsvByte b [(0x60, 32)]

/-- Is a token in STOP? -/
def inStop (b : List Byte) (tok : Nat) : Bool := (List.range (min 8 (leAt b 0x38 4))).any (fun i => leAt b (0x40 + 4 * i) 4 == tok)

/-! ### One decision (R218, R219) -/

/-- A candidate: its ID and its logit or scaled logit. -/
structure Cand where
  id : Nat
  z : Nat
  deriving DecidableEq, Repr

/-- The largest value; the first of equals. -/
def bestCand (l : List Cand) : Option Cand :=
  l.foldl (fun (m : Option Cand) c => match m with
    | none => some c
    | some x => if fless x.z c.z then some c else some x) none

/-- A magnitude of at most binary32's in units of 2^-149. -/
def units149 (c : Nat) : Nat :=
  match fval c with
  | .fin false m e => if 0 ≤ e + 149 then m * 2 ^ (e + 149).toNat else 0
  | _ => 0

/-- A binary32 of an exact sum in units of 2^-149. -/
def sum32 (n : Nat) : Nat := fmtB32.round 0 false false n 1 (-149)

/-- LOGPROB of a token among candidates. -/
def logProb (kept : List Cand) (m z : Nat) : Nat :=
  let tot := ((kept.map (fun c => units149 (fexp (fsub c.z m)))).foldl (· + ·) 0)
  fsub (fsub z m) (flog (sum32 tot))

/-- The logits after penalties and biases, step 1 to 3. -/
def adjusted (raw : List Nat) (b : List Byte) (hist : List Nat) (bias : List (Nat × Nat)) : List Cand :=
  let win := hist.drop (hist.length - leAt b 0x20 4)
  ((List.range raw.length).zip raw).map (fun x =>
    let l := x.2
    let l1 := if win.contains x.1 then
        fsub (if fless 0 l then fdiv l (leAt b 0x18 4) else fmul l (leAt b 0x18 4)) (leAt b 0x1C 4) else l
    ⟨x.1, (bias.filter (fun e => e.1 == x.1)).foldl (fun v e => fadd v e.2) l1⟩)

/-- The choice among candidates that are finite and not masked out. Where no kept value counts (a scaled logit beyond binary32 leaves no finite difference),
R219 names no token and which kept one it is is open (log entry 38). -/
def choose (cands : List Cand) (b : List Byte) (pos : Nat) : Pick :=
  match bestCand cands with
  | none => .noCand
  | some top =>
    let lp := leAt b 0x3C 4 == 1
    if (fval (leAt b 0x08 4)).isZero then .tok top.id (if lp then logProb cands top.z top.z else 0)
    else
      let q := fdiv 0x3F800000 (leAt b 0x08 4)
      let zs := cands.map (fun c => (⟨c.id, fmul c.z q⟩ : Cand))
      let k := leAt b 0x0C 4
      let better := fun (x y : Cand) => fless x.z y.z || (x.z == y.z && decide (y.id < x.id)) || (!fless y.z x.z && !fless x.z y.z && decide (y.id < x.id))
      let kept := if k = 0 then zs else zs.filter (fun c => decide ((zs.filter (fun y => better c y)).length < k))
      match bestCand kept with
      | none => .noCand
      | some m =>
        let es := kept.map (fun c => (c, units149 (fexp (fsub c.z m.z))))
        let minp := units149 (leAt b 0x14 4)
        let e1 := if minp = 0 then es else es.filter (fun x => decide (minp ≤ x.2))
        let tot := (e1.map (fun x => x.2)).foldl (· + ·) 0
        let p := leAt b 0x10 4
        let before := fun (x : Cand × Nat) => ((e1.filter (fun y => decide (x.2 < y.2 ∨ (x.2 = y.2 ∧ y.1.id < x.1.id)))).map (fun y => y.2)).foldl (· + ·) 0
        let e2 := if p = 0x3F800000 then e1 else e1.filter (fun x => decide (before x * 2 ^ 149 < units149 p * tot))
        let s2 := (e2.map (fun x => x.2)).foldl (· + ·) 0
        let w := philox (leAt b 0 8) pos 0 0 0x00020000
        let u := w.2.1 * 2 ^ 32 + w.1
        let pick := e2.foldl (fun (st : Nat × Option (Cand × Nat)) x =>
          match st.2 with
          | some _ => st
          | none => let c := st.1 + x.2; (c, if u * s2 < c * 2 ^ 64 then some x else none)) (0, none)
        match pick.2.orElse (fun _ => (kept[Config.sampOpen b pos % kept.length]?).map (fun c => (c, 0))) with
        | some x => .tok x.1.id (if lp then fsub (fsub x.1.z m.z) (flog (sum32 s2)) else 0)
        | none => .noCand

/-- Decides one row. `easel`: offsets of BIAS and MASK are those of the GENERATE block, else the row table's. -/
def State.decideRow (s : State) (j : SampJob) (r : SRow) : Pick :=
  match s.seq r.slot with
  | none => .noCand
  | some q =>
    let w := bareWho j.tenant
    let b := r.block
    let eb := if j.b32 then 4 else 2
    let easel := j.step.isSome
    let nb := leAt b 0x24 4
    let mask := leAt b 0x30 8
    match s.readDva w r.logits (j.vocab * eb), s.readDva w (leAt b 0x28 8) (8 * nb),
        (if mask = 0 then Rd.ok [] false else s.readDva w mask ((j.vocab + 7) / 8)) with
    | .bad _ e, _, _ => if easel then .err scSTEPFAILED (faultStatus e + 256 * 7) else .err (faultStatus e) (faultDetail e 0)
    | _, .bad _ e, _ => .err (faultStatus e) (faultDetail e (if easel then 0x68 else 0x20))
    | _, _, .bad _ e => .err (faultStatus e) (faultDetail e (if easel then 0x70 else 0x20))
    | .ok lb lp, .ok bb bp, .ok mb mp =>
      if lp ∨ bp ∨ mp then .err scPOISON 0
      else
        let raw := (List.range j.vocab).map (fun i => if j.b32 then leAt lb (4 * i) 4 else fcode (fmtBf16.value (leAt lb (2 * i) 2)))
        let bias := (List.range nb).map (fun i => (leAt bb (8 * i) 4, leAt bb (8 * i + 4) 4))
        let cs := (adjusted raw b q.hist bias).filter (fun c =>
          ffinite c.z && (mask == 0 || (mb.getD (c.id / 8) 0).toNat / 2 ^ (c.id % 8) % 2 == 1))
        choose cs b (s.nextPos q)

/-- The faulting address of a decision is recorded in the tenant's MMU view (R330). -/
def State.decideFault (s : State) (j : SampJob) (r : SRow) : State :=
  let w : Who := { bareWho j.tenant with tag := j.tag.getD 0, opcode := 7 }
  let b := r.block
  let mask := leAt b 0x30 8
  let f := fun (x : Rd) (a : State) => match x with
    | .bad d e => some (a.mmuFault w d e false)
    | .ok _ _ => none
  match f (s.readDva w r.logits (j.vocab * (if j.b32 then 4 else 2))) s with
  | some a => a
  | none => match f (s.readDva w (leAt b 0x28 8) (8 * leAt b 0x24 4)) s with
    | some a => a
    | none => if mask = 0 then s else (f (s.readDva w mask ((j.vocab + 7) / 8)) s).getD s

def State.jobOf (s : State) (k : Nat) : Option SampJob := smFind s.srv.jobs k
def State.setJob (s : State) (k : Nat) (j : SampJob) : State := { s with srv := { s.srv with jobs := smPut s.srv.jobs k j } }

/-- SAMPLER_DECISION for the next row of a sampling job. -/
def execSamplerDecision (job : Nat) (now : DWord) (s : State) : Host.Outcome State Fault Refusal :=
  .next (match s.jobOf job with
    | none => s
    | some j =>
      match j.rows[j.next]? with
      | none => s
      | some r =>
        if j.pick.isSome ∨ !s.working pgSMP then s
        else
          let s0 := s.at now.toNat
          let p := s0.decideRow j r
          let s1 := match p with
            | .err _ _ => s0.decideFault j r
            | _ => s0
          (s1.setWide pgSMP r_SMP_DECISIONS_LO (s1.wideOf pgSMP r_SMP_DECISIONS_LO + 1)).setJob job { j with pick := some p })

/-! ### Commits (R208, R222) -/

/-- The reason a committed token ends its generation, or none. -/
def State.endReason (s : State) (q : Seq) (b : List Byte) (tok pos : Nat) : Option Nat :=
  if q.job.any (fun j => decide (j.made + 1 = j.maxNew)) then some 1
  else if inStop b tok then some 2
  else if s.maxContext q ≤ pos + 1 then some 3
  else if q.state = sqPAUSING then some 4
  else none

/-- Commits a chosen token for a row. -/
def State.commitTok (s : State) (j : SampJob) (r : SRow) (tok lp : Nat) : State :=
  match s.seq r.slot with
  | none => s
  | some q =>
    let pos := s.nextPos q
    let fin := s.endReason q r.block tok pos
    let h := q.hist ++ [tok]
    let q1 := { q with row := none, last := some (tok, pos), hist := h.drop (h.length - 4096), toks := smPut q.toks pos tok }
    let s1 := s.putEntry j.tenant r.ring tok fin r.handle pos lp
    match q1.job with
    | none => s1.setSeq r.slot q1
    | some g =>
      let g1 := { g with made := g.made + 1, todo := [tok], decoding := true, step := none, sampled := false, take := 0 }
      let s2 := s1.setSeq r.slot { q1 with job := some g1 }
      match fin with
      | some x => s2.genEnd r.slot scOK 0 (g1.made + x * 2 ^ 21)
      | none => s2

/-- Drops a row: no entry is written, its slot returns, and its sequence's length reverts. -/
def State.dropRow (s : State) (j : SampJob) (r : SRow) (status flags detail : Nat) : State :=
  let s1 := s.dropSlots j.tenant r.ring 1
  match s1.seq r.slot with
  | none => s1
  | some q => match q.job with
    | none => s1.setSeq r.slot { q with row := none }
    | some g => (s1.setSeq r.slot ({ q with row := none, job := some { g with step := none } }.revert g.base)).genEnd r.slot status flags detail

/-- The row of a decision commits or is dropped, and the job moves on. -/
def State.commitRow (s : State) (j : SampJob) (r : SRow) (p : Pick) : State × SampJob :=
  let j1 := { j with next := j.next + 1, pick := none }
  match s.seq r.slot with
  | none => (s.dropSlots j.tenant r.ring 1, j1)
  | some q =>
    let st := (q.job.map GenJob.cancelStatus).getD scCANCELLED
    if q.mark ∨ q.state = sqFAILED then
      ((s.dropRow j r (if q.state = sqFAILED then scPOISON else st) (if q.state = sqFAILED then 0 else cfDROPPED) 0).countUp pgSMP r_SMP_ROWS_DROPPED
        (if q.mark then 1 else 0), { j1 with dropped := j.dropped + (if q.mark then 1 else 0) })
    else match p with
      | .tok id lp => (s.commitTok j r id lp, { j1 with committed := j.committed + 1 })
      | .noCand =>
        let pos := s.nextPos q
        let s1 := (s.putEntry j.tenant r.ring (s.freeBelow 0x40000) (some 5) r.handle pos 0).used
        let s2 := s1.setSeq r.slot { q with row := none, job := q.job.map (fun g => { g with step := none }) }
        (s2.genEnd r.slot scNOCAND 0 pos, { j1 with committed := j.committed + 1 })
      | .err status detail =>
        let s1 := s.dropRow j r status 0 detail
        if j.step.isSome then (s1, j1) else (s1, { j1 with fail := some (status, detail) })

/-- The sequences of a SAMPLE's rows keep no mark once it ends (R209). -/
def State.clearMarks (s : State) (j : SampJob) : State :=
  j.rows.foldl (fun (a : State) r => match a.seq r.slot with
    | some q => if q.hosted then a.setSeq r.slot { q with mark := false, row := none } else a
    | none => a) s

/-- Drops the rows of a job that are left. -/
def State.dropRest (s : State) (k : Nat) (j : SampJob) : State :=
  let rest := j.rows.drop j.next
  let s1 := rest.foldl (fun (a : State) r => a.dropSlots j.tenant r.ring 1) s
  let s2 := s1.clearMarks j
  { s2 with srv := { s2.srv with jobs := smDel s2.srv.jobs k } }

/-- Ends a job whose rows are all done, or that a row has failed. -/
def State.jobEnd (s : State) (k : Nat) (j : SampJob) : State :=
  match j.fail with
  | some (st, d) => match j.tag with
    | some t => (s.dropRest k j).opEnd t st d 0
    | none => s.dropRest k j
  | none =>
    if j.next < j.rows.length then s.setJob k j
    else
      let s1 := s.clearMarks j
      let s2 := { s1 with srv := { s1.srv with jobs := smDel s1.srv.jobs k } }
      match j.tag with
      | some t => s2.opEnd t scOK (j.committed + 8192 * j.dropped) 0
      | none => s2

/-! ### SAMPLE (R220) -/

/-- Rules of the SAMPLE argument block. -/
def sampleArgFault (a : List Byte) : Option Nat :=
  match firstBad [(0x08, leAt a 8 8 % 64 == 0), (0x10, 1 ≤ leAt a 0x10 4 && leAt a 0x10 4 ≤ 4096), (0x14, 2 ≤ leAt a 0x14 4 && leAt a 0x14 4 ≤ 262144),
      (0x18, leAt a 0x18 4 < 2), (0x1C, leAt a 0x1C 4 < 16)] with
  | some d => some d
  | none => rsvByte a [(0x28, 24)]

/-- The first row of a SAMPLE that may not be sampled. -/
def State.sampleRowFault (s : State) (t : Nat) (hs : List Nat) : Option (Nat × Nat) :=
  (List.range hs.length).findSome? (fun i =>
    let h := hs.getD i 0
    match s.named t h with
    | none => some (scSEQUNKNOWN, h)
    | some (_, q) =>
      if !q.hosted then some (scMODE, h)
      else if q.state = sqFAILED then some (scPOISON, 0)
      else if q.row.isSome ∨ (hs.take i).contains h ∨ q.state = sqCLOSING then some (scSEQBUSY, h)
      else none)

/-- A SAMPLE whose waits are met: checked, and started once its ring has a free slot for every row; until then it waits (`s0`). -/
def State.sampleStart (s s0 : State) (tag : Nat) (o : Op) : State :=
  let t := o.tenant
  let w := o.who tag
  s.withArg tag o 64 (fun a =>
    match sampleArgFault a with
    | some d => s.opEnd tag scARG d 0
    | none =>
      let n := leAt a 0x10 4
      let r := leAt a 0x1C 4
      if !s.ringValid t r then s.opEnd tag scOWNED 0x1C 0
      else match s.readDva w (leAt a 0x20 8) (16 * n) with
        | .bad d e => s.opFault tag o d e false 0x20
        | .ok tb p =>
          if p then s.opEnd tag scPOISON 0 0
          else
            let hs := (List.range n).map (fun i => leAt tb (16 * i) 3)
            match s.sampleRowFault t hs with
            | some (st, d) => s.opEnd tag st d 0
            | none =>
              let bl := (List.range n).map (fun i => s.readDva w (leAt tb (16 * i + 8) 8) 128)
              match bl.findSome? (fun x => match x with | .bad d e => some (d, e) | .ok _ _ => none) with
              | some (d, e) => s.opFault tag o d e false 0x20
              | none =>
                let bs := bl.map (fun x => match x with | .ok b _ => b | .bad _ _ => [])
                if bl.any (fun x => match x with | .ok _ p => p | .bad _ _ => false) then s.opEnd tag scPOISON 0 0
                else match bs.findSome? samplingFault with
                  | some d => s.opEnd tag scARG d 0
                  | none =>
                    if s.slotsFree t r < n then s0.event (smpPg t) ev_smpT_RING_STALL
                    else
                      let rows := (List.range n).map (fun i =>
                        (⟨hs.getD i 0 % 65536, hs.getD i 0, bs.getD i [], leAt a 0 8 + i * leAt a 8 8, r⟩ : SRow))
                      let s1 := (s.setOp tag { o with args := a, parts := 1 }).holdSlots t r n
                      let s2 := rows.foldl (fun (c : State) x => match c.seq x.slot with
                        | some q => c.setSeq x.slot { q with row := some tag }
                        | none => c) s1
                      s2.setJob tag ⟨t, some tag, none, leAt a 0x14 4, leAt a 0x18 4 == 1, rows, 0, none, 0, 0, none⟩)

/-- SAMPLE. -/
def execSample (tag : Fin 8192) (now : DWord) (s : State) : Host.Outcome State Fault Refusal :=
  .next (s.issue tag.val 7 now.toNat (fun a o => if a.running pgSMP then a.sampleStart (s.at now.toNat) tag.val o else s))

/-! ### PREFIX_LOOKUP (R216) -/

/-- Rules of the PREFIX_LOOKUP argument block. -/
def lookupArgFault (a : List Byte) : Option Nat :=
  match firstBad [(0x08, 1 ≤ leAt a 8 4 && leAt a 8 4 ≤ 32768), (0x0C, leAt a 0xC 4 / 2 ^ 24 == 0), (0x10, leAt a 0x10 4 < 2)] with
  | some d => some d
  | none => rsvByte a [(0x14, 4), (0x20, 32)]

/-- A PREFIX_LOOKUP whose waits are met. -/
def State.lookupStart (s : State) (tag : Nat) (o : Op) : State :=
  let w := o.who tag
  s.withArg tag o 64 (fun a =>
    match lookupArgFault a with
    | some d => s.opEnd tag scARG d 0
    | none =>
      let n := leAt a 8 4
      let h := leAt a 0xC 3
      match s.named o.tenant h with
      | none => s.opEnd tag scSEQUNKNOWN h 0
      | some (slot, q) =>
        if !q.hosted then s.opEnd tag scMODE h 0
        else if q.state = sqFAILED then s.opEnd tag scPOISON 0 0
        else if q.row.isSome ∨ q.state ≠ sqIDLE ∨ s.seqLen q % 32 ≠ 0 ∨ (s.pendingOf q).isSome then s.opEnd tag scSEQBUSY h 0
        else match s.readDva w (leAt a 0 8) (128 * n) with
          | .bad d e => s.opFault tag o d e false 0
          | .ok tb p =>
            if p then s.opEnd tag scPOISON 0 0
            else
              let out := leAt a 0x18 8
              match (if out = 0 then none else s.writeFault w 0 (cuts out (16 * n))) with
              | some (d, e) => s.opFault tag o d e true 0x18
              | none =>
                let (s1, ls) := s.prefixLookup slot ((List.range (32 * n)).map (fun i => leAt tb (4 * i) 4)) (leAt a 0x10 4 == 1)
                let bytes := ls.flatMap (fun x => toLe 8 x.h ++ toLe 4 (x.set.getD 0xFFFFFF) ++ toLe 4 (if x.set.isSome then 1 else 0))
                let s2 := if out = 0 then s1 else s1.writeDva w out bytes
                s2.opEnd tag scOK (ls.filter (fun x => x.set.isSome)).length 0)

/-- PREFIX_LOOKUP. -/
def execPrefixLookup (tag : Fin 8192) (now : DWord) (s : State) : Host.Outcome State Fault Refusal :=
  .next (s.issue tag.val 0x10 now.toNat (fun a o => if a.running pgGLZ then a.lookupStart tag.val o else s))

/-! ### Shared prefix domains (R215, R225) -/

/-- The domain that SMP_DOM_SEL selects, none below 64. -/
def State.selDom (s : State) : Option Nat :=
  let d := s.fld pgSMP f_SMP_DOM_SEL_DOMAIN
  if d < 64 then none else some d

/-- Installs a key: the domain's EPOCH advances and its entries are invalid. -/
def State.installDomKey (s : State) (d key : Nat) : State :=
  let x := s.sdom d
  let s1 := s.setSdom d { x with key := key, epoch := (x.epoch + 1) % 256 }
  (s1.dropPrefixes (fun e => e.domain == d) false).event pgSMP ev_smp_DOMAIN_KEY

/-- A write of SMP_DOM_KEY3. -/
def State.domKey3 (s : State) (v : Word) : State :=
  match s.selDom with
  | none => s.discard pgSMP
  | some d =>
    let k := fun (w : Nat) => (s.word pgSMP (r_SMP_DOM_KEY w)).toNat
    s.installDomKey d (k 0 + 2 ^ 32 * k 1 + 2 ^ 64 * k 2 + 2 ^ 96 * v.toNat)

/-- A write of SMP_DOM_CTRL: VALID, and GEN_KEY's random key. -/
def State.domCtrl (s : State) (v : Word) : State :=
  let s0 := s.noteRsv pgSMP r_SMP_DOM_CTRL v
  match s0.selDom with
  | none => s0.discard pgSMP
  | some d =>
    let x := s0.sdom d
    let on := fldGet v f_SMP_DOM_CTRL_VALID == 1
    let s1 := s0.setSdom d { x with valid := on }
    let s2 := if x.valid && !on then s1.dropPrefixes (fun e => e.domain == d) false else s1
    if fldGet v f_SMP_DOM_CTRL_GEN_KEY = 1 ∧ !s2.sec.trngFail then (s2.installDomKey d (s2.freeBelow (2 ^ 128))).used else s2

/-- DOMAIN_KEY_INSTALL. -/
def execDomainKeyInstall (v : Word) (s : State) : Host.Outcome State Fault Refusal := .next (s.via 0 (fun a => a.domKey3 v))

/-- GEN_KEY: a write of SMP_DOM_CTRL. -/
def execGenKey (v : Word) (s : State) : Host.Outcome State Fault Refusal := .next (s.via 0 (fun a => a.domCtrl v))

/-- SHARED_DOMAIN_VALID: a write of SMP_DOM_CTRL. -/
def execSharedDomainValid (v : Word) (s : State) : Host.Outcome State Fault Refusal := .next (s.via 0 (fun a => a.domCtrl v))

/-- SMP_DECISIONS_READ. -/
def execSmpDecisionsRead (s : State) : Host.Outcome State Fault Refusal :=
  .next (s.via 0 (fun a => a.readWide pgSMP r_SMP_DECISIONS_LO))

end Sys2Proof.Machine
end

