-- ==== Sys2Proof/Machine/Serving.lean ====
section
/-! DEFINITION. Serving (09): request commands, plans, batch steps, GLAZE_MOVE, and the ends of operations with what they bring about. -/

namespace Sys2Proof.Machine

open Sys2Proof

/-! ### Freeing sequences (R196, R199) -/

/-- Has a sequence work in flight: a row, a GENERATE, an operation or a batch step? -/
def State.seqWork (s : State) (slot : Nat) (q : Seq) : Bool :=
  q.row.isSome || q.job.isSome || s.seqBusyOps slot || s.srv.steps.any (fun e => e.2.rows.any (fun r => r.slot == slot))

/-- A CLOSING sequence with no work left is FREE: pages and slot return, and its handle's generation advances. -/
def State.freeSeq (s : State) (slot : Nat) (reclaimed : Bool) : State :=
  match s.seq slot with
  | none => s
  | some q =>
    let s1 := (s.moveDrop slot).freePages slot reclaimed
    let s2 := { s1 with srv := { s1.srv with seqs := smDel s1.srv.seqs slot, gens := smSet 0 s1.srv.gens slot ((s1.seqGen slot + 1) % 256) } }
    let c : UnitClass := if q.state = sqCLOSING then .transit else .held
    let s3 := if reclaimed then s2.reclaim pgSMP 0 c 1 else s2.move pgSMP 0 c .free 1
    match q.close with
    | some r => s3.postReq r scOK 0 0
    | none => s3

/-- Frees the CLOSING sequences that have no work left. -/
def State.closeIdle (s : State) : State :=
  (s.srv.seqs.filter (fun e => e.2.state == sqCLOSING && e.2.close.isSome)).foldl (fun (a : State) e =>
    match a.seq e.1 with
    | some q => if q.state ≠ sqCLOSING ∨ a.seqWork e.1 q then a else a.freeSeq e.1 false
    | none => a) s

/-! ### Batch steps (R202 to R205) -/

def stepKey (t plan k : Nat) : Nat := (t * 4 + plan) * 2 ^ 48 + k
def stepJob (key : Nat) : Nat := 8192 + key
def State.stepAt (s : State) (key : Nat) : Option Step := smFind s.srv.steps key
def State.setStep (s : State) (key : Nat) (x : Step) : State := { s with srv := { s.srv with steps := smPut s.srv.steps key x } }
def State.dropStep (s : State) (key : Nat) : State := { s with srv := { s.srv with steps := smDel s.srv.steps key } }

/-- Is an operation of the step in flight? -/
def State.stepOps (s : State) (key : Nat) : Bool := s.ops.ops.any (fun e => decide (64 ≤ e.2.ring) && !e.2.cad && e.2.cq == key)

/-- Statuses after which a step is reissued (R205). -/
def retryable (st : Nat) : Bool := st == scCORE || st == scPANEL || st == scRESTORE || st == scLINK || st == scTIMEOUT

/-- The slots of a step's rows, each once. -/
def Step.slots (x : Step) : List Nat := (x.rows.filter (fun r => r.first)).map (fun r => r.slot)

/-- A step fails for good: the generation of every row ends with STEP_FAILED, each sequence as it was before the step. -/
def State.stepFail (s : State) (key : Nat) (x : Step) (st opc : Nat) : State :=
  let s0 : State := { s with srv := { s.srv with jobs := smDel s.srv.jobs (stepJob key) } }
  let s1 := x.slots.foldl (fun (a : State) slot =>
    match a.seq slot with
    | none => a
    | some q => match q.job with
      | none => a
      | some g =>
        if g.step ≠ some key then a
        else
          let a1 := if g.sampled then a.dropSlots q.tenant g.req.tring 1 else a
          (a1.setSeq slot ({ q with row := none, job := some { g with step := none } }.revert g.base)).genEnd slot scSTEPFAILED 0 (st + 256 * opc)) s0
  s1.dropStep key

/-- The operations of a step have ended: its rows without SAMPLE advance, and marks and ends of prefill are observed (R206 to R208). -/
def State.stepAdvance (s : State) (key : Nat) (x : Step) : State :=
  x.slots.foldl (fun (a : State) slot =>
    match a.seq slot with
    | none => a
    | some q => match q.job with
      | none => a
      | some g =>
        if g.step ≠ some key ∨ g.sampled then a
        else
          let g1 := { g with step := none, todo := g.todo.drop g.take, take := 0 }
          let a1 := a.setSeq slot { q with job := some g1 }
          if q.state = sqFAILED then a1.genEnd slot scPOISON 0 0
          else if q.mark then a1.genEnd slot g.cancelStatus (if g.timedOut then 0 else cfDROPPED) 0
          else if q.state = sqPAUSING then a1.genEnd slot scOK 0 (g1.made + 4 * 2 ^ 21)
          else if g1.todo = [] ∧ g1.maxNew = 0 then a1.genEnd slot scOK 0 g1.made
          else a1) s

/-- Looks at a step whose operations may all have ended. -/
def State.stepSettle (s : State) (key : Nat) : State :=
  match s.stepAt key with
  | none => s
  | some x =>
    if s.stepOps key then s
    else match x.fail with
      | some (st, opc) => if retryable st ∧ x.tries < 2 then s else s.stepFail key x st opc
      | none =>
        let s1 := if x.settled then s else (s.stepAdvance key x).setStep key { x with settled := true }
        if x.sampled ∧ (s1.jobOf (stepJob key)).isNone then s1.dropStep key else s1

/-- Takes in the ends of Easel firmware's operations: each tag returns, and its step notes a failure (one that R205 does not retry before one that it
does) and WINDOW_OVF. -/
def State.easelDrain (s : State) : State :=
  let l := s.srv.done
  let s0 : State := { s with srv := { s.srv with done := [] } }
  let s1 := l.foldl (fun (a : State) e =>
    let (key, r) := e
    let a1 := match a.op r.tag with
      | some o => if o.phase = OpPhase.due then a.returnTag r.tag else a
      | none => a
    match a1.stepAt key with
    | none => a1
    | some x =>
      let worse := match x.fail with
        | none => decide (r.status ≠ 0)
        | some (st, _) => decide (r.status ≠ 0) && retryable st && !retryable r.status
      let a2 := if worse then a1.setStep key { x with fail := some (r.status, r.opcode) } else a1
      if bits r.flags 3 3 = 1 then
        x.slots.foldl (fun (c : State) slot => match c.seq slot with
          | some q => c.setSeq slot { q with job := q.job.map (fun g => { g with ovf := true }) }
          | none => c) a2
      else a2) s0
  l.foldl (fun (a : State) e => a.stepSettle e.1) s1

/-- Clears what operations that have ended or been abandoned held of the Glaze Unit and the Sampler. -/
def State.srvSweep (s : State) : State :=
  let live := fun (a : State) (tag : Nat) => (a.op tag).any (fun o => o.phase == .issued && !o.abandoned)
  let s1 := (s.srv.apps.map (fun e => e.1) ++ s.srv.atts.map (fun e => e.1)).foldl (fun (a : State) tag =>
    if live a tag then a else a.glzEnd tag ((a.op tag).map (fun o => o.status) |>.getD 0) 0) s
  let s2 := s1.srv.jobs.foldl (fun (a : State) e => match e.2.tag with
    | some tag => if live a tag then a else
        ((a.dropRest e.1 e.2).countUp pgSMP r_SMP_ROWS_DROPPED (e.2.rows.length - e.2.next)).opEnd tag ((a.op tag).map (fun o => o.status) |>.getD 0) 0 0
    | none => a) s1
  (s2.easelDrain).closeIdle

/-- TOKEN_COMMIT: the decided row of a sampling job commits or is dropped. -/
def execTokenCommit (job : Nat) (now : DWord) (s : State) : Host.Outcome State Fault Refusal :=
  .next (match s.jobOf job with
    | none => s
    | some j =>
      match j.rows[j.next]?, j.pick with
      | some r, some p =>
        let (s1, j1) := (s.at now.toNat).commitRow j r p
        let s2 := s1.jobEnd job j1
        (match j.step with
          | some key => s2.stepSettle key
          | none => s2).closeIdle
      | _, _ => s)

/-! ### Plans (R201, R202) -/

def State.plan (s : State) (t p : Nat) : List Byte := smGet [] s.srv.plans (t * 4 + p)
def planTemplates (b : List Byte) : Nat := leAt b 0x24 4 % 64
def planDesc (b : List Byte) (i : Nat) : List Byte := sub b (0x80 + 128 * i) 64
def planRole (b : List Byte) (i : Nat) : Nat := leAt b (0x80 + 128 * i + 64) 4

/-- The first broken rule of a template, by its offset in the record. -/
def State.templateFault (s : State) (t : Nat) (b : List Byte) (i : Nat) : Option Nat :=
  let r := sub b (0x80 + 128 * i) 128
  let d := parseDesc r
  let role := leAt r 64 4
  let ok := if role = 0 then [1, 2, 3, 0xA, 0xB].contains d.opcode else if role = 1 then d.opcode == 4 else role == 2 && d.opcode == 5
  match s.descTests t d false with
  | some (st, x) => some (if st = scOPCODE then 0 else if st = scPRIV then 1 else if st = scORDER then 56 else x)
  | none =>
    if !ok then some 64
    else if leAt r 80 8 % 64 ≠ 0 then some 80
    else rsvByte r [(76, 4), (88, 40)]

/-- The first broken rule of a plan's header, by its offset (R201). -/
def State.planFault (s : State) (t : Nat) (b : List Byte) (n : Nat) : Option Nat :=
  let f := fun (o : Nat) => leAt b o 4
  let ctr := fun (x : Nat) => cfValid x && cfClean x && (s.relCounter t (cfCounter x)).isSome
  let el := if f 0x4C % 2 = 1 then 4 else 2
  let w := bareWho t
  let tr := fun (a : Nat) (wr : Bool) => match s.translate w 0 a wr with | .ok _ => true | .error _ => false
  match firstBad [(0, f 0 == 0x4E414C50), (4, f 4 == 1), (8, f 8 == n && n == 128 + 128 * f 0x24 + 64 && n ≤ 8192), (0xC, 2 ≤ f 0xC && f 0xC ≤ 262144),
      (0x18, 1 ≤ f 0x18 && f 0x18 ≤ 4096), (0x1C, 32 ≤ f 0x1C && f 0x1C ≤ 8192 && f 0x1C % 32 == 0), (0x20, 32 ≤ f 0x20 && f 0x20 ≤ 1048576),
      (0x24, 1 ≤ f 0x24 && f 0x24 ≤ 56), (0x28, leAt b 0x28 8 % 64 == 0 && tr (leAt b 0x28 8) true), (0x30, 2 ≤ f 0x30 && f 0x30 ≤ 8),
      (0x34, f 0x34 % 64 == 0 && 64 + 16 * f 0x18 ≤ f 0x34), (0x38, leAt b 0x38 8 % 64 == 0 && tr (leAt b 0x38 8) false),
      (0x40, f 0x18 * f 0x48 ≤ leAt b 0x40 8), (0x48, f 0x48 % 64 == 0 && f 0xC * el ≤ f 0x48), (0x4C, f 0x4C < 2), (0x50, ctr (f 0x50)),
      (0x54, 1 ≤ f 0x54), (0x58, ctr (f 0x58))] with
  | some o => some o
  | none =>
    match rsvByte b [(0x5C, 36)] with
    | some o => some o
    | none =>
      match (List.range (f 0x24)).findSome? (fun i => (s.templateFault t b i).map (fun o => 0x80 + 128 * i + o)) with
      | some o => some o
      | none => if sub b (n - 64) 48 = Config.sha384 (b.take (n - 64)) then none else some (n - 64)

/-- Takes an accepted request command of a code. -/
def State.takeReq (s : State) (i cmd now : Nat) (f : State → Req → State) : State :=
  match smFind s.srv.reqs i with
  | none => s
  | some r =>
    if r.cmd ≠ cmd ∨ !s.running pgSMP then s
    else f ({ s with srv := { s.srv with reqs := smDel s.srv.reqs i } }.at now) r

/-- Reads a request block, or ends the command. -/
def State.reqBlock (s : State) (r : Req) (n : Nat) (f : List Byte → State) : State :=
  let w : Who := { bareWho r.tenant with opcode := r.cmd }
  match s.readDva w r.arg n with
  | .bad d e => (s.mmuFault w d e false).postReq r (faultStatus e) 0 (faultDetail e 0x10008)
  | .ok b p => if p then s.postReq r scPOISON 0 0 else f b

/-- The effect of PLAN_LOAD. -/
def State.planLoad (s : State) (r : Req) : State :=
  s.reqBlock r 12 (fun a =>
    let t := r.tenant
    let n := leAt a 8 4
    let w : Who := { bareWho t with opcode := r.cmd }
    if s.srv.seqs.any (fun e => e.2.tenant == t && e.2.plan == r.plan) then s.postReq r scPLANBUSY 0 r.plan
    else if 8192 < n ∨ n % 64 ≠ 0 ∨ n < 192 then s.postReq r scPLANINVALID 0 8
    else match s.readDva w (leAt a 0 8) n with
      | .bad d e => (s.mmuFault w d e false).postReq r (faultStatus e) 0 (faultDetail e 0)
      | .ok b p =>
        if p then s.postReq r scPOISON 0 0
        else match s.planFault t b n with
          | some o => s.postReq r scPLANINVALID 0 o
          | none =>
            let s1 : State := { s with srv := { s.srv with plans := smPut s.srv.plans (t * 4 + r.plan) b } }
            s1.postReq r scOK 0 0)

/-- PLAN_LOAD: request i. -/
def execPlanLoad (i : Nat) (now : DWord) (s : State) : Host.Outcome State Fault Refusal :=
  .next (s.takeReq i 0x20 now.toNat (fun a r => if a.running pgEAS then a.planLoad r else s))

/-! ### OPEN, PAUSE, CANCEL, CLOSE -/

def seqReset (t plan domain : Nat) (hosted : Bool) : Seq :=
  { tenant := t, hosted := hosted, state := sqIDLE, plan := plan, domain := domain, geo := none, lens := [], last := none, hist := [], toks := [],
    hashes := [], blocks := [], leaves := [], mark := false, pause := none, parkTtl := none, close := none, job := none, row := none,
    expiry := none, lastGen := none }

/-- Is a plan of a tenant resident? -/
def State.planResident (s : State) (t p : Nat) : Bool := (smFind s.srv.plans (t * 4 + p)).isSome

/-- The effect of OPEN; the slot is the one the module picks, or another free one where that is in use. -/
def State.seqOpen (s : State) (r : Req) (pick : Nat) : State :=
  let t := r.tenant
  if s.fld pgSMP (f_SMP_SERVE_SEQS t) * 16 ≤ (s.srv.seqs.filter (fun e => e.2.tenant == t)).length then s.postReq r scSEQLIMIT 0 0
  else if !s.planResident t r.plan then s.postReq r scPLANUNKNOWN 0 r.plan
  else
    let slot := if (s.seq (pick % 65536)).isNone then some (pick % 65536) else smFresh s.srv.seqs 0 65536
    match slot with
    | none => s.postReq r scSEQLIMIT 0 0
    | some n =>
      let s1 := (s.setSeq n (seqReset t r.plan r.domain (r.cflags % 2 == 1))).move pgSMP 0 .free .held 1
      s1.postReq r scOK 0 (s1.handleOf n)

/-- OPEN: request i. -/
def execSeqOpen (i pick : Nat) (now : DWord) (s : State) : Host.Outcome State Fault Refusal :=
  .next (s.takeReq i 0x21 now.toNat (fun a r => a.seqOpen r pick))

/-- A command's sequence, or the record of a handle that names none or a FAILED one. -/
def State.withSeq (s : State) (r : Req) (f : Nat → Seq → State) : State :=
  match s.named r.tenant r.handle with
  | none => s.postReq r scSEQUNKNOWN 0 r.handle
  | some (slot, q) => if q.state = sqFAILED ∧ r.cmd ≠ 0x25 then s.postReq r scPOISON 0 0 else f slot q

/-- Has a generation a step in flight? -/
def GenJob.flying (j : GenJob) : Bool := j.step.isSome

/-- The effect of PAUSE (R207). -/
def State.seqPause (s : State) (r : Req) : State :=
  s.withSeq r (fun slot q =>
    let park := r.cflags % 2 == 1
    let ttl := if park then some r.ttl else none
    if q.state = sqPAUSING ∨ q.state = sqPARKING ∨ q.state = sqCLOSING then s.postReq r scSEQBUSY 0 r.handle
    else if q.state = sqEXPIRED then s.postReq r scSEQEXPIRED 0 r.handle
    else if q.state = sqPARKED then
      (if q.job.isSome then s.postReq r scSEQBUSY 0 r.handle else s.postReq r scOK 0 0)
    else match q.job with
      | none =>
        if park then s.setSeq slot { q with state := sqPARKING, pause := some r, parkTtl := ttl } else s.postReq r scOK 0 0
      | some j =>
        let s1 := s.setSeq slot { q with state := sqPAUSING, pause := some r, parkTtl := ttl }
        if !j.flying ∧ !j.decoding then s1.genEnd slot scOK 0 (j.made + 4 * 2 ^ 21) else s1)

/-- PAUSE: request i. -/
def execSeqPause (i : Nat) (now : DWord) (s : State) : Host.Outcome State Fault Refusal :=
  .next (s.takeReq i 0x23 now.toNat (fun a r => a.seqPause r))

/-- Sets CANCEL_LATE in the record of a sequence's last GENERATE, where it has not been posted yet: whether it was there (R208). -/
def State.lateMark (s : State) (q : Seq) : State × Bool :=
  match q.lastGen with
  | none => (s, false)
  | some (c, r, n) =>
    let x := s.cq q.tenant c
    let hit := fun (e : CRec) => e.noTag && e.ring == r && e.seq == n && e.opcode == 0x22 && e.status == 0
    if x.due.any hit then
      (s.setCq q.tenant c { x with due := x.due.map (fun e => if hit e then { e with flags := e.flags ||| 2 } else e) }, true)
    else (s, false)

/-- A cancel of a sequence: the state and 0 DROPPED, 1 LATE or 2 IDLE. -/
def State.cancelSeq (s : State) (slot : Nat) (q : Seq) (timedOut : Bool) : State × Nat :=
  if q.hosted then (if q.row.isSome then (s.setSeq slot { q with mark := true }, 0) else (s, 2))
  else match q.job with
    | none =>
      let x := s.lateMark q
      (x.1, if x.2 then 1 else 2)
    | some j =>
      let s1 := s.setSeq slot { q with mark := true, job := some { j with timedOut := timedOut } }
      if j.flying then (s1, 0) else (s1.genEnd slot (if timedOut then scTIMEOUT else scCANCELLED) (if timedOut then 0 else cfDROPPED) 0, 0)

/-- CANCEL: request i. -/
def execSeqCancel (i : Nat) (now : DWord) (s : State) : Host.Outcome State Fault Refusal :=
  .next (s.takeReq i 0x24 now.toNat (fun a r => a.withSeq r (fun slot q =>
    let x := a.cancelSeq slot q false
    x.1.postReq r scOK 0 x.2)))

/-- GENERATE_TIMEOUT: the TIMEOUT of a sequence's GENERATE expires. -/
def execGenerateTimeout (slot : Fin 65536) (now : DWord) (s : State) : Host.Outcome State Fault Refusal :=
  .next (match s.seq slot.val with
    | none => s
    | some q =>
      if q.job.any (fun j => j.req.timeout != 0 && j.req.timeout != 0xFFFFFFFF && !j.timedOut) ∧ !q.mark then
        (((s.at now.toNat).cancelSeq slot.val q true).1).closeIdle
      else s)

/-- The effect of CLOSE: a cancel, then FREE once nothing of the sequence is in flight. -/
def State.seqClose (s : State) (r : Req) : State :=
  s.withSeq r (fun slot q =>
    if q.state = sqCLOSING then s.postReq r scSEQBUSY 0 r.handle
    else
      let s1 := (s.cancelSeq slot q false).1
      match s1.seq slot with
      | none => s1
      | some q1 =>
        let s2 := match q1.pause with
          | some p => s1.postReq p scOK 0 0
          | none => s1
        ((s2.setSeq slot { q1 with state := sqCLOSING, close := some r, pause := none, parkTtl := none, expiry := none }).move pgSMP 0 .held .transit 1).closeIdle)

/-- CLOSE: request i. -/
def execSeqClose (i : Nat) (now : DWord) (s : State) : Host.Outcome State Fault Refusal :=
  .next (s.takeReq i 0x25 now.toNat (fun a r => a.seqClose r))

/-! ### GENERATE (R206) -/

/-- Rules of the GENERATE request block. -/
def genArgFault (a : List Byte) : Option Nat :=
  match firstBad [(0, leAt a 8 4 != 0 || leAt a 0 8 == 0), (8, leAt a 8 4 ≤ 1048576), (0xC, leAt a 0xC 4 ≤ 1048576), (0x10, leAt a 0x10 4 < 2)] with
  | some d => some d
  | none => match rsvByte a [(0x14, 44)] with
    | some d => some d
    | none => (samplingFault (sub a 0x40 128)).map (fun o => 0x40 + o)

/-- A generation begins on a sequence whose pages are in HBM: a prefix lookup at a block boundary, then prefill. -/
def State.genBegin (s : State) (slot : Nat) : State :=
  match s.seq slot with
  | none => s
  | some q => match q.job with
    | none => s
    | some j =>
      let n := s.seqLen q
      let pend := s.pendingOf q
      let ts := pend.toList ++ j.todo
      let toks := ((List.range ts.length).zip ts).foldl (fun (m : SMap Nat) x => smPut m (n + x.1) x.2) q.toks
      let s1 := s.setSeq slot { q with state := if q.state = sqCLOSING then sqCLOSING else sqGENERATING, toks := toks, job := some { j with todo := ts } }
      let (s2, ls) := if n % 32 = 0 ∧ pend.isNone then s1.prefixLookup slot ts (j.maxNew != 0) else (s1, [])
      let hit := (ls.filter (fun x => x.set.isSome)).length
      match s2.seq slot with
      | none => s2
      | some q2 =>
        let rest := ts.drop (32 * hit)
        let s3 := s2.setSeq slot { q2 with job := some { j with todo := rest } }
        if rest = [] ∧ j.maxNew = 0 then s3.genEnd slot scOK 0 0 else s3

/-- The effect of GENERATE. -/
def State.seqGenerate (s : State) (i : Nat) (r : Req) : State :=
  s.withSeq r (fun slot q =>
    if q.hosted then s.postReq r scMODE 0 r.handle
    else if q.state = sqEXPIRED then s.postReq r scSEQEXPIRED 0 r.handle
    else if q.job.isSome ∨ (q.state ≠ sqIDLE ∧ q.state ≠ sqPARKED) then s.postReq r scSEQBUSY 0 r.handle
    else if !s.planResident r.tenant r.plan then s.postReq r scPLANUNKNOWN 0 r.plan
    else s.reqBlock r 192 (fun a =>
      match genArgFault a with
      | some d => s.postReq r scARG 0 d
      | none =>
        let n := s.seqLen q
        let pend := s.pendingOf q
        let c := leAt a 8 4
        let w : Who := { bareWho r.tenant with opcode := r.cmd }
        let ctx := leAt (s.plan q.tenant q.plan) 0x20 4
        if c = 0 ∧ pend.isNone ∧ n = 0 ∧ leAt a 0xC 4 ≠ 0 then s.postReq r scARG 0 8
        else if ctx < n + pend.toList.length + c then s.postReq r scCONTEXT 0 n
        else match s.readDva w (leAt a 0 8) (4 * c) with
          | .bad d e => (s.mmuFault w d e false).postReq r (faultStatus e) 0 (faultDetail e 0)
          | .ok b p =>
            if p then s.postReq r scPOISON 0 0
            else
              let j : GenJob := { req := r, maxNew := leAt a 0xC 4, noPublish := leAt a 0x10 4 == 1, sampling := sub a 0x40 128, made := 0,
                                  todo := (List.range c).map (fun k => leAt b (4 * k) 4), decoding := false, base := n, step := none, take := 0,
                                  sampled := false, ovf := false, timedOut := false, order := i }
              let s1 := s.setSeq slot { q with job := some j, mark := false }
              if q.state = sqPARKED then s1 else s1.genBegin slot))

/-- GENERATE: request i. A PARKED sequence waits for its pages to be moved back (GLAZE_MOVE). -/
def execSeqGenerate (i : Nat) (now : DWord) (s : State) : Host.Outcome State Fault Refusal :=
  .next (s.takeReq i 0x22 now.toNat (fun a r => if a.running pgEAS ∧ a.running pgGLZ then a.seqGenerate i r else s))

/-! ### GLAZE_MOVE (R244) -/

/-- The move that Easel firmware owes a sequence: to the Loft for PAUSE with PARK, to HBM for GENERATE on a PARKED sequence. -/
def State.easelMove (s : State) (slot : Nat) : State :=
  match s.seq slot with
  | none => s
  | some q =>
    if q.state = sqPARKING then
      (if s.seqWork slot q then s
      else match s.moveOpen slot true none (q.parkTtl.getD 0) with
        | some s1 => s1
        | none =>
          let s1 := s.setSeq slot { q with state := sqIDLE, parkTtl := none, pause := none }
          (match q.pause with
            | some p => s1.postReq p scPAGES 0 (s.handleOf slot)
            | none => s1))
    else if q.state = sqPARKED ∧ q.job.isSome then
      (match s.moveOpen slot false none 0 with
        | some s1 => s1
        | none => s.genEnd slot scPAGES 0 (s.handleOf slot))
    else s

/-- A move ends: its sets are in the other tier; the sequence is PARKED and its PAUSE answered, or is IDLE and its GENERATE begins. One that is closing
or has failed meanwhile stays so (R245). -/
def State.moveClose (s : State) (slot : Nat) (m : SeqMove) : State :=
  let s1 := m.dests.foldl (fun (a : State) d => a.moveSet slot m.toLoft d) s
  let s2 : State := { s1 with srv := { s1.srv with moves := smDel s1.srv.moves slot } }
  let s3 := match s2.seq slot with
    | none => s2
    | some q =>
      if q.state = sqCLOSING ∨ q.state = sqFAILED then s2
      else if m.toLoft then
        (match q.pause with
          | some p => ((s2.setSeq slot { q with pause := none }).parked slot m.ttl).postReq p scOK 0 0
          | none => s2.parked slot m.ttl)
      else
        let s4 := s2.setSeq slot { q with state := sqIDLE, expiry := none }
        if q.job.isSome then s4.genBegin slot else s4
  match m.tag with
  | some t => s3.opEnd t scOK 0 0
  | none => s3

/-- The move in progress that a tag names, or that Easel firmware makes for a slot. -/
def State.moveOf (s : State) (tag : Option Nat) (slot : Nat) : Option (Nat × SeqMove) :=
  match tag with
  | some t => s.srv.moves.find? (fun e => e.2.tag == some t)
  | none => (smFind s.srv.moves slot).bind (fun m => if m.tag.isNone then some (slot, m) else none)

/-- GLAZE_MOVE: an operation of a submission ring by its tag, or Easel firmware's own for a sequence slot. The command comes twice: the first allocates
the destination sets, the second is the move's end (log entry 42). -/
def execGlazeMove (tag : Option (Fin 8192)) (slot : Fin 65536) (now : DWord) (s : State) : Host.Outcome State Fault Refusal :=
  .next (match s.moveOf (tag.map (fun t => t.val)) slot.val with
    | some (n, m) => if s.working pgGLZ then ((s.at now.toNat).moveClose n m).closeIdle else s
    | none => match tag with
      | some t => s.issue t.val 6 now.toNat (fun a o => if a.running pgGLZ then a.moveStart t.val o else s)
      | none => if s.running pgGLZ ∧ s.running pgEAS then ((s.at now.toNat).easelMove slot.val).closeIdle else s)

/-! ### Forming a step (R203, R204) -/

/-- What a step being formed has taken: rows, new page sets, token slots by ring, and whether a row found no slot. -/
structure Forming where
  rows : List StepRow
  sets : Nat
  fresh : List (Nat × Nat)   -- blocks that will need a set: slot and block
  slots : List (Nat × Nat)   -- token rings of the sampled rows, with the slot of each row's sequence
  stall : Bool
  deriving DecidableEq, Repr

/-- The geometry a plan appends into: that of its first APPEND template's argument block. -/
def State.planGeo (s : State) (t : Nat) (b : List Byte) : Option Nat :=
  match (List.range (planTemplates b)).find? (fun i => planRole b i == 2) with
  | none => none
  | some i => match s.readDva (bareWho t) (leAt (planDesc b i) 32 8) 64 with
    | .ok a _ => some (leAt a 0x30 4 % 8)
    | .bad _ _ => none

/-- Adds rows of a sequence, token by token, while each can have its page and, where it is sampled, its token slot. -/
def State.formRows (s : State) (t slot : Nat) (q : Seq) (j : GenJob) (geo : Option Nat) (n : Nat) : Forming → Nat → List Nat → Forming
  | f, _, [] => f
  | f, k, tok :: rest =>
    if n ≤ k then f
    else
      let pos := s.seqLen q + k
      let need := !(smFind q.blocks (pos / 32)).any (fun x => x.live) && !f.fresh.contains (slot, pos / 32)
      let page := match geo with
        | some g => !need || s.setsFit t g (f.sets + 1) false
        | none => true
      let samp := rest == [] && j.maxNew != 0
      let room := decide ((f.slots.filter (fun x => x.1 == j.req.tring)).length < s.slotsFree t j.req.tring)
      if !page then f
      else if samp ∧ !room then { f with stall := true }
      else
        let f1 := { f with rows := f.rows ++ [⟨slot, s.handleOf slot, tok, pos, samp, k == 0⟩], sets := f.sets + (if need then 1 else 0),
                           fresh := if need then f.fresh ++ [(slot, pos / 32)] else f.fresh,
                           slots := if samp then f.slots ++ [(j.req.tring, slot)] else f.slots }
        s.formRows t slot q j geo n f1 (k + 1) rest

/-- Sequences that may enter a step, in PRIORITY order and then by acceptance of their GENERATE. -/
def State.eligible (s : State) (t plan : Nat) (only : List Nat) : List (Nat × Seq × GenJob) :=
  let l := s.srv.seqs.filterMap (fun e => match e.2.job with
    | some j => if e.2.tenant = t ∧ e.2.plan = plan ∧ only.contains e.1 ∧ j.step.isNone ∧ !e.2.mark ∧ j.todo ≠ [] ∧
        (e.2.state = sqGENERATING ∨ e.2.state = sqPAUSING) then some (e.1, e.2, j) else none
    | none => none)
  l.mergeSort (fun x y => x.2.2.req.prio < y.2.2.req.prio || (x.2.2.req.prio == y.2.2.req.prio && decide (x.2.2.order ≤ y.2.2.order)))

/-- Forms the rows of a step: decode rows up to MAX_BATCH, then prefill rows. -/
def State.formStep (s : State) (t : Nat) (b : List Byte) (l : List (Nat × Seq × GenJob)) : Forming :=
  let geo := s.planGeo t b
  let maxB := leAt b 0x18 4
  let dec := l.filter (fun x => x.2.2.decoding)
  let pre := l.filter (fun x => !x.2.2.decoding)
  let f1 := dec.foldl (fun (f : Forming) x => if f.rows.length < maxB then s.formRows t x.1 x.2.1 x.2.2 geo 1 f 0 x.2.2.todo else f) ⟨[], 0, [], [], false⟩
  let f2 := { f1 with rows := f1.rows.mergeSort (fun x y => decide (x.slot ≤ y.slot)) }
  let cap := min maxB (f1.rows.length + leAt b 0x1C 4)
  pre.foldl (fun (f : Forming) x => s.formRows t x.1 x.2.1 x.2.2 geo (cap - f.rows.length) f 0 x.2.2.todo) f2

/-- The bytes of a batch record. -/
def batchBytes (k : Nat) (rows : List StepRow) : List Byte :=
  toLe 8 k ++ toLe 4 rows.length ++ toLe 4 (rows.filter (fun r => r.sample)).length ++ toLe 48 0 ++
  rows.flatMap (fun r => toLe 4 r.handle ++ toLe 4 (r.tok % 0x40000) ++ toLe 4 r.pos ++ toLe 4 ((if r.sample then 1 else 0) + (if r.first then 2 else 0)))

/-- Tags that Easel firmware holds for a tenant. -/
def State.easelTags (s : State) (t : Nat) : Nat := (s.ops.ops.filter (fun e => e.2.tenant == t && !e.2.cad && decide (64 ≤ e.2.ring))).length

/-- May Easel firmware take the tags of a step's templates? -/
def State.tagsFit (s : State) (t n : Nat) : Bool :=
  s.easelTags t + n ≤ s.fld pgSMP (f_SMP_SERVE_TAGS t) * 64 && s.tagsOf t + n ≤ s.fld (hmTEN t) f_HIF_TEN_CFG_TAGS

/-- Issues the templates of a step in index order, patched (R202). -/
def State.issueTemplates (s : State) (t plan k prio : Nat) (b : List Byte) : State :=
  (List.range (planTemplates b)).foldl (fun (a : State) i =>
    let r := sub b (0x80 + 128 * i) 128
    let d := parseDesc r
    let d1 := { d with
      priority := prio, seq := k % 2 ^ 32,
      thr0 := if cfValid d.wait0 then (d.thr0 + k * leAt r 68 4) % 2 ^ 64 else d.thr0,
      thr1 := if cfValid d.wait1 then (d.thr1 + k * leAt r 72 4) % 2 ^ 64 else d.thr1,
      arg := (d.arg + k % leAt b 0x30 4 * leAt r 80 8) % 2 ^ 64 }
    match a.pickTag 0 7936 7936 with
    | some tag => a.takeOp tag t (100 + plan) false (stepKey t plan k) d1 (timeoutOf d1 0)
    | none => a) s

/-- Writes the batch descriptor and issues the templates, or fails the step. -/
def State.batchPut (s : State) (t plan k prio : Nat) (b : List Byte) (key : Nat) (x : Step) (w : Who) (a : Nat) (bytes : List Byte) : State :=
  match s.writeFault w 0 (cuts a bytes.length) with
  | some (d, e) => (s.mmuFault w d e true).stepFail key x scTRANSLATION 0
  | none =>
    let s4 := (s.writeDva w a bytes).relAdd t (cfCounter (leAt b 0x58 4)) 1
    s4.issueTemplates t plan k prio b

/-- BATCH_STEP: a step of a tenant's plan, formed from the sequences named that are eligible. -/
def State.batchStep (s : State) (t plan : Nat) (only : List Nat) : State :=
  let b := s.plan t plan
  let k := smGet 0 s.srv.stepNo (t * 4 + plan)
  let key := stepKey t plan k
  let slots := leAt b 0x30 4
  let f := s.formStep t b (s.eligible t plan only)
  let s0 := if f.stall then s.event (smpPg t) ev_smpT_RING_STALL else s
  if b = [] ∨ f.rows = [] ∨ !s.tagsFit t (planTemplates b) ∨ (slots ≤ k ∧ (s.stepAt (stepKey t plan (k - slots))).isSome) then s0
  else
    let prio := f.rows.foldl (fun m r => match (s.seq r.slot).bind (fun q => q.job) with
      | some j => min m j.req.prio
      | none => m) 7
    let s1 := f.slots.foldl (fun (a : State) x => a.holdSlots t x.1 1) s0
    let s2 := (f.rows.filter (fun r => r.first)).foldl (fun (a : State) r => match a.seq r.slot with
      | some q =>
        let mine := f.rows.filter (fun x => x.slot == r.slot)
        a.setSeq r.slot { q with job := q.job.map (fun g => { g with step := some key, take := mine.length, base := a.seqLen q,
                                                                     sampled := mine.any (fun x => x.sample) }) }
      | none => a) s1
    let n := smSet 0 s2.srv.stepNo (t * 4 + plan) (k + 1)
    let x : Step := ⟨t, plan, k, f.rows, none, 0, !f.rows.any (fun r => r.sample), false⟩
    let s3 := ({ s2 with srv := { s2.srv with stepNo := n } } : State).setStep key x
    let w := bareWho t
    let a := leAt b 0x28 8 + k % slots * leAt b 0x34 4
    let bytes := batchBytes k f.rows
    s3.batchPut t plan k prio b key x w a bytes

/-- BATCH_STEP. -/
def execBatchStep (t : Fin 33) (plan : Fin 4) (only : List Nat) (now : DWord) (s : State) : Host.Outcome State Fault Refusal :=
  .next (if s.running pgEAS ∧ s.running pgSMP ∧ s.running pgGLZ ∧ s.tenantRunning t.val then ((s.at now.toNat).batchStep t.val plan.val only) else s)

/-- STEP_REISSUE: after a failure that R205 retries, with every operation of the step ended. -/
def execStepReissue (t : Fin 33) (plan : Fin 4) (k : Nat) (now : DWord) (s : State) : Host.Outcome State Fault Refusal :=
  let key := stepKey t.val plan.val k
  .next (match s.stepAt key with
    | none => s
    | some x =>
      let b := s.plan t.val plan.val
      if s.stepOps key ∨ !x.fail.any (fun f => retryable f.1) ∨ 2 ≤ x.tries ∨ !s.tagsFit t.val (planTemplates b) ∨ !s.running pgEAS then s
      else
        let prio := x.rows.foldl (fun m r => match (s.seq r.slot).bind (fun q => q.job) with
          | some j => min m j.req.prio
          | none => m) 7
        ((s.at now.toNat).setStep key { x with fail := none, tries := x.tries + 1 }).issueTemplates t.val plan.val k prio b)

/-- EASEL_SAMPLE_ISSUE: SAMPLE_WAIT's counter has reached the step's threshold. -/
def execEaselSampleIssue (t : Fin 33) (plan : Fin 4) (k : Nat) (now : DWord) (s : State) : Host.Outcome State Fault Refusal :=
  let key := stepKey t.val plan.val k
  .next (match s.stepAt key with
    | none => s
    | some x =>
      let b := s.plan t.val plan.val
      if x.sampled ∨ !s.running pgEAS ∨ !s.running pgSMP ∨ !s.waitMet t.val (leAt b 0x50 4) ((k + 1) * leAt b 0x54 4) then s
      else
        let rows := x.rows.filter (fun r => r.sample)
        let base := leAt b 0x38 8 + k % leAt b 0x30 4 * leAt b 0x40 8
        let srs := ((List.range rows.length).zip rows).filterMap (fun r => match (s.seq r.2.slot).bind (fun q => q.job) with
          | some j => if j.step = some key then some (⟨r.2.slot, r.2.handle, j.sampling, base + r.1 * leAt b 0x48 4, j.req.tring⟩ : SRow) else none
          | none => none)
        let s1 := (s.at now.toNat).setStep key { x with sampled := true }
        let s2 := srs.foldl (fun (a : State) r => match a.seq r.slot with
          | some q => a.setSeq r.slot { q with row := some (stepJob key) }
          | none => a) s1
        if srs = [] then s2.stepSettle key
        else s2.setJob (stepJob key) ⟨t.val, none, some key, leAt b 0xC 4, leAt b 0x4C 4 == 1, srs, 0, none, 0, 0, none⟩)

end Sys2Proof.Machine
end

