-- ==== Sys2Proof/Machine/Vce.lean ====
section
/-! DEFINITION. The Video Codec Engines (11): stream contexts, decoding to surfaces and to palettes, encoding, and palette destination slots. -/

namespace Sys2Proof.Machine

open Sys2Proof

/-! ### Statuses (R278) -/

def scSTREAM : Nat := 0x60
def scCTXUNKNOWN : Nat := 0x61
def scCTXLIMIT : Nat := 0x62
def scDESTBUSY : Nat := 0x63
def scPARAM : Nat := 0x64
def scKIND : Nat := 0x65

/-- VCE_T_CTX.STATE codes. -/
def vcOPEN : Nat := 1
def vcSTALLED : Nat := 2
def vcFLUSHING : Nat := 3
def vcCLOSING : Nat := 4
def vcFAILED : Nat := 5

/-! ### Contexts -/

def vkey (e c : Nat) : Nat := e * 256 + c
def State.vctx (s : State) (e c : Nat) : Option VCtx := smFind s.vce.ctxs (vkey e c)
def State.setVctx (s : State) (e c : Nat) (x : VCtx) : State :=
  { s with vce := { s.vce with ctxs := smPut s.vce.ctxs (vkey e c) x } }
def State.vgen (s : State) (e c : Nat) : Nat := smGet 0 s.vce.gens (vkey e c)
def State.setDec (s : State) (e : Nat) (r : Option VRun) : State :=
  { s with vce := { s.vce with dec := match r with | some x => smPut s.vce.dec e x | none => smDel s.vce.dec e } }
def State.setEnc (s : State) (e : Nat) (r : Option VRun) : State :=
  { s with vce := { s.vce with enc := match r with | some x => smPut s.vce.enc e x | none => smDel s.vce.enc e } }

/-- Contexts of an engine that are not FREE, and those of one tenant. -/
def State.vctxs (s : State) (e : Nat) : List (Nat × VCtx) :=
  (s.vce.ctxs.filter (fun x => x.1 / 256 == e)).map (fun x => (x.1 % 256, x.2))
def State.vctxsOf (s : State) (e t : Nat) : List (Nat × VCtx) := (s.vctxs e).filter (fun x => x.2.tenant == t)

/-- The context, not FREE, that a handle names for a tenant (R251). -/
def State.heldCtx (s : State) (e t h : Nat) : Option VCtx :=
  match s.vctx e (h % 256) with
  | some x => if x.tenant = t ∧ s.vgen e (h % 256) = h / 256 then some x else none
  | none => none

/-- The context that a command may name. DESIGN CHOICE (log entry 43): one that is CLOSING is unknown to commands. -/
def State.handled (s : State) (e t h : Nat) : Option VCtx := (s.heldCtx e t h).filter (fun x => x.state != vcCLOSING)

/-- The tenant's view page of an engine. -/
def vceView (t e : Nat) : Nat := tenantPage t (8 + e)

/-- Does a frame of the context occupy its pipeline? -/
def State.vBusy (s : State) (e c : Nat) : Bool :=
  (smFind s.vce.dec e).any (fun r => r.ctx == c) || (smFind s.vce.enc e).any (fun r => r.ctx == c)

/-! ### Parameter block fields (R257, R270) -/

def vpDest (p : List Byte) : Bool := leAt p 8 4 % 2 == 1
def vpSlot (p : List Byte) : Nat := bits (leAt p 8 4) 11 8
def vpIngest (p : List Byte) : Bool := leAt p 4 4 % 2 == 1
def vpPriority (enc : Bool) (p : List Byte) : Nat := if enc then leAt p 0x38 4 % 8 else leAt p 0xC 4 % 8

/-- A = the picture area rounded up to whole 64 × 64 blocks. -/
def vArea (w h : Nat) : Nat := (w + 63) / 64 * 64 * ((h + 63) / 64 * 64)

/-- What of a decode parameter block bears on the samples. -/
def vdecKey (p : List Byte) : List Nat :=
  [leAt p 0 4, leAt p 0xC 4 / 256, leAt p 0x10 4, leAt p 0x14 4, leAt p 0x18 4]

/-- A counter field that is clean and, where VALID, lies in the allocation. -/
def State.vCounterOk (s : State) (t f : Nat) : Bool := cfClean f && (!cfValid f || (s.relCounter t (cfCounter f)).isSome)

/-- Is every byte of a range zero? -/
def zeroAt (p : List Byte) (o n : Nat) : Bool := (sub p o n).all (fun b => b == 0)


/-- Is a palette destination slot committed, bound; the tenant it serves. -/
def State.pdCommitted (s : State) (e n : Nat) : Bool := s.fld (pgVCE e) f_VCE_PDEST_STATUS_COMMITTED / 2 ^ n % 2 == 1
def State.pdBound (s : State) (e n : Nat) : Bool := s.fld (pgVCE e) f_VCE_PDEST_STATUS_BOUND / 2 ^ n % 2 == 1
def State.pdDesc (s : State) (e n : Nat) : Nat :=
  (s.word (pgVCE e) (r_VCE_PDEST_DESC_LO n)).toNat + 2 ^ 32 * (s.word (pgVCE e) (r_VCE_PDEST_DESC_HI n)).toNat
def State.pdTenant (s : State) (e n : Nat) : Nat := s.fld (pgVCE e) (f_VCE_PDEST_TARGET_TENANT n)
def State.pdFirst (s : State) (e n : Nat) : Nat := s.fld (pgVCE e) (f_VCE_PDEST_TARGET_PANEL n)
def State.pdRegion (s : State) (e n : Nat) : Nat := s.fld (pgVCE e) (f_VCE_PDEST_TARGET_REGION n)

/-- Sets or clears one bit of a 16-bit mask field. -/
def State.setBit (s : State) (page : Nat) (f : Fld) (n : Nat) (on : Bool) : State :=
  let old := s.fld page f
  let rest := old - old / 2 ^ n % 2 * 2 ^ n
  s.setFld page f (if on then rest + 2 ^ n else rest)

/-- May a decode context take the Ingest stream it names (R258, R381): one whose words in force name this engine's VCE, and which feeds
no other context? -/
def State.ingestOk (s : State) (e n : Nat) : Bool :=
  (smFind s.ing.streams n).any (fun x => x.cfg.any (fun c => c.getD 6 0 % 4 == 3 && bits (c.getD 6 0) 16 16 == e)) &&
  !([0, 1].any (fun g => (s.vctxs g).any (fun x => !x.2.enc && vpIngest x.2.params && leAt x.2.params 5 1 == n && x.2.state != vcCLOSING)))

/-- The first rule of the decode parameter block (R257, R263) that is broken. -/
def State.vdecParamFault (s : State) (e t : Nat) (p : List Byte) : Option Nat :=
  let codec := leAt p 0 4
  let es := if codec = 2 then 1 else 2
  let mw := leAt p 0x10 4
  let mh := leAt p 0x14 4
  let dpb := leAt p 0x18 4
  let a := vArea mw mh
  let pal := vpDest p
  let slot := vpSlot p
  let lo := fun (v : Nat) => v % 2 ^ 14
  let hi := fun (v : Nat) => bits v 29 16
  let pair := fun (v : Nat) => bits v 15 14 == 0 && bits v 31 30 == 0
  let crop := leAt p 0x64 4
  let scale := leAt p 0x68 4
  let scaled := fun (c x : Nat) => c == 0 || x == 0 || (c ≤ 8 * x && x ≤ 2 * c)
  firstBad ([(0, decide (codec ≤ 2)), (4, leAt p 4 4 % 256 ≤ 1 && leAt p 4 4 < 65536 && (!vpIngest p || s.ingestOk e (leAt p 5 1))),
    (8, leAt p 8 4 % 256 ≤ 1 && leAt p 8 4 < 4096 && (!pal || (s.pdCommitted e slot && s.pdTenant e slot == t))),
    (0xC, leAt p 0xC 4 &&& 0xFFE0FCF8 == 0 && (leAt p 0xC 4 % 8 != 0 ||
      (pal && (pdPanels (s.pdDesc e slot) (s.pdFirst e slot)).all (fun q => s.panelMode q == 2)))),
    (0x10, 64 ≤ mw && mw ≤ 8192), (0x14, 64 ≤ mh && mh ≤ 8192), (0x18, 1 ≤ dpb && dpb ≤ 16)] ++ zeroTests p 0x1C 4 ++
    [(0x20, leAt p 0x20 8 % 4096 == 0), (0x28, (dpb + 2) * (3 * a * es / 2 + a / 16) + 4194304 ≤ leAt p 0x28 8),
     (0x30, pal || leAt p 0x30 8 % 4096 == 0), (0x38, pal || (leAt p 0x38 4 % 64 == 0 && mw * es ≤ leAt p 0x38 4)),
     (0x3C, pal || (1 ≤ leAt p 0x3C 4 && leAt p 0x3C 4 ≤ 32)), (0x40, pal || leAt p 0x38 4 * mh * 3 / 2 ≤ leAt p 0x40 8),
     (0x48, s.vCounterOk t (leAt p 0x48 4)), (0x4C, s.vCounterOk t (leAt p 0x4C 4)), (0x50, leAt p 0x50 8 % 64 == 0),
     (0x58, 4 ≤ leAt p 0x58 4 && leAt p 0x58 4 ≤ 12)] ++ zeroTests p 0x5C 4 ++
    (if pal then
      [(0x60, pair (leAt p 0x60 4) && lo (leAt p 0x60 4) % 2 == 0 && hi (leAt p 0x60 4) % 2 == 0),
       (0x64, pair crop && lo crop % 2 == 0 && hi crop % 2 == 0),
       (0x68, pair scale && scaled (lo crop) (lo scale) && scaled (hi crop) (hi scale)), (0x6C, leAt p 0x6C 4 < 48)]
     else zeroTests p 0x60 16) ++ zeroTests p 0x70 144)

/-- Slices of a frame under SLICE_ROWS. -/
def vencSlices (p : List Byte) : Nat :=
  let rows := (bits (leAt p 4 4) 29 16 + 63) / 64
  let n := bits (leAt p 0x30 4) 23 16
  if n = 0 then 1 else (rows + n - 1) / n

/-- The first rule of the encode parameter block (R267, R270, R275 to R277) that is broken. -/
def State.vencParamFault (s : State) (t : Nat) (p : List Byte) : Option Nat :=
  let codec := leAt p 0 4 % 2
  let es := if bits (leAt p 0 4) 8 8 = 1 then 2 else 1
  let w := leAt p 4 4 % 2 ^ 14
  let h := bits (leAt p 4 4) 29 16
  let a := vArea w h
  let num := leAt p 8 4
  let den := leAt p 0xC 4
  let rc := leAt p 0x18 4
  let qmax := if codec = 0 then 51 else 255
  let target := leAt p 0x20 4
  let maxK := leAt p 0x24 4
  let cpb := leAt p 0x28 4
  let gir := leAt p 0x30 4 % 65536
  let sl := bits (leAt p 0x30 4) 23 16
  let mfb := leAt p 0x5C 4
  let rate := 1000 * (if rc % 4 = 2 then maxK else target)
  let strict := bits rc 2 2 == 1
  let lvl := Config.levelBreaks [codec, leAt p 0x10 4 % 256, bits (leAt p 0x10 4) 8 8, w, h, num, den, target, maxK, cpb, vencSlices p]
  firstBad ([(0, leAt p 0 4 &&& 0xFFFFFEFE == 0),
    (4, leAt p 4 4 &&& 0xC000C000 == 0 && w % 2 == 0 && h % 2 == 0 && 128 ≤ w && w ≤ 8192 && 128 ≤ h && h ≤ 8192 &&
      w * h ≤ 35651584 && lvl != 1),
    (8, 1 ≤ num && lvl != 2), (0xC, 1 ≤ den), (0x10, leAt p 0x10 4 < 512 && lvl != 6), (0x14, leAt p 0x14 4 < 65536),
    (0x18, rc % 4 ≤ 2 && bits rc 3 3 == 0 && rc < 2 ^ 24 && bits rc 15 8 ≤ bits rc 23 16 && bits rc 23 16 ≤ qmax),
    (0x1C, leAt p 0x1C 4 < 65536 && leAt p 0x1C 4 % 256 ≤ qmax && leAt p 0x1C 4 / 256 ≤ qmax),
    (0x20, lvl != 3 && (!strict || (a / 64 + 2048) * num ≤ rate * den)), (0x24, target ≤ maxK),
    (0x28, lvl != 4 && (!strict || 4 * rate * den ≤ cpb * num)), (0x2C, leAt p 0x2C 4 < 256),
    (0x30, leAt p 0x30 4 < 2 ^ 24 && (gir == 0 || (2 ≤ gir && gir ≤ 1024 && gir ≤ (w + 63) / 64)) && sl ≤ 128 && lvl != 5 &&
      (codec == 0 || vencSlices p ≤ 64)),
    (0x34, leAt p 0x34 4 ≤ 4), (0x38, 1 ≤ leAt p 0x38 4 && leAt p 0x38 4 ≤ 7)] ++ zeroTests p 0x3C 4 ++
    [(0x40, leAt p 0x40 8 % 4096 == 0),
     (0x48, (leAt p 0x34 4 + 3) * (3 * a * es / 2 + a / 8) + 8388608 ≤ leAt p 0x48 8),
     (0x58, leAt p 0x58 4 % 4096 == 0 && 2 * mfb ≤ leAt p 0x58 4),
     (0x5C, a / 512 + 4096 ≤ mfb && (!strict || cpb ≤ 8 * mfb)),
     (0x60, cfValid (leAt p 0x60 4) && s.vCounterOk t (leAt p 0x60 4)), (0x64, s.vCounterOk t (leAt p 0x64 4)),
     (0x70, 4 ≤ leAt p 0x70 4 && leAt p 0x70 4 ≤ 12)] ++ zeroTests p 0x74 140)

/-! ### The ends of jobs and contexts (R256, R279) -/

/-- Ends the operation of a unit, where it has one. -/
def State.vEnd (s : State) (u : VUnit) (status detail flags : Nat) : State :=
  match u.tag with
  | some tag => s.opEnd tag status detail flags
  | none => s

/-- A context becomes FREE: its slot is unbound, its generation advances and the CLOSE that waited ends. -/
def State.vFree (s : State) (e c : Nat) (x : VCtx) : State :=
  let pg := pgVCE e
  let s1 : State := { s with vce := { s.vce with ctxs := smDel s.vce.ctxs (vkey e c),
                                                 gens := smSet 0 s.vce.gens (vkey e c) ((s.vgen e c + 1) % 256) } }
  let s2 := if x.reclaimed then s1.reclaim pg 0 .transit 1 else s1.move pg 0 .transit .free 1
  let s3 := if !x.enc && vpDest x.params then s2.setBit pg f_VCE_PDEST_STATUS_BOUND (vpSlot x.params) false else s2
  match x.closeTag with
  | some tag => s3.opEnd tag scOK 0 0
  | none => s3

/-- Closes a context (R256, R279): frames not begun are cancelled, and it is FREE once the frame in progress has ended. -/
def State.vClose (s : State) (e c : Nat) (closeTag : Option Nat) (reclaimed : Bool) : State :=
  match s.vctx e c with
  | none => s
  | some x =>
    if x.state = vcCLOSING then s
    else
      let s1 := x.units.foldl (fun (a : State) u => a.vEnd u scCANCELLED 0 cfDROPPED) s
      let y := { x with state := vcCLOSING, units := [], closeTag := closeTag, reclaimed := reclaimed }
      let s2 := (s1.setVctx e c y).move (pgVCE e) 0 .held .transit 1
      if s2.vBusy e c then s2 else s2.vFree e c y

/-- Every context of a tenant closes (R279). -/
def State.vCloseAll (s : State) (t : Nat) : State :=
  [0, 1].foldl (fun (a : State) e => (a.vctxsOf e t).foldl (fun (b : State) x => b.vClose e x.1 none true) a) s

/-- The order number of something that happens at an engine. -/
def State.vOrder (s : State) : State := { s with vce := { s.vce with orders := s.vce.orders + 1 } }

/-- Takes the front unit off a context's queue; the next one becomes the front now. -/
def State.vPop (s : State) (e c : Nat) : State :=
  match s.vctx e c with
  | none => s
  | some x => (s.setVctx e c { x with units := x.units.drop 1, since := s.vce.orders }).vOrder

/-- A context whose queue holds a FLUSH is FLUSHING. -/
def VCtx.restate (x : VCtx) : VCtx :=
  if x.state = vcOPEN ∧ x.units.any (fun u => u.flush) then { x with state := vcFLUSHING }
  else if x.state = vcFLUSHING ∧ !(x.units.any (fun u => u.flush)) then { x with state := vcOPEN } else x

/-- Queues a unit of a context. -/
def State.vPush (s : State) (e c : Nat) (x : VCtx) (u : VUnit) : State :=
  (s.setVctx e c { x with units := x.units ++ [{ u with order := s.vce.orders }],
                          since := if x.units.isEmpty then s.vce.orders else x.since }.restate).vOrder

/-- An access unit that Ingest delivers to a stream's context (R258). -/
def State.vDeliver (s : State) (e c : Nat) (bs : List Byte) (pts loss : Nat) : State :=
  match s.vctx e c with
  | some x => if x.state = vcCLOSING ∨ x.state = vcFAILED then s else s.vPush e c x ⟨none, false, bs, [], pts, loss, 0⟩
  | none => s

/-- A context that is opened takes the access units that its stream's buffer holds (R258). -/
def State.vTakeAus (s : State) (e c n : Nat) : State :=
  match smFind s.ing.streams n with
  | none => s
  | some x =>
    let s1 := x.aus.foldl (fun (a : State) u => a.vDeliver e c u.1 u.2.1 u.2.2) s
    { s1 with ing := { s1.ing with streams := smPut s1.ing.streams n { x with aus := [] } } }

/-- The FLUSHes of an encode context whose earlier ENCODEs have all ended end (R269). -/
def State.vFlushes (s : State) (e c : Nat) : Nat → State
  | 0 => s
  | n + 1 =>
    match s.vctx e c with
    | some x =>
      (match x.units with
      | u :: rest =>
        if x.enc && u.flush && !s.vBusy e c then ((s.vEnd u scOK 0 0).setVctx e c { x with units := rest }.restate).vFlushes e c n
        else s
      | [] => s)
    | none => s

/-- Takes out of the queues the units whose operations have been abandoned or ended before their frame began (R127). -/
def State.vSweep (s : State) : State :=
  let dead := fun (a : State) (u : VUnit) => match u.tag with
    | some tag => !(a.op tag).any (fun o => o.phase == .issued && !o.abandoned)
    | none => false
  s.vce.ctxs.foldl (fun (a : State) e =>
    match smFind a.vce.ctxs e.1 with
    | none => a
    | some x =>
      let gone := x.units.filter (fun u => dead a u)
      if gone.isEmpty then a
      else
        let a1 := gone.foldl (fun (b : State) u => b.vEnd u scTIMEOUT 0 0) a
        (a1.setVctx (e.1 / 256) (e.1 % 256) ({ x with units := x.units.filter (fun u => !dead a u) }.restate)).vFlushes (e.1 / 256) (e.1 % 256) 16) s

/-! ### The commands of contexts (R256, R269) -/

/-- Issues a VDEC or VENC whose argument block's COMMAND is `cmd`: it takes a job of the engine (R279). -/
def State.vIssue (s : State) (tag opc cmd now e : Nat) (f : State → Op → List Byte → State) : State :=
  match s.op tag with
  | none => s
  | some o =>
    let md := if opc = 8 then 4 else 8
    let mine := match s.readDva (o.who tag) o.d.arg 64 with
      | .ok b false => leAt b 0 4 % md == cmd || (opc == 9 && 5 ≤ leAt b 0 4 % md)
      | _ => true
    let open' := s.running (pgVCE e) || (cmd == (if opc == 8 then 3 else 4) && s.st (pgVCE e) == stQUIESCING)
    if !mine ∨ !open' ∨ (s.ledger (pgVCE e) 1).free = 0 then s
    else s.issue tag opc now (fun a o1 =>
      let o2 := { o1 with aux := [e], parts := 1 }
      ((a.setOp tag o2).move (pgVCE e) 1 .free .held 1).withArg tag o2 64 (fun b => f ((a.setOp tag o2).move (pgVCE e) 1 .free .held 1) o2 b))

/-- Rules of the argument blocks that no command's own rule names: reserved bits, and PARAMS where a command has none. -/
def vArgFault (vdec : Bool) (cmd : Nat) (b : List Byte) : Option Nat :=
  let prm := leAt b 8 8
  let opening := cmd == 0 || (!vdec && cmd == 2)
  firstBad ([(0, leAt b 0 4 == cmd), (4, leAt b 4 4 < 65536 && (cmd != 0 || leAt b 4 4 == 0)),
    (8, if opening then !vdec || prm % 64 == 0 else prm == 0)] ++
    (if vdec then (if cmd = 1 then [(0x18, 1 ≤ leAt b 0x18 4 && leAt b 0x18 4 ≤ 2 ^ 26)] else []) ++ zeroTests b 0x1C 4 ++ zeroTests b 0x28 24
     else (if cmd = 1 then [(0x18, leAt b 0x18 4 % 64 == 0), (0x1C, leAt b 0x1C 4 &&& 0xFFFFF0E0 == 0)] else []) ++ zeroTests b 0x30 16))

/-- Reads the parameter block that PARAMS names. -/
def State.vParams (s : State) (tag : Nat) (o : Op) (b : List Byte) (f : List Byte → State) : State :=
  match s.readDva (o.who tag) (leAt b 8 8) 256 with
  | .bad d r => s.opFault tag o d r false 8
  | .ok p po => if po then s.opEnd tag scPOISON 0 0 else f p

def vctxNew (t : Nat) (enc : Bool) (p : List Byte) (order : Nat) : VCtx :=
  ⟨t, enc, vcOPEN, p, order, [], [], [], [], [], false, 0, 0, 0, 0, 0, 0, none, false, 0, true, [], [], 0, 0⟩

/-- Claims the context the engine picks (R251). -/
def State.vClaim (s : State) (tag : Nat) (o : Op) (e pick : Nat) (enc : Bool) (p : List Byte) : State :=
  let t := o.tenant
  let pg := pgVCE e
  let c := if (s.vctx e pick).isNone then some pick else (List.range 256).find? (fun i => (s.vctx e i).isNone)
  match c with
  | some i =>
    if s.fld pg (f_VCE_QUOTA_CONTEXTS t) ≤ (s.vctxsOf e t).length then s.opEnd tag scCTXLIMIT 0 0
    else
      let s1 := ((s.setVctx e i (vctxNew t enc p s.vce.orders)).vOrder).move pg 0 .free .held 1
      let s2 := if !enc && vpDest p then s1.setBit pg f_VCE_PDEST_STATUS_BOUND (vpSlot p) true else s1
      let s3 := if !enc && vpIngest p then s2.vTakeAus e i (leAt p 5 1) else s2
      s3.opEnd tag scOK (i + 256 * s.vgen e i) 0
  | none => s.opEnd tag scCTXLIMIT 0 0

/-- VDEC_OPEN (R256, R257, R262). `eng` is the engine the operation goes to, `pick` the context it claims. -/
def execVdecOpen (tag : Fin 8192) (eng : Fin 2) (pick : Fin 256) (now : DWord) (s : State) : Host.Outcome State Fault Refusal :=
  .next (s.vIssue tag.val 8 0 now.toNat eng.val (fun a o b =>
    match vArgFault true 0 b with
    | some d => a.opEnd tag.val scARG d 0
    | none => a.vParams tag.val o b (fun p =>
      match a.vdecParamFault eng.val o.tenant p with
      | some d => a.opEnd tag.val scPARAM d 0
      | none =>
        if vpDest p && a.pdBound eng.val (vpSlot p) then a.opEnd tag.val scDESTBUSY (vpSlot p) 0
        else a.vClaim tag.val o eng.val pick.val false p)))

/-- VENC_OPEN (R269, R270). -/
def execVencOpen (tag : Fin 8192) (eng : Fin 2) (pick : Fin 256) (now : DWord) (s : State) : Host.Outcome State Fault Refusal :=
  .next (s.vIssue tag.val 9 0 now.toNat eng.val (fun a o b =>
    match vArgFault false 0 b with
    | some d => a.opEnd tag.val scARG d 0
    | none => a.vParams tag.val o b (fun p =>
      match a.vencParamFault o.tenant p with
      | some d => a.opEnd tag.val scPARAM d 0
      | none => a.vClaim tag.val o eng.val pick.val true p)))

/-- The context a command names, or the status that ends the command (R251, R256, R278). -/
def State.vNamed (s : State) (tag : Nat) (o : Op) (e cmd : Nat) (enc : Bool) (b : List Byte) (f : Nat → VCtx → State) : State :=
  match vArgFault (!enc) cmd b with
  | some d => s.opEnd tag scARG d 0
  | none =>
    let h := leAt b 4 2
    match s.handled e o.tenant h with
    | none => s.opEnd tag scCTXUNKNOWN h 0
    | some x =>
      if x.enc ≠ enc ∨ (!enc ∧ cmd = 1 ∧ vpIngest x.params) then s.opEnd tag scKIND h 0
      else if x.state = vcFAILED ∧ cmd ≠ (if enc then 4 else 3) then s.opEnd tag scPOISON 0 0
      else f (h % 256) x

/-- Queues the unit of a DECODE, ENCODE or FLUSH. -/
def State.vQueue (s : State) (tag e c : Nat) (x : VCtx) (flush : Bool) (b : List Byte) : State :=
  (s.vPush e c x ⟨some tag, flush, b, x.params, leAt b 0x20 8, 0, 0⟩).vFlushes e c 16

/-- VDEC_DECODE (R256). -/
def execVdecDecode (tag : Fin 8192) (eng : Fin 2) (now : DWord) (s : State) : Host.Outcome State Fault Refusal :=
  .next (s.vIssue tag.val 8 1 now.toNat eng.val (fun a o b =>
    a.vNamed tag.val o eng.val 1 false b (fun c x => a.vQueue tag.val eng.val c x false b)))

/-- VDEC_FLUSH (R256). -/
def execVdecFlush (tag : Fin 8192) (eng : Fin 2) (now : DWord) (s : State) : Host.Outcome State Fault Refusal :=
  .next (s.vIssue tag.val 8 2 now.toNat eng.val (fun a o b =>
    a.vNamed tag.val o eng.val 2 false b (fun c x => a.vQueue tag.val eng.val c x true b)))

/-- VDEC_CLOSE (R256). -/
def execVdecClose (tag : Fin 8192) (eng : Fin 2) (now : DWord) (s : State) : Host.Outcome State Fault Refusal :=
  .next (s.vIssue tag.val 8 3 now.toNat eng.val (fun a o b =>
    a.vNamed tag.val o eng.val 3 false b (fun c _ => a.vClose eng.val c (some tag.val) false)))

/-- VENC_ENCODE (R269). -/
def execVencEncode (tag : Fin 8192) (eng : Fin 2) (now : DWord) (s : State) : Host.Outcome State Fault Refusal :=
  .next (s.vIssue tag.val 9 1 now.toNat eng.val (fun a o b =>
    a.vNamed tag.val o eng.val 1 true b (fun c x => a.vQueue tag.val eng.val c x false b)))

/-- VENC_FLUSH (R269): its record follows the end of every earlier ENCODE. -/
def execVencFlush (tag : Fin 8192) (eng : Fin 2) (now : DWord) (s : State) : Host.Outcome State Fault Refusal :=
  .next (s.vIssue tag.val 9 3 now.toNat eng.val (fun a o b =>
    a.vNamed tag.val o eng.val 3 true b (fun c x => a.vQueue tag.val eng.val c x true b)))

/-- VENC_CLOSE (R269). -/
def execVencClose (tag : Fin 8192) (eng : Fin 2) (now : DWord) (s : State) : Host.Outcome State Fault Refusal :=
  .next (s.vIssue tag.val 9 4 now.toNat eng.val (fun a o b =>
    a.vNamed tag.val o eng.val 4 true b (fun c _ => a.vClose eng.val c (some tag.val) false)))

/-- VENC_RECONFIGURE (R269): offsets 0x18 to 0x2F are replaced for the frames dispatched from now on. -/
def execVencReconfigure (tag : Fin 8192) (eng : Fin 2) (now : DWord) (s : State) : Host.Outcome State Fault Refusal :=
  .next (s.vIssue tag.val 9 2 now.toNat eng.val (fun a o b =>
    a.vNamed tag.val o eng.val 2 true b (fun c x => a.vParams tag.val o b (fun p =>
      match (List.range 256).find? (fun i => (i < 0x18 || 0x30 ≤ i) && p.getD i 0 != x.params.getD i 0) with
      | some d => a.opEnd tag.val scPARAM d 0
      | none =>
        match a.vencParamFault o.tenant p with
        | some d => a.opEnd tag.val scPARAM d 0
        | none => (a.setVctx eng.val c { x with params := p }).opEnd tag.val scOK 0 0))))

/-! ### The samples of decoded pictures (R260, R261) -/

/-- A sample of a picture: that of the decoding process, or, in a block that cannot be decoded, the co-located sample of the most
recently decoded picture, and 2^(D−1) where there is none. The list holds the picture and those decoded before it, latest first. -/
def vSample (key : List Nat) (hist : List (Nat × List Byte)) (plane y x : Nat) : List VPic → Nat
  | [] => 0
  | p :: before =>
    let h := hist.take p.len
    let sh := if plane = 0 then 64 else 32
    if p.mono && plane != 0 then (if p.deep then 512 else 128)
    else if Config.vdecBad key h p.idx (y / sh) (x / sh) then
      (match before with
      | [] => if p.deep then 512 else 128
      | _ :: _ => vSample key hist plane y x before)
    else Config.vdecSample key h p.idx plane y x % (if p.deep then 1024 else 256)

/-- The picture of a number with those decoded before it. -/
def VCtx.from (x : VCtx) (n : Nat) : List VPic := x.decoded.dropWhile (fun p => p.num != n)

/-- The sample function of a picture of a context: plane, row, column. -/
def VCtx.pixel (x : VCtx) (n plane y c : Nat) : Nat := vSample (vdecKey x.params) x.hist plane y c (x.from n)

/-! ### Output (R259, R263, R266) -/

/-- Writes rows (address, bytes) until one does not translate. -/
def State.vRows (s : State) (w : Who) : List (Nat × List Byte) → State × Option (Nat × Nat)
  | [] => (s, none)
  | (a, bs) :: r =>
    match s.writeFault w 0 (cuts a bs.length) with
    | some f => (s, some f)
    | none => (s.writeDva w a bs).vRows w r

/-- The rows of a picture in NV12 or P010 (R259). -/
def VCtx.surface (x : VCtx) (p : VPic) (base pitch : Nat) : List (Nat × List Byte) :=
  let el := fun (v : Nat) => if p.deep then toLe 2 (64 * v) else [BitVec.ofNat 8 v]
  (List.range p.h).map (fun y => (base + y * pitch, (List.range p.w).flatMap (fun c => el (x.pixel p.num 0 y c)))) ++
  (List.range ((p.h + 1) / 2)).map (fun y => (base + pitch * p.h + y * pitch,
    (List.range ((p.w + 1) / 2)).flatMap (fun c => el (x.pixel p.num 1 y c) ++ el (x.pixel p.num 2 y c))))

/-- The crop of a palette context for a picture: position and size; and the size it is scaled to. -/
def VCtx.crop (x : VCtx) (p : VPic) : Nat × Nat × Nat × Nat :=
  let z := fun (v d : Nat) => if v = 0 then d else v
  (leAt x.params 0x60 4 % 2 ^ 14, bits (leAt x.params 0x60 4) 29 16, z (leAt x.params 0x64 4 % 2 ^ 14) p.w,
   z (bits (leAt x.params 0x64 4) 29 16) p.h)
def VCtx.outSize (x : VCtx) (p : VPic) : Nat × Nat :=
  let z := fun (v d : Nat) => if v = 0 then d else v
  let c := x.crop p
  (z (leAt x.params 0x68 4 % 2 ^ 14) c.2.2.1, z (bits (leAt x.params 0x68 4) 29 16) c.2.2.2)

/-- Colour k at row y and column c of the frame that a palette context writes (R263 stages 1 to 3). -/
def VCtx.palPix (x : VCtx) (p : VPic) (order k y c : Nat) : Nat :=
  let (cx, cy, cw, ch) := x.crop p
  let (ow, oh) := x.outSize p
  let cv := leAt x.params 0x6C 4
  let bil := cv % 2 == 1
  let matrix := match bits cv 3 1 with | 1 => 6 | 2 => 1 | 3 => 9 | _ => p.matrix
  let full := match bits cv 5 4 with | 1 => false | 2 => true | _ => p.full
  let luma := scaleSample bil cw ch ow oh (fun r q => x.pixel p.num 0 (cy + r) (cx + q)) y c
  let chroma := fun (pl : Nat) => scaleSample bil (cw / 2) (ch / 2) ow oh (fun r q => x.pixel p.num pl (cy / 2 + r) (cx / 2 + q)) y c
  orderPix order matrix full (if p.deep then 10 else 8) k luma (chroma 1) (chroma 2)

/-- The 32 bytes of a frame record (R259). -/
def vFrameRec (p : VPic) (k index log w h time : Nat) : List Byte :=
  let phase := 1 - k / 2 ^ log % 2
  toLe 8 p.pts ++ toLe 4 k ++
  toLe 4 (index % 32 + (if p.damaged then 0x100 else 0) + (if p.tainted then 0x200 else 0) + (if p.grain then 0x400 else 0) + phase * 2 ^ 31) ++
  toLe 4 (p.conceal % 2 ^ 24) ++ toLe 4 (w % 2 ^ 14 + h % 2 ^ 14 * 65536) ++ toLe 8 time

/-- Writes a frame record, or ends the operation where it is not written. -/
def State.vRecord (s : State) (who : Who) (unit : VUnit) (a : Nat) (bs : List Byte) : State :=
  match s.vRows who [(a, bs)] with
  | (s4, some (d, r)) => (s4.mmuFault who d r true).vEnd unit scTRANSLATION 8 0
  | (s4, none) => s4

/-- Outputs one picture (of a frame that does not fit its palette descriptor what `pdRow` keeps, log entry 39): the frame is written, its counter raised, then its record is written. A write that does not translate ends
the output of the frame there. -/
def State.vOutput (s : State) (e c n : Nat) (who : Who) (unit : VUnit) : State :=
  match s.vctx e c with
  | none => s
  | some x =>
    match x.from n with
    | [] => s
    | p :: _ =>
      let k := x.outs
      let t := x.tenant
      let pg := pgVCE e
      let pal := vpDest x.params
      let slot := vpSlot x.params
      let surf := k % leAt x.params 0x3C 4
      let d := s.pdDesc e slot
      let region := s.pdRegion e slot + (if pdAlternate d then k % 2 else 0)
      let dim := if pal then x.outSize p else (p.w, p.h)
      let y := { x with outs := k + 1, held := x.held.filter (fun q => q != n),
                        concealed := if p.damaged then min (x.concealed + 1) 0xFFFFFFFF else x.concealed }
      let wr : State × Option (Nat × Nat) :=
        if pal then
          ((if s.writesOff t then s
            else s.palImage d (s.pdFirst e slot) region (if p.deep then 10 else 8) dim.1 dim.2 (fun k r q => x.palPix p (pdOrder d) k r q)), none)
        else s.vRows who (x.surface p (leAt x.params 0x30 8 + surf * leAt x.params 0x40 8) (leAt x.params 0x38 4))
      let s1 := (wr.1.setVctx e c y)
      match wr.2 with
      | some (a, r) => (s1.mmuFault who a r true).vEnd unit scTRANSLATION 8 0
      | none =>
        let sig := leAt x.params 0x4C 4
        let s2 := if pal then (if s1.writesOff t then s1 else s1.synAdd (s1.fld pg (f_VCE_PDEST_COUNTER_COUNTER slot)) 1)
          else if cfValid sig then s1.relAdd t (cfCounter sig) 1 else s1
        let lg := leAt x.params 0x58 4
        let s3 := if p.damaged then (s2.countUp pg r_VCE_CNT_CONCEALED 1).event pg ev_vce_CONCEALED else s2
        s3.vRecord who unit (leAt x.params 0x50 8 + 32 * (k % 2 ^ lg)) (vFrameRec p k (if pal then region else surf) lg dim.1 dim.2 s3.time)

/-! ### The decode pipeline (R252, R255, R261) -/

/-- May a frame start on the engine: it is RUNNING, or QUIESCING with ENABLE 1 (R33, R280)? -/
def State.vStarts (s : State) (e : Nat) : Bool :=
  s.running (pgVCE e) || (s.st (pgVCE e) == stQUIESCING && s.fld (pgVCE e) fENABLE == 1)

/-- Does a context wait on a counter besides its units: RELEASE of a decode context, BS_RELEASE of an encode context? -/
def VCtx.gated (x : VCtx) : Bool := x.enc || (!vpDest x.params && cfValid (leAt x.params 0x48 4))

/-- The value of a counter of a tenant's allocation. -/
def State.relValue (s : State) (t n : Nat) : Nat := match s.relCounter t n with | some g => s.counter g | none => 0

/-- Has the context a ready frame (R252)? -/
def State.vReady (s : State) (x : VCtx) : Bool :=
  x.state != vcCLOSING && x.state != vcFAILED &&
  (match x.units with
  | [] => false
  | u :: _ =>
    if x.enc then
      !u.flush && leAt x.params 0x5C 4 + x.written ≤ leAt x.params 0x58 4 + s.relValue x.tenant (cfCounter (leAt x.params 0x60 4))
    else if x.gated then x.outs + 1 ≤ s.relValue x.tenant (cfCounter (leAt x.params 0x48 4)) + leAt x.params 0x3C 4
    else true)

/-- May the pipeline take context c: it is ready, none ready has a lower PRIORITY, and among those of its own none became ready earlier
(the instant at which a counter made one ready is the environment's)? -/
def State.vPicks (s : State) (e c : Nat) (enc : Bool) : Bool :=
  match s.vctx e c with
  | none => false
  | some x =>
    x.enc == enc && s.vReady x && (s.vctxs e).all (fun o =>
      let y := o.2
      y.enc != enc || !s.vReady y || vpPriority enc x.params < vpPriority enc y.params ||
      (vpPriority enc x.params == vpPriority enc y.params && (x.gated || y.gated || x.since ≤ y.since)))

/-- The request maker of a unit's frame. -/
def State.vWho (s : State) (x : VCtx) (u : VUnit) : Who :=
  match u.tag with
  | some tag => (match s.op tag with | some o => o.who tag | none => bareWho x.tenant)
  | none => bareWho x.tenant

/-- DECODE_FRAME_START (R252): the frame of the context picked enters the pipeline, its unit read. -/
def execDecodeFrameStart (eng : Fin 2) (ctx : Fin 256) (now : DWord) (s : State) : Host.Outcome State Fault Refusal :=
  let e := eng.val
  let c := ctx.val
  .next (match s.vctx e c with
  | none => s
  | some x =>
    if (smFind s.vce.dec e).isSome ∨ !s.vStarts e ∨ !s.vPicks e c false then s
    else
      match x.units with
      | [] => s
      | u :: _ =>
        let s1 := (s.at now.toNat).vPop e c
        let go := fun (a : State) (bs : List Byte) => a.setDec e (some ⟨c, a.vgen e c, { u with bytes := bs }, 0, 0, 0, false⟩)
        match u.tag with
        | none => go s1 u.bytes
        | some tag =>
          if u.flush then go s1 []
          else match s1.readDva (s1.vWho x u) (leAt u.bytes 0x10 8) (leAt u.bytes 0x18 4) with
            | .bad d r => (match s1.op tag with
              | some o => s1.opFault tag o d r false 0x10
              | none => s1)
            | .ok bs po => if po then s1.opEnd tag scPOISON 0 0 else go s1 bs)

/-- Counts dropped pictures (R255, R261). -/
def State.vDrop (s : State) (e c n : Nat) : State :=
  match s.vctx e c with
  | some x => (s.setVctx e c { x with dropped := min (x.dropped + n) 0xFFFFFFFF }).countUp (pgVCE e) r_VCE_CNT_DROPPED n
  | none => s

/-- Adds picture i of a unit to a context (R261): damage, taint and the error policy. -/
def VCtx.addPic (x : VCtx) (key : List Nat) (h : List (Nat × List Byte)) (u : VUnit) (i : Nat) : VCtx × Bool × Bool :=
  let f := fun (k : Nat) => Config.vdecPic key h i k
  let num := match x.decoded with | p :: _ => p.num + 1 | [] => 0
  let damaged := f 0 % 2 == 1
  let w := f 1 % 8193
  let ht := f 2 % 8193
  let tainted := (Config.vdecRefs key h i).any (fun n => x.taint.contains n)
  let drop := bits (leAt x.params 0xC 4) 8 8 == 1
  let bad := ((List.range ((ht + 63) / 64)).flatMap (fun r => (List.range ((w + 63) / 64)).filter (fun q => Config.vdecBad key h i r q))).length
  let p : VPic := ⟨num, h.length, i, u.pts, damaged, tainted, bad, w, ht, leAt x.params 0 4 != 2 && f 3 % 2 == 1,
    leAt x.params 0 4 == 1 && f 4 % 2 == 1, leAt x.params 0 4 == 1 && bits (leAt x.params 0xC 4) 9 9 == 1 && f 5 % 2 == 1, f 6 % 256, f 7 % 2 == 1⟩
  let dropping := x.dropping || (drop && damaged)
  ({ x with decoded := p :: x.decoded, held := if dropping then x.held else x.held ++ [num],
            taint := if damaged || tainted then num :: x.taint else x.taint, dropping := dropping }, damaged, dropping)

/-- What a unit's pictures come to: the context, whether damage was found, pictures dropped. -/
def VCtx.addPics (x : VCtx) (key : List Nat) (h : List (Nat × List Byte)) (u : VUnit) (n : Nat) : VCtx × Bool × Nat :=
  (List.range n).foldl (fun a i =>
    let r := a.1.addPic key h u i
    (r.1, a.2.1 || r.2.1, if r.2.2 then a.2.2 + 1 else a.2.2)) (x, false, 0)

/-- DETAIL of a DECODE or FLUSH that ended OK. -/
def vDetail (frames concealed dropped : Nat) : Nat := frames % 65536 + min concealed 255 * 65536 + min dropped 255 * 2 ^ 24

/-- Outputs the pictures due, in order, and ends the unit. -/
def State.vOutputs (s : State) (e c : Nat) (u : VUnit) (due : List Nat) (dropped : Nat) : State :=
  match s.vctx e c with
  | none => s
  | some x =>
    let who := s.vWho x u
    let due1 := (due.filter (fun n => x.held.contains n)).eraseDups
    let s1 := due1.foldl (fun (a : State) n => a.vOutput e c n who u) s
    let hid := (due1.filter (fun n => (x.from n).head?.any (fun p => p.damaged))).length
    s1.vEnd u scOK (vDetail due1.length hid dropped) 0

/-- Why a context's headers are refused (R254, R255): the cause of R278, 0 where they are accepted or the unit brings none. Of several, the lowest
(DESIGN CHOICE, log entry 43). -/
def vdecCause (p : List Byte) (f : Nat → Nat) : Nat :=
  let codec := leAt p 0 4
  let depths := if codec = 2 ∨ (codec = 0 ∧ f 5 ≠ 2) then [8] else [8, 10]
  if f 0 % 2 = 0 then 0
  else (firstBad [(1, 1 ≤ f 5 && f 5 ≤ (if codec = 1 then 1 else 3)),
    (2, f 6 ≤ (if codec = 0 then 183 else if codec = 1 then 16 else 52) && f 7 < 2),
    (3, (f 8 == 1 || (codec == 1 && f 8 == 0)) && depths.contains (f 9)),
    (4, 1 ≤ f 3 && f 3 ≤ leAt p 0x10 4 && 1 ≤ f 4 && f 4 ≤ leAt p 0x14 4), (5, f 10 ≤ leAt p 0x18 4), (6, f 11 == 0)]).getD 0

/-- Decodes the unit of a run whose context is open: acceptance of its headers (R255), its pictures (R261) and its output. -/
def State.vDecode (s : State) (e c : Nat) (x : VCtx) (r : VRun) : State :=
  let u := r.unit
  let key := vdecKey x.params
  let h := x.hist ++ [(u.loss + 2 ^ 32 * r.hurt, u.bytes)]
  let f := fun (k : Nat) => Config.vdecUnit key h k
  let n := f 2
  let cause := vdecCause x.params f
  if cause ≠ 0 then
    let s1 := (s.setVctx e c { x with state := vcSTALLED }).vDrop e c n
    let s2 := if x.state = vcSTALLED then s1 else s1.event (pgVCE e) ev_vce_STALLED
    let s3 := if u.tag.isNone then s2.event (vceView x.tenant e) ev_vceT_STREAM_UNSUPPORTED else s2
    s3.vEnd u scSTREAM cause 0
  else if x.state = vcSTALLED ∧ f 1 % 2 = 0 then (s.vDrop e c n).vEnd u scOK (vDetail 0 0 n) 0
  else
    let x0 := if f 0 % 2 = 1 then { x with w := f 3, h := f 4 } else x
    let x1 := { x0 with state := if x.state = vcSTALLED then vcOPEN else x.state, hist := h }
    let x2 := if f 1 % 2 = 1 then { x1 with taint := [], dropping := false } else x1
    let (x3, damaged, drops) := x2.addPics key h u n
    let s1 := (s.setVctx e c x3.restate).vDrop e c drops
    let s2 := if damaged then s1.event (vceView x.tenant e) ev_vceT_STREAM_ERROR else s1
    s2.vOutputs e c u (Config.vdecOut key h false) drops

/-- Adds to what a pipeline has processed in the second that runs. -/
def State.vLoad (s : State) (e pipe n : Nat) : State :=
  let k := (e * 2 + pipe) * 2 ^ 40 + s.time / 1000000000
  { s with vce := { s.vce with load := smSet 0 s.vce.load k (smGet 0 s.vce.load k + n) } }

/-- The free bytes that a frame leaves in its context's WORK area, whose layout is not stated; the first address that does not
translate. -/
def State.vWork (s : State) (e c : Nat) (who : Who) (o : Nat) : State × Option (Nat × Nat) :=
  match s.vctx e c with
  | none => (s, none)
  | some x =>
    let n := leAt x.params (o + 8) 8
    let (s1, f) := s.vRows who [(leAt x.params o 8, s.freeBytes n)]
    ({ s1 with free := s1.free + n }, f)

/-- DECODE_FRAME_END (R255, R259, R261, R266): the frame in the decode pipeline ends. -/
def execDecodeFrameEnd (eng : Fin 2) (now : DWord) (s : State) : Host.Outcome State Fault Refusal :=
  let e := eng.val
  .next (match smFind s.vce.dec e with
  | none => s
  | some r =>
    let s0 := (s.at now.toNat).setDec e none
    match s0.vctx e r.ctx with
    | none => s0
    | some x =>
      let c := r.ctx
      if x.state = vcCLOSING then (s0.vEnd r.unit scCANCELLED 0 cfDROPPED).vFree e c x
      else if x.state = vcFAILED then s0.vEnd r.unit scPOISON 0 0
      else if r.unit.flush then
        (s0.setVctx e c x.restate).vOutputs e c r.unit (Config.vdecOut (vdecKey x.params) x.hist true) 0
      else
        match s0.vWork e c (s0.vWho x r.unit) 0x20 with
        | (s1, some (a, q)) => (s1.mmuFault (s1.vWho x r.unit) a q true).vEnd r.unit scTRANSLATION 8 0
        | (s1, none) =>
          let s2 := s1.vDecode e c x r
          match s2.vctx e c with
          | some y => s2.vLoad e 0 (y.w * y.h)
          | none => s2)

/-! ### The encode pipeline (R269 to R277) -/

/-- The rows of an ENCODE's picture and its QP map: addresses and lengths. -/
def vencReads (p u : List Byte) : List (Nat × Nat) × List (Nat × Nat) :=
  let w := leAt p 4 4 % 2 ^ 14
  let h := bits (leAt p 4 4) 29 16
  let es := if bits (leAt p 0 4) 8 8 = 1 then 2 else 1
  let pitch := leAt u 0x18 4
  let qm := leAt u 0x28 8
  ((List.range (h + h / 2)).map (fun y => (leAt u 0x10 8 + y * pitch, w * es)),
   if qm = 0 then [] else [(qm, ((w + 63) / 64) * ((h + 63) / 64))])

/-- Reads rows through the MMU. -/
def State.vReadRows (s : State) (w : Who) : List (Nat × Nat) → Rd
  | [] => .ok [] false
  | (a, n) :: r =>
    match s.readDva w a n, s.vReadRows w r with
    | .ok b p, .ok b2 p2 => .ok (b ++ b2) (p || p2)
    | .bad d e, _ => .bad d e
    | _, .bad d e => .bad d e

/-- Is the frame a key frame: the first, forced, or due by INTRA_PERIOD? -/
def VCtx.keyFrame (x : VCtx) (u : VUnit) : Bool :=
  let ip := leAt u.params 0x14 4 % 65536
  x.forceKey || leAt u.bytes 0x1C 4 % 2 == 1 || (ip != 0 && ip ≤ x.sinceKey)

/-- Do the frame's reference flags break R273? -/
def VCtx.refFault (x : VCtx) (u : VUnit) : Bool :=
  let fl := leAt u.bytes 0x1C 4
  let slots := leAt u.params 0x34 4
  let use := (List.range 4).filter (fun j => bits fl (8 + j) (8 + j) == 1)
  use.any (fun j => slots ≤ j || !x.lt.contains j) || (bits fl 1 1 == 1 && slots ≤ bits fl 3 2) ||
  (bits fl 4 4 == 1 && use.isEmpty && !x.keyFrame u)

/-- What of an encode parameter block bears on the bits: codec, size, rate, level, periods, latency, references. -/
def vencKey (p : List Byte) : List Nat :=
  [leAt p 0 4, leAt p 4 4, leAt p 8 4, leAt p 0xC 4, leAt p 0x10 4, leAt p 0x14 4, leAt p 0x30 4, leAt p 0x34 4, leAt p 0x5C 4]

/-- Width, height and bytes per sample of an encode context's pictures. -/
def vencW (p : List Byte) : Nat := leAt p 4 4 % 2 ^ 14
def vencH (p : List Byte) : Nat := bits (leAt p 4 4) 29 16
def vencE (p : List Byte) : Nat := if bits (leAt p 0 4) 8 8 = 1 then 2 else 1

/-- A luma sample of the picture an ENCODE read; none outside it. -/
def vencLuma (p pic : List Byte) (y x : Int) : Option Nat :=
  if 0 ≤ x ∧ 0 ≤ y ∧ x < vencW p ∧ y < vencH p then
    (let o := (y.toNat * vencW p + x.toNat) * vencE p
    some (if vencE p = 2 then leAt pic o 2 / 64 else leAt pic o 1))
  else none

/-- The references an inter frame may use (R273): the short-term one unless NO_SHORT, then the long-term slots it names. -/
def vencRefs (fl : Nat) : List Nat :=
  (if bits fl 4 4 = 1 then [] else [1]) ++ ((List.range 4).filter (fun j => bits fl (8 + j) (8 + j) == 1)).map (fun j => 2 + j)

/-- The final vectors of a frame (R272): none in a key frame and in the columns that a sweep codes as intra (R276). With GIR every sample of a
reference lies in its clean area: the first frame is a key frame, and each frame's clean area holds its reference's (log entry 41). -/
def VCtx.vectors (x : VCtx) (u : VUnit) (key : Bool) (pic : List Byte) (hist : List (Nat × List Byte)) : List (Option MvBlock) :=
  let p := u.params
  let k := vencKey p
  let cols := (vencW p + 63) / 64
  let gir := leAt p 0x30 4 % 65536
  let w := (cols + gir - 1) / gir
  let samp := fun (n g : Nat) (y x : Int) =>
    match (if n = 0 ∧ g = 3 then vencLuma p pic y x else none) with
    | some v => v
    | none => Config.vencSamp k hist n g y x
  mvFrame samp (Config.vencRate k hist) cols ((vencH p + 63) / 64) (vencRefs (leAt u.bytes 0x1C 4))
    (fun c => key || (gir != 0 && decide (x.sinceKey % gir * w ≤ c) && decide (c < (x.sinceKey % gir + 1) * w))) x.mvs

/-- ENCODE_FRAME_START (R252): the frame of the context picked enters the encode pipeline; its picture and map are read. -/
def execEncodeFrameStart (eng : Fin 2) (ctx : Fin 256) (now : DWord) (s : State) : Host.Outcome State Fault Refusal :=
  let e := eng.val
  let c := ctx.val
  .next (match s.vctx e c with
  | none => s
  | some x =>
    if (smFind s.vce.enc e).isSome ∨ !s.vStarts e ∨ !s.vPicks e c true then s
    else
      match x.units with
      | [] => s
      | u :: _ =>
        let s1 := (s.at now.toNat).vPop e c
        let who := s1.vWho x u
        let rd := vencReads u.params u.bytes
        let stop := fun (a : State) (status detail : Nat) => (a.vEnd u status detail 0).vFlushes e c 16
        if x.refFault u then stop s1 scPARAM 0x1C
        else match s1.vReadRows who rd.1, s1.vReadRows who rd.2 with
          | .bad d q, _ => stop (s1.mmuFault who d q false) (faultStatus q) (faultDetail q 0x10)
          | _, .bad d q => stop (s1.mmuFault who d q false) (faultStatus q) (faultDetail q 0x28)
          | .ok b1 p1, .ok b2 p2 =>
            if p1 || p2 then
              (match s1.vctx e c with
              | some y => stop (s1.setVctx e c { y with forceKey := true }) scPOISON 0
              | none => s1)
            else
              match s1.vctx e c with
              | none => s1
              | some y =>
                let key := x.keyFrame u
                let frame := sub u.params 0x18 0x18 ++ sub u.bytes 0x1C 4 ++ b1 ++ b2
                let old := if x.forceKey then 1 else 0
                let vs := x.vectors u key b1 (y.hist ++ [(old, frame)])
                let z := { y with hist := y.hist ++ [(old, frame ++ mvBytes vs)], mvs := vs, forceKey := false,
                                  sinceKey := if key then 0 else y.sinceKey, lt := if key then [] else y.lt }
                (s1.setVctx e c z).setEnc e (some ⟨c, s1.vgen e c, u, 0, 0, 0, key⟩))

/-- The 32 bytes of a slice record (R271). -/
def vSliceRec (pts offset n frame row rows flags qp log k time : Nat) : List Byte :=
  let phase := 1 - k / 2 ^ log % 2
  toLe 8 pts ++ toLe 4 offset ++ toLe 4 n ++ toLe 4 frame ++ toLe 1 row ++ toLe 1 rows ++ toLe 1 (flags + 128 * phase) ++ toLe 1 qp ++
  toLe 8 time

/-- The pieces of a slice in the bitstream ring: it may wrap the ring's end. -/
def vRing (base size pos : Nat) (bs : List Byte) : List (Nat × List Byte) :=
  let o := pos % size
  let first := bs.take (size - o)
  (base + o, first) :: (if bs.length ≤ size - o then [] else [(base, bs.drop (size - o))])

/-- The QP_MAP of the last frame of an encode history, as signed bytes: none where the ENCODE names none. -/
def vencMap (u : VUnit) (hist : List (Nat × List Byte)) : List Int :=
  let p := u.params
  if leAt u.bytes 0x28 8 = 0 then []
  else
    (sub ((hist.getLast?.map (fun e => e.2)).getD []) (28 + (vencH p + vencH p / 2) * vencW p * vencE p)
      ((vencW p + 63) / 64 * ((vencH p + 63) / 64))).map (fun b => b.toInt)

/-- The QPs between which the blocks of some rows lie (R274): under CQP those of QP_I or QP_P with the map, else QP_MIN to QP_MAX; floor-coded blocks
may take QP_MAX. -/
def vencQps (u : VUnit) (hist : List (Nat × List Byte)) (key floor : Bool) (row rows : Nat) : Nat × Nat :=
  let p := u.params
  let rc := leAt p 0x18 4
  let lo := bits rc 15 8
  let hi := bits rc 23 16
  let cols := (vencW p + 63) / 64
  let base : Int := if key then leAt p 0x1C 4 % 256 else leAt p 0x1C 4 / 256 % 256
  let offs := match ((vencMap u hist).drop (row * cols)).take (rows * cols) with | [] => [0] | l => l
  let qs := offs.map (fun (o : Int) => (min (max (base + o) lo) hi).toNat)
  if rc % 4 = 0 then (qs.foldl min hi, if floor then hi else qs.foldl max lo) else (lo, hi)

/-- The average QP that a slice's record carries, in the scale of R270. -/
def vencAvgQp (u : VUnit) (hist : List (Nat × List Byte)) (key floor : Bool) (row rows open' : Nat) : Nat :=
  let q := vencQps u hist key floor row rows
  let v := q.1 + open' % (q.2 - q.1 + 1)
  if leAt u.params 0 4 % 2 = 1 then v / 4 else v

/-- The end of an encoded frame (R269, R273, R276). -/
def State.vencDone (s : State) (e : Nat) (r : VRun) (status detail : Nat) : State :=
  let s0 := s.setEnc e none
  match s0.vctx e r.ctx with
  | none => s0
  | some x =>
    let c := r.ctx
    if x.state = vcCLOSING then (s0.vEnd r.unit scCANCELLED 0 cfDROPPED).vFree e c x
    else if x.state = vcFAILED then s0.vEnd r.unit scPOISON 0 0
    else
      let fl := leAt r.unit.bytes 0x1C 4
      let lt := if bits fl 1 1 = 1 ∧ !(x.lt.contains (bits fl 3 2)) then x.lt ++ [bits fl 3 2] else x.lt
      let ok := status == 0
      let y := { x with outs := if ok then x.outs + 1 else x.outs, lastBytes := if ok then r.sent else x.lastBytes,
                        lt := if ok then lt else x.lt, sinceKey := x.sinceKey + 1, forceKey := !ok,
                        w := leAt x.params 4 4 % 2 ^ 14, h := bits (leAt x.params 4 4) 29 16 }
      ((((s0.setVctx e c y).vLoad e 1 (y.w * y.h)).vEnd r.unit status detail 0)).vFlushes e c 16

/-- SLICE_EMIT (R271, R275 to R277): the next slice of the frame in the encode pipeline, or its filler data, then the frame's end. -/
def execSliceEmit (eng : Fin 2) (now : DWord) (s : State) : Host.Outcome State Fault Refusal :=
  let e := eng.val
  .next (match smFind s.vce.enc e with
  | none => s
  | some r =>
    let s0 := s.at now.toNat
    match s0.vctx e r.ctx with
    | none => s0.setEnc e none
    | some x =>
      if x.state = vcCLOSING ∨ x.state = vcFAILED then s0.vencDone e r scCANCELLED 0
      else if r.hurt ≠ 0 then s0.vencDone e r scPOISON 0
      else
        let p := r.unit.params
        let key := vencKey p
        let rows := (bits (leAt p 4 4) 29 16 + 63) / 64
        let total := vencSlices p
        let per := if bits (leAt p 0x30 4) 23 16 = 0 then rows else bits (leAt p 0x30 4) 23 16
        let filler := r.slices == total
        let last := r.slices + 1 == total
        let gir := leAt p 0x30 4 % 65536
        let bs := (Config.vencSlice key x.hist r.slices).take (leAt p 0x5C 4 - r.sent)
        let fact := fun (k : Nat) => Config.vencFact key x.hist r.slices k
        let flags := (if r.slices = 0 then 1 else 0) + (if last then 2 else 0) + (if r.key then 4 else 0) +
          (if last && gir != 0 && x.sinceKey % gir + 1 == gir then 8 else 0) + (if !filler && fact 0 % 2 == 1 then 16 else 0) + (if filler then 32 else 0)
        let row := if filler then fact 2 % 256 else r.slices * per
        let nrow := if filler then fact 3 % 256 else min per (rows - r.slices * per)
        let who := s0.vWho x r.unit
        let lg := leAt p 0x70 4
        let body := vRing (leAt p 0x50 8) (leAt p 0x58 4) x.written bs
        let rec' := (leAt p 0x68 8 + 32 * (x.records % 2 ^ lg),
          vSliceRec r.unit.pts (x.written % leAt p 0x58 4) bs.length x.outs row nrow flags
            (vencAvgQp r.unit x.hist r.key (fact 0 % 2 == 1) row nrow (fact 1)) lg x.records s0.time)
        match s0.vRows who (body ++ [rec']) with
        | (s1, some (a, q)) => (s1.mmuFault who a q true).vencDone e r scTRANSLATION 8
        | (s1, none) =>
          let s2 := s1.setVctx e r.ctx { x with written := x.written + bs.length, records := x.records + 1 }
          let sg := leAt p 0x64 4
          let s3 := if cfValid sg then s2.relAdd x.tenant (cfCounter sg) 1 else s2
          let r1 := { r with slices := r.slices + 1, sent := r.sent + bs.length }
          let more := r1.slices < total || (r1.slices == total && bits (leAt p 0x18 4) 2 0 == 5 && !(Config.vencSlice key x.hist total).isEmpty)
          if more then s3.setEnc e (some r1)
          else match s3.vWork e r.ctx who 0x40 with
            | (s4, some (a, q)) => (s4.mmuFault who a q true).vencDone e r1 scTRANSLATION 8
            | (s4, none) => s4.vencDone e r1 scOK r1.sent)

/-! ### Palette destination slots (R262) -/

/-- The first refusal of a slot check, in R43's order: REASON and the word of the register at fault. Of R141's frame sizes it tests the smallest,
since the descriptor names no stream (log entry 39). -/
def State.pdRefusal (s : State) (e n : Nat) : Option (Nat × Nat) :=
  let pg := pgVCE e
  let d := s.pdDesc e n
  let ps := (pdPanels d (s.pdFirst e n)).filter (fun p => p < 128)
  let r := s.pdRegion e n
  let t := s.pdTenant e n
  let rsvd := fun (w : Nat) => smGet false s.rsv (pg * 1024 + w)
  let ctr := s.fld pg (f_VCE_PDEST_COUNTER_COUNTER n)
  let claims := fun (f m : Nat) => ((pdPanels (s.pdDesc f m) (s.pdFirst f m)).flatMap (fun p => (pdRegions (s.pdDesc f m) (s.pdRegion f m)).map (fun i => (p, i))))
  let others := ([0, 1].flatMap (fun f => (List.range 16).map (fun m => (f, m)))).filter (fun x => x != (e, n) && s.pdCommitted x.1 x.2)
  let tgt := r_VCE_PDEST_TARGET n
  if ps.any (fun p => !s.running (pnlPage p)) then some (3, tgt)
  else if rsvd tgt then some (2, tgt)
  else if rsvd (r_VCE_PDEST_COUNTER n) then some (2, r_VCE_PDEST_COUNTER n)
  else if pdFaultLo d (pdBlock d) (pdBlock d) then some (1, r_VCE_PDEST_DESC_LO n)
  else if s.pdFaultHi d (s.pdFirst e n) r (pdBlock d) then some (1, r_VCE_PDEST_DESC_HI n)
  else if s.fld pg (f_VCE_PDEST_TARGET_VALID n) = 0 ∨ 32 < t ∨ pdFaultTo d (s.pdFirst e n) r = true then some (1, tgt)
  else if ps.any (fun p => s.panelMode p == 0 || s.panelTenant p != t) then some (4, tgt)
  else if s.counterOwner ctr ≠ some t then some (4, r_VCE_PDEST_COUNTER n)
  else if others.any (fun x => (claims x.1 x.2).any (fun q => (claims e n).contains q)) then some (5, tgt)
  else if ps.any (fun p => (pdRegions d r).any (fun i => !s.hasRegion p i (1 + e))) then some (0x40, tgt)
  else none

/-- A write of VCE_PDEST_CMD (R262). -/
def State.pdCommit (s : State) (e : Nat) (v : Word) : State :=
  let pg := pgVCE e
  let n := v.toNat % 16
  let s0 := s.noteRsv pg r_VCE_PDEST_CMD v
  if !bitOf v 8 then s0
  else if s0.pdBound e n then s0.discard pg
  else
    let (ok, word, reason) := match s0.pdRefusal e n with | some (q, w) => (false, w, q) | none => (true, 0, 0)
    let s1 := s0.setBit pg f_VCE_PDEST_STATUS_COMMITTED n ok
    let s2 := ((((s1.setFld pg f_VCE_PDEST_RESULT_WORD word).setFld pg f_VCE_PDEST_RESULT_REASON reason).setFld pg f_VCE_PDEST_RESULT_SLOT n).setFld pg
      f_VCE_PDEST_RESULT_REFUSED (if ok then 0 else 1))
    s2.event pg ev_vce_PDEST_DONE

/-- PDEST_COMMIT (R262). -/
def execPdestCommit (eng : Fin 2) (v : Word) (s : State) : Host.Outcome State Fault Refusal :=
  .next (s.via 0 (fun a => a.pdCommit eng.val v))

/-- A write of a destination slot's register: discarded while the slot is bound; it clears COMMITTED. -/
def State.pdWrite (s : State) (e n w : Nat) (v : Word) : State :=
  let pg := pgVCE e
  if s.pdBound e n then (s.noteRsv pg w v).discard pg
  else (s.setBit pg f_VCE_PDEST_STATUS_COMMITTED n false).storeReg pg w v

/-! ### Errors (R278, R280) -/

/-- An uncorrectable context state word: the context is FAILED; its queued commands end with POISON_CONSUMED. -/
def State.vFail (s : State) (e c : Nat) : State :=
  match s.vctx e c with
  | none => s
  | some x =>
    if x.state = vcCLOSING ∨ x.state = vcFAILED then s
    else
      let s1 := x.units.foldl (fun (a : State) u => a.vEnd u scPOISON 0 0) (s.setVctx e c { x with state := vcFAILED, units := [] })
      (s1.event (pgVCE e) ev_vce_CONTEXT_FAILED).event (vceView x.tenant e) ev_vceT_CONTEXT_FAILED

/-- An uncorrectable buffer word met by the frame of a context. -/
def State.vHurt (s : State) (e c : Nat) : State :=
  let s1 := match smFind s.vce.dec e with
    | some r => if r.ctx = c then s.setDec e (some { r with hurt := r.hurt + 1 }) else s
    | none => s
  match smFind s1.vce.enc e with
  | some r => if r.ctx = c then s1.setEnc e (some { r with hurt := r.hurt + 1 }) else s1
  | none => s1

/-! ### The ends of operations -/

/-- OPERATION_COMPLETE. -/
def execOperationComplete (tag : Fin 8192) (now : DWord) (s : State) : Host.Outcome State Fault Refusal :=
  .next ((s.opComplete tag.val now.toNat).srvSweep.vSweep)

/-- OPERATION_TIMEOUT. -/
def execOperationTimeout (tag : Fin 8192) (now : DWord) (s : State) : Host.Outcome State Fault Refusal :=
  .next ((s.opTimeout tag.val now.toNat).srvSweep.vSweep)

end Sys2Proof.Machine
end

