-- ==== Sys2Proof/Machine/Ingest.lean ====
section
/-! DEFINITION. The Ingest Unit (15): streams and their frames, GVSP, RTP and raw packets, destinations, stream commands, the PTP clock and link states. -/

namespace Sys2Proof.Machine

open Sys2Proof

/-! ### A stream's words 0x204 to 0x244 (R393) -/

def cfgW (c : List Nat) (i : Nat) : Nat := c.getD i 0
def icTag (c : List Nat) : Nat := bits (cfgW c 0) 23 16
def icFmt (c : List Nat) : Nat := bits (cfgW c 0) 10 8
def icIf (c : List Nat) : Nat := bits (cfgW c 0) 3 2
def icProto (c : List Nat) : Nat := bits (cfgW c 0) 1 0
def icPort (c : List Nat) : Nat := bits (cfgW c 1) 15 0
def icGroup (c : List Nat) : Nat := cfgW c 2
def icH (c : List Nat) : Nat := bits (cfgW c 3) 29 16
def icW (c : List Nat) : Nat := bits (cfgW c 3) 13 0
def icFill (c : List Nat) : Nat := bits (cfgW c 4) 31 16
def icLong (c : List Nat) : Nat := bits (cfgW c 4) 2 2
def icShort (c : List Nat) : Nat := bits (cfgW c 4) 1 0
def icUs (c : List Nat) : Nat := bits (cfgW c 5) 19 0
def icCount (c : List Nat) : Nat := bits (cfgW c 6) 21 20
def icEngine (c : List Nat) : Nat := bits (cfgW c 6) 16 16
def icTenant (c : List Nat) : Nat := bits (cfgW c 6) 13 8
def icKind (c : List Nat) : Nat := bits (cfgW c 6) 1 0
def icDesc (c : List Nat) : Nat := cfgW c 7 + 2 ^ 32 * cfgW c 8
def icPanel (c : List Nat) (n : Nat) : Nat := bits (cfgW c (9 + n)) 6 0
def icRegion (c : List Nat) (n : Nat) : Nat := bits (cfgW c (9 + n)) 10 8
def icBase (c : List Nat) : Nat := bits (cfgW c 12) 31 12 * 4096 + bits (cfgW c 13) 15 0 * 2 ^ 32
def icSlots (c : List Nat) : Nat := bits (cfgW c 13) 31 16
def icBytes (c : List Nat) : Nat := cfgW c 14
def icCounter (c : List Nat) : Nat := bits (cfgW c 15) 17 0
def icTrig (c : List Nat) : Bool := bits (cfgW c 16) 31 31 == 1
def icDomain (c : List Nat) : Nat := bits (cfgW c 16) 19 16
def icOutput (c : List Nat) : Nat := bits (cfgW c 16) 3 0

/-- Bytes of a pixel as received, and the depth D of a sample (R379, R382). -/
def fmtBytes (f : Nat) : Nat := if f = 0 then 1 else if f = 3 ∨ f = 4 then 3 else 2
def fmtDepth (f : Nat) : Nat := if f = 1 then 10 else if f = 2 then 12 else 8

/-- Bytes of a line of WIDTH pixels and of a frame. -/
def icLine (c : List Nat) : Nat := icW c * fmtBytes (icFmt c)
def icFrame (c : List Nat) : Nat := icLine c * icH c

/-- Destinations of a PALETTE stream. -/
def icDests (c : List Nat) : List Nat := if icKind c = 1 then List.range (icCount c) else []
/-- Band panels of destination n. -/
def icPanels (c : List Nat) (n : Nat) : List Nat := pdPanels (icDesc c) (icPanel c n)

/-! ### Streams -/

def streamReset : Stream := ⟨none, none, [], none, 0, none, none, [], none, 0, [], 0, false⟩
def State.stream (s : State) (n : Nat) : Stream := smGet streamReset s.ing.streams n
def State.putStream (s : State) (n : Nat) (x : Stream) : State :=
  { s with ing := { s.ing with streams := smSet streamReset s.ing.streams n x } }

/-- The words that a stream's registers hold. -/
def State.strWords (s : State) (n : Nat) : List Nat := (List.range 17).map (fun i => (s.word (hmSTR n) (r_ING_STR_FORMAT + i)).toNat)

/-- Shows ACTIVE and PENDING of a stream. -/
def State.showStr (s : State) (n : Nat) : State :=
  let x := s.stream n
  (s.setFld (hmSTR n) f_ING_STR_STATUS_ACTIVE (if x.cfg.isSome then 1 else 0)).setFld (hmSTR n) f_ING_STR_STATUS_PENDING
    (if x.next.isSome then 1 else 0)

/-- Sets a stream and what its status register shows. -/
def State.setStream (s : State) (n : Nat) (x : Stream) : State := (s.putStream n x).showStr n

/-- PTP time now. -/
def State.ptpTime (s : State) : Nat := s.ptpAt s.time

/-- Counts a frame dropped at an interface (R376, R385). -/
def State.ifDrop (s : State) (i : Nat) : State := s.countUp pgING (r_ING_IF_CNT_DROP i) 1

/-- Is an interface there and up (R376)? A QUIESCING page goes on with the frames it holds (R33). -/
def State.ifUp (s : State) (i : Nat) : Bool :=
  s.working pgING && s.fld pgING (f_ING_PORT_STATUS_UP (i / 2)) / 2 ^ (i % 2) % 2 == 1

/-- Is a multicast group named by an enabled stream of an interface? -/
def State.groupNamed (s : State) (i g : Nat) : Bool :=
  s.ing.streams.any (fun e => e.2.cfg.any (fun c => icIf c == i && icGroup c == g && icProto c != 3))

/-- Multicast groups of a stream's words: none for a raw stream or where the address is the interface's own. -/
def icGroups (c : List Nat) : List Nat := if icProto c = 3 ∨ icGroup c = 0 then [] else [icGroup c]

/-- An IGMPv3 membership report (R377, R384): a join, or a leave. -/
def State.igmp (s : State) (i g : Nat) (join : Bool) : State := s.emit ⟨.ethernet, i, [1, g, if join then 1 else 0], []⟩

/-- Puts words in force for a stream, or none: IGMP joins and leaves follow (R377, R384). A new configuration starts its frame count. -/
def State.strForce (s : State) (n : Nat) (c : Option (List Nat)) : State :=
  let x := s.stream n
  let s1 := s.setStream n { x with cfg := c, next := none, k := 0, last := none, wr := 0, aus := [] }
  let s2 := match c with
    | some q => (icGroups q).foldl (fun (a : State) g => if s.groupNamed (icIf q) g then a else a.igmp (icIf q) g true) s1
    | none => s1
  match x.cfg with
  | some q => (icGroups q).foldl (fun (a : State) g => if s1.groupNamed (icIf q) g then a else a.igmp (icIf q) g false) s2
  | none => s2

/-- A frame boundary (R384): what waits for it takes effect. -/
def State.strBoundary (s : State) (n : Nat) : State :=
  match (s.stream n).next with
  | some c => s.strForce n c
  | none => s

/-- Has a stream a frame or an access unit in progress? -/
def Stream.busy (x : Stream) : Bool := !x.frames.isEmpty || x.au.isSome || !x.win.isEmpty

/-- The boundary that follows the end of the last frame in progress. -/
def State.strIdle (s : State) (n : Nat) : State := if (s.stream n).busy then s else s.strBoundary n

/-- The instance a frame that begins now belongs to (R159). -/
def State.strInst (s : State) (c : List Nat) : Option Nat :=
  if icTrig c then smFind s.ing.trig (icDomain c * 16 + icOutput c) else none

/-- Raises a stream's counter (R382): by 1, or to n + 1 under R159, never lowering it. A frame that began before any TRIGGER_OUT of its
output belongs to no instance. -/
def State.strCount (s : State) (c : List Nat) (inst : Option Nat) : State :=
  if !icTrig c then s.synAdd (icCounter c) 1
  else match inst with
    | some i => if s.counter (icCounter c) < i + 1 then s.synAdd (icCounter c) (i + 1 - s.counter (icCounter c)) else s
    | none => s

/-- The number of a frame for a MEMORY slot and for ALTERNATE: its instance where TRIG is VALID, else the frames delivered before it. -/
def frameNo (c : List Nat) (f : IngFrame) (k : Nat) : Nat := if icTrig c then f.inst.getD 0 else k

/-! ### Writing to a destination (R382) -/

/-- Colour k of pixel (y, x) of received bytes; a byte that has not arrived takes the FILL sample. -/
def icPix (c : List Nat) (data : SMap Byte) (k y x : Nat) : Nat :=
  let f := icFmt c
  let at' := fun (o : Nat) => match smFind data o with | some b => b.toNat | none => icFill c
  let o := y * icLine c + x * fmtBytes f
  if f = 0 then at' o
  else if f = 1 ∨ f = 2 then
    (match smFind data o, smFind data (o + 1) with
     | some b, some b2 => (b.toNat + 256 * b2.toNat) % 2 ^ fmtDepth f
     | _, _ => icFill c)
  else if f = 5 then (if k = 0 then at' o else at' (y * icLine c + x / 2 * 4 + (if k = 1 then 1 else 3)))
  else at' (o + (if (f == 3) == (pdOrder (icDesc c) == 0) then k else 2 - k))

/-- The byte at an offset of a frame in MEMORY: one that has not arrived is that of the FILL sample. -/
def icByte (c : List Nat) (data : SMap Byte) (o : Nat) : Byte :=
  match smFind data o with
  | some b => b
  | none => if (icFmt c = 1 ∨ icFmt c = 2) ∧ o % 2 = 1 then BitVec.ofNat 8 (icFill c / 256) else BitVec.ofNat 8 (icFill c)

/-- The places of a source pixel in the regions of a destination: panel, palette offset, and the colours with their channel. -/
def State.pixPlaces (s : State) (d first region y x : Nat) : List (Nat × Nat) :=
  let y2 := y / pdBlock d + pdHalo d
  (List.range (pdBands d)).filterMap (fun g =>
    let r := y2 - g * pdRows d
    if g * pdRows d ≤ y2 ∧ r < pdRows d + 2 * pdHalo d ∧ ¬(g + 1 = pdBands d ∧ pdHalo d + pdRows d ≤ r) then
      some (first + g, s.regionBase (first + g) region + r * pdPitch d + (pdPadX d + x / pdBlock d) * pdP d)
    else none)

/-- Channels of a layout pixel that source pixel (y, x) fills, each with its colour. -/
def pixChannels (d y x : Nat) : List (Nat × Nat) :=
  if pdLayout d = 2 then [(y % 4 * 4 + x % 4, 0)]
  else
    let n := if pdOrder d = 2 then 1 else 3
    let b := if pdLayout d = 3 then (y % 2 * 2 + x % 2) * 3 else 0
    (List.range n).map (fun k => (b + k, k))

/-- Writes one source pixel into the regions of a destination, poisoning the words it touches where the packet was poisoned. -/
def State.pixWrite (s : State) (c : List Nat) (data : SMap Byte) (first region y x : Nat) (hurt : Bool) : State :=
  let d := icDesc c
  (s.pixPlaces d first region y x).foldl (fun (a : State) q =>
    if a.landOpen q.1 then
      (pixChannels d y x).foldl (fun (b : State) ck =>
        let o := q.2 + ck.1 * pdElemBytes d
        let b1 := b.palWrite q.1 o (pdConvert d (fmtDepth (icFmt c)) (icPix c data ck.2 y x))
        if hurt then b1.palPoison q.1 o else b1) a
    else a) s

/-- The region of destination n that a frame goes to (R159). -/
def frameRegion (c : List Nat) (n no : Nat) : Nat := icRegion c n + (if pdAlternate (icDesc c) then no % 2 else 0)

/-- Writes bytes at a DVA of a stream's tenant over the Studio's port B: the state, and whether an address did not translate. -/
def State.ingWrite (s : State) (t dva : Nat) (bs : List Byte) : State × Bool :=
  let w := bareWho t
  let cs := cuts dva bs.length
  match s.writeFault w 1 cs with
  | some f => (s.mmuFault w f.1 f.2 true, true)
  | none => (if s.writesOff t then s else s.writeCuts w 1 cs bs, false)

/-- Counts a translation fault of a stream. -/
def State.strFault (s : State) (n : Nat) (bad : Bool) : State := if bad then s.countFld (hmSTR n) f_ING_STR_CNT_BAD_FAULT 1 else s

/-- First DVA of the slot of a MEMORY frame, and the slot's length. -/
def slotBase (c : List Nat) (no : Nat) : Nat := icBase c + no % max 1 (icSlots c) * (icBytes c / max 1 (icSlots c))
def slotLen (c : List Nat) : Nat := icBytes c / max 1 (icSlots c)

/-- Writes bytes of a frame at an offset of its slot, as far as they lie in the slot. -/
def State.slotWrite (s : State) (n : Nat) (c : List Nat) (no o : Nat) (bs : List Byte) (hurt : Bool) : State :=
  let b := bs.take (slotLen c - o)
  if b.isEmpty then s
  else
    let r := s.ingWrite (icTenant c) (slotBase c no + o) b
    let s1 := r.1.strFault n r.2
    if hurt && !r.2 then (List.range b.length).foldl (fun (a : State) i => a.poisonDva (bareWho (icTenant c)) (slotBase c no + o + i)) s1 else s1

/-- Writes what a packet brought: bytes at an offset within rows of WIDTH pixels. -/
def State.frameWrite (s : State) (n : Nat) (f : IngFrame) (o len : Nat) (hurt : Bool) : State :=
  let c := f.cfg
  let no := frameNo c f (s.stream n).k
  if icKind c = 2 then s.slotWrite n c no (64 + o) ((List.range len).map (fun i => icByte c f.data (o + i))) hurt
  else if icKind c = 1 then
    let bp := fmtBytes (icFmt c)
    (icDests c).foldl (fun (a : State) j =>
      (List.range ((o + len) / bp - (o + bp - 1) / bp)).foldl (fun (b : State) i =>
        let p := (o + bp - 1) / bp + i
        b.pixWrite c f.data (icPanel c j) (frameRegion c j no) (p / icW c) (p % icW c) hurt) a) s
  else s

/-! ### Frames (R383) -/

/-- Is a frame number later than another, among numbers of w bits? -/
def later (w a b : Nat) : Bool := let d := (a + 2 ^ w - b) % 2 ^ w; 0 < d && d < 2 ^ (w - 1)

/-- Puts a frame's bytes and missing pixels where they belong, at its end (R142, R382, R383). -/
def State.frameFill (s : State) (n : Nat) (f : IngFrame) (short long : Bool) : State :=
  let c := f.cfg
  let x := s.stream n
  let no := frameNo c f x.k
  let held := short && icShort c == 2 && x.last.isSome
  let data := if held then (x.last.getD []).foldl (fun (m : SMap Byte) e => if (smFind m e.1).isSome then m else smPut m e.1 e.2) f.data else f.data
  if icKind c = 1 then
    (icDests c).foldl (fun (a : State) j =>
      let a1 := a.palImage (icDesc c) (icPanel c j) (frameRegion c j no) (fmtDepth (icFmt c)) (icW c) (icH c) (icPix c data)
      f.hurt.foldl (fun (b : State) o => b.pixWrite c data (icPanel c j) (frameRegion c j no) (o / icLine c) (o % icLine c / fmtBytes (icFmt c)) true) a1) s
  else if icKind c = 2 then
    let lines := ((List.range (icH c)).filter (fun y => f.data.any (fun e => e.1 / icLine c == y))).length
    let flags := (if short then 1 else 0) + (if long then 2 else 0) + (if short && !held then 4 else 0) + (if f.overY then 8 else 0)
    let head := toLe 8 no ++ toLe 8 f.first ++ toLe 4 flags ++ toLe 4 lines ++ toLe 40 0
    let s1 := s.slotWrite n c no 64 ((List.range (icFrame c)).map (fun o => icByte c data o)) false
    let s2 := f.hurt.foldl (fun (b : State) o => b.slotWrite n c no (64 + o) [icByte c data o] true) s1
    s2.slotWrite n c no 0 head false
  else s

/-- The contents of a dropped frame's regions are undefined (R383). -/
def State.frameLose (s : State) (n : Nat) (f : IngFrame) : State :=
  let c := f.cfg
  let d := icDesc c
  let no := frameNo c f (s.stream n).k
  (icDests c).foldl (fun (a : State) j =>
    (icPanels c j).foldl (fun (b : State) p =>
      { b.palWrite p (b.regionBase p (frameRegion c j no)) (b.freeBytes (pdBandBytes d)) with free := b.free + pdBandBytes d }) a) s

/-- Sets SHORT_FRAME (16) or LONG_FRAME (32) for the RESULT RUN of the frame's instance (R383). -/
def State.markRun (s : State) (c : List Nat) (inst : Option Nat) (m : Nat) : State :=
  match inst with
  | some i =>
    let k := icDomain c * 2 ^ 28 + i % 2 ^ 28
    { s with ing := { s.ing with marks := smSet 0 s.ing.marks k (smGet 0 s.ing.marks k ||| m) } }
  | none => s

/-- A frame ends (R383): counts and events, the policies, the counter. `stop` handles it as short DROP (R384). -/
def State.frameEnd (s : State) (n : Nat) (f : IngFrame) (stop : Bool) : State :=
  let h := hmSTR n
  let c := f.cfg
  let x := s.stream n
  let s0 := s.putStream n { x with frames := x.frames.filter (fun g => g.num != f.num), ended := some f.num }
  let short := stop || f.data.length < icFrame c
  let long := f.overX || f.overY
  let s1 := if short then ((s0.countUp h r_ING_STR_CNT_SHORT 1).event pgING ev_ing_FRAME_SHORT).markRun c f.inst 16 else s0
  let s2 := if long then ((s1.countUp h r_ING_STR_CNT_LONG 1).event pgING ev_ing_FRAME_LONG).markRun c f.inst 32 else s1
  if stop || (short && icShort c == 1) || (long && icLong c == 1) then (s2.countUp h r_ING_STR_CNT_DROPPED 1).frameLose n f
  else
    let s3 := s2.frameFill n f short long
    let y := s3.stream n
    let s4 := s3.putStream n { y with k := y.k + 1, last := if short then y.last else some f.data }
    (s4.countUp h r_ING_STR_CNT_FRAMES 1).strCount c f.inst

/-- Ends a frame by its number, and the boundary that follows. -/
def State.endFrame (s : State) (n num : Nat) : State :=
  match (s.stream n).frames.find? (fun f => f.num == num) with
  | some f => (s.frameEnd n f false).strIdle n
  | none => s

/-- Ends the frames in progress that a leader or FRAME_START of frame `num` ends. -/
def State.endEarlier (s : State) (n w num : Nat) : State :=
  ((s.stream n).frames.filter (fun f => later w num f.num)).foldl (fun (a : State) f => a.endFrame n f.num) s

/-- Replaces a frame in progress. -/
def State.setFrameRec (s : State) (n : Nat) (f : IngFrame) : State :=
  let x := s.stream n
  s.putStream n { x with frames := x.frames.map (fun g => if g.num == f.num then f else g) }

/-- The frame that a packet belongs to: one in progress, or a new one, on the words then in force (R384); none for a frame that has
already ended, or for a new one while the page is QUIESCING. -/
def State.openFrame (s : State) (n w num : Nat) : State × Option IngFrame :=
  let x := s.stream n
  match x.frames.find? (fun f => f.num == num) with
  | some f => let g := { f with seen := s.time }; (s.setFrameRec n g, some g)
  | none =>
    if !s.running pgING then (match x.cfg with | some c => s.ifDrop (icIf c) | none => s, none)
    else if x.ended.any (fun e => !later w num e) then (s.countFld (hmSTR n) f_ING_STR_CNT_BAD_LATE 1, none)
    else
      let s1 := s.strBoundary n
      match (s1.stream n).cfg with
      | none => (s1, none)
      | some c =>
        let f : IngFrame := ⟨num, c, s1.strInst c, s1.ptpTime, s1.time, icLine c, [], false, false, []⟩
        let y := s1.stream n
        (s1.putStream n { y with frames := y.frames ++ [f] }, some f)

/-- Adds to a frame the bytes that lie in line `y` from byte `col` of it on; what lies beyond WIDTH or HEIGHT makes it long. -/
def State.frameLine (s : State) (n num y col : Nat) (bs : List Byte) (hurt : Bool) : State :=
  match (s.stream n).frames.find? (fun f => f.num == num) with
  | none => s
  | some f =>
    let c := f.cfg
    if icH c ≤ y then s.setFrameRec n { f with overY := f.overY || !bs.isEmpty }
    else
      let inside := bs.take (icLine c - col)
      let o := y * icLine c + col
      let data := (List.range inside.length).foldl (fun (m : SMap Byte) i => smPut m (o + i) (inside.getD i 0)) f.data
      let g := { f with data := data, overX := f.overX || inside.length < bs.length,
                        hurt := if hurt then f.hurt ++ (List.range inside.length).map (fun i => o + i) else f.hurt }
      (s.setFrameRec n g).frameWrite n g o inside.length hurt

/-- Adds bytes at an offset of an image whose lines have `row` bytes. -/
def State.frameBytes (s : State) (n num row o : Nat) (bs : List Byte) (hurt : Bool) : State :=
  let r := max 1 row
  (List.range ((o + bs.length + r - 1) / r - o / r)).foldl (fun (a : State) i =>
    let y := o / r + i
    let lo := max o (y * r)
    let hi := min (o + bs.length) ((y + 1) * r)
    a.frameLine n num y (lo - y * r) (sub bs (lo - o) (hi - lo)) hurt) s

/-- Receive buffers of a packet (R385). -/
def rxBufs (len : Nat) : Nat := max 1 ((len + 2047) / 2048)

/-- A packet is stored, its data written out and acknowledged, where the port has buffers for it (R385). -/
def State.rxPass (s : State) (i len : Nat) (f : State → State) : State :=
  let n := rxBufs len
  if (s.ledger pgING 0).free < n then s.ifDrop i
  else ((f (s.move pgING 0 .free .held n)).move pgING 0 .held .transit n).move pgING 0 .transit .free n

/-- Counts a packet outside its stream's subset (R379). -/
def State.strBad (s : State) (n : Nat) : State := s.countFld (hmSTR n) f_ING_STR_CNT_BAD_BAD 1

/-- Takes the poison due to the next packet of a stream (R393 SOURCE 0x02). -/
def State.takeHurt (s : State) (n : Nat) : State × Bool :=
  let x := s.stream n
  (s.putStream n { x with hurt := false }, x.hurt)

/-! ### Matching (R379) -/

/-- Does a stream on an interface match an IPv4 destination and a UDP port? -/
def State.udpMatch (s : State) (c : List Nat) (i dst port : Nat) : Bool :=
  icProto c != 3 && icIf c == i && icPort c == port &&
  dst == (if icGroup c = 0 then s.fld pgING (f_ING_IF_IPV4 i) else icGroup c) && dst != 0

/-- The stream that a UDP packet matches. -/
def State.udpStream (s : State) (i dst port : Nat) : Option (Nat × List Nat) :=
  (List.range 64).findSome? (fun n => match (s.stream n).cfg with
    | some c => if s.udpMatch c i dst port then some (n, c) else none
    | none => none)

/-! ### GVSP and raw packets (R379, R380) -/

/-- A GVSP packet on an interface. -/
def State.gvspIn (s : State) (i dst port : Nat) (ext : Bool) (p : GvspPkt) : State :=
  match s.udpStream i dst port with
  | none => s.ifDrop i
  | some (n, c) =>
    let w := if ext then 64 else 16
    if icProto c ≠ 0 then s.strBad n
    else match p with
    | .outside => s.strBad n
    | .leader block fmt lw _ =>
      if 6 ≤ fmt.val then s.strBad n
      else s.rxPass i 64 (fun a =>
        let b := a.endEarlier n w block.toNat
        match b.openFrame n w block.toNat with
        | (b1, some f) => b1.setFrameRec n { f with row := lw.val * fmtBytes fmt.val }
        | (b1, none) => b1)
    | .payload block off data =>
      s.rxPass i data.length (fun a =>
        match a.openFrame n w block.toNat with
        | (b, some f) =>
          let h := b.takeHurt n
          h.1.frameBytes n block.toNat f.row off.toNat data h.2
        | (b, none) => b)
    | .trailer block =>
      s.rxPass i 64 (fun a =>
        match a.openFrame n w block.toNat with
        | (b, some _) => b.endFrame n block.toNat
        | (b, none) => b)

/-- Is a raw packet of another version or TYPE, with a reserved field that is not 0, or not of the length its header gives? -/
def rawBad (c : List Nat) (b : List Byte) : Bool :=
  let vt := leAt b 0 1
  let ty := vt / 16
  b.length < 24 || vt % 16 != 1 || 3 ≤ ty || leAt b 3 1 != 0 || leAt b 14 2 != 0 || leAt b 2 1 != icFmt c ||
  (ty != 1 && leAt b 10 2 != 0) || (ty == 2 && leAt b 12 2 != 0) ||
  b.length < 24 + (if ty = 1 then leAt b 12 2 * fmtBytes (icFmt c) else 0)

/-- A raw packet on an interface: the payload of its Ethernet frame. -/
def State.rawIn (s : State) (i : Nat) (b : List Byte) : State :=
  match (List.range 64).findSome? (fun n => match (s.stream n).cfg with
    | some c => if icProto c = 3 ∧ icIf c = i ∧ icTag c = leAt b 1 1 ∧ 2 ≤ b.length then some (n, c) else none
    | none => none) with
  | none => s.ifDrop i
  | some (n, c) =>
    if rawBad c b then s.strBad n
    else
      let num := leAt b 4 4
      let bp := fmtBytes (icFmt c)
      s.rxPass i b.length (fun a =>
        let a1 := if leAt b 0 1 / 16 = 0 then a.endEarlier n 32 num else a
        match a1.openFrame n 32 num with
        | (q, none) => q
        | (q, some _) =>
          if leAt b 0 1 / 16 = 1 then
            let h := q.takeHurt n
            h.1.frameLine n num (leAt b 8 2) (leAt b 10 2 * bp) (sub b 24 (leAt b 12 2 * bp)) h.2
          else if leAt b 0 1 / 16 = 2 then q.endFrame n num
          else q)

/-! ### RTP (R379, R381) -/

/-- The big-endian 16-bit number at an offset. -/
def be16 (b : List Byte) (o : Nat) : Nat := (b.getD o 0).toNat * 256 + (b.getD (o + 1) 0).toNat

/-- The start code before a NAL unit of an access unit. -/
def nalStart : List Byte := [0#8, 0#8, 0#8, 1#8]

/-- The units of an aggregation packet, each behind a 16-bit size; none where the sizes do not fit. -/
def aggregate : Nat → List Byte → Option (List Byte)
  | 0, _ => none
  | k + 1, b =>
    if b.isEmpty then some []
    else
      let n := be16 b 0
      if b.length < 2 + n ∨ n = 0 then none
      else (aggregate k (b.drop (2 + n))).map (fun r => nalStart ++ sub b 2 n ++ r)

/-- What an RTP payload adds to its access unit; none outside the accepted subset. -/
def rtpUnits (h265 : Bool) (b : List Byte) : Option (List Byte) :=
  let b0 := (b.getD 0 0).toNat
  if h265 then
    let ty := b0 / 2 % 64
    if b.length < 3 then none
    else if ty < 48 then some (nalStart ++ b)
    else if ty = 48 then aggregate b.length (b.drop 2)
    else if ty = 49 then
      let fu := (b.getD 2 0).toNat
      some ((if fu / 128 = 1 then nalStart ++ [BitVec.ofNat 8 (b0 / 128 * 128 + fu % 64 * 2 + b0 % 2), b.getD 1 0] else []) ++ b.drop 3)
    else none
  else
    let ty := b0 % 32
    if b.length < 2 then none
    else if 1 ≤ ty ∧ ty ≤ 23 then some (nalStart ++ b)
    else if ty = 24 then aggregate b.length (b.drop 1)
    else if ty = 28 then
      let fu := (b.getD 1 0).toNat
      some ((if fu / 128 = 1 then nalStart ++ [BitVec.ofNat 8 (b0 / 32 * 32 + fu % 32)] else []) ++ b.drop 2)
    else none

/-- The open context that takes a stream's access units (R258). -/
def State.strCtx (s : State) (e n : Nat) : Option (Nat × VCtx) :=
  (s.vctxs e).find? (fun x => !x.2.enc && vpIngest x.2.params && leAt x.2.params 5 1 == n && x.2.state != vcCLOSING)

/-- Bytes of a stream's buffer that no decoder has consumed. -/
def State.strUsed (s : State) (n : Nat) (c : List Nat) : Nat :=
  let own := ((s.stream n).aus.map (fun a => a.1.length)).sum
  match s.strCtx (icEngine c) n with
  | none => own
  | some (i, x) =>
    own + ((x.units.filter (fun u => u.tag.isNone)).map (fun u => u.bytes.length)).sum +
    (match smFind s.vce.dec (icEngine c) with
     | some r => if r.ctx = i ∧ r.unit.tag.isNone then r.unit.bytes.length else 0
     | none => 0)

/-- An access unit ends (R381): it is written whole into the buffer, or dropped; its receive buffers return. -/
def State.auEnd (s : State) (n : Nat) (c : List Nat) (u : IngAu) : State :=
  let x := s.stream n
  let h := hmSTR n
  let s0 := ((s.putStream n { x with au := none }).move pgING 0 .held .transit u.bufs).move pgING 0 .transit .free u.bufs
  if icBytes c < s0.strUsed n c + u.bytes.length then s0.countUp h r_ING_STR_CNT_DROPPED 1
  else
    let o := x.wr % max 1 (icBytes c)
    let k := icBytes c - o
    let r1 := s0.ingWrite (icTenant c) (icBase c + o) (u.bytes.take k)
    let r2 := if u.bytes.length ≤ k then r1 else r1.1.ingWrite (icTenant c) (icBase c) (u.bytes.drop k)
    if r1.2 ∨ r2.2 then r2.1.strFault n true
    else
      let y := r2.1.stream n
      let s1 := (r2.1.putStream n { y with wr := y.wr + u.bytes.length }).countUp h r_ING_STR_CNT_FRAMES 1
      let s2 := match s1.strCtx (icEngine c) n with
        | some (i, _) => s1.vDeliver (icEngine c) i u.bytes u.pts u.loss
        | none => let z := s1.stream n; s1.putStream n { z with aus := z.aus ++ [(u.bytes, u.pts, u.loss)] }
      s2.strCount c u.inst

/-- Takes one packet in sequence into the access unit in assembly. -/
def State.rtpTake (s : State) (n : Nat) (p : IngPkt) : State :=
  match (s.stream n).cfg with
  | none => s.reclaim pgING 0 .held p.bufs
  | some c0 =>
    let s0 := match (s.stream n).au with
      | some u => if u.ts ≠ p.ts then s.auEnd n c0 u else s
      | none => s
    let s1 := if (s0.stream n).au.isNone then s0.strBoundary n else s0
    if (s1.stream n).au.isNone ∧ !s1.running pgING then ((s1.ifDrop (icIf c0)).move pgING 0 .held .transit p.bufs).move pgING 0 .transit .free p.bufs else
    match (s1.stream n).cfg with
    | none => s1.reclaim pgING 0 .held p.bufs
    | some c =>
      let x := s1.stream n
      let u := x.au.getD ⟨p.ts, p.pts, p.inst, [], x.loss, 0⟩
      match rtpUnits (icProto c == 2) p.payload with
      | none => ((s1.strBad n).move pgING 0 .held .transit p.bufs).move pgING 0 .transit .free p.bufs
      | some b =>
        let v := { u with bytes := u.bytes ++ b, bufs := u.bufs + p.bufs }
        let s2 := s1.putStream n { x with au := some v, loss := 0 }
        if p.marker then (s2.auEnd n c v) else s2

/-- Takes the packets of the window that are next in sequence. -/
def State.rtpDrain (s : State) (n : Nat) : Nat → State
  | 0 => s
  | k + 1 =>
    let x := s.stream n
    match x.seq with
    | none => s
    | some e =>
      match x.win.find? (fun w => w.1 == e) with
      | none => s
      | some (_, p) =>
        let s1 := s.putStream n { x with win := x.win.filter (fun w => w.1 != e), seq := some ((e + 1) % 65536) }
        (s1.rtpTake n p).rtpDrain n k

/-- Notes a gap that the window did not fill: a loss within the access unit (R381). -/
def State.rtpLoss (s : State) (n : Nat) : State :=
  let x := s.stream n
  match x.au with
  | some u => s.putStream n { x with au := some { u with loss := u.loss + 1 } }
  | none => s.putStream n { x with loss := x.loss + 1 }

/-- Moves the window on until sequence number `q` lies within its 64 packets: gaps passed over are losses. -/
def State.rtpReach (s : State) (n q : Nat) : Nat → State
  | 0 => s
  | k + 1 =>
    let x := s.stream n
    match x.seq with
    | none => s
    | some e =>
      if (q + 65536 - e) % 65536 < 64 then s
      else
        -- the next packet held, or the first number of which the window reaches q
        let d := (x.win.map (fun w => (w.1 + 65536 - e) % 65536)).foldl min ((q + 65536 - e) % 65536 - 63)
        (((s.putStream n { x with seq := some ((e + d) % 65536) }).rtpLoss n).rtpDrain n 64).rtpReach n q k

/-- An RTP packet on an interface. -/
def State.rtpIn (s : State) (i dst port : Nat) (p : RtpPkt) : State :=
  match s.udpStream i dst port with
  | none => s.ifDrop i
  | some (n, c) =>
    let nb := rxBufs p.payload.length
    let q := p.seq.toNat
    let e := (s.stream n).seq.getD q
    let d := (q + 65536 - e) % 65536
    if icProto c = 0 ∨ (rtpUnits (icProto c == 2) p.payload).isNone then s.strBad n
    else if 32768 ≤ d then s.countFld (hmSTR n) f_ING_STR_CNT_BAD_LATE 1
    else if (s.ledger pgING 0).free < nb then s.ifDrop i
    else if (s.stream n).win.any (fun w => w.1 == q) then s
    else
      let x := s.stream n
      let s1 := (s.putStream n { x with seq := some e }).rtpReach n q 65
      let y := s1.stream n
      let pkt : IngPkt := ⟨p.ts.toNat, p.marker, p.payload, s.ptpTime, s.strInst c, nb⟩
      (((s1.putStream n { y with win := y.win ++ [(q, pkt)] }).move pgING 0 .free .held nb).rtpDrain n 65).strIdle n

/-! ### PTP and ARP (R377, R378) -/

/-- Changes ING_PTP_STATUS.STATE. -/
def State.ptpState (s : State) (v : Nat) : State :=
  if s.fld pgING f_ING_PTP_STATUS_STATE = v then s else (s.setFld pgING f_ING_PTP_STATUS_STATE v).event pgING ev_ing_PTP_STATE

def State.setPtp (s : State) (x : PtpClk) : State := { s with ing := { s.ing with ptp := x } }

/-- A measured offset: master time minus the timebase, published; PTP_LOCKED while it moved by no more than 1 µs (R47, R378). -/
def State.ptpOffset (s : State) (t1 t2 t3 t4 : Int) : State :=
  let off := ((t1 - t2) + (t4 - t3)) / 2
  let old := Int.bmod (s.wideOf pgMOD r_MOD_PTP_OFFSET_LO) (2 ^ 64)
  let ok := decide ((off - old).natAbs ≤ 1000)
  ((s.setWide pgMOD r_MOD_PTP_OFFSET_LO (off % 2 ^ 64).toNat).setFld pgMOD f_MOD_TIME_CTRL_PTP_LOCKED (if ok then 1 else 0)).ptpState 2

/-- The delay request that follows a sync: its departure is timestamped. -/
def State.ptpDelay (s : State) (i : Nat) : State :=
  (s.setPtp { s.ing.ptp with t3 := some s.time }).emit ⟨.ethernet, i, [2], []⟩

/-- A PTP message on an interface. -/
def State.ptpIn (s : State) (i : Nat) (udp : Bool) (domain : Nat) (m : PtpMsg) : State :=
  let x := s.ing.ptp
  let mine := s.fld pgING f_ING_PTP_CFG_ENABLE == 1 && s.fld pgING f_ING_PTP_CFG_INTERFACE == i &&
    (s.fld pgING f_ING_PTP_CFG_TRANSPORT == 1) == udp && s.fld pgING f_ING_PTP_CFG_DOMAIN == domain
  if !mine then s.ifDrop i
  else match m with
  | .absent => s.ifDrop i
  | .announce src rank =>
    (match x.master with
     | none => (s.setPtp ⟨some (src.toNat, rank.toNat), none, 0, none⟩).ptpState 1
     | some (q, r) =>
       if q = src.toNat then s.setPtp { x with master := some (q, rank.toNat) }
       else if rank.toNat < r then (s.setPtp ⟨some (src.toNat, rank.toNat), none, 0, none⟩).ptpState 1
       else s)
  | .sync src two origin =>
    if x.master.any (fun q => q.1 == src.toNat) then
      (if two then s.setPtp { x with t1 := none, t2 := s.time }
       else (s.setPtp { x with t1 := some origin.toNat, t2 := s.time }).ptpDelay i)
    else s
  | .followUp src origin =>
    if x.master.any (fun q => q.1 == src.toNat) ∧ x.t1.isNone then (s.setPtp { x with t1 := some origin.toNat }).ptpDelay i else s
  | .delayResp src t4 =>
    if x.master.any (fun q => q.1 == src.toNat) then
      (match x.t1, x.t3 with
       | some t1, some t3 => (s.setPtp { x with t3 := none }).ptpOffset t1 x.t2 t3 t4.toNat
       | _, _ => s)
    else s

/-- An ARP request (R377): only one for the interface's own address is answered. -/
def State.arpIn (s : State) (i : Nat) (target : Word) : State :=
  if target.toNat ≠ 0 ∧ target.toNat = s.fld pgING (f_ING_IF_IPV4 i) then s.emit ⟨.ethernet, i, [3, target.toNat], []⟩ else s.ifDrop i

/-! ### Frames at a port -/

/-- ETHERNET_FRAME (R376): its length, whether its FCS holds, its 802.1Q tags, and what it carries. -/
def execEthernetFrame (i : Fin 4) (len : Fin 65536) (fcs : Bool) (tags : Fin 8) (b : EthBody) (now : DWord) (s : State) :
    Host.Outcome State Fault Refusal :=
  let a := s.at now.toNat
  .next (if !a.ifUp i.val then s
    else if !fcs ∨ 9216 < len.val ∨ 1 < tags.val then a.ifDrop i.val
    else match b with
    | .gvsp dst port ext p => a.gvspIn i.val dst.toNat port.val ext p
    | .rtp dst port p => a.rtpIn i.val dst.toNat port.val p
    | .raw q => a.rawIn i.val q
    | .arp t => a.arpIn i.val t
    | .ptp u d m => a.ptpIn i.val u d.val m
    | .igmpQuery => (a.ing.streams.filterMap (fun e => e.2.cfg)).foldl (fun (b : State) c =>
        if icIf c = i.val then (icGroups c).foldl (fun (d : State) g => d.igmp i.val g true) b else b) a
    | .unknown => a.ifDrop i.val)

/-- GVSP_PACKET (R379). -/
def execGvspPacket (i : Fin 4) (dst : Word) (port : Fin 65536) (ext : Bool) (p : GvspPkt) (now : DWord) (s : State) :
    Host.Outcome State Fault Refusal :=
  .next (if !s.ifUp i.val then s else (s.at now.toNat).gvspIn i.val dst.toNat port.val ext p)

/-- RTP_PACKET (R381). -/
def execRtpPacket (i : Fin 4) (dst : Word) (port : Fin 65536) (p : RtpPkt) (now : DWord) (s : State) : Host.Outcome State Fault Refusal :=
  .next (if !s.ifUp i.val then s else (s.at now.toNat).rtpIn i.val dst.toNat port.val p)

/-- RTP_REORDER_TIMEOUT (R381): the gap before the lowest packet held is a loss. -/
def execRtpReorderTimeout (n : Fin 64) (now : DWord) (s : State) : Host.Outcome State Fault Refusal :=
  let x := s.stream n.val
  .next (match x.seq, x.win with
    | some e, _ :: _ =>
      let d := (x.win.map (fun w => (w.1 + 65536 - e) % 65536)).foldl min 65535
      (((((s.at now.toNat).putStream n.val { x with seq := some ((e + d) % 65536) }).rtpLoss n.val).rtpDrain n.val 65).strIdle n.val)
    | _, _ => s)

/-- RAW_PACKET (R380). -/
def execRawPacket (i : Fin 4) (b : List Byte) (now : DWord) (s : State) : Host.Outcome State Fault Refusal :=
  .next (if !s.ifUp i.val then s else (s.at now.toNat).rawIn i.val b)

/-- Has FRAME_TIMEOUT passed since a frame's last accepted packet (R383)? -/
def IngFrame.stale (f : IngFrame) (t : Nat) : Bool := f.seen + icUs f.cfg * 1000 ≤ t

/-- FRAME_TIMEOUT (R383): it ends the first frame of a stream whose last accepted packet lies that long back. -/
def execFrameTimeout (n : Fin 64) (now : DWord) (s : State) : Host.Outcome State Fault Refusal :=
  .next (match (s.stream n.val).frames.find? (fun f => f.stale (max s.time now.toNat)) with
    | some f => (s.at now.toNat).endFrame n.val f.num
    | none => s)

/-- ARP_REQUEST (R377). -/
def execArpRequest (i : Fin 4) (target : Word) (s : State) : Host.Outcome State Fault Refusal :=
  .next (if !s.ifUp i.val then s else s.arpIn i.val target)

/-- PTP_MESSAGE (R378). -/
def execPtpMessage (i : Fin 4) (udp : Bool) (domain : Fin 256) (m : PtpMsg) (now : DWord) (s : State) : Host.Outcome State Fault Refusal :=
  .next (if !s.ifUp i.val then s else (s.at now.toNat).ptpIn i.val udp domain.val m)

/-- PTP_ANNOUNCE_TIMEOUT (R378): the clock enters HOLDOVER and PTP_LOCKED clears; the rate stays. -/
def execPtpAnnounceTimeout (s : State) : Host.Outcome State Fault Refusal :=
  .next (if s.working pgING ∧ s.ing.ptp.master.isSome then
      ((s.setPtp ⟨none, none, 0, none⟩).ptpState 3).setFld pgMOD f_MOD_TIME_CTRL_PTP_LOCKED 0
    else s)

/-- LINK_CHANGE of an interface (R376, R393); the second one of a port exists only in the split modes. -/
def execLinkChange (i : Fin 4) (up : Bool) (s : State) : Host.Outcome State Fault Refusal :=
  let f := f_ING_PORT_STATUS_UP (i.val / 2)
  let old := s.fld pgING f
  let b := 2 ^ (i.val % 2)
  let new := (old ||| b) - (if up then 0 else b)
  .next (if !s.working pgING ∨ new = old ∨ (i.val % 2 = 1 ∧ s.fld pgING (f_ING_PORT_CFG_MODE (i.val / 2)) < 2) then s
    else (s.setFld pgING f new).event pgING ev_ing_LINK_CHANGE)

/-! ### Stream commands (R384) -/

/-- The words of the other streams that hold claims: in force, or waiting for their boundary. -/
def State.otherClaims (s : State) (n : Nat) : List (List Nat) :=
  (s.ing.streams.filter (fun e => e.1 != n)).flatMap (fun e =>
    (match e.2.cfg with | some c => [c] | none => []) ++ (match e.2.next with | some (some c) => [c] | _ => []))

/-- Do two streams match the same packets? -/
def matchMeets (a b : List Nat) : Bool :=
  icIf a == icIf b &&
  (if icProto a = 3 ∨ icProto b = 3 then icProto a == icProto b && icTag a == icTag b else icPort a == icPort b && icGroup a == icGroup b)

/-- Panel and region of every region that a stream writes. -/
def icRegions (c : List Nat) (j : Nat) : List (Nat × Nat) :=
  (icPanels c j).flatMap (fun p => (pdRegions (icDesc c) (icRegion c j)).map (fun r => (p, r)))

/-- REASON codes of a commit's tests. -/
def rsTest (r : Nat) (o : Option Nat) : Option (Nat × Nat) := o.map (fun w => (r, w))

/-- The first test of R384 that a stream's registers fail: REASON and word offset. -/
def State.strRefusal (s : State) (n : Nat) : Option (Nat × Nat) :=
  let c := s.strWords n
  let t := icTenant c
  let d := icDesc c
  let ds := icDests c
  let wP := fun (j : Nat) => r_ING_STR_FORMAT + 9 + j
  let oc := s.otherClaims n
  let mono := icFmt c < 3
  [rsTest 3 ((ds.find? (fun j => (icPanels c j).any (fun p => p < 128 && !s.running (pnlPage p)))).map wP <|>
     (if icKind c = 3 ∧ !s.running (pgVCE (icEngine c)) then some r_ING_STR_DEST else none)),
   rsTest 2 ((List.range 17).find? (fun i => smGet false s.rsv (hmSTR n * 1024 + r_ING_STR_FORMAT + i)) |>.map (fun i => r_ING_STR_FORMAT + i)),
   rsTest 1 (firstBad [(r_ING_STR_FORMAT, decide (icFmt c < 6)),
     (r_ING_STR_SIZE, 1 ≤ icW c && icW c ≤ 8192 && 1 ≤ icH c && icH c ≤ 8192), (r_ING_STR_POLICY, decide (icShort c < 3)),
     (r_ING_STR_TIMEOUT, 10 ≤ icUs c && icUs c ≤ 1000000), (r_ING_STR_DEST, 1 ≤ icCount c && icCount c ≤ 3 && t ≤ 32),
     (r_ING_STR_DESC_LO, icKind c != 1 || !pdFaultLo d (icW c) (icH c)),
     (r_ING_STR_DESC_HI, icKind c != 1 || ds.all (fun j => !s.pdFaultHi d (icPanel c j) (icRegion c j) (icH c))),
     ((ds.find? (fun j => pdFaultTo d (icPanel c j) (icRegion c j))).getD 0 + r_ING_STR_PANEL 0,
       icKind c != 1 || ds.all (fun j => !pdFaultTo d (icPanel c j) (icRegion c j))),
     (r_ING_STR_BUF_HI, 1 ≤ icSlots c && icSlots c ≤ 64)]),
   rsTest 0xB (if 2 ≤ icKind c ∧ icBytes c % (icSlots c * 64) ≠ 0 then some r_ING_STR_BUF_BYTES else none),
   rsTest 4 ((if !s.tenantRunning t then some r_ING_STR_DEST else none) <|>
     (ds.find? (fun j => (icPanels c j).any (fun p => s.panelMode p == 0 || s.panelTenant p != t))).map wP <|>
     (if s.counterOwner (icCounter c) ≠ some t then some r_ING_STR_COUNTER else none)),
   rsTest 5 ((if oc.any (fun o => matchMeets c o) then some (if icProto c = 3 then r_ING_STR_FORMAT else r_ING_STR_GROUP) else none) <|>
     ((ds.find? (fun j => (icRegions c j).any (fun q => oc.any (fun o => (icDests o).any (fun k => (icRegions o k).any (fun z => z == q)))))).map wP) <|>
     (if icTrig c ∧ oc.any (fun o => icTrig o && icDomain o == icDomain c && icOutput o == icOutput c) then some r_ING_STR_TRIG else none)),
   rsTest 0x40 ((if (icKind c = 3 ∧ (icProto c = 0 ∨ icProto c = 3)) ∨ ((icKind c = 1 ∨ icKind c = 2) ∧ (icProto c = 1 ∨ icProto c = 2)) then
       some r_ING_STR_DEST else none) <|>
     (if icKind c = 1 ∧ (if mono then pdOrder d ≠ 2 else if icFmt c = 5 then pdOrder d ≠ 3 else 2 ≤ pdOrder d) then some r_ING_STR_DESC_LO else none)),
   rsTest 0x41 ((ds.find? (fun j => (icRegions c j).any (fun q => !s.hasRegion q.1 q.2 0))).map wP),
   rsTest 0x42 (if icTrig c ∧ !bitOf (s.word (pgCAD (icDomain c)) r_CAD_DOM_OUTS) (icOutput c) then some r_ING_STR_TRIG else none)].findSome? id

/-- A command of the selected stream: while the ING page runs. -/
def State.strCmd (s : State) (f : Nat → State → State) : State :=
  if !s.running pgING then s.discard pgING
  else f (s.fld pgING f_ING_STR_SEL_STREAM) s

/-- COMMIT. -/
def State.strCommit (s : State) (n : Nat) : State :=
  let h := hmSTR n
  match s.strRefusal n with
  | some (r, w) =>
    (((s.setFld h f_ING_STR_STATUS_REFUSED 1).setFld h f_ING_STR_STATUS_REASON r).setFld h f_ING_STR_STATUS_WORD w).event pgING ev_ing_STREAM_DONE
  | none =>
    let x := s.stream n
    (((s.setStream n { x with next := some (some (s.strWords n)) }).setFld h f_ING_STR_STATUS_REFUSED 0).strIdle n).event pgING ev_ing_STREAM_DONE

/-- STREAM_COMMIT: ING_STR_CMD is written with OP 1 (R384). -/
def execStreamCommit (s : State) : Host.Outcome State Fault Refusal :=
  .next (s.via 0 (fun a => a.strCmd (fun n b => b.strCommit n)))

/-- DISABLE. -/
def State.strDisable (s : State) (n : Nat) : State :=
  let x := s.stream n
  (if x.cfg.isNone then s else (s.setStream n { x with next := some none }).strIdle n).event pgING ev_ing_STREAM_DONE

/-- STREAM_DISABLE: OP 2 (R384). -/
def execStreamDisable (s : State) : Host.Outcome State Fault Refusal :=
  .next (s.via 0 (fun a => a.strCmd (fun n b => b.strDisable n)))

/-- A stream stops at once (R384): its frames in progress are handled as short DROP, its receive buffers are reclaimed. -/
def State.strStop (s : State) (n : Nat) : State :=
  let x := s.stream n
  if x.cfg.isNone then s
  else
    let s1 := x.frames.foldl (fun (a : State) f => a.frameEnd n f true) s
    let h := hmSTR n
    let s2 := match x.au with
      | some u => ((s1.reclaim pgING 0 .held u.bufs).countUp h r_ING_STR_CNT_SHORT 1 |>.countUp h r_ING_STR_CNT_DROPPED 1).event pgING ev_ing_FRAME_SHORT
      | none => s1
    let s3 := x.win.foldl (fun (a : State) w => a.reclaim pgING 0 .held w.2.bufs) s2
    let y := s3.stream n
    (s3.putStream n { y with frames := [], au := none, win := [], seq := none, loss := 0, ended := none, hurt := false }).strForce n none

/-- Streams whose words in force or waiting meet a test stop. -/
def State.strStopAll (s : State) (p : List Nat → Bool) : State :=
  s.ing.streams.foldl (fun (a : State) e =>
    let a1 := if e.2.cfg.any p then a.strStop e.1 else a
    match (a1.stream e.1).next with
    | some (some c) => if p c then a1.setStream e.1 { a1.stream e.1 with next := none } else a1
    | _ => a1) s

/-- A page leaves service: a PNL or VCE page that streams name, or the ING page itself. -/
def State.strPageOff (s : State) (page : Nat) : State :=
  if page = pgING then
    let s1 := s.strStopAll (fun _ => true)
    let s2 := [0, 1].foldl (fun (a : State) p => a.setFld pgING (f_ING_PORT_STATUS_UP p) 0) s1
    ((s2.setPtp ⟨none, none, 0, none⟩).setFld pgING f_ING_PTP_STATUS_STATE 0).setFld pgMOD f_MOD_TIME_CTRL_PTP_LOCKED 0
  else if pageKind page = .pnl then s.strStopAll (fun c => (icDests c).any (fun j => (icPanels c j).contains (pageInstance page)))
  else if pageKind page = .vce then s.strStopAll (fun c => icKind c == 3 && pgVCE (icEngine c) == page)
  else s

/-- A tenant is disabled (R332 step 1, R384). -/
def State.strTenantOff (s : State) (t : Nat) : State := s.strStopAll (fun c => icTenant c == t)

/-- Does the ING page depend on a page (R384)? -/
def State.strNames (s : State) (page : Nat) : Bool :=
  s.ing.streams.any (fun e =>
    let p := fun (c : List Nat) =>
      if pageKind page = .pnl then (icDests c).any (fun j => (icPanels c j).contains (pageInstance page))
      else if pageKind page = .vce then icKind c == 3 && pgVCE (icEngine c) == page else false
    e.2.cfg.any p || (match e.2.next with | some (some c) => p c | _ => false))

end Sys2Proof.Machine
end

