-- ==== Sys2Proof/Machine/MuralLink.lean ====
section
/-! DEFINITION. The Mural link layer (14): lock, delivery and replay of flits, credits, lanes, port power states, and a port going DOWN (R347 to R357, R373). -/

namespace Sys2Proof.Machine

open Sys2Proof

/-! ### Tables -/

def mportReset : MPort := ⟨0, 0, 0, [], [], 0, false, false, [], [], [], 0, [], [], [], [], none, none, false, 0, 0⟩
def State.mport (s : State) (p : Nat) : MPort := smGet mportReset s.mur.ports p
def State.setMport (s : State) (p : Nat) (x : MPort) : State :=
  { s with mur := { s.mur with ports := smSet mportReset s.mur.ports p x } }
def mjobReset : MJob := ⟨false, none, 0, [], [], none⟩
def State.mjob (s : State) (j : Nat) : MJob := smGet mjobReset s.mur.jobs j
def State.setMjob (s : State) (j : Nat) (x : MJob) : State :=
  { s with mur := { s.mur with jobs := smSet mjobReset s.mur.jobs j x } }
def State.mop (s : State) (tag : Nat) : Option MOp := smFind s.mur.ops tag
def State.setMop (s : State) (tag : Nat) (x : MOp) : State := { s with mur := { s.mur with ops := smPut s.mur.ops tag x } }

/-- STATUS.LINK codes and STATUS.POWER codes. -/
def lkDOWN : Nat := 0
def lkTRAINING : Nat := 1
def lkUP : Nat := 2
def lkPARKED : Nat := 3
def State.link (s : State) (p : Nat) : Nat := s.fld (pgPORT p) f_MUR_PORT_STATUS_LINK
def State.setLink (s : State) (p l : Nat) : State := s.setFld (pgPORT p) f_MUR_PORT_STATUS_LINK l

/-- May the router send to the port: is it UP and not draining (R356, R364, R373)? -/
def State.portUsable (s : State) (p : Nat) : Bool :=
  s.running (pgPORT p) && s.link p == lkUP && s.fld (pgPORT p) f_MUR_PORT_CTRL_DRAIN == 0 &&
  s.fld (pgPORT p) f_MUR_PORT_STATUS_TRANSITION == 0

/-! ### Packet header fields (R358) -/

def phDst (b : List Byte) : Nat := leAt b 0 2 % 4096
def phSrc (b : List Byte) : Nat := leAt b 2 2 % 4096
def phType (b : List Byte) : Nat := leAt b 4 1
def phStatus (b : List Byte) : Nat := leAt b 5 1
def phJob (b : List Byte) : Nat := leAt b 6 2
def phOff (b : List Byte) : Nat := leAt b 8 8
def phLen (b : List Byte) : Nat := leAt b 16 2 % 8192
def phReq (b : List Byte) : Nat := leAt b 18 2
def phIv (b : List Byte) : Nat := leAt b 20 12
def phPoison (b : List Byte) : Nat := leAt b 32 8
def phEpoch (b : List Byte) : Nat := leAt b 40 4

/-- Does a packet of a TYPE carry a payload of LENGTH bytes? A READ_REQ's LENGTH is what it asks for. -/
def carries (typ status : Nat) : Bool := typ == 0 || typ == 6 || (typ == 2 && status == 0)
/-- Bytes of a packet whose header is given: header, payload, tag. -/
def packetLen (b : List Byte) : Nat := 48 + (if carries (phType b) (phStatus b) then min (phLen b) 4096 else 0) + 16
/-- The virtual channel of a TYPE (R355), and whether the TYPE is a request. -/
def vcOf (typ : Nat) : Nat := if typ = 6 ∨ typ = 7 then 2 else if typ = 0 ∨ typ = 1 ∨ typ = 4 then 0 else 1
def isRequest (typ : Nat) : Bool := typ == 0 || typ == 1 || typ == 4 || typ == 6

/-! ### The scrambler (R350) -/

/-- A bit through the self-synchronous scrambler x^58 + x^39 + 1: what a bit is added to, and the history once a line bit joins it. -/
def scrTap (st : Nat) : Bool := Nat.testBit st 38 != Nat.testBit st 57
def scrJoin (st : Nat) (line : Bool) : Nat := (2 * st + (if line then 1 else 0)) % 2 ^ 58

/-- One byte, least significant bit first: `desc` takes the line bits from the input, else from the output. -/
def scrByte (desc : Bool) (st v : Nat) : Nat × Nat :=
  (List.range 8).foldl (fun (q : Nat × Nat) i =>
    let b := Nat.testBit v i
    let o := b != scrTap q.1
    (scrJoin q.1 (if desc then b else o), q.2 + (if o then 2 ^ i else 0))) (st, 0)

/-- Flit bytes through the scrambler, or the descrambler: the history afterwards and the bytes. -/
def scrBytes (desc : Bool) (st : Nat) : List Byte → Nat × List Byte
  | [] => (st, [])
  | b :: r =>
    let q := scrByte desc st b.toNat
    let z := scrBytes desc q.1 r
    (z.1, BitVec.ofNat 8 q.2 :: z.2)

/-- Sends a flit's bytes on a port, scrambled. -/
def State.putFlit (s : State) (p : Nat) (words : List Nat) (bytes : List Byte) : State :=
  let q := scrBytes false (s.mport p).scr bytes
  (s.setMport p { s.mport p with scr := q.1 }).emit ⟨.muralFlit, p, words, q.2⟩

/-- The bytes of a received flit, descrambled, and the port with its history. -/
def State.takeFlit (s : State) (p : Nat) (wire : List Byte) : State × List Byte :=
  let q := scrBytes true (s.mport p).dscr (sub wire 0 64)
  (s.setMport p { s.mport p with dscr := q.1 }, q.2)

/-! ### Sending flits (R349, R353, R355) -/

/-- The 64 bytes of a data flit. -/
def flitBytes (vc seq : Nat) (pay : List Byte) : List Byte :=
  let b := toLe 2 (vc + 8 * seq) ++ sub pay 0 58
  b ++ toLe 4 (crc32c b)

/-- The flits of a packet, each of its own packet alone; the last is filled up with zeros. -/
def pktFlits (k : MPkt) (entry : Option Nat) : List TxFlit :=
  let n := (k.bytes.length + 57) / 58
  (List.range n).map (fun i =>
    ⟨vcOf (phType k.bytes), sub k.bytes (58 * i) 58, entry, if i + 1 = n then some k else none⟩)

/-- A packet held receive buffers of a port: they are emptied, and the count of freed buffers rises. -/
def State.mRelease (s : State) (k : MPkt) : State :=
  match k.inPort with
  | none => s
  | some p =>
    let x := s.mport p
    let vc := vcOf (phType k.bytes)
    (s.move (pgPORT p) 1 .held .transit k.flits).setMport p
      { x with freed := smSet 0 x.freed vc ((smGet 0 x.freed vc + k.flits) % 65536) }

/-- A looked-up packet leaves the module, or is dropped in it: its epoch counts one fewer. -/
def State.epochLeave (s : State) (k : MPkt) : State :=
  if k.route.isNone then s
  else
    let f := if k.epoch = s.fld pgRT f_MUR_RT_STATUS_EPOCH then f_MUR_RT_INFLIGHT_CUR else f_MUR_RT_INFLIGHT_OLD
    s.setFld pgRT f (s.fld pgRT f - 1)

/-- Sends one flit of a port's queue. -/
def State.sendFlit (s : State) (p : Nat) (f : TxFlit) : State :=
  let x := s.mport p
  let s1 := (s.setMport p { x with txSeq := (x.txSeq + 1) % 8192, sent := x.sent ++ [⟨x.txSeq, f, s.time, 0⟩],
                                   credit := smSet 0 x.credit f.vc (smGet 0 x.credit f.vc - 1) }).putFlit p [0]
    (flitBytes f.vc x.txSeq f.pay)
  let s2 := (s1.move (pgPORT p) 0 .free .transit 1).move (pgPORT p) 2 .free .held 1
  match f.last with
  | some k => (s2.epochLeave k).mRelease k
  | none => s2

/-- Sends what a port's queue and credits allow: a VC without a credit holds its own flits only. -/
def State.pumpGo (s : State) (p : Nat) (blocked : List Nat) : List TxFlit → State × List TxFlit
  | [] => (s, [])
  | f :: r =>
    let x := s.mport p
    if blocked.contains f.vc ∨ smGet 0 x.credit f.vc = 0 ∨ 4096 ≤ x.sent.length then
      let q := s.pumpGo p (f.vc :: blocked) r
      (q.1, f :: q.2)
    else (s.sendFlit p f).pumpGo p blocked r

def State.pump (s : State) (p : Nat) : State :=
  if s.link p ≠ lkUP then s
  else
    let q := s.pumpGo p [] (s.mport p).queue
    q.1.setMport p { q.1.mport p with queue := q.2 }

/-- The 64 bytes of a control flit, by what it carries. -/
def controlBytes (words : List Nat) : List Byte :=
  let b := toLe 2 4 ++ (List.range 58).map (fun i => Config.controlPay words i)
  b ++ toLe 4 (crc32c b)

/-- Sends a control flit (R352): ACK and its VALID bit, NAK and its VALID bit, the freed counts, and whether it parks the link. -/
def State.controlFlit (s : State) (p : Nat) (nak park : Bool) : State :=
  let x := s.mport p
  let words := [1, if x.rxAny then 1 else 0, (x.rxSeq + 8191) % 8192, if nak then 1 else 0, x.rxSeq, smGet 0 x.freed 0,
    smGet 0 x.freed 1, smGet 0 x.freed 2, if park then 1 else 0]
  (s.putFlit p words (controlBytes words)).move (pgPORT p) 1 .transit .free (s.ledger (pgPORT p) 1).transit

/-! ### A port going DOWN (R357) -/

/-- Fails one tracked request: its part ends with a status, and its entry is freed and counted as reclaimed. -/
def State.reqFail (s : State) (entry status detail : Nat) : State :=
  match smFind s.mur.reqs entry with
  | none => s
  | some q =>
    let s1 : State := { s with mur := { s.mur with reqs := smDel s.mur.reqs entry, gens := smSet 0 s.mur.gens entry ((q.gen + 1) % 8) } }
    let s2 := s1.reclaim pgMUR 0 .held 1
    match s2.mop q.tag with
    | some o => s2.setMop q.tag { o with out := o.out - 1, fail := if o.fail.isNone then some (status, detail) else o.fail }
    | none => s2

/-- The entries of the module's own requests among flits, each once. -/
def entriesIn (fs : List TxFlit) : List Nat := (fs.filterMap (fun f => f.entry)).foldl (fun l e => if l.contains e then l else l ++ [e]) []

/-- Ends the operations of failed requests whose parts have all ended. -/
def State.mSweep (s : State) : State :=
  s.mur.ops.foldl (fun (a : State) e =>
    match a.mop e.1 with
    | some o =>
      (match o.fail with
      | some (st, d) => if o.out = 0 then ({ a with mur := { a.mur with ops := smDel a.mur.ops e.1 } }).opEnd e.1 st d 0 else a
      | none => a)
    | none => a) s

/-- Takes a port DOWN (R357 steps 1 and 2); the link-down timeout runs. A power target it was draining for is held until the timeout ends. -/
def State.portDown (s : State) (p : Nat) : State :=
  let pg := pgPORT p
  let x := s.mport p
  let lost := x.queue ++ x.sent.map (fun f => f.flit)
  let s1 := (entriesIn lost).foldl (fun (a : State) e => a.reqFail e scLINK p) s
  let s2 := (x.queue.filterMap (fun f => f.last)).foldl (fun (a : State) k => (a.epochLeave k).mRelease k) s1
  let s3 := ((s2.reclaim pg 2 .held 4096).reclaim pg 2 .transit 4096)
  let partial' := x.partN.foldl (fun n e => n + e.2) 0
  let s4 := ((s3.reclaim pg 1 .held partial').reclaim pg 1 .transit 4096)
  let s5 := s4.setMport p { s4.mport p with queue := [], sent := [], part := [], partN := [], nak := false, credit := [], seen := [],
                                            lock := 0, count := 0, cand := [], gate := [], downWait := true, trans := none,
                                            heldTarget := x.heldTarget.or x.trans }
  (((((s5.setFld pg f_MUR_PORT_STATUS_TRANSITION 0).setLink p lkDOWN).countUp pg r_MUR_PORT_CNT_DOWN 1).event pg ev_murPort_LINK_DOWN)).mSweep

/-- Step 4: credits held for the peer's buffers return to free as reclaimed. -/
def State.creditsBack (s : State) (p : Nat) : State :=
  ((s.reclaim (pgPORT p) 0 .held 4096).reclaim (pgPORT p) 0 .transit 4096)

/-! ### Port power states (R356) -/

/-- Begins a supply change. -/
def State.portGo (s : State) (p target : Nat) : State :=
  (s.setFld (pgPORT p) f_MUR_PORT_STATUS_TRANSITION 1).setMport p { s.mport p with trans := some target }

/-- Acts on a target: it is held during a supply change and during the link-down timeout. -/
def State.portAim (s : State) (p target : Nat) : State :=
  let x := s.mport p
  if x.trans.isSome ∨ x.downWait then s.setMport p { x with heldTarget := some target }
  else if s.fld (pgPORT p) f_MUR_PORT_STATUS_POWER = target then s
  else s.portGo p target

/-- The port's page enters RUNNING: ENABLE starts training when POWER is ACTIVE (R373). -/
def State.portStart (s : State) (p : Nat) : State := s.portAim p (s.fld (pgPORT p) f_MUR_PORT_CTRL_POWER)

/-- Taking the page out of service drains it as ACTIVE to OFF. -/
def State.portStop (s : State) (p : Nat) : State := s.portAim p 2

/-- A write of MUR_PORT_CTRL: SPARE_AUTO is checked, DRAIN and POWER are live. -/
def State.portCtrl (s : State) (p : Nat) (v : Word) : State :=
  let pg := pgPORT p
  let s0 := s.noteRsv pg r_MUR_PORT_CTRL v
  let auto := fldGet v f_MUR_PORT_CTRL_SPARE_AUTO
  let s1 := if s0.checkedOpen pg then s0.setFld pg f_MUR_PORT_CTRL_SPARE_AUTO auto
    else if s0.fld pg f_MUR_PORT_CTRL_SPARE_AUTO = auto then s0 else s0.discard pg
  let s2 := s1.setFld pg f_MUR_PORT_CTRL_DRAIN (fldGet v f_MUR_PORT_CTRL_DRAIN)
  let t := fldGet v f_MUR_PORT_CTRL_POWER
  if t = 3 then s2.discard pg
  else
    let s3 := s2.setFld pg f_MUR_PORT_CTRL_POWER t
    if s3.running pg then s3.portAim p t else s3

/-- PORT_POWER_WRITE (R356). -/
def execPortPowerWrite (port : Fin 8) (v : Word) (s : State) : Host.Outcome State Fault Refusal :=
  .next (s.via 0 (fun a => a.portCtrl port.val v))

/-- A port starts afresh when its link comes UP: credits are granted from zero. -/
def State.portFresh (s : State) (p : Nat) : State :=
  let pg := pgPORT p
  let x := s.mport p
  let kept := fun (vc : Nat) => ((s.mur.arrived ++ s.mur.inbox).filter (fun k => k.inPort == some p && vcOf (phType k.bytes) == vc)).foldl
    (fun n k => n + k.flits) 0
  let give := fun (vc : Nat) (f : Fld) => (vc, s.fld pg f * 16 - kept vc)
  let s1 := s.setMport p { x with rxSeq := 0, rxAny := false, nak := false, part := [], partN := [], txSeq := 0, seen := [], credit := [],
                                  freed := [give 0 f_MUR_PORT_VC_VC0, give 1 f_MUR_PORT_VC_VC1, give 2 f_MUR_PORT_VC_VC2] }
  ((s1.move pg 0 .free .transit 4096).move pg 0 .held .transit 4096)

/-- POWER_DONE (R356): a supply change ends, once the port it takes out of service has drained; a loss of signal that lasts then takes the
port DOWN (R357). -/
def State.powerDone (s : State) (p : Nat) : State :=
  let pg := pgPORT p
  let x := s.mport p
  match x.trans with
  | none => s
  | some t =>
    if t ≠ 0 ∧ s.link p = lkUP ∧ (x.queue ≠ [] ∨ x.sent ≠ []) then s
    else
      let s1 := if t ≠ 0 ∧ s.link p = lkUP then s.controlFlit p false true else s
      let s2 := s1.setMport p { s1.mport p with trans := none }
      let s3 := (s2.setFld pg f_MUR_PORT_STATUS_TRANSITION 0).setFld pg f_MUR_PORT_STATUS_POWER t
      let s4 := if t = 0 then s3.setLink p lkTRAINING
        else if t = 1 then s3.setLink p lkPARKED
        else if s3.link p = lkDOWN then s3
        else ((s3.setLink p lkDOWN).countUp pg r_MUR_PORT_CNT_DOWN 1).event pg ev_murPort_LINK_DOWN
      let s5 := s4.event pg ev_murPort_POWER_DONE
      let s6 := if s5.fld pg f_MUR_PORT_STATUS_LOS = 1 ∧ t ≠ 2 then s5.portDown p else s5
      match (s6.mport p).heldTarget with
      | some h => (s6.setMport p { s6.mport p with heldTarget := none }).portAim p h
      | none => s6

/-- POWER_DONE. -/
def execPowerDone (port : Fin 8) (now : DWord) (s : State) : Host.Outcome State Fault Refusal :=
  .next ((s.at now.toNat).powerDone port.val)

/-- LINK_UP (R356): training ends; the peer's module ID, port, stepping code and serial number are shown, and whether the port trained on
four lanes. The serial number has no register. -/
def execMuralLinkUp (port : Fin 8) (peer : BitVec 12) (peerPort : Fin 8) (stepping : BitVec 16) (x4 : Bool) (rtt : BitVec 16) (now : DWord)
    (s : State) : Host.Outcome State Fault Refusal :=
  let p := port.val
  let pg := pgPORT p
  .next (if s.link p ≠ lkTRAINING ∨ (s.mport p).trans.isSome then s
    else
      let s1 := (((s.at now.toNat).portFresh p).setLink p lkUP).setWord pg r_MUR_PORT_PEER
        (BitVec.ofNat 32 (stepping.toNat * 65536 + 32768 + peerPort.val * 4096 + peer.toNat))
      let s2 := ((s1.setFld pg f_MUR_PORT_STATUS_X4 (if x4 then 1 else 0)).setFld pg f_MUR_PORT_STATUS_LOS 0).setFld pg f_MUR_PORT_RTT_NS rtt.toNat
      s2.event pg ev_murPort_LINK_UP)

/-- LINK_DOWN (R357): a loss of signal on every lane, or a loss of lock that lasts. During a supply change a loss of signal only shows. -/
def execMuralLinkDown (port : Fin 8) (los : Bool) (now : DWord) (s : State) : Host.Outcome State Fault Refusal :=
  let p := port.val
  let s0 := s.at now.toNat
  let s1 := if los then s0.setFld (pgPORT p) f_MUR_PORT_STATUS_LOS 1 else s0
  .next (if (s.mport p).trans.isSome ∨ s.link p = lkDOWN ∨ (!los ∧ (s.link p ≠ lkUP ∨ (s.mport p).lock = 2)) then s1 else s1.portDown p)

/-- LINK_DOWN_TIMEOUT (R357 step 4). -/
def execLinkDownTimeout (port : Fin 8) (now : DWord) (s : State) : Host.Outcome State Fault Refusal :=
  let p := port.val
  let x := s.mport p
  .next (if !x.downWait then s
    else
      let s1 := ((s.at now.toNat).setMport p { x with downWait := false, heldTarget := none }).creditsBack p
      let t := x.heldTarget.getD (s.fld (pgPORT p) f_MUR_PORT_STATUS_POWER)
      if t = s.fld (pgPORT p) f_MUR_PORT_STATUS_POWER then
        (if t = 0 then s1.setLink p lkTRAINING else s1)
      else s1.portGo p t)

/-! ### Lanes (R354) -/

/-- The spare lane of a port takes a lane's place (R354). -/
def State.laneSwap (s : State) (p lane : Nat) : State :=
  let pg := pgPORT p
  let s1 := (s.setFld pg f_MUR_PORT_STATUS_SPARE_USED 1).setFld pg f_MUR_PORT_STATUS_FAILED_LANE lane
  let s2 := (s1.report pg 2 lane 0 false).event pg ev_murPort_LANE_SWAPPED
  s2.journal (s2.mkRec spLANE 0 false pg 0 0 0 0 [p, lane])

/-- LANE_SWAPPED: the spare takes a failing lane's place; a second failing lane takes the port DOWN. -/
def execLaneSwapped (port : Fin 8) (lane : Fin 9) (now : DWord) (s : State) : Host.Outcome State Fault Refusal :=
  let p := port.val
  let pg := pgPORT p
  .next (if s.link p ≠ lkUP then s
    else
      let s0 := s.at now.toNat
      if s0.fld pg f_MUR_PORT_STATUS_SPARE_USED = 1 then s0.portDown p
      else if s0.fld pg f_MUR_PORT_CTRL_SPARE_AUTO = 0 then s0
      else
        s0.laneSwap p lane.val)

/-! ### Delivery (R352) -/

/-- Requests a replay from the expected SEQ, once. -/
def State.nakOnce (s : State) (p : Nat) : State :=
  let x := s.mport p
  if x.nak then s else (s.setMport p { x with nak := true }).controlFlit p true false

/-- Delivers a data flit's payload: a packet whose bytes are complete arrives. -/
def State.deliverFlit (s : State) (p vc : Nat) (pay : List Byte) : State :=
  let x := s.mport p
  let acc := smGet [] x.part vc ++ pay
  let n := smGet 0 x.partN vc + 1
  let y := { x with rxSeq := (x.rxSeq + 1) % 8192, rxAny := true, nak := false }
  let s1 := s.move (pgPORT p) 1 .free .held 1
  if packetLen acc ≤ acc.length then
    let s2 := s1.setMport p { y with part := smDel y.part vc, partN := smDel y.partN vc }
    { s2 with mur := { s2.mur with arrived := s2.mur.arrived ++ [⟨acc.take (packetLen acc), some p, n, none, 0⟩] } }
  else s1.setMport p { y with part := smPut y.part vc acc, partN := smPut y.partN vc n }

/-- A flit that fails its CRC, or a data flit on VC3, is discarded: it is counted, and a replay is requested (R352, R355). -/
def State.crcFail (s : State) (p : Nat) : State :=
  let pg := pgPORT p
  let s1 := (s.countUp pg r_MUR_PORT_CNT_CRC 1).nakOnce p
  if s1.fld pg f_MUR_PORT_TEST_RUN = 1 then s1.countUp pg r_MUR_PORT_TEST_ERRORS 1 else s1

/-- Does a flit's CRC fit its bytes 0 to 59? -/
def crcOk (b : List Byte) : Bool := crc32c (b.take 60) == leAt b 60 4

/-- Takes a data flit: the one expected is delivered, one ahead is discarded with a NAK, one already delivered is counted (R352). -/
def State.dataTake (s : State) (p : Nat) (b : List Byte) : State :=
  let x := s.mport p
  let vc := leAt b 0 2 % 4
  let seq := leAt b 0 2 / 8
  if !crcOk b ∨ (vc = 3 ∧ bits (leAt b 0 2) 2 2 = 0) then s.crcFail p
  else if bits (leAt b 0 2) 2 2 = 1 then s
  else if seq = x.rxSeq then (if x.nak then s.report (pgPORT p) 1 0 0 false else s).deliverFlit p vc (sub b 2 58)
  else if (seq + 8192 - x.rxSeq) % 8192 < 4096 then s.nakOnce p
  else s.countUp (pgPORT p) r_MUR_PORT_CNT_DUP 1

/-- NAK_REPEAT (R352): no replay has begun within 2 µs of the NAK. -/
def execNakRepeat (port : Fin 8) (now : DWord) (s : State) : Host.Outcome State Fault Refusal :=
  .next (if s.link port.val = lkUP ∧ (s.mport port.val).nak then (s.at now.toNat).controlFlit port.val true false else s)

/-- CONTROL_FLIT_SEND (R352). -/
def execControlFlitSend (port : Fin 8) (now : DWord) (s : State) : Host.Outcome State Fault Refusal :=
  .next (if s.link port.val = lkUP then (s.at now.toNat).controlFlit port.val (s.mport port.val).nak false else s)

/-! ### Replay (R353) -/

/-- Resends the replay buffer from a flit on. A flit that has used its budget raises LINK_UE and takes the port DOWN. -/
def State.resend (s : State) (p : Nat) (keep again : List SentFlit) : State :=
  let pg := pgPORT p
  match again with
  | [] => s
  | h :: _ =>
    if 16 ≤ h.replays ∨ h.first + 40000 < s.time then (s.report pg 3 0 0 false).portDown p
    else
      let s1 := s.countUp pg r_MUR_PORT_CNT_REPLAY 1
      let s2 := s1.setMport p { s1.mport p with sent := keep ++ again.map (fun f => { f with replays := f.replays + 1 }) }
      again.foldl (fun (a : State) f =>
        ((a.move pg 2 .held .transit 1).putFlit p [0] (flitBytes f.flit.vc f.seq f.flit.pay)).move pg 2 .transit .held 1) s2

/-- REPLAY_TIMEOUT (R353): no ACK has covered the oldest flit within 2 µs. -/
def execReplayTimeout (port : Fin 8) (now : DWord) (s : State) : Host.Outcome State Fault Refusal :=
  .next (if s.link port.val = lkUP then (s.at now.toNat).resend port.val [] (s.mport port.val).sent else s)

/-- Is a SEQ at or before another, within the window of unacknowledged flits? -/
def seqUpTo (a b : Nat) : Bool := (b + 8192 - a) % 8192 < 4096

/-- Takes the peer's cumulative count of a VC: new credits. -/
def State.takeCredits (s : State) (p vc count : Nat) : State :=
  let x := s.mport p
  let d := (count + 65536 - smGet 0 x.seen vc) % 65536
  let s1 := s.setMport p { x with seen := smSet 0 x.seen vc count, credit := smSet 0 x.credit vc (smGet 0 x.credit vc + d) }
  let h := min d (s1.ledger (pgPORT p) 0).held
  (s1.move (pgPORT p) 0 .held .free h).move (pgPORT p) 0 .transit .free (d - h)

/-- Takes a control flit (R352): what its ACK covers leaves the replay buffer, its counts return credits, its NAK starts a replay. -/
def State.controlTake (s : State) (p : Nat) (b : List Byte) (c : CtlFlit) : State :=
  let pg := pgPORT p
  if !crcOk b then s.crcFail p
  else
    let x := s.mport p
    let rest := match c.ack with | some a => x.sent.filter (fun f => !seqUpTo f.seq a) | none => x.sent
    let n := x.sent.length - rest.length
    let s1 := ((s.setMport p { x with sent := rest }).move pg 2 .held .free n).move pg 0 .transit .held n
    let s2 := ((s1.takeCredits p 0 (c.counts.getD 0 0)).takeCredits p 1 (c.counts.getD 1 0)).takeCredits p 2 (c.counts.getD 2 0)
    let s3 := match c.nak with
      | some k => s2.resend p ((s2.mport p).sent.filter (fun f => !seqUpTo k f.seq)) ((s2.mport p).sent.filter (fun f => seqUpTo k f.seq))
      | none => s2
    s3.pump p

/-- Takes a received flit. -/
def State.takeRx (s : State) (p : Nat) : RxFlit → State
  | .data b => s.dataTake p b
  | .control b c => s.controlTake p b c

/-- A flit from the line: descrambled, and taken where the port is locked; in the CRC gate it is kept until the gate passes (R351). -/
def State.rxFlit (s : State) (p : Nat) (wire : List Byte) (f : List Byte → RxFlit) : State :=
  if s.link p ≠ lkUP ∨ (s.mport p).lock = 0 then s
  else
    let q := s.takeFlit p wire
    if (s.mport p).lock = 1 then q.1.setMport p { q.1.mport p with gate := (q.1.mport p).gate ++ [f q.2] }
    else q.1.takeRx p (f q.2)

/-- DATA_FLIT_RECEIVE (R352): the 64 bytes of a data flit as the line gives them. -/
def execDataFlitReceive (port : Fin 8) (flit : List Byte) (now : DWord) (s : State) : Host.Outcome State Fault Refusal :=
  .next ((s.at now.toNat).rxFlit port.val flit .data)

/-- CONTROL_FLIT_RECEIVE (R352): a control flit's 64 bytes as the line gives them, with the ACK and NAK, each with its VALID bit, and the counts of
VC0 to VC2 that its payload carries (in a layout the spec does not give; log entry 41). -/
def execControlFlitReceive (port : Fin 8) (wire : List Byte) (ackV : Bool) (ack : BitVec 13) (nakV : Bool) (nak : BitVec 13) (c0 c1 c2 : BitVec 16)
    (now : DWord) (s : State) : Host.Outcome State Fault Refusal :=
  let c : CtlFlit := ⟨if ackV then some ack.toNat else none, if nakV then some nak.toNat else none, [c0.toNat, c1.toNat, c2.toNat]⟩
  .next ((s.at now.toNat).rxFlit port.val wire (fun b => .control b c))

/-! ### Frames and lock (R351) -/

/-- The hunt tests one offset of a frame: eight frames in a row with the sync word there lock the port on it. -/
def MPort.hunt (x : MPort) (off : Nat) (hit : Bool) : MPort :=
  let n := if hit then smGet 0 x.cand off + 1 else 0
  if n = 8 then { x with lock := 1, off := off, count := 0, cand := [], gate := [] } else { x with cand := smSet 0 x.cand off n }

/-- The CRC gate passes: the port is locked, and the flits of its frames are taken. -/
def State.gatePass (s : State) (p : Nat) (x : MPort) : State :=
  x.gate.foldl (fun (a : State) f => a.takeRx p f) (s.setMport p { x with lock := 2, count := 0, gate := [] })

/-- MURAL_FRAME_RECEIVE, at the end of a frame: its sync word as read at a 64-bit offset of the stream, whether all 32 of its flits pass their CRC,
the FEC symbols corrected in it, and its last 58 flit bits, which the descrambler of a port that is not yet locked keeps (R350). -/
def execMuralFrameReceive (port : Fin 8) (off : Fin 257) (sync : DWord) (flitsOk : Bool) (fec : BitVec 16) (tail : BitVec 58) (s : State) :
    Host.Outcome State Fault Refusal :=
  let p := port.val
  let pg := pgPORT p
  let x : MPort := { s.mport p with dscr := if (s.mport p).lock = 2 then (s.mport p).dscr else tail.toNat }
  let hit := sync == 0x7A12C6E531B94D8F#64
  let s0 := s.countUp pg r_MUR_PORT_FEC_CE fec.toNat
  let again : MPort := { x with lock := 0, count := 0, cand := [], gate := [] }
  .next (if s.link p = lkDOWN ∨ s.link p = lkPARKED then s
    else if x.lock = 0 then s0.setMport p (x.hunt off.val hit)
    else if off.val ≠ x.off then s0
    else if x.lock = 1 then
      (if !flitsOk then ((s0.setMport p again).countUp pg r_MUR_PORT_CNT_RELOCK 1).report pg 4 0 0 false
       else if x.count = 3 then s0.gatePass p x
       else s0.setMport p { x with count := x.count + 1 })
    else if hit then s0.setMport p { x with count := 0 }
    else if x.count = 3 then (s0.setMport p again).countUp pg r_MUR_PORT_CNT_RELOCK 1
    else s0.setMport p { x with count := x.count + 1 })

/-- ROUTE_STALL (R355): a VC has held flits without a credit for 1 ms. -/
def execRouteStall (port : Fin 8) (vc : Fin 3) (s : State) : Host.Outcome State Fault Refusal :=
  let x := s.mport port.val
  .next (if x.queue.any (fun f => f.vc == vc.val) && smGet 0 x.credit vc.val == 0 then s.event pgMUR ev_mur0_ROUTE_STALL else s)

/-! ### Port tests (R373) -/

/-- A write of MUR_PORT_TEST. -/
def State.portTest (s : State) (p : Nat) (v : Word) : State :=
  let pg := pgPORT p
  let s0 := (s.noteRsv pg r_MUR_PORT_TEST v).setFld pg f_MUR_PORT_TEST_SECONDS (v.toNat / 65536)
  if !bitOf v 0 then s0.setFld pg f_MUR_PORT_TEST_RUN 0
  else if s0.link p ≠ lkUP ∨ s0.fld pg f_MUR_PORT_CTRL_DRAIN = 0 then s0.discard pg
  else (((s0.setFld pg f_MUR_PORT_TEST_RUN 1).setFld pg f_MUR_PORT_TEST_DONE 0).setFld pg f_MUR_PORT_TEST_PASS 0).setWord pg r_MUR_PORT_TEST_ERRORS 0

/-- PORT_TEST: a write with RUN 1. -/
def execPortTest (port : Fin 8) (v : Word) (s : State) : Host.Outcome State Fault Refusal :=
  .next (s.via 0 (fun a => a.portTest port.val (v ||| 1#32)))

/-- TEST_DONE: the test ends with the number of its flits that failed their CRC. -/
def execTestDone (port : Fin 8) (errors : Word) (s : State) : Host.Outcome State Fault Refusal :=
  let pg := pgPORT port.val
  .next (if s.fld pg f_MUR_PORT_TEST_RUN = 0 then s
    else
      let s1 := (s.setFld pg f_MUR_PORT_TEST_RUN 0).setFld pg f_MUR_PORT_TEST_DONE 1
      ((s1.setWord pg r_MUR_PORT_TEST_ERRORS errors).setFld pg f_MUR_PORT_TEST_PASS (if errors = 0#32 then 1 else 0)).event pg ev_murPort_TEST_DONE)

end Sys2Proof.Machine
end

