-- ==== Sys2Proof/Machine/Mural.lean ====
section
/-! DEFINITION. The Mural fabric above its links (14): packets, jobs and Mural addresses, requests and responses, routing and route epochs, and the erasure engine (R358 to R375). -/

namespace Sys2Proof.Machine

open Sys2Proof

/-! ### Statuses (R370) -/

def scMAUTH : Nat := 0x70
def scJOB : Nat := 0x71
def scMEMBER : Nat := 0x72
def scREMOTE : Nat := 0x73
def scECINC : Nat := 0x74
def scNOROUTE : Nat := 0x75

/-- STATUS of a response. -/
def mrsOK : Nat := 0
def mrsAUTH : Nat := 1
def mrsJOB : Nat := 2
def mrsMEMBER : Nat := 3
def mrsFAULT : Nat := 4
def mrsSTALE : Nat := 5

/-! ### Job slots (R359, R360, R366, R375) -/

def State.jobG (s : State) (j : Nat) : Nat := s.fld (hmJOB j) f_MUR_JOB_CFG_MEMBERS
def State.jobMe (s : State) (j : Nat) : Nat := s.fld (hmJOB j) f_MUR_JOB_CFG_MY_INDEX
def State.jobTenant (s : State) (j : Nat) : Nat := s.fld (hmJOB j) f_MUR_JOB_CFG_TENANT
def State.jobId (s : State) (j : Nat) : Nat := s.fld (hmJOB j) f_MUR_JOB_ID_ID
def State.jobWin (s : State) (j : Nat) : Nat := s.fld (hmJOB j) f_MUR_JOB_WIN_LO_BASE * 2 ^ 21 + s.fld (hmJOB j) f_MUR_JOB_WIN_HI_BASE * 2 ^ 32
def State.jobSize (s : State) (j : Nat) : Nat := s.fld (hmJOB j) f_MUR_JOB_WIN_SIZE_UNITS * 2 ^ 21
def State.jobUnits (s : State) (j : Nat) : Nat := s.fld (hmJOB j) f_MUR_JOB_CHUNK_UNITS
def State.jobShard (s : State) (j : Nat) : Nat := (s.word (hmJOB j) r_MUR_JOB_SHARD).toNat * 4096
def State.jobParity (s : State) (j : Nat) : Nat := (s.word (hmJOB j) r_MUR_JOB_PARITY).toNat * 4096

/-- ID and STATE of a member: 0 ADMITTED, 1 JOINING, 2 LOST. -/
def State.memberId (s : State) (j k : Nat) : Nat := smGet 0 (s.mjob j).members k % 4096
def State.memberState (s : State) (j k : Nat) : Nat := smGet 0 (s.mjob j).members k / 4096

/-- The member with a module ID. -/
def State.memberOf (s : State) (j id : Nat) : Option Nat := (List.range (s.jobG j)).find? (fun k => s.memberId j k == id)

/-- The open slot of a JOB_ID. -/
def State.jobSlot (s : State) (id : Nat) : Option Nat := (List.range 64).find? (fun j => (s.mjob j).isOpen && s.jobId j == id)

/-! ### Sealing (R358, R362) -/

/-- The 48 bytes of a header. -/
def muralHdr (dst src typ status job off len req iv poison epoch : Nat) : List Byte :=
  toLe 2 dst ++ toLe 2 src ++ toLe 1 typ ++ toLe 1 status ++ toLe 2 job ++ toLe 8 off ++ toLe 2 len ++ toLe 2 req ++ toLe 12 iv ++
  toLe 8 poison ++ toLe 4 epoch ++ toLe 4 0

/-- The additional authenticated data: header bytes 0 to 19 and 32 to 47. -/
def muralAad (b : List Byte) : List Byte := sub b 0 20 ++ sub b 32 16

/-- Adds a packet of the module's own to those to be looked up. -/
def State.mOut (s : State) (bytes : List Byte) : State :=
  { s with mur := { s.mur with arrived := s.mur.arrived ++ [⟨bytes, none, 0, none, 0⟩] } }

/-- Sends a packet of a job under its key; the transmit counter advances. A response of a slot that holds no key carries a tag that is not
stated. -/
def State.mSend (s : State) (j dst typ status off len req poison epoch : Nat) (plain : List Byte) : State :=
  let x := s.mjob j
  let src := s.fld pgMUR f_MUR_ID_ID
  let iv := x.ctr + src * 2 ^ 84
  let h := muralHdr dst src typ status (s.jobId j) off len req iv poison epoch
  match x.key with
  | some k => (s.setMjob j { x with ctr := (x.ctr + 1) % 2 ^ 80 }).mOut (h ++ sub (Config.gcmSeal k (toLe 12 iv) (muralAad h) plain) 0 (plain.length + 16))
  | none => { s.mOut (h ++ s.freeBytes (plain.length + 16)) with free := s.free + plain.length + 16 }

/-- A response that no job of this module seals (a JOB refusal, a forwarded request that found no port): its tag is not stated. -/
def State.mBare (s : State) (req : List Byte) (status : Nat) : State :=
  let typ := if phType req = 0 then 3 else if phType req = 1 then 2 else if phType req = 4 then 5 else 7
  let h := muralHdr (phSrc req) (s.fld pgMUR f_MUR_ID_ID) typ status (phJob req) (phOff req) 0 (phReq req) 0 0 (phEpoch req)
  { s.mOut (h ++ s.freeBytes 16) with free := s.free + 16 }

/-- What checking a received packet finds: a counter rejected, a tag that fails, or the plain payload. -/
inductive Opened where
  | replayed
  | badTag
  | ok (plain : List Byte)
  deriving DecidableEq, Repr

/-- Opens a packet under a job's key: the anti-replay window for its source, then the tag (R362). -/
def State.mOpen (s : State) (j : Nat) (b : List Byte) : State × Opened :=
  let x := s.mjob j
  let c := phIv b % 2 ^ 80
  let seen := smGet [] x.acc (phSrc b)
  let hi := seen.foldl max 0
  if seen ≠ [] ∧ (c + 1024 ≤ hi ∨ seen.contains c) then (s.countUp pgMUR r_MUR_CNT_E2E_REPLAY 1, .replayed)
  else match x.key.bind (fun k => Config.gcmOpen k (toLe 12 (phIv b)) (muralAad b) (b.drop 48)) with
    | none => ((s.countUp pgMUR r_MUR_CNT_AUTH 1).event pgMUR ev_mur0_AUTH_FAIL, .badTag)
    | some p =>
      let hi2 := max hi c
      (s.setMjob j { x with acc := smSet [] x.acc (phSrc b) ((seen ++ [c]).filter (fun n => decide (hi2 < n + 1024))) }, .ok p)

/-! ### Local memory of packets: lines with their poison (R285, R358) -/

/-- Reads bytes with the mask of poisoned 64-byte lines, those lines as zeros. -/
def State.readLines (s : State) (w : Who) (guest dva : Nat) : Nat → Nat → Except (Nat × Nat) (List Byte × Nat)
  | 0, _ => .ok ([], 0)
  | k + 1, n =>
    let m := min n 64
    match s.readVia w guest (cuts dva m), s.readLines w guest (dva + 64) k (n - m) with
    | .bad d e, _ => .error (d, e)
    | .ok _ _, .error e => .error e
    | .ok b p, .ok (b2, p2) => .ok ((if p then b.map (fun _ => 0) else b) ++ b2, (if p then 1 else 0) + 2 * p2)

/-- Poisons the 64-bit word at a DVA for a request on a port of its bank. -/
def State.poisonVia (s : State) (w : Who) (guest dva : Nat) : State :=
  match s.translate w guest dva true with
  | .ok (.module a) => s.memPoison a
  | .ok (.palette p o) => s.palPoison p o
  | _ => s

/-- Writes bytes whose lines of a mask are poisoned. -/
def State.writeLines (s : State) (w : Who) (guest dva mask : Nat) (bs : List Byte) : State × Option (Nat × Nat) :=
  match s.writeFault w guest (cuts dva bs.length) with
  | some f => (s, some f)
  | none =>
    if s.writesOff w.tenant then (s, none)
    else
      let s1 := s.writeCuts w guest (cuts dva bs.length) bs
      ((List.range ((bs.length + 7) / 8)).foldl (fun (a : State) i =>
        if mask / 2 ^ (i / 8) % 2 = 1 then a.poisonVia w guest (dva + 8 * i) else a) s1, none)

/-! ### Requests (R359, R363) -/

/-- Sends a request of an operation, where a tracking entry is free. -/
def State.mRequest (s : State) (tag j member kind off len poison epoch : Nat) (plain : List Byte) (dva src : Nat) : State :=
  match smFresh s.mur.reqs 0 8192, s.mop tag with
  | some e, some o =>
    let g := smGet 0 s.mur.gens e
    let s1 : State := { s with mur := { s.mur with reqs := smPut s.mur.reqs e ⟨tag, j, member, kind, g, 0, dva, len, src⟩ } }
    let s2 := (s1.setMop tag { o with out := o.out + 1 }).move pgMUR 0 .free .held 1
    s2.mSend j (s2.memberId j member) kind 0 off len (e + g * 8192) poison epoch plain
  | _, _ => s

/-- Marks an operation's first failure; no further piece is sent. -/
def State.mFail (s : State) (tag status detail : Nat) : State :=
  match s.mop tag with
  | some o => if o.fail.isNone then s.setMop tag { o with fail := some (status, detail) } else s
  | none => s

/-- Fields of a Mural address (R359). -/
def maSlot (a : Nat) : Nat := bits a 62 57
def maMember (a : Nat) : Nat := bits a 56 51
def maOff (a : Nat) : Nat := a % 2 ^ 44
def isMural (a : Nat) : Bool := bits a 63 63 == 1

/-- Piece i of a COPY: its local address, its Mural offset and its length. Rows are cut into packets of up to 4,096 bytes. -/
def copyPiece (a : List Byte) (outward : Bool) (i : Nat) : Nat × Nat × Nat :=
  let row := leAt a 0x10 4
  let n := (row + 4095) / 4096
  let r := i / n
  let c := i % n * 4096
  let at' := fun (o st : Nat) => leAt a o 8 + r * leAt a st 8 + c
  let src := at' 0 0x18
  let dst := at' 8 0x20
  (if outward then src else dst, maOff (if outward then dst else src), min 4096 (row - c))

/-! ### GF(2^8) (R366 to R368) -/

/-- Multiplication by g in GF(2^8) with polynomial 0x11D. -/
def gfX (a : Nat) : Nat := if a < 128 then 2 * a else (2 * a) ^^^ 0x11D
/-- Product of two field elements. -/
def gfMul (a : Nat) : Nat → Nat → Nat
  | 0, _ => 0
  | k + 1, b => (if b % 2 = 1 then a else 0) ^^^ gfX (gfMul a k (b / 2))
def gfm (a b : Nat) : Nat := gfMul a 8 b
/-- g^k. -/
def gfPow : Nat → Nat
  | 0 => 1
  | k + 1 => gfX (gfPow k)
/-- g^(−k). -/
def gfNeg (k : Nat) : Nat := gfPow ((255 - k % 255) % 255)
/-- The inverse of a non-zero element, as its 254th power. -/
def gfInv (a : Nat) : Nat := (List.range 253).foldl (fun r _ => gfm r a) a

def xorBytes (a b : List Byte) : List Byte := (List.range a.length).map (fun i => a.getD i 0 ^^^ b.getD i 0)
def mulBytes (k : Nat) (a : List Byte) : List Byte := a.map (fun x => BitVec.ofNat 8 (gfm k x.toNat))

/-- Stripes whose data member i is, of G, in increasing order; chunk c is the c-th. -/
def dataStripes (g i : Nat) : List Nat := (List.range g).filter (fun j => j != i && (j + 1) % g != i)
/-- The chunk of member k that lies in stripe j. -/
def chunkOf (g k j : Nat) : Nat := (dataStripes g k).idxOf j
/-- Data members of stripe j. -/
def dataMembers (g j : Nat) : List Nat := (List.range g).filter (fun k => k != j && k != (j + 1) % g)

/-- Offset in a member's window of parity slot `q` (0 P, 1 Q) of a bank. -/
def State.slotOff (s : State) (j bank q : Nat) : Nat := s.jobParity j + (2 * bank + q) * (4096 + s.jobUnits j * 4096)

/-! ### EC_REBUILD's sources (R368) -/

/-- What the arguments of an EC_REBUILD name: the target, and the other lost member. -/
def rbTarget (a : List Byte) : Nat := bits (leAt a 0xC 4) 5 0
def rbOther (a : List Byte) : Option Nat :=
  let x := bits (leAt a 8 4) 5 0
  let y := bits (leAt a 8 4) 13 8
  if bits (leAt a 8 4) 15 15 = 1 then some (if rbTarget a = x then y else x) else none

/-- How a stripe is rebuilt: 0 by P′, 1 by Q′, 2 by both. -/
def rbMethod (g j : Nat) (other : Option Nat) : Nat :=
  match other with
  | none => 0
  | some y => if y = (j + 1) % g then 0 else if y = j then 1 else 2

/-- Members read for a stripe with their window offsets, for unit u of the chunk; unit none is the parity slots' headers. -/
def State.rbSources (s : State) (slot : Nat) (a : List Byte) (j : Nat) (u : Option Nat) : List (Nat × Nat) :=
  let g := s.jobG slot
  let bank := leAt a 4 4 % 2
  let m := rbMethod g j (rbOther a)
  let ps := (if m ≠ 1 then [(j, s.slotOff slot bank 0)] else []) ++ (if m ≠ 0 then [((j + 1) % g, s.slotOff slot bank 1)] else [])
  match u with
  | none => ps
  | some v =>
    ((dataMembers g j).filter (fun k => k != rbTarget a && some k != rbOther a)).map (fun k =>
      (k, s.jobShard slot + chunkOf g k j * (s.jobUnits slot * 4096) + v * 4096)) ++ ps.map (fun p => (p.1, p.2 + 4096 + v * 4096))

/-- The rebuilt unit d_t from the bytes gathered in the order of `rbSources`. -/
def State.rbUnit (s : State) (slot : Nat) (a : List Byte) (j : Nat) (got : List (List Byte)) : List Byte :=
  let g := s.jobG slot
  let t := rbTarget a
  let ks := (dataMembers g j).filter (fun k => k != t && some k != rbOther a)
  let ds := ks.zip got
  let par := got.drop ks.length
  let p' := fun (i : Nat) => ds.foldl (fun b x => xorBytes b x.2) (par.getD i [])
  let q' := fun (i : Nat) => ds.foldl (fun b x => xorBytes b (mulBytes (gfPow x.1) x.2)) (par.getD i [])
  match rbMethod g j (rbOther a) with
  | 0 => p' 0
  | 1 => mulBytes (gfNeg t) (q' 0)
  | _ =>
    let y := (rbOther a).getD 0
    let gyt := gfm (gfPow y) (gfNeg t)
    let dd := gfInv (gyt ^^^ 1)
    xorBytes (mulBytes (gfm gyt dd) (p' 0)) (mulBytes (gfm (gfNeg t) dd) (q' 1))

/-- Does a parity header show a stripe complete for an epoch? -/
def headerComplete (g j epoch units : Nat) (b : List Byte) : Bool :=
  leAt b 0 4 == epoch && (dataMembers g j).all (fun k => leAt b (8 + 4 * k) 4 == units)

/-! ### Sending the pieces of an operation -/

/-- Puts bytes that a rebuild has read into its unit. -/
def State.rbGot (s : State) (tag src : Nat) (bs : List Byte) : State :=
  match s.mop tag with
  | some o => s.setMop tag { o with gather := smPut o.gather src bs }
  | none => s

/-- Sends or reads one piece. -/
def State.mPiece (s : State) (tag : Nat) (op : Op) (o : MOp) : State :=
  let a := op.args
  let w := op.who tag
  let j := o.slot
  let s0 := s.setMop tag { o with next := o.next + 1 }
  if o.kind = 0 then
    let (dva, off, n) := copyPiece a true o.next
    match s0.readLines w 0 dva 64 n with
    | .error (d, e) => (s0.mmuFault w d e false).mFail tag (faultStatus e) (faultDetail e 0)
    | .ok (bs, mask) =>
      let s1 := if mask = 0 then s0 else s0.setMop tag { o with next := o.next + 1, poison := true }
      s1.mRequest tag j (maMember (leAt a 8 8)) 0 off n mask 0 bs dva 0
  else if o.kind = 1 then
    let (dva, off, n) := copyPiece a false o.next
    s0.mRequest tag j (maMember (leAt a 0 8)) 1 off n 0 0 [] dva 0
  else if o.kind = 2 then
    let g := s.jobG j
    let me := s.jobMe j
    let units := s.jobUnits j
    let c := o.next / (2 * units)
    let u := o.next % (2 * units) / 2
    let q := o.next % 2
    let stripe := (dataStripes g me).getD c 0
    match s0.readLines w 4 (s.jobWin j + s.jobShard j + c * (units * 4096) + u * 4096) 64 4096 with
    | .error (d, e) => (s0.mmuFault w d e false).mFail tag (faultStatus e) (faultDetail e 0)
    | .ok (bs, mask) =>
      let s1 := if mask = 0 then s0 else s0.setMop tag { o with next := o.next + 1, poison := true }
      s1.mRequest tag j (if q = 0 then stripe else (stripe + 1) % g) 6 (u * 4096 + stripe * 2 ^ 32 + q * 2 ^ 40) 4096 mask (leAt a 4 4)
        (if q = 0 then bs else mulBytes (gfPow me) bs) stripe 0
  else
    let g := s.jobG j
    let units := s.jobUnits j
    let stripe := (dataStripes g (rbTarget a)).getD (o.stage / (units + 1)) 0
    let u := o.stage % (units + 1)
    match (s.rbSources j a stripe (if u = 0 then none else some (u - 1)))[o.next]? with
    | none => s
    | some (k, off) =>
      if k = s.jobMe j then
        (match s0.readLines w 4 (s.jobWin j + off) 64 4096 with
        | .error (d, e) => (s0.mmuFault w d e false).mFail tag (faultStatus e) (faultDetail e 0)
        | .ok (bs, mask) => if mask = 0 then s0.rbGot tag o.next bs else s0.mFail tag scPOISON 0)
      else s0.mRequest tag j k 1 off 4096 0 0 [] stripe o.next

/-- How many pieces the operation may send now: for a rebuild, the sources of its unit. -/
def State.mLimit (s : State) (op : Op) (o : MOp) : Nat :=
  if o.kind = 3 then
    let units := s.jobUnits o.slot
    let stripe := (dataStripes (s.jobG o.slot) (rbTarget op.args)).getD (o.stage / (units + 1)) 0
    (s.rbSources o.slot op.args stripe (if o.stage % (units + 1) = 0 then none else some (o.stage % (units + 1) - 1))).length
  else o.total

/-- Sends pieces while tracking entries are free and the operation goes on (R127, R332). -/
def State.mPump (s : State) (tag : Nat) : Nat → State
  | 0 => s
  | n + 1 =>
    match s.mop tag, s.op tag with
    | some o, some op =>
      if o.fail.isSome ∨ op.abandoned ∨ s.writesOff op.tenant ∨ s.mLimit op o ≤ o.next ∨ (smFresh s.mur.reqs 0 8192).isNone then s
      else if (s.mjob o.slot).key.isNone ∨ !(s.mjob o.slot).isOpen then
        s.mFail tag (if (s.mjob o.slot).isOpen then scMAUTH else scJOB)
          (if (s.mjob o.slot).isOpen then (if o.kind = 0 then maMember (leAt op.args 8 8) else if o.kind = 1 then maMember (leAt op.args 0 8)
            else s.jobMe o.slot) else o.slot)
      else (s.mPiece tag op o).mPump tag n
    | _, _ => s

/-- The operation ends. -/
def State.mEnd (s : State) (tag status detail : Nat) : State :=
  ({ s with mur := { s.mur with ops := smDel s.mur.ops tag } }).opEnd tag status detail 0

/-- A rebuild's unit is gathered: its header is checked, or its data rebuilt and written. -/
def State.rbStage (s : State) (tag : Nat) (op : Op) (o : MOp) : State :=
  let a := op.args
  let j := o.slot
  let units := s.jobUnits j
  let g := s.jobG j
  let c := o.stage / (units + 1)
  let u := o.stage % (units + 1)
  let stripe := (dataStripes g (rbTarget a)).getD c 0
  let got := o.gather.map (fun e => e.2)
  let o1 := { o with stage := o.stage + 1, next := 0, gather := [] }
  if u = 0 then
    (if got.all (fun b => headerComplete g stripe (leAt a 4 4) units b) then s.setMop tag o1 else s.mFail tag scECINC stripe)
  else
    let w := op.who tag
    match (s.setMop tag o1).writeLines w 4 (leAt a 0x10 8 + c * (units * 4096) + (u - 1) * 4096) 0 (s.rbUnit j a stripe got) with
    | (s1, some (d, e)) => (s1.mmuFault w d e true).mFail tag scTRANSLATION 0x10
    | (s1, none) => s1

/-- Carries an operation on after a response: further pieces, its SIGNAL (R359), its end. -/
def State.mGo (s : State) (tag : Nat) : Nat → State
  | 0 => s
  | n + 1 =>
    let s1 := s.mPump tag 8192
    match s1.mop tag, s1.op tag with
    | some o, some op =>
      if o.out ≠ 0 then s1
      else match o.fail with
        | some (st, d) => s1.mEnd tag st d
        | none =>
          if op.abandoned ∨ s1.writesOff op.tenant then s1.mEnd tag scTIMEOUT 0
          else if o.kind = 3 ∧ o.stage < o.total ∧ o.next = s1.mLimit op o then (s1.rbStage tag op o).mGo tag n
          else if o.kind ≠ 3 ∧ o.next < o.total then s1
          else if o.kind = 0 ∧ o.signal = 0 then
            (if !(s1.mjob o.slot).isOpen then s1.mEnd tag scJOB o.slot
             else if (s1.mjob o.slot).key.isNone then s1.mEnd tag scMAUTH (maMember (leAt op.args 8 8))
             else if (smFresh s1.mur.reqs 0 8192).isNone then s1
             else (s1.setMop tag { o with signal := 1 }).mRequest tag o.slot (maMember (leAt op.args 8 8)) 4 0 0 0 0 [] 0 0)
          else s1.mEnd tag (if o.poison then scPOISON else scOK) 0
    | _, _ => s1

/-- Starts a Mural operation. -/
def State.mStart (s : State) (tag : Nat) (o : Op) (a : List Byte) (kind slot total : Nat) : State :=
  ((s.setOp tag { o with args := a, parts := 1 }).setMop tag ⟨kind, slot, 0, total, 0, false, none, 0, 0, []⟩).mGo tag 16

/-! ### COPY, EC_ENCODE, EC_REBUILD -/

/-- The rules of R359 for the Mural addresses of a COPY: the offset of the one at fault. -/
def muralArgFault (a : List Byte) : Option Nat :=
  let src := leAt a 0 8
  let dst := leAt a 8 8
  let rsv := fun (x : Nat) => bits x 50 44 != 0
  if isMural src && isMural dst then some 8
  else if isMural src && rsv src then some 0
  else if isMural dst && rsv dst then some 8 else none

/-- A COPY to or from a remote member (R359). -/
def State.copyMural (s : State) (tag : Nat) (o : Op) (a : List Byte) : State :=
  let outward := isMural (leAt a 8 8)
  let m := if outward then leAt a 8 8 else leAt a 0 8
  let j := maSlot m
  let k := maMember m
  if !(s.mjob j).isOpen ∨ s.jobTenant j ≠ o.tenant then s.opEnd tag scJOB j 0
  else if s.jobG j ≤ k then s.opEnd tag scARG (if outward then 8 else 0) 0
  else if s.memberState j k = 2 then s.opEnd tag scMEMBER k 0
  else (s.useWindow tag (leAt a (if outward then 0 else 8) 8)).mStart tag
    { o with windowed := o.windowed || s.inWindow o.tenant (leAt a (if outward then 0 else 8) 8) } a (if outward then 0 else 1) j
    (leAt a 0x14 4 * ((leAt a 0x10 4 + 4095) / 4096))

/-- COPY (R122, R359). -/
def execOpCopy (tag : Fin 8192) (now : DWord) (s : State) : Host.Outcome State Fault Refusal :=
  .next (match s.op tag.val with
    | none => s
    | some o0 =>
      let mural := match s.readDva (o0.who tag.val) o0.d.arg 16 with
        | .ok b false => isMural (leAt b 0 8) || isMural (leAt b 8 8)
        | _ => false
      let held := match s.readDva (o0.who tag.val) o0.d.arg 64 with
        | .ok b false => !isMural (leAt b 0 8) && !s.mem.repairs.isEmpty && (List.range (leAt b 0x14 4)).any (fun r =>
            s.readHeld (o0.who tag.val) (leAt b 0 8 + r * leAt b 0x18 8) (leAt b 0x10 4))
        | _ => false
      if (mural && !s.running pgMUR) || held then s
      else s.issue tag.val 2 now.toNat (fun s1 o => s1.withArg tag.val o 64 (fun a =>
        match muralArgFault a with
        | some d => s1.opEnd tag.val scARG d 0
        | none =>
          match copyArgFault a with
          | some d => s1.opEnd tag.val scARG d 0
          | none => if mural then s1.copyMural tag.val o a else s1.copyLocal tag.val o a)))

/-- Tests that EC_ENCODE and EC_REBUILD share; then the operation's own. -/
def State.ecStart (s : State) (tag : Nat) (o : Op) (a : List Byte) (f : Nat → State) : State :=
  let j := leAt a 0 4
  if 64 ≤ j then s.opEnd tag scARG 0 0
  else if !(s.mjob j).isOpen ∨ s.jobTenant j ≠ o.tenant then s.opEnd tag scJOB j 0
  else if s.jobG j < 4 then s.opEnd tag scARG 0 0
  else f j

/-- The first member among some that is LOST. -/
def State.lostAmong (s : State) (j : Nat) (ks : List Nat) : Option Nat := ks.find? (fun k => s.memberState j k == 2)

/-- EC_ENCODE (R367). -/
def execEcEncode (tag : Fin 8192) (now : DWord) (s : State) : Host.Outcome State Fault Refusal :=
  .next (if !s.running pgMUR then s else s.issue tag.val 0xC now.toNat (fun s1 o => s1.withArg tag.val o 64 (fun a =>
    match rsvByte a [(8, 56)] with
    | some d => s1.opEnd tag.val scARG d 0
    | none => s1.ecStart tag.val o a (fun j =>
      let x := s1.mjob j
      let g := s1.jobG j
      if x.epoch.any (fun e => decide (serial (leAt a 4 4) e ≤ 0)) then s1.opEnd tag.val scARG 4 0
      else match s1.lostAmong j ((List.range g).filter (fun k => k != s1.jobMe j)) with
        | some k => s1.opEnd tag.val scMEMBER k 0
        | none => (s1.setMjob j { x with epoch := some (leAt a 4 4) }).mStart tag.val o a 2 j ((g - 2) * s1.jobUnits j * 2)))))

/-- EC_REBUILD (R368). -/
def execEcRebuild (tag : Fin 8192) (now : DWord) (s : State) : Host.Outcome State Fault Refusal :=
  .next (if !s.running pgMUR then s else s.issue tag.val 0xD now.toNat (fun s1 o => s1.withArg tag.val o 64 (fun a =>
    match rsvByte a [(0x18, 40)] with
    | some d => s1.opEnd tag.val scARG d 0
    | none => s1.ecStart tag.val o a (fun j =>
      let g := s1.jobG j
      let x := bits (leAt a 8 4) 5 0
      let y := bits (leAt a 8 4) 13 8
      let yv := bits (leAt a 8 4) 15 15 == 1
      let t := rbTarget a
      match firstBad [(8, leAt a 8 4 &&& 0xFFFF40C0 == 0 && x < g && (!yv || (y < g && y != x))),
          (0xC, leAt a 0xC 4 < 64 && (t == x || (yv && t == y))), (0x10, leAt a 0x10 8 % 4096 == 0)] with
      | some d => s1.opEnd tag.val scARG d 0
      | none =>
        match s1.lostAmong j ((List.range g).filter (fun k => k != x && !(yv && k == y) && k != s1.jobMe j)) with
        | some k => s1.opEnd tag.val scMEMBER k 0
        | none => s1.mStart tag.val o a 3 j ((g - 2) * (s1.jobUnits j + 1))))))

/-! ### Requests that arrive (R360 to R362) -/

/-- The first packet of a TYPE delivered to the module's engines. -/
def State.inboxOf (s : State) (typ : Nat) : Option MPkt := s.mur.inbox.find? (fun k => phType k.bytes == typ)

/-- Takes it out: its receive buffers are emptied. -/
def State.inboxTake (s : State) (typ : Nat) : State :=
  match s.inboxOf typ with
  | none => s
  | some k => ({ s with mur := { s.mur with inbox := dropFirst (fun x => phType x.bytes == typ) s.mur.inbox } }).mRelease k

/-- Answers a request of a job. -/
def State.mReply (s : State) (j : Nat) (b : List Byte) (status len poison : Nat) (plain : List Byte) : State :=
  let typ := if phType b = 0 then 3 else if phType b = 1 then 2 else if phType b = 4 then 5 else 7
  s.mSend j (phSrc b) typ status (phOff b) len (phReq b) poison (phEpoch b) plain

/-- A refusal of R360. -/
def State.mRefuse (s : State) (j : Nat) (b : List Byte) (status : Nat) : State :=
  (s.countUp pgMUR r_MUR_CNT_REFUSED 1).mReply j b status 0 0 []

/-- Takes a request: the slot, the source, the packet's protection and the member's state are checked, then it acts. -/
def State.mIncoming (s : State) (typ : Nat) (f : State → Nat → Nat → List Byte → List Byte → State) : State :=
  match s.inboxOf typ with
  | none => s
  | some k =>
    let b := k.bytes
    let s0 := s.inboxTake typ
    match s0.jobSlot (phJob b) with
    | none => (s0.countUp pgMUR r_MUR_CNT_REFUSED 1).mBare b mrsJOB
    | some j =>
      match s0.memberOf j (phSrc b) with
      | none => s0.mRefuse j b mrsMEMBER
      | some m =>
        match s0.mOpen j b with
        | (s1, .replayed) => s1
        | (s1, .badTag) => s1.mReply j b mrsAUTH 0 0 []
        | (s1, .ok p) =>
          if s1.memberState j m = 2 ∨ (typ ≠ 1 ∧ s1.memberState j m ≠ 0) then s1.mRefuse j b mrsMEMBER
          else f s1 j m b p

/-- Where a Mural offset of a request leads: a DVA in the window, or a landing region's palette range. -/
inductive MLoc where
  | window (dva : Nat)
  | landing (panel off : Nat)
  deriving DecidableEq, Repr

def State.mWhere (s : State) (j off n : Nat) : Option MLoc :=
  if bits off 43 43 = 0 then (if off % 2 ^ 44 + n ≤ s.jobSize j then some (.window (s.jobWin j + off % 2 ^ 44)) else none)
  else
    let p := bits off 42 36
    let r := bits off 35 33
    let o := bits off 22 0
    if s.hasRegion p r 3 && s.panelMode p != 0 && s.panelTenant p == s.jobTenant j && o + n ≤ s.regionBytes p r && s.landOpen p
    then some (.landing p (s.regionBase p r + o)) else none

/-- MURAL_WRITE (R360). -/
def execMuralWrite (now : DWord) (s : State) : Host.Outcome State Fault Refusal :=
  .next ((s.at now.toNat).mIncoming 0 (fun a j _ b p =>
    let n := min (phLen b) 4096
    let bs := sub p 0 n
    match a.mWhere j (phOff b) n with
    | none => a.mRefuse j b mrsFAULT
    | some (.window dva) =>
      let w := bareWho (a.jobTenant j)
      (match a.writeLines w 4 dva (phPoison b) bs with
      | (a1, some (d, e)) => (a1.mmuFault w d e true).mRefuse j b mrsFAULT
      | (a1, none) => a1.mReply j b mrsOK 0 0 [])
    | some (.landing q o) =>
      let a1 := a.palWrite q o bs
      ((List.range ((n + 7) / 8)).foldl (fun (c : State) i => if phPoison b / 2 ^ (i / 8) % 2 = 1 then c.palPoison q (o + 8 * i) else c) a1).mReply j b
        mrsOK 0 0 []))

/-- MURAL_READ_REQ (R360). -/
def execMuralReadReq (now : DWord) (s : State) : Host.Outcome State Fault Refusal :=
  .next ((s.at now.toNat).mIncoming 1 (fun a j _ b _ =>
    let n := min (phLen b) 4096
    match a.mWhere j (phOff b) n with
    | none => a.mRefuse j b mrsFAULT
    | some (.window dva) =>
      let w := bareWho (a.jobTenant j)
      (match a.readLines w 4 dva 64 n with
      | .error (d, e) => (a.mmuFault w d e false).mRefuse j b mrsFAULT
      | .ok (bs, mask) => a.mReply j b mrsOK n mask bs)
    | some (.landing q o) =>
      let line := fun (i : Nat) => anyPoison a.mem.palPoison (q * 0x800000 + o + 64 * i) (min 64 (n - 64 * i))
      let mask := (List.range ((n + 63) / 64)).foldl (fun m i => if line i then m + 2 ^ i else m) 0
      let bs := (List.range n).map (fun i => if line (i / 64) then 0 else (a.palRead q (o + i) 1).headD 0)
      a.mReply j b mrsOK n mask bs))

/-- MURAL_SIGNAL (R360): it waits for the earlier WRITEs of its source in the job. -/
def execMuralSignal (now : DWord) (s : State) : Host.Outcome State Fault Refusal :=
  .next (match s.inboxOf 4 with
    | none => s
    | some k =>
      if (s.mur.inbox.takeWhile (fun x => x != k)).any (fun x => phType x.bytes == 0 && phSrc x.bytes == phSrc k.bytes && phJob x.bytes == phJob k.bytes)
      then s
      else (s.at now.toNat).mIncoming 4 (fun a j _ b _ =>
        let a1 := if a.fld (hmJOB j) f_MUR_JOB_RX_COUNTER_VALID = 1 then a.synAdd (a.fld (hmJOB j) f_MUR_JOB_RX_COUNTER_COUNTER) 1 else a
        a1.mReply j b mrsOK 0 0 []))

/-- A holder takes a contribution into a parity slot whose header reads `h` (R367). -/
def State.ecTake (s : State) (j m : Nat) (b bs h : List Byte) (base : Nat) : State :=
  let w := bareWho (s.jobTenant j)
  let e := phEpoch b
  let o := bits (phOff b) 29 0
  let q := bits (phOff b) 40 40
  let stripe := bits (phOff b) 37 32
  let g := s.jobG j
  let units := s.jobUnits j
  let data := base + 4096 + o
  let finish := fun (a : State) (hdr : List Byte) (d : List Byte) (mask : Nat) =>
    match a.writeLines w 4 data mask d with
    | (a1, some (x, r)) => (a1.mmuFault w x r true).mRefuse j b mrsFAULT
    | (a1, none) =>
      match a1.writeLines w 4 base 0 hdr with
      | (a2, some (x, r)) => (a2.mmuFault w x r true).mRefuse j b mrsFAULT
      | (a2, none) =>
        let sg := (a2.word (hmJOB j) r_MUR_JOB_EC_SIGNAL).toNat
        let a3 := if headerComplete g stripe e units hdr && cfValid sg then a2.synAdd (cfCounter sg) 1 else a2
        a3.mReply j b mrsOK 0 0 []
  let count := fun (hdr : List Byte) (k n : Nat) => sub hdr 0 (8 + 4 * k) ++ toLe 4 n ++ sub hdr (12 + 4 * k) (264 - 12 - 4 * k)
  if q > 1 then s
  else if leAt h 0 4 = e then
    (match s.readLines w 4 data 64 bs.length with
    | .error (x, r) => (s.mmuFault w x r false).mRefuse j b mrsFAULT
    | .ok (old, mask) => finish s (count h m (leAt h (8 + 4 * m) 4 + 1)) (xorBytes bs old) (mask ||| phPoison b))
  else if serial e (leAt h 0 4) > 0 then
    finish s (count (toLe 4 e ++ sub h 4 4 ++ toLe 256 0) m 1) bs (phPoison b)
  else s.mReply j b mrsSTALE 0 0 []

/-- EC_CONTRIB (R367). -/
def execEcContrib (now : DWord) (s : State) : Host.Outcome State Fault Refusal :=
  .next ((s.at now.toNat).mIncoming 6 (fun a j m b p =>
    let g := a.jobG j
    let stripe := bits (phOff b) 37 32
    let q := bits (phOff b) 40 40
    let holder := if q = 0 then stripe else (stripe + 1) % g
    let off := bits (phOff b) 29 0
    let base := a.jobWin j + a.slotOff j (phEpoch b % 2) q
    if g < 4 ∨ g ≤ stripe ∨ holder ≠ a.jobMe j ∨ a.jobUnits j * 4096 < off + phLen b ∨ !(dataMembers g stripe).contains m then a.mRefuse j b mrsFAULT
    else
      let w := bareWho (a.jobTenant j)
      match a.readLines w 4 base 64 264 with
      | .error (x, r) => (a.mmuFault w x r false).mRefuse j b mrsFAULT
      | .ok (h, _) => a.ecTake j m b (sub p 0 (min (phLen b) 4096)) h base))

/-! ### Responses (R359, R363, R370) -/

/-- The status and DETAIL that a response's STATUS gives its operation. -/
def respStatus (status : Nat) (q : MReq) : Nat × Nat :=
  if status = mrsAUTH then (scMAUTH, q.member)
  else if status = mrsJOB then (scJOB, q.slot)
  else if status = mrsMEMBER then (scMEMBER, q.member)
  else if status = mrsSTALE then (scECINC, q.dva)
  else (scREMOTE, q.member)

/-- Takes a response: one whose entry is free or of another generation is discarded; its tag is checked where it reports OK; its entry
returns to free, and the operation goes on. -/
def State.mResponse (s : State) (typ : Nat) (f : State → MReq → List Byte → List Byte → State) : State :=
  match s.inboxOf typ with
  | none => s
  | some k =>
    let b := k.bytes
    let s0 := s.inboxTake typ
    let e := phReq b % 8192
    let kind := if typ = 3 then 0 else if typ = 2 then 1 else if typ = 5 then 4 else 6
    match smFind s0.mur.reqs e with
    | none => s0
    | some q =>
      if q.gen ≠ phReq b / 8192 ∨ q.kind ≠ kind ∨ !(s0.mjob q.slot).isOpen ∨ s0.jobId q.slot ≠ phJob b then s0
      else
        let back := fun (a : State) (st : Option (Nat × Nat)) =>
          let a1 : State := { a with mur := { a.mur with reqs := smDel a.mur.reqs e, gens := smSet 0 a.mur.gens e ((q.gen + 1) % 8) } }
          let a2 := (a1.move pgMUR 0 .held .transit 1).move pgMUR 0 .transit .free 1
          let a3 := match a2.mop q.tag with
            | some o => a2.setMop q.tag { o with out := o.out - 1 }
            | none => a2
          match st with
          | some (x, d) => (a3.mFail q.tag x d).mGo q.tag 16
          | none => a3
        if phStatus b ≠ mrsOK then back s0 (some (respStatus (phStatus b) q))
        else match s0.mOpen q.slot b with
          | (s1, .replayed) => s1
          | (s1, .badTag) => back s1 (some (scMAUTH, q.member))
          | (s1, .ok p) => (f (back s1 none) q b p).mGo q.tag 16

/-- READ_RESP (R359): the data is written to the COPY's destination, or joins a rebuild's unit; the late data of an abandoned operation is
discarded (R127). -/
def execReadResp (now : DWord) (s : State) : Host.Outcome State Fault Refusal :=
  .next ((s.at now.toNat).mResponse 2 (fun a q b p =>
    match a.mop q.tag, a.op q.tag with
    | some o, some op =>
      if op.abandoned then a
      else if o.kind = 3 then (if phPoison b = 0 then a.rbGot q.tag q.src (sub p 0 q.len) else a.mFail q.tag scPOISON 0)
      else
        let w := op.who q.tag
        (match a.writeLines w 0 q.dva (phPoison b) (sub p 0 q.len) with
        | (a1, some (d, e)) => (a1.mmuFault w d e true).mFail q.tag scTRANSLATION 8
        | (a1, none) => if phPoison b = 0 then a1 else a1.setMop q.tag { o with poison := true })
    | _, _ => a))

/-- WRITE_ACK (R359). -/
def execWriteAck (now : DWord) (s : State) : Host.Outcome State Fault Refusal :=
  .next ((s.at now.toNat).mResponse 3 (fun a _ _ _ => a))

/-- SIGNAL_ACK (R359). -/
def execSignalAck (now : DWord) (s : State) : Host.Outcome State Fault Refusal :=
  .next ((s.at now.toNat).mResponse 5 (fun a q _ _ =>
    match a.mop q.tag with
    | some o => a.setMop q.tag { o with signal := 2 }
    | none => a))

/-- EC_ACK (R367). -/
def execEcAck (now : DWord) (s : State) : Host.Outcome State Fault Refusal :=
  .next ((s.at now.toNat).mResponse 7 (fun a _ _ _ => a))

/-- A request that is treated as timed out (R363): its part ends with LINK_DOWN, DETAIL its first-hop port. -/
def State.reqTimeout (s : State) (e : Nat) : State :=
  match smFind s.mur.reqs e with
  | none => s
  | some q => (s.reqFail e scLINK q.hop).mGo q.tag 16

/-- REQUEST_TIMEOUT (R363). -/
def execRequestTimeout (entry : Fin 8192) (now : DWord) (s : State) : Host.Outcome State Fault Refusal :=
  .next ((s.at now.toNat).reqTimeout entry.val)

/-! ### Routing (R364, R365, R374) -/

/-- Fields of a route entry (MUR_RT_DATA). -/
def rtPort (e : Nat) : Nat := bits e 2 0
def rtLocal (e : Nat) : Bool := bits e 3 3 == 1
def rtValid (e : Nat) : Bool := bits e 4 4 == 1
def rtAlt (e : Nat) : Nat := bits e 7 5
def rtAltValid (e : Nat) : Bool := bits e 8 8 == 1

/-- Takes packet n out of those that wait. -/
def State.arrTake (s : State) (n : Nat) : State := { s with mur := { s.mur with arrived := s.mur.arrived.eraseIdx n } }

/-- Is a packet one of the module's own requests; its tracking entry. -/
def MPkt.entry (k : MPkt) : Option Nat := if k.inPort.isNone && isRequest (phType k.bytes) then some (phReq k.bytes % 8192) else none

/-- Queues a packet for a port. -/
def State.toPort (s : State) (k : MPkt) (p : Nat) : State :=
  let s1 : State := match k.entry with
    | some e => { s with mur := { s.mur with reqs := (match smFind s.mur.reqs e with
        | some q => smPut s.mur.reqs e { q with hop := p }
        | none => s.mur.reqs) } }
    | none => s
  (s1.setMport p { s1.mport p with queue := (s1.mport p).queue ++ pktFlits k k.entry }).pump p

/-- Fails a request of the module's own. -/
def State.localFail (s : State) (k : MPkt) (status detail : Nat) : State :=
  match k.entry with
  | some e =>
    (match smFind s.mur.reqs e with
    | some q => (s.reqFail e status detail).mGo q.tag 16
    | none => s)
  | none => s

/-- The first lookup of a packet. -/
def State.lookup (s : State) (k : MPkt) : State × MPkt :=
  match k.route with
  | some _ => (s, k)
  | none =>
    let s1 := s.setFld pgRT f_MUR_RT_INFLIGHT_CUR (s.fld pgRT f_MUR_RT_INFLIGHT_CUR + 1)
    let e := smGet 0 s.mur.rtActive (phDst k.bytes)
    let s2 : State := match k.entry with
      | some i => { s1 with mur := { s1.mur with reqs := (match smFind s1.mur.reqs i with
          | some q => smPut s1.mur.reqs i { q with hop := rtPort e }
          | none => s1.mur.reqs) } }
      | none => s1
    (s2, { k with route := some e, epoch := s.fld pgRT f_MUR_RT_STATUS_EPOCH })

/-- Routes packet n of those that wait: looked up once, it is delivered, sent, or waits for a usable port. -/
def State.routePkt (s : State) (n : Nat) : State :=
  match s.mur.arrived[n]? with
  | none => s
  | some k0 =>
    if k0.route.isNone ∧ !rtValid (smGet 0 s.mur.rtActive (phDst k0.bytes)) then
      let s1 := s.arrTake n
      if k0.inPort.isSome then (s1.countUp pgMUR r_MUR_CNT_NO_ROUTE 1).mRelease k0
      else s1.localFail k0 scNOROUTE (phDst k0.bytes)
    else
      let (s1, k) := s.lookup k0
      let e := k.route.getD 0
      if rtLocal e then
        let s2 := (s1.arrTake n).epochLeave k
        { s2 with mur := { s2.mur with inbox := s2.mur.inbox ++ [k] } }
      else if s1.portUsable (rtPort e) then (s1.arrTake n).toPort k (rtPort e)
      else if rtAltValid e && s1.portUsable (rtAlt e) then (s1.arrTake n).toPort k (rtAlt e)
      else { s1 with mur := { s1.mur with arrived := s1.mur.arrived.set n k } }

/-- PACKET_ROUTE (R364): a QUIESCING page goes on with the packets it holds (R33). -/
def execPacketRoute (n : Nat) (now : DWord) (s : State) : Host.Outcome State Fault Refusal :=
  .next (if s.working pgMUR then (s.at now.toNat).routePkt n else s)

/-- ROUTE_WAIT_TIMEOUT (R364): a looked-up packet has waited 100 µs for a usable port. -/
def execRouteWaitTimeout (n : Nat) (now : DWord) (s : State) : Host.Outcome State Fault Refusal :=
  .next (match s.mur.arrived[n]? with
    | none => s
    | some k =>
      match k.route with
      | none => s
      | some e =>
        if rtLocal e || s.portUsable (rtPort e) || (rtAltValid e && s.portUsable (rtAlt e)) then s
        else
          let s1 := (((s.at now.toNat).arrTake n).epochLeave k).mRelease k
          if k.inPort.isNone then s1.localFail k scLINK (rtPort e)
          else if isRequest (phType k.bytes) then s1.mBare k.bytes mrsFAULT else s1)

/-- The refusal of a route table (R365). -/
def State.routeRefusal (s : State) (t : SMap Nat) : Option Nat :=
  let me := s.fld pgMUR f_MUR_ID_ID
  let own := smGet 0 t me
  if !(rtValid own && rtLocal own) || t.any (fun e => e.1 != me && rtValid e.2 && rtLocal e.2) then some 0x40
  else if t.any (fun e => rtValid e.2 && !rtLocal e.2 &&
      (!s.running (pgPORT (rtPort e.2)) || (rtAltValid e.2 && !s.running (pgPORT (rtAlt e.2))))) then some 0x41
  else none

/-- Reports a commit's end. -/
def State.routeEnd (s : State) (reason : Nat) : State :=
  ((s.setFld pgRT f_MUR_RT_STATUS_REASON reason).setFld pgRT f_MUR_RT_STATUS_REFUSED (if reason = 0 then 0 else 1)).event pgRT ev_murRt_ROUTE_DONE

/-- A write of MUR_RT_COMMIT (R365); the check and its end are one step (log entry 21). Easel refuses it as it does a page's check while the EAS page
is not RUNNING (R42), and a page that is not RUNNING takes no commit (DEDUCED, log entry 36). -/
def State.routeCommit (s : State) (v : Word) : State :=
  let s0 := s.noteRsv pgRT r_MUR_RT_COMMIT v
  if v.toNat % 2 = 0 then s0
  else if !s0.running pgRT then s0.discard pgRT
  else if s0.fld pgRT f_MUR_RT_STATUS_OLD_LIVE = 1 then s0.routeEnd 0xE
  else if !s0.running pgEAS then s0.routeEnd 3
  else match s0.routeRefusal s0.mur.rtShadow with
    | some r => s0.routeEnd r
    | none =>
      let n := s0.fld pgRT f_MUR_RT_INFLIGHT_CUR
      let s1 : State := { s0 with mur := { s0.mur with rtActive := s0.mur.rtShadow } }
      let s2 := (s1.setFld pgRT f_MUR_RT_STATUS_EPOCH (s1.fld pgRT f_MUR_RT_STATUS_EPOCH + 1)).setFld pgRT f_MUR_RT_STATUS_OLD_LIVE (if n = 0 then 0 else 1)
      ((s2.setFld pgRT f_MUR_RT_INFLIGHT_OLD n).setFld pgRT f_MUR_RT_INFLIGHT_CUR 0).routeEnd 0

/-- ROUTE_COMMIT (R365). -/
def execRouteCommit (v : Word) (s : State) : Host.Outcome State Fault Refusal := .next (s.via 0 (fun a => a.routeCommit v))

/-- ROUTE_EPOCH_RETIRE (R365). -/
def execRouteEpochRetire (s : State) : Host.Outcome State Fault Refusal :=
  .next (if s.fld pgRT f_MUR_RT_STATUS_OLD_LIVE = 1 ∧ s.fld pgRT f_MUR_RT_INFLIGHT_OLD = 0 then s.setFld pgRT f_MUR_RT_STATUS_OLD_LIVE 0 else s)

/-- The route page enters RUNNING: its check installs the shadow table as epoch 0 (R365). -/
def State.routeStart (s : State) : State :=
  let s1 : State := { s with mur := { s.mur with rtActive := s.mur.rtShadow } }
  (s1.setFld pgRT f_MUR_RT_STATUS_EPOCH 0).setFld pgRT f_MUR_RT_STATUS_OLD_LIVE 0

/-- A write of MUR_RT_DATA goes to the shadow table. -/
def State.routeData (s : State) (v : Word) : State :=
  let s0 := s.noteRsv pgRT r_MUR_RT_DATA v
  { s0 with mur := { s0.mur with rtShadow := smSet 0 s0.mur.rtShadow (s0.fld pgRT f_MUR_RT_SEL_ENTRY) (v.toNat % 512) } }

/-! ### Jobs (R361, R375) -/

/-- Is a DVA range of a tenant mapped READ and WRITE throughout? -/
def State.mappedRw (s : State) (t dva n : Nat) : Bool :=
  (List.range ((dva + n + 65535) / 65536 - dva / 65536)).all (fun i =>
    match s.leaf t ((dva / 65536 + i) * 65536) with
    | some (l, _) => l.rd && l.wr && !l.bad
    | none => false)

/-- The first refusal of an OPEN, in R43's order. -/
def State.jobRefusal (s : State) (j : Nat) : Option Nat :=
  let h := hmJOB j
  let t := s.jobTenant j
  let g := s.jobG j
  let ctr := fun (v : Nat) => cfValid v && (s.counterOwner (cfCounter v)) != some t
  let shard := (s.jobShard j, (g - 2) * s.jobUnits j * 4096)
  let parity := (s.jobParity j, 4 * (4096 + s.jobUnits j * 4096))
  if !s.tenantRunning t then some 3
  else if (List.range 10).any (fun i => smGet false s.rsv (h * 1024 + 0x41 + i)) then some 2
  else if g < 1 ∨ 64 < g ∨ g ≤ s.jobMe j ∨ 32 < t then some 1
  else if ctr (s.word h r_MUR_JOB_RX_COUNTER).toNat || ctr (s.word h r_MUR_JOB_EC_SIGNAL).toNat then some 4
  else if (s.jobSlot (s.jobId j)).isSome then some 5
  else if (s.mjob j).key.isNone then some 0x42
  else if !s.mappedRw t (s.jobWin j) (s.jobSize j) ||
      (4 ≤ g && (s.jobUnits j == 0 || s.jobSize j < shard.1 + shard.2 || s.jobSize j < parity.1 + parity.2 || rangesMeet shard parity)) then some 0x43
  else none

/-- MUR_JOB_CMD OPEN. -/
def State.jobOpen (s : State) (j : Nat) : State :=
  if (s.mjob j).isOpen then s.discard pgJOB
  else
    let (ok, r) := match s.jobRefusal j with | some r => (false, r) | none => (true, 0)
    let s1 := if ok then s.setMjob j { s.mjob j with isOpen := true, epoch := none } else s
    ((s1.setFld pgJOB f_MUR_JOB_STATUS_REASON r).setFld pgJOB f_MUR_JOB_STATUS_REFUSED (if ok then 0 else 1)).event pgJOB ev_murJob_JOB_DONE

/-- Closes a slot: its requests are treated as timed out. -/
def State.jobShut (s : State) (j : Nat) : State :=
  let s1 := s.setMjob j { s.mjob j with isOpen := false }
  let es := (s1.mur.reqs.filter (fun e => e.2.slot == j)).map (fun e => (e.1, e.2.tag, e.2.hop))
  let s2 := es.foldl (fun (a : State) e => a.reqFail e.1 scLINK e.2.2) s1
  (s2.mur.ops.filter (fun e => e.2.slot == j)).foldl (fun (a : State) e => a.mGo e.1 16) s2

/-- MUR_JOB_CMD CLOSE. -/
def State.jobClose (s : State) (j : Nat) : State :=
  if (s.mjob j).isOpen then (s.jobShut j).event pgJOB ev_murJob_JOB_DONE else s.discard pgJOB

/-- A write of MUR_JOB_CMD. -/
def State.jobCmd (s : State) (v : Word) : State :=
  let s0 := s.noteRsv pgJOB r_MUR_JOB_CMD v
  let op := fldGet v f_MUR_JOB_CMD_OP
  let j := fldGet v f_MUR_JOB_CMD_SLOT
  if op = 1 then (if s0.running pgJOB then s0.jobOpen j else s0.discard pgJOB)
  else if op = 2 then s0.jobClose j
  else if op = 0 then s0
  else s0.discard pgJOB

/-- JOB_OPEN (R375). -/
def execJobOpen (slot : Fin 64) (s : State) : Host.Outcome State Fault Refusal :=
  .next (s.via 0 (fun a => a.jobCmd (BitVec.ofNat 32 (0x100 + slot.val))))

/-- JOB_CLOSE (R375). -/
def execJobClose (slot : Fin 64) (s : State) : Host.Outcome State Fault Refusal :=
  .next (s.via 0 (fun a => a.jobCmd (BitVec.ofNat 32 (0x200 + slot.val))))

/-- Every slot of a tenant closes (R371). -/
def State.jobsShut (s : State) (t : Nat) : State :=
  (List.range 64).foldl (fun (a : State) j => if (a.mjob j).isOpen && a.jobTenant j == t then a.jobShut j else a) s

/-- A write of MUR_JOB_MEMBER for the selected slot and index (R361): STATE at any time, ID while the slot is closed. -/
def State.memberWrite (s : State) (v : Word) : State :=
  let s0 := s.noteRsv pgJOB r_MUR_JOB_MEMBER v
  let j := s0.fld pgJOB f_MUR_JOB_SEL_SLOT
  let k := s0.fld pgJOB f_MUR_JOB_MEMBER_SEL_INDEX
  let x := s0.mjob j
  let old := smGet 0 x.members k
  let st := fldGet v f_MUR_JOB_MEMBER_STATE
  let id := fldGet v f_MUR_JOB_MEMBER_ID
  let id1 := if x.isOpen then old % 4096 else id
  let s1 := if st = 3 ∨ (x.isOpen ∧ id ≠ old % 4096) then s0.discard pgJOB else s0
  s1.setMjob j { x with members := smSet 0 x.members k (id1 + 4096 * (if st = 3 then old / 4096 else st)) }

/-- MEMBER_STATE_WRITE (R361). -/
def execMemberStateWrite (v : Word) (s : State) : Host.Outcome State Fault Refusal := .next (s.via 0 (fun a => a.memberWrite v))

/-- A write of one of the registers that describe the selected slot: discarded while that slot is open (R375). -/
def State.jobWrite (s : State) (w : Nat) (v : Word) : State :=
  let j := s.fld pgJOB f_MUR_JOB_SEL_SLOT
  if (s.mjob j).isOpen then s.discard pgJOB else s.storeAt pgJOB (hmJOB j) w v

end Sys2Proof.Machine
end

