-- ==== Sys2Proof/Machine/Power.lean ====
section
/-! DEFINITION. Power domains (R447, R448, R48), input power and power fail (R449, R450), resets and start-up (R49, R461 to R466), the cap, the throttle and the thermal limits (R451 to R456). -/

namespace Sys2Proof.Machine

open Sys2Proof

/-! ### Plant outputs at a reset (R387) -/

/-- Every output takes its reset behaviour: bit j of MGT_OUT_RESET chooses between its last level and its MGT_OUT_SAFE bit. No output is
claimed afterwards. -/
def State.outsReset (s : State) : State :=
  (s.setFld pgMGT f_MGT_OUT_STATE_CLAIMED 0).driveOuts (s.fld pgMGT f_MGT_OUT_RESET_SAFE) (s.fld pgMGT f_MGT_OUT_SAFE_LEVEL)

/-! ### Module reset (R49, R461) -/

/-- Registers that keep their word through module reset: those of the MGT page (R394) but its LOCK bit (R49), and those whose reset value the spare map, Fresco
or the fuses hold. -/
def keepReg (page w : Nat) : Bool :=
  (page == pgMGT && w != hCTRL) || (page == pgMOD && w == r_MOD_RESET_COUNT) || (pageKind page == .pnl && w == r_PNL_SPARES) ||
  (pageKind page == .cnv && w == r_CNV_LOST) || (page == pgVAR0 && w == r_VAR_VOTER) ||
  (page == pgFLT && (w == r_FLT_STATUS || w == r_FLT_LOG_SEQ || w == r_FLT_CNT_WIRE)) || (page == pgEAS && (w == r_EAS_STATUS || w == r_EAS_CNT_SWITCH)) ||
  (page == pgFRS && (w == r_FRS_STATUS || w == r_FRS_SPARE_BLOCKS || w == r_FRS_WRITTEN_GIB)) ||
  (page == pgSEC && (w == r_SEC_LC || w == r_SEC_WIPE_COUNT || w == r_SEC_FW)) ||
  ((List.range 8).any (fun p => page == pgPORT p) && w == r_MUR_PORT_STATUS) || (page == pgDIP && w == r_VAR_DIP_STATUS)

/-- 64-bit values that keep through module reset. -/
def keepWide (page w : Nat) : Bool := page == pgMGT || (page == pgFRS && w == r_FRS_WRITTEN_GIB)

/-- What of a panel the spare map holds (R465). -/
def Panel.kept (x : Panel) : Panel :=
  { panelReset with
    coreMap := x.coreMap, freeSpares := x.freeSpares, onSpare := x.onSpare || x.substing, lost := x.lost }

/-- Everything outside AON at its reset value: what is left is AON state, Fresco, the fuses, the spare map's facts, and the world outside
the module. -/
def State.coreReset (s : State) : State :=
  let load := fun (a : State) => (List.range 11).foldl (fun (b : State) i => b.setWord pgFRS (r_FRS_PART (i + 5)) (s.partWord (i + 5))) a
  let z := State.reset
  let fot := s.mem.badFrames.foldl (fun (m : SMap Nat) e => smPut m e.1 kBAD) []
  load { z with
    pending := s.pending, free := s.free, time := s.time, out := s.out, reply := s.reply,
    regs := s.regs.filter (fun e => keepReg (e.1 / 1024) (e.1 % 1024)),
    wide := s.wide.filter (fun e => keepWide (e.1 / 1024) (e.1 % 1024)),
    flt := { s.flt with recs := [], baseline := [], otherUe := [], fatal := [], lastErr := [], window := s.time,
                        rcv := s.flt.rcv.map (fun e => (e.1, { e.2 with inWindow := 0, latched := false })) },
    pow := { z.pow with phase := .held, perst := s.pow.perst, fwSigned := false },
    hif := { z.hif with linkUp := false },
    mem := { z.mem with host := s.mem.host, hostErr := s.mem.hostErr, hostPoison := s.mem.hostPoison, fot := fot,
                        retired := s.mem.retired, pprDone := s.mem.pprDone, badFrames := s.mem.badFrames, flash := s.mem.flash,
                        flashBad := s.mem.flashBad, buffered := s.mem.buffered, layout := s.mem.layout },
    pan := { z.pan with panels := s.pan.panels.map (fun e => (e.1, e.2.kept)),
                        canvases := s.pan.canvases.map (fun e => (e.1, { canvasReset with spare := e.2.spare, serving := e.2.serving })) },
    mgt := s.mgt,
    sec := { z.sec with arb := s.sec.arb, wiped := true, trngFail := s.sec.trngFail, fw := s.sec.fw } }

/-- Debug states that a lifecycle allows (R395): FIELD and OPEN. -/
def lcField (lc : Nat) : Bool := lc == 1 || lc == 2 || lc == 3
def lcOpen (lc : Nat) : Bool := lc == 0 || lc == 3

/-- The fields of kept registers that do not outlive a reset, and the clock tree's start (R462 step 1, R465). The debug state of DEBUG_NEXT
takes effect where the lifecycle allows it; OPEN lasts (R397). -/
def State.tidyKept (s : State) : State :=
  let s1 := (List.range 128).foldl (fun (a : State) p =>
    (a.setFld (pnlPage p) f_PNL_SPARES_LAST_LOGICAL 0).setFld (pnlPage p) f_PNL_SPARES_LAST_PHYS 0) s
  let s2 := (List.range 8).foldl (fun (a : State) p =>
    let lane := a.fld (pgPORT p) f_MUR_PORT_STATUS_FAILED_LANE
    let used := a.fld (pgPORT p) f_MUR_PORT_STATUS_SPARE_USED
    ((a.setWord (pgPORT p) r_MUR_PORT_STATUS (resetWord (pgPORT p) r_MUR_PORT_STATUS)).setFld (pgPORT p) f_MUR_PORT_STATUS_FAILED_LANE
      lane).setFld (pgPORT p) f_MUR_PORT_STATUS_SPARE_USED used) s1
  let spare := s2.fld pgDIP f_VAR_DIP_STATUS_SPARE_LANE
  let s3 := (s2.setWord pgDIP r_VAR_DIP_STATUS (resetWord pgDIP r_VAR_DIP_STATUS)).setFld pgDIP f_VAR_DIP_STATUS_SPARE_LANE spare
  let v0 := s3.fld pgVAR0 f_VAR_VOTER_V0_STATE
  let v1 := s3.fld pgVAR0 f_VAR_VOTER_V1_STATE
  let s4 := ((s3.setWord pgVAR0 r_VAR_VOTER (resetWord pgVAR0 r_VAR_VOTER)).setFld pgVAR0 f_VAR_VOTER_V0_STATE v0).setFld pgVAR0
    f_VAR_VOTER_V1_STATE v1
  let a0 := s4.fld pgFLT f_FLT_STATUS_A0
  let a1 := s4.fld pgFLT f_FLT_STATUS_A1
  let ref := if smGet false s4.flt.refFailed 0 then 1 else 0
  let s5 := ((s4.setWord pgFLT r_FLT_STATUS 0).setFld pgFLT f_FLT_STATUS_A0 (if a0 = 2 then 2 else 0)).setFld pgFLT f_FLT_STATUS_A1
    (if a1 = 2 then 2 else if a0 = 2 then 0 else 1)
  let s6 := (s5.setFld pgFLT f_FLT_STATUS_CLOCK_REF ref).setFld pgSEC f_SEC_LC_TAMPERED 0
  let open' := s6.fld pgSEC f_SEC_LC_DEBUG == 2
  let next := if lcField (s6.fld pgSEC f_SEC_LC_LIFECYCLE) then s6.fld pgSEC f_SEC_LC_DEBUG_NEXT else 0
  (s6.setFld pgEAS f_EAS_STATUS_L2_RUNNING 0).setFld pgSEC f_SEC_LC_DEBUG (if open' then 2 else next)

/-- MODULE_RESET and its kin (R49, R461): every block outside AON is held in reset until T0, the link goes down, and the cause is
recorded: 1 PERST, 2 REGISTER, 3 FATAL, 4 BROWN_OUT, 5 PLATFORM. -/
def State.moduleReset (s : State) (cause : Nat) : State :=
  let s1 := s.outsReset.coreReset.tidyKept
  (s1.setWord pgMOD r_MOD_RESET_COUNT (BitVec.ofNat 32 ((s1.word pgMOD r_MOD_RESET_COUNT).toNat + 1))).setFld pgMOD f_MOD_RESET_CAUSE_CAUSE cause

/-- MODULE_RESET: a write of MOD_RESET (R49). -/
def State.modResetWrite (s : State) (v : Word) : State :=
  let s1 := s.noteRsv pgMOD r_MOD_RESET v
  if fldGet v f_MOD_RESET_KEY = 0x4D52 ∧ fldGet v f_MOD_RESET_CMD = 1 then s1.moduleReset 2 else s1.discard pgMOD

/-- MODULE_RESET. -/
def execModuleReset (v : Word) (now : DWord) (s : State) : Host.Outcome State Fault Refusal :=
  .next (s.via 0 (fun a => (a.at now.toNat).modResetWrite v))

/-- FATAL_RESET (R430 step 4): with FLT_ACTION.FATAL_RESET at 1 after a FATAL error in service. -/
def execFatalReset (now : DWord) (s : State) : Host.Outcome State Fault Refusal :=
  .next (if s.pow.phase = .ready ∧ s.pow.resetDue ∧ s.fld pgFLT f_FLT_ACTION_FATAL_RESET = 1 then (s.at now.toNat).moduleReset 3 else s)

/-- PERST_ASSERT (R461). -/
def execPerstAssert (now : DWord) (s : State) : Host.Outcome State Fault Refusal :=
  let s1 := (s.at now.toNat)
  .next (if s.pow.perst then s
    else if s.pow.phase = .ready ∨ s.pow.phase = .released then
      let s2 := s1.moduleReset 1
      { s2 with pow := { s2.pow with perst := true } }
    else { s1 with pow := { s1.pow with perst := true } })

/-- PERST_DEASSERT (R461). -/
def execPerstDeassert (now : DWord) (s : State) : Host.Outcome State Fault Refusal :=
  let s1 := s.at now.toNat
  .next { s1 with pow := { s1.pow with perst := false } }

/-! ### Power off and on (R449, R450, R461) -/

/-- AON without power: the MGT registers and what else AON held are lost, the drivers have no level, and OPEN debug ends (R397). -/
def State.powerOff (s : State) : State :=
  let s0 := if s.fld pgSEC f_SEC_LC_DEBUG = 2 then s.setFld pgSEC f_SEC_LC_DEBUG 0 else s
  let s1 := s0.coreReset.tidyKept
  let z := State.reset
  let s2 := { s1 with
    regs := s1.regs.filter (fun e => e.1 / 1024 != pgMGT && !(e.1 / 1024 == pgMOD && e.1 % 1024 == r_MOD_RESET_COUNT)),
    wide := s1.wide.filter (fun e => e.1 / 1024 != pgMGT),
    flt := { s1.flt with queue := s1.flt.queue.filter (fun r => decide (0x20 ≤ r.typ)), beside := [], ce := [], ceOver := 0, lostDue := 0 },
    pow := { s1.pow with phase := .off },
    mgt := z.mgt }
  s2.setFld pgSEC f_SEC_WIPE_COUNT_WIPES 0

/-- A run of buffered bytes whose content is lost: free bytes. -/
def State.blockLost (s : State) (a n : Nat) : State :=
  { s with mem := { s.mem with flash := cWrite s.mem.flash a (s.freeBytes n) }, free := s.free + n }

/-- What the write buffer held and hold-up did not program is undefined. -/
def State.bufferLost (s : State) : State :=
  let s1 := s.mem.buffered.foldl (fun (a : State) k =>
    a.blockLost (flashAt (k / 2 ^ 31) (k % 2 ^ 31)) 4096) s
  { s1 with mem := { s1.mem with buffered := [] } }

/-- AON_POWER_ON (R461): AON comes up, the timebase starts at 0, every plant output drives 0. -/
def State.aonOn (s : State) : State :=
  { s with time := 0, pow := { s.pow with phase := .held, overVolt := false, failing := false, envOk := true },
           flt := { s.flt with powerOns := s.flt.powerOns + 1, window := 0 } }

/-- AON_POWER_ON. -/
def execAonPowerOn (s : State) : Host.Outcome State Fault Refusal :=
  .next (if s.pow.phase = .off ∧ !s.pow.overVolt then s.aonOn else s)

/-- OVER_VOLTAGE (R449): the module powers down without hold-up. -/
def execOverVoltage (now : DWord) (s : State) : Host.Outcome State Fault Refusal :=
  .next (if s.pow.phase = .off then s
    else
      let s1 := (s.at now.toNat).bufferLost.powerOff
      { s1 with pow := { s1.pow with overVolt := true } })

/-- OVER_VOLTAGE_RECOVERY (R449): the input falls below 60 V, and the module restarts. -/
def execOverVoltageRecovery (s : State) : Host.Outcome State Fault Refusal :=
  .next (if s.pow.phase = .off ∧ s.pow.overVolt then s.aonOn else s)

/-- POWER_FAIL (R450 steps 1 and 2): ENV_OK drops, outputs take their reset behaviour, and every domain but AON, FABRIC and EASEL goes
off at once; work in flight is lost. -/
def State.powerFail (s : State) : State :=
  let s1 := s.outsReset.coreReset.tidyKept
  { s1 with pow := { s1.pow with failing := true, envOk := false } }

/-- POWER_FAIL. -/
def execPowerFail (now : DWord) (s : State) : Host.Outcome State Fault Refusal :=
  .next (if s.pow.phase = .off ∨ s.pow.failing then s else (s.at now.toNat).powerFail)

/-- Every queued record becomes durable. -/
def State.flushJournals (s : State) : State :=
  let q := s.flt.queue ++ s.flt.beside
  q.foldl (fun (a : State) r => a.durable r) { s with flt := { s.flt with queue := [], beside := [] } }

/-- POWER_FAIL_END (R450 steps 3 to 5): the write buffer is programmed and every record written; then, as the input has been held above
41 V or not, a module reset with cause BROWN_OUT or the end of AON power. -/
def execPowerFailEnd (recovered : Bool) (now : DWord) (s : State) : Host.Outcome State Fault Refusal :=
  .next (if !s.pow.failing then s
    else
      let s1 := (s.at now.toNat).flushJournals
      let s2 := { s1 with mem := { s1.mem with buffered := [] }, pow := { s1.pow with failing := false } }
      if recovered then s2.moduleReset 4 else s2.powerOff)

/-! ### The reset sequence (R462 to R466) -/

/-- The header, the digests and the signature of a firmware image (R399): `rd o n` reads n bytes at offset o, of `len` bytes in all. -/
def fwImageOk (rd : Nat → Nat → List Byte) (len : Nat) : Bool :=
  let h := rd 0 512
  let z := fun (o n : Nat) => (sub h o n).all (fun x => x == 0)
  let part := fun (o n d : Nat) => Config.sha384 (rd (leAt h o 4) (leAt h n 4)) == sub h d 48
  let signer := Config.sha384 (sub h 0x80 97)
  decide (512 ≤ len) && leAt h 0 4 == 0x57465141 && leAt h 4 4 == 1 && z 9 7 && z 0xE1 31 && z 0x160 160 &&
  leAt h 0x10 4 % 4096 == 0 && decide (4096 ≤ leAt h 0x14 4 ∧ leAt h 0x14 4 ≤ 262144) &&
  leAt h 0x18 4 % 4096 == 0 && decide (4096 ≤ leAt h 0x1C 4 ∧ leAt h 0x1C 4 ≤ 2097152) &&
  decide (leAt h 0x10 4 + leAt h 0x14 4 ≤ len) && decide (leAt h 0x18 4 + leAt h 0x1C 4 ≤ len) &&
  (signer == Config.fwKeyDigest 0 || signer == Config.fwKeyDigest 1) &&
  Config.ecdsaOk (sub h 0x80 97) (sub h 0x100 96) (Config.sha384 (sub h 0 256)) && part 0x10 0x14 0x20 && part 0x18 0x1C 0x50

/-- Bytes of a firmware slot's partition. -/
def State.fwRead (s : State) (slot o n : Nat) : List Byte := cRead s.mem.flash (flashAt slot 0 + o) n

/-- Does every block of the stages of a slot's image read? -/
def State.fwReadable (s : State) (slot : Nat) : Bool :=
  let h := s.fwRead slot 0 512
  let n := (max (leAt h 0x10 4 + leAt h 0x14 4) (leAt h 0x18 4 + leAt h 0x1C 4) + 4095) / 4096
  !(s.mem.flashBad.any (fun e => e.2 && decide (flashKey slot 0 ≤ e.1 ∧ e.1 ≤ flashKey slot n)))

/-- Does a slot's image pass R399 and R400, and what is its SVN? `given` answers for an image of manufacture, which the model does not hold. -/
def State.fwOk (s : State) (slot : Nat) (given : Bool) : Bool :=
  match smGet 0 s.sec.fw slot with
  | 0 => given
  | 1 => s.fwReadable slot && fwImageOk (s.fwRead slot) (s.partBlocks slot * 4096)
  | _ => false
def State.fwSvn (s : State) (slot given : Nat) : Nat := if smGet 0 s.sec.fw slot = 0 then given else leAt (s.fwRead slot 8 1) 0 1

/-- Boot (R400, R465): the slot tried first, or the other under FALLBACK; `ok` says which slots' images pass R399 and R400. Keys are
drawn and derived again, except under OPEN debug (R397). -/
def State.boot (s : State) (ok : Nat → Bool) (svn : Nat → Nat) : State :=
  let pend := s.fld pgSEC f_SEC_FW_PENDING == 1
  let act := s.fld pgSEC f_SEC_FW_ACTIVE
  let first := if pend then 1 - act else act
  let good := fun (i : Nat) => ok i && smGet 0 s.sec.arb 0 ≤ svn i
  let slot : Option Nat := if good first then some first else if good (1 - first) then some (1 - first) else none
  let dead := fun (i : Nat) => s.fld pgEAS (fPair i) == 2
  let s0 := { s with sec := { s.sec with wiped := s.fld pgSEC f_SEC_LC_DEBUG == 2 } }
  match slot with
  | none => { s0 with pow := { s0.pow with fwFail := true, fwSigned := false } }
  | some i =>
    let s1 := ((((s0.setFld pgSEC f_SEC_FW_ACTIVE i).setFld pgSEC f_SEC_FW_PENDING 0).setFld pgSEC f_SEC_FW_FALLBACK
      (if i = first then 0 else 1)).setFld pgSEC f_SEC_FW_SVN (svn i)).setFld pgSEC f_SEC_FW_SVN_OTHER (if ok (1 - i) then svn (1 - i) else 0)
    let s2 := if i = first then s1 else s1.report pgSEC 7 0 0 false
    if dead 0 && dead 1 then
      let s3 := s2.report pgEAS 4 0 0 false
      { s3 with pow := { s3.pow with fwFail := true, fwSigned := false } }
    else
      let a := if dead 0 then 1 else 0
      let s3 := ((s2.setFld pgEAS (fPair a) 0).setFld pgEAS f_EAS_STATUS_ACTIVE a).setFld pgEAS f_EAS_STATUS_L2_RUNNING 1
      let s4 := if dead (1 - a) then s3 else s3.setFld pgEAS (fPair (1 - a)) 1
      let s5 := (s4.setFld pgEAS fENABLE 1).setFld pgEAS fSTATE stRUNNING
      { s5 with pow := { s5.pow with fwFail := false, fwSigned := true } }

/-- RESET_RELEASE at T0 (R462 steps 1 to 3): the core domains turn on, Fresco is ready, and the firmware boots. The operands answer for a
slot that still holds its image of manufacture. -/
def execResetRelease (okA okB : Bool) (svnA svnB : Fin 256) (now : DWord) (s : State) : Host.Outcome State Fault Refusal :=
  .next (if s.pow.phase = .held ∧ !s.pow.perst ∧ !s.pow.failing then
      let s1 := (s.at now.toNat).boot (fun i => s.fwOk i (if i = 0 then okA else okB)) (fun i => s.fwSvn i (if i = 0 then svnA.val else svnB.val))
      { s1 with pow := { s1.pow with phase := .released } }
    else s)

/-- A failing position of a panel that serves a logical number (R464). -/
def State.marchCore (s : State) (p f : Nat) : State :=
  let x := s.panel p
  if (s.logicalOf p f).isSome then
    (if x.freeSpares.isEmpty then s else (s.setPanel p { x with coreOut := [⟨f, false, false⟩] }).substCore p [])
  else if x.freeSpares.contains f then
    let sps := x.freeSpares.filter (fun q => q != f)
    let s1 := (s.setPanel p { x with freeSpares := sps }).setFld (pnlPage p) f_PNL_SPARES_FREE sps.length
    s1.journal (s1.mkRec spCORE 0 false (pnlPage p) 0 0 f 0 [0xFF, 0xFF, f])
  else s

/-- The logical panel that a physical panel of a canvas serves; position 32 is the spare. -/
def State.logicalPanel (s : State) (c phys : Nat) : Option Nat :=
  if phys = 32 then (if (s.canvas c).spare = 1 then some (c * 32 + (s.canvas c).serving) else none)
  else if (s.panel (c * 32 + phys)).onSpare || (s.panel (c * 32 + phys)).lost then none
  else some (c * 32 + phys)

/-- The march test's findings on one physical panel (R464). -/
def State.marchPanel (s : State) (c phys : Nat) (fails : List Nat) (spareOk : Bool) : State :=
  match s.logicalPanel c phys with
  | none =>
    if phys = 32 ∧ 4 < fails.length ∧ (s.canvas c).spare = 0 then
      let s1 := s.setCanvas c { s.canvas c with spare := 2 }
      s1.journal (s1.mkRec spUNIT 0 false (cnvPage c) 0 0 0 0 [9])
    else s
  | some p =>
    let x := s.panel p
    let logical := fails.filter (fun f => (s.logicalOf p f).isSome)
    let free := x.freeSpares.filter (fun f => !fails.contains f)
    if logical.length ≤ free.length then
      -- failing spares leave first, so that none of them takes a number
      logical.foldl (fun (a : State) f => a.marchCore p f) ((fails.filter (fun f => !logical.contains f)).foldl (fun (a : State) f => a.marchCore p f) s)
    else if (s.canvas c).spare = 0 ∧ spareOk then
      (s.setPanel p { x with substing := true }).substPanel p false
    else
      let s1 := (s.setPanel p { x with lost := true, onSpare := false }).setWord (cnvPage c) r_CNV_LOST
        ((s.word (cnvPage c) r_CNV_LOST) ||| BitVec.ofNat 32 (2 ^ (p % 32)))
      s1.journal (s1.mkRec spLOST 0 false (pnlPage p) 0 0 0 0 [c, p % 32])

/-- The palette march test (R464): failing positions by physical panel (33 of each canvas) and core position. It leaves no event in a
PNL or CNV page. -/
def State.paletteMarch (s : State) (fails : List (Fin 132 × Fin 68)) : State :=
  let of := fun (n : Nat) => (fails.filter (fun f => f.1.val == n)).map (fun f => f.2.val)
  let s1 := (List.range 4).foldl (fun (a : State) c =>
    let spareOk := decide ((of (c * 33 + 32)).length ≤ 4)
    ([32] ++ List.range 32).foldl (fun (b : State) q => if (of (c * 33 + q)).isEmpty then b else b.marchPanel c q (of (c * 33 + q)) spareOk) a) s
  { s1 with regs := s1.regs.filter (fun e => !((pageKind (e.1 / 1024) == .pnl || pageKind (e.1 / 1024) == .cnv) &&
      (e.1 % 1024 == hRAW || e.1 % 1024 == hSETCOUNT))) }

/-- Post-package repair at a module reset (R298): each retired HBM piece whose stack has a spare row returns to its own place. -/
def State.repairRows (s : State) : State :=
  s.mem.retired.foldl (fun (a : State) e =>
    let addr := e.1 * 4096
    let st := pieceHome addr
    if addr < loftBase ∧ smGet 0 a.mem.pprDone st < 64 then
      let b := { a with mem := { a.mem with retired := smDel a.mem.retired e.1, pprDone := smPut a.mem.pprDone st (smGet 0 a.mem.pprDone st + 1) } }
      b.journal (b.mkRec spREPAIRED 0 false pgHBM 0 0 addr 0 [256 * st, e.1, e.2])
    else a) s

/-- CONFIG_READY (R463): the link is up and the palette march has ended; the firmware's own steps have run where it boots. -/
def execConfigReady (speed : Fin 7) (lanes : Fin 64) (flit : Bool) (fails : List (Fin 132 × Fin 68)) (now : DWord) (s : State) :
    Host.Outcome State Fault Refusal :=
  .next (if s.pow.phase ≠ .released then s
    else
      let s1 := s.at now.toNat
      let s2 := if s1.pow.fwFail then s1 else s1.paletteMarch fails
      let s3 := s2.repairRows
      let s4 := s3.setWord pgHIF0 r_HIF_LINK (BitVec.ofNat 32 (0x10000 + (if flit then 0x400 else 0) + lanes.val * 16 + speed.val))
      { s4 with pow := { s4.pow with phase := .ready }, hif := { s4.hif with linkUp := true } })

/-- CONFIG_REQUEST (R463): answered with retry status (1) before configuration ready, normally (0) from then on. -/
def execConfigRequest (fn : Fin 33) (s : State) : Host.Outcome State Fault Refusal :=
  .next (if s.pow.phase = .released then s.emit ⟨.cfgReply, fn.val, [1], []⟩
    else if s.pow.phase = .ready ∧ s.hif.linkUp then s.emit ⟨.cfgReply, fn.val, [0], []⟩
    else s)

/-! ### Power domains (R48, R447) -/

/-- The domains a page lies in: bits of MOD_PD_REQ0, and 16 + n for bit n of MOD_PD_REQ1. -/
def State.pageDomain (s : State) (page : Nat) : Option Nat :=
  match pageKind page with
  | .mur0 | .murRt | .murJob => some 8
  | .murPort => some (if page < 0x115 then 8 else 9)
  | .ing => some 10
  | .vce => some (if page = 0xF0 then 12 else 11)
  | .vceT => some (if pageIndex page = 9 then 12 else 11)
  | .glz | .glzT => some 13
  | .smp | .smpT => some 14
  | .cadDom | .cadTrk | .cadRef | .var0 | .dip => some 15
  | .cnv => some (16 + 8 * pageInstance page)
  | .pnl =>
    let p := pageInstance page
    some (16 + 8 * (p / 32) + s.quadOf p)
  | _ => none

/-- Does a domain hold a page in service, or a STUDIO domain a bank with an owner (R48, R292)? -/
def State.domainHeld (s : State) (d : Nat) : Bool :=
  if 3 ≤ d ∧ d ≤ 6 then (List.range 8).any (fun i => s.fld pgSTU (f_STU_BANK_OWNER (8 * (d - 3) + i)) != 0x3F)
  else allPages.any (fun p => s.pageDomain p == some d && s.st p != stOFF && s.st p != stREFUSED && s.st p != stFENCED)

/-- The domain that a domain depends on, among those that switch. -/
def domainNeeds (d : Nat) : Option Nat :=
  if d = 9 then some 8 else if 16 ≤ d ∧ (d - 16) % 8 ≠ 0 then some (16 + (d - 16) / 8 * 8) else none

/-- Is a domain on among the bits of both requests? -/
def domBit (r0 r1 d : Nat) : Bool := if d < 16 then r0 / 2 ^ d % 2 == 1 else r1 / 2 ^ (d - 16) % 2 == 1

/-- Is a domain on through a change from one pair of requests to another? Only such a dependent would stay on (R48). -/
def domStays (o0 o1 n0 n1 d : Nat) : Bool := domBit o0 o1 d && domBit n0 n1 d

/-- Refuses a request: MOD_PD_RESULT records the lowest offending domain. -/
def State.pdRefuse (s : State) (reason d : Nat) : State :=
  ((s.setFld pgMOD f_MOD_PD_RESULT_REASON reason).setFld pgMOD f_MOD_PD_RESULT_DOMAIN d).discard pgMOD

/-- A write of one of the requests: the domains as both registers would then ask. -/
def State.pdRequest (s : State) (n0 n1 : Nat) (canvas : Bool) : State :=
  let o0 := (s.word pgMOD r_MOD_PD_REQ0).toNat
  let o1 := (s.word pgMOD r_MOD_PD_REQ1).toNat
  let ch := (List.range 48).filter (fun d => domBit o0 o1 d != domBit n0 n1 d)
  let off := fun (d : Nat) => domBit o0 o1 d
  if canvas && s.pow.fwFail then s.pdRefuse 3 (ch.headD 0)
  else if ch = [] then s
  else if s.fld pgMOD f_MOD_PD_RESULT_BUSY = 1 then s.pdRefuse 0x41 (ch.headD 0)
  else match ch.find? (fun d => off d && s.domainHeld d) with
  | some d => s.pdRefuse 0x40 d
  | none =>
    match ch.find? (fun d =>
      if off d then (List.range 48).any (fun e => domainNeeds e == some d && domStays o0 o1 n0 n1 e)
      else (domainNeeds d).any (fun e => !domBit n0 n1 e)) with
    | some d => s.pdRefuse 3 d
    | none =>
      let s1 := (s.setWord pgMOD r_MOD_PD_REQ0 (BitVec.ofNat 32 n0)).setWord pgMOD r_MOD_PD_REQ1 (BitVec.ofNat 32 n1)
      let s2 := s1.setFld pgMOD f_MOD_PD_RESULT_BUSY 1
      let s3 := (s2.setWord pgMOD r_MOD_PD_STATE0 (BitVec.ofNat 32 (o0 &&& n0))).setWord pgMOD r_MOD_PD_STATE1 (BitVec.ofNat 32 (o1 &&& n1))
      { s3 with pow := { s3.pow with pd := some ⟨n0, n1⟩ } }

/-- A write of MOD_PD_REQ0: bits 0, 1, 2 and 7 read 1 and ignore writes. -/
def State.pdReq0 (s : State) (v : Word) : State :=
  (s.noteRsv pgMOD r_MOD_PD_REQ0 v).pdRequest (v.toNat % 65536 ||| 0x87) (s.word pgMOD r_MOD_PD_REQ1).toNat false

/-- MOD_PD_REQ0_WRITE (R48). -/
def execModPdReq0Write (v : Word) (s : State) : Host.Outcome State Fault Refusal := .next (s.via 0 (fun a => a.pdReq0 v))

/-- A write of MOD_PD_REQ1. -/
def State.pdReq1 (s : State) (v : Word) : State := s.pdRequest (s.word pgMOD r_MOD_PD_REQ0).toNat v.toNat true

/-- MOD_PD_REQ1_WRITE (R48). -/
def execModPdReq1Write (v : Word) (s : State) : Host.Outcome State Fault Refusal := .next (s.via 0 (fun a => a.pdReq1 v))

/-- A canvas's bypass follows its quads (R13, R100). -/
def State.showBypass (s : State) (c : Nat) : State :=
  let n := 0xFF - (s.word pgMOD r_MOD_PD_STATE1).toNat / 2 ^ (8 * c) % 256
  if s.fld (cnvPage c) f_CNV_BYPASS_QUADS = n then s else (s.setFld (cnvPage c) f_CNV_BYPASS_QUADS n).event (cnvPage c) ev_cnv_BYPASS_CHANGE

/-- The panels of physical quad q of a canvas, by logical number. -/
def State.quadPanels (s : State) (c q : Nat) : List Nat :=
  ((List.range 32).map (fun i => c * 32 + i)).filter (fun p => s.quadOf p == q)

/-- A quad's stores are cleared (R81). -/
def State.quadZero (s : State) (c q : Nat) : State :=
  (s.quadPanels c q).foldl (fun (a : State) p => (a.palZero p).storesZero p) s

/-- PD_TRANSITION_DONE (R48): the domains are on or off and stable. A Studio domain that has turned on has its banks cleared (R292), a
quad's panels are uncleared until QUAD_CLEAR_DONE. -/
def State.pdDone (s : State) (n : PdChange) : State :=
  let o0 := (s.word pgMOD r_MOD_PD_STATE0).toNat
  let o1 := (s.word pgMOD r_MOD_PD_STATE1).toNat
  let s1 := ((s.setWord pgMOD r_MOD_PD_STATE0 (BitVec.ofNat 32 n.st0)).setWord pgMOD r_MOD_PD_STATE1 (BitVec.ofNat 32 n.st1)).setFld pgMOD
    f_MOD_PD_RESULT_BUSY 0
  let s2 := { s1 with pow := { s1.pow with pd := none } }
  let s3 := [3, 4, 5, 6].foldl (fun (a : State) d =>
    if domBit n.st0 0 d ∧ !domBit o0 0 d then a.memZero (studioBase + (d - 3) * 8 * 0x400000) (8 * 0x400000) else a) s2
  let s4 := (List.range 32).foldl (fun (a : State) i =>
    if domBit 0 n.st1 (16 + i) ∧ !domBit 0 o1 (16 + i) then
      { a with pow := { a.pow with uncleared := smSet false a.pow.uncleared i true } } else a) s3
  ((List.range 4).foldl (fun (a : State) c => a.showBypass c) s4).event pgMOD evSTATE_CHANGE

/-- PD_TRANSITION_DONE. -/
def execPdTransitionDone (s : State) : Host.Outcome State Fault Refusal :=
  .next (match s.pow.pd with
    | some n => s.pdDone n
    | none => s)

/-- QUAD_CLEAR_DONE (R81). -/
def execQuadClearDone (c : Fin 4) (q : Fin 8) (s : State) : Host.Outcome State Fault Refusal :=
  .next (let i := 8 * c.val + q.val
    if smGet false s.pow.uncleared i then
      let s1 := s.quadZero c.val q.val
      { s1 with pow := { s1.pow with uncleared := smSet false s1.pow.uncleared i false } }
    else s)

/-! ### The cap and the throttle (R451, R452) -/

/-- The cap in force. -/
def State.capNow (s : State) : Nat := min (s.fld pgMGT f_MGT_POWER_CAP_WATTS) (s.fld pgMGT f_MGT_POWER_CAP_PLDM_WATTS)

/-- The cap that the throttle holds: 50 W lower for each whole degree of the hottest point above its threshold (R455). -/
def State.throttleCap (s : State) : Nat := s.capNow - 50 * ((s.pow.therm.map (fun e => e.2 - 1)).foldl max 0)

/-- The throttle lowers or raises the clocks of panels by points, applied at their step boundaries. -/
def State.slowPanels (s : State) (reserved : Bool) (f : Nat → Nat) : State :=
  (List.range 128).foldl (fun (a : State) p =>
    if (a.panelMode p == 2) == reserved then
      let x := a.panel p
      (a.setPanel p { x with slow := f x.slow }).reclock p
    else a) s

/-- One sample of the throttle (R451): over the cap, the stages act lowest first; 10% below it for 10 ms, they release in reverse. -/
def State.throttle (s : State) (proj : Nat) : State :=
  let cap := s.throttleCap
  let p := s.pow
  if cap < proj then
    let s0 := { s with pow := { p with calmSince := none } }
    if p.lowSince.any (fun t => t + 1000000 ≤ s.time) ∧ (List.range 128).any (fun q => s.panelMode q != 2 && s.clockPoint q < 3) then
      let s1 := s0.slowPanels false (fun n => min 3 (n + 1))
      { s1 with pow := { s1.pow with skip := 16, stage := 2, lowSince := none } }
    else if p.skip = 0 then
      let s1 := s0.slowPanels true (fun _ => 3)
      { s1 with pow := { s1.pow with stage := 3 } }
    else
      let k := p.skip - 1
      { s0 with pow := { s0.pow with skip := k, stage := max 1 p.stage,
                                     lowSince := if k ≤ 8 then some (p.lowSince.getD s.time) else none } }
  else if proj * 10 ≤ cap * 9 then
    match p.calmSince with
    | none => { s with pow := { p with calmSince := some s.time } }
    | some t =>
      if s.time < t + 10000000 then s
      else
        let s0 := { s with pow := { p with calmSince := some s.time } }
        if (List.range 128).any (fun q => s.panelMode q == 2 && (s.panel q).slow != 0) then
          let s1 := s0.slowPanels true (fun _ => 0)
          { s1 with pow := { s1.pow with stage := 2 } }
        else if (List.range 128).any (fun q => (s.panel q).slow != 0) then
          let s1 := s0.slowPanels false (fun n => n - 1)
          { s1 with pow := { s1.pow with stage := 1 } }
        else { s0 with pow := { s0.pow with skip := 16, stage := 0, lowSince := none } }
  else { s with pow := { p with calmSince := none } }

/-- A sensor's reading (R390). -/
def State.reading (s : State) (i : Nat) (v : Int) : State :=
  { s with mgt := { s.mgt with sensors := smSet 0 s.mgt.sensors i v, lost := smSet false s.mgt.lost i false } }

/-- ENV_OK falls and stays 0 until the next module reset (R456). -/
def State.envDrop (s : State) : State := { s with pow := { s.pow with envOk := false } }

/-- Follows the input voltage: outside 40 to 60 V for 10 µs, ENV_OK drops (R449). -/
def State.voltage (s : State) (mv : Nat) : State :=
  if 40000 ≤ mv ∧ mv ≤ 60000 then { s with pow := { s.pow with outSince := none } }
  else match s.pow.outSince with
    | none => { s with pow := { s.pow with outSince := some s.time } }
    | some t => if t + 10000 ≤ s.time then s.envDrop else s

/-- Follows the coolant's rise, sensor 4 less sensor 3 in 0.1 °C, against MGT_POWER_NOW / (119 W/K) + 3 K (R454). -/
def State.flowTrack (s : State) : State :=
  let rise := smGet 0 s.mgt.sensors 4 - smGet 0 s.mgt.sensors 3
  if 10 * (s.fld pgMGT f_MGT_POWER_NOW_WATTS : Int) + 3570 < 119 * rise then
    { s with pow := { s.pow with hotSince := some (s.pow.hotSince.getD s.time) } }
  else { s with pow := { s.pow with hotSince := none } }

/-- POWER_SAMPLE (R451): voltage in mV, current in mA, the 100 µs average and its projection 10 µs ahead, in W. -/
def execPowerSample (mv ma : BitVec 32) (avg proj : BitVec 11) (now : DWord) (s : State) : Host.Outcome State Fault Refusal :=
  .next (if s.pow.phase = .off then s
    else
      let s1 := (((s.at now.toNat).reading 0 mv.toNat).reading 1 ma.toNat).reading 2 avg.toNat
      (((s1.setFld pgMGT f_MGT_POWER_NOW_WATTS avg.toNat).flowTrack.voltage mv.toNat).throttle proj.toNat))

/-! ### Coolant and temperatures (R454 to R456) -/

/-- PLDM reports a change to the event receiver, where one is set (R389, R454). -/
def State.pldmEvent (s : State) (sensor : Nat) (v : Int) : State :=
  match s.mgt.receiver with
  | some r => s.emit ⟨.pldmEvent, r, [sensor, (v % 2 ^ 32).toNat], []⟩
  | none => s

/-- Where a sensor stands against its limits: 0 within, 1 below, 2 above. -/
def sensorBand (i : Nat) (v : Int) : Nat :=
  if i = 3 then (if v < 150 then 1 else if 450 < v then 2 else 0)
  else if 5 ≤ i ∧ i ≤ 9 then (if 1000 < v then 2 else 0)
  else if i = 10 then (if 900 < v then 2 else 0)
  else 0

/-- TEMPERATURE_THRESHOLD: sensor 3 to 10 reads a temperature in 0.1 °C. -/
def State.temperature (s : State) (i : Nat) (v : Int) : State :=
  let old := sensorBand i (smGet 0 s.mgt.sensors i)
  let new := sensorBand i v
  let s1 := (s.reading i v).flowTrack
  let thr : Int := if i = 10 then 900 else 1000
  let s2 := if 5 ≤ i ∧ i ≤ 10 then
      { s1 with pow := { s1.pow with therm := smSet 0 s1.pow.therm i (if new = 2 then ((v - thr) / 10).toNat + 1 else 0),
                                     hbmFast := if i = 10 then decide (850 < v) else s1.pow.hbmFast } } else s1
  let s3 := if new = 0 then s2 else s2.envDrop
  if old = new then s3 else (s3.event pgMGT ev_mgt_SENSOR_THRESHOLD).pldmEvent i v

/-- TEMPERATURE_THRESHOLD (R455, R456). -/
def execTemperatureThreshold (sensor : Fin 8) (v : BitVec 16) (now : DWord) (s : State) : Host.Outcome State Fault Refusal :=
  .next (if s.pow.phase = .off then s else (s.at now.toNat).temperature (sensor.val + 3) v.toInt)

/-- FLOW_LOW (R454): the rise has exceeded its limit for 10 s. -/
def execFlowLow (now : DWord) (s : State) : Host.Outcome State Fault Refusal :=
  let a := s.at now.toNat
  .next (if s.pow.phase ≠ .off ∧ a.pow.hotSince.any (fun t => t + 10000000000 ≤ a.time) then
      { a with pow := { a.pow with flowLow := true, envOk := false } }
    else s)

/-- MOISTURE_CHANGE (R454): 0 dry, 1 wet, 2 open circuit. -/
def execMoistureChange (v : Fin 3) (s : State) : Host.Outcome State Fault Refusal :=
  .next (if s.pow.phase = .off ∨ smGet 0 s.mgt.sensors 11 = v.val then s
    else
      let s1 := s.reading 11 v.val
      ({ s1 with pow := { s1.pow with moist := v.val != 0 } }.event pgMGT ev_mgt_SENSOR_THRESHOLD).pldmEvent 11 v.val)

end Sys2Proof.Machine
end

