-- ==== Sys2Proof/Machine/Mgt.lean ====
section
/-! DEFINITION. Plant inputs and outputs, the owner's power cap, the on-module I2C buses and the SMBus sideband (R386 to R394, R400). -/

namespace Sys2Proof.Machine

open Sys2Proof

/-! ### Plant inputs and outputs (R387, R388) -/

/-- INPUT_EDGE (R388): input i changes to a level, which it has held for `held` samples; a level held for fewer than MGT_IN_FILTER is a glitch. The
time is that of the edge, the filter delay subtracted. -/
def State.inputEdge (s : State) (i : Nat) (high : Bool) (held t : Nat) : State :=
  let lv := s.fld pgMGT f_MGT_IN_STATUS_LEVEL
  if s.pow.phase = .off ∨ (lv / 2 ^ i % 2 == 1) = high ∨ held < s.fld pgMGT f_MGT_IN_FILTER_SAMPLES then s
  else
    let s1 := (s.at t).setFld pgMGT f_MGT_IN_STATUS_LEVEL (lv ^^^ 2 ^ i)
    (s1.setWide pgMGT (r_MGT_IN_EDGE_LO i) t).event pgMGT ev_mgt_INPUT_EDGE

/-- INPUT_EDGE. -/
def execInputEdge (i : Fin 4) (high : Bool) (held : Fin 64) (t : DWord) (s : State) : Host.Outcome State Fault Refusal :=
  .next (s.inputEdge i.val high held.val t.toNat)

/-- MGT_IN_EDGE_READ (R394). -/
def execMgtInEdgeRead (i : Fin 4) (s : State) : Host.Outcome State Fault Refusal :=
  .next (s.via 0 (fun a => a.readWide pgMGT (r_MGT_IN_EDGE_LO i.val)))

/-- A write of MGT_OUT_LEVEL (R387): every unclaimed output takes its bit, which ends the reset behaviour. -/
def State.outLevelWrite (s : State) (v : Word) : State :=
  let s1 := s.setFld pgMGT f_MGT_OUT_LEVEL_LEVEL (fldGet v f_MGT_OUT_LEVEL_LEVEL)
  s1.driveOuts (0xFFFF - s1.fld pgMGT f_MGT_OUT_STATE_CLAIMED) (fldGet v f_MGT_OUT_LEVEL_LEVEL)

/-- MGT_OUT_LEVEL_WRITE. -/
def execMgtOutLevelWrite (v : Word) (s : State) : Host.Outcome State Fault Refusal :=
  .next (s.via 0 (fun a => (a.noteRsv pgMGT r_MGT_OUT_LEVEL v).outLevelWrite v))

/-! ### The cap (R394, R389) -/

/-- The least cap (R161). -/
def State.capLeast (s : State) : Nat := 620 + s.fld pgTRK f_CAD_TRK_FLOOR_WATTS

/-- Sets one of the two caps; CAP_CHANGE tells of a change of the cap in force. -/
def State.capSet (s : State) (f : Fld) (w : Nat) : State :=
  let s1 := s.setFld pgMGT f w
  if s1.capNow = s.capNow then s1 else s1.event pgMGT ev_mgt_CAP_CHANGE

/-- A write of MGT_POWER_CAP. -/
def State.capWrite (s : State) (v : Word) : State :=
  let w := fldGet v f_MGT_POWER_CAP_WATTS
  if 1500 < w ∨ w < s.capLeast then s.discard pgMGT else s.capSet f_MGT_POWER_CAP_WATTS w

/-- MGT_POWER_CAP_WRITE (R394). -/
def execMgtPowerCapWrite (v : Word) (s : State) : Host.Outcome State Fault Refusal :=
  .next (s.via 0 (fun a => (a.noteRsv pgMGT r_MGT_POWER_CAP v).capWrite v))

/-! ### On-module I2C (R392) -/

/-- What a recovery finds of a bus: SDA low, SCL low, and whether SDA reads high after the pulses. -/
structure BusSeen where
  sdaLow : Bool
  sclLow : Bool
  freed : Bool
  deriving DecidableEq, Repr

/-- Does the bus end idle? -/
def BusSeen.idle (b : BusSeen) : Bool := !b.sclLow && (!b.sdaLow || b.freed)

/-- One recovery sequence is counted. -/
def State.busRecovery (s : State) (b : Nat) : State := s.countFld pgMGT (f_MGT_I2C_STATUS_RECOVERIES b) 1

/-- An enable that finds its bus busy is refused. -/
def State.busRefuse (s : State) (b : Nat) : State :=
  ((s.setFld pgMGT (f_MGT_I2C_STATUS_STATE b) 2).setFld pgMGT (f_MGT_I2C_STATUS_REASON b) 0x0D).event pgMGT ev_mgt_I2C_REFUSED

/-- EN 0 to 1 (R392 steps 1 to 3). -/
def State.busEnable (s : State) (b : Nat) (x : BusSeen) : State :=
  if !x.idle then (s.busRecovery b).busRefuse b
  else
    let s1 := (s.setFld pgMGT (f_MGT_I2C_STATUS_STATE b) 1).setFld pgMGT (f_MGT_I2C_STATUS_REASON b) 0
    if x.sdaLow then (s1.busRecovery b).report pgMGT 1 b 0 false else s1

/-- A write of MGT_I2Cb_CTRL: SPEED 3 is discarded; EN starts or stops the controller where it changes. -/
def State.busCtrl (s : State) (b : Nat) (v : Word) (x : BusSeen) : State :=
  let old := s.fld pgMGT (f_MGT_I2C_CTRL_EN b)
  let en := fldGet v (f_MGT_I2C_CTRL_EN b)
  let sp := fldGet v (f_MGT_I2C_CTRL_SPEED b)
  let s1 := if sp = 3 then s.discard pgMGT else s.setFld pgMGT (f_MGT_I2C_CTRL_SPEED b) sp
  let s2 := s1.setFld pgMGT (f_MGT_I2C_CTRL_EN b) en
  if old = en then s2
  else if en = 1 then s2.busEnable b x
  else (s2.setFld pgMGT (f_MGT_I2C_STATUS_STATE b) 0).setFld pgMGT (f_MGT_I2C_STATUS_REASON b) 0

/-- I2C_ENABLE (R392): a write of MGT_I2Cb_CTRL with EN 1, and what the bus shows. -/
def execI2cEnable (b : Fin 4) (v : Word) (sdaLow sclLow freed : Bool) (s : State) : Host.Outcome State Fault Refusal :=
  .next (s.via 0 (fun a => (a.noteRsv pgMGT (r_MGT_I2C_CTRL b.val) v).busCtrl b.val (v ||| 1#32) ⟨sdaLow, sclLow, freed⟩))

/-- I2C_DISABLE (R392): a write of MGT_I2Cb_CTRL with EN 0. -/
def execI2cDisable (b : Fin 4) (v : Word) (s : State) : Host.Outcome State Fault Refusal :=
  .next (s.via 0 (fun a => (a.noteRsv pgMGT (r_MGT_I2C_CTRL b.val) v).busCtrl b.val (v &&& 0xFFFFFFFE#32) ⟨false, false, false⟩))

/-- A target has held SCL low for 25 ms during a transaction: the controller aborts, recovers and enables itself again. -/
def State.busStretch (s : State) (b : Nat) (recovered : Bool) : State :=
  if s.pow.phase = .off ∨ s.fld pgMGT (f_MGT_I2C_CTRL_EN b) = 0 ∨ s.fld pgMGT (f_MGT_I2C_STATUS_STATE b) = 2 then s
  else if recovered then ((s.busRecovery b).setFld pgMGT (f_MGT_I2C_STATUS_STATE b) 1).report pgMGT 1 b 0 false
  else ((s.busRecovery b).busRefuse b).report pgMGT 2 b 0 false

/-- I2C_STRETCH_TIMEOUT (R392). -/
def execI2cStretchTimeout (b : Fin 4) (recovered : Bool) (s : State) : Host.Outcome State Fault Refusal :=
  .next (s.busStretch b.val recovered)

/-! ### MCTP (R389) -/

/-- An answer on the sideband: MCTP message type, command and bytes, completion code first. -/
def State.sideband (s : State) (typ cmd : Nat) (bs : List Byte) : State :=
  if s.pow.phase = .off then s else s.emit ⟨.mctp, typ, [cmd], bs⟩

def mctpControl : Nat := 0
def mctpPldm : Nat := 1

/-- Set Endpoint ID: operations 0 and 1 assign it; a static ID and discovery, operations 2 and 3, are not there. -/
def State.setEid (s : State) (op eid : Nat) : State :=
  if s.pow.phase = .off then s
  else if 1 < op ∨ eid = 0 ∨ eid = 0xFF then s.sideband mctpControl 1 [2#8]
  else (s.setFld pgMGT f_MGT_SMBUS_EID eid).sideband mctpControl 1 [0#8, 0#8, BitVec.ofNat 8 eid, 0#8]

/-- SET_ENDPOINT_ID (R389). -/
def execSetEndpointId (op : Fin 4) (eid : Fin 256) (s : State) : Host.Outcome State Fault Refusal := .next (s.setEid op.val eid.val)

/-- GET_ENDPOINT_ID (R389): a simple endpoint with a dynamic ID. -/
def execGetEndpointId (s : State) : Host.Outcome State Fault Refusal :=
  .next (s.sideband mctpControl 2 [0#8, BitVec.ofNat 8 (s.fld pgMGT f_MGT_SMBUS_EID), 0#8, 0#8])

/-- GET_MCTP_VERSION_SUPPORT (R389): for the base specification (0xFF) and the control and PLDM types the versions supported; another
type is not supported. -/
def execGetMctpVersionSupport (typ : Fin 256) (s : State) : Host.Outcome State Fault Refusal :=
  .next (s.sideband mctpControl 4 (if typ.val = 0xFF ∨ typ.val = 0 ∨ typ.val = 1 then [0#8] ++ Config.mctpVersions typ.val else [0x80#8]))

/-- GET_MESSAGE_TYPE_SUPPORT (R389): one type beside control, PLDM. -/
def execGetMessageTypeSupport (s : State) : Host.Outcome State Fault Refusal := .next (s.sideband mctpControl 5 [0#8, 1#8, 1#8])

/-- GET_ENDPOINT_UUID (R389). -/
def execGetEndpointUuid (s : State) : Host.Outcome State Fault Refusal := .next (s.sideband mctpControl 3 ([0#8] ++ Config.uuid))

/-! ### PLDM type 0 -/

/-- Is a PLDM type supported: 0, 2 and 5? -/
def pldmType (t : Nat) : Bool := t == 0 || t == 2 || t == 5

/-- GET_TID (R389). -/
def execGetTid (s : State) : Host.Outcome State Fault Refusal := .next (s.sideband mctpPldm 2 [0#8, BitVec.ofNat 8 s.mgt.tid])

/-- GET_PLDM_VERSION (R389). -/
def execGetPldmVersion (typ : Fin 64) (s : State) : Host.Outcome State Fault Refusal :=
  .next (s.sideband mctpPldm 3 (if pldmType typ.val then [0#8] ++ Config.pldmVersions typ.val else [0x83#8]))

/-- GET_PLDM_TYPES (R389): bit t of 64 for type t. -/
def execGetPldmTypes (s : State) : Host.Outcome State Fault Refusal := .next (s.sideband mctpPldm 4 ([0#8] ++ toLe 8 0x25))

/-- GET_PLDM_COMMANDS (R389): bit c of 256 for command c. Type 0's are those of R389. -/
def execGetPldmCommands (typ : Fin 64) (s : State) : Host.Outcome State Fault Refusal :=
  .next (s.sideband mctpPldm 5 (if typ.val = 0 then [0#8] ++ toLe 32 0x3C
    else if pldmType typ.val then [0#8] ++ Config.pldmCommands typ.val else [0x83#8]))

/-! ### PLDM type 2 -/

/-- GetSensorReading (R390): completion, operational state (0 enabled, 2 unavailable), place against the limits, the reading. -/
def State.sensorAnswer (s : State) (i : Nat) : State :=
  let v := smGet 0 s.mgt.sensors i
  if 11 < i then s.sideband mctpPldm 0x11 [0x80#8]
  else s.sideband mctpPldm 0x11 ([0#8, (if smGet false s.mgt.lost i then 2#8 else 0#8), BitVec.ofNat 8 (sensorBand i v)] ++
    toLe 4 (v % 2 ^ 32).toNat)

/-- GET_SENSOR_READING. -/
def execGetSensorReading (i : Fin 65536) (s : State) : Host.Outcome State Fault Refusal := .next (s.sensorAnswer i.val)

/-- SetEventReceiver: the endpoint that events go to, or none. -/
def State.setReceiver (s : State) (r : Option Nat) : State :=
  if s.pow.phase = .off then s
  else
    let s1 := { s with mgt := { s.mgt with receiver := r } }
    (s1.setFld pgMGT f_MGT_SMBUS_EVENT_RX (if r.isSome then 1 else 0)).sideband mctpPldm 4 [0#8]

/-- SET_EVENT_RECEIVER (R389). -/
def execSetEventReceiver (enable : Bool) (eid : Fin 256) (s : State) : Host.Outcome State Fault Refusal :=
  .next (s.setReceiver (if enable then some eid.val else none))

/-- RESET_STATE_EFFECTER (R389): MODULE_RESET with cause PLATFORM. -/
def execResetStateEffecter (now : DWord) (s : State) : Host.Outcome State Fault Refusal :=
  .next (if s.pow.phase = .off ∨ s.pow.failing then s else ((s.at now.toNat).sideband mctpPldm 0x39 [0#8]).moduleReset 5)

/-- The power-cap effecter (R389): a cap that would bring the one in force below its least is rejected with ERROR_INVALID_DATA. -/
def State.capEffecter (s : State) (w : Nat) : State :=
  if s.pow.phase = .off then s
  else if min (s.fld pgMGT f_MGT_POWER_CAP_WATTS) w < s.capLeast then s.sideband mctpPldm 0x31 [2#8]
  else (s.capSet f_MGT_POWER_CAP_PLDM_WATTS w).sideband mctpPldm 0x31 [0#8]

/-- POWER_CAP_EFFECTER. -/
def execPowerCapEffecter (w : BitVec 11) (s : State) : Host.Outcome State Fault Refusal := .next (s.capEffecter w.toNat)

/-! ### PLDM type 5 and the firmware image (R389, R399, R400) -/

/-- Is a firmware update kept off by a TDI that is locked or runs (R405)? -/
def State.updateBarred (s : State) : Bool :=
  (List.range 32).any (fun t => smGet false s.sec.noUpdate (t + 1) && ((s.tenant (t + 1)).tdi == 1 || (s.tenant (t + 1)).tdi == 2))

/-- The update in progress. -/
def State.setUpdate (s : State) (u : Option FwUpdate) : State := { s with mgt := { s.mgt with update := u } }

/-- RequestUpdate: refused while another update runs (0x81) or a locked TDI bars it (0x8A). -/
def State.updateBegin (s : State) : State :=
  if s.pow.phase = .off then s
  else if s.mgt.update.isSome then s.sideband mctpPldm 0x10 [0x81#8]
  else if s.updateBarred then s.sideband mctpPldm 0x10 [0x8A#8]
  else (s.setUpdate (some ⟨[], false, false⟩)).sideband mctpPldm 0x10 [0#8]

/-- REQUEST_UPDATE (R389, R405). -/
def execRequestUpdate (s : State) : Host.Outcome State Fault Refusal := .next s.updateBegin

/-- The inactive slot's partition (R304). -/
def State.fwOther (s : State) : Nat := 1 - s.fld pgSEC f_SEC_FW_ACTIVE

/-- TransferComplete: the image as transferred stands in the inactive partition, or Fresco could not program it, and the slot is left
invalid (R303). -/
def State.updateTransfer (s : State) (image : List Byte) (programmed : Bool) : State :=
  match s.mgt.update with
  | none => s.sideband mctpPldm 0x16 [0x80#8]
  | some u =>
    if u.complete ∨ 536870912 < image.length then s.sideband mctpPldm 0x16 [0x80#8]
    else
      let s1 := (s.setFld pgSEC f_SEC_FW_SVN_OTHER 0).setFld pgSEC f_SEC_FW_PENDING 0
      if programmed then
        let p := s.fwOther
        let s2 := s1.flashClear p 0 ((image.length + 4095) / 4096)
        let s3 := { s2 with mem := { s2.mem with flash := cWrite s2.mem.flash (flashAt p 0) image } }
        let s4 := { s3 with sec := { s3.sec with fw := smSet 0 s3.sec.fw p 1 } }
        ((s4.flashWrote image.length).setUpdate (some ⟨image, false, true⟩)).sideband mctpPldm 0x16 [0#8]
      else (({ s1 with sec := { s1.sec with fw := smSet 0 s1.sec.fw s.fwOther 2 } }).setUpdate none).sideband mctpPldm 0x16 [1#8]

/-- TRANSFER_COMPLETE (R303). -/
def execTransferComplete (image : List Byte) (programmed : Bool) (s : State) : Host.Outcome State Fault Refusal :=
  .next (if s.pow.phase = .off then s else s.updateTransfer image programmed)

/-- ApplyComplete (R400): the security block verifies the image in the inactive slot and sets PENDING. -/
def State.updateApply (s : State) : State :=
  match s.mgt.update with
  | none => s.sideband mctpPldm 0x18 [0x80#8]
  | some u =>
    if !u.complete then s.sideband mctpPldm 0x18 [0x80#8]
    else
      let s1 := s.setUpdate none
      let svn := leAt u.image 8 1
      if fwImageOk (sub u.image) u.image.length ∧ smGet 0 s.sec.arb 0 ≤ svn then
        ((s1.setFld pgSEC f_SEC_FW_SVN_OTHER svn).setFld pgSEC f_SEC_FW_PENDING 1).sideband mctpPldm 0x18 [0#8]
      else s1.sideband mctpPldm 0x18 [1#8]

/-- APPLY_COMPLETE (R400). -/
def execApplyComplete (s : State) : Host.Outcome State Fault Refusal :=
  .next (if s.pow.phase = .off then s else s.updateApply)

/-! ### The FRU EEPROM (R391) -/

/-- FRU_READ (R391): bytes of the EEPROM from an offset on, wrapping at 256; a write is NACKed (answered with no byte). -/
def execFruRead (write : Bool) (off : Fin 256) (n : Fin 257) (s : State) : Host.Outcome State Fault Refusal :=
  .next (if s.pow.phase = .off then s
    else if write then s.emit ⟨.smbus, 0x50, [1], []⟩
    else s.emit ⟨.smbus, 0x50, [0], (List.range n.val).map (fun i => Config.fruByte ((off.val + i) % 256))⟩)

end Sys2Proof.Machine
end

