-- ==== Sys2Proof/Machine/Checks.lean ====
section
/-! DEFINITION. The enable checks (R42 to R46, R471): what each page depends on, what it claims, and its tests in R43's order; the tenant check (R318). -/

namespace Sys2Proof.Machine

open Sys2Proof

/-! ### Registers at fault (R43, R45) -/

/-- DETAIL of a word of a page; BLK_CTRL is always named as page index 0, word 2. -/
def detOf (page w : Nat) : Nat := if w = hCTRL then hCTRL else pageIndex page * 1024 + w

/-- The lowest word whose test fails. -/
def lowest (l : List (Bool × Nat)) : Option Nat := ((l.filter (fun e => e.1)).map (fun e => e.2)).min?

/-- A test's refusal, if it fails. -/
def failAt (reason page : Nat) (l : List (Bool × Nat)) : Option (Nat × Nat) := (lowest l).map (fun w => (reason, detOf page w))

/-! ### Dependencies (R43 test 3, R468) -/

/-- Does a valid geometry have a Loft pool? -/
def State.loftPool (s : State) : Bool := (List.range 8).any (fun g => s.geoValid g && (s.pool g true).2.1 != 0)

/-- The domains in VAR_DIP_DOMAINS. -/
def State.dipDomains (s : State) : List Nat := (List.range 16).filter (fun d => bitOf (s.word pgDIP r_VAR_DIP_DOMAINS) d)

/-- The pages that a page needs RUNNING, each with the word of the register that names it (BLK_CTRL where the block implies it). -/
def State.needs (s : State) (page : Nat) : List (Nat × Nat) :=
  match pageKind page with
  | .lft | .vce => [(pgHBM, hCTRL)]
  | .hifTen => [(pgEAS, hCTRL), (pgHBM, hCTRL), (pgSYN, hCTRL)]
  | .pnl => [(cnvPage (pageInstance page / 32), hCTRL)]
  | .glz => [(pgEAS, hCTRL), (pgHBM, hCTRL)] ++ (if s.loftPool then [(pgLFT, hCTRL)] else [])
  | .smp => [(pgEAS, hCTRL), (pgGLZ, hCTRL)]
  | .murPort | .murJob => [(pgMUR, hCTRL)]
  | .murRt => [(pgMUR, hCTRL), (pgEAS, hCTRL)]
  | .cadTrk | .cadRef => [(pgEAS, hCTRL)]
  | .cadDom =>
    let w := r_CAD_DOM_CTRL
    [(pgEAS, hCTRL), (pgREF (s.fld page f_CAD_DOM_CTRL_CHANNEL), w)] ++
      (if s.fld page f_CAD_DOM_CTRL_TRIPTYCH = 1 then [(pgVAR0, w)] else [])
  | .dip => (pgVAR0, hCTRL) :: s.dipDomains.map (fun d => (pgCAD d, r_VAR_DIP_DOMAINS))
  | _ => []

/-- The tenant that a page needs RUNNING, with the word that names it. -/
def State.needsTenant (s : State) (page : Nat) : Option (Nat × Nat) :=
  match pageKind page with
  | .pnl => if s.panelMode (pageInstance page) = 1 ∨ s.panelMode (pageInstance page) = 2 then
      some (s.panelTenant (pageInstance page), r_PNL_MODE) else none
  | .cadDom => some (s.fld page f_CAD_DOM_CTRL_OWNER, r_CAD_DOM_CTRL)
  | _ => (tenantOfPage page).map (fun x => (x.1, hCTRL))

/-- Other things that a page needs: each with the word at fault. A domain's completion queue must be enabled (R168); HBM and Loft frames
are claimed only when their tier is cleared (R299, R468). -/
def State.needsOther (s : State) (page : Nat) : List (Bool × Nat) :=
  match pageKind page with
  | .cadDom => [(!s.cqOn (s.fld page f_CAD_DOM_CTRL_OWNER) (s.fld page f_CAD_DOM_CQ_QUEUE), r_CAD_DOM_CQ)]
  | .hbm => [(s.fld pgHBM f_HBM_CLEAR_DONE == 0, hCTRL)]
  | .glz => [(s.loftPool && s.fld pgLFT f_LFT_CLEAR_DONE == 0, hCTRL)]
  | _ => []

/-- Test 3: every dependency is RUNNING. -/
def State.depTest (s : State) (page : Nat) : Option (Nat × Nat) :=
  failAt 3 page ((s.needs page).map (fun n => (!s.running n.1, n.2)) ++ s.needsOther page ++
    (match s.needsTenant page with
     | some (t, w) => [(decide (32 < t) || !s.tenantRunning t, w)]
     | none => []))

/-- Is a page RUNNING or CHECKING, so that what it depends on stays in service (R32, R471)? -/
def State.inService (s : State) (page : Nat) : Bool := s.running page || s.st page == stCHECKING

/-- The panels that a committed VCE destination slot names (R262). -/
def State.slotPanels (s : State) (e n : Nat) : List Nat := if s.pdCommitted e n then pdPanels (s.pdDesc e n) (s.pdFirst e n) else []

/-- Does a page depend on another? A domain depends on its reserved panels (R169), ING on the PNL and VCE pages that committed streams name
(R384), a VCE page on the PNL pages that committed slots name (R262). -/
def State.dependsOn (s : State) (q page : Nat) : Bool :=
  (s.needs q).any (fun n => n.1 == page) ||
  (match pageKind q, pageKind page with
   | .cadDom, .pnl => bitOf (s.word q (r_CAD_DOM_PANELS (pageInstance page / 32))) (pageInstance page % 32)
   | .ing, _ => s.strNames page
   | .vce, .pnl => (List.range 16).any (fun n => (s.slotPanels (pageInstance q) n).contains (pageInstance page))
   | _, _ => false)

/-- The pages that can depend on others. -/
def depPages : List Nat :=
  [pgLFT, pgTEN, pgGLZ, pgSMP, pgVCE 0, pgVCE 1, pgRT, pgJOB, pgTRK, pgDIP, pgING] ++ (List.range 16).map pgCAD ++ (List.range 4).map pgREF ++
  (List.range 8).map pgPORT ++ (List.range 128).map pnlPage

/-- Does a RUNNING or CHECKING page, or a tenant, depend on a page? An enabled queue holds its completion queue page (R324). -/
def State.hasDependants (s : State) (page : Nat) : Bool :=
  depPages.any (fun q => s.inService q && s.dependsOn q page) || (page == pgTEN && (List.range 33).any (fun t => s.tenantEnabled t)) ||
  (pageKind page == .cqPage && (tenantOfPage page).any (fun x => (List.range 64).any (fun q => s.cqOn x.1 q)))

/-- Pages of a tenant. -/
def pagesOf (t : Nat) : List Nat := (List.range 11).map (fun k => tenantPage t k)

/-- May a page not leave RUNNING even for QUIESCING: a channel that a RUNNING domain names (R171), a completion queue page with an enabled
queue (R324), HIF page 1 under a tenant (R338)? -/
def State.heldBy (s : State) (page : Nat) : Bool :=
  match pageKind page with
  | .cadRef => (List.range 16).any (fun d => s.running (pgCAD d) && (s.needs (pgCAD d)).any (fun n => n.1 == page))
  | .cqPage | .hifTen => s.hasDependants page
  | _ => false

/-- Does a RUNNING or CHECKING block depend on a tenant (R331, R471)? A page or tenant whose check requires it counts while it is CHECKING. -/
def State.tenantDependants (s : State) (t : Nat) : Bool :=
  (List.range 16).any (fun d => s.inService (pgCAD d) && s.domOwner d == t) ||
  (List.range 128).any (fun p => s.inService (pnlPage p) && s.panelMode p != 0 && s.panelTenant p == t) ||
  [0, 1].any (fun e => (List.range 16).any (fun n => s.pdCommitted e n && s.pdTenant e n == t)) ||
  (pagesOf t).any (fun p => pageKind p != .tnt && s.st p == stCHECKING) ||
  (t == 0 && (List.range 33).any (fun u => u != 0 && (s.tenant u).state == stCHECKING))

/-! ### Claims (R44) -/

/-- Plant outputs that a page's configuration claims. -/
def State.outClaim (s : State) (page : Nat) : Nat :=
  match pageKind page with
  | .cadDom => s.fld page f_CAD_DOM_OUTS_TRIG ||| s.fld page f_CAD_DOM_OUTS_RESULT
  | .dip => 2 ^ s.fld pgDIP f_VAR_DIP_CTRL_ROLE_OUT
  | _ => 0

/-- Place of a page's ENABLE among the writes that reached the Host Interface. -/
def State.orderOf (s : State) (page : Nat) : Nat := smGet 0 s.hif.enOrder page

/-- Does a page hold its claims against the check of another: is it RUNNING, QUIESCING, or CHECKING since an earlier write? -/
def State.claimsAgainst (s : State) (q page : Nat) : Bool :=
  q != page && (s.running q || s.st q == stQUIESCING || (s.st q == stCHECKING && s.orderOf q < s.orderOf page))

/-- Do a page's output claims meet another page's? -/
def State.outsMeet (s : State) (page : Nat) : Bool :=
  (pgDIP :: (List.range 16).map pgCAD).any (fun q => s.claimsAgainst q page && (s.outClaim q &&& s.outClaim page) != 0)

/-- Does a frame of a region hold a KIND other than FREE, a page's own kinds apart (R283)? -/
def State.framesTaken (s : State) (r : Nat × Nat) (own : List Nat) : Bool :=
  s.mem.fot.any (fun e => rangesMeet r (e.1, 1) && !own.contains (e.2 % 16))

/-! ### Tests of one kind of page each -/

/-- Landing regions of a panel that are VALID: index, base and size in 4 KiB units. -/
def State.regions (s : State) (p : Nat) : List (Nat × Nat × Nat) :=
  ((List.range 8).filter (fun r => s.fld (pnlPage p) (f_PNL_REGION_VALID r) == 1)).map
    (fun r => (r, s.fld (pnlPage p) (f_PNL_REGION_BASE r), s.fld (pnlPage p) (f_PNL_REGION_SIZE r)))

/-- Is a panel's mode at odds with a RUNNING domain (R89)? -/
def State.pnlMismatch (s : State) (p : Nat) : Bool :=
  (List.range 16).any (fun d => s.running (pgCAD d) &&
    (let here := s.panelMode p == 2 && s.panelDomain p == d
     let own := s.panelTenant p == s.domOwner d
     ((s.reserved d).contains p && !(here && own)) || (here && !own)))

/-- PNL page of panel p (R87, R89, R96, R99). -/
def State.pnlTests (s : State) (p : Nat) : List (Option (Nat × Nat)) :=
  let pg := pnlPage p
  let rs := s.regions p
  [failAt 1 pg ((s.panelMode p == 3 || (s.panelMode p != 0 && 32 < s.panelTenant p), r_PNL_MODE) ::
     rs.map (fun r => (4 ≤ s.fld pg (f_PNL_REGION_WRITER r.1) || r.2.2 == 0 || 2048 < r.2.1 + r.2.2, r_PNL_REGION r.1))),
   failAt 5 pg (rs.map (fun r => (rs.any (fun q => q.1 < r.1 && rangesMeet q.2 r.2), r_PNL_REGION r.1))),
   failAt 0xA pg [((s.panel p).lost, hCTRL)],
   failAt 0x40 pg (if s.panelMode p = 0 then rs.map (fun r => (true, r_PNL_REGION r.1)) else []),
   failAt 0x41 pg [(s.pnlMismatch p, r_PNL_MODE)]]

/-- Credits that are to add up to a total, each at least a minimum. -/
def creditsBad (l : List Nat) (total least : Nat) : Bool := l.foldl (· + ·) 0 != total || l.any (fun n => n < least)

/-- CNV page (R100). -/
def State.cnvTests (s : State) (pg : Nat) : List (Option (Nat × Nat)) :=
  [failAt 7 pg
    [(creditsBad [s.fld pg f_CNV_MESH_VC_VC0, s.fld pg f_CNV_MESH_VC_VC1, s.fld pg f_CNV_MESH_VC_VC2, s.fld pg f_CNV_MESH_VC_VC3] 16 2, r_CNV_MESH_VC),
     (creditsBad [s.fld pg f_CNV_D2D_VC_VC0, s.fld pg f_CNV_D2D_VC_VC1, s.fld pg f_CNV_D2D_VC_VC2, s.fld pg f_CNV_D2D_VC_VC3] 32 4, r_CNV_D2D_VC)]]

/-- Reference channel page (R171). -/
def State.refTests (s : State) (pg : Nat) : List (Option (Nat × Nat)) :=
  [failAt 1 pg
    [(4 < s.fld pg f_CAD_REF_MODE_MODE, r_CAD_REF_MODE), (40 < s.fld pg f_CAD_REF_FILTER_FILTER, r_CAD_REF_FILTER),
     (s.fld pg f_CAD_REF_INDEX_COUNTS_PER_REV == 0, r_CAD_REF_INDEX), ((s.word pg r_CAD_REF_PERIOD).toNat < 100, r_CAD_REF_PERIOD)]]

/-- Word of the entry of an event point table that breaks a range (R155, R156), as a CAD_EPT_DATA register. -/
def Ept.badWord (e : Ept) : Nat :=
  r_CAD_EPT_DATA (if e.d1 / 2048 ≠ 0 ∨ 5 < e.action then 1
    else if (e.action = 5 ∧ bits e.d2 30 18 ≠ 0) ∨ (e.action = 4 ∧ e.d2 ≠ 0) ∨ (e.action ≤ 3 ∧ e.d2 / 16 ≠ 0) then 2 else 3)

/-- The Triptych entry tests of a domain (R172, R173): REASON and the word of VAR page 0 at fault. -/
def State.triTests (s : State) (d : Nat) : List (Nat × Nat) :=
  let pg := pgVAR0
  if s.ctlOf d f_CAD_DOM_CTRL_TRIPTYCH = 0 then []
  else
    let off := if s.running pgVAR0 then [] else [(3, hCTRL)]
    let timing : List (Bool × Nat) :=
      [(s.fld pg (f_VAR_TRI_TIMING_SKEW_US d) == 0 || 1000 < s.fld pg (f_VAR_TRI_TIMING_SKEW_US d) ||
         s.fld pg (f_VAR_TRI_TIMING_RECOVER_LIMIT d) == 0, r_VAR_TRI_TIMING d),
       (s.fld pg (f_VAR_TRI_WINDOW_CYCLES d) == 0, r_VAR_TRI_WINDOW d),
       (2048 < s.fld pg (f_VAR_TRI_STATE_SIZE d) + s.fld pg (f_VAR_TRI_STATE_BASE d), r_VAR_TRI_STATE d),
       ((s.word pg (r_VAR_TRI_VOTED_LO d)).toNat % 64 != 0, r_VAR_TRI_VOTED_LO d)]
    match s.resultTpl d with
    | none => off ++ (match lowest timing with | some w => [(1, w)] | none => [])
    | some t =>
      let f := leAt (s.tplBytes d t) 52 4
      let n := pgCount f
      let firsts := [pgFirst f, s.fld pg (f_VAR_TRI_CHAN_FIRST1 d), s.fld pg (f_VAR_TRI_CHAN_FIRST2 d)]
      let canv := firsts.map (fun x => x / 32)
      let crosses := firsts.any (fun x => x / 32 != (x + n - 1) / 32) || canv.dedup.length != 3
      let chan := r_VAR_TRI_CHAN d
      let rng : List (Bool × Nat) :=
        [(n == 0 || crosses, chan), (decide (n ≤ s.fld pg (f_VAR_TRI_STATE_RECORD_G d)), r_VAR_TRI_STATE d)] ++ timing
      let mine := s.reserved d
      let others := (firsts.drop 1).flatMap (fun x => (List.range n).map (fun i => x + i))
      let carts := s.resultCarts d
      off ++ (if pgForm f ≠ 1 ∨ carts.any (fun cs => cs.any triCartBad) then [(0x45, chan)] else []) ++
        (match lowest rng with | some w => [(1, w)] | none => []) ++
        (if others.any (fun p => !mine.contains p) then [(0x40, chan)] else []) ++ (if carts.isNone then [(0x44, chan)] else [])

/-- The first Triptych entry test of a domain that fails with a REASON. -/
def State.triFault (s : State) (d reason : Nat) : Option Nat := ((s.triTests d).find? (fun e => e.1 == reason)).map (fun e => e.2)

/-- A template of a domain that is at fault under R158: with the word of its registers. -/
def State.tplFaults (s : State) (d t : Nat) : List (Bool × Nat) :=
  let b := s.tplBytes d t
  let opc := leAt b 0 1
  let res := s.tplResult d t
  [(!([1, 2, 3, 0xA, 0xB].contains opc) || (res && opc != 1) || leAt b 3 1 != 0, r_CAD_TPL t 0), (leAt b 56 4 == 0, r_CAD_TPL t 14),
   (leAt b 60 4 != 0, r_CAD_TPL t 15), ((s.word (pgCAD d) (r_CAD_TPL_CTL_W2 t)).toNat % 64 != 0, r_CAD_TPL_CTL_W2 t),
   (s.fld (pgCAD d) (f_CAD_TPL_CTL_W3_ARG_COUNT t) == 0 || 16 < s.fld (pgCAD d) (f_CAD_TPL_CTL_W3_ARG_COUNT t), r_CAD_TPL_CTL_W3 t),
   (res && s.resultTpl d != some t, r_CAD_TPL_CTL_W0 t)]

/-- Does a template name a panel that is neither reserved to the domain nor a SHARED one it may name (R160)? A Triptych channel has no SHARED
panel (R172). -/
def State.tplPanels (s : State) (d t : Nat) : Bool :=
  let mayShare := s.ctlOf d f_CAD_DOM_CTRL_SHARED_OK == 1 && !(s.ctlOf d f_CAD_DOM_CTRL_TRIPTYCH == 1 && s.resultTpl d == some t)
  (s.groupOf (s.domOwner d) (leAt (s.tplBytes d t) 52 4)).any (fun p =>
    !((s.reserved d).contains p || (mayShare && s.panelMode p == 0)))

/-- Is a panel RUNNING and RESERVED to the domain and its owner? -/
def State.reservedTo (s : State) (d p : Nat) : Bool :=
  s.running (pnlPage p) && s.panelMode p == 2 && s.panelDomain p == d && s.panelTenant p == s.domOwner d

/-- GAIN_UNSTABLE (R148): ALPHA in 1/65,536, BETA in 1/16,384. -/
def State.gainBad (s : State) (pg : Nat) : Bool :=
  let a := s.fld pg f_CAD_DOM_GAIN_ALPHA
  let b := s.fld pg f_CAD_DOM_GAIN_BETA
  a == 0 || b == 0 || 2 ^ 18 ≤ 4 * b + 2 * a

/-- A domain page's own tests (R148 to R168, R432). -/
def State.domTests (s : State) (d : Nat) : List (Option (Nat × Nat)) :=
  let pg := pgCAD d
  let us := fun (f : Fld) => s.fld pg f
  let bank := (s.dom d).shadow
  let tpls := (List.range 16).filter (fun t => s.tplValid d t)
  let tri := us f_CAD_DOM_CTRL_TRIPTYCH == 1
  let triAt := fun (r : Nat) => ((s.triFault d r).isSome, r_CAD_DOM_CTRL)
  let mine := s.reserved d
  let cad := fun (r : Nat) (w : Nat) => (((s.eptCheck d bank).any (fun e => e.1 == r)), w)
  let power := s.floorPower (fun x => x == stRUNNING || x == stCHECKING)
  [failAt 1 pg
    ([(us f_CAD_DOM_CTRL_SLIP_POLICY == 3, r_CAD_DOM_CTRL), triAt 1, (us f_CAD_DOM_CYCLE_COUNTS == 0, r_CAD_DOM_CYCLE),
      (s.word pg r_CAD_DOM_SLIP_TOL == 0#32, r_CAD_DOM_SLIP_TOL), (us f_CAD_DOM_RATE_MAX_RATE == 0, r_CAD_DOM_RATE),
      (us f_CAD_DOM_STANDSTILL_US == 0 || 10000000 < us f_CAD_DOM_STANDSTILL_US, r_CAD_DOM_STANDSTILL),
      (us f_CAD_DOM_HORIZON_US == 0 || 50000 < us f_CAD_DOM_HORIZON_US || us f_CAD_DOM_STANDSTILL_US < us f_CAD_DOM_HORIZON_US, r_CAD_DOM_HORIZON),
      (us f_CAD_DOM_REV_LIMIT_DEPTH == 0, r_CAD_DOM_REV_LIMIT),
      (us f_CAD_DOM_RECORD_BYTES == 0 || 64 < us f_CAD_DOM_RECORD_BYTES || 131072 < us f_CAD_DOM_RECORD_ADDR + us f_CAD_DOM_RECORD_BYTES, r_CAD_DOM_RECORD)] ++
     (bank.filter (fun e => e.2.action != 0 && e.2.rangeBad)).map (fun e => (true, e.2.badWord))),
   failAt 4 pg [(bank.any (fun e => e.2.action == 5 && cfValid e.2.d2 && (s.relCounter (s.domOwner d) (cfCounter e.2.d2)).isNone), r_CAD_EPT_DATA 2)],
   failAt 5 pg
    [((s.fld pg f_CAD_DOM_OUTS_TRIG &&& s.fld pg f_CAD_DOM_OUTS_RESULT) != 0 || s.outsMeet pg, r_CAD_DOM_OUTS),
     (us f_CAD_DOM_CTRL_OVERLAP == 1 && (s.resultCarts d).any (fun cs => cs.any (fun c => headMeetsTail c.image c.image)), r_CAD_DOM_CTRL)],
   failAt 6 pg (tpls.map (fun t => (descTimeout (parseDesc (s.tplBytes d t)), r_CAD_TPL t 14))),
   failAt 0xA pg (mine.map (fun p => ((s.panel p).lost, r_CAD_DOM_PANELS (p / 32)))),
   failAt 0xF pg [(s.capNow * 1000 < 620000 + power, r_CAD_DOM_CTRL)],
   failAt 0x40 pg
    ([triAt 0x40, (!tri && !mine.contains (us f_CAD_DOM_RECORD_PANEL), r_CAD_DOM_RECORD)] ++
     mine.map (fun p => (!s.reservedTo d p, r_CAD_DOM_PANELS (p / 32))) ++ tpls.map (fun t => (s.tplPanels d t, r_CAD_TPL t 13))),
   failAt 0x41 pg [(s.rateBad d bank, r_CAD_DOM_RATE)],
   failAt 0x42 pg [(s.gainBad pg, r_CAD_DOM_GAIN)],
   failAt 0x43 pg [cad 0x43 (r_CAD_EPT_DATA 0)],
   failAt 0x44 pg
    (match s.resultTpl d with
     | some t => [triAt 0x44, ((s.resultCarts d).isNone, r_CAD_TPL t 8)]
     | none => []),
   failAt 0x45 pg (triAt 0x45 :: tpls.flatMap (fun t => s.tplFaults d t)),
   failAt 0x46 pg [((s.eptRule d bank).isSome, r_CAD_EPT_DATA 2)]]

/-- VAR page 1 (R184, R188, R194). -/
def State.dipTests (s : State) : List (Option (Nat × Nat)) :=
  let pg := pgDIP
  let rs := s.dipDomains.flatMap (fun d => (List.range 4).map (fun r => (d, r)))
  let lim := fun (d r : Nat) => if s.regKind d r = 1 then 0x800000 else 2 ^ 48
  [failAt 1 pg
    (rs.map (fun x => (s.regKind x.1 x.2 == 3, r_VAR_DIP_SNAP_W0 x.1 x.2)) ++
     rs.map (fun x => (s.regKind x.1 x.2 != 0 && lim x.1 x.2 < s.regAddr x.1 x.2 + s.regBytes x.1 x.2, r_VAR_DIP_SNAP_W3 x.1 x.2)) ++
     s.dipDomains.map (fun d => (decide (0x400000 < s.regTotal d), r_VAR_DIP_SNAP_W3 d 3))),
   failAt 0xB pg
    (rs.flatMap (fun x => if s.regKind x.1 x.2 = 0 then [] else
      [(s.regAddr x.1 x.2 % 64 != 0, r_VAR_DIP_SNAP_W1 x.1 x.2), (s.regBytes x.1 x.2 % 64 != 0, r_VAR_DIP_SNAP_W3 x.1 x.2)])),
   failAt 5 pg [(s.outsMeet pg, r_VAR_DIP_CTRL)],
   failAt 0x40 pg
    [(s.dipDomains.any (fun d =>
      let counts := s.ctlOf d f_CAD_DOM_CYCLE_COUNTS
      !(counts == 1 || (s.ctlOf d f_CAD_DOM_CTRL_START == 1 &&
        s.fld (pgREF (s.ctlOf d f_CAD_DOM_CTRL_CHANNEL)) f_CAD_REF_INDEX_COUNTS_PER_REV % counts == 0))), r_VAR_DIP_DOMAINS)]]

/-- The HBM page (R308). -/
def State.hbmTests (s : State) : List (Option (Nat × Nat)) :=
  let r := s.hbmClaim
  [failAt 1 pgHBM [(196608 ≤ r.1, r_HBM_RSV_BASE), (r.2 < 64 || 16384 < r.2 || (r.1 < 196608 && 196608 < r.1 + r.2), r_HBM_RSV_SIZE)],
   failAt 5 pgHBM [(s.framesTaken r [kMODULE], r_HBM_RSV_SIZE)]]

/-- The FRS page (R304, R305, R310). -/
def State.frsTests (s : State) : List (Option (Nat × Nat)) :=
  let ps := ((List.range 16).drop 5).filter (fun p => s.fld pgFRS (f_FRS_PART_VALID p) == 1)
  let mib := fun (p : Nat) => s.fld pgFRS (f_FRS_PART_MIB p)
  let kind := fun (p : Nat) => s.fld pgFRS (f_FRS_PART_KIND p)
  let lg := s.fld pgFRS f_FRS_RING_CFG_LOG2
  [failAt 1 pgFRS
    (ps.map (fun p => (kind p < 4 || 6 < kind p || mib p == 0 || mib p % 64 != 0, r_FRS_PART p)) ++
     [(decide (5716544 < (ps.map mib).foldl (· + ·) 0), r_FRS_PART (ps.getLast?.getD 15)), (lg < 4 || 12 < lg, r_FRS_RING_CFG)]),
   failAt 0xB pgFRS [((s.word pgFRS r_FRS_RING_BASE_LO).toNat % (32 * 2 ^ lg) != 0, r_FRS_RING_BASE_LO)]]

/-- The GLZ page (R248). -/
def State.glzTests (s : State) : List (Option (Nat × Nat)) :=
  let gs := (List.range 8).filter s.geoValid
  let mt := (s.fld pgGLZ f_GLZ_META_BASE_BASE, 48 + s.fld pgGLZ f_GLZ_LEAVES_UNITS)
  let wBase := fun (g : Nat) (l : Bool) => if l then r_GLZ_GEO_LOFT_BASE g else r_GLZ_GEO_HBM_BASE g
  let wCount := fun (g : Nat) (l : Bool) => if l then r_GLZ_GEO_LOFT_COUNT g else r_GLZ_GEO_HBM_COUNT g
  let pools := gs.flatMap (fun g => [(g, false), (g, true)])
  let past := fun (x : Nat × Bool) => decide ((if x.2 then 0x80000 else 196608) < (s.glzPool x.1 x.2).1 + (s.glzPool x.1 x.2).2)
  let ids := fun (x : Nat × Bool) => ((s.pool x.1 x.2).1, (s.pool x.1 x.2).2.1)
  let own := [kPOOL, kMETA]
  [failAt 1 pgGLZ
    ([(decide (196608 ≤ mt.1), r_GLZ_META_BASE),
      (s.fld pgGLZ f_GLZ_LEAVES_UNITS < 64 || 2048 < s.fld pgGLZ f_GLZ_LEAVES_UNITS || (mt.1 < 196608 && 196608 < mt.1 + mt.2), r_GLZ_LEAVES)] ++
     gs.map (fun g => (decide (32768 < s.geoKeep g), r_GLZ_GEO_EVICT g)) ++ pools.map (fun x => (past x, wBase x.1 x.2))),
   failAt 5 pgGLZ
    ((s.framesTaken mt own, r_GLZ_LEAVES) ::
     pools.map (fun x => (s.framesTaken (s.glzPool x.1 x.2) own || rangesMeet mt (s.glzPool x.1 x.2) ||
       pools.any (fun y => decide (y.1 < x.1) && y.2 == x.2 && rangesMeet (s.glzPool y.1 y.2) (s.glzPool x.1 x.2)), wBase x.1 x.2))),
   failAt 0x40 pgGLZ
    (pools.map (fun x => (decide (0 < (ids x).2) && (decide (0xFFFFFF < (ids x).1 + (ids x).2) ||
      pools.any (fun y => decide (y.1 < x.1) && y.2 == x.2 && rangesMeet (ids y) (ids x))), wCount x.1 x.2))),
   failAt 0x41 pgGLZ
    (gs.flatMap (fun g =>
      [(s.geoLayers g == 0 || 256 < s.geoLayers g || s.geoHeads g == 0 || 64 < s.geoHeads g || s.geoDim g == 0 || 512 < s.geoDim g, r_GLZ_GEO_SHAPE g),
       (decide (1 ≤ s.geoKeep g) && decide (s.geoKeep g ≤ 11), r_GLZ_GEO_EVICT g),
       ((s.word pgGLZ (r_GLZ_GEO_DECAY g)).toNat == 0 || 0x3F800000 < (s.word pgGLZ (r_GLZ_GEO_DECAY g)).toNat, r_GLZ_GEO_DECAY g)]))]

/-- A tenant's SMP view (R226). -/
def State.smpTTests (s : State) (page t : Nat) : List (Option (Nat × Nat)) :=
  let rs := (List.range 16).filter (fun r => s.fld page (f_SMP_T_RING_CFG_VALID r) == 1)
  let lg := fun (r : Nat) => s.fld page (f_SMP_T_RING_CFG_LOG2_SIZE r)
  [failAt 1 page (rs.map (fun r => (lg r < 6 || 16 < lg r, r_SMP_T_RING_CFG r))),
   failAt 0xB page (rs.map (fun r => ((s.word page (r_SMP_T_RING_BASE_LO r)).toNat % (2 ^ lg r * 16) != 0, r_SMP_T_RING_BASE_LO r))),
   failAt 0xC page [(s.fld pgSMP (f_SMP_SERVE_TOKENS t) * 256 < (rs.map (fun r => 2 ^ lg r)).foldl (· + ·) 0, r_SMP_T_RING_CFG (rs.getLast?.getD 0))]]

/-- A Mural port page (R373). -/
def State.portTests (s : State) (pg : Nat) : List (Option (Nat × Nat)) :=
  [failAt 7 pg [(creditsBad [s.fld pg f_MUR_PORT_VC_VC0, s.fld pg f_MUR_PORT_VC_VC1, s.fld pg f_MUR_PORT_VC_VC2] 256 8, r_MUR_PORT_VC)]]

/-- The route page: the tests of a commit, on the shadow table (R365). -/
def State.routeTests (s : State) : List (Option (Nat × Nat)) :=
  let r := s.routeRefusal s.mur.rtShadow
  [failAt 0x40 pgRT [(r == some 0x40, r_MUR_RT_DATA)], failAt 0x41 pgRT [(r == some 0x41, r_MUR_RT_DATA)]]

/-- Tests 5 to 10 of a page. -/
def State.kindTests (s : State) (page : Nat) : List (Option (Nat × Nat)) :=
  match pageKind page with
  | .pnl => s.pnlTests (pageInstance page)
  | .cnv => s.cnvTests page
  | .cadRef => s.refTests page
  | .cadDom => s.domTests (pageIndex page)
  | .dip => s.dipTests
  | .hbm => s.hbmTests
  | .frs => s.frsTests
  | .glz => s.glzTests
  | .smpT => (match tenantOfPage page with | some (t, _) => s.smpTTests page t | none => [])
  | .murPort => s.portTests page
  | .murRt => s.routeTests
  | _ => []

/-! ### The check (R43) -/

/-- Is the page a panel of a quad whose clearing has not ended (R81)? -/
def State.quadUncleared (s : State) (page : Nat) : Bool :=
  pageKind page == .pnl && smGet false s.pow.uncleared (8 * (pageInstance page / 32) + s.quadOf (pageInstance page))

/-- Checked registers whose last write put a non-zero value into a reserved field (R37). -/
def State.rsvTest (s : State) (page : Nat) : Option (Nat × Nat) :=
  failAt 2 page ((s.rsv.filter (fun e => decide (e.1 / 1024 = page))).map
    (fun e => (e.2 && (rsvOf (pageKind page) (e.1 % 1024)).any (fun r => r.2), e.1 % 1024)))

/-- The check of a page: REASON and DETAIL of the first failure in R43's order, none where every test passes. -/
def State.pageCheck (s : State) (page : Nat) : Option (Nat × Nat) :=
  ([failAt 8 page [(s.fld pgSEC f_SEC_LC_LIFECYCLE == 4, hCTRL)],
    failAt 9 page [(!s.domainOn page || s.quadUncleared page, hCTRL)],
    s.depTest page, s.rsvTest page] ++ s.kindTests page).findSome? id

/-! ### The tenant check (R318) -/

/-- A register at fault in a tenant check, as HIF_TEN_DETAIL shows it. -/
def tenDet (page w : Nat) : Nat := blkType (pageKind page) * 65536 + detOf page w

/-- The failing register at the lowest address: (fails, page, word). -/
def tenFail (reason : Nat) (l : List (Bool × Nat × Nat)) : Option (Nat × Nat) :=
  let bad := l.filter (fun e => e.1)
  ((bad.map (fun e => e.2.1 * 1024 + e.2.2)).min?).map (fun k => (reason, tenDet (k / 1024) (k % 1024)))

/-- Tenants whose configuration counts against the check of tenant t: enabled ones, those CHECKING only since an earlier command. -/
def State.countedTenants (s : State) (t : Nat) : List Nat :=
  (List.range 33).filter (fun u => u != t && ((s.tenant u).state == stRUNNING || (s.tenant u).state == stQUIESCING ||
    ((s.tenant u).state == stCHECKING && (s.tenant u).order < (s.tenant t).order)))

/-- Frames of a tenant's replay store and save area within the module-reserved region: first frame and number. -/
def State.replayArea (s : State) (t : Nat) : Nat × Nat :=
  (s.fld (hmTEN t) f_HIF_TEN_REPLAY_FRAME, (s.fld (hmTEN t) f_HIF_TEN_CFG_RINGS + 7) / 8)
def State.saveArea (s : State) (t : Nat) : Nat × Nat :=
  (s.fld (hmTEN t) f_HIF_TEN_SAVE_FRAME, 6 * ((List.range 128).filter (s.inMask t)).length)

/-- A sum over a tenant and those that count against it. -/
def State.quotaSum (s : State) (t : Nat) (f : Nat → Nat) : Nat := ((t :: s.countedTenants t).map f).foldl (· + ·) 0

/-- Reserved fields that the last write of a tenant's configuration left set, as (set, page, word). -/
def State.tenRsv (s : State) (t : Nat) : List (Bool × Nat × Nat) :=
  let at' := fun (home page w : Nat) => (smGet false s.rsv (home * 1024 + w), page, w)
  ((List.range 8).map (fun i => at' (hmTEN t) pgTEN (r_HIF_TEN_CFG + i))) ++
  [at' pgSYN pgSYN (r_SYN_ALLOC t), at' pgGLZ pgGLZ (r_GLZ_QUOTA_HBM t), at' pgGLZ pgGLZ (r_GLZ_QUOTA_LOFT t), at' pgSMP pgSMP (r_SMP_SERVE t),
   at' (pgVCE 0) (pgVCE 0) (r_VCE_QUOTA t), at' (pgVCE 1) (pgVCE 1) (r_VCE_QUOTA t)]

/-- Does the lifecycle state permit a tenant (R395)? -/
def lcAllows (lc t : Nat) : Bool := if lc = 4 then false else lc == 2 || t == 0

/-- The tenant check: REASON and HIF_TEN_DETAIL of the first failure. -/
def State.tenantCheck (s : State) (t : Nat) : Option (Nat × Nat) :=
  let h := hmTEN t
  let cfg := fun (f : Fld) => s.fld h f
  let panels := (List.range 128).filter (s.inMask t)
  let rp := s.replayArea t
  let sv := s.saveArea t
  let size := s.fld pgHBM f_HBM_RSV_SIZE_FRAMES
  let others := s.countedTenants t
  let areas := others.flatMap (fun u => [s.replayArea u, s.saveArea u])
  let syn := fun (u : Nat) => (s.fld pgSYN (f_SYN_ALLOC_BASE u), s.fld pgSYN (f_SYN_ALLOC_COUNT u))
  let sum := s.quotaSum t
  [tenFail 8 [(!lcAllows (s.fld pgSEC f_SEC_LC_LIFECYCLE) t, pgHIF0, hCTRL)],
   tenFail 3 [(!s.running pgTEN || !s.running pgEAS || (t != 0 && (!s.hif.vfEnable || s.hif.numVfs < t || !s.tenantRunning 0)), pgHIF0, hCTRL),
              (t != 0 && !s.cqOn 0 s.logCq, pgHIF0, r_HIF_LOG)],
   tenFail 2 (s.tenRsv t),
   tenFail 1
    [(7936 < cfg f_HIF_TEN_CFG_TAGS || 64 < cfg f_HIF_TEN_CFG_RINGS || 64 < cfg f_HIF_TEN_CFG_CQS, pgTEN, r_HIF_TEN_CFG),
     (cfg f_HIF_TEN_QUANTUM_US < 100 || 100000 < cfg f_HIF_TEN_QUANTUM_US, pgTEN, r_HIF_TEN_QUANTUM),
     (4096 < (syn t).1 + (syn t).2, pgSYN, r_SYN_ALLOC t)],
   tenFail 4
    (panels.map (fun p => (s.panelMode p != 0 && s.panelTenant p != t, pgTEN, r_HIF_TEN_PANELS (p / 32))) ++
     (List.range 64).flatMap (fun k => (List.range 4).map (fun i =>
       ((s.word (hmSET t) (r_HIF_SET k i) &&& ~~~(s.word h (r_HIF_TEN_PANELS i))) != 0#32, pgSET, r_HIF_SET k i)))),
   tenFail 0xC
    [(7936 < sum (fun u => s.fld (hmTEN u) f_HIF_TEN_CFG_TAGS), pgTEN, r_HIF_TEN_CFG),
     (rp.2 != 0 && size < rp.1 + rp.2, pgTEN, r_HIF_TEN_REPLAY), (sv.2 != 0 && size < sv.1 + sv.2, pgTEN, r_HIF_TEN_SAVE),
     (4096 < sum (fun u => s.fld pgSMP (f_SMP_SERVE_SEQS u)) || 4096 < sum (fun u => s.fld pgSMP (f_SMP_SERVE_TOKENS u)) ||
       cfg f_HIF_TEN_CFG_TAGS < 64 * s.fld pgSMP (f_SMP_SERVE_TAGS t), pgSMP, r_SMP_SERVE t),
     (256 < sum (fun u => s.fld (pgVCE 0) (f_VCE_QUOTA_CONTEXTS u)), pgVCE 0, r_VCE_QUOTA t),
     (256 < sum (fun u => s.fld (pgVCE 1) (f_VCE_QUOTA_CONTEXTS u)), pgVCE 1, r_VCE_QUOTA t)],
   tenFail 5
    [(rp.2 != 0 && (rp.1 < 33 || areas.any (fun a => rangesMeet a rp)), pgTEN, r_HIF_TEN_REPLAY),
     (sv.2 != 0 && (sv.1 < 33 || rangesMeet rp sv || areas.any (fun a => rangesMeet a sv)), pgTEN, r_HIF_TEN_SAVE),
     (others.any (fun u => rangesMeet (syn u) (syn t)), pgSYN, r_SYN_ALLOC t)]].findSome? id

end Sys2Proof.Machine
end

