-- ==== Sys2Proof/Machine/Ctrl.lean ====
section
/-! DEFINITION. BLK_CTRL and the states of a page (R32, R33, R35): enables, disables, quiescing, SOFT_RESET, LOCK, and what enters and leaves service with a page. -/

namespace Sys2Proof.Machine

open Sys2Proof

/-! ### Output claims (R44, R387) -/

/-- The outputs claimed: by pages that are CHECKING, RUNNING or QUIESCING, and by fenced and faulted pages that held them before. -/
def State.claimsNow (s : State) : Nat :=
  let held := s.fld pgMGT f_MGT_OUT_STATE_CLAIMED
  (pgDIP :: (List.range 16).map pgCAD).foldl (fun m q =>
    let c := s.outClaim q
    if s.st q = stCHECKING ∨ s.st q = stRUNNING ∨ s.st q = stQUIESCING then m ||| c
    else if s.st q = stFENCED ∨ s.st q = stFAULT then m ||| (held &&& c) else m) 0

/-- Brings MGT_OUT_STATE.CLAIMED up to date: an output whose claim ends takes its MGT_OUT_LEVEL bit, and one that VAR page 1 claims for ROLE_OUT is
low until the module is ACTIVE (R181). -/
def State.claimsShow (s : State) : State :=
  let old := s.fld pgMGT f_MGT_OUT_STATE_CLAIMED
  let new := s.claimsNow
  let taken := (old ||| new) - old
  if old = new then s else ((s.claimOuts ((old ||| new) - new) false).claimOuts taken true).driveOuts (taken &&& s.outClaim pgDIP) 0

/-! ### What enters and leaves service with a page -/

/-- Returns the frames of a KIND to FREE, zeroed first where the rule says so. -/
def State.releaseFrames (s : State) (kinds : List Nat) (zero : Bool) : State :=
  ((s.mem.fot.filter (fun e => kinds.contains (e.2 % 16))).map (fun e => e.1)).foldl
    (fun (a : State) f => (if zero then a.zeroFrame f else a).freeFrame f) s

/-- The GLZ page claims its frames and starts with every pool free (R228, R247, R283); one readmitted keeps what it held. -/
def State.glzEnter (s : State) : State :=
  if s.mem.fot.any (fun e => e.2 % 16 == kMETA) then s
  else
    let put := fun (a : State) (r : Nat × Nat) (k : Nat) => a.setFrames r.1 r.2 k 0
    let s1 := put s (s.fld pgGLZ f_GLZ_META_BASE_BASE, 48 + s.fld pgGLZ f_GLZ_LEAVES_UNITS) kMETA
    ((List.range 8).foldl (fun (a : State) g => put (put a (a.glzPool g false) kPOOL) (a.glzPool g true) kPOOL) s1).glzStart

/-- The GLZ page leaves service, and every sequence with it. -/
def State.glzLeave (s : State) : State :=
  let s1 : State := (s.srv.seqs.map (fun e => e.1)).foldl (fun (a : State) k => a.freeSeq k true) s
  (s1.dropPrefixes (fun _ => true) true).releaseFrames [kPOOL, kMETA] false

/-- A tenant's SMP view takes its rings into service, or out of it (R222, R226): its token slots are free again. -/
def State.smpView (s : State) (page t : Nat) : State :=
  let mine := fun (k : Nat) => k / 16 == t
  let n := fun (m : SMap Nat) => ((m.filter (fun e => mine e.1)).map (fun e => e.2)).foldl (· + ·) 0
  let s1 := (s.move pgSMP 1 .held .free (n s.srv.slotsHeld)).move pgSMP 1 .transit .free (n s.srv.slotsUsed)
  let drop := fun (m : SMap Nat) => m.filter (fun e => !mine e.1)
  let s2 := { s1 with srv := { s1.srv with slotsHeld := drop s1.srv.slotsHeld, slotsUsed := drop s1.srv.slotsUsed, written := drop s1.srv.written } }
  (List.range 16).foldl (fun (a : State) r => a.setWord page (r_SMP_T_RING_PTR r) 0) s2

/-- A page enters RUNNING from its check. -/
def State.pageEnter (s : State) (page : Nat) : State :=
  match pageKind page with
  | .hbm => s.setFrames s.hbmClaim.1 s.hbmClaim.2 kMODULE 0
  | .glz => s.glzEnter
  | .frs => s.frsEnter
  | .cadDom => ((s.domStart (pageIndex page)).votersGone (pageIndex page)).showTrk
  | .cadRef => s.refStart (page - pgREF 0)
  | .dip => s.dipStart
  | .murPort => s.portStart (page - pgPORT 0)
  | .murRt => s.routeStart
  | .smpT => (match tenantOfPage page with | some (t, _) => s.smpView page t | none => s)
  | _ => s

/-- A page leaves RUNNING for QUIESCING. -/
def State.pagePause (s : State) (page : Nat) : State :=
  match pageKind page with
  | .cadDom => s.domLeave (pageIndex page)
  | .murPort => if s.fld page fENABLE = 0 then s.portStop (page - pgPORT 0) else s
  | _ => s

/-- The 32 rings of a ring configuration page, from ring r on, are disabled with it (R322). -/
def State.ringsOff (s : State) (t r : Nat) : State := (List.range 32).foldl (fun (a : State) i => a.ringOff t (r + i)) s

/-- Contexts of one engine are closed as by CLOSE. -/
def State.vCloseEngine (s : State) (e : Nat) : State := (s.vctxs e).foldl (fun (a : State) x => a.vClose e x.1 none true) s

/-- What a page held is released as it enters OFF, or REFUSED after a readmission. -/
def State.pageLeave (s : State) (page : Nat) : State :=
  match pageKind page with
  | .hbm => s.releaseFrames [kMODULE] true
  | .glz => s.glzLeave
  | .cadDom => s.showTrk.claimsShow
  | .dip => s.claimsShow
  | .ing | .pnl => s.strPageOff page
  | .vce => (s.vCloseEngine (pageInstance page)).strPageOff page
  | .murPort => s.portStop (page - pgPORT 0)
  | .smpT => (match tenantOfPage page with | some (t, _) => s.smpView page t | none => s)
  | .ringCfg => (match tenantOfPage page with | some (t, k) => s.ringsOff t (32 * (k - 1)) | none => s)
  | _ => s

/-! ### Checks start and end (R42 to R45, R471) -/

/-- HIF page 2 mirrors page 1's BLK_CTRL and BLK_STATE (R339). -/
def State.mirrorTen (s : State) (page : Nat) : State :=
  if page = pgTEN then (s.setWord pgSET hCTRL (s.word pgTEN hCTRL)).setWord pgSET hSTATE (s.word pgTEN hSTATE) else s

/-- A check starts: REASON and DETAIL are 0, the claims are registered, and the write's place is noted (R44). -/
def State.checkStart (s : State) (page : Nat) : State :=
  let s1 := ((s.setFld page fREASON 0).setFld page fDETAIL 0).setSt page stCHECKING
  let s2 := { s1 with hif := { s1.hif with orders := s1.hif.orders + 1, enOrder := smSet 0 s1.hif.enOrder page (s1.hif.orders + 1),
                                           drained := smSet false s1.hif.drained page false } }
  s2.claimsShow.mirrorTen page

/-- VAR_TRI_REFUSE records the Triptych entry test that refused a domain (R172). -/
def State.triRecord (s : State) (page reason det : Nat) : State :=
  if pageKind page = .cadDom ∧ det = detOf page r_CAD_DOM_CTRL then
    (match s.triFault (pageIndex page) reason with
     | some w => ((s.setFld pgVAR0 f_VAR_TRI_REFUSE_VALID 1).setFld pgVAR0 f_VAR_TRI_REFUSE_DOMAIN (pageIndex page)).setFld pgVAR0
         f_VAR_TRI_REFUSE_WORD w
     | none => s)
  else s

/-- The READMITTED entry closes the record of a page whose check after a fence has ended, with its result and REASON (R428, R435). -/
def State.readmitClose (s : State) (page reason : Nat) : State :=
  match s.openRec page with
  | some (i, r) =>
    if r.fenced then
      let s1 := s.closeRec i
      s1.journal (s1.mkRec logREADMITTED r.cls false page r.source r.merge r.addr r.syn [if reason = 0 then 0 else 1, reason])
    else s
  | none => s

/-- A check ends, its tests applied to the state as it is now: RUNNING, or REFUSED with ENABLE cleared. -/
def State.checkEnd (s : State) (page : Nat) : State :=
  if s.st page ≠ stCHECKING then s
  else match s.pageCheck page with
    | none => (((s.setSt page stRUNNING).pageEnter page).readmitClose page 0).mirrorTen page
    | some (reason, det) =>
      let s1 := ((s.setFld page fENABLE 0).setFld page fREASON reason).setFld page fDETAIL det
      ((((s1.setSt page stREFUSED).triRecord page reason det).pageLeave page).claimsShow.readmitClose page reason).mirrorTen page

/-! ### Writes of BLK_CTRL -/

/-- Pages whose ENABLE, QUIESCE and SOFT_RESET writes are discarded (R46's MOD, R337, R394, R420, R445, R446). -/
def fixedPage (page : Nat) : Bool := alwaysRunning page || page == pgEAS

/-- QUIESCING begins. -/
def State.quiesceStart (s : State) (page : Nat) : State :=
  let s1 := s.setSt page stQUIESCING
  (({ s1 with hif := { s1.hif with drained := smSet false s1.hif.drained page false } }).pagePause page).mirrorTen page

/-- A change of ENABLE, with the QUIESCE bit of the same write. DESIGN CHOICE (log entry 17): a write that sets QUIESCE together with ENABLE
0→1 starts the check and holds QUIESCE as written; when the check passes, the page enters RUNNING with QUIESCE 1, and only a later write of
QUIESCE 1 takes it to QUIESCING. The spec does not say what the held bit does. -/
def State.enableWrite (s : State) (page : Nat) (on quiesce : Bool) : State :=
  let st := s.st page
  let put := fun (a : State) => (a.setFld page fENABLE (if on then 1 else 0)).setFld page fQUIESCE (if quiesce then 1 else 0)
  if on then
    (if (st = stOFF ∨ st = stREFUSED) ∧ !s.gated page then (put s).checkStart page else s.discard page)
  else if st = stCHECKING then (((put s).setSt page stOFF).pageLeave page).claimsShow.mirrorTen page
  else if st = stRUNNING ∧ !s.hasDependants page then (put s).quiesceStart page
  else s.discard page

/-- A QUIESCING page returns to RUNNING without a check: a domain starts as at every entry to RUNNING (R144, R168). -/
def State.pageResume (s : State) (page : Nat) : State :=
  match pageKind page with
  | .cadDom | .cadRef => s.pageEnter page
  | _ => s

/-- Does a write of QUIESCE that leaves ENABLE as it is move the page (R32's table)? -/
def State.quiesceMoves (s : State) (page : Nat) (q : Bool) : Bool :=
  if q then s.st page == stRUNNING && !s.heldBy page
  else s.st page == stQUIESCING && s.fld page fENABLE == 1 && s.fld page fQUIESCE == 1 && !s.gated page

/-- A write of QUIESCE that leaves ENABLE as it is: the two moves of R32's table; any other is discarded. -/
def State.quiesceWrite (s : State) (page : Nat) (q : Bool) : State :=
  if !s.quiesceMoves page q then s.discard page
  else if q then (s.setFld page fQUIESCE 1).quiesceStart page
  else ((((s.setFld page fQUIESCE 0).setSt page stRUNNING).pageResume page).mirrorTen page)

/-- A page's registers return to their reset values; LOCK and what it froze stay until module reset, and what the spare map, Fresco and the fuses
hold reads as they hold it. -/
def State.regsReset (s : State) (page : Nat) : State :=
  let lock := s.fld page fLOCK == 1
  let keep := fun (w : Nat) => keepReg page w || (lock && decide (64 ≤ w) && (regRow (pageKind page) w).any (fun r => r.rwl != 0))
  let mine := fun (k : Nat) => decide (k / 1024 = page)
  let s1 := { s with regs := s.regs.filter (fun e => !mine e.1 || keep (e.1 % 1024)),
                     wide := s.wide.filter (fun e => !mine e.1 || keepWide page (e.1 % 1024)), rsv := s.rsv.filter (fun e => !mine e.1) }
  if lock then s1.setFld page fLOCK 1 else s1

/-- Registers of a page that lie at the homes of a selector. -/
def homesOf (page : Nat) : List Nat :=
  match pageKind page with
  | .ing => (List.range 64).map hmSTR
  | .murJob => (List.range 64).map hmJOB
  | _ => []

/-- What a page keeps outside its registers and loses at SOFT_RESET. -/
def State.blockReset (s : State) (page : Nat) : State :=
  let s1 := s.pageLeave page
  match pageKind page with
  | .cadDom => s1.setDom (pageIndex page) domReset
  | .cadRef => s1.setRef (page - pgREF 0) refReset
  | .murJob => (List.range 33).foldl (fun (a : State) t => a.jobsShut t) s1
  | .murRt => { s1 with mur := { s1.mur with rtShadow := [], rtActive := [] } }
  | .stu =>
    (List.range 32).foldl (fun (a : State) n =>
      if a.fld pgSTU (f_STU_BANK_OWNER n) = ownerNone then a
      else (a.memZero (studioBase + n * 0x400000) 0x400000).move pgSTU 0 .held .free 1) s1
  | _ => s1

/-- SOFT_RESET (R32): from OFF, REFUSED, FENCED, or a FAULT that is not latched for a FATAL error. -/
def State.softReset (s : State) (page : Nat) : State :=
  let st := s.st page
  if st = stOFF ∨ st = stREFUSED ∨ st = stFENCED ∨ (st = stFAULT ∧ !smGet false s.flt.fatal page) then
    let doze := s.fld page fCURRENT == 1
    let s1 := (homesOf page).foldl (fun (a : State) h => a.regsReset h) ((s.blockReset page).regsReset page)
    let s2 := if st = stOFF then s1 else s1.event page evSTATE_CHANGE
    let s3 := if doze then (s2.setFld page fCURRENT 1).setFld page fTRANSITION 1 else s2
    (s3.setRcv page { s3.rcv page with latched := false }).claimsShow.mirrorTen page
  else s.discard page

/-- A write of BLK_CTRL. LOCK acts by itself; beside it, and where nothing of R32's table acts, the write is discarded (log entry 17). -/
def State.ctrlWrite (s : State) (page : Nat) (v : Word) : State :=
  let s1 := s.noteRsv page hCTRL v
  let tp := (tenantOfPage page).isSome
  let e := bitOf v 0
  let q := bitOf v 1
  let same := fun (a : State) => e == (a.fld page fENABLE == 1)
  if pageKind page = .tnt ∨ pageKind page = .hifSet then s1
  else if bitOf v 2 && !tp && !fixedPage page then s1.softReset page
  else
    let locks := bitOf v 3 && !tp && s1.fld page fLOCK == 0
    let s2 := if locks then s1.setFld page fLOCK 1 else s1
    let still := same s2 && q == (s2.fld page fQUIESCE == 1)
    if locks && still && !bitOf v 2 then s2
    else if fixedPage page then s2.discard page
    else if same s2 then s2.quiesceWrite page q
    else s2.enableWrite page e q

/-- The word that BLK_CTRL reads, as a write that changes one bit of it writes it back. -/
def State.ctrlOf (s : State) (page : Nat) : Nat := s.fld page fENABLE + 2 * s.fld page fQUIESCE

/-- A write of BLK_CTRL made of what it reads and a bit set or cleared. -/
def State.ctrlBit (s : State) (a : Acc) (f : Nat → Nat) : State :=
  s.access a 1#32 (fun page s1 => s1.ctrlWrite page (BitVec.ofNat 32 (f (s1.ctrlOf page))))

/-- ENABLE. -/
def execEnable (a : Acc) (s : State) : Host.Outcome State Fault Refusal := .next (s.ctrlBit a (fun c => c ||| 1))

/-- DISABLE. -/
def execDisable (a : Acc) (s : State) : Host.Outcome State Fault Refusal := .next (s.ctrlBit a (fun c => c / 2 * 2))

/-- QUIESCE. -/
def execQuiesce (a : Acc) (s : State) : Host.Outcome State Fault Refusal := .next (s.ctrlBit a (fun c => c ||| 2))

/-- QUIESCE_CLEAR. -/
def execQuiesceClear (a : Acc) (s : State) : Host.Outcome State Fault Refusal := .next (s.ctrlBit a (fun c => c % 2))

/-- SOFT_RESET. -/
def execSoftReset (a : Acc) (s : State) : Host.Outcome State Fault Refusal := .next (s.ctrlBit a (fun c => c ||| 4))

/-- LOCK. -/
def execLockPage (a : Acc) (s : State) : Host.Outcome State Fault Refusal := .next (s.ctrlBit a (fun c => c ||| 8))

/-! ### Draining (R33) -/

/-- Are no units of a page's ledger held or in transit? -/
def State.unheld (s : State) (page i : Nat) : Bool := (s.ledger page i).held + (s.ledger page i).transit == 0

/-- Has the last unit of a QUIESCING page's work ended? With ENABLE 0 a VCE page waits for its contexts, a Mural port for its supply. -/
def State.workEnded (s : State) (page : Nat) : Bool :=
  let off := s.fld page fENABLE == 0
  let ops := fun (l : List Nat) => s.ops.ops.any (fun e => e.2.phase == .issued && l.contains e.2.d.opcode)
  match pageKind page with
  | .pnl =>
    let x := s.panel (pageInstance page)
    !s.stepRuns (pageInstance page) && x.ports.isEmpty && !x.substing && (!off || x.work.isEmpty)
  | .cnv => (s.canvas (pageInstance page)).moves == 0
  | .cadDom => !(s.ops.ops.any (fun e => e.2.cad && e.2.ring == pageIndex page))
  | .vce =>
    let e := pageInstance page
    (smFind s.vce.dec e).isNone && (smFind s.vce.enc e).isNone && (!off || (s.vctxs e).isEmpty)
  | .frs => s.mem.frsCmds.isEmpty
  | .glz => !ops [4, 5, 6, 0x10] && s.srv.moves.isEmpty
  | .smp => s.srv.jobs.isEmpty
  | .stu => s.mem.hand.isEmpty && (smFind s.mem.march 0).isNone
  | .hbm => (smFind s.mem.march 1).isNone && s.mem.repairs.isEmpty
  | .lft => (smFind s.mem.march 2).isNone
  | .mmu => s.hif.cmd.isNone
  | .mur0 => s.mur.reqs.isEmpty
  | .murPort =>
    let x := smFind s.mur.ports (page - pgPORT 0)
    (x.all (fun y => y.queue.isEmpty && y.sent.isEmpty && y.trans.isNone)) && (!off || s.fld page f_MUR_PORT_STATUS_POWER == 2)
  | .murRt => s.fld pgRT f_MUR_RT_STATUS_OLD_LIVE == 0
  | .ing => s.unheld page 0 && !s.ing.streams.any (fun e => e.2.busy)
  | .dip => s.unheld page 0
  | .syn => s.unheld page 1
  | .cqPage => (match tenantOfPage page with
      | some (t, _) => (List.range 64).all (fun q => (smFind s.ops.cqs (t * 64 + q)).all (fun c => c.due.isEmpty))
      | none => true)
  | .smpT => (match tenantOfPage page with
      | some (t, _) => !(s.srv.jobs.any (fun e => e.2.tenant == t))
      | none => true)
  | _ => true

/-- A page is taken out of service whatever depends on it, as a disable that cannot be refused takes it (R331). -/
def State.forceOut (s : State) (page : Nat) : State :=
  let off := fun (a : State) => a.setFld page fENABLE 0
  if s.st page = stCHECKING then ((((off s).setSt page stOFF).pageLeave page).claimsShow).mirrorTen page
  else if s.st page = stRUNNING then (off s).quiesceStart page
  else if s.st page = stQUIESCING then off s
  else s

/-- Panels that are RESERVED to domain d for tenant t. -/
def State.reservedFor (s : State) (d t : Nat) : List Nat :=
  (List.range 128).filter (fun p => s.panelMode p == 2 && s.panelDomain p == d && s.panelTenant p == t)

/-- A domain of a tenant that is being disabled has entered OFF: its panels' pages are disabled (R331). -/
def State.pnlFollow (s : State) (page : Nat) : State :=
  let t := s.fld page f_CAD_DOM_CTRL_OWNER
  if pageKind page = .cadDom ∧ s.writesOff t then
    (s.reservedFor (pageIndex page) t).foldl (fun (a : State) p => a.forceOut (pnlPage p)) s
  else s

/-- The last unit of work has ended: EVT_RAW.QUIESCED is set, and a page with ENABLE 0 enters OFF. -/
def State.drainEnd (s : State) (page : Nat) : State :=
  if s.st page ≠ stQUIESCING ∨ !s.workEnded page then s
  else
    let s1 := if smGet false s.hif.drained page then s
      else ({ s with hif := { s.hif with drained := smSet false s.hif.drained page true } }).event page evQUIESCED
    if s1.fld page fENABLE = 1 then s1
    else
      let s2 := { s1 with hif := { s1.hif with drained := smSet false s1.hif.drained page false } }
      (((((s2.setFld page fQUIESCE 0).setSt page stOFF).pageLeave page).claimsShow).mirrorTen page).pnlFollow page

/-- A page that shows another's STATE and has no check, drain or fence of its own: a tenant's status page (R30), HIF page 2 (R339). -/
def mirrorsState (page : Nat) : Bool := pageKind page == .tnt || pageKind page == .hifSet

/-- QUIESCED. -/
def execQuiesced (page : Fin 4096) (now : DWord) (s : State) : Host.Outcome State Fault Refusal :=
  .next (if mirrorsState page.val then s else (s.at now.toNat).drainEnd page.val)

/-! ### Readmission (R429) -/

/-- READMITTED: a fenced page that FLT_QUIET.MS has passed for without an error goes to CHECKING; a PNL page is readmitted by its substitution
(R95). -/
def execReadmitted (page : Fin 4096) (now : DWord) (s0 : State) : Host.Outcome State Fault Refusal :=
  let pg := page.val
  let s := s0.at now.toNat
  .next (if s.st pg ≠ stFENCED ∨ pageKind pg = .pnl ∨ mirrorsState pg ∨ s.time < smGet 0 s.flt.lastErr pg + s.fld pgFLT f_FLT_QUIET_MS * 1000000 then s0
    else
      let r := s.rcv pg
      let s1 := (s.setRcv pg { r with recoveries := min (r.recoveries + 1) 0xFFFF, inWindow := r.inWindow + 1 }).event pgFLT ev_flt_READMITTED
      s1.checkStart pg)

end Sys2Proof.Machine
end

