-- ==== Sys2Proof/Machine/Tenant.lean ====
section
/-! DEFINITION. Tenants enabled and disabled (R316 to R333), functions and their resets (R312 to R315), and what moves a TDI to ERROR (R336, R406). -/

namespace Sys2Proof.Machine

open Sys2Proof

/-! ### The state of a tenant (R316) -/

/-- The tenant enters a state: its status page shows it, with ENABLE as R30 states. -/
def State.tenState (s : State) (t st : Nat) : State :=
  let pg := tenantPage t 0
  if (s.tenant t).state = st then s
  else
    let s1 := s.setTenant t { s.tenant t with state := st }
    let s2 := ((s1.setFld pg fENABLE (if st = stCHECKING ∨ st = stRUNNING then 1 else 0)).setFld pg fREASON (s.tenant t).reason).setFld pg fDETAIL
      (s.tenant t).detail
    (s2.setSt pg st).event pgTEN ev_hifTen_TENANT_STATE

/-- What a TDISP message answers (R405), sent in the session's secured messages; the second word is the TDI. -/
def State.tdisp (s : State) (code t : Nat) (b : List Byte) : State := s.emit ⟨.mctp, 2, [code, t], b⟩

/-- Codes of the TDISP answers. -/
def tdVERSION : Nat := 0x01
def tdCAPABILITIES : Nat := 0x02
def tdLOCK : Nat := 0x03
def tdREPORT : Nat := 0x04
def tdSTATE : Nat := 0x05
def tdSTART : Nat := 0x06
def tdSTOP : Nat := 0x07
def tdERROR : Nat := 0x7F

/-- A TDI's binding ends: its stream, its nonce and NO_FW_UPDATE. -/
def State.tdiDrop (s : State) (t : Nat) : State :=
  { s with sec := { s.sec with nonces := smDel s.sec.nonces t, bound := smDel s.sec.bound t, noUpdate := smSet false s.sec.noUpdate t false } }

/-- Sets the state of a TDI: 0 CONFIG_UNLOCKED, 1 CONFIG_LOCKED, 2 RUN, 3 ERROR (R336). -/
def State.setTdi (s : State) (t st : Nat) : State := s.setTenant t { s.tenant t with tdi := st }

/-- The answer to a STOP, once its tenant is OFF (R405). -/
def State.stopAnswer (s : State) (t : Nat) : State :=
  if smGet false s.sec.stopDue t then
    (({ s with sec := { s.sec with stopDue := smSet false s.sec.stopDue t false } }).setTdi t 0).tdisp tdSTOP t []
  else s

/-- A tenant enters OFF. -/
def State.tenOff (s : State) (t : Nat) : State := (s.tenState t stOFF).stopAnswer t

/-! ### A disable starts (R331, R332 steps 1 and 2) -/

/-- The blocks that depend on a tenant leave service (R331). -/
def State.depsOut (s : State) (t : Nat) : State :=
  let s1 := ((List.range 16).filter (fun d => s.domOwner d == t)).foldl (fun (a : State) d => a.forceOut (pgCAD d)) s
  ((List.range 128).filter (fun p => s1.panelTenant p == t && s1.panelMode p != 0 &&
      (s1.panelMode p == 1 || s1.st (pgCAD (s1.panelDomain p)) == stOFF || s1.domOwner (s1.panelDomain p) != t))).foldl
    (fun (a : State) p => a.forceOut (pnlPage p)) s1

/-- Records that still wait on the tenant's queues go to the owner's queue. -/
def State.redirect (s : State) (t : Nat) : State :=
  (List.range 64).foldl (fun (a : State) q =>
    if (t = 0 ∧ q = a.logCq) ∨ (a.cq t q).due = [] then a
    else
      let due := (a.cq t q).due
      let a1 := a.setCq t q { a.cq t q with due := [], failed := false }
      due.foldl (fun (b : State) r => b.postDue 0 b.logCq r) a1) s

/-- An operation in flight starts no other part, and ends once those it has begun have ended. -/
def State.opStop (s : State) (tag : Nat) (o : Op) : State :=
  match o.phase with
  | .waiting => ((s.reclaimSlots o.slots.length).setOp tag { o with slots := [] }).opEnd tag scDISABLED o.tenant cfDROPPED
  | .issued =>
    let o0 := { o with slots := [] }
    let s0 := (s.reclaimSlots o.slots.length).setOp tag o0
    let s1 := if o.onChannels then s0.setOp tag { o0 with aux := o.aux.take 3 ++ [1, o.channels] } else s0
    let s2 := s1.dropParts tag
    if [1, 4, 8, 9].contains o.d.opcode ∨ (s2.mop tag).isSome ∨ s2.srv.moves.any (fun e => e.2.tag == some tag) then s2 else s2.opEnd tag scDISABLED o.tenant cfDROPPED
  | _ => s

/-- A sequence of a tenant that is being disabled closes (R224). -/
def State.seqStop (s : State) (slot : Nat) : State :=
  match s.seq slot with
  | none => s
  | some q =>
    let s1 := match q.pause with | some r => s.postReq r scDISABLED cfDROPPED q.tenant | none => s
    let s2 := match q.close with | some r => s1.postReq r scDISABLED cfDROPPED q.tenant | none => s1
    let s3 := if q.state = sqCLOSING then s2 else s2.move pgSMP 0 .held .transit 1
    let s4 := s3.setSeq slot { q with state := sqCLOSING, pause := none, close := none, parkTtl := none, expiry := none }
    if q.job.any (fun j => !j.flying) then s4.genEnd slot scDISABLED cfDROPPED q.tenant else s4

/-- Requests accepted for the tenant and not yet acted on are answered. -/
def State.reqsStop (s : State) (t : Nat) : State :=
  let l := s.srv.reqs.filter (fun e => e.2.tenant == t)
  let s1 : State := { s with srv := { s.srv with reqs := s.srv.reqs.filter (fun e => e.2.tenant != t) } }
  l.foldl (fun (a : State) e => a.postReq e.2 scDISABLED cfDROPPED t) s1

/-- Tags of a tenant's operations, the parts of a voted RUN among them. -/
def State.opTags (s : State) (t : Nat) : List (Nat × Op) := s.ops.ops.filter (fun e => e.2.tenant == t)

/-- A RUNNING tenant becomes QUIESCING. -/
def State.tenQuiesce (s : State) (t : Nat) : State :=
  let s1 := (s.setTenant t { s.tenant t with quietFrom := s.time, reason := 0, detail := 0 }).tenState t stQUIESCING
  let s2 := s1.redirect t
  let s3 := match s2.hif.cmd with
    | some c => if c.tenant = t then
        ({ s2 with hif := { s2.hif with cmd := none, clearing := smSet false s2.hif.clearing t false } }).mmuEnd t mrSTATE else s2
    | none => s2
  let s4 := (s3.jobsShut t).vCloseAll t
  let s5 := (s4.opTags t).foldl (fun (a : State) e => match a.op e.1 with | some o => a.opStop e.1 o | none => a) s4
  let s6 := s5.reqsStop t
  let s7 := ((s6.srv.seqs.filter (fun e => e.2.tenant == t)).map (fun e => e.1)).foldl (fun (a : State) k => a.seqStop k) s6
  (s7.strTenantOff t).srvSweep.vSweep

/-- A disable starts: a check is abandoned; a RUNNING tenant becomes QUIESCING, its dependents first leaving service where the start
cannot be refused. -/
def State.tenStop (s : State) (t : Nat) (forced : Bool) : State :=
  let st := (s.tenant t).state
  if st = stCHECKING then s.tenOff t
  else if st = stRUNNING then ((if forced then s.depsOut t else s).tenQuiesce t)
  else s

/-- A TDI that is CONFIG_LOCKED or RUN enters ERROR, which disables its tenant (R336, R406). -/
def State.tdiError (s : State) (t : Nat) : State :=
  if (s.tenant t).tdi = 1 ∨ (s.tenant t).tdi = 2 then ((s.setTdi t 3).tdiDrop t).tenStop t true else s

/-- Every TDI that is CONFIG_LOCKED or RUN enters ERROR. -/
def State.tdiErrors (s : State) : State := (List.range 32).foldl (fun (a : State) i => a.tdiError (i + 1)) s

/-! ### HIF_TEN_CMD (R316, R331) -/

/-- A write of HIF_TEN_CMD. -/
def State.tenCmd (s : State) (v : Word) : State :=
  let t := bits v.toNat 5 0
  let op := bits v.toNat 9 8
  let s1 := s.noteRsv pgTEN r_HIF_TEN_CMD v
  let x := s1.tenant t
  if op = 0 then s1
  else if 32 < t then s1.discard pgTEN
  else if op = 1 ∧ (x.state = stOFF ∨ x.state = stREFUSED) ∧ x.tdi ≠ 3 then
    let s2 := { s1 with hif := { s1.hif with orders := s1.hif.orders + 1 } }
    (s2.setTenant t { x with reason := 0, detail := 0, order := s1.hif.orders + 1 }).tenState t stCHECKING
  else if op = 2 ∧ (x.state = stRUNNING ∨ x.state = stCHECKING) ∧ !s1.tenantDependants t then
    (if x.tdi = 1 ∨ x.tdi = 2 then ((s1.setTdi t 3).tdiDrop t).tenStop t false else s1.tenStop t false)
  else s1.discard pgTEN

/-- TENANT_ENABLE: HIF_TEN_CMD with OP ENABLE. -/
def execTenantEnable (t : Fin 64) (now : DWord) (s : State) : Host.Outcome State Fault Refusal :=
  .next (s.via 0 (fun a => (a.at now.toNat).tenCmd (BitVec.ofNat 32 (0x100 + t.val))))

/-- TENANT_DISABLE: HIF_TEN_CMD with OP DISABLE. -/
def execTenantDisable (t : Fin 64) (now : DWord) (s : State) : Host.Outcome State Fault Refusal :=
  .next (s.via 0 (fun a => (a.at now.toNat).tenCmd (BitVec.ofNat 32 (0x200 + t.val))))

/-! ### The tenant check ends (R318, R319) -/

/-- Zeroes frames of the module-reserved region. -/
def State.zeroArea (s : State) (r : Nat × Nat) : State :=
  (List.range r.2).foldl (fun (a : State) i => a.zeroFrame (a.hbmClaim.1 + r.1 + i)) s

/-- What a tenant takes as it enters RUNNING (R319); no key is drawn while the noise source's health tests fail (R398). -/
def State.tenStart (s : State) (t : Nat) : State :=
  let n := s.allocCount t
  let s1 := (s.move pgSYN 0 .free .held n).setTenant t { s.tenant t with held := n }
  let k := s1.freeBelow (2 ^ 128)
  let s2 := if s1.sec.trngFail then s1 else { s1.used with srv := { s1.srv with privKeys := smPut s1.srv.privKeys t k } }
  ((s2.zeroCounters t).zeroArea (s2.replayArea t)).zeroArea (s2.saveArea t)

/-- The tenant check ends, its tests applied to the state as it is now. -/
def State.tenCheckEnd (s : State) (t : Nat) : State :=
  if (s.tenant t).state ≠ stCHECKING then s
  else match s.tenantCheck t with
    | none => (s.tenStart t).tenState t stRUNNING
    | some (reason, det) => (s.setTenant t { s.tenant t with reason := reason, detail := det }).tenState t stREFUSED

/-- ENABLE_CHECK_END (R471): the check of a page or of a tenant ends. -/
def execEnableCheckEnd (c : CheckOf) (now : DWord) (s : State) : Host.Outcome State Fault Refusal :=
  .next (match c with
    | .page p => if mirrorsState p.val then s else (s.at now.toNat).checkEnd p.val
    | .tenant t => (s.at now.toNat).tenCheckEnd t.val)

/-! ### The disable ends (R332 steps 3 and 4) -/

/-- Has every part of a disabling tenant ended, and every block that depends on it left service? -/
def State.tenDrained (s : State) (t : Nat) : Bool :=
  (s.opTags t).all (fun e => e.2.phase == .due) &&
  (List.range 128).all (fun p => !(s.panel p).work.any (fun w => w.tenant == t) && ((s.panel p).moving.isNone || (s.resident p != t && (s.panel p).moving != some t))) &&
  [0, 1].all (fun e => (s.vctxsOf e t).isEmpty) &&
  !s.srv.moves.any (fun e => (s.seq e.1).any (fun q => q.tenant == t)) &&
  !(List.range 16).any (fun d => (s.inService (pgCAD d) || s.st (pgCAD d) == stQUIESCING) && s.domOwner d == t) &&
  !(List.range 128).any (fun p => (s.inService (pnlPage p) || s.st (pnlPage p) == stQUIESCING) && s.panelMode p != 0 && s.panelTenant p == t)

/-- Serving lets go of a tenant: its steps fail, its rows drop, its sequences are freed, its plans, private prefixes and token slots go (R224). -/
def State.tenServeOut (s : State) (t : Nat) : State :=
  let s1 := s.srv.steps.foldl (fun (a : State) e => if e.2.tenant = t then a.stepFail e.1 e.2 scDISABLED 0 else a) s
  let s2 := s1.srv.jobs.foldl (fun (a : State) e => if e.2.tenant = t then a.dropRest e.1 e.2 else a) s1
  let s3 := ((s2.srv.seqs.filter (fun e => e.2.tenant == t)).map (fun e => e.1)).foldl (fun (a : State) k => a.freeSeq k true) s2
  let s4 := s3.dropPrefixes (fun p => p.domain == t) true
  let plans := s4.srv.plans.filter (fun e => e.1 / 4 != t)
  let stepNo := s4.srv.stepNo.filter (fun e => e.1 / 4 != t)
  let s5 := { s4 with srv := { s4.srv with plans := plans, stepNo := stepNo, privKeys := smDel s4.srv.privKeys t } }
  let mine := fun (m : SMap Nat) => ((m.filter (fun e => e.1 / 16 == t)).map (fun e => e.2)).foldl (· + ·) 0
  let s6 := (s5.reclaim pgSMP 1 .held (mine s5.srv.slotsHeld)).reclaim pgSMP 1 .transit (mine s5.srv.slotsUsed)
  let drop := fun (m : SMap Nat) => m.filter (fun e => e.1 / 16 != t)
  { s6 with srv := { s6.srv with slotsHeld := drop s6.srv.slotsHeld, slotsUsed := drop s6.srv.slotsUsed } }

/-- Gesso scrubs a tenant from the panels and the save slots: its DEDICATED and RESERVED panels, the SHARED ones it is resident on. -/
def State.tenPanelsOut (s : State) (t : Nat) : State :=
  let s1 := (List.range 128).foldl (fun (a : State) p =>
    if a.panelMode p ≠ 0 ∧ a.panelTenant p = t then (a.palZero p).storesZero p
    else if a.panelMode p = 0 ∧ a.resident p = t then
      ((a.palZero p).storesZero p).setFld (pnlPage p) f_PNL_STATUS_RESIDENT 0x3F
    else a) s
  { s1 with pan := { s1.pan with carts := s1.pan.carts.filter (fun e => e.1 / 65536 % 64 != t),
                                 saved := s1.pan.saved.filter (fun e => e.1 % 64 != t) } }

/-- A tenant's Studio banks go to NONE, zeroed and counted as reclaimed (R290, R293). -/
def State.tenBanksOut (s : State) (t : Nat) : State :=
  (List.range 32).foldl (fun (a : State) n =>
    if a.fld pgSTU (f_STU_BANK_OWNER n) = t then
      (if (smFind a.mem.hand n).isSome then a else a.handoverStart n ⟨ownerNone, 0, false, true⟩).handoverEnd n ⟨ownerNone, 0, false, true⟩
    else match smFind a.mem.hand n with
      | some h => if h.owner = t then { a with mem := { a.mem with hand := smPut a.mem.hand n { h with owner := ownerNone } } } else a
      | none => a) s

/-- A tenant's mappings and window go, and its frames become FREE; under the DML-A5 compatibility scrub they are cleared here. -/
def State.tenMemoryOut (s : State) (t : Nat) : State :=
  let zero := s.fld (hmTEN t) f_HIF_TEN_CFG_GESSO_COMPAT == 1
  let s1 := { s with hif := { s.hif with leaves := s.hif.leaves.filter (fun e => e.1 / 0x100000000 != t), window := smDel s.hif.window t,
                                         clearing := smSet false s.hif.clearing t false } }
  ((s1.mem.fot.filter (fun e => e.2 == kTENANT + 16 * t)).map (fun e => e.1)).foldl
    (fun (a : State) f => (if zero then a.zeroFrame f else a).freeFrame f) s1

/-- Tags of posted records that are still due come back, with their jobs. -/
def State.tenTagsOut (s : State) (t : Nat) : State :=
  (s.opTags t).foldl (fun (a : State) e =>
    let a1 := match e.2.d.opcode, e.2.aux with
      | 8, x :: _ | 9, x :: _ => a.reclaim (pgVCE x) 1 .transit 1
      | _, _ => a
    let a2 := (a1.dropOp e.1).reclaim pgHIF0 0 .transit 1
    { a2 with ops := { a2.ops with gens := smSet 0 a2.ops.gens e.1 ((smGet 0 a2.ops.gens e.1 + 1) % 8) } }) s

/-- Every ring and queue of a tenant is disabled. -/
def State.tenRingsOut (s : State) (t : Nat) : State :=
  let s1 := (List.range 64).foldl (fun (a : State) r => (a.ringOff t r).setRing t r ringReset) s
  (List.range 64).foldl (fun (a : State) q => (a.setFld (cqPg t) (f_CQ_CFG_ENABLE q) 0).setCq t q cqReset) s1

/-- The disable ends. -/
def State.tenQuiet (s : State) (t : Nat) : State :=
  if (s.tenant t).state ≠ stQUIESCING ∨ !s.tenDrained t then s
  else
    let s1 := ((((s.tenServeOut t).tenPanelsOut t).tenBanksOut t).tenMemoryOut t)
    let x := s1.tenant t
    let s2 := ((s1.reclaim pgSYN 0 .held x.held).tenTagsOut t).tenRingsOut t
    (s2.setTenant t { x with held := 0, quiet := (s.time - x.quietFrom) / 1000 }).tenOff t

/-- TENANT_QUIET. -/
def execTenantQuiet (t : Fin 33) (now : DWord) (s : State) : Host.Outcome State Fault Refusal :=
  .next ((s.at now.toNat).tenQuiet t.val)

/-! ### Functions (R312 to R315) -/

/-- Do configuration requests reach the module? -/
def State.cfgReaches (s : State) : Bool := s.pow.phase == .ready && s.hif.linkUp

/-- What a configuration request does, where it reaches the module. -/
def State.viaCfg (s : State) (f : State → State) : State := if s.cfgReaches then f s else s

/-- From the FLR onward a VF's registers read their reset values, but for the state and ENABLE of its status page (R315). -/
def State.vfReset (s : State) (t : Nat) : State :=
  let pg := tenantPage t 0
  let s1 := (List.range 10).foldl (fun (a : State) k => a.blockReset (tenantPage t (k + 1))) s
  let mine := fun (k : Nat) => decide (pg ≤ k / 1024 ∧ k / 1024 < pg + 11)
  let keep := fun (k : Nat) => decide (k = pg * 1024 + hCTRL ∨ k = pg * 1024 + hSTATE)
  let s2 := { s1 with regs := s1.regs.filter (fun e => !mine e.1 || keep e.1), wide := s1.wide.filter (fun e => !mine e.1),
                      rsv := s1.rsv.filter (fun e => !mine e.1) }
  let rings := s2.ops.rings.filter (fun e => e.1 / 64 != t)
  let asserted := s2.hif.asserted.filter (fun e => !(decide (pg ≤ e.1 ∧ e.1 < pg + 11)))
  { s2 with ops := { s2.ops with rings := rings },
            hif := { s2.hif with faults := smSet [] s2.hif.faults t [], asserted := asserted } }

/-- An FLR of the VF that serves tenant t. -/
def State.flr (s : State) (t : Nat) : State :=
  let s1 := s.countUp pgHIF0 r_HIF_CNT_FLR 1
  let starts := (s1.tenant t).state == stRUNNING
  let s2 := if (s1.tenant t).tdi = 1 ∨ (s1.tenant t).tdi = 2 then s1.tdiError t else s1.tenStop t true
  let s3 := if starts then s2.event pgTEN ev_hifTen_FLR else s2
  let s4 := s3.vfReset t
  { s4 with hif := { s4.hif with bme := smSet false s4.hif.bme t false, mse := smSet false s4.hif.mse t false, d3 := smSet false s4.hif.d3 t false } }

/-- FLR (R315). -/
def execFlr (vf : Fin 32) (now : DWord) (s : State) : Host.Outcome State Fault Refusal :=
  .next ((s.at now.toNat).viaCfg (fun a => if a.hif.vfEnable ∧ vf.val + 1 ≤ a.hif.numVfs then a.flr (vf.val + 1) else a))

/-- VF Enable is cleared: tenants 1 to 32 are disabled, and their TDIs leave CONFIG_LOCKED and RUN for ERROR (R331, R406). -/
def State.vfClear (s : State) : State :=
  let s1 := { s with hif := { s.hif with vfEnable := false } }
  (List.range 32).foldl (fun (a : State) i => (a.tdiError (i + 1)).tenStop (i + 1) true) s1

/-- VF_ENABLE_CLEAR (R331). -/
def execVfEnableClear (now : DWord) (s : State) : Host.Outcome State Fault Refusal :=
  .next ((s.at now.toNat).viaCfg (fun a => a.vfClear))

/-- Moves a function to D3hot or back; no module state changes (R315). -/
def State.setPower (s : State) (fn : Nat) (d3 : Bool) : State := { s with hif := { s.hif with d3 := smSet false s.hif.d3 fn d3 } }

/-- D3HOT_ENTRY (R315). -/
def execD3hotEntry (fn : Fin 33) (s : State) : Host.Outcome State Fault Refusal := .next (s.viaCfg (fun a => a.setPower fn.val true))

/-- Keys of BAR n of a function, and of VF BAR n; of VF Memory Space Enable. -/
def barKey (fn n : Nat) : Nat := fn * 8 + n
def vfBarKey (n : Nat) : Nat := 512 + n
def vfMseKey : Nat := 64

/-- A configuration write (R312, R406). -/
def State.cfgWrite (s : State) : CfgWrite → State
  | .command fn mse bme =>
    let was := smGet false s.hif.mse fn.val
    let s1 := { s with hif := { s.hif with mse := smSet false s.hif.mse fn.val mse, bme := smSet false s.hif.bme fn.val bme } }
    if was && !mse && decide (fn.val ≠ 0) then s1.tdiError fn.val else s1
  | .vfControl enable mse num =>
    let was := smGet false s.hif.mse vfMseKey
    let n := if s.hif.vfEnable then s.hif.numVfs else num.val
    let s1 := { s with hif := { s.hif with mse := smSet false s.hif.mse vfMseKey mse, numVfs := n } }
    let s2 := if was && !mse then s1.tdiErrors else s1
    if s.hif.vfEnable && !enable then s2.vfClear else { s2 with hif := { s2.hif with vfEnable := enable } }
  | .bar fn n v => { s with hif := { s.hif with bars := smSet 0 s.hif.bars (barKey fn.val n.val) v.toNat } }
  | .vfBar n v =>
    let s1 := { s with hif := { s.hif with bars := smSet 0 s.hif.bars (vfBarKey n.val) v.toNat } }
    if smGet 0 s.hif.bars (vfBarKey n.val) = v.toNat then s1 else s1.tdiErrors
  | .power fn d3 => s.setPower fn.val d3
  | .other fn off v => { s with hif := { s.hif with cfg := smSet 0 s.hif.cfg (fn.val * 4096 + off.val) v.toNat } }

/-- PCI_CONFIG_WRITE (R406). -/
def execPciConfigWrite (w : CfgWrite) (now : DWord) (s : State) : Host.Outcome State Fault Refusal :=
  .next ((s.at now.toNat).viaCfg (fun a => a.cfgWrite w))

/-! ### IDE streams (R335, R406) -/

/-- A stream leaves its secure state, and the TDIs bound to it enter ERROR. -/
def State.ideDown (s : State) (stream : Nat) : State :=
  if smGet 0 s.hif.ide stream ≠ 1 then s
  else
    let s1 := { s with hif := { s.hif with ide := smSet 0 s.hif.ide stream 2 } }
    ((s1.sec.bound.filter (fun e => e.2 == stream)).map (fun e => e.1)).foldl (fun (a : State) t => a.tdiError t) s1

/-- IDE_FAIL (R335). -/
def execIdeFail (stream : Fin 34) (now : DWord) (s : State) : Host.Outcome State Fault Refusal :=
  .next (((s.at now.toNat).ideDown stream.val).report pgHIF0 2 stream.val 0 false)

end Sys2Proof.Machine
end

