-- ==== Sys2Proof/Machine/Security.lean ====
section
/-! DEFINITION. The security block (16): the solvent wipe, lifecycle and debug commands, tamper, anti-rollback counters, bound weights and key envelopes. -/

namespace Sys2Proof.Machine

open Sys2Proof

/-! ### The solvent wipe (R418, R419) -/

def wrEMPTY : Nat := 0
def wrLOADING : Nat := 1
def wrLOADED : Nat := 2
def wrFAILED : Nat := 3

/-- STATE of a weight region. -/
def State.wrState (s : State) (r : Nat) : Nat := s.fld (hmWR r) f_SEC_WR_STATUS_STATE

/-- Zeroes a region's frames, returns them to FREE, and erases its keys. -/
def State.wrRelease (s : State) (r : Nat) : State :=
  let f := s.wrFrames r
  let s1 := ((List.range f.2).foldl (fun (a : State) i => a.zeroFrame (f.1 + i)) s).freeFrames f.1 f.2
  let lo := f.1 * 32
  let bad := s1.sec.tagBad.filter (fun e => decide (e.1 < lo ∨ lo + f.2 * 32 ≤ e.1))
  { s1.setFld (hmWR r) f_SEC_WR_FRAMES_FRAMES 0 with
    sec := { s1.sec with keys := smDel s1.sec.keys r, claim := smDel s1.sec.claim r, tagBad := bad } }

/-- A load or unload ends with a result and a STATE. -/
def State.wrEnd (s : State) (r result state : Nat) : State :=
  (((s.setFld (hmWR r) f_SEC_WR_STATUS_RESULT result).setFld (hmWR r) f_SEC_WR_STATUS_STATE state).setFld (hmWR r) f_SEC_WR_STATUS_PERCENT 100).event
    pgSEC ev_sec_WR_DONE

/-- A running load fails: its frames are zeroed and return to FREE. -/
def State.loadFail (s : State) (r result : Nat) : State :=
  ({ s with sec := { s.sec with load := none } }.wrRelease r).wrEnd r result wrFAILED

/-- The Reserve and every key register are written to zero; `cause` is the row of R418's table, 1 to 4, and the log records it. -/
def State.solventWipe (s : State) (cause : Nat) : State :=
  let s0 := match s.sec.load with | some r => s.loadFail r 9 | none => s
  let s1 := (List.range 16).foldl (fun (a : State) r =>
    if a.wrState r = wrEMPTY then a else a.setFld (hmWR r) f_SEC_WR_STATUS_STATE wrFAILED) s0
  let jobs := s1.mur.jobs.map (fun e => (e.1, { e.2 with key := none }))
  let s2 := { s1 with
    sec := { s1.sec with wiped := true, keys := [], sessions := [] },
    mur := { s1.mur with jobs := jobs.filter (fun e => decide (e.2 ≠ mjobReset)) },
    cad := { s1.cad with dip := { s1.cad.dip with keyed := false } },
    hif := { s1.hif with ideKeys := [] } }
  let s3 := s2.setFld pgSEC f_SEC_KEY_RESULT_PAIR_KEY 0
  let s4 := (List.range 34).foldl (fun (a : State) n => a.ideDown n) s3
  let s5 := (s4.tdiErrors.countFld pgSEC f_SEC_WIPE_COUNT_WIPES 1)
  s5.journal (s5.mkRec logWIPE (if cause = 1 ∨ cause = 2 then 0 else 3) false pgSEC (if cause = 3 then 3 else if cause = 4 then 8 else 0) 0 0 0 [cause])

/-! ### Lifecycle and debug commands (R396, R397) -/

/-- The lifecycle state: 0 BLANK, 1 PROVISIONED, 2 DEPLOYED, 3 RETURNED, 4 ENDED. -/
def State.lifecycle (s : State) : Nat := s.fld pgSEC f_SEC_LC_LIFECYCLE

/-- Owner partitions of Fresco are trimmed. -/
def State.trimOwner (s : State) : State :=
  let s1 := (List.range 11).foldl (fun (a : State) i => a.flashClear (i + 5) 0 (a.partBlocks (i + 5))) s
  { s1 with mem := { s1.mem with buffered := s1.mem.buffered.filter (fun k => decide (k / 2 ^ 31 < 5)) } }

/-- An accepted lifecycle transition: the fuses, the wipe, any trim, and the module reset. -/
def State.lcGo (s : State) (next : Nat) : State :=
  let s1 := (s.setFld pgSEC f_SEC_LC_LIFECYCLE next).solventWipe 1
  (if next = 3 then s1.trimOwner else s1).moduleReset 2

/-- A lifecycle or debug command ends, with REASON where it is refused. -/
def State.lcEnd (s : State) (reason : Nat) : State := (s.setFld pgSEC f_SEC_LC_RESULT_REASON reason).event pgSEC ev_sec_LC_DONE

/-- The token that DEBUG_OPEN reads, and the digest it must sign. -/
def State.token (s : State) : List Byte := (List.range 24).flatMap (fun w => toLe 4 (s.word pgSEC (r_SEC_TOKEN w)).toNat)
def State.tokenDigest (s : State) : List Byte := Config.sha384 (toLe 8 Config.serial ++ toLe 8 (s.wideOf pgSEC r_SEC_NONCE_LO))

/-- A write of SEC_LC_CMD. -/
def State.lcCmd (s : State) (v : Word) : State :=
  let s1 := s.noteRsv pgSEC r_SEC_LC_CMD v
  let cmd := fldGet v f_SEC_LC_CMD_CMD
  let lc := s1.lifecycle
  if fldGet v f_SEC_LC_CMD_KEY ≠ 0x4C43 then s1.discard pgSEC
  else if 1 ≤ cmd ∧ cmd ≤ 3 ∧ lc = cmd then s1.lcGo (lc + 1)
  else if cmd = 4 then
    (((s1.solventWipe 4).setFld pgSEC f_SEC_LC_TAMPERED 1).report pgSEC 8 0 0 false).lcEnd 0
  else if cmd = 5 then (if lcField lc then (s1.setFld pgSEC f_SEC_LC_DEBUG_NEXT 1).lcEnd 0 else s1.lcEnd 8)
  else if cmd = 6 then (s1.setFld pgSEC f_SEC_LC_DEBUG_NEXT 0).lcEnd 0
  else if cmd = 7 then
    (if !lcOpen lc then s1.lcEnd 8
     else if !Config.ecdsaOk (Config.fwKeyDigest 2) s1.token s1.tokenDigest then s1.lcEnd 0x40
     else (((s1.solventWipe 2).setFld pgSEC f_SEC_LC_DEBUG 2).setFld pgSEC f_SEC_LC_TAMPERED 1).lcEnd 0)
  else s1.discard pgSEC

/-- A write of SEC_LC_CMD with its KEY. -/
def State.lcWrite (s : State) (cmd : Nat) (now : DWord) : State :=
  s.via 0 (fun a => (a.at now.toNat).lcCmd (BitVec.ofNat 32 (0x4C430000 + cmd)))

/-- DEPLOY. -/
def execLcDeploy (now : DWord) (s : State) : Host.Outcome State Fault Refusal := .next (s.lcWrite 1 now)
/-- RETURN. -/
def execLcReturn (now : DWord) (s : State) : Host.Outcome State Fault Refusal := .next (s.lcWrite 2 now)
/-- END. -/
def execLcEnd (now : DWord) (s : State) : Host.Outcome State Fault Refusal := .next (s.lcWrite 3 now)
/-- WIPE. -/
def execLcWipe (now : DWord) (s : State) : Host.Outcome State Fault Refusal := .next (s.lcWrite 4 now)
/-- DEBUG_FIELD. -/
def execDebugField (s : State) : Host.Outcome State Fault Refusal := .next (s.lcWrite 5 0)
/-- DEBUG_CLOSE. -/
def execDebugClose (s : State) : Host.Outcome State Fault Refusal := .next (s.lcWrite 6 0)
/-- DEBUG_OPEN. -/
def execDebugOpen (now : DWord) (s : State) : Host.Outcome State Fault Refusal := .next (s.lcWrite 7 now)

/-- A read of SEC_NONCE_LO draws a nonce and latches its high word. -/
def State.nonceRead (s : State) : State :=
  ((s.used.setWide pgSEC r_SEC_NONCE_LO (s.freeBelow (2 ^ 64))).readWide pgSEC r_SEC_NONCE_LO)

/-- NONCE_READ. -/
def execNonceRead (s : State) : Host.Outcome State Fault Refusal := .next (s.via 0 (fun a => a.nonceRead))

/-! ### Tamper and the noise source (R398, R417) -/

/-- Loop n trips: armed, and at its tamper level (bit n of POLARITY: 0 open, 1 closed) for the filter's time. Bit n of `closed` says that the
loop is closed; `held` is for how many microseconds the levels have stood. -/
def State.loopTrips (s : State) (closed held n : Nat) : Bool :=
  bits (s.fld pgSEC f_SEC_TAMPER_CFG_ARM) n n == 1 && bits closed n n == bits (s.fld pgSEC f_SEC_TAMPER_CFG_POLARITY) n n &&
  decide (s.fld pgSEC f_SEC_TAMPER_CFG_FILTER_US ≤ held)

/-- The trips that count: an armed loop, and a detector except in BLANK and under OPEN debug. -/
def State.trips (s : State) (closed held dets : Nat) : Nat :=
  (if s.loopTrips closed held 0 then 1 else 0) + (if s.loopTrips closed held 1 then 2 else 0) +
  (if s.lifecycle = 0 ∨ s.fld pgSEC f_SEC_LC_DEBUG = 2 then 0 else dets * 4)

/-- The loops stand at their levels, and detectors may trip (R417). -/
def State.tamper (s : State) (closed held dets : Nat) : State :=
  let m := s.trips closed held dets
  if s.pow.phase = .off then s
  else
    let s0 := s.setFld pgSEC f_SEC_TAMPER_STATUS_EXT_LEVEL closed
    if m = 0 then s0
    else
      let s1 := s0.setWord pgSEC r_SEC_TAMPER_STATUS (s0.word pgSEC r_SEC_TAMPER_STATUS ||| BitVec.ofNat 32 m)
      let s2 := (s1.solventWipe 3).countFld pgSEC f_SEC_WIPE_COUNT_TAMPERS 1
      -- a detector that has tripped takes ENV_OK (R456)
      let s3 := { s2 with pow := { s2.pow with envOk := s2.pow.envOk && decide (m < 4) } }
      ((s3.setFld pgSEC f_SEC_LC_TAMPERED 1).event pgSEC ev_sec_TAMPER).report pgSEC 3 m 0 false

/-- TAMPER. -/
def execTamper (closed : Fin 4) (held : Fin 256) (dets : Fin 8) (now : DWord) (s : State) : Host.Outcome State Fault Refusal :=
  .next ((s.at now.toNat).tamper closed.val held.val dets.val)

/-- TRNG_HEALTH_RESTORED. -/
def execTrngHealthRestored (s : State) : Host.Outcome State Fault Refusal := .next { s with sec := { s.sec with trngFail := false } }

/-! ### Anti-rollback counters (R401) -/

/-- A write of SEC_ARB_CMD. -/
def State.arbCmd (s : State) (v : Word) : State :=
  let s1 := s.noteRsv pgSEC r_SEC_ARB_CMD v
  let c := s1.fld pgSEC f_SEC_ARB_SEL_COUNTER
  let x := fldGet v f_SEC_ARB_CMD_VALUE
  if fldGet v f_SEC_ARB_CMD_KEY = 0x4152 ∧ smGet 0 s1.sec.arb c < x then { s1 with sec := { s1.sec with arb := smSet 0 s1.sec.arb c x } }
  else s1.discard pgSEC

/-- ARB_ADVANCE. -/
def execArbAdvance (value : Fin 256) (s : State) : Host.Outcome State Fault Refusal :=
  .next (s.via 0 (fun a => a.arbCmd (BitVec.ofNat 32 (0x41520000 + value.val))))

/-! ### Bound weights (R407 to R411) -/

/-- A 4 KiB block of Fresco, where it reads. -/
def State.flashBlock (s : State) (part lba : Nat) : Option (List Byte) :=
  if s.partBlocks part ≤ lba ∨ smGet false s.mem.flashBad (flashKey part lba) then none
  else some (cRead s.mem.flash (flashAt part lba) 4096)

/-- Consecutive blocks of Fresco; none where one of them does not read. -/
def State.flashRun (s : State) (part lba : Nat) : Nat → Option (List Byte)
  | 0 => some []
  | n + 1 => match s.flashBlock part lba, s.flashRun part (lba + 1) n with
    | some b, some r => some (b ++ r)
    | _, _ => none

/-- Where region r's model image is: partition and first LBA. -/
def State.wrSource (s : State) (r : Nat) : Nat × Nat := (s.fld (hmWR r) f_SEC_WR_CFG_PARTITION, (s.word (hmWR r) r_SEC_WR_SRC).toNat)

/-- Fields of an image's header. -/
def mwVersion (h : List Byte) : Nat := leAt h 0x10 1
def mwCounter (h : List Byte) : Nat := leAt h 0x11 1
def mwBlocks (h : List Byte) : Nat := leAt h 0x18 8
def mwEntries (h : List Byte) : Nat := leAt h 0x28 4

/-- LBAs of the wrap table and of the tag table. -/
def mwWrap (h : List Byte) : Nat := (mwEntries h * 64 + 4095) / 4096
def mwTags (h : List Byte) : Nat := (mwBlocks h * 16 + 4095) / 4096

/-- The rules of R407 for a header. -/
def mwHeaderOk (h : List Byte) : Bool :=
  let z := fun (o n : Nat) => (sub h o n).all (fun x => x == 0)
  leAt h 0 4 == 0x4D575451 && leAt h 4 4 == 1 && decide (1 ≤ mwCounter h ∧ mwCounter h ≤ 31) && z 0x12 6 &&
  decide (1 ≤ mwBlocks h ∧ mwBlocks h ≤ 2 ^ 32) && decide (leAt h 0x20 8 ≤ mwBlocks h * 65536) &&
  decide (1 ≤ mwEntries h ∧ mwEntries h ≤ 4096) && z 0x2C 4 && z 0x91 (0x1000 - 0x91)

/-- 48 bytes by HKDF-SHA-384 from a secret: what a P-384 key pair is made from (R398). -/
def seedOf (secret info : List Byte) : List Byte := Config.hkdf384 secret [] info 48

/-- The binding key (R398): HKDF(UDS, "BIND"). -/
def bindSeed : List Byte := seedOf Config.uds [0x42#8, 0x49#8, 0x4E#8, 0x44#8]

/-- KEK with its IV of a wrap entry or a key envelope (R408): 32 bytes and 12 bytes. -/
def kekOf (point salt info : List Byte) : List Byte × List Byte :=
  let k := Config.hkdf384 (Config.ecdhX bindSeed point) salt info 44
  (sub k 0 32, sub k 32 12)

/-- "AELAR-BIND". -/
def bindInfo : List Byte := [0x41#8, 0x45#8, 0x4C#8, 0x41#8, 0x52#8, 0x2D#8, 0x42#8, 0x49#8, 0x4E#8, 0x44#8]

/-- The content key of an image: the entry for this module's SERIAL, opened; the result code where it is not. -/
def mwUnwrap (h wrap : List Byte) : Except Nat (List Byte) :=
  match (List.range (mwEntries h)).find? (fun i => leAt wrap (64 * i) 8 == Config.serial) with
  | none => .error 2
  | some i =>
    let e := sub wrap (64 * i) 64
    let k := kekOf (sub h 0x30 97) (Config.sha384 h) (bindInfo ++ sub e 0 8)
    match Config.gcmOpen k.1 k.2 (sub e 0 8) (sub e 8 48) with
    | some ck => .ok ck
    | none => .error 3

/-- The header of region r's image, where its LBA reads and it meets R407. -/
def State.wrHeader (s : State) (r : Nat) : Option (List Byte) :=
  let (part, lba) := s.wrSource r
  match s.flashBlock part lba with
  | some h => if mwHeaderOk h ∧ s.partKind part = 4 then some h else none
  | none => none

/-- The result of steps 1 to 4 of a load: the header and the content key, or the result code. -/
def State.loadTests (s : State) (r : Nat) : Except Nat (List Byte × List Byte) :=
  if !(s.lifecycle == 1 || s.lifecycle == 2) then .error 8
  else if s.sec.wiped ∨ s.sec.trngFail then .error 9
  else match s.wrHeader r with
    | none => .error 1
    | some h =>
      let (part, lba) := s.wrSource r
      match s.flashRun part (lba + 1) (mwWrap h) with
      | none => .error 2
      | some w => match mwUnwrap h w with
        | .error e => .error e
        | .ok ck => if mwVersion h < smGet 0 s.sec.arb (mwCounter h) then .error 4 else .ok (h, ck)

/-- Frames that an image takes: T + ceil(BLOCKS / 32). -/
def tagFrames (blocks : Nat) : Nat := (16 * blocks + 0x1FFFFF) / 0x200000
def imageFrames (blocks : Nat) : Nat := tagFrames blocks + (blocks + 31) / 32

/-- Is a region's run of frames free to be claimed? -/
def State.framesFree (s : State) (f n : Nat) : Bool :=
  s.fld pgHBM f_HBM_CLEAR_DONE == 1 && decide (f + n ≤ 196608) && (List.range n).all (fun i => s.frameKind (f + i) == kFREE && !s.frameClaimed (f + i))

/-- SEC_WR_CMD LOAD: steps 1 to 5 of R409; the blocks follow. -/
def State.wrLoad (s : State) (r : Nat) : State :=
  if s.sec.load.isSome ∨ s.wrState r = wrLOADED then s.discard pgSEC
  else match s.loadTests r with
    | .error e => s.wrEnd r e (s.wrState r)
    | .ok (h, ck) =>
      let f := s.fld (hmWR r) f_SEC_WR_FRAME_FRAME
      let n := imageFrames (mwBlocks h)
      let s1 := (((s.setWide (hmWR r) r_SEC_WR_IMAGE_LO (leAt h 8 8)).setFld (hmWR r) f_SEC_WR_VERSION_COUNTER (mwCounter h)).setFld (hmWR r)
        f_SEC_WR_VERSION_IMG_VERSION (mwVersion h)).setWord (hmWR r) r_SEC_WR_BLOCKS (BitVec.ofNat 32 (mwBlocks h))
      if !s.framesFree f n then s1.wrEnd r 7 wrFAILED
      else
        let s2 := (s1.setFrames f n kWEIGHT (s.fld (hmWR r) f_SEC_WR_CFG_TENANT)).setFld (hmWR r) f_SEC_WR_FRAMES_FRAMES n
        let s3 := (s2.setFld (hmWR r) f_SEC_WR_STATUS_STATE wrLOADING).setFld (hmWR r) f_SEC_WR_STATUS_PERCENT 0
        { s3 with sec := { s3.sec with load := some r, keys := smPut s3.sec.keys r ck, claim := smPut s3.sec.claim r f } }

/-- Does a mapping name a frame of the region? -/
def State.wrMapped (s : State) (r : Nat) : Bool :=
  let f := s.wrFrames r
  s.hif.leaves.any (fun e => !e.2.host && rangesMeet (f.1 * 0x200000, f.2 * 0x200000) (e.2.target, if e.2.big then 0x200000 else 0x10000))

/-- SEC_WR_CMD UNLOAD. -/
def State.wrUnload (s : State) (r : Nat) : State :=
  if s.sec.load.isSome then s.discard pgSEC
  else if s.wrMapped r then s.wrEnd r 10 (s.wrState r)
  else (s.wrRelease r).wrEnd r 0 wrEMPTY

/-- A write of SEC_WR_CMD. -/
def State.wrCmd (s : State) (v : Word) : State :=
  let s1 := s.noteRsv pgSEC r_SEC_WR_CMD v
  let r := s1.fld pgSEC f_SEC_WR_SEL_REGION
  let op := fldGet v f_SEC_WR_CMD_OP
  if op = 1 then s1.wrLoad r else if op = 2 then s1.wrUnload r else s1.discard pgSEC

/-- LOAD. -/
def execWrLoad (now : DWord) (s : State) : Host.Outcome State Fault Refusal := .next (s.via 0 (fun a => (a.at now.toNat).wrCmd 1#32))

/-- UNLOAD. -/
def execWrUnload (s : State) : Host.Outcome State Fault Refusal := .next (s.via 0 (fun a => a.wrCmd 2#32))

/-- Block i of region r's image, decrypted under its content key: the result code 5 or 6 where it does not read or fails its tag. -/
def State.modelBlock (s : State) (r : Nat) (h : List Byte) (i : Nat) : Except Nat (List Byte) :=
  let (part, lba) := s.wrSource r
  let tags := lba + 1 + mwWrap h
  match s.flashBlock part (tags + i / 256), s.flashRun part (tags + mwTags h + 16 * i) 16 with
  | some t, some c =>
    (match Config.gcmOpen (smGet [] s.sec.keys r) (sub h 8 8 ++ toLe 4 i) (sub h 8 16) (c ++ sub t (16 * (i % 256)) 16) with
     | some b => .ok b
     | none => .error 6)
  | _, _ => .error 5

/-- Writes the blocks of a load in order; the result code of the first that fails, 0 where every one passes. -/
def State.loadBlocks (s : State) (r : Nat) (h : List Byte) (base : Nat) (i : Nat) : Nat → State × Nat
  | 0 => (s, 0)
  | n + 1 => match s.modelBlock r h i with
    | .error e => (s, e)
    | .ok b => (s.memWrite (base + i * 65536) b).loadBlocks r h base (i + 1) n

/-- The load's blocks have been read, checked and rewritten (steps 6 and 7). `media` lists LBAs of the image that end MEDIA_ERROR. -/
def State.loadComplete (s : State) (media : List Nat) : State :=
  match s.sec.load with
  | none => s
  | some r =>
    let s0 := (media.filter (fun x => x < s.partBlocks (s.wrSource r).1)).foldl (fun (a : State) x => a.mediaUe (a.wrSource r).1 x) s
    match s0.wrHeader r with
    | none => s0.loadFail r 5
    | some h =>
      let f := (s0.wrFrames r).1
      let nb := mwBlocks h
      let tags := s0.freeBytes (16 * nb)
      let s1 : State := { s0.memWrite (f * 0x200000) tags with free := s0.free + 16 * nb }
      let (s2, e) := s1.loadBlocks r h ((f + tagFrames nb) * 0x200000) 0 nb
      if e ≠ 0 then s2.loadFail r e
      else
        let c := mwCounter h
        let arb := if s2.fld (hmWR r) f_SEC_WR_CFG_ADVANCE = 1 ∧ smGet 0 s2.sec.arb c < mwVersion h then smSet 0 s2.sec.arb c (mwVersion h) else s2.sec.arb
        ({ s2 with sec := { s2.sec with load := none, arb := arb } }).wrEnd r 0 wrLOADED

/-- WEIGHT_LOAD_COMPLETE. -/
def execWeightLoadComplete (media : List Nat) (now : DWord) (s : State) : Host.Outcome State Fault Refusal :=
  .next ((s.at now.toNat).loadComplete media)

/-! ### Key envelopes (R413, R414) -/

/-- Zero bytes of an envelope that R413 reserves. -/
def envelopeRsv (b : List Byte) : Bool := (rsvByte b [(0x05, 3), (0x14, 12), (0x81, 15), (0xC0, 64)]).isSome

/-- The key of an envelope for a purpose and context, or the result code. -/
def envelopeKey (b : List Byte) (purpose : Nat) (context : Nat) : Except Nat (List Byte) :=
  let k := kekOf (sub b 0x20 97) (toLe 48 0) (sub b 0 32)
  if leAt b 0 4 ≠ 0x56454B51 ∨ leAt b 4 1 ≠ purpose ∨ envelopeRsv b then .error 1
  else if leAt b 8 8 ≠ Config.serial then .error 2
  else if leAt b 0x10 4 ≠ context then .error 5
  else match Config.gcmOpen k.1 k.2 (sub b 0 0x90) (sub b 0x90 48) with
    | some key => .ok key
    | none => .error 3

/-- A key command ends. -/
def State.keyEnd (s : State) (result : Nat) : State := (s.setFld pgSEC f_SEC_KEY_RESULT_RESULT result).event pgSEC ev_sec_KEY_DONE

/-- Is the slot of an op 1 or 3 open, or VAR page 1 in service for an op 2 or 4? -/
def State.keyBusy (s : State) (op slot : Nat) : Bool :=
  if op = 1 ∨ op = 3 then (s.mjob slot).isOpen else !(s.st pgDIP == stOFF || s.st pgDIP == stREFUSED)

/-- Installs or clears a job slot's key; installs or clears the pair key. -/
def State.setJobKey (s : State) (slot : Nat) (k : Option (List Byte)) : State := s.setMjob slot { s.mjob slot with key := k, ctr := 0, acc := [] }
def State.setPairKey (s : State) (on : Bool) : State :=
  ({ s with cad := { s.cad with dip := { s.cad.dip with keyed := on } } }).setFld pgSEC f_SEC_KEY_RESULT_PAIR_KEY (if on then 1 else 0)

/-- The DVA in SEC_KEY_ARG. -/
def State.keyArg (s : State) : Nat := s.fld pgSEC f_SEC_KEY_ARG_LO_DVA * 64 + s.fld pgSEC f_SEC_KEY_ARG_HI_DVA * 2 ^ 32

/-- Installs the key an envelope holds. -/
def State.keyTake (s : State) (op slot : Nat) (b : List Byte) : State :=
  match envelopeKey b op (if op = 1 then s.jobId slot else 0) with
  | .error e => s.keyEnd e
  | .ok k => (if op = 1 then s.setJobKey slot (some k) else s.setPairKey true).keyEnd 0

/-- What a key command reads: its envelope, or nothing. -/
def State.keyGot (s : State) (op slot : Nat) (x : Rd) : State :=
  match x with
  | .bad d e => (s.mmuFault (bareWho 0) d e false).keyEnd 6
  | .ok b p => if p then s.keyEnd 6 else s.keyTake op slot b

/-- INSTALL_JOB and INSTALL_PAIR, once nothing keeps the command off. -/
def State.keyInstall (s : State) (op slot : Nat) : State :=
  s.keyGot op slot (s.readDva (bareWho 0) s.keyArg 256)

/-- A write of SEC_KEY_CMD. -/
def State.keyCmd (s : State) (v : Word) : State :=
  let s1 := s.noteRsv pgSEC r_SEC_KEY_CMD v
  let op := fldGet v f_SEC_KEY_CMD_OP
  let slot := fldGet v f_SEC_KEY_CMD_SLOT
  if op = 0 ∨ 4 < op then s1.discard pgSEC
  else if op ≤ 2 ∧ !(s1.lifecycle == 1 || s1.lifecycle == 2) then s1.keyEnd 7
  else if s1.sec.wiped then s1.keyEnd 8
  else if s1.keyBusy op slot then s1.keyEnd 4
  else if op = 3 then (s1.setJobKey slot none).keyEnd 0
  else if op = 4 then (s1.setPairKey false).keyEnd 0
  else s1.keyInstall op slot

/-- INSTALL_JOB. -/
def execInstallJob (slot : Fin 64) (s : State) : Host.Outcome State Fault Refusal :=
  .next (s.via 0 (fun a => a.keyCmd (BitVec.ofNat 32 (slot.val * 256 + 1))))
/-- INSTALL_PAIR. -/
def execInstallPair (s : State) : Host.Outcome State Fault Refusal := .next (s.via 0 (fun a => a.keyCmd 2#32))
/-- CLEAR_JOB. -/
def execClearJob (slot : Fin 64) (s : State) : Host.Outcome State Fault Refusal :=
  .next (s.via 0 (fun a => a.keyCmd (BitVec.ofNat 32 (slot.val * 256 + 3))))
/-- CLEAR_PAIR. -/
def execClearPair (s : State) : Host.Outcome State Fault Refusal := .next (s.via 0 (fun a => a.keyCmd 4#32))

/-! ### GESSO (R416) -/

/-- The first byte of an argument block that breaks R416. -/
def gessoArgFault (a : List Byte) : Option Nat := firstBad ((0, decide (leAt a 0 4 < 2)) :: zeroTests a 4 60)

/-- Primes tenant t's state on a panel: in place where t is resident or the panel is the tenant's own, else in its save slot. -/
def State.gessoPanel (s : State) (t p : Nat) (keep : Bool) : State :=
  let s1 := if keep then s else s.setCarts (s.pan.carts.filter (fun e => e.1 / 65536 != p * 64 + t))
  if s.panelMode p ≠ 0 ∨ s.resident p = t then (if keep then s1.palZero p else (s1.palZero p).storesZero p)
  else s1.setSaved p t (if keep then { s1.savedOf p t with pal := [], poison := [] } else savedReset)

/-- Primes every panel of the group. -/
def State.gessoGo (s : State) (tag : Nat) (o : Op) (keep : Bool) : State :=
  match o.group.find? (fun p => (s.panel p).lost) with
  | some p => s.opEnd tag scPANEL (boundary 0 (o.group.idxOf p)) 0
  | none => (o.group.foldl (fun (a : State) p => a.gessoPanel o.tenant p keep) s).opEnd tag scOK o.group.length 0

/-- Starts GESSO: an ARG of 0 means GFLAGS 0. -/
def State.gessoStart (s : State) (tag : Nat) (o : Op) : State :=
  if o.d.arg = 0 then s.gessoGo tag o false
  else s.withArg tag o 64 (fun a => match gessoArgFault a with
    | some d => s.opEnd tag scARG d 0
    | none => s.gessoGo tag o (leAt a 0 4 == 1))

/-- GESSO: it acts once every panel of its group stands at a step boundary. -/
def execGesso (tag : Fin 8192) (now : DWord) (s : State) : Host.Outcome State Fault Refusal :=
  .next (match s.op tag.val with
    | some o => if o.group.any (fun p => s.stepRuns p) then s else s.issue tag.val 0xE now.toNat (fun a q => a.gessoStart tag.val q)
    | none => s)

end Sys2Proof.Machine
end

