-- ==== Sys2Proof/Machine/Spdm.lean ====
section
/-! DEFINITION. SPDM and the Provenance report (R402 to R404), IDE_KM (R335) and TDISP (R405). Answer codes and layouts that the manual leaves to DMTF's and PCIe's standards are PRESUMED (log entry 60). -/

namespace Sys2Proof.Machine

open Sys2Proof

/-! ### Answers -/

/-- An SPDM answer on the DOE mailbox: its response code. -/
def State.spdm (s : State) (code : Nat) (b : List Byte) : State := s.emit ⟨.mctp, 3, [code], b⟩

/-- ERROR, with its error code; Unspecified is 0x05. -/
def State.spdmError (s : State) (e : Nat) : State := s.spdm 0x7F [BitVec.ofNat 8 e]

/-- Is only the unsigned subset answered: in BLANK, under OPEN debug (R402), and where no firmware runs (R466)? -/
def State.spdmBare (s : State) : Bool := s.lifecycle == 0 || s.fld pgSEC f_SEC_LC_DEBUG == 2 || s.pow.fwFail

/-- A request of the mailbox: `basic` for those that BLANK and OPEN answer too. After a wipe with no keys every request receives
ERROR Unspecified (R419). -/
def State.spdmReq (s : State) (basic : Bool) (f : State → State) : State :=
  s.viaCfg (fun a =>
    if a.spdmBare then (if basic then f a else a.spdmError 5)
    else if a.sec.wiped then a.spdmError 5
    else f a)

/-- SHA-384 of L1 (1) or L2 (2) as copied from the slot that runs (R400, R403): the header's digest, which the copy has met. -/
def State.fwDigest (s : State) (layer : Nat) : List Byte :=
  let act := s.fld pgSEC f_SEC_FW_ACTIVE
  if smGet 0 s.sec.fw act = 1 then s.fwRead act (if layer = 1 then 0x20 else 0x50) 48 else Config.measured layer act

/-- CDI_1 and CDI_2 (R398). -/
def State.cdi1 (s : State) : List Byte :=
  Config.hmac384 Config.uds (s.fwDigest 1 ++ toLe 1 s.lifecycle ++ toLe 1 (s.fld pgSEC f_SEC_LC_DEBUG))
def State.cdi2 (s : State) : List Byte := Config.hmac384 s.cdi1 (s.fwDigest 2)

/-- What an alias key is made from: HKDF(CDI, "ALIAS"). -/
def aliasSeed (cdi : List Byte) : List Byte := seedOf cdi [0x41#8, 0x4C#8, 0x49#8, 0x41#8, 0x53#8]

/-- A signature of the L2 alias key (R398, R402). -/
def State.aliasSign (s : State) (msg : List Byte) : List Byte := Config.ecdsaSign (aliasSeed s.cdi2) msg

/-- GET_VERSION: 1.2 and 1.3. -/
def execGetVersion (s : State) : Host.Outcome State Fault Refusal := .next (s.spdmReq true (fun a => a.spdm 0x04 [0x12#8, 0x13#8]))

/-- GET_CAPABILITIES: CERT, CHAL, MEAS with signature, MEAS_FRESH, ENCRYPT, MAC, KEY_EX, HBEAT and KEY_UPD. -/
def execGetCapabilities (s : State) : Host.Outcome State Fault Refusal := .next (s.spdmReq true (fun a => a.spdm 0x61 (toLe 4 0x62F6)))

/-- NEGOTIATE_ALGORITHMS: of what the requester offers, ECDSA P-384 (bit 0), SHA-384 (1), secp384r1 (2) and AES-256-GCM (3) are taken. -/
def execNegotiateAlgorithms (offered : Fin 16) (s : State) : Host.Outcome State Fault Refusal :=
  .next (s.spdmReq true (fun a => a.spdm 0x63 [BitVec.ofNat 8 offered.val]))

/-- What the IDevID key is made from (R398): HKDF(UDS, "IDEVID"). -/
def idevidSeed : List Byte := seedOf Config.uds [0x49#8, 0x44#8, 0x45#8, 0x56#8, 0x49#8, 0x44#8]

/-- The slot-0 chain. -/
def State.chain (s : State) : List Byte :=
  Config.certChain [idevidSeed, aliasSeed s.cdi1, aliasSeed s.cdi2, s.fwDigest 1, s.fwDigest 2]

/-- GET_CERTIFICATE: a portion of the slot-0 chain; no other slot holds one. -/
def execGetCertificate (slot : Fin 8) (off len : Fin 65536) (s : State) : Host.Outcome State Fault Refusal :=
  .next (s.spdmReq false (fun a => if slot.val = 0 then a.spdm 0x02 ((a.chain.drop off.val).take len.val) else a.spdmError 1))

/-- CHALLENGE: CHALLENGE_AUTH signed by the L2 alias key. -/
def execChallenge (slot : Fin 8) (nonce : BitVec 256) (s : State) : Host.Outcome State Fault Refusal :=
  .next (s.spdmReq false (fun a =>
    if slot.val = 0 then
      let own := toLe 32 (a.freeBelow (2 ^ 256))
      let body := Config.sha384 a.chain ++ own
      a.used.spdm 0x03 (body ++ a.aliasSign (toLe 32 nonce.toNat ++ body))
    else a.spdmError 1))

/-! ### Measurements (R403) and the partition layout record (R404) -/

/-- One entry of the record. -/
def layoutEntry (typ : Nat) (body : List Byte) : List Byte := toLe 1 typ ++ toLe 1 0 ++ toLe 2 body.length ++ body

/-- Frames of HBM or of the Loft mapped into a tenant's space. -/
def State.mappedFrames (s : State) (t : Nat) (loft : Bool) : Nat :=
  (((s.hif.leaves.filter (fun e => decide (e.1 / 0x100000000 = t) && !e.2.host)).flatMap
    (fun e => framesOf e.2.target (if e.2.big then 0x200000 else 0x10000))).filter (fun f => decide (0x40000 ≤ f) == loft)).eraseDups.length

/-- TYPE 0x01: a tenant. -/
def State.layoutTenant (s : State) (t : Nat) : List Byte :=
  let x := s.tenant t
  let b1 := x.state % 16 + x.tdi % 4 * 16 + s.fld (hmTEN t) f_HIF_TEN_CFG_GESSO_COMPAT * 128
  let banks := (List.range 32).foldl (fun m n => if s.fld pgSTU (f_STU_BANK_OWNER n) = t then m + 2 ^ n else m) 0
  layoutEntry 1 (toLe 1 t ++ toLe 1 b1 ++ toLe 2 0 ++ (List.range 4).flatMap (fun i => toLe 4 (s.word (hmTEN t) (r_HIF_TEN_PANELS i)).toNat) ++
    toLe 4 (s.mappedFrames t false) ++ toLe 4 (s.mappedFrames t true) ++ toLe 4 banks ++ toLe 4 (s.fld (hmTEN t) f_HIF_TEN_CFG_TAGS) ++ toLe 4 0)

/-- TYPE 0x04: a weight region that is not EMPTY. -/
def State.layoutWeight (s : State) (r : Nat) : List Byte :=
  let h := hmWR r
  layoutEntry 4 (toLe 1 r ++ toLe 1 (s.fld h f_SEC_WR_CFG_TENANT) ++ toLe 1 (s.fld h f_SEC_WR_VERSION_IMG_VERSION) ++
    toLe 1 (s.fld h f_SEC_WR_VERSION_COUNTER) ++ toLe 8 (s.wideOf h r_SEC_WR_IMAGE_LO) ++ toLe 4 (s.wrFrames r).1 ++ toLe 4 (s.wrFrames r).2 ++ toLe 4 0)

/-- TYPE 0x05: the spares. -/
def State.layoutSpares (s : State) : List Byte :=
  let cnv := (List.range 4).flatMap (fun c => toLe 1 (s.spareState c) ++ toLe 4 (s.word (cnvPage c) r_CNV_LOST).toNat)
  let pnl := (List.range 64).flatMap (fun i =>
    toLe 1 (s.fld (pnlPage (2 * i)) f_PNL_SPARES_FREE % 16 + s.fld (pnlPage (2 * i + 1)) f_PNL_SPARES_FREE % 16 * 16))
  let pair := s.fld pgEAS (fPair 0) == 1 || s.fld pgEAS (fPair 1) == 1
  layoutEntry 5 (cnv ++ pnl ++ toLe 1 (s.fld pgVAR0 f_VAR_VOTER_V0_STATE % 4 + s.fld pgVAR0 f_VAR_VOTER_V1_STATE % 4 * 4) ++
    toLe 1 (if pair then 1 else 0) ++ toLe 2 0 ++ (List.range 8).flatMap (fun i => toLe 4 (s.reserveFree false i)) ++
    (List.range 16).flatMap (fun i => toLe 4 (s.reserveFree true i)))

/-- The partition layout record. -/
def State.layoutRecord (s : State) : List Byte :=
  let panels := layoutEntry 2 ((List.range 128).flatMap (fun p => toLe 1 (s.panelMode p) ++ toLe 1 (s.panelTenant p) ++ toLe 1 (s.panelDomain p)))
  let doms := layoutEntry 3 ((List.range 16).flatMap (fun d =>
    toLe 1 ((if s.running (pgCAD d) then 1 else 0) + s.fld (pgCAD d) f_CAD_DOM_CTRL_TRIPTYCH * 2 + (if s.paired d then 4 else 0)) ++
    toLe 1 (s.domOwner d) ++ toLe 2 0))
  let regions := ((List.range 16).filter (fun r => s.wrState r != wrEMPTY)).flatMap s.layoutWeight
  let jobs := ((List.range 64).filter (fun j => (s.mjob j).isOpen)).flatMap (fun j =>
    layoutEntry 6 (toLe 1 j ++ toLe 1 (s.jobTenant j) ++ toLe 2 (s.jobId j) ++ toLe 1 (s.jobG j) ++ toLe 1 (s.jobMe j) ++ toLe 2 0))
  let body := toLe 8 s.time ++ (List.range 33).flatMap s.layoutTenant ++ panels ++ doms ++ regions ++ s.layoutSpares ++ jobs
  toLe 4 (body.length + 4) ++ body

/-- The contents of a measurement. -/
def State.measurement (s : State) (i : Nat) : List Byte :=
  let act := s.fld pgSEC f_SEC_FW_ACTIVE
  let arb := (List.range 32).flatMap (fun c => toLe 1 (smGet 0 s.sec.arb c))
  match i with
  | 1 => Config.measured 0 0
  | 2 => s.fwDigest 1
  | 3 => s.fwDigest 2
  | 4 => Config.sha384 (Config.measured 3 0 ++ toLe 1 s.lifecycle ++ toLe 8 Config.serial ++ arb)
  | 5 => toLe 1 s.lifecycle ++ toLe 1 (s.fld pgSEC f_SEC_LC_DEBUG) ++ toLe 2 (s.fld pgSEC f_SEC_WIPE_COUNT_TAMPERS) ++
      toLe 4 (s.fld pgSEC f_SEC_WIPE_COUNT_WIPES)
  | 6 => toLe 1 (s.fld pgSEC f_SEC_FW_SVN) ++ toLe 1 act ++ toLe 1 (s.fld pgSEC f_SEC_FW_FALLBACK) ++ toLe 1 0
  | 7 => s.layoutRecord
  | _ => arb

/-- A measurement block: index, and its contents as a digest or raw. -/
def State.measBlock (s : State) (i : Nat) : List Byte :=
  let v := s.measurement i
  toLe 1 i ++ toLe 1 1 ++ toLe 2 (v.length + 3) ++ toLe 1 (if i ≤ 4 then 0 else 0x80) ++ toLe 2 v.length ++ v

/-- GET_MEASUREMENTS: index 0 asks how many there are, 0xFF for all of them. -/
def State.measure' (s : State) (index : Nat) (signed : Bool) (nonce : Nat) : State :=
  if 9 ≤ index ∧ index < 255 then s.spdmError 1
  else
    let l := if index = 255 then (List.range 8).map (· + 1) else if index = 0 then [] else [index]
    let own := toLe 32 (s.freeBelow (2 ^ 256))
    let body := toLe 1 (if index = 0 then 8 else l.length) ++ l.flatMap s.measBlock ++ own
    s.used.spdm 0x60 (if signed then body ++ s.aliasSign (toLe 32 nonce ++ body) else body)

/-- GET_MEASUREMENTS. -/
def execGetMeasurements (index : Fin 256) (signed : Bool) (nonce : BitVec 256) (now : DWord) (s : State) : Host.Outcome State Fault Refusal :=
  .next ((s.at now.toNat).spdmReq (!signed) (fun a => a.measure' index.val signed nonce.toNat))

/-! ### Sessions (R402) -/

/-- A session. -/
def State.session (s : State) (k : Nat) : Option Session := smFind s.sec.sessions k
def State.setSession (s : State) (k : Nat) (x : Session) : State := { s with sec := { s.sec with sessions := smPut s.sec.sessions k x } }
def State.dropSession (s : State) (k : Nat) : State := { s with sec := { s.sec with sessions := smDel s.sec.sessions k } }

/-- KEY_EXCHANGE: at most four sessions at once; no key is drawn while the noise source's health tests fail. -/
def execKeyExchange (data : List Byte) (now : DWord) (s : State) : Host.Outcome State Fault Refusal :=
  .next ((s.at now.toNat).spdmReq false (fun a =>
    if a.sec.trngFail then a.spdmError 5
    else match smFresh a.sec.sessions 0 4 with
      | none => a.spdmError 0x0A
      | some k =>
        let own := toLe 1 k ++ Config.sessionKey data (a.freeBelow (2 ^ 384))
        (a.used.setSession k ⟨false, 0, a.time⟩).spdm 0x64 (own ++ a.aliasSign (data ++ own))))

/-- FINISH: the requester's verification passes, or the session goes. -/
def execSpdmFinish (sid : Fin 4) (ok : Bool) (s : State) : Host.Outcome State Fault Refusal :=
  .next (s.spdmReq false (fun a =>
    match a.session sid.val with
    | some x =>
      if x.established then a.spdmError 4
      else if ok then (a.setSession sid.val { x with established := true }).spdm 0x65 []
      else (a.dropSession sid.val).spdmError 6
    | none => a.spdmError 2))

/-- A message in an established session; any other receives ERROR InvalidSession. -/
def State.secured (s : State) (sid : Nat) (f : State → Session → State) : State :=
  s.spdmReq false (fun a =>
    match a.session sid with
    | some x => if x.established then f a x else a.spdmError 2
    | none => a.spdmError 2)

/-- END_SESSION. -/
def execEndSession (sid : Fin 4) (s : State) : Host.Outcome State Fault Refusal :=
  .next (s.secured sid.val (fun a _ => (a.dropSession sid.val).spdm 0x6C []))

/-- HEARTBEAT. -/
def execSpdmHeartbeat (sid : Fin 4) (now : DWord) (s : State) : Host.Outcome State Fault Refusal :=
  .next ((s.at now.toNat).secured sid.val (fun a x => (a.setSession sid.val { x with heard := a.time }).spdm 0x68 []))

/-- KEY_UPDATE. -/
def execKeyUpdate (sid : Fin 4) (s : State) : Host.Outcome State Fault Refusal :=
  .next (s.secured sid.val (fun a x => (a.setSession sid.val { x with keyGen := x.keyGen + 1 }).spdm 0x69 []))

/-! ### IDE_KM (R335) -/

/-- Does a stream hold a key set? -/
def State.ideKeyed (s : State) (n : Nat) : Bool := smGet 0 s.hif.ideKeys n == 1

/-- An IDE_KM message. -/
def State.ideKm (s : State) : IdeKm → State
  | .query n => s.tdisp 0x81 n.val [BitVec.ofNat 8 (smGet 0 s.hif.ide n.val)]
  | .keyProg n => ({ s with hif := { s.hif with ideKeys := smSet 0 s.hif.ideKeys n.val 1 } }).tdisp 0x82 n.val []
  | .setGo n =>
    if s.ideKeyed n.val then ({ s with hif := { s.hif with ide := smSet 0 s.hif.ide n.val 1 } }).tdisp 0x83 n.val []
    else s.tdisp 0xFF n.val []
  | .setStop n => (s.ideDown n.val).tdisp 0x84 n.val []

/-- IDE_KM. -/
def execIdeKm (sid : Fin 4) (m : IdeKm) (now : DWord) (s : State) : Host.Outcome State Fault Refusal :=
  .next ((s.at now.toNat).secured sid.val (fun a _ => a.ideKm m))

/-! ### TDISP (R405) -/

/-- A TDISP message for TDI t; refused outside DEPLOYED (R395). -/
def State.tdispReq (s : State) (sid t : Nat) (f : State → State) : State :=
  s.secured sid (fun a _ => if a.lifecycle = 2 then f a else a.tdisp tdERROR t [])

/-- GET_TDISP_VERSION. -/
def execGetTdispVersion (sid : Fin 4) (t : Fin 32) (s : State) : Host.Outcome State Fault Refusal :=
  .next (s.tdispReq sid.val (t.val + 1) (fun a => a.tdisp tdVERSION (t.val + 1) [0x10#8]))

/-- GET_TDISP_CAPABILITIES: the requests supported, 0x81 to 0x87. -/
def execGetTdispCapabilities (sid : Fin 4) (t : Fin 32) (s : State) : Host.Outcome State Fault Refusal :=
  .next (s.tdispReq sid.val (t.val + 1) (fun a => a.tdisp tdCAPABILITIES (t.val + 1)
    [0x81#8, 0x82#8, 0x83#8, 0x84#8, 0x85#8, 0x86#8, 0x87#8]))

/-- May LOCK be accepted? -/
def State.lockOk (s : State) (t stream : Nat) : Bool :=
  (s.tenant t).tdi == 0 && s.tenantRunning t && decide (1 ≤ stream) && s.ideKeyed stream && smGet 0 s.hif.ide stream == 1

/-- LOCK_INTERFACE_REQUEST. -/
def execLockInterfaceRequest (sid : Fin 4) (t : Fin 32) (stream : Fin 34) (noUpdate : Bool) (s : State) : Host.Outcome State Fault Refusal :=
  let n := t.val + 1
  .next (s.tdispReq sid.val n (fun a =>
    if a.lockOk n stream.val then
      let k := a.freeBelow (2 ^ 256)
      let s1 := { a.used with sec := { a.sec with nonces := smPut a.sec.nonces n k, bound := smPut a.sec.bound n stream.val,
                                                  noUpdate := smSet false a.sec.noUpdate n noUpdate } }
      (s1.setTdi n 1).tdisp tdLOCK n (toLe 32 k)
    else a.tdisp tdERROR n []))

/-- The report: 16 ranges of 4 KiB in VF BAR0, one in VF BAR2 with the MSI-X table flag, then the tenant's entries. -/
def State.tdiReport (s : State) (t : Nat) : List Byte :=
  let range := fun (bar page flags : Nat) => toLe 8 page ++ toLe 4 1 ++ toLe 2 flags ++ toLe 2 bar
  toLe 4 17 ++ (List.range 16).flatMap (fun k => range 0 k 0) ++ range 2 0 1 ++ s.layoutTenant t ++
    ((List.range 16).filter (fun r => s.wrState r != wrEMPTY && s.fld (hmWR r) f_SEC_WR_CFG_TENANT == t)).flatMap s.layoutWeight

/-- GET_DEVICE_INTERFACE_REPORT. -/
def execGetDeviceInterfaceReport (sid : Fin 4) (t : Fin 32) (s : State) : Host.Outcome State Fault Refusal :=
  let n := t.val + 1
  .next (s.tdispReq sid.val n (fun a =>
    if (a.tenant n).tdi = 1 ∨ (a.tenant n).tdi = 2 then a.tdisp tdREPORT n (a.tdiReport n) else a.tdisp tdERROR n []))

/-- GET_DEVICE_INTERFACE_STATE. -/
def execGetDeviceInterfaceState (sid : Fin 4) (t : Fin 32) (s : State) : Host.Outcome State Fault Refusal :=
  let n := t.val + 1
  .next (s.tdispReq sid.val n (fun a => a.tdisp tdSTATE n [BitVec.ofNat 8 (a.tenant n).tdi]))

/-- START_INTERFACE_REQUEST: with the nonce of the LOCK response. -/
def execStartInterfaceRequest (sid : Fin 4) (t : Fin 32) (nonce : BitVec 256) (s : State) : Host.Outcome State Fault Refusal :=
  let n := t.val + 1
  .next (s.tdispReq sid.val n (fun a =>
    if (a.tenant n).tdi = 1 ∧ smFind a.sec.nonces n = some nonce.toNat then (a.setTdi n 2).tdisp tdSTART n [] else a.tdisp tdERROR n []))

/-- STOP for TDI t: its tenant is disabled if it is not OFF, and the answer waits for OFF. -/
def State.tdiStop (s : State) (t : Nat) : State :=
  let s1 := { s.tdiDrop t with sec := { (s.tdiDrop t).sec with stopDue := smSet false s.sec.stopDue t true } }
  let st := (s1.tenant t).state
  if st = stRUNNING ∨ st = stCHECKING then s1.tenStop t true
  else if st = stQUIESCING then s1
  else s1.tenOff t

/-- STOP_INTERFACE_REQUEST. -/
def execStopInterfaceRequest (sid : Fin 4) (t : Fin 32) (now : DWord) (s : State) : Host.Outcome State Fault Refusal :=
  .next ((s.at now.toNat).tdispReq sid.val (t.val + 1) (fun a => a.tdiStop (t.val + 1)))

end Sys2Proof.Machine
end

