-- ==== Sys2Proof/Machine/Errors.lean ====
section
/-! DEFINITION. Errors that pages signal, with the consequence the block's chapter states for each source (R421, R422, R425), escalation (R427), the patrol scrubbers (R295, R296), the repair of weight blocks (R297, R410) and wear (R441). -/

namespace Sys2Proof.Machine

open Sys2Proof

/-! ### Fences -/

/-- Has the page been fenced or latched? -/
def State.outOfService (s : State) (page : Nat) : Bool := s.st page == stFENCED || s.st page == stFAULT

/-- What follows a fence elsewhere: the operations that a lost panel holds at a boundary end there (R96), a channel with a lost panel is OUT
(R179), and Ingest streams that use a page which
has been fenced stop, as when it leaves service (R385). -/
def State.strFenced (s0 : State) : State :=
  let s1 := (List.range 128).foldl (fun (a : State) p => if (a.panel p).lost then a.sweepPanel p else a) s0
  let s := (List.range 16).foldl (fun (a : State) d => a.lostChannels d) s1
  if s.outOfService pgING then s.strPageOff pgING
  else s.strStopAll (fun c =>
    (icDests c).any (fun j => (icPanels c j).any (fun p => s.outOfService (pnlPage p))) ||
    (icKind c == 3 && s.outOfService (pgVCE (icEngine c))))

/-- The paired domains that entered FAULT since a state move the module's role (R186, R192); a demotion by the FATAL sequence (R430) is announced. -/
def State.rolesSince (s old : State) : State :=
  if old.role = 3 ∧ s.role = 4 then s.heartbeat
  else (List.range 16).foldl (fun (a : State) d => if a.st (pgCAD d) = stFAULT ∧ old.st (pgCAD d) ≠ stFAULT then a.roleFault d else a) s

/-- The Fault Collector fences a page as an error's own consequence: its open record reads FENCED and its grace timer stops; a panel that is
lost closes it (R95, R96, R427). -/
def State.fenceNow (s : State) (page : Nat) : State :=
  if s.st page ≠ stRUNNING ∧ s.st page ≠ stQUIESCING then s
  else
    let s1 := s.fence page
    match s1.openRec page with
    | none => s1
    | some (i, r) =>
      if pageKind page = .pnl ∧ (s1.panel (pageInstance page)).lost then s1.closeRec i
      else { s1 with flt := { s1.flt with recs := smPut s1.flt.recs i { r with fenced := true, timer := false } } }

/-- ESCALATED (R427): the grace timer of an open record expires. -/
def execEscalated (i : Fin 64) (now : DWord) (s : State) : Host.Outcome State Fault Refusal :=
  let a := s.at now.toNat
  .next (match smFind s.flt.recs i.val with
    | some r =>
      if r.timer ∧ r.opened + r.grace * 1000 ≤ a.time then ((a.escalate r.page r.source r.cls r.merge r.addr r.syn (some i.val)).rolesSince s).strFenced
      else s
    | none => s)

/-! ### Memory errors (R296 to R298) -/

/-- ERR_SYNDROME of a memory source (12). -/
def State.memSyn (s : State) (a syn : Nat) (patrol : Bool) : Nat :=
  let p := if patrol then 2 ^ 18 else 0
  match storeOf a with
  | .studio =>
    let o := s.fld pgSTU (f_STU_BANK_OWNER (bankOf a))
    if o = ownerNone then syn % 256 + p else syn % 256 + kTENANT * 256 + o * 4096 + p
  | _ => syn % 256 + s.frameKind (frameOf a) * 256 + s.frameTenant (frameOf a) * 4096 + p

/-- Is a tier's AUTO bit 1? Studio has no retirement. -/
def State.retireAuto (s : State) (a : Nat) : Bool :=
  match storeOf a with
  | .hbm => s.fld pgHBM f_HBM_RETIRE_AUTO == 1
  | .loft => s.fld pgLFT f_LFT_RETIRE_AUTO == 1
  | _ => false

/-- The piece that holds a failing word is due for retirement while the tier's AUTO bit is 1. -/
def State.retireAt (s : State) (a : Nat) : State := if s.retireAuto a then s.retireLater (a / 4096) else s

/-- A corrected error of a memory word: its piece is retired once CE_LIMIT errors have been met since the last full pass. -/
def State.memCe (s : State) (src a syn : Nat) (patrol : Bool) : State :=
  let s1 := s.report (storePage (storeOf a)) src a (s.memSyn a syn patrol) patrol
  let limit := if storeOf a = .loft then s.fld pgLFT f_LFT_RETIRE_CE_LIMIT else s.fld pgHBM f_HBM_RETIRE_CE_LIMIT
  if storeOf a = .studio then s1
  else
    let n := smGet 0 s1.mem.pieceCe (a / 4096) + 1
    let s2 := { s1 with mem := { s1.mem with pieceCe := smSet 0 s1.mem.pieceCe (a / 4096) n } }
    if limit ≤ n then s2.retireAt a else s2

/-- The page set whose bytes hold a module address, if one is allocated there. -/
def State.setAt (s : State) (a : Nat) : Option Nat :=
  (List.range 8).findSome? (fun g => [false, true].findSome? (fun loft =>
    let (first, count, base) := s.pool g loft
    let n := s.setBytes g
    if s.geoValid g ∧ n ≠ 0 ∧ base ≤ a ∧ a < base + count * n ∧ (s.pset (tierKey loft (first + (a - base) / n))).isSome then
      some (tierKey loft (first + (a - base) / n))
    else none))

/-- The block that holds an address begins its repair (R297). -/
def State.repairStart (s : State) (a : Nat) : State :=
  { s with mem := { s.mem with repairs := smSet false s.mem.repairs (a / 65536) true } }

/-- The record of a ring's replay window that lies at place `k` of its store reads as one that ended POISON_CONSUMED (R287); what else it held is lost:
free values. Where a record lies in its store is not stated (DESIGN CHOICE, log entry 44: at SEQUENCE mod 8,192). -/
def State.replayLost (s : State) (t r k : Nat) : State :=
  let x := s.ring t r
  let v := fun (i n : Nat) => Config.freeNat (s.free + i) % n
  match x.win.find? (fun e => e.1 % 8192 == k && e.2.record.isSome) with
  | some e =>
    let y : WinEnt := { e.2 with record := some ⟨v 0 (2 ^ 64), v 1 (2 ^ 64), e.1, v 2 8192, v 3 2 == 1, scPOISON, 1, r, v 4 256, 0, v 5 2 == 1⟩ }
    State.setRing { s with free := s.free + 6 } t r { x with win := smPut x.win e.1 y }
  | none => s

/-- An uncorrectable word of a MODULE frame (R287, R296): the frame owner table is repaired from its other copy, a replay record is replaced, a word of a
save area makes its tag fail. Anything else stays poisoned for its reader. -/
def State.moduleUe (s : State) (a syn : Nat) (patrol : Bool) : State :=
  let o := a - s.fld pgHBM f_HBM_RSV_BASE_BASE * 0x200000
  let f := o / 0x200000
  let held := fun (x : Nat × Nat) => x.1 ≤ f && f < x.1 + x.2
  let ts := (List.range 33).filter (fun u => (s.tenant u).state == stRUNNING || (s.tenant u).state == stQUIESCING)
  if o < 1835008 then (s.memZero (a / 64 * 64) 64).report pgHBM 8 a (s.memSyn a syn patrol) false
  else match ts.find? (fun t => held (s.replayArea t)), ts.find? (fun t => held (s.saveArea t)) with
    | some t, _ =>
      let q := o - (s.replayArea t).1 * 0x200000
      (s.memZero (a / 32 * 32) 32).replayLost t (q / 262144) (q % 262144 / 32)
    | none, some t =>
      match ((List.range 128).filter (s.inMask t))[(f - (s.saveArea t).1) / 6]? with
      | some p => s.setSaved p t { s.savedOf p t with lost := true }
      | none => s
    | none, none => s

/-- A demand access finds an uncorrectable word (R297). -/
def State.demandUe (s : State) (src a syn : Nat) : State :=
  let s1 := ((s.report (storePage (storeOf a)) src a (s.memSyn a syn false) false).memPoison a).retireAt a
  let k := if storeOf a = .studio then kFREE else s.frameKind (frameOf a)
  if k = kWEIGHT then s1.repairStart a
  else if k = kPOOL then (match s1.setAt a with | some x => s1.kvUe x | none => s1)
  else if k = kMODULE then s1.moduleUe a syn false
  else s1

/-! ### Objects made FAILED -/

/-- A sequence's record is uncorrectable (R196): every command but CLOSE ends with POISON_CONSUMED, a generation that is not in a step and a
PAUSE that waits among them. -/
def State.seqFail (s : State) (slot : Nat) : State :=
  match s.seq slot with
  | none => s
  | some q =>
    if q.state = sqCLOSING ∨ q.state = sqFAILED then s
    else
      let s1 := s.setSeq slot { q with state := sqFAILED }
      match q.job with
      | some j => if j.flying then s1 else s1.genEnd slot scPOISON 0 0
      | none => match q.pause with
        | some p => (s1.setSeq slot { q with state := sqFAILED, pause := none, parkTtl := none }).postReq p scPOISON 0 0
        | none => s1

/-- A metadata word is uncorrectable: a sequence record, a leaf or a prefix entry, whichever lay there (R296; a free value). -/
def State.metaUe (s : State) : State :=
  let n := s.srv.seqs.length
  let i := s.freeBelow (n + s.srv.prefixes.length + 1)
  match s.srv.seqs[i]?, s.srv.prefixes[i - n]? with
  | some (slot, _), _ => ((s.used.report pgGLZ 2 slot 0 false).seqFail slot)
  | none, some (k, _) => (s.used.report pgSMP 4 k 0 false).dropPrefix k false
  | none, none => s.used

/-- The scrubber finds an uncorrectable word (R296). -/
def State.patrolUe (s : State) (a syn : Nat) : State :=
  let st := storeOf a
  let pg := storePage st
  let s1 := (s.memPoison a).report pg 3 a (s.memSyn a syn true) true
  let s2 := (s1.countUp pg (if st = .studio then r_STU_CNT_PATROL_UE else if st = .loft then r_LFT_CNT_PATROL_UE else r_HBM_CNT_PATROL_UE)
    1).event pg (if st = .studio then ev_stu_PATROL_UE else ev_hbm_PATROL_UE)
  let line := fun (x : State) => x.memZero (a / 64 * 64) 64
  if st = .studio then (if s.fld pgSTU (f_STU_BANK_OWNER (bankOf a)) = ownerNone then line s2 else s2)
  else
    let k := s.frameKind (frameOf a)
    let s3 := s2.retireAt a
    if k = kFREE then line s3
    else if k = kWEIGHT then s3.repairStart a
    else if k = kPOOL then (match s3.setAt a with | some x => s3.poisonSet x | none => line s3)
    else if k = kMETA then s3.metaUe
    else if k = kMODULE then s3.moduleUe a syn true
    else s3

/-! ### The patrol scrubbers (R295) -/

/-- First address, length and skipping unit of a tier: a Studio bank, or a frame. -/
def tierBase (t : Nat) : Nat := if t = 0 then studioBase else if t = 1 then 0 else loftBase
def tierSize (t : Nat) : Nat := if t = 0 then 0x8000000 else if t = 1 then 0x6000000000 else 0x8000000000
def tierUnit (t : Nat) : Nat := if t = 0 then 0x400000 else 0x200000

/-- Is the unit at an offset skipped? -/
def State.scrubSkips (s : State) (t u : Nat) : Bool :=
  if t = 0 then s.bankState u == 2 || s.bankState u == 3
  else
    let k := s.frameKind (frameOf (tierBase t + u * tierUnit t))
    k == kBAD || k == kTEST

/-- The next unit at or after `u`, among `n`, that is not skipped. -/
def State.scrubUnit (s : State) (t u : Nat) : Nat → Option Nat
  | 0 => none
  | n + 1 => if s.scrubSkips t u then s.scrubUnit t (u + 1) n else some u

/-- A full pass ends: SCRUB_PASS counts it, and the corrected errors that R298 compares restart. -/
def State.passEnd (s : State) (t : Nat) : State :=
  let pg := tierPage t
  let w := if t = 0 then r_STU_SCRUB_PASS else if t = 1 then r_HBM_SCRUB_PASS else r_LFT_SCRUB_PASS
  let s1 := s.countUp pg w 1
  let loft := decide (t = 2)
  { s1 with mem := { s1.mem with
      patrol := smSet 0 s1.mem.patrol t 0,
      pieceCe := if t = 0 then s1.mem.pieceCe else s1.mem.pieceCe.filter (fun e => decide (loftBase ≤ e.1 * 4096) != loft) } }

/-- Reads the next word of a tier. `found`: 0 nothing, 1 a corrected error, 2 an uncorrectable one. -/
def State.scrub (s : State) (t found syn : Nat) : State :=
  let p := smGet 0 s.mem.patrol t
  let u := p / tierUnit t
  match s.scrubUnit t u (tierSize t / tierUnit t - u) with
  | none => s.passEnd t
  | some v =>
    let q := if v = u then p else v * tierUnit t
    let a := tierBase t + q
    let s1 := if found = 1 then s.memCe 1 a syn true else if found = 2 then s.patrolUe a syn else s
    if q + 8 = tierSize t then s1.passEnd t else { s1 with mem := { s1.mem with patrol := smSet 0 s1.mem.patrol t (q + 8) } }

/-- PATROL_SCRUB. -/
def execPatrolScrub (tier : Fin 3) (found : Fin 3) (syn : Byte) (now : DWord) (s : State) : Host.Outcome State Fault Refusal :=
  .next (if s.running (tierPage tier.val) ∨ s.st (tierPage tier.val) = stQUIESCING then (s.at now.toNat).scrub tier.val found.val syn.toNat else s)

/-! ### Weight blocks (R297, R410) -/

/-- WEIGHT_REPAIR: a demand read finds an uncorrectable word in a WEIGHT frame. -/
def execWeightRepair (addr : DWord) (syn : Byte) (now : DWord) (s : State) : Host.Outcome State Fault Refusal :=
  .next (if storeOf addr.toNat = .hbm ∧ s.frameKind (frameOf addr.toNat) = kWEIGHT then (s.at now.toNat).demandUe 2 addr.toNat syn.toNat else s)

/-- The bytes a block under repair is rewritten with: the image's block checked under the content key, or a stretch of the tag table. -/
def State.refetch (s : State) (block : Nat) : Option (List Byte) :=
  match s.weightRegion (block * 65536) with
  | none => none
  | some r =>
    match s.wrHeader r with
    | none => none
    | some h =>
      let first := ((s.wrFrames r).1 + tagFrames (mwBlocks h)) * 32
      if s.sec.wiped then none
      else if block < first then some (s.freeBytes 65536)
      else match s.modelBlock r h (block - first) with
        | .ok b => some b
        | .error _ => none

/-- WEIGHT_REPAIRED: the block is rewritten whole, or its refetch fails and it keeps failing. `media`: Fresco cannot read it. -/
def execWeightRepaired (block : Fin 8388608) (media : Bool) (now : DWord) (s : State) : Host.Outcome State Fault Refusal :=
  let k := block.val
  .next (if !smGet false s.mem.repairs k then s
    else
      let s0 := s.at now.toNat
      let s1 := { s0 with mem := { s0.mem with repairs := smSet false s0.mem.repairs k false } }
      match (if media then none else s1.refetch k) with
      | none => s1.report pgSEC 6 (k * 65536) 0 false
      | some b =>
        let s2 := { s1.memWrite (k * 65536) b with free := s1.free + 65536 }
        let s3 := { s2 with sec := { s2.sec with tagBad := smSet false s2.sec.tagBad k false } }
        (s3.countUp pgHBM r_HBM_CNT_WEIGHT_REPAIR 1).event pgHBM ev_hbm_WEIGHT_REPAIRED)

/-! ### Wear (R441) -/

/-- Monitor kind and position of a WEAR record. -/
def wearPlace : WearPart → Nat × Nat
  | .core p x => (0, p.val * 68 + x.val)
  | .crossbar p => (1, p.val)
  | .muralLane p l => (2, p.val * 9 + l.val)
  | .dipLane l => (3, l.val)
  | .easel i => (4, i.val)

/-- The page whose part it is. -/
def wearPage : WearPart → Nat
  | .core p _ => pnlPage p.val
  | .crossbar p => pnlPage p.val
  | .muralLane p _ => pgPORT p.val
  | .dipLane _ => pgDIP
  | .easel _ => pgEAS

/-- A WEAR record of the spare map. -/
def State.wearRecord (s : State) (x : WearPart) (drift : Nat) : State :=
  s.journal (s.mkRec spWEAR 0 false (wearPage x) 0 0 0 0 [(wearPlace x).1 + 256 * (wearPlace x).2, drift])

/-- What WEAR_AUTO does to a worn part. -/
def State.wearOut (s : State) : WearPart → State
  | .core p x =>
    if (s.panel p.val).freeSpares = [] then s else s.retireCore p.val x.val false
  | .crossbar p =>
    let c := p.val / 32
    if s.spareState c = 0 ∧ !(s.canvas c).retire.contains p.val then s.setCanvas c { s.canvas c with retire := (s.canvas c).retire ++ [p.val] } else s
  | .muralLane p l =>
    if s.link p.val = lkUP ∧ s.fld (pgPORT p.val) f_MUR_PORT_STATUS_SPARE_USED = 0 ∧ s.fld (pgPORT p.val) f_MUR_PORT_CTRL_SPARE_AUTO = 1 then
      s.laneSwap p.val l.val
    else s
  | .dipLane l => s.dipLaneSwap l.val
  | .easel i => s.discardPair i.val

/-- A worn core is reported as the panel's RELIEF_WEAR. -/
def State.wearReport (s : State) (x : WearPart) : State :=
  match x with
  | .core p c => s.report (pnlPage p.val) 9 (2 ^ 32 * c.val) 0 false
  | _ => s

/-- One monitor's measurement: its drift in 0.1 ‰ of the manufacture reading; `ces`: the slice of a core has reported more than 16 CORRECTED
palette errors within 24 h; `day`: the monitor's daily record is due. -/
def State.wear (s : State) (x : WearPart) (drift : Nat) (ces day : Bool) : State :=
  let limit := 10 * s.fld pgFLT f_FLT_WEAR_PERMILLE
  let core := (wearPlace x).1 == 0
  let worn := decide (limit < drift) || (ces && core)
  let s1 := if day && decide (limit < 2 * drift) || worn && !core then s.wearRecord x drift else s
  if worn then
    (let s2 := s1.wearReport x
     if s2.fld pgFLT f_FLT_ACTION_WEAR_AUTO = 1 then s2.wearOut x else s2)
  else s1

/-- WEAR_MEASUREMENT. -/
def execWearMeasurement (part : WearPart) (drift : Fin 65536) (ces day : Bool) (now : DWord) (s : State) : Host.Outcome State Fault Refusal :=
  .next (if s.pow.phase = .ready then (s.at now.toNat).wear part drift.val ces day else s)

/-! ### ERROR_SIGNAL: the consequences by source (R421, R425) -/

/-- Physical core position of a PNL error (R92). -/
def pnlPhys (addr : Nat) : Nat := bits addr 38 32

/-- The place in the panel's stores that a STORE_UE names (R92). An instruction-store offset counts within the store of the physical position that
ERR_ADDR_HI names, by the logical core it holds; one that holds none, and a palette address, name no store word (DEDUCED, log entry 34). -/
def State.pnlStoreOff (s : State) (p addr : Nat) : Option Nat :=
  match bits addr 41 40 with
  | 1 => (s.logicalOf p (pnlPhys addr)).map (fun l => l * 32768 + bits addr 22 0 % 32768)
  | 2 => some (schedStore + bits addr 22 0)
  | 3 => some (stepStore + bits addr 22 0)
  | _ => none

/-- R92. -/
def State.pnlError (s : State) (page src addr : Nat) : State :=
  let p := pageInstance page
  match src with
  | 2 => s.palPoison p (bits addr 22 0)
  | 3 => (match s.pnlStoreOff p addr with | some o => s.markStale p (some o) | none => s)
  | 4 | 5 => s.fenceCore p (pnlPhys addr)
  | 6 | 7 | 8 => s.fenceNow page
  | 9 => s.wearOut (.core ⟨p % 128, Nat.mod_lt _ (by decide)⟩ ⟨pnlPhys addr % 68, Nat.mod_lt _ (by decide)⟩)
  | _ => s

/-- R170: a table error fences the domain; a tracker error restarts it. -/
def State.cadError (s : State) (page src : Nat) : State :=
  let d := pageIndex page
  match src with
  | 2 => s.fenceNow page
  | 3 => ((s.setDom d { s.dom d with k := 0 }).slip d []).showDom d
  | _ => s

/-- R171: the channel's count is frozen, and every domain on it raises SLIP. -/
def State.countError (s : State) (ch : Nat) : State := (s.setRef ch { s.refCh ch with frozen := true }).slipAll ch

/-- R225, R248. The address of ROW_UE is the job's. -/
def State.smpError (s : State) (src addr : Nat) : State :=
  match src with
  | 2 => match s.jobOf addr with
    | some j => s.setJob addr { j with pick := some (.err scPOISON 0) }
    | none => s
  | 3 => s.seqFail (addr % 65536)
  | 4 => s.dropPrefix (addr % 2097152) false
  | _ => s

/-- R280. -/
def State.vceError (s : State) (page src addr : Nat) : State :=
  let e := pageInstance page
  match src with
  | 2 => s.vHurt e (addr % 256)
  | 3 => s.vFail e (addr % 256)
  | _ => s

/-- The leaf of a tenant's space that a table word held is lost (R330 reason 5). -/
def State.leafBad (s : State) (t dva : Nat) : State :=
  match s.leaf t dva with
  | some (l, base) =>
    { s with hif := { s.hif with leaves := smPut s.hif.leaves (t * 0x100000000 + base / 0x10000) { l with bad := true } } }
  | none => s

/-- R372: the address of ENGINE_UE is the operation's tag, that of ROUTER_UE the packet's place in the router. -/
def State.murError (s : State) (src addr : Nat) : State :=
  match src with
  | 2 => (s.mFail (addr % 8192) scPOISON 0).mGo (addr % 8192) 16
  | 3 => match s.mur.arrived[addr]? with
    | some k => ((s.epochLeave k).mRelease k).arrTake addr
    | none => s
  | _ => s

/-- R420: a Reserve word is lost. What can be derived is derived again; which drawn key lay there is a free value. -/
def State.reserveUe (s : State) : State :=
  let i := s.freeBelow 82
  let s1 := s.used
  if i = 0 then s1
  else if i ≤ 16 then
    (if s1.wrState (i - 1) = wrLOADING then s1.loadFail (i - 1) 9
     else if s1.wrState (i - 1) = wrLOADED then
      ({ s1 with sec := { s1.sec with keys := smDel s1.sec.keys (i - 1) } }).setFld (hmWR (i - 1)) f_SEC_WR_STATUS_STATE wrFAILED
     else s1)
  else if i ≤ 80 then
    (let s2 := s1.setJobKey (i - 17) none
     { s2 with mur := { s2.mur with jobs := s2.mur.jobs.filter (fun e => decide (e.2 ≠ mjobReset)) } })
  else s1.setPairKey false

/-- R420. -/
def State.secError (s : State) (src addr : Nat) : State :=
  match src with
  | 2 => s.reserveUe
  | 4 => { s with sec := { s.sec with trngFail := true } }
  | 5 =>
    let s1 := (s.countUp pgSEC r_SEC_CNT_WEIGHT_AUTH 1).event pgSEC ev_sec_WEIGHT_AUTH
    { s1.repairStart addr with sec := { s1.sec with tagBad := smSet false s1.sec.tagBad (addr / 65536) true } }
  | _ => s

/-- Does a page of this kind report errors of a class (R425)? -/
def lists (k : PageKind) (cls : Nat) : Bool := (List.range 16).any (fun src => decide (cls ≠ 0) && errClass k src == cls)

/-- The pair that a COLLECTOR_WIRE names (R423): a page that lists error sources has three. -/
def State.wireError (s : State) (addr : Nat) : State :=
  match pageOfId (bits addr 31 16) (bits addr 15 8) (bits addr 7 0) with
  | some p => if bits addr 33 32 ≠ 0 ∧ [1, 2, 3].any (lists (pageKind p)) then s.wireBroken p (bits addr 33 32) else s
  | none => s

/-- An uncorrectable data word of the Easel SRAM fails the object that holds it (R446): a sequence, if one lay there (a free value); a code word is
copied again and nothing else changes. -/
def State.easUe (s : State) : State :=
  match s.srv.seqs[s.freeBelow (s.srv.seqs.length + 1)]? with
  | some (slot, _) => s.used.seqFail slot
  | none => s.used

/-- What the block does beside reporting the error; sources whose consequence has a command of its own do nothing more here. -/
def State.errorEffect (s : State) (page src addr : Nat) : State :=
  match pageKind page with
  | .pnl => s.pnlError page src addr
  | .cnv => if src = 2 then s.flitUe (pageInstance page) false addr else if src = 3 then s.flitUe (pageInstance page) true addr else s
  | .cadDom => s.cadError page src
  | .cadRef => s.countError (page - pgREF 0)
  | .syn => if src = 2 then ({ s with ops := { s.ops with cpoison := smSet false s.ops.cpoison (addr % 262144) true } }).event pgSYN ev_syn_COUNTER_POISONED else s
  | .smp => s.smpError src addr
  | .glz => if src = 2 then s.seqFail (addr % 65536) else s
  | .vce => s.vceError page src addr
  | .frs => if src = 1 then s.countUp pgFRS r_FRS_CNT_READ_RETRY 1 else if src = 3 then s.spareLost else s
  | .mmu => if src = 2 then s.leafBad (addr % 64) (addr / 65536 * 65536) else s
  | .mur0 => s.murError src addr
  | .murPort => if src = 3 then s.portDown (page - pgPORT 0) else s
  | .ing => if src = 2 then s.putStream (addr % 64) { s.stream (addr % 64) with hurt := true } else s
  | .mgt => if src = 3 then { s with mgt := { s.mgt with lost := smSet false s.mgt.lost (addr % 16) true } } else s
  | .sec => s.secError src addr
  | .flt => if src = 1 then s.wireError addr else s
  | .eas => if src = 2 then s.easUe else s
  | _ => s

/-- A page signals an error: captured, counted, collected by class, and acted on. Memory errors and those of Fresco blocks and page sets report
themselves with the state they leave. -/
def State.signalError (s : State) (page src addr syn : Nat) : State :=
  let k := pageKind page
  if k = .stu ∨ k = .hbm ∨ k = .lft then
    (if storePage (storeOf addr) ≠ page ∨ storeOf addr = .noStore then s.report page src addr syn false
     else if src = 1 then s.memCe 1 addr syn false
     else if src = 2 ∨ (k = .lft ∧ src = 6) then s.demandUe src addr syn
     else if src = 3 then s.patrolUe addr syn
     else s.report page src addr syn false)
  else if k = .frs ∧ src = 2 then s.mediaUe (bits addr 63 60) (addr % 2 ^ 60)
  else if k = .glz ∧ src = 3 then s.kvUe (addr % 2 ^ 25)
  else (s.report page src (if k = .mmu ∧ src = 2 then addr % 64 else addr) syn false).errorEffect page src addr

/-- ERROR_SIGNAL. -/
def execErrorSignal (page : Fin 4096) (src : Fin 256) (addr : DWord) (syn : Word) (now : DWord) (s : State) :
    Host.Outcome State Fault Refusal :=
  .next (if errClass (pageKind page.val) src.val = 0 ∨ s.pow.phase = .off then s
    else (((s.at now.toNat).signalError page.val src.val addr.toNat syn.toNat).rolesSince s).strFenced)

/-! ### Commands of the Fault Collector that may fence a page or take it to FAULT (R423, R424, R443, R445) -/

/-- WIRE_POLL: each error counted is an event with the captured source and locator. -/
def execWirePoll (page : Fin 4096) (cls : Fin 4) (s : State) : Host.Outcome State Fault Refusal :=
  .next (if !smGet false s.flt.wire (page.val * 4 + cls.val) then s
    else
      let n := s.pollCount page.val cls.val
      let addr := (s.word page.val hADDRLO).toNat + 2 ^ 32 * (s.word page.val hADDRHI).toNat
      let s1 := s.rebase page.val cls.val
      (((List.replicate n ()).foldl (fun (a : State) _ =>
        a.collect page.val (a.fld page.val fERRSOURCE) cls.val addr (a.word page.val hSYN).toNat false) s1).rolesSince s).strFenced)

/-- AGGREGATOR_CHECK_FAIL. With both lost the FATAL sequence runs and every page goes to FAULT. -/
def execAggregatorCheckFail (i : Fin 2) (s : State) : Host.Outcome State Fault Refusal :=
  let other := 1 - i.val
  .next (if s.fld pgFLT (fAgg i.val) = 2 then s
    else
      let active := s.fld pgFLT (fAgg i.val) == 0
      let s1 := s.setFld pgFLT (fAgg i.val) 2
      let s2 := s1.journal (s1.mkRec spUNIT 0 false pgFLT 0 0 i.val 0 [5 + i.val])
      if s2.fld pgFLT (fAgg other) = 2 then
        ((allPages.foldl (fun (a : State) p => a.faultFatal p) (s2.report pgFLT 3 0 0 false)).rolesSince s).strFenced
      else if active then
        ((s2.setFld pgFLT (fAgg other) 0).event pgFLT ev_flt_AGG_SWITCH).report pgFLT 2 i.val 0 false
      else s2.report pgFLT 7 i.val 0 false)

/-- A write of FLT_INJECT: the page in FLT_RCV_SEL reports a source it lists with the CLASS written. -/
def State.fltInject (s : State) (v : Word) : State :=
  let s1 := s.noteRsv pgFLT r_FLT_INJECT v
  let key := bits v.toNat 31 16
  let cls := bits v.toNat 9 8
  let src := v.toNat % 256
  match pageOfId (s1.fld pgFLT f_FLT_RCV_SEL_TYPE) (s1.fld pgFLT f_FLT_RCV_SEL_INSTANCE) (s1.fld pgFLT f_FLT_RCV_SEL_PAGE) with
  | some p =>
    if key ≠ 0x4649 ∨ (cls ≠ 1 ∧ cls ≠ 2) ∨ errClass (pageKind p) src ≠ cls ∨ unfenceable p then s1.discard pgFLT
    else ((s1.report p src 0 0 false).rolesSince s1).strFenced
  | none => s1.discard pgFLT

/-- FLT_INJECT. -/
def execFltInject (v : Word) (s : State) : Host.Outcome State Fault Refusal := .next (s.via 0 (fun a => a.fltInject v))

/-! ### Easel and the clock references (R439, R440) -/

/-- LOCKSTEP. -/
def execLockstep (pair : Fin 2) (s : State) : Host.Outcome State Fault Refusal := .next ((s.discardPair pair.val).rolesSince s)

/-- PAIR_LOST: the two pairs produce different accesses with neither mismatched inside itself. -/
def execPairLost (s : State) : Host.Outcome State Fault Refusal := .next ((s.report pgEAS 4 0 0 false).rolesSince s)

/-- WATCHDOG. -/
def execWatchdog (s : State) : Host.Outcome State Fault Refusal := .next ((s.report pgEAS 5 0 0 false).rolesSince s)

/-- CLOCK_SWITCH: the active reference fails; the tree switches to the other, or the clock is lost. -/
def execClockSwitch (s : State) : Host.Outcome State Fault Refusal :=
  let r := s.fld pgFLT f_FLT_STATUS_CLOCK_REF
  .next (if smGet false s.flt.refFailed (1 - r) then
      (if smGet false s.flt.refFailed r then s
      else
        let s1 := { s with flt := { s.flt with refFailed := smSet false s.flt.refFailed r true } }
        ((s1.journal (s1.mkRec spUNIT 0 false pgFLT 5 0 0 0 [7 + r])).report pgFLT 5 0 0 false).rolesSince s)
    else
      let s1 := { s with flt := { s.flt with refFailed := smSet false s.flt.refFailed r true } }
      let s2 := s1.journal (s1.mkRec spUNIT 0 false pgFLT 4 0 0 0 [7 + r])
      (s2.setFld pgFLT f_FLT_STATUS_CLOCK_REF (1 - r)).report pgFLT 4 0 0 false)

/-! ### Ledger checks (R443) -/

/-- LEDGER_CHECK: a mismatch is recorded, the first one in MOD_LEDGER_FIRST_FAULT, and raises the page's LEDGER source. -/
def execLedgerCheck (page : Fin 4096) (index : Fin 8) (s : State) : Host.Outcome State Fault Refusal :=
  let l := s.ledger page.val index.val
  .next (if ledgerCount (pageKind page.val) ≤ index.val ∨ l.sums then s
    else
      let s1 := if s.word pgMOD r_MOD_LEDGER_FIRST_FAULT = 0#32 then
          s.setWord pgMOD r_MOD_LEDGER_FIRST_FAULT
            (BitVec.ofNat 32 (index.val * 2 ^ 24 + pageInstance page.val * 2 ^ 16 + blkType (pageKind page.val)))
        else s
      let s2 := s1.journal (s1.mkRec logLEDGER 3 false page.val (ledgerSource (pageKind page.val)) 0 0 0
        [index.val, l.free, l.held, l.transit])
      ((s2.report page.val (ledgerSource (pageKind page.val)) 0 0 false).rolesSince s).strFenced)

end Sys2Proof.Machine
end

