-- ==== Sys2Proof/Machine/Fetch.lean ====
section
/-! DEFINITION. Fetching and acceptance: submission rings, serving rings (R112, R197, R198, R472) and cadence rings (R157). -/

namespace Sys2Proof.Machine

open Sys2Proof

/-! ### Request commands (R197, R198) -/

/-- A request command from the 64 bytes of its slot, accepted at `now` by tenant t from ring r for queue q. -/
def parseReq (b : List Byte) (t r q now : Nat) : Req where
  tenant := t
  ring := r
  cq := q
  cmd := leAt b 0 1
  prio := leAt b 1 1 % 8
  intr := leAt b 2 1 % 2 == 1
  seq := leAt b 4 4
  arg := leAt b 8 8
  handle := leAt b 16 4 % 2 ^ 24
  plan := leAt b 20 1 % 4
  tring := leAt b 21 1 % 16
  domain := leAt b 22 1
  cflags := leAt b 23 1
  ttl := leAt b 24 4
  timeout := leAt b 56 4
  start := now

/-- CMD_FLAGS bits that a command defines, and whether it takes a request block, a TTL_S and a TIMEOUT. -/
def reqFlags (cmd : Nat) : Nat := if cmd = 0x21 ∨ cmd = 0x23 then 1 else 0
def reqBlockTaken (cmd : Nat) : Bool := cmd == 0x20 || cmd == 0x22
def reqParks (b : List Byte) : Bool := leAt b 0 1 == 0x23 && leAt b 23 1 % 2 == 1

/-- The first field of a request command that breaks R197, by its offset. -/
def reqFault (b : List Byte) : Option Nat :=
  let cmd := leAt b 0 1
  let arg := leAt b 8 8
  firstBad (([(1, leAt b 1 1 < 8), (2, leAt b 2 1 < 2), (3, leAt b 3 1 == 0),
     (8, if reqBlockTaken cmd then arg != 0 && arg % 64 == 0 else arg == 0),
     (16, decide (leAt b 16 4 < 2 ^ 24) && (leAt b 16 4 == 0 || !(cmd == 0x20 || cmd == 0x21))),
     (20, leAt b 20 1 < 4), (21, leAt b 21 1 < 16), (23, decide (leAt b 23 1 ≤ reqFlags cmd)),
     (24, if reqParks b then decide (1 ≤ leAt b 24 4 ∧ leAt b 24 4 ≤ 259200) else leAt b 24 4 == 0)] : List (Nat × Bool)) ++
    zeroTests b 28 28 ++ [(56, cmd == 0x22 || leAt b 56 4 == 0)] ++ zeroTests b 60 4)

/-- Tests 2 to 5 of R112 as R198 applies them. -/
def State.reqTests (s : State) (t : Nat) (b : List Byte) : Option (Nat × Nat) :=
  let cmd := leAt b 0 1
  let dom := leAt b 22 1
  if cmd < 0x20 ∨ 0x25 < cmd then some (scOPCODE, 0)
  else match reqFault b with
    | some o => some (scRESERVED, o)
    | none =>
      if leAt b 1 1 = 0 then some (scPRIV, 0)
      else if !s.ringValid t (leAt b 21 1) then some (scOWNED, 21)
      else if dom ≠ 0 ∧ !s.domMember dom t then some (scOWNED, 22)
      else none

/-- A request command is accepted or refused (R198): it takes no tag; its command waits for Easel firmware. -/
def State.acceptReq (s : State) (t r : Nat) (b : List Byte) : State :=
  let q := parseReq b t r (s.ringCq t r) s.time
  match s.seqKind t r q.seq with
  | .new =>
    match s.reqTests t b with
    | none =>
      let s1 := (s.enterSeq t r q.seq).headUp t r
      { s1 with srv := { s1.srv with reqs := smPut s1.srv.reqs s1.srv.orders q, orders := s1.srv.orders + 1 } }
    | some (st, det) => ((s.enterSeq t r q.seq).refuse t r (parseDesc b) st det true).headUp t r
  | _ => s.accept t r (parseDesc b) 0

/-! ### Fetching -/

/-- The next descriptor of a tenant's ring is read and accepted, or refused with a record. A slot that holds a poisoned word is taken as one
that cannot be read (log entry 70). -/
def State.fetchRing (s : State) (t r pick : Nat) : State :=
  if !s.fetchable t r then s
  else
    let d := s.ringSlot t r (s.word (ringPage t r) (r_RING_HEAD (r % 32))).toNat
    match s.readDva (bareWho t) d 64 with
    | .bad x e => s.slotFault t r x e
    | .ok b poisoned =>
      if poisoned then s.slotFault t r d mfHOST
      else if s.fld (ringPage t r) (f_RING_CFG_KIND (r % 32)) = 1 then s.acceptReq t r b
      else s.accept t r (parseDesc b) pick

/-- DESCRIPTOR_FETCH. The Host Interface takes rings in round robin; the command says which ring's turn it is. -/
def execDescriptorFetch (src : FetchFrom) (pick : Fin 8192) (now : DWord) (s : State) : Host.Outcome State Fault Refusal :=
  let s0 := s.at now.toNat
  .next (match src with
    | .ring t r => s0.fetchRing t.val r.val pick.val
    | .cadence d => s0.cadAccept d.val pick.val)

end Sys2Proof.Machine
end

