-- ==== Sys2Proof/Machine/Router.lean ====
section
/-! DEFINITION. REGISTER_WRITE (R34): a write to any register, by the page it lies in. A register whose write is a command of its own has that command's effect; every other stores its fields, or is discarded under the rule of its page. -/

namespace Sys2Proof.Machine

open Sys2Proof

/-- The index below `n` of the register array whose element i stands at word `r i`, if word `w` is one of them. -/
def idxOf (n : Nat) (r : Nat → Nat) (w : Nat) : Option Nat := (List.range n).find? (fun i => r i == w)

/-! ### Rules that several pages share -/

/-- A field that takes only the values from `lo` to `hi`; a write out of range is discarded. -/
def State.storeRanged (s : State) (page w : Nat) (f : Fld) (lo hi : Nat) (v : Word) : State :=
  if lo ≤ fldGet v f ∧ fldGet v f ≤ hi then s.storeReg page w v else s.discard page

/-- May the registers that describe a tenant be written (R317)? -/
def State.tenOpen (s : State) (t : Nat) : Bool :=
  ((s.tenant t).state == stOFF || (s.tenant t).state == stREFUSED) && (s.tenant t).tdi == 0

/-- A tenant-indexed register (R317). -/
def State.storeTen (s : State) (page t w : Nat) (v : Word) : State := if s.tenOpen t then s.storeReg page w v else s.discard page

/-! ### The common header (R31 to R41) -/

/-- A write to a header register. Registers of which every field is read only store nothing. -/
def State.headerWrite (s : State) (page w : Nat) (v : Word) : State :=
  if w = hCTRL then s.ctrlWrite page v
  else if w = hRAW then s.evtClear page v
  else if w = hENA then s.evtEnable page v
  else if w = 7 then s.evtForceW page v
  else if w = hERR then s.errWrite page v
  else if w = hLSEL then s.ledgerSel page v
  else if w = hPWRREQ then s.pwrWrite page v
  else if w = hCLKSEL then s.clkWrite page v
  else match headerRsv (pageKind page) w with
    | some _ => s.noteRsv page w v
    | none => if v = 0#32 then s else s.discard page

/-! ### Block-specific areas -/

/-- MOD (R46). -/
def State.modWrite (s : State) (w : Nat) (v : Word) : State :=
  if w = r_MOD_PD_REQ0 then s.pdReq0 v
  else if w = r_MOD_PD_REQ1 then s.pdReq1 v
  else if w = r_MOD_RESET then s.modResetWrite v
  else s.storeReg pgMOD w v

/-- FLT (R445). -/
def State.fltWrite (s : State) (w : Nat) (v : Word) : State :=
  if w = r_FLT_GRACE then s.storeRanged pgFLT w f_FLT_GRACE_US 10 1000000 v
  else if w = r_FLT_QUIET then s.storeRanged pgFLT w f_FLT_QUIET_MS 100 600000 v
  else if w = r_FLT_ACK then s.fltAck v
  else if w = r_FLT_INJECT then s.fltInject v
  else s.storeReg pgFLT w v

/-- A CAD domain page (R169). -/
def State.cadWrite (s : State) (page w : Nat) (v : Word) : State :=
  let d := pageIndex page
  match idxOf 4 r_CAD_EPT_DATA w with
  | some i => s.eptData d i v
  | none => if w = r_CAD_EPT_COMMIT then s.eptCommit d v else s.storeReg page w v

/-- VAR page 0 (R193): a Triptych entry takes writes while its domain is OFF or REFUSED. -/
def State.varWrite (s : State) (w : Nat) (v : Word) : State :=
  if 0x100 ≤ w ∧ w < 0x180 then
    (if s.checkedOpen (pgCAD ((w - 0x100) / 8)) then s.storeReg pgVAR0 w v else s.discard pgVAR0)
  else s.storeReg pgVAR0 w v

/-- HIF page 1 (R338): words 0x42 to 0x4E describe the tenant in HIF_TEN_SEL. -/
def State.tenWrite (s : State) (w : Nat) (v : Word) : State :=
  let t := s.fld pgTEN f_HIF_TEN_SEL_TENANT
  if w = r_HIF_TEN_CMD then s.tenCmd v
  else if r_HIF_TEN_STATE ≤ w ∧ w ≤ r_HIF_TEN_QUIET then
    (if 32 < t ∨ (r_HIF_TEN_CFG ≤ w ∧ w < r_HIF_TEN_ENABLED_LO ∧ !s.tenOpen t) then s.discard pgTEN
     else s.storeAt pgTEN (hmTEN t) w v)
  else s.storeReg pgTEN w v

/-- HIF page 2 (R339). -/
def State.setWrite (s : State) (w : Nat) (v : Word) : State :=
  let t := s.fld pgTEN f_HIF_TEN_SEL_TENANT
  if (rsvOf .hifSet w).isNone then s.storeReg pgSET w v
  else if 32 < t ∨ !s.tenOpen t then s.discard pgSET else s.storeAt pgSET (hmSET t) w v

/-- SEC (R420). -/
def State.secWrite (s : State) (w : Nat) (v : Word) : State :=
  let r := s.fld pgSEC f_SEC_WR_SEL_REGION
  if w = r_SEC_LC_CMD then s.lcCmd v
  else if w = r_SEC_ARB_CMD then s.arbCmd v
  else if w = r_SEC_KEY_CMD then s.keyCmd v
  else if w = r_SEC_WR_CMD then s.wrCmd v
  else if w = r_SEC_WR_SRC ∨ w = r_SEC_WR_CFG ∨ w = r_SEC_WR_FRAME then
    (if s.wrState r = wrEMPTY ∨ s.wrState r = wrFAILED then s.storeAt pgSEC (hmWR r) w v else s.discard pgSEC)
  else if (idxOf 24 r_SEC_TOKEN w).isSome then s.setWord pgSEC w v
  else s.storeReg pgSEC w v

/-- MMU (R341). -/
def State.mmuWrite (s : State) (w : Nat) (v : Word) : State :=
  if w = r_MMU_CMD then (s.noteRsv pgMMU w v).mmuCmd (v.toNat % 8) else s.storeReg pgMMU w v

/-- The SYN page and its tenant view (R130): a write of the counter selection forgets the low half held for an add. -/
def State.synWrite (s : State) (page w : Nat) (v : Word) : State :=
  let own := decide (page = pgSYN)
  if w = (if own then r_SYN_ADD_LO else r_SYN_T_ADD_LO) then s.addLoWrite page v
  else if w = (if own then r_SYN_ADD_HI else r_SYN_T_ADD_HI) then s.addHiWrite page v
  else if w = (if own then r_SYN_SEL else r_SYN_T_SEL) then (s.storeReg page w v).addLoWrite page 0#32
  else if own then (match idxOf 33 r_SYN_ALLOC w with
    | some t => s.storeTen page t w v
    | none => s.storeReg page w v)
  else s.storeReg page w v

/-- The memory tiers' pages (R307 to R309). -/
def State.tierWrite (s : State) (t w : Nat) (v : Word) : State :=
  let pg := tierPage t
  if w = r_HBM_MARCH_CMD then (s.noteRsv pg w v).marchCmd t v
  else if t = 0 then (match idxOf 32 r_STU_BANK w with
    | some n => (s.noteRsv pg w v).stuBankWrite n v
    | none => if w = r_STU_SCRUB then s.storeRanged pg w f_STU_SCRUB_MS 10 60000 v else s.storeReg pg w v)
  else if t = 1 ∧ w = r_HBM_SCRUB then s.storeRanged pg w f_HBM_SCRUB_HOURS 1 168 v
  else if t = 2 ∧ w = r_LFT_SCRUB then s.storeRanged pg w f_LFT_SCRUB_HOURS 1 168 v
  else s.storeReg pg w v

/-- FRS (R310): the module's own partitions are read only. -/
def State.frsWriteReg (s : State) (w : Nat) (v : Word) : State :=
  if w = r_FRS_RING_TAIL then (s.noteRsv pgFRS w v).frsTail v
  else if w < r_FRS_PART 5 then s.noteRsv pgFRS w v
  else s.storeReg pgFRS w v

/-- GLZ (R248). -/
def State.glzWrite (s : State) (w : Nat) (v : Word) : State :=
  match (idxOf 33 r_GLZ_QUOTA_HBM w).or (idxOf 33 r_GLZ_QUOTA_LOFT w) with
  | some t => s.storeTen pgGLZ t w v
  | none => s.storeReg pgGLZ w v

/-- The member mask of the selected shared domain (R215). -/
def State.domMembers (s : State) (w : Nat) (v : Word) : State :=
  let s0 := s.noteRsv pgSMP w v
  match s0.selDom with
  | none => s0.discard pgSMP
  | some d =>
    let x := s0.sdom d
    let m := if w = r_SMP_DOM_MEMBERS_LO then x.members / 2 ^ 32 * 2 ^ 32 + v.toNat else x.members % 2 ^ 32 + v.toNat % 2 * 2 ^ 32
    s0.setSdom d { x with members := m }

/-- SMP (R225): words 0 to 2 of a key are held until word 3 installs it. -/
def State.smpWrite (s : State) (w : Nat) (v : Word) : State :=
  match idxOf 33 r_SMP_SERVE w, idxOf 3 r_SMP_DOM_KEY w with
  | some t, _ => s.storeTen pgSMP t w v
  | none, some _ => if s.selDom.isNone then s.discard pgSMP else s.setWord pgSMP w v
  | none, none =>
    if w = r_SMP_DOM_KEY 3 then s.domKey3 v
    else if w = r_SMP_DOM_CTRL then s.domCtrl v
    else if w = r_SMP_DOM_MEMBERS_LO ∨ w = r_SMP_DOM_MEMBERS_HI then s.domMembers w v
    else s.storeReg pgSMP w v

/-- The slot of a palette destination that a word belongs to (R262). -/
def pdSlot (w : Nat) : Option Nat := if r_VCE_PDEST_DESC_LO 0 ≤ w ∧ w < r_VCE_PDEST_DESC_LO 16 then some ((w - r_VCE_PDEST_DESC_LO 0) / 4) else none

/-- A VCE page (R280). -/
def State.vceWrite (s : State) (page w : Nat) (v : Word) : State :=
  let e := pageInstance page
  match idxOf 33 r_VCE_QUOTA w, pdSlot w with
  | some t, _ => s.storeTen page t w v
  | none, some n => s.pdWrite e n w v
  | none, none => if w = r_VCE_PDEST_CMD then s.pdCommit e v else s.storeReg page w v

/-- ING (R393): words 0x81 to 0x91 belong to the stream in ING_STR_SEL. -/
def State.ingWriteReg (s : State) (w : Nat) (v : Word) : State :=
  if w = r_ING_STR_CMD then
    (let s0 := s.noteRsv pgING w v
     let op := v.toNat % 4
     if op = 1 then s0.strCmd (fun n b => b.strCommit n)
     else if op = 2 then s0.strCmd (fun n b => b.strDisable n)
     else if op = 0 then s0 else s0.discard pgING)
  else if r_ING_STR_FORMAT ≤ w ∧ w ≤ r_ING_STR_CNT_BAD then s.storeAt pgING (hmSTR (s.fld pgING f_ING_STR_SEL_STREAM)) w v
  else s.storeReg pgING w v

/-- A Mural port's page (R373). -/
def State.portWrite (s : State) (page w : Nat) (v : Word) : State :=
  let p := page - pgPORT 0
  if w = r_MUR_PORT_CTRL then s.portCtrl p v
  else if w = r_MUR_PORT_TEST then s.portTest p v
  else s.storeReg page w v

/-- The Mural route page (R374). -/
def State.rtWrite (s : State) (w : Nat) (v : Word) : State :=
  if w = r_MUR_RT_DATA then s.routeData v
  else if w = r_MUR_RT_COMMIT then s.routeCommit v
  else s.storeReg pgRT w v

/-- The Mural job page (R375). -/
def State.jobWriteReg (s : State) (w : Nat) (v : Word) : State :=
  if r_MUR_JOB_CFG ≤ w ∧ w ≤ r_MUR_JOB_EC_SIGNAL then s.jobWrite w v
  else if w = r_MUR_JOB_MEMBER then s.memberWrite v
  else if w = r_MUR_JOB_CMD then s.jobCmd v
  else s.storeReg pgJOB w v

/-- MGT (R394). What an I2C bus shows as it is enabled is a free value. -/
def State.mgtWrite (s : State) (w : Nat) (v : Word) : State :=
  match idxOf 4 r_MGT_I2C_CTRL w with
  | some b =>
    let x := s.freeBelow 8
    (s.used.noteRsv pgMGT w v).busCtrl b v ⟨x % 2 == 1, x / 2 % 2 == 1, x / 4 == 1⟩
  | none =>
    if w = r_MGT_POWER_CAP then (s.noteRsv pgMGT w v).capWrite v
    else if w = r_MGT_OUT_LEVEL then (s.noteRsv pgMGT w v).outLevelWrite v
    else s.storeReg pgMGT w v

/-- A tenant's ring configuration page (R343, R322, R432). -/
def State.ringWrite (s : State) (t page w : Nat) (v : Word) : State :=
  let i := (w - 0x40) / 8
  let r := i + (if page = tenantPage t 2 then 32 else 0)
  if 32 ≤ i then s.storeReg page w v
  else if w = r_RING_CFG i then (s.noteRsv page w v).ringCfgWrite t r v
  else if (w = r_RING_BASE_LO i ∨ w = r_RING_BASE_HI i) ∧ s.ringOn t r then s.discard page
  else if w = r_RING_TIMEOUT i ∧ 1 ≤ v.toNat ∧ v.toNat ≤ 40 then s.discard page
  else s.storeReg page w v

/-- A tenant's completion queue page (R345, R324). -/
def State.cqWrite (s : State) (t page w : Nat) (v : Word) : State :=
  let q := (w - 0x40) / 4
  if 0x140 ≤ w then s.storeReg page w v
  else if w = r_CQ_CFG q then (s.noteRsv page w v).cqCfgWrite t q v
  else if w = r_CQ_HEAD q then s.cqHead t q v
  else if s.cqOn t q then s.discard page
  else s.storeReg page w v

/-- A tenant's SMP view (R226). -/
def State.smpTWrite (s : State) (t page w : Nat) (v : Word) : State :=
  match idxOf 16 r_SMP_T_RING_PTR w with
  | some r => s.tokenHead t r v
  | none => s.storeReg page w v

/-- The status page of a tenant (R342): a vector beyond the function's is discarded. -/
def State.tntWrite (s : State) (t page w : Nat) (v : Word) : State :=
  if w = r_TNT_EVT ∧ t ≠ 0 ∧ 31 < fldGet v f_TNT_EVT_VECTOR then s.discard page else s.storeReg page w v

/-- A write to a word of a page's block-specific area. -/
def State.blockWrite (s : State) (page w : Nat) (v : Word) : State :=
  let t := match tenantOfPage page with | some (x, _) => x | none => 0
  match pageKind page with
  | .mod => s.modWrite w v
  | .flt => s.fltWrite w v
  | .cadDom => s.cadWrite page w v
  | .var0 => s.varWrite w v
  | .dip => if w = r_VAR_DIP_CMD then s.dipCmd v else s.storeReg page w v
  | .hifTen => s.tenWrite w v
  | .hifSet => s.setWrite w v
  | .sec => s.secWrite w v
  | .mmu => s.mmuWrite w v
  | .syn | .synT => s.synWrite page w v
  | .stu => s.tierWrite 0 w v
  | .hbm => s.tierWrite 1 w v
  | .lft => s.tierWrite 2 w v
  | .frs => s.frsWriteReg w v
  | .glz => s.glzWrite w v
  | .smp => s.smpWrite w v
  | .vce => s.vceWrite page w v
  | .ing => s.ingWriteReg w v
  | .murPort => s.portWrite page w v
  | .murRt => s.rtWrite w v
  | .murJob => s.jobWriteReg w v
  | .mgt => s.mgtWrite w v
  | .cnv => if w = r_CNV_RETIRE then (s.noteRsv page w v).cnvRetire page v else s.storeReg page w v
  | .pnl => if w = r_PNL_RETIRE then (s.noteRsv page w v).pnlRetire page v else s.storeReg page w v
  | .tnt => s.tntWrite t page w v
  | .ringCfg => s.ringWrite t page w v
  | .doorbell => if 0x40 ≤ w ∧ w < 0x80 then s.doorbellWrite t (w - 0x40) v else s.storeReg page w v
  | .cqPage => s.cqWrite t page w v
  | .smpT => s.smpTWrite t page w v
  | _ => s.storeReg page w v

/-- A 32-bit write to a register page. -/
def State.pageWrite (s : State) (page w : Nat) (v : Word) : State :=
  if w < 64 then s.headerWrite page w v else s.blockWrite page w v

/-- REGISTER_WRITE, by the form of the access (R24): an aligned word; an aligned pair, one access to its two registers; any other access,
which is discarded in the page it names. -/
def execRegisterWrite (a : Acc) (x : RegWrite) (s : State) : Host.Outcome State Fault Refusal :=
  .next (match x with
    | .word w v => s.access a v (fun page s1 => s1.pageWrite page w.val v)
    | .pair w v =>
      s.access a (v.setWidth 32 ||| (v >>> 32).setWidth 32) (fun page s1 =>
        (s1.pageWrite page (2 * w.val) (v.setWidth 32)).pageWrite page (2 * w.val + 1) ((v >>> 32).setWidth 32))
    | .odd _ _ v => s.access a (v.setWidth 32 ||| (v >>> 32).setWidth 32) (fun page s1 => s1.discard page))

end Sys2Proof.Machine
end

