-- ==== Sys2Proof/Machine/Dispatch.lean ====
section
/-! DEFINITION. One arm per command of the opcode table: each calls the command's own meaning. -/

namespace Sys2Proof.Machine

open Sys2Proof

def exec (i : Instr) (s : State) : Host.Outcome State Fault Refusal :=
  match i with
  | .registerWrite a x => Sys2Proof.Machine.execRegisterWrite a x s
  | .enable a => Sys2Proof.Machine.execEnable a s
  | .enableCheckEnd c now => Sys2Proof.Machine.execEnableCheckEnd c now s
  | .disable a => Sys2Proof.Machine.execDisable a s
  | .quiesce a => Sys2Proof.Machine.execQuiesce a s
  | .quiesceClear a => Sys2Proof.Machine.execQuiesceClear a s
  | .quiesced page now => Sys2Proof.Machine.execQuiesced page now s
  | .softReset a => Sys2Proof.Machine.execSoftReset a s
  | .lockPage a => Sys2Proof.Machine.execLockPage a s
  | .evtRawClear a v => Sys2Proof.Machine.execEvtRawClear a v s
  | .evtForce a v => Sys2Proof.Machine.execEvtForce a v s
  | .errStatusClear a valid overflow => Sys2Proof.Machine.execErrStatusClear a valid overflow s
  | .clrCounts a => Sys2Proof.Machine.execClrCounts a s
  | .ledgerSnapshot a v => Sys2Proof.Machine.execLedgerSnapshot a v s
  | .pwrReqDoze a => Sys2Proof.Machine.execPwrReqDoze a s
  | .dozeGated a => Sys2Proof.Machine.execDozeGated a s
  | .pwrReqActive a => Sys2Proof.Machine.execPwrReqActive a s
  | .clocksRestarted a => Sys2Proof.Machine.execClocksRestarted a s
  | .clkSelWrite a v => Sys2Proof.Machine.execClkSelWrite a v s
  | .modPdReq0Write v => Sys2Proof.Machine.execModPdReq0Write v s
  | .modPdReq1Write v => Sys2Proof.Machine.execModPdReq1Write v s
  | .pdTransitionDone => Sys2Proof.Machine.execPdTransitionDone s
  | .quadClearDone c q => Sys2Proof.Machine.execQuadClearDone c q s
  | .moduleReset v now => Sys2Proof.Machine.execModuleReset v now s
  | .modTimeRead now => Sys2Proof.Machine.execModTimeRead now s
  | .modPtpOffsetRead => Sys2Proof.Machine.execModPtpOffsetRead s
  | .stepStart p => Sys2Proof.Machine.execStepStart p s
  | .stepEnd p => Sys2Proof.Machine.execStepEnd p s
  | .streamSlotLand p port kind => Sys2Proof.Machine.execStreamSlotLand p port kind s
  | .meshFlitArrival c move => Sys2Proof.Machine.execMeshFlitArrival c move s
  | .grantWithdrawTimeout p => Sys2Proof.Machine.execGrantWithdrawTimeout p s
  | .coreSubstitution p storeUe => Sys2Proof.Machine.execCoreSubstitution p storeUe s
  | .pnlRetire p v => Sys2Proof.Machine.execPnlRetire p v s
  | .panelSubstitution p dead storeUe => Sys2Proof.Machine.execPanelSubstitution p dead storeUe s
  | .cnvRetire c v => Sys2Proof.Machine.execCnvRetire c v s
  | .proactivePanelRetirement p now => Sys2Proof.Machine.execProactivePanelRetirement p now s
  | .pnlCyclesRead p => Sys2Proof.Machine.execPnlCyclesRead p s
  | .quantumExpiry p => Sys2Proof.Machine.execQuantumExpiry p s
  | .tenantSwitch p tagOk => Sys2Proof.Machine.execTenantSwitch p tagOk s
  | .doorbell t r tail => Sys2Proof.Machine.execDoorbell t r tail s
  | .descriptorFetch src pick now => Sys2Proof.Machine.execDescriptorFetch src pick now s
  | .opRun tag now => Sys2Proof.Machine.execOpRun tag now s
  | .opCopy tag now => Sys2Proof.Machine.execOpCopy tag now s
  | .opFill tag now => Sys2Proof.Machine.execOpFill tag now s
  | .opSignal tag now => Sys2Proof.Machine.execOpSignal tag now s
  | .opWait tag now => Sys2Proof.Machine.execOpWait tag now s
  | .cartoonLoad tag now => Sys2Proof.Machine.execCartoonLoad tag now s
  | .attend tag now => Sys2Proof.Machine.execAttend tag now s
  | .glazeAppend tag now => Sys2Proof.Machine.execGlazeAppend tag now s
  | .glazeMove tag slot now => Sys2Proof.Machine.execGlazeMove tag slot now s
  | .sample tag now => Sys2Proof.Machine.execSample tag now s
  | .vdecOpen tag eng pick now => Sys2Proof.Machine.execVdecOpen tag eng pick now s
  | .vdecDecode tag eng now => Sys2Proof.Machine.execVdecDecode tag eng now s
  | .vdecFlush tag eng now => Sys2Proof.Machine.execVdecFlush tag eng now s
  | .vdecClose tag eng now => Sys2Proof.Machine.execVdecClose tag eng now s
  | .vencOpen tag eng pick now => Sys2Proof.Machine.execVencOpen tag eng pick now s
  | .vencEncode tag eng now => Sys2Proof.Machine.execVencEncode tag eng now s
  | .vencReconfigure tag eng now => Sys2Proof.Machine.execVencReconfigure tag eng now s
  | .vencFlush tag eng now => Sys2Proof.Machine.execVencFlush tag eng now s
  | .vencClose tag eng now => Sys2Proof.Machine.execVencClose tag eng now s
  | .ecEncode tag now => Sys2Proof.Machine.execEcEncode tag now s
  | .ecRebuild tag now => Sys2Proof.Machine.execEcRebuild tag now s
  | .gesso tag now => Sys2Proof.Machine.execGesso tag now s
  | .prefixLookup tag now => Sys2Proof.Machine.execPrefixLookup tag now s
  | .operationComplete tag now => Sys2Proof.Machine.execOperationComplete tag now s
  | .completionPost t q => Sys2Proof.Machine.execCompletionPost t q s
  | .operationTimeout tag now => Sys2Proof.Machine.execOperationTimeout tag now s
  | .synAdd hi => Sys2Proof.Machine.execSynAdd hi s
  | .synTAdd t hi => Sys2Proof.Machine.execSynTAdd t hi s
  | .synValueRead t => Sys2Proof.Machine.execSynValueRead t s
  | .referenceEdge ch a b ha hb ts => Sys2Proof.Machine.execReferenceEdge ch a b ha hb ts s
  | .indexEdge ch held ts => Sys2Proof.Machine.execIndexEdge ch held ts s
  | .trackerUpdate d now => Sys2Proof.Machine.execTrackerUpdate d now s
  | .positionEvaluation d now => Sys2Proof.Machine.execPositionEvaluation d now s
  | .triggerPulseEnd j now => Sys2Proof.Machine.execTriggerPulseEnd j now s
  | .standstill d now => Sys2Proof.Machine.execStandstill d now s
  | .eptCommit d v => Sys2Proof.Machine.execEptCommit d v s
  | .eptBankSwitch d => Sys2Proof.Machine.execEptBankSwitch d s
  | .markQueueRead d => Sys2Proof.Machine.execMarkQueueRead d s
  | .cadDomPositionRead d which now => Sys2Proof.Machine.execCadDomPositionRead d which now s
  | .cadRefCountRead ch => Sys2Proof.Machine.execCadRefCountRead ch s
  | .lossOfSignal ch line => Sys2Proof.Machine.execLossOfSignal ch line s
  | .losCleared ch line => Sys2Proof.Machine.execLosCleared ch line s
  | .voteDecision tag now => Sys2Proof.Machine.execVoteDecision tag now s
  | .skewTimeout tag now => Sys2Proof.Machine.execSkewTimeout tag now s
  | .channelRecovery d c => Sys2Proof.Machine.execChannelRecovery d c s
  | .recoveryWindowClear d => Sys2Proof.Machine.execRecoveryWindowClear d s
  | .voterCheck v => Sys2Proof.Machine.execVoterCheck v s
  | .voterMismatch tag fail0 fail1 => Sys2Proof.Machine.execVoterMismatch tag fail0 fail1 s
  | .pairingFrame serial prefer role digest => Sys2Proof.Machine.execPairingFrame serial prefer role digest s
  | .heartbeatSend now => Sys2Proof.Machine.execHeartbeatSend now s
  | .heartbeatReceive role p doms hand ack now => Sys2Proof.Machine.execHeartbeatReceive role p doms hand ack now s
  | .hbMiss now => Sys2Proof.Machine.execHbMiss now s
  | .snapshotStart d n => Sys2Proof.Machine.execSnapshotStart d n s
  | .snapshotReceive d n word data crc => Sys2Proof.Machine.execSnapshotReceive d n word data crc s
  | .snapshotCompare d => Sys2Proof.Machine.execSnapshotCompare d s
  | .handover v now => Sys2Proof.Machine.execHandover v now s
  | .takeActive v now => Sys2Proof.Machine.execTakeActive v now s
  | .varDipPeerSerialRead => Sys2Proof.Machine.execVarDipPeerSerialRead s
  | .diptychFrameReceive seq crcOk corrected acked => Sys2Proof.Machine.execDiptychFrameReceive seq crcOk corrected acked s
  | .diptychLaneSwap lane => Sys2Proof.Machine.execDiptychLaneSwap lane s
  | .diptychLinkDown partialSnap => Sys2Proof.Machine.execDiptychLinkDown partialSnap s
  | .diptychLinkDownTimeout => Sys2Proof.Machine.execDiptychLinkDownTimeout s
  | .diptychLinkUp => Sys2Proof.Machine.execDiptychLinkUp s
  | .planLoad idx now => Sys2Proof.Machine.execPlanLoad idx now s
  | .seqOpen idx pick now => Sys2Proof.Machine.execSeqOpen idx pick now s
  | .seqGenerate idx now => Sys2Proof.Machine.execSeqGenerate idx now s
  | .seqPause idx now => Sys2Proof.Machine.execSeqPause idx now s
  | .seqCancel idx now => Sys2Proof.Machine.execSeqCancel idx now s
  | .seqClose idx now => Sys2Proof.Machine.execSeqClose idx now s
  | .batchStep t plan only now => Sys2Proof.Machine.execBatchStep t plan only now s
  | .stepReissue t plan k now => Sys2Proof.Machine.execStepReissue t plan k now s
  | .easelSampleIssue t plan k now => Sys2Proof.Machine.execEaselSampleIssue t plan k now s
  | .samplerDecision job now => Sys2Proof.Machine.execSamplerDecision job now s
  | .tokenCommit job now => Sys2Proof.Machine.execTokenCommit job now s
  | .seqExpired slot now => Sys2Proof.Machine.execSeqExpired slot now s
  | .tokenRingHead t r v => Sys2Proof.Machine.execTokenRingHead t r v s
  | .domainKeyInstall v => Sys2Proof.Machine.execDomainKeyInstall v s
  | .genKey v => Sys2Proof.Machine.execGenKey v s
  | .sharedDomainValid v => Sys2Proof.Machine.execSharedDomainValid v s
  | .smpDecisionsRead => Sys2Proof.Machine.execSmpDecisionsRead s
  | .appendLayer tag now => Sys2Proof.Machine.execAppendLayer tag now s
  | .attendLayerStep p now => Sys2Proof.Machine.execAttendLayerStep p now s
  | .decodeFrameStart eng ctx now => Sys2Proof.Machine.execDecodeFrameStart eng ctx now s
  | .decodeFrameEnd eng now => Sys2Proof.Machine.execDecodeFrameEnd eng now s
  | .encodeFrameStart eng ctx now => Sys2Proof.Machine.execEncodeFrameStart eng ctx now s
  | .sliceEmit eng now => Sys2Proof.Machine.execSliceEmit eng now s
  | .pdestCommit eng v => Sys2Proof.Machine.execPdestCommit eng v s
  | .patrolScrub tier found syn now => Sys2Proof.Machine.execPatrolScrub tier found syn now s
  | .weightRepair addr syn now => Sys2Proof.Machine.execWeightRepair addr syn now s
  | .weightRepaired block media now => Sys2Proof.Machine.execWeightRepaired block media now s
  | .pieceRetired piece => Sys2Proof.Machine.execPieceRetired piece s
  | .bankHandover n v => Sys2Proof.Machine.execBankHandover n v s
  | .handoverDone n => Sys2Proof.Machine.execHandoverDone n s
  | .bankGuestChange n guest => Sys2Proof.Machine.execBankGuestChange n guest s
  | .marchStart tier v => Sys2Proof.Machine.execMarchStart tier v s
  | .marchDone tier fails => Sys2Proof.Machine.execMarchDone tier fails s
  | .marchFailRead tier => Sys2Proof.Machine.execMarchFailRead tier s
  | .clearDone loft => Sys2Proof.Machine.execClearDone loft s
  | .frescoRingTail v => Sys2Proof.Machine.execFrescoRingTail v s
  | .frescoRead media => Sys2Proof.Machine.execFrescoRead media s
  | .frescoWrite => Sys2Proof.Machine.execFrescoWrite s
  | .frescoTrim => Sys2Proof.Machine.execFrescoTrim s
  | .frescoFlush => Sys2Proof.Machine.execFrescoFlush s
  | .cmdDone slot => Sys2Proof.Machine.execCmdDone slot s
  | .perstAssert now => Sys2Proof.Machine.execPerstAssert now s
  | .resetRelease okA okB svnA svnB now => Sys2Proof.Machine.execResetRelease okA okB svnA svnB now s
  | .configReady speed lanes flit fails now => Sys2Proof.Machine.execConfigReady speed lanes flit fails now s
  | .configRequest fn => Sys2Proof.Machine.execConfigRequest fn s
  | .pciConfigWrite w now => Sys2Proof.Machine.execPciConfigWrite w now s
  | .flr vf now => Sys2Proof.Machine.execFlr vf now s
  | .vfEnableClear now => Sys2Proof.Machine.execVfEnableClear now s
  | .d3hotEntry fn => Sys2Proof.Machine.execD3hotEntry fn s
  | .hostCompletion t line c => Sys2Proof.Machine.execHostCompletion t line c s
  | .hostCompletionTimeout line => Sys2Proof.Machine.execHostCompletionTimeout line s
  | .ideFail stream now => Sys2Proof.Machine.execIdeFail stream now s
  | .ideKm sid m now => Sys2Proof.Machine.execIdeKm sid m now s
  | .tenantEnable t now => Sys2Proof.Machine.execTenantEnable t now s
  | .tenantDisable t now => Sys2Proof.Machine.execTenantDisable t now s
  | .tenantQuiet t now => Sys2Proof.Machine.execTenantQuiet t now s
  | .ringEnable t r v => Sys2Proof.Machine.execRingEnable t r v s
  | .ringDisable t r => Sys2Proof.Machine.execRingDisable t r s
  | .cqEnable t q v => Sys2Proof.Machine.execCqEnable t q v s
  | .cqDisable t q => Sys2Proof.Machine.execCqDisable t q s
  | .cqHeadWrite t q v => Sys2Proof.Machine.execCqHeadWrite t q v s
  | .cqWriteRetry t q => Sys2Proof.Machine.execCqWriteRetry t q s
  | .holdoffEnd t q => Sys2Proof.Machine.execHoldoffEnd t q s
  | .mmuMap => Sys2Proof.Machine.execMmuMap s
  | .mmuUnmap => Sys2Proof.Machine.execMmuUnmap s
  | .setWindow => Sys2Proof.Machine.execSetWindow s
  | .clearWindow => Sys2Proof.Machine.execClearWindow s
  | .clearWindowRemove => Sys2Proof.Machine.execClearWindowRemove s
  | .mmuFaultPop t => Sys2Proof.Machine.execMmuFaultPop t s
  | .mmuFaultDvaRead t => Sys2Proof.Machine.execMmuFaultDvaRead t s
  | .getTdispVersion sid t => Sys2Proof.Machine.execGetTdispVersion sid t s
  | .getTdispCapabilities sid t => Sys2Proof.Machine.execGetTdispCapabilities sid t s
  | .lockInterfaceRequest sid t stream noUpdate => Sys2Proof.Machine.execLockInterfaceRequest sid t stream noUpdate s
  | .getDeviceInterfaceReport sid t => Sys2Proof.Machine.execGetDeviceInterfaceReport sid t s
  | .getDeviceInterfaceState sid t => Sys2Proof.Machine.execGetDeviceInterfaceState sid t s
  | .startInterfaceRequest sid t nonce => Sys2Proof.Machine.execStartInterfaceRequest sid t nonce s
  | .stopInterfaceRequest sid t now => Sys2Proof.Machine.execStopInterfaceRequest sid t now s
  | .getVersion => Sys2Proof.Machine.execGetVersion s
  | .getCapabilities => Sys2Proof.Machine.execGetCapabilities s
  | .negotiateAlgorithms offered => Sys2Proof.Machine.execNegotiateAlgorithms offered s
  | .getCertificate slot off len => Sys2Proof.Machine.execGetCertificate slot off len s
  | .challenge slot nonce => Sys2Proof.Machine.execChallenge slot nonce s
  | .getMeasurements index signed nonce now => Sys2Proof.Machine.execGetMeasurements index signed nonce now s
  | .keyExchange data now => Sys2Proof.Machine.execKeyExchange data now s
  | .spdmHeartbeat sid now => Sys2Proof.Machine.execSpdmHeartbeat sid now s
  | .keyUpdate sid => Sys2Proof.Machine.execKeyUpdate sid s
  | .muralFrameReceive port off sync flitsOk fec tail => Sys2Proof.Machine.execMuralFrameReceive port off sync flitsOk fec tail s
  | .dataFlitReceive port flit now => Sys2Proof.Machine.execDataFlitReceive port flit now s
  | .controlFlitReceive port wire ackV ack nakV nak c0 c1 c2 now => Sys2Proof.Machine.execControlFlitReceive port wire ackV ack nakV nak c0 c1 c2 now s
  | .controlFlitSend port now => Sys2Proof.Machine.execControlFlitSend port now s
  | .nakRepeat port now => Sys2Proof.Machine.execNakRepeat port now s
  | .replayTimeout port now => Sys2Proof.Machine.execReplayTimeout port now s
  | .laneSwapped port lane now => Sys2Proof.Machine.execLaneSwapped port lane now s
  | .portPowerWrite port v => Sys2Proof.Machine.execPortPowerWrite port v s
  | .powerDone port now => Sys2Proof.Machine.execPowerDone port now s
  | .muralLinkUp port peer peerPort stepping x4 rtt now => Sys2Proof.Machine.execMuralLinkUp port peer peerPort stepping x4 rtt now s
  | .muralLinkDown port los now => Sys2Proof.Machine.execMuralLinkDown port los now s
  | .linkDownTimeout port now => Sys2Proof.Machine.execLinkDownTimeout port now s
  | .muralWrite now => Sys2Proof.Machine.execMuralWrite now s
  | .muralReadReq now => Sys2Proof.Machine.execMuralReadReq now s
  | .readResp now => Sys2Proof.Machine.execReadResp now s
  | .writeAck now => Sys2Proof.Machine.execWriteAck now s
  | .muralSignal now => Sys2Proof.Machine.execMuralSignal now s
  | .signalAck now => Sys2Proof.Machine.execSignalAck now s
  | .ecContrib now => Sys2Proof.Machine.execEcContrib now s
  | .ecAck now => Sys2Proof.Machine.execEcAck now s
  | .packetRoute n now => Sys2Proof.Machine.execPacketRoute n now s
  | .routeWaitTimeout n now => Sys2Proof.Machine.execRouteWaitTimeout n now s
  | .requestTimeout entry now => Sys2Proof.Machine.execRequestTimeout entry now s
  | .routeStall port vc => Sys2Proof.Machine.execRouteStall port vc s
  | .routeCommit v => Sys2Proof.Machine.execRouteCommit v s
  | .routeEpochRetire => Sys2Proof.Machine.execRouteEpochRetire s
  | .jobOpen slot => Sys2Proof.Machine.execJobOpen slot s
  | .jobClose slot => Sys2Proof.Machine.execJobClose slot s
  | .memberStateWrite v => Sys2Proof.Machine.execMemberStateWrite v s
  | .portTest port v => Sys2Proof.Machine.execPortTest port v s
  | .testDone port errors => Sys2Proof.Machine.execTestDone port errors s
  | .ethernetFrame idx len fcs tags b now => Sys2Proof.Machine.execEthernetFrame idx len fcs tags b now s
  | .gvspPacket idx dst port ext p now => Sys2Proof.Machine.execGvspPacket idx dst port ext p now s
  | .rtpPacket idx dst port p now => Sys2Proof.Machine.execRtpPacket idx dst port p now s
  | .rtpReorderTimeout n now => Sys2Proof.Machine.execRtpReorderTimeout n now s
  | .rawPacket idx b now => Sys2Proof.Machine.execRawPacket idx b now s
  | .frameTimeout n now => Sys2Proof.Machine.execFrameTimeout n now s
  | .arpRequest idx target => Sys2Proof.Machine.execArpRequest idx target s
  | .ptpMessage idx udp domain m now => Sys2Proof.Machine.execPtpMessage idx udp domain m now s
  | .ptpAnnounceTimeout => Sys2Proof.Machine.execPtpAnnounceTimeout s
  | .streamCommit => Sys2Proof.Machine.execStreamCommit s
  | .streamDisable => Sys2Proof.Machine.execStreamDisable s
  | .linkChange idx up => Sys2Proof.Machine.execLinkChange idx up s
  | .inputEdge idx high held t => Sys2Proof.Machine.execInputEdge idx high held t s
  | .mgtInEdgeRead idx => Sys2Proof.Machine.execMgtInEdgeRead idx s
  | .mgtOutLevelWrite v => Sys2Proof.Machine.execMgtOutLevelWrite v s
  | .mgtPowerCapWrite v => Sys2Proof.Machine.execMgtPowerCapWrite v s
  | .powerSample mv ma avg proj now => Sys2Proof.Machine.execPowerSample mv ma avg proj now s
  | .i2cEnable b v sdaLow sclLow freed => Sys2Proof.Machine.execI2cEnable b v sdaLow sclLow freed s
  | .i2cDisable b v => Sys2Proof.Machine.execI2cDisable b v s
  | .i2cStretchTimeout b recovered => Sys2Proof.Machine.execI2cStretchTimeout b recovered s
  | .setEndpointId op eid => Sys2Proof.Machine.execSetEndpointId op eid s
  | .getEndpointId => Sys2Proof.Machine.execGetEndpointId s
  | .getMctpVersionSupport typ => Sys2Proof.Machine.execGetMctpVersionSupport typ s
  | .getMessageTypeSupport => Sys2Proof.Machine.execGetMessageTypeSupport s
  | .getEndpointUuid => Sys2Proof.Machine.execGetEndpointUuid s
  | .getTid => Sys2Proof.Machine.execGetTid s
  | .getPldmVersion typ => Sys2Proof.Machine.execGetPldmVersion typ s
  | .getPldmTypes => Sys2Proof.Machine.execGetPldmTypes s
  | .getPldmCommands typ => Sys2Proof.Machine.execGetPldmCommands typ s
  | .getSensorReading idx => Sys2Proof.Machine.execGetSensorReading idx s
  | .setEventReceiver enable eid => Sys2Proof.Machine.execSetEventReceiver enable eid s
  | .resetStateEffecter now => Sys2Proof.Machine.execResetStateEffecter now s
  | .powerCapEffecter w => Sys2Proof.Machine.execPowerCapEffecter w s
  | .requestUpdate => Sys2Proof.Machine.execRequestUpdate s
  | .transferComplete image programmed => Sys2Proof.Machine.execTransferComplete image programmed s
  | .applyComplete => Sys2Proof.Machine.execApplyComplete s
  | .fruRead write off n => Sys2Proof.Machine.execFruRead write off n s
  | .moistureChange v => Sys2Proof.Machine.execMoistureChange v s
  | .flowLow now => Sys2Proof.Machine.execFlowLow now s
  | .lcDeploy now => Sys2Proof.Machine.execLcDeploy now s
  | .lcReturn now => Sys2Proof.Machine.execLcReturn now s
  | .lcEnd now => Sys2Proof.Machine.execLcEnd now s
  | .lcWipe now => Sys2Proof.Machine.execLcWipe now s
  | .debugField => Sys2Proof.Machine.execDebugField s
  | .debugClose => Sys2Proof.Machine.execDebugClose s
  | .debugOpen now => Sys2Proof.Machine.execDebugOpen now s
  | .nonceRead => Sys2Proof.Machine.execNonceRead s
  | .arbAdvance value => Sys2Proof.Machine.execArbAdvance value s
  | .installJob slot => Sys2Proof.Machine.execInstallJob slot s
  | .installPair => Sys2Proof.Machine.execInstallPair s
  | .clearJob slot => Sys2Proof.Machine.execClearJob slot s
  | .clearPair => Sys2Proof.Machine.execClearPair s
  | .wrLoad now => Sys2Proof.Machine.execWrLoad now s
  | .wrUnload => Sys2Proof.Machine.execWrUnload s
  | .tamper closed held dets now => Sys2Proof.Machine.execTamper closed held dets now s
  | .errorSignal page src addr syn now => Sys2Proof.Machine.execErrorSignal page src addr syn now s
  | .fatalReset now => Sys2Proof.Machine.execFatalReset now s
  | .wirePoll page cls => Sys2Proof.Machine.execWirePoll page cls s
  | .aggregatorCheckFail idx => Sys2Proof.Machine.execAggregatorCheckFail idx s
  | .escalated idx now => Sys2Proof.Machine.execEscalated idx now s
  | .fltAck easel v now => Sys2Proof.Machine.execFltAck easel v now s
  | .readmitted page now => Sys2Proof.Machine.execReadmitted page now s
  | .recoveryWindowExpiry now => Sys2Proof.Machine.execRecoveryWindowExpiry now s
  | .fltInject v => Sys2Proof.Machine.execFltInject v s
  | .ceSummary now => Sys2Proof.Machine.execCeSummary now s
  | .logFlush failLog failSpare => Sys2Proof.Machine.execLogFlush failLog failSpare s
  | .spareMapRetry fail => Sys2Proof.Machine.execSpareMapRetry fail s
  | .lockstep pair => Sys2Proof.Machine.execLockstep pair s
  | .pairLost => Sys2Proof.Machine.execPairLost s
  | .watchdog => Sys2Proof.Machine.execWatchdog s
  | .clockSwitch => Sys2Proof.Machine.execClockSwitch s
  | .wearMeasurement part drift ces day now => Sys2Proof.Machine.execWearMeasurement part drift ces day now s
  | .ledgerCheck page index => Sys2Proof.Machine.execLedgerCheck page index s
  | .aonPowerOn => Sys2Proof.Machine.execAonPowerOn s
  | .perstDeassert now => Sys2Proof.Machine.execPerstDeassert now s
  | .overVoltage now => Sys2Proof.Machine.execOverVoltage now s
  | .powerFail now => Sys2Proof.Machine.execPowerFail now s
  | .powerFailEnd recovered now => Sys2Proof.Machine.execPowerFailEnd recovered now s
  | .overVoltageRecovery => Sys2Proof.Machine.execOverVoltageRecovery s
  | .temperatureThreshold sensor v now => Sys2Proof.Machine.execTemperatureThreshold sensor v now s
  | .generateTimeout slot now => Sys2Proof.Machine.execGenerateTimeout slot now s
  | .ptpTimeCount ch ts => Sys2Proof.Machine.execPtpTimeCount ch ts s
  | .diptychRetryTimeout expired => Sys2Proof.Machine.execDiptychRetryTimeout expired s
  | .weightLoadComplete media now => Sys2Proof.Machine.execWeightLoadComplete media now s
  | .spdmFinish sid ok => Sys2Proof.Machine.execSpdmFinish sid ok s
  | .endSession sid => Sys2Proof.Machine.execEndSession sid s
  | .trngHealthRestored => Sys2Proof.Machine.execTrngHealthRestored s

end Sys2Proof.Machine
end

