-- ==== Sys2Proof/Machine/Read.lean ====
section
/-! DEFINITION. What a read of a register shows: the stored word, and the registers that the module computes from its other state. The opcode
table has no row for a read without an effect; the rows whose read has an effect are commands of their own. -/

namespace Sys2Proof.Machine

open Sys2Proof

/-- A number in the place of a field; where it does not fit, the field saturates. -/
def Fld.at (f : Fld) (x : Nat) : Nat := min x (2 ^ (f.msb + 1 - f.lsb) - 1) * 2 ^ f.lsb

/-- A flag in the place of a field. -/
def Fld.flag (f : Fld) (b : Bool) : Nat := if b then 2 ^ f.lsb else 0

/-! ### The header (R31, R36, R39) -/

/-- EVT_PENDING is EVT_RAW AND EVT_ENABLE; BLK_ID names the page; PWR_STATE.DOMAIN_ON is the page's power domain; write-only registers
read 0. -/
def State.headerView (s : State) (page w : Nat) : Nat :=
  if w = 0 then blkType (pageKind page) * 65536 + pageInstance page * 256 + pageIndex page
  else if w = 6 then s.evtPending page
  else if w = 7 then 0
  else if w = hPWRSTATE then (s.word page w).toNat + (⟨hPWRSTATE, 8, 8⟩ : Fld).flag (s.domainOn page)
  else (s.word page w).toNat

/-! ### Panels and canvases (R99, R100) -/

/-- The work and step that a panel's next step belongs to: the step after the running one, or step 0 of the next operation. -/
def State.nextStep (s : State) (p : Nat) : Option Work :=
  ((s.panel p).work.filter (fun w => !w.done && (s.panelMode p != 0 || w.tenant == s.resident p))).findSome?
    (fun w => if !w.running then some w else if w.step + 1 < w.steps then some { w with step := w.step + 1 } else none)

/-- Is a step's wait unmet? -/
def State.waitUnmet (s : State) (w : Work) : Bool :=
  match s.op w.tag with
  | none => false
  | some o =>
    let e := imgStep w.image w.entry w.step
    match s.stepWaitOn o (stepWait e) (stepWaitAdd e) with
    | some (c, thr) => decide (s.counter c < thr)
    | none => false

/-- Is port n's inbound binding of a step not full? -/
def State.portShort (s : State) (p n : Nat) (w : Work) : Bool :=
  let i := stepBind (imgStep w.image w.entry w.step) n
  !(i == 0xFF || bindOut (imgBinding w.image i) || (s.port p n).any (fun x => x.tag == w.tag && x.step == w.step && x.state == 2))

def State.holdView (s : State) (p : Nat) : Nat :=
  f_PNL_HOLD_QUIESCE.at (s.fld (pnlPage p) fQUIESCE) + f_PNL_HOLD_SUBST.flag ((s.panel p).substing || (s.coreDue p).isSome) +
  f_PNL_HOLD_MOVE.flag (s.panel p).moving.isSome +
  (match s.nextStep p with
   | none => f_PNL_HOLD_NO_WORK.flag true
   | some w =>
     f_PNL_HOLD_OUT_DRAIN.flag (s.drainMeets p w) + f_PNL_HOLD_WAIT.flag (s.waitUnmet w) +
     f_PNL_HOLD_PORT_IN.at (((List.range 4).map (fun n => if s.portShort p n w then 2 ^ n else 0)).foldl (fun a b => a + b) 0))

def State.pnlView (s : State) (p w : Nat) : Nat :=
  let v := (s.word (pnlPage p) w).toNat
  if w = r_PNL_STATUS then v + f_PNL_STATUS_LOST.flag (s.panel p).lost + f_PNL_STATUS_SUBST.flag ((s.panel p).substing || (s.coreDue p).isSome && !s.stepRuns p) +
      f_PNL_STATUS_MOVE.flag (s.panel p).moving.isSome
  else if w = r_PNL_HOLD then s.holdView p
  else if w = r_PNL_MAP_DATA then f_PNL_MAP_DATA_PHYS.at (s.physOf p (s.fld (pnlPage p) f_PNL_MAP_SEL_LOGICAL))
  else v

def State.cnvView (s : State) (c w : Nat) : Nat :=
  let x := s.canvas c
  let l := s.fld (cnvPage c) f_CNV_MAP_SEL_LOGICAL
  let y := s.panel (c * 32 + l)
  if w = r_CNV_SPARE then f_CNV_SPARE_STATE.at (s.spareState c) + f_CNV_SPARE_SERVING.at (if x.spare = 1 then x.serving else 0)
  else if w = r_CNV_MAP_DATA then f_CNV_MAP_DATA_LOST.flag y.lost + f_CNV_MAP_DATA_PHYS.at (if y.onSpare then 32 else l)
  else if w = r_CNV_MOVES then (s.word (cnvPage c) w).toNat + f_CNV_MOVES_ACTIVE.at x.moves
  else (s.word (cnvPage c) w).toNat

/-! ### Sync counters (R130) -/

/-- Wait slots held on a counter (R125, R130). -/
def State.waiters (s : State) (c : Nat) : Nat :=
  (s.ops.ops.map (fun e =>
    (e.2.slots.filter (fun x => x.1 == c)).length)).foldl (fun a b => a + b) 0

def State.synInfo (s : State) (owner : Nat) (c : Option Nat) : Nat :=
  match c with
  | none => 0
  | some n => f_SYN_INFO_POISONED.flag (s.counterPoisoned n) + f_SYN_INFO_WAITERS.at (s.waiters n) + f_SYN_INFO_OWNER.at owner

def State.synView (s : State) (w : Nat) : Nat :=
  let c := s.fld pgSYN f_SYN_SEL_COUNTER
  if w = r_SYN_VALUE_LO then s.counter c % 2 ^ 32
  else if w = r_SYN_INFO then s.synInfo ((s.counterOwner c).getD 0x3F) (some c)
  else if w = r_SYN_ADD_LO ∨ w = r_SYN_ADD_HI then 0
  else (s.word pgSYN w).toNat

def State.synTView (s : State) (t w : Nat) : Nat :=
  let page := tenantPage t 5
  let c := s.selCounter page
  if w = r_SYN_T_COUNT then f_SYN_T_COUNT_COUNT.at (s.allocCount t / 64)
  else if w = r_SYN_T_VALUE_LO then (match c with | some n => s.counter n % 2 ^ 32 | none => 0)
  else if w = r_SYN_T_INFO then s.synInfo t c
  else if w = r_SYN_T_ADD_LO ∨ w = r_SYN_T_ADD_HI then 0
  else (s.word page w).toNat

/-! ### Serving, the Sampler and Glaze (R225, R226, R248, R249) -/

def State.smpRead (s : State) (w : Nat) : Nat :=
  let v := (s.word pgSMP w).toNat
  match idxOf 4 r_SMP_DOM_KEY w with
  | some _ => 0
  | none =>
    if w = r_SMP_SEQ_OPEN then s.srv.seqs.length
    else if w = r_SMP_DOM_CTRL then (match s.selDom with
      | some d => f_SMP_DOM_CTRL_EPOCH.at (s.sdom d).epoch + f_SMP_DOM_CTRL_VALID.flag (s.sdom d).valid
      | none => 0)
    else if w = r_SMP_DOM_MEMBERS_LO then (match s.selDom with | some d => (s.sdom d).members % 2 ^ 32 | none => 0)
    else if w = r_SMP_DOM_MEMBERS_HI then (match s.selDom with | some d => (s.sdom d).members / 2 ^ 32 % 2 | none => 0)
    else v

def State.smpTView (s : State) (t w : Nat) : Nat :=
  if w = r_SMP_T_STATUS then
    f_SMP_T_STATUS_SEQ_OPEN.at (s.srv.seqs.filter (fun e => e.2.tenant == t)).length +
    f_SMP_T_STATUS_PLANS.at (((List.range 4).map (fun k => if (smFind s.srv.plans (t * 4 + k)).isSome then 2 ^ k else 0)).foldl (fun a b => a + b) 0)
  else (s.word (tenantPage t 7) w).toNat

def State.glzView (s : State) (w : Nat) : Nat :=
  let g := s.fld pgGLZ f_GLZ_SEL_GEOMETRY
  if w = r_GLZ_SETS_FREE then s.freeSets g false
  else if w = r_GLZ_LOFT_FREE then s.freeSets g true
  else if w = r_GLZ_MOVES then f_GLZ_MOVES_ACTIVE.at s.srv.moves.length
  else (s.word pgGLZ w).toNat

/-- The sequence registers of a tenant's Glaze view read 0 for a handle that is not the tenant's. -/
def State.glzSeqView (s : State) (t w : Nat) : Nat :=
  match s.named t (s.fld (tenantPage t 6) f_GLZ_T_SEL_HANDLE) with
  | none => 0
  | some (_, q) =>
    if w = r_GLZ_T_SEQ then
      f_GLZ_T_SEQ_HOST_TRACKED.flag q.hosted + f_GLZ_T_SEQ_GEOMETRY.at (q.geo.getD 0) + f_GLZ_T_SEQ_BOUND.flag q.geo.isSome +
      f_GLZ_T_SEQ_STATE.at q.state
    else if w = r_GLZ_T_LENGTH then s.seqLen q
    else if w = r_GLZ_T_BLOCKS then
      f_GLZ_T_BLOCKS_EVICTED.at (q.blocks.filter (fun e => e.2.evicted)).length +
      f_GLZ_T_BLOCKS_LIVE.at (q.blocks.filter (fun e => e.2.live)).length
    else if q.state = sqPARKED then f_GLZ_T_TTL_SECONDS.at ((q.expiry.getD 0 - s.time) / 1000000000)
    else 0

def State.glzTView (s : State) (t w : Nat) : Nat :=
  if r_GLZ_T_SEQ ≤ w ∧ w ≤ r_GLZ_T_TTL then s.glzSeqView t w
  else if w = r_GLZ_T_USE_HBM then s.charged t false
  else if w = r_GLZ_T_USE_LOFT then s.charged t true
  else if w = r_GLZ_T_DOM then
    (let d := s.fld (tenantPage t 6) f_GLZ_T_DOM_SEL_DOMAIN
     f_GLZ_T_DOM_MEMBER.flag (s.domMember d t) + f_GLZ_T_DOM_EPOCH.at (if d < 64 then 0 else (s.sdom d).epoch))
  else (s.word (tenantPage t 6) w).toNat

/-! ### Video (R280, R281) -/

/-- Mpixel that a pipeline handled in the last whole second of the timebase. -/
def State.vceLoad (s : State) (e pipe : Nat) : Nat :=
  let sec := s.time / 1000000000
  if sec = 0 then 0 else smGet 0 s.vce.load ((e * 2 + pipe) * 2 ^ 40 + (sec - 1)) / 1000000

def State.vceView (s : State) (e w : Nat) : Nat :=
  if w = r_VCE_PIPES then
    (match smFind s.vce.enc e with
     | some r => f_VCE_PIPES_ENC_BUSY.flag true + f_VCE_PIPES_ENC_CTX.at (r.ctx % 256)
     | none => 0) +
    (match smFind s.vce.dec e with
     | some r => f_VCE_PIPES_DEC_BUSY.flag true + f_VCE_PIPES_DEC_CTX.at (r.ctx % 256)
     | none => 0)
  else if w = r_VCE_DEC_LOAD then f_VCE_DEC_LOAD_MPIX.at (s.vceLoad e 0)
  else if w = r_VCE_ENC_LOAD then f_VCE_ENC_LOAD_MPIX.at (s.vceLoad e 1)
  else if w = r_VCE_OPEN then (s.vctxs e).length
  else (s.word (pgVCE e) w).toNat

/-- The context registers of a tenant's view read 0 for a handle that the tenant does not hold. -/
def State.vceCtxView (s : State) (e t w : Nat) : Nat :=
  match s.heldCtx e t (s.fld (tenantPage t (8 + e)) f_VCE_T_SEL_HANDLE) with
  | none => 0
  | some x =>
    if w = r_VCE_T_CTX then
      f_VCE_T_CTX_PRIORITY.at (vpPriority x.enc x.params) + f_VCE_T_CTX_KIND.at (if x.enc then 1 else 0) + f_VCE_T_CTX_STATE.at x.state +
      (if x.enc then 0 else f_VCE_T_CTX_DEST_PALETTE.flag (vpDest x.params) + f_VCE_T_CTX_SOURCE_INGEST.flag (vpIngest x.params) +
        (if vpDest x.params then f_VCE_T_CTX_SLOT.at (vpSlot x.params) else 0))
    else if w = r_VCE_T_FRAMES then min x.outs 0xFFFFFFFF
    else if w = r_VCE_T_CONCEALED then min x.concealed 0xFFFFFFFF
    else if w = r_VCE_T_DROPPED then min x.dropped 0xFFFFFFFF
    else if w = r_VCE_T_SIZE then f_VCE_T_SIZE_HEIGHT.at x.h + f_VCE_T_SIZE_WIDTH.at x.w
    else min x.lastBytes 0xFFFFFFFF

def State.vceTView (s : State) (e t w : Nat) : Nat :=
  if w = r_VCE_T_COUNT then f_VCE_T_COUNT_OPEN.at (s.vctxsOf e t).length + f_VCE_T_COUNT_QUOTA.at (s.fld (pgVCE e) (f_VCE_QUOTA_CONTEXTS t))
  else if r_VCE_T_CTX ≤ w ∧ w ≤ r_VCE_T_LAST_BYTES then s.vceCtxView e t w
  else (s.word (tenantPage t (8 + e)) w).toNat

/-! ### Memory (R308, R309) -/

/-- A frame's row of the owner table as a register shows it: 15 for a frame beyond the tier, 0x40000 being the Loft's first. -/
def State.frameView (s : State) (base n f : Nat) : Nat :=
  if n ≤ f then 15 else f_HBM_FRAME_TENANT.at (s.frameTenant (base + f)) + f_HBM_FRAME_KIND.at (s.frameKind (base + f))

def State.hbmView (s : State) (w : Nat) : Nat :=
  let st := s.fld pgHBM f_HBM_STACK_SEL_STACK
  if w = r_HBM_STACK_RESERVE then s.reserveFree false st
  else if w = r_HBM_STACK_REPAIR then
    f_HBM_STACK_REPAIR_PPR_DONE.at (smGet 0 s.mem.pprDone st) + f_HBM_STACK_REPAIR_PPR_FREE.at (64 - smGet 0 s.mem.pprDone st)
  else if w = r_HBM_FRAME then s.frameView 0 (tierFrames 1) (s.fld pgHBM f_HBM_FRAME_SEL_FRAME)
  else (s.word pgHBM w).toNat

def State.lftView (s : State) (w : Nat) : Nat :=
  if w = r_LFT_PKG_RESERVE then s.reserveFree true (s.fld pgLFT f_LFT_PKG_SEL_PACKAGE)
  else if w = r_LFT_FRAME then s.frameView 0x40000 (tierFrames 2) (s.fld pgLFT f_LFT_FRAME_SEL_FRAME)
  else (s.word pgLFT w).toNat

/-! ### Host Interface and MMU (R337, R338, R341, R342, R346) -/

def State.hifView (s : State) (w : Nat) : Nat :=
  if w = r_HIF_TAGS then (let l := s.ledger pgHIF0 0; l.held + l.transit) else (s.word pgHIF0 w).toNat

/-- Words 0x42 to 0x4B and QUIET show the selected tenant, 0 beyond tenant 32. -/
def State.tenView (s : State) (w : Nat) : Nat :=
  let t := s.fld pgTEN f_HIF_TEN_SEL_TENANT
  let x := s.tenant t
  if w = r_HIF_TEN_ENABLED_LO then ((List.range 32).map (fun i => if s.tenantRunning i then 2 ^ i else 0)).foldl (fun a b => a + b) 0
  else if w = r_HIF_TEN_ENABLED_HI then (if s.tenantRunning 32 then 1 else 0)
  else if w = r_HIF_TEN_CMD then 0
  else if r_HIF_TEN_STATE ≤ w ∧ w ≤ r_HIF_TEN_QUIET then
    (if 32 < t then 0
     else if w = r_HIF_TEN_STATE then
       f_HIF_TEN_STATE_LOCKED.flag (x.tdi != 0) + f_HIF_TEN_STATE_REASON.at x.reason + f_HIF_TEN_STATE_STATE.at x.state
     else if w = r_HIF_TEN_DETAIL then x.detail
     else if w = r_HIF_TEN_QUIET then min x.quiet 0xFFFFFFFF
     else (s.word (hmTEN t) w).toNat)
  else (s.word pgTEN w).toNat

/-- A tenant's window: its base's DVA bits [47:30]. -/
def State.windowView (s : State) (t : Nat) : Nat :=
  match smFind s.hif.window t with
  | some b => f_MMU_WINDOW_VALID.flag true + f_MMU_WINDOW_BASE.at (bits b 47 30)
  | none => 0

def State.mmuView (s : State) (w : Nat) : Nat :=
  if w = r_MMU_ENTRIES then f_MMU_ENTRIES_COUNT.at s.hif.leaves.length
  else if w = r_MMU_WINDOW then s.windowView (s.fld pgMMU f_MMU_SEL_TENANT)
  else if w = r_MMU_CMD then 0
  else (s.word pgMMU w).toNat

def State.mmuTView (s : State) (t w : Nat) : Nat :=
  let q := smGet [] s.hif.faults t
  if w = r_MMU_T_FAULT_STATUS then (s.word (tenantPage t 10) w).toNat + f_MMU_T_FAULT_STATUS_ENTRIES.at q.length
  else if w = r_MMU_T_FAULT_DVA_LO then (match q with | f :: _ => f.dva % 2 ^ 32 | [] => 0)
  else if w = r_MMU_T_FAULT_INFO then faultInfo q
  else if w = r_MMU_T_WINDOW then s.windowView t
  else (s.word (tenantPage t 10) w).toNat

def State.tntView (s : State) (t w : Nat) : Nat :=
  if w = r_TNT_QUOTA then
    (if (s.tenant t).state = stOFF ∨ (s.tenant t).state = stREFUSED then 0 else (s.word (hmTEN t) r_HIF_TEN_CFG).toNat % 2 ^ 31)
  else if w = r_TNT_TAGS_HELD then f_TNT_TAGS_HELD_COUNT.at (s.tagsOf t)
  else if w = r_TNT_QUANTUM then s.fld (hmTEN t) f_HIF_TEN_QUANTUM_US
  else if w = r_TNT_TDI then (if t = 0 then 0 else (s.tenant t).tdi)
  else (s.word (tenantPage t 0) w).toNat

/-- RING_STATUS.ACTIVE: the ring is enabled and fetching, which its page's QUIESCE stops (R322, R343). -/
def State.ringView (s : State) (page t w : Nat) : Nat :=
  let v := (s.word page w).toNat
  match idxOf 32 r_RING_STATUS w with
  | some _ => v / 2 * 2 + (if v % 2 = 1 ∧ s.running page ∧ s.tenantRunning t then 1 else 0)
  | none => v

/-! ### The Mural fabric (R372, R374, R375) -/

def State.murView (s : State) (w : Nat) : Nat :=
  if w = r_MUR_EC_ACTIVE then f_MUR_EC_ACTIVE_COUNT.at (s.mur.ops.filter (fun e => 2 ≤ e.2.kind)).length else (s.word pgMUR w).toNat

def State.rtView (s : State) (w : Nat) : Nat :=
  if w = r_MUR_RT_DATA then
    smGet 0 (if s.fld pgRT f_MUR_RT_SEL_BANK = 1 then s.mur.rtActive else s.mur.rtShadow) (s.fld pgRT f_MUR_RT_SEL_ENTRY)
  else if w = r_MUR_RT_COMMIT then 0
  else (s.word pgRT w).toNat

def State.jobView (s : State) (w : Nat) : Nat :=
  let j := s.fld pgJOB f_MUR_JOB_SEL_SLOT
  let x := s.mjob j
  if r_MUR_JOB_CFG ≤ w ∧ w ≤ r_MUR_JOB_EC_SIGNAL then (s.word (hmJOB j) w).toNat
  else if w = r_MUR_JOB_MEMBER then smGet 0 x.members (s.fld pgJOB f_MUR_JOB_MEMBER_SEL_INDEX)
  else if w = r_MUR_JOB_CMD then 0
  else if w = r_MUR_JOB_STATUS then
    s.fld pgJOB f_MUR_JOB_STATUS_REASON * 65536 + s.fld pgJOB f_MUR_JOB_STATUS_REFUSED * 2 +
    f_MUR_JOB_STATUS_KEY_VALID.flag x.key.isSome + f_MUR_JOB_STATUS_OPEN.flag x.isOpen
  else (s.word pgJOB w).toNat

/-! ### Ingest, management and security (R393, R394, R420) -/

def State.ingView (s : State) (w : Nat) : Nat :=
  if r_ING_STR_FORMAT ≤ w ∧ w ≤ r_ING_STR_CNT_BAD then (s.word (hmSTR (s.fld pgING f_ING_STR_SEL_STREAM)) w).toNat
  else if w = r_ING_STR_CMD then 0
  else (s.word pgING w).toNat

/-- MGT_SENSOR_VALUE is the signed reading of the selected sensor. -/
def State.mgtView (s : State) (w : Nat) : Nat :=
  if w = r_MGT_SENSOR_VALUE then (smGet 0 s.mgt.sensors (s.fld pgMGT f_MGT_SENSOR_SEL_INDEX) % 2 ^ 32).toNat else (s.word pgMGT w).toNat

def State.secView (s : State) (w : Nat) : Nat :=
  let r := hmWR (s.fld pgSEC f_SEC_WR_SEL_REGION)
  if w = r_SEC_ARB_VALUE then f_SEC_ARB_VALUE_VALUE.at (smGet 0 s.sec.arb (s.fld pgSEC f_SEC_ARB_SEL_COUNTER))
  else if w = r_SEC_WR_STATUS then (s.word r w).toNat - s.fld r f_SEC_WR_STATUS_BUSY * 8 + f_SEC_WR_STATUS_BUSY.flag s.sec.load.isSome
  else if w = r_SEC_WR_CMD then 0
  else if r_SEC_WR_SRC ≤ w ∧ w ≤ r_SEC_WR_BLOCKS then (s.word r w).toNat
  else match idxOf 24 r_SEC_TOKEN w with
    | some _ => 0
    | none => (s.word pgSEC w).toNat

/-! ### Cadence (R172) -/

/-- CAD_EPT_DATA shows the selected entry of the bank that CAD_EPT_SEL.BANK names. -/
def State.cadView (s : State) (d w : Nat) : Nat :=
  let pg := pgCAD d
  match idxOf 4 r_CAD_EPT_DATA w with
  | some i =>
    let e := smGet ⟨0, 0, 0, 0⟩ (if s.fld pg f_CAD_EPT_SEL_BANK = 1 then (s.dom d).active else (s.dom d).shadow) (s.fld pg f_CAD_EPT_SEL_INDEX)
    if i = 0 then e.d0 else if i = 1 then e.d1 else if i = 2 then e.d2 else e.d3
  | none => if w = r_CAD_EPT_COMMIT then 0 else (s.word pg w).toNat

/-! ### Faults (R445) -/

def State.fltView (s : State) (w : Nat) : Nat :=
  let v := (s.word pgFLT w).toNat
  let sel := smFind s.flt.recs (s.fld pgFLT f_FLT_OPEN_SEL_INDEX)
  let key := s.word pgFLT r_FLT_RCV_SEL
  if w = r_FLT_STATUS then
    v % 128 - v % 128 / 16 % 4 * 16 + f_FLT_STATUS_OPEN.at s.flt.recs.length + f_FLT_STATUS_FATAL.flag (!s.pow.noFatal)
  else if w = r_FLT_OPEN_SRC then
    (match sel with
     | some r => r.merge * 2 ^ 24 + r.source * 2 ^ 16 + pageInstance r.page * 256 + pageIndex r.page
     | none => 0)
  else if w = r_FLT_OPEN_INFO then
    (match sel with
     | some r => f_FLT_OPEN_INFO_VALID.flag true + f_FLT_OPEN_INFO_FENCED.flag r.fenced + f_FLT_OPEN_INFO_CLASS.at r.cls + blkType (pageKind r.page)
     | none => 0)
  else if w = r_FLT_OPEN_LEFT then
    (match sel with
     | some r => if r.timer then f_FLT_OPEN_LEFT_US.at ((r.opened + r.grace * 1000 - s.time) / 1000) else 0
     | none => 0)
  else if w = r_FLT_RCV then
    (match pageOfId (fldGet key f_FLT_RCV_SEL_TYPE) (fldGet key f_FLT_RCV_SEL_INSTANCE) (fldGet key f_FLT_RCV_SEL_PAGE) with
     | some p => f_FLT_RCV_IN_WINDOW.at (s.rcv p).inWindow + f_FLT_RCV_LATCHED.flag (s.rcv p).latched + f_FLT_RCV_RECOVERIES.at (s.rcv p).recoveries
     | none => 0)
  else v

/-- MOD_PROMISE: HOLDS is the AND of the other three (R46). -/
def State.modView (s : State) (w : Nat) : Nat :=
  if w = r_MOD_PROMISE then
    f_MOD_PROMISE_HOLDS.flag (s.pow.noFatal && s.pow.envOk && s.pow.fwSigned) + f_MOD_PROMISE_NO_FATAL.flag s.pow.noFatal +
    f_MOD_PROMISE_ENV_OK.flag s.pow.envOk + f_MOD_PROMISE_FW_SIGNED.flag s.pow.fwSigned
  else (s.word pgMOD w).toNat

/-! ### All pages -/

/-- The block-specific area of a page. -/
def State.blockView (s : State) (page w : Nat) : Nat :=
  let t := match tenantOfPage page with | some (x, _) => x | none => 0
  match pageKind page with
  | .mod => s.modView w
  | .flt => s.fltView w
  | .pnl => s.pnlView (pageInstance page) w
  | .cnv => s.cnvView (pageInstance page) w
  | .syn => s.synView w
  | .synT => s.synTView t w
  | .smp => s.smpRead w
  | .smpT => s.smpTView t w
  | .glz => s.glzView w
  | .glzT => s.glzTView t w
  | .vce => s.vceView (pageInstance page) w
  | .vceT => s.vceTView (pageIndex page - 8) t w
  | .hbm => s.hbmView w
  | .lft => s.lftView w
  | .hif0 => s.hifView w
  | .hifTen => s.tenView w
  | .hifSet => (let n := s.fld pgTEN f_HIF_TEN_SEL_TENANT; if 32 < n then 0 else (s.word (hmSET n) w).toNat)
  | .mmu => s.mmuView w
  | .mmuT => s.mmuTView t w
  | .tnt => s.tntView t w
  | .ringCfg => s.ringView page t w
  | .mur0 => s.murView w
  | .murRt => s.rtView w
  | .murJob => s.jobView w
  | .ing => s.ingView w
  | .mgt => s.mgtView w
  | .sec => s.secView w
  | .cadDom => s.cadView (pageIndex page) w
  | _ => (s.word page w).toNat

/-- The low half of a LO register whose pair is kept as one value; its latched high half is a stored word. -/
def State.pairLow (s : State) (page w : Nat) : Option Nat := (smFind s.wide (page * 1024 + w)).map (fun v => v % 2 ^ 32)

/-- What a 32-bit read of a register shows: 0 where no block occupies the page or no register the offset (R26), the header (R31),
or the block's own area. -/
def State.view (s : State) (page w : Nat) : Word :=
  if !pageExists page || (rsvOf (pageKind page) w).isNone then 0#32
  else if w < 64 then BitVec.ofNat 32 (s.headerView page w)
  else match s.pairLow page w with
    | some v => BitVec.ofNat 32 v
    | none => BitVec.ofNat 32 (s.blockView page w)

/-- What a read of a page shows, by its form (R24): an aligned read of up to 32 bits returns bytes of its register, one of 64 bits its two
registers; a read that is not aligned reads no register and returns 0. -/
def State.readAt (s : State) (page offset size : Nat) : Nat :=
  if !accessAligned offset size then 0
  else ((s.view page (offset / 4)).toNat + (s.view page (offset / 4 + 1)).toNat * 2 ^ 32) / 2 ^ (8 * (offset % 4)) % 2 ^ (8 * size)

end Sys2Proof.Machine
end

