-- ==== Sys2Proof/Safety.lean ====
section
/-! DEFINITION. What the statements about the module are made of: the parts of the state, what a change may touch, the invariants every step keeps (R16, R39 and the canonical form of the byte stores). -/

namespace Sys2Proof.Machine

open Sys2Proof

/-- The parts of the state. `restart` is no field: a change that carries it may set the timebase back (AON_POWER_ON alone does, R47). -/
inductive Part where
  | free | time | regs | wide | rsv | ledgers | out | reply | flt | pow | ops | hif | mem | pan | cad | srv | vce | mur | ing | mgt | sec
  | restart
  deriving DecidableEq, Repr

/-- Is a part the same in two states? -/
def Part.Same (s t : State) : Part → Prop
  | .free => t.free = s.free
  | .time => t.time = s.time
  | .regs => t.regs = s.regs
  | .wide => t.wide = s.wide
  | .rsv => t.rsv = s.rsv
  | .ledgers => t.ledgers = s.ledgers
  | .out => t.out = s.out
  | .reply => t.reply = s.reply
  | .flt => t.flt = s.flt
  | .pow => t.pow = s.pow
  | .ops => t.ops = s.ops
  | .hif => t.hif = s.hif
  | .mem => t.mem = s.mem
  | .pan => t.pan = s.pan
  | .cad => t.cad = s.cad
  | .srv => t.srv = s.srv
  | .vce => t.vce = s.vce
  | .mur => t.mur = s.mur
  | .ing => t.ing = s.ing
  | .mgt => t.mgt = s.mgt
  | .sec => t.sec = s.sec
  | .restart => True

/-- Ledger conservation (R16, R39): in every ledger the free, held and in-transit units add up to the total. -/
def LedgersSum (s : State) : Prop :=
  ∀ page i, (s.ledger page i).free + (s.ledger page i).held + (s.ledger page i).transit = (s.ledger page i).total

/-- The byte stores are in canonical form: addresses strictly rising, no byte listed that an unlisted address reads as. They are
module memory, the palettes, the panel stores, host memory, Fresco and the saved slots. -/
def StoresCanon (s : State) : Prop :=
  smWf (0 : Byte) s.mem.mem = true ∧ smWf (0 : Byte) s.mem.pal = true ∧ smWf (0 : Byte) s.mem.stores = true ∧
  smWf (0 : Byte) s.mem.host = true ∧ smWf (0 : Byte) s.mem.flash = true ∧
  ∀ e ∈ s.pan.saved, smWf (0 : Byte) e.2.pal = true ∧ smWf (0 : Byte) e.2.stores = true

/-- What a change of the state from `s` to `t` does at most: it leaves the queue alone, touches only the listed parts, never turns the
timebase back (but for `restart`), and keeps the two invariants. -/
structure Chg (ps : List Part) (s t : State) : Prop where
  pending : t.pending = s.pending
  clock : s.time ≤ t.time ∨ Part.restart ∈ ps
  ledgers : LedgersSum s → LedgersSum t
  stores : StoresCanon s → StoresCanon t
  same : ∀ p, p ∉ ps → p.Same s t

end Sys2Proof.Machine
end

