-- ==== Sys2Proof/Safety/Frame.lean ====
section
/-! DEFINITION. The terms that the statements about single commands are written in: an access that a page takes, a value with its reserved bits at 0, and which register words a command leaves alone. -/

namespace Sys2Proof.Machine

open Sys2Proof

/-- A command runs: it answers a next state, and `P` holds of that state. -/
abbrev Runs (i : Instr) (s : State) (P : State → Prop) : Prop := ∃ t, exec i s = .next t ∧ P t

/-- An access that reaches a page which a block occupies and may write it (R26, R28, R315). -/
abbrev State.takes (s : State) (a : Acc) : Prop :=
  s.reaches (accFn a) = true ∧ pageExists (accPage a) = true ∧ accWrites a = true

/-- A value with every reserved bit of a register at 0 (R37). -/
abbrev RsvClear (page w : Nat) (v : Word) : Prop :=
  (rsvOf (pageKind page) w).all (fun r => v.toNat &&& r.1 == 0) = true

/-- Every register word is the same but the listed ones, each named by its page and its place in the page. -/
def WordsBut (l : List (Nat × Nat)) (s t : State) : Prop :=
  ∀ page w, w < 1024 → (page, w) ∉ l → t.word page w = s.word page w

/-- Every register word is the same but those of the listed pages. -/
def PagesBut (l : List Nat) (s t : State) : Prop := ∀ page w, w < 1024 → page ∉ l → t.word page w = s.word page w

/-- An event bit of a page is set, and its EVT_SETCOUNT has counted it, from `s` to `t` (R36). -/
def Raised (page bit : Nat) (s t : State) : Prop :=
  bitOf (t.word page hRAW) bit = true ∧ t.fld page fSETCOUNT = (s.fld page fSETCOUNT + 1) % 256

/-- Has a register word a rule of its own for writes, beside the plain storing of its fields (R34)? -/
def ownRule (k : PageKind) (w : Nat) : Bool :=
  match k with
  | .mod => [r_MOD_PD_REQ0, r_MOD_PD_REQ1, r_MOD_RESET].contains w
  | .flt => [r_FLT_GRACE, r_FLT_QUIET, r_FLT_ACK, r_FLT_INJECT].contains w
  | .cadDom => (idxOf 4 r_CAD_EPT_DATA w).isSome || w == r_CAD_EPT_COMMIT
  | .var0 => decide (0x100 ≤ w ∧ w < 0x180)
  | .dip => w == r_VAR_DIP_CMD
  | .hifTen => w == r_HIF_TEN_CMD || decide (r_HIF_TEN_STATE ≤ w ∧ w ≤ r_HIF_TEN_QUIET)
  | .mmu => w == r_MMU_CMD
  | .glz => ((idxOf 33 r_GLZ_QUOTA_HBM w).or (idxOf 33 r_GLZ_QUOTA_LOFT w)).isSome
  | .murPort => w == r_MUR_PORT_CTRL || w == r_MUR_PORT_TEST
  | .murRt => w == r_MUR_RT_DATA || w == r_MUR_RT_COMMIT
  | .cnv => w == r_CNV_RETIRE
  | .pnl => w == r_PNL_RETIRE
  | .tnt => w == r_TNT_EVT
  | .doorbell => decide (0x40 ≤ w ∧ w < 0x80)
  | .smpT => (idxOf 16 r_SMP_T_RING_PTR w).isSome
  | .hif0 | .mur0 | .cadTrk | .cadRef | .eas | .glzT | .vceT | .mmuT => false
  | _ => true

/-- The domains as both requests would ask, with no transition running, no held domain turned off, and the order of R447 kept: what R48
asks of a write of MOD_PD_REQ0 or MOD_PD_REQ1. -/
def State.pdLegal (s : State) (n0 n1 : Nat) : Bool :=
  let o0 := (s.word pgMOD r_MOD_PD_REQ0).toNat
  let o1 := (s.word pgMOD r_MOD_PD_REQ1).toNat
  s.fld pgMOD f_MOD_PD_RESULT_BUSY == 0 &&
  (List.range 48).all (fun d => domBit o0 o1 d == domBit n0 n1 d ||
    (if domBit o0 o1 d then !s.domainHeld d && (List.range 48).all (fun e => !(domainNeeds e == some d && domStays o0 o1 n0 n1 e))
     else (domainNeeds d).all (fun e => domBit n0 n1 e)))

/-- A request of power domains is accepted (R48): both requests as asked, BUSY, and until the transition ends only the domains on that
stay on. -/
def PdAccepted (n0 n1 : Nat) (s t : State) : Prop :=
  t.word pgMOD r_MOD_PD_REQ0 = BitVec.ofNat 32 n0 ∧ t.word pgMOD r_MOD_PD_REQ1 = BitVec.ofNat 32 n1 ∧ t.fld pgMOD f_MOD_PD_RESULT_BUSY = 1 ∧
  t.word pgMOD r_MOD_PD_STATE0 = s.word pgMOD r_MOD_PD_REQ0 &&& BitVec.ofNat 32 n0 ∧
  t.word pgMOD r_MOD_PD_STATE1 = s.word pgMOD r_MOD_PD_REQ1 &&& BitVec.ofNat 32 n1 ∧ t.pow.pd = some ⟨n0, n1⟩ ∧
  WordsBut ([r_MOD_PD_REQ0, r_MOD_PD_REQ1, r_MOD_PD_RESULT, r_MOD_PD_STATE0, r_MOD_PD_STATE1].map (fun w => (pgMOD, w))) s t

/-- What a module reset with a cause leaves (R49, R387, R461): the cause and the count, the link down, every block held in reset, every LOCK
bit 0, each plant output at its SAFE bit or its last level, the partition registers as the layout in force says, and every other register but
those that keep their values at its reset value. -/
def AfterReset (cause : Nat) (s t : State) : Prop :=
  t.fld pgMOD f_MOD_RESET_CAUSE_CAUSE = cause ∧ t.word pgMOD r_MOD_RESET_COUNT = s.word pgMOD r_MOD_RESET_COUNT + 1 ∧
  t.pow.phase = .held ∧ t.hif.linkUp = false ∧ t.pow.noFatal = true ∧ (∀ page, t.fld page fLOCK = 0) ∧
  (∀ j < 16, (t.fld pgMGT f_MGT_OUT_STATE_LEVEL).testBit j =
    (if (s.fld pgMGT f_MGT_OUT_RESET_SAFE).testBit j then (s.fld pgMGT f_MGT_OUT_SAFE_LEVEL).testBit j
     else (s.fld pgMGT f_MGT_OUT_STATE_LEVEL).testBit j)) ∧
  (∀ i < 11, t.word pgFRS (r_FRS_PART (i + 5)) = s.partWord (i + 5)) ∧
  (∀ page w, w < 1024 → keepReg page w = false → (page, w) ≠ (pgMOD, r_MOD_RESET_CAUSE) →
    (∀ i < 11, (page, w) ≠ (pgFRS, r_FRS_PART (i + 5))) → t.word page w = resetWord page w)

/-- How an operation with opcode `opc` starts under a tag (R115): the state and the operation once it is ready (its waits and its fence are met), it is
its turn, its wait slots are back and it is issued; none where there is no such operation, or a condition does not hold. No panel of its group is lost. -/
def State.begins (s : State) (tag opc now : Nat) : Option (State × Op) :=
  match s.op tag with
  | none => none
  | some o =>
    if o.phase = .waiting ∧ o.d.opcode = opc ∧ o.abandoned = false ∧ s.waitPoisoned o.tenant o.d.wait0 = false ∧
        s.waitPoisoned o.tenant o.d.wait1 = false ∧ s.ready o = true ∧ s.yields o = false ∧ o.group.all (fun p => !(s.panel p).lost) = true then
      let s1 := (s.at now).slotsMet tag
      let o1 := { o with slots := [], phase := .issued, start := some s1.time, winOk := !smGet false s1.hif.clearing o.tenant }
      some (s1.setOp tag o1, o1)
    else none

/-- How a codec operation starts at engine `e` (R254): its block's command is `cmd`, the engine's page is RUNNING, a job is free; the
state with the job held and the operation issued, the operation, and its argument block. -/
def State.vBegins (s : State) (tag opc cmd now e : Nat) : Option (State × Op × List Byte) :=
  match s.op tag, s.begins tag opc now with
  | some o0, some (b, o1) =>
    let o := { o1 with aux := [e], parts := 1 }
    let u := (b.setOp tag o).move (pgVCE e) 1 .free .held 1
    match s.readDva (o0.who tag) o0.d.arg 64, u.readDva (o.who tag) o.d.arg 64 with
    | .ok x false, .ok y false =>
      if leAt x 0 4 = cmd ∧ s.running (pgVCE e) = true ∧ (s.ledger (pgVCE e) 1).free ≠ 0 then some (u, o, y) else none
    | _, _ => none
  | _, _ => none

/-- Nothing of serving, of the Glaze and Sampler engines or of the codecs is in progress. -/
abbrev State.noServing (s : State) : Prop :=
  s.srv.apps = [] ∧ s.srv.atts = [] ∧ s.srv.jobs = [] ∧ s.srv.done = [] ∧ s.srv.seqs = [] ∧ s.vce.ctxs = []

/-- A request command taken out of the queue of requests at the timebase `now` (R198). -/
abbrev State.taken (s : State) (i now : Nat) : State := ({ s with srv := { s.srv with reqs := smDel s.srv.reqs i } }).at now

/-- A request's record is due with a status and a DETAIL (R199, R200). -/
abbrev State.answered (s : State) (r : Req) (status detail : Nat) : Prop :=
  (s.cq r.tenant r.cq).due.any (fun c => c.noTag && c.seq == r.seq && c.opcode == r.cmd && c.status == status && c.detail == detail) = true

/-- An operation has ended with a status. -/
abbrev State.endedAs (s : State) (tag status : Nat) : Prop :=
  (s.op tag).map (fun o => (o.phase, o.status)) = some (OpPhase.ended, status)

/-- Nothing is due for a lost channel (R179): in a running Triptych domain, no channel that is not OUT has a lost panel, and at most one is OUT. -/
def State.channelsSettled (s : State) : Prop :=
  ∀ d < 16, s.triptych d = true → s.running (pgCAD d) = true ∨ s.st (pgCAD d) = stQUIESCING →
    ((chans 7).filter (fun c => s.chState d c == 2)).length < 2 ∧
    ∀ c ∈ chans 7, s.chState d c = 2 ∨ ∀ p < 128, (s.panel p).lost = true → s.channelHas d c p = false

/-- An evaluation takes H to the predicted position: the domain does not stand still, or is there already (R153). -/
def State.movesH (s : State) (d now : Nat) : Prop :=
  s.fld (pgCAD d) f_CAD_DOM_STATUS_STANDSTILL = 0 ∨ sdiff (s.predict d (max s.time now)) (s.dom d).h = 0

/-- A position evaluation of domain `d` at `now` that moves H forward to `h'` and passes exactly one instance (R149, R150, R154): the next
one, of table key `key`, instance `n` and entry `e`, at position `pos`, not skipped. -/
def State.firesOnce (s : State) (d now : Nat) (h' pos : Int) (key n : Nat) (e : Ept) : Prop :=
  s.running (pgCAD d) = true ∧ (s.dom d).origin.isSome = true ∧ 0 ≤ sdiff (s.predict d (max s.time now)) (s.dom d).h ∧
  s.movesH d now ∧ (s.dom d).inst.all (fun i => i.2.missAt.isNone) = true ∧
  h' = (s.dom d).h + sdiff (s.predict d (max s.time now)) (s.dom d).h ∧ (s.dom d).next = some (pos, key, n, e) ∧ pos ≤ h' ∧
  (s.dom d).skipped n = false ∧ ({ s.dom d with nextPos := pos, nextKey := key + 1 } : Dom).next.all (fun c => decide (h' < c.1)) = true

end Sys2Proof.Machine
end

