-- ==== Sys2Proof/Safety/Touches.lean ====
section
/-! DEFINITION. The frame of every command: the parts of the state that it may change. A part that is not listed is the same after it. -/

namespace Sys2Proof.Machine

open Sys2Proof

/-- The parts of the state that a command may change. The queue is none of them: a command acts on everything but the queue. -/
def parts : Instr → List Part
  | .registerWrite _ _ =>
    [.free, .regs, .wide, .rsv, .ledgers, .out, .flt, .pow, .ops, .hif, .mem, .pan, .cad, .srv, .vce, .mur, .ing, .sec]
  | .enable _ | .disable _ | .quiesce _ | .quiesceClear _ | .softReset _ | .lockPage _ =>
    [.free, .regs, .wide, .rsv, .ledgers, .out, .flt, .pow, .ops, .hif, .mem, .pan, .cad, .srv, .vce, .mur, .ing]
  | .enableCheckEnd _ _ | .quiesced _ _ =>
    [.free, .time, .regs, .ledgers, .out, .flt, .pow, .ops, .hif, .mem, .pan, .cad, .srv, .vce, .mur, .ing]
  | .evtRawClear _ _ | .evtForce _ _ | .ledgerSnapshot _ _ | .pwrReqDoze _ | .pwrReqActive _ | .pdestCommit _ _ | .frescoRingTail _
  | .portTest _ _ | .mgtOutLevelWrite _ | .mgtPowerCapWrite _ =>
    [.regs, .rsv, .out, .hif]
  | .errStatusClear _ _ _ | .clrCounts _ =>
    [.regs, .rsv, .out, .flt, .hif]
  | .dozeGated _ | .clocksRestarted _ | .recoveryWindowClear _ | .routeEpochRetire =>
    [.regs]
  | .clkSelWrite _ _ | .pnlRetire _ _ | .cnvRetire _ _ =>
    [.regs, .rsv, .out, .hif, .pan]
  | .modPdReq0Write _ =>
    [.regs, .rsv, .out, .pow, .hif]
  | .modPdReq1Write _ =>
    [.regs, .out, .pow, .hif]
  | .pdTransitionDone =>
    [.regs, .out, .pow, .hif, .mem]
  | .quadClearDone _ _ =>
    [.pow, .mem]
  | .moduleReset _ _ | .resetStateEffecter _ =>
    [.time, .regs, .wide, .rsv, .ledgers, .out, .flt, .pow, .ops, .hif, .mem, .pan, .cad, .srv, .vce, .mur, .ing, .sec]
  | .modTimeRead _ | .cadDomPositionRead _ _ _ =>
    [.time, .regs, .wide, .reply]
  | .modPtpOffsetRead | .pnlCyclesRead _ | .synValueRead _ | .varDipPeerSerialRead | .smpDecisionsRead | .marchFailRead _
  | .mmuFaultDvaRead _ | .mgtInEdgeRead _ =>
    [.regs, .reply]
  | .stepStart _ =>
    [.regs, .ledgers, .ops, .mem, .pan]
  | .stepEnd _ =>
    [.free, .regs, .wide, .ledgers, .out, .ops, .hif, .mem, .pan]
  | .streamSlotLand _ _ _ | .tenantSwitch _ _ | .completionPost _ _ | .cqWriteRetry _ _ | .mmuMap | .mmuUnmap | .setWindow | .clearWindow
  | .clearWindowRemove =>
    [.regs, .ledgers, .out, .flt, .pow, .ops, .hif, .mem, .pan, .cad]
  | .meshFlitArrival _ _ =>
    [.ledgers, .reply, .pan]
  | .grantWithdrawTimeout _ =>
    [.regs, .ledgers, .pan]
  | .coreSubstitution _ _ | .voterCheck _ | .diptychFrameReceive _ _ _ _ | .diptychLaneSwap _ | .i2cStretchTimeout _ _ | .lockstep _
  | .pairLost | .watchdog | .clockSwitch | .diptychRetryTimeout _ =>
    [.regs, .ledgers, .out, .flt, .pow, .hif, .pan, .cad]
  | .panelSubstitution _ _ _ =>
    [.regs, .out, .flt, .ops, .hif, .mem, .pan]
  | .proactivePanelRetirement _ _ =>
    [.time, .regs, .out, .flt, .hif, .mem, .pan, .cad]
  | .quantumExpiry _ =>
    [.pan]
  | .doorbell _ _ _ | .synAdd _ | .synTAdd _ _ | .ringDisable _ _ | .cqDisable _ _ =>
    [.regs, .out, .ops, .hif]
  | .descriptorFetch _ _ _ | .attend _ _ | .glazeAppend _ _ | .sample _ _ | .prefixLookup _ _ | .planLoad _ _ | .seqGenerate _ _
  | .batchStep _ _ _ _ =>
    [.time, .regs, .ledgers, .out, .flt, .pow, .ops, .hif, .mem, .pan, .cad, .srv]
  | .opRun _ _ | .opFill _ _ | .opSignal _ _ | .opWait _ _ | .cartoonLoad _ _ | .gesso _ _ =>
    [.time, .regs, .ledgers, .out, .flt, .pow, .ops, .hif, .mem, .pan, .cad]
  | .opCopy _ _ | .ecEncode _ _ | .ecRebuild _ _ | .readResp _ | .writeAck _ | .signalAck _ | .ecContrib _ | .ecAck _ | .packetRoute _ _
  | .routeWaitTimeout _ _ | .requestTimeout _ _ =>
    [.free, .time, .regs, .ledgers, .out, .flt, .pow, .ops, .hif, .mem, .pan, .cad, .mur]
  | .glazeMove _ _ _ | .tokenCommit _ _ | .appendLayer _ _ | .patrolScrub _ _ _ _ | .weightRepair _ _ _ =>
    [.free, .time, .regs, .ledgers, .out, .flt, .pow, .ops, .hif, .mem, .pan, .cad, .srv]
  | .vdecOpen _ _ _ _ | .vencOpen _ _ _ _ | .rtpPacket _ _ _ _ _ | .rtpReorderTimeout _ _ =>
    [.time, .regs, .ledgers, .out, .flt, .pow, .ops, .hif, .mem, .pan, .cad, .vce, .ing]
  | .vdecDecode _ _ _ | .vdecFlush _ _ _ | .vdecClose _ _ _ | .vencEncode _ _ _ | .vencReconfigure _ _ _ | .vencFlush _ _ _
  | .vencClose _ _ _ | .decodeFrameStart _ _ _ | .encodeFrameStart _ _ _ =>
    [.time, .regs, .ledgers, .out, .flt, .pow, .ops, .hif, .mem, .pan, .cad, .vce]
  | .operationComplete _ _ =>
    [.time, .regs, .ledgers, .out, .ops, .hif, .cad, .srv, .vce]
  | .operationTimeout _ _ =>
    [.time, .regs, .ledgers, .out, .ops, .hif, .pan, .srv, .vce]
  | .referenceEdge _ _ _ _ _ _ | .lossOfSignal _ _ | .losCleared _ _ | .ptpTimeCount _ _ =>
    [.regs, .out, .hif, .cad]
  | .indexEdge _ _ _ =>
    [.free, .regs, .out, .hif, .cad]
  | .trackerUpdate _ _ | .standstill _ _ =>
    [.time, .regs, .out, .hif, .cad]
  | .positionEvaluation _ _ =>
    [.time, .regs, .ledgers, .out, .ops, .hif, .cad, .ing]
  | .triggerPulseEnd _ _ =>
    [.time, .regs, .cad]
  | .eptCommit _ _ =>
    [.regs, .rsv, .out, .hif, .cad]
  | .eptBankSwitch _ =>
    [.regs, .cad]
  | .markQueueRead _ =>
    [.regs, .wide, .reply, .cad]
  | .cadRefCountRead _ =>
    [.regs, .wide, .reply]
  | .voteDecision _ _ | .skewTimeout _ _ =>
    [.free, .time, .regs, .ledgers, .out, .flt, .pow, .ops, .hif, .mem, .pan, .cad]
  | .channelRecovery _ _ =>
    [.regs, .out, .hif, .mem, .cad]
  | .voterMismatch _ _ _ =>
    [.free, .regs, .ledgers, .out, .flt, .pow, .ops, .hif, .mem, .pan, .cad]
  | .pairingFrame _ _ _ _ =>
    [.regs, .wide, .ledgers, .out, .hif, .cad]
  | .heartbeatSend _ =>
    [.time, .regs, .ledgers, .out, .cad]
  | .heartbeatReceive _ _ _ _ _ _ =>
    [.free, .time, .regs, .ledgers, .out, .hif, .cad]
  | .hbMiss _ =>
    [.time, .regs, .ledgers, .out, .hif, .cad]
  | .snapshotStart _ _ | .diptychLinkDownTimeout | .diptychLinkUp =>
    [.regs, .ledgers, .out, .hif, .cad]
  | .snapshotReceive _ _ _ _ _ | .snapshotCompare _ | .pieceRetired _ | .frescoRead _ | .frescoTrim | .frescoFlush | .cmdDone _
  | .hostCompletion _ _ _ | .logFlush _ _ =>
    [.regs, .ledgers, .out, .flt, .pow, .hif, .mem, .pan, .cad]
  | .handover _ _ | .takeActive _ _ =>
    [.time, .regs, .rsv, .ledgers, .out, .hif, .cad]
  | .diptychLinkDown _ | .cqHeadWrite _ _ _ | .routeStall _ _ | .testDone _ _ | .linkChange _ _ | .powerCapEffecter _ =>
    [.regs, .out, .hif]
  | .seqOpen _ _ _ | .stepReissue _ _ _ _ =>
    [.time, .ledgers, .ops, .srv]
  | .seqPause _ _ | .seqCancel _ _ =>
    [.time, .ops, .srv]
  | .seqClose _ _ | .easelSampleIssue _ _ _ _ | .generateTimeout _ _ =>
    [.time, .regs, .ledgers, .ops, .srv]
  | .samplerDecision _ _ =>
    [.time, .regs, .wide, .ledgers, .out, .flt, .pow, .hif, .mem, .pan, .cad, .srv]
  | .seqExpired _ _ =>
    [.time, .regs, .ledgers, .out, .hif, .srv]
  | .tokenRingHead _ _ _ | .domainKeyInstall _ =>
    [.regs, .ledgers, .out, .hif, .srv]
  | .genKey _ | .sharedDomainValid _ =>
    [.free, .regs, .rsv, .ledgers, .out, .hif, .srv]
  | .attendLayerStep _ _ =>
    [.free, .time, .regs, .wide, .ledgers, .out, .flt, .pow, .ops, .hif, .mem, .pan, .cad, .srv]
  | .decodeFrameEnd _ _ | .sliceEmit _ _ =>
    [.free, .time, .regs, .ledgers, .out, .flt, .pow, .ops, .hif, .mem, .pan, .cad, .vce]
  | .weightRepaired _ _ _ | .weightLoadComplete _ _ =>
    [.free, .time, .regs, .ledgers, .out, .flt, .pow, .hif, .mem, .pan, .cad, .sec]
  | .bankHandover _ _ | .marchStart _ _ =>
    [.regs, .rsv, .ledgers, .out, .hif, .mem]
  | .handoverDone _ | .bankGuestChange _ _ =>
    [.regs, .ledgers, .out, .hif, .mem]
  | .marchDone _ _ =>
    [.regs, .wide, .ledgers, .out, .flt, .hif, .mem]
  | .clearDone _ =>
    [.regs, .out, .hif, .mem]
  | .frescoWrite =>
    [.regs, .wide, .ledgers, .out, .flt, .pow, .hif, .mem, .pan, .cad]
  | .perstAssert _ | .fatalReset _ | .powerFail _ =>
    [.time, .regs, .wide, .rsv, .ledgers, .flt, .pow, .ops, .hif, .mem, .pan, .cad, .srv, .vce, .mur, .ing, .sec]
  | .resetRelease _ _ _ _ _ =>
    [.time, .regs, .ledgers, .out, .flt, .pow, .hif, .pan, .cad, .sec]
  | .configReady _ _ _ _ _ =>
    [.time, .regs, .ledgers, .out, .flt, .pow, .hif, .mem, .pan, .cad]
  | .configRequest _ | .getTdispVersion _ _ | .getTdispCapabilities _ _ | .getDeviceInterfaceReport _ _ | .getDeviceInterfaceState _ _
  | .getVersion | .getCapabilities | .negotiateAlgorithms _ | .getCertificate _ _ _ | .getEndpointId | .getMctpVersionSupport _
  | .getMessageTypeSupport | .getEndpointUuid | .getTid | .getPldmVersion _ | .getPldmTypes | .getPldmCommands _ | .getSensorReading _
  | .fruRead _ _ _ =>
    [.out]
  | .pciConfigWrite _ _ | .vfEnableClear _ | .ideFail _ _ | .ideKm _ _ _ | .stopInterfaceRequest _ _ _ | .tamper _ _ _ _ =>
    [.free, .time, .regs, .ledgers, .out, .flt, .pow, .ops, .hif, .mem, .pan, .cad, .srv, .vce, .mur, .ing, .sec]
  | .flr _ _ | .lcDeploy _ | .lcReturn _ | .lcEnd _ | .lcWipe _ | .debugField | .debugClose | .debugOpen _ =>
    [.free, .time, .regs, .wide, .rsv, .ledgers, .out, .flt, .pow, .ops, .hif, .mem, .pan, .cad, .srv, .vce, .mur, .ing, .sec]
  | .d3hotEntry _ =>
    [.hif]
  | .hostCompletionTimeout _ =>
    [.mem]
  | .tenantEnable _ _ | .tenantDisable _ _ =>
    [.free, .time, .regs, .rsv, .ledgers, .out, .flt, .pow, .ops, .hif, .mem, .pan, .cad, .srv, .vce, .mur, .ing, .sec]
  | .tenantQuiet _ _ =>
    [.time, .regs, .ledgers, .out, .flt, .ops, .hif, .mem, .pan, .srv, .sec]
  | .ringEnable _ _ _ | .cqEnable _ _ _ =>
    [.regs, .rsv, .out, .ops, .hif]
  | .holdoffEnd _ _ =>
    [.out, .ops]
  | .mmuFaultPop _ =>
    [.reply, .hif]
  | .lockInterfaceRequest _ _ _ _ =>
    [.free, .out, .hif, .sec]
  | .startInterfaceRequest _ _ _ =>
    [.out, .hif]
  | .challenge _ _ =>
    [.free, .out]
  | .getMeasurements _ _ _ _ =>
    [.free, .time, .out]
  | .keyExchange _ _ =>
    [.free, .time, .out, .sec]
  | .spdmHeartbeat _ _ =>
    [.time, .out, .sec]
  | .keyUpdate _ | .spdmFinish _ _ | .endSession _ =>
    [.out, .sec]
  | .muralFrameReceive _ _ _ _ _ _ =>
    [.regs, .ledgers, .out, .flt, .pow, .ops, .hif, .pan, .cad, .mur]
  | .dataFlitReceive _ _ _ | .controlFlitReceive _ _ _ _ _ _ _ _ _ _ | .replayTimeout _ _ | .laneSwapped _ _ _ =>
    [.time, .regs, .ledgers, .out, .flt, .pow, .ops, .hif, .pan, .cad, .mur]
  | .controlFlitSend _ _ | .nakRepeat _ _ =>
    [.time, .ledgers, .out, .mur]
  | .portPowerWrite _ _ | .routeCommit _ | .memberStateWrite _ =>
    [.regs, .rsv, .out, .hif, .mur]
  | .powerDone _ _ | .muralLinkDown _ _ _ =>
    [.time, .regs, .ledgers, .out, .ops, .hif, .mur]
  | .muralLinkUp _ _ _ _ _ _ _ =>
    [.time, .regs, .ledgers, .out, .hif, .mur]
  | .linkDownTimeout _ _ =>
    [.time, .regs, .ledgers, .mur]
  | .muralWrite _ | .muralReadReq _ =>
    [.free, .time, .regs, .ledgers, .out, .flt, .pow, .hif, .mem, .pan, .cad, .mur]
  | .muralSignal _ =>
    [.free, .time, .regs, .ledgers, .out, .ops, .hif, .mur]
  | .jobOpen _ | .jobClose _ =>
    [.free, .regs, .rsv, .ledgers, .out, .flt, .pow, .ops, .hif, .mem, .pan, .cad, .mur]
  | .ethernetFrame _ _ _ _ _ _ =>
    [.free, .time, .regs, .wide, .ledgers, .out, .flt, .pow, .ops, .hif, .mem, .pan, .cad, .vce, .ing]
  | .gvspPacket _ _ _ _ _ _ | .rawPacket _ _ _ | .frameTimeout _ _ | .escalated _ _ =>
    [.free, .time, .regs, .ledgers, .out, .flt, .pow, .ops, .hif, .mem, .pan, .cad, .ing]
  | .arpRequest _ _ | .setEndpointId _ _ =>
    [.regs, .out]
  | .ptpMessage _ _ _ _ _ =>
    [.time, .regs, .wide, .out, .hif, .ing]
  | .ptpAnnounceTimeout | .streamCommit | .streamDisable =>
    [.regs, .out, .hif, .ing]
  | .inputEdge _ _ _ _ =>
    [.time, .regs, .wide, .out, .hif]
  | .powerSample _ _ _ _ _ =>
    [.time, .regs, .pow, .pan, .mgt]
  | .i2cEnable _ _ _ _ _ | .i2cDisable _ _ =>
    [.regs, .rsv, .ledgers, .out, .flt, .pow, .hif, .pan, .cad]
  | .setEventReceiver _ _ | .applyComplete =>
    [.regs, .out, .mgt]
  | .requestUpdate =>
    [.out, .mgt]
  | .transferComplete _ _ =>
    [.regs, .wide, .out, .mem, .mgt, .sec]
  | .moistureChange _ =>
    [.regs, .out, .pow, .hif, .mgt]
  | .flowLow _ | .perstDeassert _ =>
    [.time, .pow]
  | .nonceRead =>
    [.free, .regs, .wide, .reply]
  | .arbAdvance _ =>
    [.regs, .rsv, .out, .hif, .sec]
  | .installJob _ | .installPair | .clearJob _ | .clearPair =>
    [.regs, .rsv, .ledgers, .out, .flt, .pow, .hif, .mem, .pan, .cad, .mur]
  | .wrLoad _ =>
    [.time, .regs, .wide, .rsv, .out, .flt, .hif, .mem, .sec]
  | .wrUnload =>
    [.regs, .wide, .rsv, .out, .flt, .hif, .mem, .sec]
  | .errorSignal _ _ _ _ _ =>
    [.free, .time, .regs, .ledgers, .out, .flt, .pow, .ops, .hif, .mem, .pan, .cad, .srv, .vce, .mur, .ing, .mgt, .sec]
  | .wirePoll _ _ | .aggregatorCheckFail _ | .ledgerCheck _ _ =>
    [.free, .regs, .ledgers, .out, .flt, .pow, .ops, .hif, .mem, .pan, .cad, .ing]
  | .fltAck _ _ _ =>
    [.time, .regs, .rsv, .out, .flt, .hif]
  | .readmitted _ _ =>
    [.time, .regs, .out, .flt, .hif, .cad]
  | .recoveryWindowExpiry _ =>
    [.time, .flt]
  | .fltInject _ =>
    [.free, .regs, .rsv, .ledgers, .out, .flt, .pow, .ops, .hif, .mem, .pan, .cad, .ing]
  | .ceSummary _ =>
    [.time, .regs, .out, .flt, .hif]
  | .spareMapRetry _ =>
    [.regs, .flt, .mem]
  | .wearMeasurement _ _ _ _ _ =>
    [.time, .regs, .ledgers, .out, .flt, .pow, .hif, .pan, .cad]
  | .aonPowerOn | .overVoltageRecovery =>
    [.time, .flt, .pow, .restart]
  | .overVoltage _ =>
    [.free, .time, .regs, .wide, .rsv, .ledgers, .flt, .pow, .ops, .hif, .mem, .pan, .cad, .srv, .vce, .mur, .ing, .mgt, .sec]
  | .powerFailEnd _ _ =>
    [.time, .regs, .wide, .rsv, .ledgers, .flt, .pow, .ops, .hif, .mem, .pan, .cad, .srv, .vce, .mur, .ing, .mgt, .sec]
  | .temperatureThreshold _ _ _ =>
    [.time, .regs, .out, .pow, .hif, .mgt]
  | .trngHealthRestored =>
    [.sec]

end Sys2Proof.Machine
end

