-- ==== Sys2Proof/Certificates/Slice0/Obligations.lean ====
section
/-! DEFINITION. The statements about the module, from the spec's numbered rules. `Runs i s P` says that the command completes and what holds
after it; the parts of the state that each command may change are in Safety/Touches.lean. -/

open Sys2Proof Sys2Proof.Machine

/-- R26: an offset that no register occupies, and a page that no block occupies, read 0 and ignore writes; a non-zero write to the first
sets WRITE_DISCARDED in the page, one to the second is counted by the Host Interface. -/
def Obligations.UnoccupiedOffsetsReadZeroAndIgnoreWrites : Prop :=
  (∀ (page w : Nat) (s : State), pageExists page = false ∨ rsvOf (pageKind page) w = none → s.view page w = 0#32) ∧
  (∀ (a : Acc) (w : Fin 1024) (v : Word) (s : State), s.reaches (accFn a) = true → pageExists (accPage a) = true →
    rsvOf (pageKind (accPage a)) w.val = none → v ≠ 0#32 →
    Runs (.registerWrite a (.word w v)) s (fun t =>
      Raised (accPage a) evWRITE_DISCARDED s t ∧ WordsBut [(accPage a, hRAW), (accPage a, hSETCOUNT)] s t)) ∧
  (∀ (a : Acc) (w : Fin 1024) (s : State), s.takes a → rsvOf (pageKind (accPage a)) w.val = none →
    exec (.registerWrite a (.word w 0#32)) s = .next s) ∧
  (∀ (a : Acc) (w : Fin 1024) (v : Word) (s : State), s.reaches (accFn a) = true → pageExists (accPage a) = false → v ≠ 0#32 →
    Runs (.registerWrite a (.word w v)) s (fun t =>
      (t.word pgHIF0 r_HIF_CNT_UNMAPPED).toNat = min ((s.word pgHIF0 r_HIF_CNT_UNMAPPED).toNat + 1) 0xFFFFFFFF ∧
      WordsBut [(pgHIF0, r_HIF_CNT_UNMAPPED)] s t)) ∧
  (∀ (a : Acc) (w : Fin 1024) (s : State), s.reaches (accFn a) = true → pageExists (accPage a) = false →
    exec (.registerWrite a (.word w 0#32)) s = .next s)

/-- A write to a register without a rule of its own stores its fields, and a write to a checked register of a page that is neither OFF nor
REFUSED is discarded (R34, R470); an aligned 64-bit write is one access to its two registers, and an access that is narrower than 32 bits or
not aligned is discarded (R24); EVT_ENABLE takes the bits its page defines; the owner's writes to the TNT mirror are discarded (R28). -/
def Obligations.RegisterWritesStoreOrAreDiscarded : Prop :=
  (∀ (a : Acc) (offset : Fin 4096) (size : Fin 9) (v : DWord) (s : State), s.takes a →
    Runs (.registerWrite a (.odd offset size v)) s (fun t =>
      Raised (accPage a) evWRITE_DISCARDED s t ∧ WordsBut [(accPage a, hRAW), (accPage a, hSETCOUNT)] s t)) ∧
  (∀ (a : Acc) (w : Fin 512) (v : DWord) (s : State), s.takes a →
    ∃ lo hi : Fin 1024, lo.val = 2 * w.val ∧ hi.val = 2 * w.val + 1 ∧ ∃ m, exec (.registerWrite a (.word lo (v.setWidth 32))) s = .next m ∧
      (m.takes a → ∃ t, exec (.registerWrite a (.pair w v)) s = .next t ∧
        exec (.registerWrite a (.word hi ((v >>> 32).setWidth 32))) m = .next t)) ∧
  (∀ (a : Acc) (w : Fin 1024) (v : Word) (r : RegRow) (s : State),
    s.takes a → 64 ≤ w.val → ownRule (pageKind (accPage a)) w.val = false → regRow (pageKind (accPage a)) w.val = some r →
    v.toNat &&& r.rsv = 0 → (r.checked = true → s.checkedOpen (accPage a) = true) →
    Runs (.registerWrite a (.word w v)) s (fun t =>
      t.word (accPage a) w.val = r.apply (s.fld (accPage a) fLOCK == 1) (s.word (accPage a) w.val) v ∧
      WordsBut [(accPage a, w.val)] s t)) ∧
  (∀ (a : Acc) (w : Fin 1024) (v : Word) (r : RegRow) (s : State),
    s.takes a → 64 ≤ w.val → ownRule (pageKind (accPage a)) w.val = false → regRow (pageKind (accPage a)) w.val = some r →
    r.checked = true → s.checkedOpen (accPage a) = false →
    Runs (.registerWrite a (.word w v)) s (fun t =>
      Raised (accPage a) evWRITE_DISCARDED s t ∧ WordsBut [(accPage a, hRAW), (accPage a, hSETCOUNT)] s t)) ∧
  (∀ (a : Acc) (v : Word) (s : State), s.takes a → RsvClear (accPage a) hENA v →
    Runs (.registerWrite a (.word 5 v)) s (fun t =>
      t.word (accPage a) hENA = v &&& BitVec.ofNat 32 (evtBits (pageKind (accPage a))) ∧ WordsBut [(accPage a, hENA)] s t)) ∧
  (∀ (p : Fin 4096) (w : Fin 1024) (v : Word) (s : State), s.reaches 0 = true → 0xC00 ≤ p.val → pageExists p.val = true →
    Runs (.registerWrite (.pf p) (.word w v)) s (fun t =>
      Raised p.val evWRITE_DISCARDED s t ∧ WordsBut [(p.val, hRAW), (p.val, hSETCOUNT)] s t))

/-- A page whose BLK_CTRL acts as R32 to R35 say: no tenant status page, not HIF page 2 (R339), and none whose state is fixed. -/
abbrev ownCtrl (page : Nat) : Prop := pageKind page ≠ .tnt ∧ pageKind page ≠ .hifSet ∧ fixedPage page = false

/-- Into and out of CHECKING (R32, R44, R45, R471): ENABLE written on an OFF or REFUSED page starts its check with REASON 0x00 NONE and
DETAIL 0, and so does a readmission of a FENCED page; the check ends in RUNNING where every test passes, in REFUSED with ENABLE cleared
where one fails. -/
def Obligations.EnableChecksStartAndEnd : Prop :=
  (∀ (a : Acc) (s : State), s.takes a → ownCtrl (accPage a) →
    s.fld (accPage a) fENABLE = 0 → s.st (accPage a) = stOFF ∨ s.st (accPage a) = stREFUSED → s.gated (accPage a) = false →
    Runs (.enable a) s (fun t =>
      t.st (accPage a) = stCHECKING ∧ t.fld (accPage a) fENABLE = 1 ∧ t.fld (accPage a) fREASON = 0 ∧ t.fld (accPage a) fDETAIL = 0 ∧
      PagesBut [accPage a, pgMGT, pgSET] s t)) ∧
  (∀ (p : Fin 4096) (now : DWord) (s : State), s.st p.val = stFENCED → pageKind p.val ≠ .pnl → mirrorsState p.val = false →
    smGet 0 s.flt.lastErr p.val + s.fld pgFLT f_FLT_QUIET_MS * 1000000 ≤ max s.time now.toNat →
    Runs (.readmitted p now) s (fun t =>
      t.st p.val = stCHECKING ∧ t.fld p.val fREASON = 0 ∧ t.fld p.val fDETAIL = 0 ∧ t.fld p.val fENABLE = s.fld p.val fENABLE)) ∧
  (∀ (c : Fin 4096) (now : DWord) (s : State), mirrorsState c.val = false → s.st c.val = stCHECKING →
    (s.at now.toNat).pageCheck c.val = none →
    (pageKind c.val = .cadDom → s.triptych (pageIndex c.val) = false ∨ s.fld pgVAR0 (fVoter 0) ≠ 1 ∨ s.fld pgVAR0 (fVoter 1) ≠ 1) → Runs (.enableCheckEnd (.page c) now) s (fun t => t.st c.val = stRUNNING)) ∧
  (∀ (c : Fin 4096) (now : DWord) (reason det : Nat) (s : State), mirrorsState c.val = false → s.st c.val = stCHECKING →
    (s.at now.toNat).pageCheck c.val = some (reason, det) → reason < 256 → det < 65536 →
    Runs (.enableCheckEnd (.page c) now) s (fun t =>
      t.st c.val = stREFUSED ∧ t.fld c.val fENABLE = 0 ∧ t.fld c.val fREASON = reason ∧ t.fld c.val fDETAIL = det))

/-- Out of service and back (R32, R33): DISABLE abandons a check, or takes a RUNNING page on which nothing depends to QUIESCING; QUIESCE
stops a RUNNING page; writing QUIESCE 0 returns it to RUNNING; the last unit of its work sets QUIESCED, and with ENABLE 0 the page enters
OFF. -/
def Obligations.PagesLeaveAndReenterService : Prop :=
  (∀ (a : Acc) (s : State), s.takes a → ownCtrl (accPage a) → s.fld (accPage a) fENABLE = 1 → s.st (accPage a) = stCHECKING →
    Runs (.disable a) s (fun t => t.st (accPage a) = stOFF ∧ t.fld (accPage a) fENABLE = 0)) ∧
  (∀ (a : Acc) (s : State), s.takes a → ownCtrl (accPage a) → s.fld (accPage a) fENABLE = 1 → s.st (accPage a) = stRUNNING →
    s.hasDependants (accPage a) = false →
    Runs (.disable a) s (fun t => t.st (accPage a) = stQUIESCING ∧ t.fld (accPage a) fENABLE = 0)) ∧
  (∀ (a : Acc) (s : State), s.takes a → ownCtrl (accPage a) → s.st (accPage a) = stRUNNING → s.heldBy (accPage a) = false →
    Runs (.quiesce a) s (fun t =>
      t.st (accPage a) = stQUIESCING ∧ t.fld (accPage a) fQUIESCE = 1 ∧ t.fld (accPage a) fENABLE = s.fld (accPage a) fENABLE)) ∧
  (∀ (a : Acc) (s : State), s.takes a → ownCtrl (accPage a) → s.st (accPage a) = stQUIESCING → s.fld (accPage a) fENABLE = 1 →
    s.fld (accPage a) fQUIESCE = 1 → s.gated (accPage a) = false →
    (pageKind (accPage a) = .cadDom →
      s.triptych (pageIndex (accPage a)) = false ∨ s.fld pgVAR0 (fVoter 0) ≠ 1 ∨ s.fld pgVAR0 (fVoter 1) ≠ 1) →
    Runs (.quiesceClear a) s (fun t =>
      t.st (accPage a) = stRUNNING ∧ t.fld (accPage a) fQUIESCE = 0 ∧
      (pageKind (accPage a) ≠ .cadDom → PagesBut [accPage a, pgSET] s t))) ∧
  (∀ (p : Fin 4096) (now : DWord) (s : State), mirrorsState p.val = false → s.st p.val = stQUIESCING → (s.at now.toNat).workEnded p.val = true →
    smGet false s.hif.drained p.val = false → s.fld p.val fENABLE = 1 →
    Runs (.quiesced p now) s (fun t =>
      t.st p.val = stQUIESCING ∧ Raised p.val evQUIESCED s t ∧ WordsBut [(p.val, hRAW), (p.val, hSETCOUNT)] s t)) ∧
  (∀ (p : Fin 4096) (now : DWord) (s : State), mirrorsState p.val = false → s.st p.val = stQUIESCING → (s.at now.toNat).workEnded p.val = true →
    s.fld p.val fENABLE = 0 → Runs (.quiesced p now) s (fun t => t.st p.val = stOFF ∧ t.fld p.val fQUIESCE = 0))

/-- SOFT_RESET takes an OFF, REFUSED or FENCED page, and one whose FAULT is not FATAL, to OFF with ENABLE and QUIESCE 0 (R32); LOCK, where it
is 0, sets BLK_CTRL.LOCK and changes nothing else (R5). -/
def Obligations.SoftResetAndLockActOnTheirPage : Prop :=
  (∀ (a : Acc) (s : State), s.takes a → ownCtrl (accPage a) → tenantOfPage (accPage a) = none →
    s.st (accPage a) = stOFF ∨ s.st (accPage a) = stREFUSED ∨ s.st (accPage a) = stFENCED ∨
      (s.st (accPage a) = stFAULT ∧ smGet false s.flt.fatal (accPage a) = false) →
    Runs (.softReset a) s (fun t =>
      t.st (accPage a) = stOFF ∧ t.fld (accPage a) fENABLE = 0 ∧ t.fld (accPage a) fQUIESCE = 0 ∧
      t.fld (accPage a) fLOCK = s.fld (accPage a) fLOCK)) ∧
  (∀ (a : Acc) (s : State), s.takes a → pageKind (accPage a) ≠ .tnt → pageKind (accPage a) ≠ .hifSet → tenantOfPage (accPage a) = none →
    s.fld (accPage a) fLOCK = 0 → Runs (.lockPage a) s (fun t => t.fld (accPage a) fLOCK = 1 ∧ WordsBut [(accPage a, hCTRL)] s t))

/-- R35: an ENABLE 1→0 write or a SOFT_RESET write whose condition in R32's table does not hold is discarded: no field of BLK_CTRL and no
other register changes, and WRITE_DISCARDED is set. BLK_CTRL of a tenant status page (R30) and of HIF page 2 (R339) takes no write at all;
in a tenant's other pages SOFT_RESET and LOCK are ignored (R30), and a write that then moves nothing is discarded. -/
def Obligations.DisableAndSoftResetOutOfTurnAreDiscarded : Prop :=
  (∀ (a : Acc) (s : State), s.takes a → pageKind (accPage a) ≠ .tnt → pageKind (accPage a) ≠ .hifSet → s.fld (accPage a) fENABLE = 1 →
    fixedPage (accPage a) = true ∨
      (s.st (accPage a) ≠ stCHECKING ∧ ¬(s.st (accPage a) = stRUNNING ∧ s.hasDependants (accPage a) = false)) →
    Runs (.disable a) s (fun t =>
      Raised (accPage a) evWRITE_DISCARDED s t ∧ WordsBut [(accPage a, hRAW), (accPage a, hSETCOUNT)] s t)) ∧
  (∀ (a : Acc) (s : State), s.takes a → pageKind (accPage a) ≠ .tnt → pageKind (accPage a) ≠ .hifSet → tenantOfPage (accPage a) = none →
    fixedPage (accPage a) = true ∨
      (s.st (accPage a) ≠ stOFF ∧ s.st (accPage a) ≠ stREFUSED ∧ s.st (accPage a) ≠ stFENCED ∧
        (s.st (accPage a) = stFAULT → smGet false s.flt.fatal (accPage a) = true)) →
    Runs (.softReset a) s (fun t =>
      Raised (accPage a) evWRITE_DISCARDED s t ∧ WordsBut [(accPage a, hRAW), (accPage a, hSETCOUNT)] s t)) ∧
  (∀ (a : Acc) (c : Instr) (s : State), s.takes a → c ∈ [.disable a, .softReset a] → pageKind (accPage a) = .tnt ∨ pageKind (accPage a) = .hifSet →
    Runs c s (fun t => WordsBut [] s t)) ∧
  (∀ (a : Acc) (c : Instr) (s : State), s.takes a → c ∈ [.softReset a, .lockPage a] → pageKind (accPage a) ≠ .tnt →
    (tenantOfPage (accPage a)).isSome = true → s.fld (accPage a) fQUIESCE = 0 ∨ s.st (accPage a) ≠ stRUNNING →
    Runs c s (fun t => Raised (accPage a) evWRITE_DISCARDED s t ∧ WordsBut [(accPage a, hRAW), (accPage a, hSETCOUNT)] s t))

/-- Events, the error capture and the ledger snapshot (R36, R38, R39): a W1C write clears the EVT_RAW bits written 1; EVT_FORCE sets them
and EVT_SETCOUNT counts each; the captured source, class, address and syndrome outlast VALID; LEDGER_SEL latches the five counts of a
ledger of the page, which add up where the ledgers do, and zeros for any other INDEX. -/
def Obligations.EventsErrorsAndLedgersOfAPage : Prop :=
  (∀ (a : Acc) (v : Word) (s : State), s.takes a → RsvClear (accPage a) hRAW v →
    Runs (.evtRawClear a v) s (fun t =>
      t.word (accPage a) hRAW = s.word (accPage a) hRAW &&& ~~~v ∧ WordsBut [(accPage a, hRAW)] s t)) ∧
  (∀ (a : Acc) (v : Word) (s : State), s.takes a → RsvClear (accPage a) 7 v →
    Runs (.evtForce a v) s (fun t =>
      t.word (accPage a) hRAW = s.word (accPage a) hRAW ||| v ∧
      t.fld (accPage a) fSETCOUNT = (s.fld (accPage a) fSETCOUNT + ((List.range 32).filter (fun b => bitOf v b)).length) % 256 ∧
      WordsBut [(accPage a, hRAW), (accPage a, hSETCOUNT)] s t)) ∧
  (∀ (a : Acc) (valid overflow : Bool) (s : State), s.takes a →
    Runs (.errStatusClear a valid overflow) s (fun t =>
      t.fld (accPage a) fERRVALID = (if valid then 0 else s.fld (accPage a) fERRVALID) ∧
      t.fld (accPage a) fERRMERGE = (if valid then 0 else s.fld (accPage a) fERRMERGE) ∧
      t.fld (accPage a) fERROVF = (if overflow then 0 else s.fld (accPage a) fERROVF) ∧
      t.fld (accPage a) fERRSOURCE = s.fld (accPage a) fERRSOURCE ∧ WordsBut [(accPage a, hERR)] s t)) ∧
  (∀ (a : Acc) (s : State), s.takes a →
    Runs (.clrCounts a) s (fun t =>
      t.word (accPage a) hCE = 0#32 ∧ t.word (accPage a) hUE = 0#32 ∧ WordsBut [(accPage a, hCE), (accPage a, hUE)] s t)) ∧
  (∀ (a : Acc) (v : Word) (s : State), s.takes a → RsvClear (accPage a) hLSEL v → v.toNat < ledgerCount (pageKind (accPage a)) →
    Runs (.ledgerSnapshot a v) s (fun t =>
      t.word (accPage a) hLSEL = v ∧
      t.word (accPage a) hLTOTAL = BitVec.ofNat 32 (s.ledger (accPage a) v.toNat).total ∧
      t.word (accPage a) hLFREE = BitVec.ofNat 32 (s.ledger (accPage a) v.toNat).free ∧
      t.word (accPage a) hLHELD = BitVec.ofNat 32 (s.ledger (accPage a) v.toNat).held ∧
      t.word (accPage a) hLTRANSIT = BitVec.ofNat 32 (s.ledger (accPage a) v.toNat).transit ∧
      t.word (accPage a) hLRECL = BitVec.ofNat 32 (s.ledger (accPage a) v.toNat).reclaimed ∧
      (LedgersSum s → t.word (accPage a) hLFREE + t.word (accPage a) hLHELD + t.word (accPage a) hLTRANSIT = t.word (accPage a) hLTOTAL) ∧
      WordsBut ([hLSEL, hLTOTAL, hLFREE, hLHELD, hLTRANSIT, hLRECL].map (fun w => (accPage a, w))) s t)) ∧
  (∀ (a : Acc) (v : Word) (s : State), s.takes a → RsvClear (accPage a) hLSEL v → ledgerCount (pageKind (accPage a)) ≤ v.toNat →
    Runs (.ledgerSnapshot a v) s (fun t =>
      [hLTOTAL, hLFREE, hLHELD, hLTRANSIT, hLRECL].all (fun w => t.word (accPage a) w == 0#32) = true ∧
      WordsBut ([hLSEL, hLTOTAL, hLFREE, hLHELD, hLTRANSIT, hLRECL].map (fun w => (accPage a, w))) s t))

/-- DOZE (R40, R41): a TARGET of DOZE is taken from OFF, REFUSED or drained QUIESCING only, and discarded elsewhere; its change sets TRANSITION,
until the clocks are gated and CURRENT reads DOZE. ACTIVE is taken in every state, and CURRENT reads ACTIVE once the clocks have restarted. A
TARGET as it is, and the end of a change that is not in progress, change nothing. CLK_SEL.POINT of a PNL page is stored unless it lies below
the floor of the panel's cadence domain, of a CNV page unless it lies below a floor of its canvas, and is discarded there; no other page
holds a point. -/
def Obligations.DozeAndClockPoints : Prop :=
  (∀ (a : Acc) (s : State), s.takes a → s.fld (accPage a) fTARGET = 0 →
    s.checkedOpen (accPage a) = true ∨ s.drainedPage (accPage a) = true →
    Runs (.pwrReqDoze a) s (fun t =>
      t.fld (accPage a) fTARGET = 1 ∧ t.fld (accPage a) fTRANSITION = 1 ∧ WordsBut [(accPage a, hPWRREQ), (accPage a, hPWRSTATE)] s t)) ∧
  (∀ (a : Acc) (s : State), s.takes a → s.checkedOpen (accPage a) = false → s.drainedPage (accPage a) = false →
    Runs (.pwrReqDoze a) s (fun t =>
      Raised (accPage a) evWRITE_DISCARDED s t ∧ WordsBut [(accPage a, hRAW), (accPage a, hSETCOUNT)] s t)) ∧
  (∀ (a : Acc) (s : State), s.takes a → s.fld (accPage a) fTARGET = 1 →
    s.checkedOpen (accPage a) = true ∨ s.drainedPage (accPage a) = true → Runs (.pwrReqDoze a) s (fun t => WordsBut [] s t)) ∧
  (∀ (a : Acc) (s : State), s.takes a → s.fld (accPage a) fTARGET = 0 → Runs (.pwrReqActive a) s (fun t => WordsBut [] s t)) ∧
  (∀ (a : Acc) (c : Instr) (g : Nat) (s : State), (c, g) ∈ [(.dozeGated a, 1), (.clocksRestarted a, 0)] →
    ¬(s.fld (accPage a) fTRANSITION = 1 ∧ s.fld (accPage a) fTARGET = g) → exec c s = .next s) ∧
  (∀ (a : Acc) (s : State), s.fld (accPage a) fTRANSITION = 1 → s.fld (accPage a) fTARGET = 1 →
    Runs (.dozeGated a) s (fun t =>
      t.fld (accPage a) fTRANSITION = 0 ∧ t.fld (accPage a) fCURRENT = 1 ∧ WordsBut [(accPage a, hPWRSTATE)] s t)) ∧
  (∀ (a : Acc) (s : State), s.takes a → s.fld (accPage a) fTARGET = 1 →
    Runs (.pwrReqActive a) s (fun t =>
      t.fld (accPage a) fTARGET = 0 ∧ t.fld (accPage a) fTRANSITION = 1 ∧ WordsBut [(accPage a, hPWRREQ), (accPage a, hPWRSTATE)] s t)) ∧
  (∀ (a : Acc) (s : State), s.fld (accPage a) fTRANSITION = 1 → s.fld (accPage a) fTARGET = 0 →
    Runs (.clocksRestarted a) s (fun t =>
      t.fld (accPage a) fTRANSITION = 0 ∧ t.fld (accPage a) fCURRENT = 0 ∧ WordsBut [(accPage a, hPWRSTATE)] s t)) ∧
  (∀ (a : Acc) (v : Word) (s : State), s.takes a → pageKind (accPage a) = .pnl → v.toNat % 4 ≤ s.floorOf (pageInstance (accPage a)) →
    Runs (.clkSelWrite a v) s (fun t => t.fld (accPage a) fPOINT = v.toNat % 4)) ∧
  (∀ (a : Acc) (v : Word) (s : State), s.takes a → pageKind (accPage a) = .cnv →
    (List.range 32).all (fun i => decide (v.toNat % 4 ≤ s.floorOf (pageInstance (accPage a) * 32 + i))) = true →
    Runs (.clkSelWrite a v) s (fun t => t.fld (accPage a) fPOINT = v.toNat % 4 ∧ t.fld (accPage a) fACTUAL = v.toNat % 4)) ∧
  (∀ (a : Acc) (v : Word) (s : State), s.takes a →
    (pageKind (accPage a) = .pnl ∧ s.floorOf (pageInstance (accPage a)) < v.toNat % 4) ∨
      (pageKind (accPage a) = .cnv ∧
        (List.range 32).any (fun i => decide (s.floorOf (pageInstance (accPage a) * 32 + i) < v.toNat % 4)) = true) →
    Runs (.clkSelWrite a v) s (fun t =>
      bitOf (t.word (accPage a) hRAW) evWRITE_DISCARDED = true ∧ WordsBut [(accPage a, hRAW), (accPage a, hSETCOUNT)] s t)) ∧
  (∀ (a : Acc) (v : Word) (s : State), s.takes a → pageKind (accPage a) ≠ .pnl → pageKind (accPage a) ≠ .cnv →
    Runs (.clkSelWrite a v) s (fun t => WordsBut [(accPage a, hRAW), (accPage a, hSETCOUNT)] s t))

/-- R48: a legal write of MOD_PD_REQ0 or MOD_PD_REQ1 is accepted with BUSY; while BUSY is 1 a write that changes a domain is refused with
TRANSITION_BUSY and changes neither request; the end of the transition shows the new domains, clears BUSY and sets STATE_CHANGE; a quad that
came on is cleared before use (R81). R47: a read of MOD_TIME_LO returns the low word of one instant, which never lies before an earlier one,
and latches its high word; a read of MOD_PTP_OFFSET_LO does so with the offset. -/
def Obligations.PowerDomainsAndTimebaseReads : Prop :=
  (∀ (now : DWord) (s : State), s.reaches 0 = true →
    Runs (.modTimeRead now) s (fun t =>
      t.reply = max s.time now.toNat % 2 ^ 32 ∧ t.time = max s.time now.toNat ∧
      t.word pgMOD (r_MOD_TIME_LO + 1) = BitVec.ofNat 32 (max s.time now.toNat % 2 ^ 64 / 2 ^ 32) ∧
      WordsBut [(pgMOD, r_MOD_TIME_LO + 1)] s t)) ∧
  (∀ (s : State), s.reaches 0 = true →
    Runs .modPtpOffsetRead s (fun t =>
      t.reply = s.wideOf pgMOD r_MOD_PTP_OFFSET_LO % 2 ^ 32 ∧
      t.word pgMOD (r_MOD_PTP_OFFSET_LO + 1) = BitVec.ofNat 32 (s.wideOf pgMOD r_MOD_PTP_OFFSET_LO / 2 ^ 32) ∧
      WordsBut [(pgMOD, r_MOD_PTP_OFFSET_LO + 1)] s t)) ∧
  (∀ (v : Word) (s : State), s.reaches 0 = true → RsvClear pgMOD r_MOD_PD_REQ0 v →
    (s.word pgMOD r_MOD_PD_REQ0).toNat % 65536 ≠ v.toNat % 65536 ||| 0x87 →
    s.pdLegal (v.toNat % 65536 ||| 0x87) (s.word pgMOD r_MOD_PD_REQ1).toNat = true →
    Runs (.modPdReq0Write v) s (PdAccepted (v.toNat % 65536 ||| 0x87) (s.word pgMOD r_MOD_PD_REQ1).toNat s)) ∧
  (∀ (v : Word) (s : State), s.reaches 0 = true → s.pow.fwFail = false → s.word pgMOD r_MOD_PD_REQ1 ≠ v →
    s.pdLegal (s.word pgMOD r_MOD_PD_REQ0).toNat v.toNat = true →
    Runs (.modPdReq1Write v) s (PdAccepted (s.word pgMOD r_MOD_PD_REQ0).toNat v.toNat s)) ∧
  (∀ (v : Word) (s : State), s.reaches 0 = true → s.pow.fwFail = false → s.word pgMOD r_MOD_PD_REQ1 ≠ v →
    s.fld pgMOD f_MOD_PD_RESULT_BUSY = 1 →
    Runs (.modPdReq1Write v) s (fun t =>
      t.fld pgMOD f_MOD_PD_RESULT_REASON = 0x41 ∧ Raised pgMOD evWRITE_DISCARDED s t ∧ t.pow = s.pow ∧
      WordsBut [(pgMOD, hRAW), (pgMOD, hSETCOUNT), (pgMOD, r_MOD_PD_RESULT)] s t)) ∧
  (∀ (n : PdChange) (s : State), s.pow.pd = some n →
    Runs .pdTransitionDone s (fun t =>
      t.word pgMOD r_MOD_PD_STATE0 = BitVec.ofNat 32 n.st0 ∧ t.word pgMOD r_MOD_PD_STATE1 = BitVec.ofNat 32 n.st1 ∧
      t.fld pgMOD f_MOD_PD_RESULT_BUSY = 0 ∧ t.pow.pd = none ∧ Raised pgMOD evSTATE_CHANGE s t ∧
      (∀ i < 32, domBit 0 n.st1 (16 + i) = true → domBit 0 (s.word pgMOD r_MOD_PD_STATE1).toNat (16 + i) = false →
        smGet false t.pow.uncleared i = true))) ∧
  (∀ (c : Fin 4) (q : Fin 8) (s : State), smGet false s.pow.uncleared (8 * c.val + q.val) = true →
    Runs (.quadClearDone c q) s (fun t =>
      smGet false t.pow.uncleared (8 * c.val + q.val) = false ∧
      (∀ p ∈ s.quadPanels c.val q.val, ∀ o < 0x800000, cGet t.mem.pal (p * 0x800000 + o) = 0#8) ∧
      (∀ p ∈ s.quadPanels c.val q.val, ∀ o < 0x400000, cGet t.mem.stores (p * 0x400000 + o) = 0#8) ∧
      (∀ a, (∀ p ∈ s.quadPanels c.val q.val, a / 0x800000 ≠ p) → cGet t.mem.pal a = cGet s.mem.pal a)))

/-- R49, R461: MODULE_RESET with the right KEY, PERST#, a FATAL error with FATAL_RESET set, a recovered power fail and the platform's request
each reset the module with their cause; a MOD_RESET write with another KEY or CMD is discarded. -/
def Obligations.ModuleResetsAndTheirCauses : Prop :=
  (∀ (v : Word) (now : DWord) (s : State), s.reaches 0 = true → fldGet v f_MOD_RESET_KEY = 0x4D52 → fldGet v f_MOD_RESET_CMD = 1 →
    Runs (.moduleReset v now) s (fun t => AfterReset 2 s t ∧ t.time = max s.time now.toNat)) ∧
  (∀ (v : Word) (now : DWord) (s : State), s.reaches 0 = true → RsvClear pgMOD r_MOD_RESET v →
    ¬(fldGet v f_MOD_RESET_KEY = 0x4D52 ∧ fldGet v f_MOD_RESET_CMD = 1) →
    Runs (.moduleReset v now) s (fun t =>
      Raised pgMOD evWRITE_DISCARDED s t ∧ WordsBut [(pgMOD, hRAW), (pgMOD, hSETCOUNT)] s t)) ∧
  (∀ (now : DWord) (s : State), s.pow.perst = false → s.pow.phase = .ready ∨ s.pow.phase = .released →
    Runs (.perstAssert now) s (fun t => AfterReset 1 s t ∧ t.pow.perst = true)) ∧
  (∀ (now : DWord) (s : State), Runs (.perstDeassert now) s (fun t => t.pow = { s.pow with perst := false } ∧ t.regs = s.regs)) ∧
  (∀ (now : DWord) (s : State), s.pow.phase = .ready → s.pow.resetDue = true → s.fld pgFLT f_FLT_ACTION_FATAL_RESET = 1 →
    Runs (.fatalReset now) s (AfterReset 3 s)) ∧
  (∀ (now : DWord) (s : State), s.pow.failing = true → Runs (.powerFailEnd true now) s (fun t =>
    t.fld pgMOD f_MOD_RESET_CAUSE_CAUSE = 4 ∧ t.pow.phase = .held ∧ t.pow.failing = false ∧ t.mem.buffered = [])) ∧
  (∀ (now : DWord) (s : State), s.pow.phase ≠ .off → s.pow.failing = false → Runs (.resetStateEffecter now) s (AfterReset 5 s))

/-- R449, R450, R461: AON power comes up with the timebase at 0; over-voltage cuts the module off, and it restarts once the input has
fallen; a power fail drops ENV_OK and holds everything in reset, and ends in a cut of AON power where the input has not recovered. -/
def Obligations.InputPowerComesAndGoes : Prop :=
  (∀ (s : State), s.pow.phase = .off → s.pow.overVolt = false →
    Runs .aonPowerOn s (fun t => t.time = 0 ∧ t.pow.phase = .held ∧ t.pow.envOk = true ∧ t.flt.powerOns = s.flt.powerOns + 1 ∧ t.regs = s.regs)) ∧
  (∀ (now : DWord) (s : State), s.pow.phase ≠ .off →
    Runs (.overVoltage now) s (fun t => t.pow.phase = .off ∧ t.pow.overVolt = true ∧ t.mem.buffered = [])) ∧
  (∀ (s : State), s.pow.phase = .off → s.pow.overVolt = true →
    Runs .overVoltageRecovery s (fun t => t.time = 0 ∧ t.pow.phase = .held ∧ t.pow.overVolt = false)) ∧
  (∀ (now : DWord) (s : State), s.pow.phase ≠ .off → s.pow.failing = false →
    Runs (.powerFail now) s (fun t =>
      t.pow.failing = true ∧ t.pow.envOk = false ∧ t.pow.phase = .held ∧ t.hif.linkUp = false ∧ t.ops.ops = [] ∧
      t.word pgMOD r_MOD_RESET_COUNT = s.word pgMOD r_MOD_RESET_COUNT)) ∧
  (∀ (now : DWord) (s : State), s.pow.failing = true →
    Runs (.powerFailEnd false now) s (fun t => t.pow.phase = .off ∧ t.flt.queue.all (fun r => decide (0x20 ≤ r.typ)) = true ∧ t.mem.buffered = []))

/-- R462 to R466: T0 boots a firmware slot whose image passes and whose SVN is not below the anti-rollback value, the pending slot first;
configuration ready brings the link up; configuration requests are answered with retry status before it. -/
def Obligations.StartUpReachesConfigurationReady : Prop :=
  (∀ (okA okB : Bool) (svnA svnB : Fin 256) (now : DWord) (i : Nat) (s : State),
    s.pow.phase = .held → s.pow.perst = false → s.pow.failing = false →
    i = (if s.fld pgSEC f_SEC_FW_PENDING = 1 then 1 - s.fld pgSEC f_SEC_FW_ACTIVE else s.fld pgSEC f_SEC_FW_ACTIVE) →
    s.fwOk i (if i = 0 then okA else okB) = true → smGet 0 s.sec.arb 0 ≤ s.fwSvn i (if i = 0 then svnA.val else svnB.val) →
    s.fld pgEAS (fPair 0) ≠ 2 →
    Runs (.resetRelease okA okB svnA svnB now) s (fun t =>
      t.pow.phase = .released ∧ t.pow.fwSigned = true ∧ t.pow.fwFail = false ∧ t.fld pgSEC f_SEC_FW_ACTIVE = i ∧
      t.fld pgSEC f_SEC_FW_PENDING = 0 ∧ t.fld pgSEC f_SEC_FW_FALLBACK = 0 ∧ t.fld pgEAS f_EAS_STATUS_L2_RUNNING = 1 ∧
      t.st pgEAS = stRUNNING)) ∧
  (∀ (okA okB : Bool) (svnA svnB : Fin 256) (now : DWord) (s : State), s.pow.phase = .held → s.pow.perst = false → s.pow.failing = false →
    s.fwOk 0 okA = false → s.fwOk 1 okB = false →
    Runs (.resetRelease okA okB svnA svnB now) s (fun t =>
      t.pow.phase = .released ∧ t.pow.fwSigned = false ∧ t.pow.fwFail = true ∧ t.regs = s.regs)) ∧
  (∀ (speed : Fin 7) (lanes : Fin 64) (flit : Bool) (fails : List (Fin 132 × Fin 68)) (now : DWord) (s : State), s.pow.phase = .released →
    Runs (.configReady speed lanes flit fails now) s (fun t =>
      t.pow.phase = .ready ∧ t.hif.linkUp = true ∧ t.fld pgHIF0 f_HIF_LINK_WIDTH = lanes.val ∧ t.fld pgHIF0 f_HIF_LINK_SPEED = speed.val)) ∧
  (∀ (fn : Fin 33) (s : State), s.pow.phase = .released →
    exec (.configRequest fn) s = .next (s.emit ⟨.cfgReply, fn.val, [1], []⟩)) ∧
  (∀ (fn : Fin 33) (s : State), s.pow.phase = .ready → s.hif.linkUp = true →
    exec (.configRequest fn) s = .next (s.emit ⟨.cfgReply, fn.val, [0], []⟩))

/-- R390, R449, R451, R454 to R456: a power sample shows the readings, and the throttle takes one skip of 16 at a time while the projection
exceeds the cap; a temperature out of its range, or a coolant rise above its limit for 10 s, drops ENV_OK; a sensor that crosses a
threshold raises the event. -/
def Obligations.SensorsDriveTheThrottleAndEnvOk : Prop :=
  (∀ (mv ma : BitVec 32) (avg proj : BitVec 11) (now : DWord) (s : State), s.pow.phase ≠ .off →
    Runs (.powerSample mv ma avg proj now) s (fun t =>
      smGet 0 t.mgt.sensors 0 = mv.toNat ∧ smGet 0 t.mgt.sensors 1 = ma.toNat ∧ smGet 0 t.mgt.sensors 2 = avg.toNat ∧
      t.fld pgMGT f_MGT_POWER_NOW_WATTS = avg.toNat)) ∧
  (∀ (mv ma : BitVec 32) (avg proj : BitVec 11) (now : DWord) (s : State), s.pow.phase ≠ .off →
    s.throttleCap < proj.toNat → s.pow.lowSince = none → s.pow.skip ≠ 0 →
    Runs (.powerSample mv ma avg proj now) s (fun t =>
      t.pow.skip = s.pow.skip - 1 ∧ t.pow.stage = max 1 s.pow.stage ∧ t.pow.calmSince = none)) ∧
  (∀ (mv ma : BitVec 32) (avg proj : BitVec 11) (now : DWord) (t0 : Nat) (s : State), s.pow.phase ≠ .off →
    mv.toNat < 40000 ∨ 60000 < mv.toNat → s.pow.outSince = some t0 → t0 + 10000 ≤ max s.time now.toNat →
    Runs (.powerSample mv ma avg proj now) s (fun t => t.pow.envOk = false)) ∧
  (∀ (sensor : Fin 8) (v : BitVec 16) (now : DWord) (s : State), s.pow.phase ≠ .off →
    Runs (.temperatureThreshold sensor v now) s (fun t =>
      smGet 0 t.mgt.sensors (sensor.val + 3) = v.toInt ∧
      (sensorBand (sensor.val + 3) v.toInt ≠ 0 → t.pow.envOk = false) ∧
      (sensorBand (sensor.val + 3) v.toInt ≠ sensorBand (sensor.val + 3) (smGet 0 s.mgt.sensors (sensor.val + 3)) →
        Raised pgMGT ev_mgt_SENSOR_THRESHOLD s t) ∧
      WordsBut [(pgMGT, hRAW), (pgMGT, hSETCOUNT)] s t)) ∧
  (∀ (now : DWord) (a : State) (s : State), s.at now.toNat = a →
    exec (.flowLow now) s = .next (if s.pow.phase ≠ .off ∧ s.pow.hotSince.any (fun t0 => decide (t0 + 10000000000 ≤ a.time)) = true then
      { a with pow := { a.pow with flowLow := true, envOk := false } } else s)) ∧
  (∀ (v : Fin 3) (s : State), s.pow.phase ≠ .off → smGet 0 s.mgt.sensors 11 ≠ v.val →
    Runs (.moistureChange v) s (fun t =>
      smGet 0 t.mgt.sensors 11 = v.val ∧ t.pow.moist = (v.val != 0) ∧ Raised pgMGT ev_mgt_SENSOR_THRESHOLD s t ∧
      WordsBut [(pgMGT, hRAW), (pgMGT, hSETCOUNT)] s t))

/-- R387, R388, R394, R389: a level of a plant input that outlasts the glitch filter latches with the time of its edge, and a shorter one
is nothing; reading its time returns one instant; a write
of MGT_OUT_LEVEL drives every unclaimed output and no claimed one; a cap within its limits is taken, and one outside them is discarded or
answered with ERROR_INVALID_DATA. -/
def Obligations.PlantInputsOutputsAndCaps : Prop :=
  (∀ (i : Fin 4) (high : Bool) (held : Fin 64) (t : DWord) (s : State), held.val < s.fld pgMGT f_MGT_IN_FILTER_SAMPLES →
    exec (.inputEdge i high held t) s = .next s) ∧
  (∀ (i : Fin 4) (high : Bool) (held : Fin 64) (t : DWord) (s : State), s.pow.phase ≠ .off →
    s.fld pgMGT f_MGT_IN_FILTER_SAMPLES ≤ held.val → (s.fld pgMGT f_MGT_IN_STATUS_LEVEL).testBit i.val ≠ high →
    Runs (.inputEdge i high held t) s (fun u =>
      (∀ j < 4, (u.fld pgMGT f_MGT_IN_STATUS_LEVEL).testBit j =
        (if j = i.val then high else (s.fld pgMGT f_MGT_IN_STATUS_LEVEL).testBit j)) ∧
      u.wideOf pgMGT (r_MGT_IN_EDGE_LO i.val) = t.toNat ∧ Raised pgMGT ev_mgt_INPUT_EDGE s u ∧
      WordsBut [(pgMGT, hRAW), (pgMGT, hSETCOUNT), (pgMGT, r_MGT_IN_STATUS)] s u)) ∧
  (∀ (i : Fin 4) (s : State), s.reaches 0 = true →
    Runs (.mgtInEdgeRead i) s (fun u =>
      u.reply = s.wideOf pgMGT (r_MGT_IN_EDGE_LO i.val) % 2 ^ 32 ∧
      u.word pgMGT (r_MGT_IN_EDGE_LO i.val + 1) = BitVec.ofNat 32 (s.wideOf pgMGT (r_MGT_IN_EDGE_LO i.val) / 2 ^ 32) ∧
      WordsBut [(pgMGT, r_MGT_IN_EDGE_LO i.val + 1)] s u)) ∧
  (∀ (v : Word) (s : State), s.reaches 0 = true → RsvClear pgMGT r_MGT_OUT_LEVEL v →
    Runs (.mgtOutLevelWrite v) s (fun u =>
      (∀ j < 16, (u.fld pgMGT f_MGT_OUT_STATE_LEVEL).testBit j =
        (if (s.fld pgMGT f_MGT_OUT_STATE_CLAIMED).testBit j then (s.fld pgMGT f_MGT_OUT_STATE_LEVEL).testBit j else v.getLsbD j)) ∧
      u.fld pgMGT f_MGT_OUT_LEVEL_LEVEL = v.toNat % 65536 ∧ u.fld pgMGT f_MGT_OUT_STATE_CLAIMED = s.fld pgMGT f_MGT_OUT_STATE_CLAIMED ∧
      WordsBut [(pgMGT, r_MGT_OUT_LEVEL), (pgMGT, r_MGT_OUT_STATE)] s u)) ∧
  (∀ (v : Word) (s : State), s.reaches 0 = true → RsvClear pgMGT r_MGT_POWER_CAP v →
    s.capLeast ≤ fldGet v f_MGT_POWER_CAP_WATTS → fldGet v f_MGT_POWER_CAP_WATTS ≤ 1500 →
    Runs (.mgtPowerCapWrite v) s (fun u =>
      u.fld pgMGT f_MGT_POWER_CAP_WATTS = fldGet v f_MGT_POWER_CAP_WATTS ∧
      (u.capNow ≠ s.capNow → Raised pgMGT ev_mgt_CAP_CHANGE s u) ∧
      WordsBut [(pgMGT, hRAW), (pgMGT, hSETCOUNT), (pgMGT, r_MGT_POWER_CAP)] s u)) ∧
  (∀ (v : Word) (s : State), s.reaches 0 = true → RsvClear pgMGT r_MGT_POWER_CAP v →
    fldGet v f_MGT_POWER_CAP_WATTS < s.capLeast ∨ 1500 < fldGet v f_MGT_POWER_CAP_WATTS →
    Runs (.mgtPowerCapWrite v) s (fun u =>
      Raised pgMGT evWRITE_DISCARDED s u ∧ WordsBut [(pgMGT, hRAW), (pgMGT, hSETCOUNT)] s u)) ∧
  (∀ (w : BitVec 11) (s : State), s.pow.phase ≠ .off → s.capLeast ≤ min (s.fld pgMGT f_MGT_POWER_CAP_WATTS) w.toNat →
    Runs (.powerCapEffecter w) s (fun u =>
      u.fld pgMGT f_MGT_POWER_CAP_PLDM_WATTS = w.toNat ∧ u.out.getLast? = some ⟨.mctp, 1, [0x31], [0#8]⟩)) ∧
  (∀ (w : BitVec 11) (s : State), s.pow.phase ≠ .off → min (s.fld pgMGT f_MGT_POWER_CAP_WATTS) w.toNat < s.capLeast →
    exec (.powerCapEffecter w) s = .next (s.emit ⟨.mctp, 1, [0x31], [2#8]⟩))

/-- R392: an enable that finds its bus idle starts the controller, after one recovery where it found SDA low; one that finds it busy is
refused with REASON 0x0D; EN 0 stops the controller; a target that holds SCL low makes it recover, and enable itself again where the bus is
then idle. SPEED 3 is reserved: its write is discarded. -/
def Obligations.I2cControllersStartRecoverAndStop : Prop :=
  (∀ (b : Fin 4) (v : Word) (freed : Bool) (s : State), s.reaches 0 = true → RsvClear pgMGT (r_MGT_I2C_CTRL b.val) v →
    s.fld pgMGT (f_MGT_I2C_CTRL_EN b.val) = 0 → fldGet v (f_MGT_I2C_CTRL_SPEED b.val) ≠ 3 →
    Runs (.i2cEnable b v false false freed) s (fun t =>
      t.fld pgMGT (f_MGT_I2C_CTRL_EN b.val) = 1 ∧ t.fld pgMGT (f_MGT_I2C_CTRL_SPEED b.val) = fldGet v (f_MGT_I2C_CTRL_SPEED b.val) ∧
      t.fld pgMGT (f_MGT_I2C_STATUS_STATE b.val) = 1 ∧ t.fld pgMGT (f_MGT_I2C_STATUS_REASON b.val) = 0 ∧
      WordsBut [(pgMGT, r_MGT_I2C_CTRL b.val), (pgMGT, r_MGT_I2C_STATUS b.val)] s t)) ∧
  (∀ (b : Fin 4) (v : Word) (s : State), s.reaches 0 = true → RsvClear pgMGT (r_MGT_I2C_CTRL b.val) v →
    s.fld pgMGT (f_MGT_I2C_CTRL_EN b.val) = 0 →
    Runs (.i2cEnable b v true false true) s (fun t =>
      t.fld pgMGT (f_MGT_I2C_CTRL_EN b.val) = 1 ∧ t.fld pgMGT (f_MGT_I2C_STATUS_STATE b.val) = 1 ∧
      t.fld pgMGT (f_MGT_I2C_STATUS_RECOVERIES b.val) = min (s.fld pgMGT (f_MGT_I2C_STATUS_RECOVERIES b.val) + 1) 65535)) ∧
  (∀ (b : Fin 4) (v : Word) (sdaLow sclLow freed : Bool) (s : State), s.reaches 0 = true → RsvClear pgMGT (r_MGT_I2C_CTRL b.val) v →
    s.fld pgMGT (f_MGT_I2C_CTRL_EN b.val) = 0 → sclLow = true ∨ (sdaLow = true ∧ freed = false) →
    Runs (.i2cEnable b v sdaLow sclLow freed) s (fun t =>
      t.fld pgMGT (f_MGT_I2C_STATUS_STATE b.val) = 2 ∧ t.fld pgMGT (f_MGT_I2C_STATUS_REASON b.val) = 0x0D ∧
      t.fld pgMGT (f_MGT_I2C_STATUS_RECOVERIES b.val) = min (s.fld pgMGT (f_MGT_I2C_STATUS_RECOVERIES b.val) + 1) 65535 ∧
      bitOf (t.word pgMGT hRAW) ev_mgt_I2C_REFUSED = true)) ∧
  (∀ (b : Fin 4) (v : Word) (s : State), s.reaches 0 = true → RsvClear pgMGT (r_MGT_I2C_CTRL b.val) v →
    fldGet v (f_MGT_I2C_CTRL_SPEED b.val) ≠ 3 → s.fld pgMGT (f_MGT_I2C_CTRL_EN b.val) = 1 →
    Runs (.i2cDisable b v) s (fun t =>
      t.fld pgMGT (f_MGT_I2C_CTRL_EN b.val) = 0 ∧ t.fld pgMGT (f_MGT_I2C_STATUS_STATE b.val) = 0 ∧
      t.fld pgMGT (f_MGT_I2C_STATUS_REASON b.val) = 0 ∧
      WordsBut [(pgMGT, r_MGT_I2C_CTRL b.val), (pgMGT, r_MGT_I2C_STATUS b.val)] s t)) ∧
  (∀ (b : Fin 4) (v : Word) (s : State), s.reaches 0 = true → RsvClear pgMGT (r_MGT_I2C_CTRL b.val) v →
    fldGet v (f_MGT_I2C_CTRL_SPEED b.val) = 3 → s.fld pgMGT (f_MGT_I2C_CTRL_EN b.val) = 0 →
    Runs (.i2cDisable b v) s (fun t =>
      t.fld pgMGT (f_MGT_I2C_CTRL_SPEED b.val) = s.fld pgMGT (f_MGT_I2C_CTRL_SPEED b.val) ∧ Raised pgMGT evWRITE_DISCARDED s t)) ∧
  (∀ (b : Fin 4) (recovered : Bool) (s : State), s.pow.phase ≠ .off → s.fld pgMGT (f_MGT_I2C_CTRL_EN b.val) = 1 →
    s.fld pgMGT (f_MGT_I2C_STATUS_STATE b.val) ≠ 2 →
    Runs (.i2cStretchTimeout b recovered) s (fun t =>
      t.fld pgMGT (f_MGT_I2C_STATUS_STATE b.val) = (if recovered then 1 else 2) ∧
      t.fld pgMGT (f_MGT_I2C_STATUS_RECOVERIES b.val) = min (s.fld pgMGT (f_MGT_I2C_STATUS_RECOVERIES b.val) + 1) 65535))

/-- The sideband answers (R389 to R391, R400): each command of the MCTP control and PLDM sets is answered with its completion code and
data; an update is accepted, its image stands in the inactive slot, and only an image that the security block verifies is made pending.
The completion codes beyond those R389 names, and what an opaque constant of Config holds, are the model's choice (log entry 61). -/
def Obligations.SidebandCommandsAreAnswered : Prop :=
  (∀ (op : Fin 4) (eid : Fin 256) (s : State), s.pow.phase ≠ .off → op.val ≤ 1 → eid.val ≠ 0 → eid.val ≠ 0xFF →
    Runs (.setEndpointId op eid) s (fun t =>
      t.fld pgMGT f_MGT_SMBUS_EID = eid.val ∧ t.out = s.out ++ [⟨.mctp, 0, [1], [0#8, 0#8, BitVec.ofNat 8 eid.val, 0#8]⟩] ∧
      WordsBut [(pgMGT, r_MGT_SMBUS)] s t)) ∧
  (∀ (s : State), s.pow.phase ≠ .off →
    exec .getEndpointId s = .next (s.emit ⟨.mctp, 0, [2], [0#8, BitVec.ofNat 8 (s.fld pgMGT f_MGT_SMBUS_EID), 0#8, 0#8]⟩) ∧
    exec .getMessageTypeSupport s = .next (s.emit ⟨.mctp, 0, [5], [0#8, 1#8, 1#8]⟩) ∧
    exec .getEndpointUuid s = .next (s.emit ⟨.mctp, 0, [3], [0#8] ++ Config.uuid⟩) ∧
    exec .getTid s = .next (s.emit ⟨.mctp, 1, [2], [0#8, BitVec.ofNat 8 s.mgt.tid]⟩) ∧
    exec .getPldmTypes s = .next (s.emit ⟨.mctp, 1, [4], [0#8, 0x25#8, 0#8, 0#8, 0#8, 0#8, 0#8, 0#8, 0#8]⟩)) ∧
  (∀ (typ : Fin 256) (s : State), s.pow.phase ≠ .off → typ.val = 0xFF ∨ typ.val ≤ 1 →
    exec (.getMctpVersionSupport typ) s = .next (s.emit ⟨.mctp, 0, [4], [0#8] ++ Config.mctpVersions typ.val⟩)) ∧
  (∀ (typ : Fin 64) (s : State), s.pow.phase ≠ .off → typ.val = 0 ∨ typ.val = 2 ∨ typ.val = 5 →
    exec (.getPldmVersion typ) s = .next (s.emit ⟨.mctp, 1, [3], [0#8] ++ Config.pldmVersions typ.val⟩)) ∧
  (∀ (s : State), s.pow.phase ≠ .off →
    exec (.getPldmCommands 0) s = .next (s.emit ⟨.mctp, 1, [5], [0#8, 0x3C#8] ++ List.replicate 31 0#8⟩)) ∧
  (∀ (i : Fin 65536) (s : State), s.pow.phase ≠ .off → i.val ≤ 11 → smGet false s.mgt.lost i.val = false →
    exec (.getSensorReading i) s = .next (s.emit ⟨.mctp, 1, [0x11],
      [0#8, 0#8, BitVec.ofNat 8 (sensorBand i.val (smGet 0 s.mgt.sensors i.val))] ++ toLe 4 (smGet 0 s.mgt.sensors i.val % 2 ^ 32).toNat⟩)) ∧
  (∀ (enable : Bool) (eid : Fin 256) (s : State), s.pow.phase ≠ .off →
    Runs (.setEventReceiver enable eid) s (fun t =>
      t.mgt.receiver = (if enable then some eid.val else none) ∧ t.fld pgMGT f_MGT_SMBUS_EVENT_RX = (if enable then 1 else 0) ∧
      t.out = s.out ++ [⟨.mctp, 1, [4], [0#8]⟩] ∧ WordsBut [(pgMGT, r_MGT_SMBUS)] s t)) ∧
  (∀ (s : State), s.pow.phase ≠ .off → s.mgt.update = none → s.updateBarred = false →
    Runs .requestUpdate s (fun t => t.mgt.update = some ⟨[], false, false⟩ ∧ t.out = s.out ++ [⟨.mctp, 1, [0x10], [0#8]⟩] ∧ t.regs = s.regs)) ∧
  (∀ (image : List Byte) (u : FwUpdate) (s : State), s.pow.phase ≠ .off → s.mgt.update = some u → u.complete = false →
    image.length ≤ 536870912 →
    Runs (.transferComplete image true) s (fun t =>
      (∀ i < image.length, cGet t.mem.flash (flashAt s.fwOther 0 + i) = image.getD i 0#8) ∧
      t.mgt.update = some ⟨image, false, true⟩ ∧ t.fld pgSEC f_SEC_FW_PENDING = 0 ∧ t.fld pgSEC f_SEC_FW_SVN_OTHER = 0)) ∧
  (∀ (u : FwUpdate) (s : State), s.pow.phase ≠ .off → s.mgt.update = some u → u.complete = true →
    Runs .applyComplete s (fun t =>
      t.mgt.update = none ∧
      t.fld pgSEC f_SEC_FW_PENDING =
        (if fwImageOk (sub u.image) u.image.length = true ∧ smGet 0 s.sec.arb 0 ≤ leAt u.image 8 1 then 1 else s.fld pgSEC f_SEC_FW_PENDING))) ∧
  (∀ (off : Fin 256) (n : Fin 257) (s : State), s.pow.phase ≠ .off →
    exec (.fruRead false off n) s = .next (s.emit ⟨.smbus, 0x50, [0],
      (List.range n.val).map (fun i => Config.fruByte ((off.val + i) % 256))⟩) ∧
    exec (.fruRead true off n) s = .next (s.emit ⟨.smbus, 0x50, [1], []⟩))

/-- R77, R79, R88, R123, R126: the next step of a panel's first work starts once its conditions hold, and shows its tag; one that waits on a
poisoned counter ends its operation with POISON_CONSUMED; a step runs exactly its CYCLES, stores in its own palette what its cartoon's
operations compute, leaves every other palette byte of every panel, and nothing running. -/
def Obligations.PanelStepsStartAndEnd : Prop :=
  (∀ (p : Fin 128) (w : Work) (o : Op) (s : State), (s.panel p.val).lost = false → s.headWork p.val = some w → s.op w.tag = some o → s.canStart p.val w o = true →
    (s.stepWaitOn o (stepWait (imgStep w.image w.entry w.step)) (stepWaitAdd (imgStep w.image w.entry w.step))).any
      (fun x => s.counterPoisoned x.1) = false →
    Runs (.stepStart p) s (fun t =>
      t.fld (pnlPage p.val) f_PNL_STATUS_STEP_ACTIVE = 1 ∧ t.fld (pnlPage p.val) f_PNL_STATUS_TAG = w.tag % 8192 ∧
      (t.panel p.val).work.any (fun v => v.tag == w.tag && v.step == w.step && v.running) = true ∧
      (s.panelMode p.val ≠ 0 → t.resident p.val = w.tenant % 64) ∧
      t.mem = { s.mem with palBefore := cClear s.mem.palBefore (p.val * 0x800000) 0x800000 })) ∧
  (∀ (p : Fin 128) (w : Work) (o : Op) (s : State), (s.panel p.val).lost = false → s.headWork p.val = some w → s.op w.tag = some o → o.status = 0 → w.running = false →
    (s.stepWaitOn o (stepWait (imgStep w.image w.entry w.step)) (stepWaitAdd (imgStep w.image w.entry w.step))).any
      (fun x => s.counterPoisoned x.1) = true →
    Runs (.stepStart p) s (fun t => (t.op w.tag).map (fun q => q.status) = some scPOISON)) ∧
  (∀ (p : Fin 128) (w : Work) (o : Op) (s : State), (s.panel p.val).work.find? (fun v => v.running && v.kind == 0) = some w →
    s.op w.tag = some o →
    Runs (.stepEnd p) s (fun t =>
      t.fld (pnlPage p.val) f_PNL_STATUS_STEP_ACTIVE = 0 ∧
      t.wideOf (pnlPage p.val) r_PNL_CYCLES_LO =
        (s.wideOf (pnlPage p.val) r_PNL_CYCLES_LO + stepCycles (imgStep w.image w.entry w.step)) % 2 ^ 64 ∧
      (t.word (pnlPage p.val) r_PNL_STEPS).toNat = min ((s.word (pnlPage p.val) r_PNL_STEPS).toNat + 1) 0xFFFFFFFF ∧
      (t.panel p.val).work.all (fun v => v.tag != w.tag || !v.running) = true ∧
      (∀ a < 0x800000, cGet t.mem.pal (p.val * 0x800000 + a) =
        (smFind (s.stepStores p.val (s.stepCores p.val w o) (Config.stepConflict w.image w.entry w.step)) a).getD
          (cGet s.mem.pal (p.val * 0x800000 + a))) ∧
      (∀ q < 128, q ≠ p.val → ∀ a < 0x800000, cGet t.mem.pal (q * 0x800000 + a) = cGet s.mem.pal (q * 0x800000 + a)) ∧
      t.mem.stores = s.mem.stores))

/-- R85, R86, R90, R91, R104: the last slot of an inbound binding lands in the palette with its poison and fills the port; a slot from a peer
panel moves by the sender's binding; the last slot of an outbound binding is written and frees its port; late data is discarded and its
credit reclaimed; a withdrawn credit that was never used is reclaimed; a flit takes a buffer of the next link in its turn, along its row
first, and is consumed at its destination, where its buffer's credit returns. -/
def Obligations.SlotsAndFlitsMoveAgainstCredits : Prop :=
  (∀ (p : Fin 128) (port : Fin 4) (x : Port) (o : Op) (bs : List Byte) (po : Bool) (s : State),
    s.port p.val port.val = some x → s.op x.tag = some o → x.state = 1 → x.granted ≠ 0 → bindPeer x.bind = 0 → x.need = x.units + 1 →
    s.readHeld (o.who x.tag) (x.far + bindFarAt x.bind x.units) 64 = false →
    s.readDva (o.who x.tag) (x.far + bindFarAt x.bind x.units) 64 = .ok bs po →
    Runs (.streamSlotLand p port .inbound) s (fun t =>
      (t.port p.val port.val).map (fun y => (y.units, y.state, y.granted)) = some (x.need, 2, 0) ∧
      (∀ i < bs.length, cGet t.mem.pal (p.val * 0x800000 + bindPalAt x.bind x.units % 0x800000 + i) = bs.getD i 0#8) ∧
      (po = true → smGet false t.mem.palPoison ((p.val * 0x800000 + bindPalAt x.bind x.units % 0x800000) / 8) = true))) ∧
  (∀ (p : Fin 128) (port : Fin 4) (s : State), (s.port p.val port.val).all (fun x => x.state != 1 || x.granted == 0) = true →
    exec (.streamSlotLand p port .inbound) s = .next s) ∧
  (∀ (p : Fin 128) (port : Fin 4) (x y : Port) (key : Nat) (s : State),
    s.port p.val port.val = some x → x.state = 1 → x.granted ≠ 0 → bindPeer x.bind = 1 → x.far ≠ p.val →
    s.senderOf x.far p.val x.tag = some (key, y) →
    Runs (.streamSlotLand p port .inbound) s (fun t =>
      (t.port p.val port.val).map (fun z => z.units) = some (x.units + min 8 (min (x.need - x.units) (y.need - y.units))) ∧
      (y.need = y.units + 1 → x.units < x.need → ∀ i < 64,
        cGet t.mem.pal (p.val * 0x800000 + bindFarAt y.bind y.units % 0x800000 + i) =
          cGet s.mem.pal (x.far * 0x800000 + bindPalAt y.bind y.units % 0x800000 + i)))) ∧
  (∀ (p : Fin 128) (port : Fin 4) (x : Port) (o : Op) (key pa : Nat) (s : State),
    s.outPort p.val port.val = some (key, x) → bindPeer x.bind = 0 → s.op x.tag = some o → o.abandoned = false → x.need = x.units + 1 →
    bindPalAt x.bind x.units % 0x800000 = pa → s.writeFault (o.who x.tag) 0 (cuts (x.far + bindFarAt x.bind x.units) 64) = none →
    anyPoison s.mem.palPoison (p.val * 0x800000 + pa) 64 = false →
    Runs (.streamSlotLand p port .outbound) s (fun t =>
      smFind (t.panel p.val).ports key = none ∧
      t.mem = (s.writeDva (o.who x.tag) (x.far + bindFarAt x.bind x.units) (s.palRead p.val pa 64)).mem)) ∧
  (∀ (p : Fin 128) (port : Fin 4) (n : Nat) (s : State), smGet 0 (s.panel p.val).withdrawn port.val = n →
    Runs (.streamSlotLand p port .late) s (fun t => smGet 0 (t.panel p.val).withdrawn port.val = n - 1 ∧ t.mem = s.mem ∧
      (t.ledger (pnlPage p.val) 0).free = (s.ledger (pnlPage p.val) 0).free + min (min n 1) (s.ledger (pnlPage p.val) 0).transit)) ∧
  (∀ (p : Fin 128) (n : Nat) (s : State), ((s.panel p.val).withdrawn.map (fun e => e.2)).foldl (· + ·) 0 = n →
    Runs (.grantWithdrawTimeout p) s (fun t =>
      (t.panel p.val).withdrawn = [] ∧
      (t.ledger (pnlPage p.val) 0).free = (s.ledger (pnlPage p.val) 0).free + min n (s.ledger (pnlPage p.val) 0).transit ∧
      (t.ledger (pnlPage p.val) 0).transit + min n (s.ledger (pnlPage p.val) 0).transit = (s.ledger (pnlPage p.val) 0).transit ∧
      (t.ledger (pnlPage p.val) 0).reclaimed =
        min ((s.ledger (pnlPage p.val) 0).reclaimed + min n (s.ledger (pnlPage p.val) 0).transit) 0xFFFFFFFF)) ∧
  (∀ (stop dest : Nat), meshNext stop dest = (if stop % 6 < dest % 6 then (stop + 1, 0) else if dest % 6 < stop % 6 then (stop - 1, 1)
    else if stop / 6 < dest / 6 then (stop + 6, 2) else if dest / 6 < stop / 6 then (stop - 6, 3) else (stop, 4))) ∧
  (∀ (c : Fin 4) (src : Fin 36) (dest : Fin 44) (vc : Fin 4) (nx : Nat × Nat) (s : State), meshNext src.val (meshStop dest.val) = nx →
    nx.2 ≠ 4 → s.linkTurn c.val src.val vc.val nx = true →
    Runs (.meshFlitArrival c (.enter src dest vc)) s (fun t =>
      t.reply = nx.1 ∧ t.ledger (cnvPage c.val) 0 = (s.ledger (cnvPage c.val) 0).move .free .held 1 ∧
      smGet [] (t.canvas c.val).mesh (meshKey nx.1 nx.2 vc.val) = smGet [] (s.canvas c.val).mesh (meshKey nx.1 nx.2 vc.val) ++
        [⟨src.val, dest.val, smGet 0 (s.canvas c.val).sent ((src.val * 64 + dest.val) * 4 + vc.val), false⟩])) ∧
  (∀ (c : Fin 4) (src : Fin 36) (dest : Fin 44) (vc : Fin 4) (s : State), (meshNext src.val (meshStop dest.val)).2 ≠ 4 →
    s.linkTurn c.val src.val vc.val (meshNext src.val (meshStop dest.val)) = false →
    exec (.meshFlitArrival c (.enter src dest vc)) s = .next (s.answer src.val)) ∧
  (∀ (c : Fin 4) (stop : Fin 36) (dir vc : Fin 4) (f : Flit) (l : List Flit) (s : State),
    smGet [] (s.canvas c.val).mesh (meshKey stop.val dir.val vc.val) = f :: l →
    Runs (.meshFlitArrival c (.hop stop dir vc)) s (fun t =>
      if meshNext stop.val (meshStop f.dest) = (stop.val, 4) then
        t.reply = stop.val + (if f.poisoned then 64 else 0) ∧ smGet [] (t.canvas c.val).mesh (meshKey stop.val dir.val vc.val) = l ∧
        t.ledger (cnvPage c.val) 0 = (s.ledger (cnvPage c.val) 0).move .held .free 1
      else if (meshNext stop.val (meshStop f.dest)).2 ≠ 4 ∧ s.linkTurn c.val stop.val vc.val (meshNext stop.val (meshStop f.dest)) = true then
        t.reply = (meshNext stop.val (meshStop f.dest)).1 ∧ smGet [] (t.canvas c.val).mesh (meshKey stop.val dir.val vc.val) = l ∧
        t.ledger (cnvPage c.val) 0 = s.ledger (cnvPage c.val) 0
      else t = s.answer stop.val)) ∧
  (∀ (c : Fin 4) (port : Fin 8) (dest : Fin 36) (vc : Fin 4) (s : State),
    Runs (.meshFlitArrival c (.fromStretcher port dest vc)) s (fun t =>
      if (smGet [] (s.canvas c.val).d2d (port.val * 4 + vc.val)).length < s.d2dVc c.val vc.val then
        t.ledger (cnvPage c.val) 1 = (s.ledger (cnvPage c.val) 1).move .free .held 1 ∧
        (smGet [] (t.canvas c.val).d2d (port.val * 4 + vc.val)).length = (smGet [] (s.canvas c.val).d2d (port.val * 4 + vc.val)).length + 1
      else t = s)) ∧
  (∀ (c : Fin 4) (port : Fin 8) (vc : Fin 4) (f : Flit) (l : List Flit) (nx : Nat × Nat) (s : State),
    smGet [] (s.canvas c.val).d2d (port.val * 4 + vc.val) = f :: l → meshNext (meshStop (36 + port.val)) (meshStop f.dest) = nx → nx.2 ≠ 4 →
    s.linkTurn c.val (meshStop (36 + port.val)) vc.val nx = true →
    Runs (.meshFlitArrival c (.hopPort port vc)) s (fun t =>
      t.reply = nx.1 ∧ smGet [] (t.canvas c.val).d2d (port.val * 4 + vc.val) = l ∧
      smGet [] (t.canvas c.val).mesh (meshKey nx.1 nx.2 vc.val) = smGet [] (s.canvas c.val).mesh (meshKey nx.1 nx.2 vc.val) ++ [f] ∧
      t.ledger (cnvPage c.val) 1 = (s.ledger (cnvPage c.val) 1).move .held .free 1)) ∧
  (∀ (c : Fin 4) (stop vc : Nat) (nx : Nat × Nat) (s : State), s.linkTurn c.val stop vc nx = true →
    s.linkFree c.val vc nx = true ∧ (vc ≠ 2 → s.linkFree c.val 2 nx = true →
      ∀ e ∈ (s.canvas c.val).heads stop, e.1 = 2 → meshNext stop (meshStop e.2.dest) ≠ nx))

/-- R93, R95, R97: PNL_RETIRE and CNV_RETIRE with their KEY request a retirement, and without it are discarded; the lowest free spare takes
the logical number of a position that leaves service; the canvas spare takes a panel that is fenced, its palette poisoned where the fenced
panel is dead, or one that is retired in time. -/
def Obligations.SparesTakeTheirPlaces : Prop :=
  (∀ (p : Fin 128) (v : Word) (s : State), s.reaches 0 = true → RsvClear (pnlPage p.val) r_PNL_RETIRE v →
    fldGet v f_PNL_RETIRE_KEY = 0x7E71 → (s.panel p.val).freeSpares ≠ [] →
    (s.panel p.val).coreOut.all (fun c => c.phys != s.physOf p.val (fldGet v f_PNL_RETIRE_LOGICAL)) = true →
    Runs (.pnlRetire p v) s (fun t =>
      (t.panel p.val).coreOut = (s.panel p.val).coreOut ++ [⟨s.physOf p.val (fldGet v f_PNL_RETIRE_LOGICAL), true, true⟩] ∧ t.regs = s.regs)) ∧
  (∀ (p : Fin 128) (v : Word) (s : State), s.reaches 0 = true → RsvClear (pnlPage p.val) r_PNL_RETIRE v →
    fldGet v f_PNL_RETIRE_KEY ≠ 0x7E71 ∨ (s.panel p.val).freeSpares = [] →
    Runs (.pnlRetire p v) s (fun t =>
      Raised (pnlPage p.val) evWRITE_DISCARDED s t ∧ WordsBut [(pnlPage p.val, hRAW), (pnlPage p.val, hSETCOUNT)] s t)) ∧
  (∀ (p : Fin 128) (ue : List (Fin 32768)) (c : CoreOut) (l sp : Nat) (sps : List Nat) (s : State),
    s.stepRuns p.val = false → s.coreDue p.val = some c → (s.panel p.val).freeSpares = sp :: sps → s.logicalOf p.val c.phys = some l →
    Runs (.coreSubstitution p ue) s (fun t =>
      t.physOf p.val l = sp ∧ (t.panel p.val).freeSpares = sps ∧
      (t.panel p.val).coreOut = (s.panel p.val).coreOut.filter (fun d => d.phys != c.phys) ∧
      t.fld (pnlPage p.val) f_PNL_SPARES_FREE = sps.length % 8 ∧
      t.fld (pnlPage p.val) f_PNL_SPARES_SUBST_COUNT = min (s.fld (pnlPage p.val) f_PNL_SPARES_SUBST_COUNT + 1) 255 ∧
      (ue = [] → t.pan.carts = s.pan.carts) ∧ bitOf (t.word (pnlPage p.val) hRAW) ev_pnl_CORE_SUBSTITUTED = true)) ∧
  (∀ (p : Fin 128) (dead : Bool) (ue : List (Fin 0x260000)) (s : State), (s.panel p.val).substing = true → s.stepRuns p.val = false ∨ dead = true →
    Runs (.panelSubstitution p dead ue) s (fun t =>
      (t.panel p.val).onSpare = true ∧ (t.panel p.val).substing = false ∧ (t.canvas (p.val / 32)).spare = 1 ∧
      (t.canvas (p.val / 32)).serving = p.val % 32 ∧ t.fld (pnlPage p.val) f_PNL_SPARES_FREE = 4 ∧
      (dead = true → ∀ i < 0x100000, smGet false t.mem.palPoison (p.val * 0x100000 + i) = true) ∧
      (s.st (pnlPage p.val) = stFENCED → t.st (pnlPage p.val) = stCHECKING))) ∧
  (∀ (c : Fin 4) (v : Word) (s : State), s.reaches 0 = true → RsvClear (cnvPage c.val) r_CNV_RETIRE v →
    fldGet v f_CNV_RETIRE_KEY = 0x7E71 → s.spareState c.val = 0 →
    Runs (.cnvRetire c v) s (fun t =>
      (t.canvas c.val).retire = (s.canvas c.val).retire ++ [c.val * 32 + fldGet v f_CNV_RETIRE_LOGICAL] ∧ t.regs = s.regs)) ∧
  (∀ (c : Fin 4) (v : Word) (s : State), s.reaches 0 = true → RsvClear (cnvPage c.val) r_CNV_RETIRE v →
    fldGet v f_CNV_RETIRE_KEY ≠ 0x7E71 ∨ s.spareState c.val ≠ 0 →
    Runs (.cnvRetire c v) s (fun t =>
      Raised (cnvPage c.val) evWRITE_DISCARDED s t ∧ WordsBut [(cnvPage c.val, hRAW), (cnvPage c.val, hSETCOUNT)] s t)) ∧
  (∀ (p : Fin 128) (now : DWord) (s : State), (s.canvas (p.val / 32)).retire.contains p.val = true →
    (s.panel p.val).work.all (fun w => !w.running && w.step == 0 && !w.done) = true → s.spareState (p.val / 32) = 0 →
    s.panelMode p.val ≠ 2 ∨ (s.at now.toNat).retireMay p.val = true →
    Runs (.proactivePanelRetirement p now) s (fun t =>
      (t.panel p.val).onSpare = true ∧ (t.canvas (p.val / 32)).spare = 1 ∧ (t.canvas (p.val / 32)).retire.contains p.val = false))

/-- R128, R129, R98: a quantum that runs out is remembered; at a step boundary a palette move to the tenant whose turn is next begins, and
CNV_MOVES counts it; once no outbound binding drains it ends: what the panel held stands in the save slot of the tenant it leaves with its
tag, and the incoming tenant finds what it left, or zeros where the tag fails. -/
def Obligations.SharedPanelsSwitchTenants : Prop :=
  (∀ (p : Fin 128) (s : State), s.panelMode p.val = 0 → s.resident p.val ≠ 0x3F →
    exec (.quantumExpiry p) s = .next (s.setPanel p.val { s.panel p.val with quantumOut := true })) ∧
  (∀ (p : Fin 128) (t : Nat) (tagOk : Bool) (s : State), s.nextTenant p.val = some t → s.panelMode p.val = 0 →
    s.running (pnlPage p.val) = true → s.stepRuns p.val = false → (s.panel p.val).substing = false → (s.panel p.val).moving = none →
    s.resident p.val = 0x3F ∨ (s.panel p.val).quantumOut = true ∨ s.urgent p.val t = true →
    (s.canvas (p.val / 32)).moves < s.fld (cnvPage (p.val / 32)) f_CNV_MOVES_LIMIT →
    Runs (.tenantSwitch p tagOk) s (fun u =>
      (u.panel p.val).moving = some t ∧ (u.canvas (p.val / 32)).moves = (s.canvas (p.val / 32)).moves + 1 ∧ u.mem = s.mem ∧
      u.resident p.val = s.resident p.val ∧ u.pan.saved = s.pan.saved)) ∧
  (∀ (p : Fin 128) (t : Nat) (s : State), (s.panel p.val).moving = some t → t < 64 → t ≠ s.resident p.val → s.resident p.val ≠ 0x3F →
    (s.panel p.val).ports.all (fun e => e.2.state != 3) = true → (s.savedOf p.val t).lost = false → s.sec.wiped = false →
    Runs (.tenantSwitch p true) s (fun u =>
      u.resident p.val = t ∧ (u.panel p.val).quantumOut = false ∧ (u.panel p.val).moving = none ∧
      (u.canvas (p.val / 32)).moves = (s.canvas (p.val / 32)).moves - 1 ∧
      (u.savedOf p.val (s.resident p.val)).pal = s.palOf p.val ∧
      (u.savedOf p.val (s.resident p.val)).poison = smCut s.mem.palPoison (p.val * 0x100000) 0x100000 ∧
      (u.savedOf p.val (s.resident p.val)).stores = smCut s.mem.stores (p.val * 0x400000) 0x400000 ∧
      (s.palOf p.val ≠ [] → (u.savedOf p.val (s.resident p.val)).tag =
        saveTag p.val (s.resident p.val) (s.palOf p.val) (smCut s.mem.stores (p.val * 0x400000) 0x400000)) ∧
      (∀ a < 0x800000, cGet u.mem.pal (p.val * 0x800000 + a) = cGet (s.savedOf p.val t).pal a) ∧
      (∀ a < 0x400000, cGet u.mem.stores (p.val * 0x400000 + a) = cGet (s.savedOf p.val t).stores a) ∧
      u.savedOf p.val t = savedReset)) ∧
  (∀ (p : Fin 128) (t : Nat) (s : State), (s.panel p.val).moving = some t → t < 64 → t ≠ s.resident p.val →
    (s.panel p.val).ports.all (fun e => e.2.state != 3) = true →
    Runs (.tenantSwitch p false) s (fun u =>
      u.resident p.val = t ∧ (∀ a < 0x800000, cGet u.mem.pal (p.val * 0x800000 + a) = 0#8) ∧ u.savedOf p.val t = savedReset)) ∧
  (∀ (p : Fin 128) (t : Nat) (tagOk : Bool) (s : State), (s.panel p.val).moving = some t →
    (s.panel p.val).ports.any (fun e => e.2.state == 3) = true → exec (.tenantSwitch p tagOk) s = .next s) ∧
  (∀ (p : Fin 128) (s : State), s.reaches 0 = true →
    Runs (.pnlCyclesRead p) s (fun u =>
      u.reply = s.wideOf (pnlPage p.val) r_PNL_CYCLES_LO % 2 ^ 32 ∧
      u.word (pnlPage p.val) (r_PNL_CYCLES_LO + 1) = BitVec.ofNat 32 (s.wideOf (pnlPage p.val) r_PNL_CYCLES_LO / 2 ^ 32) ∧
      WordsBut [(pnlPage p.val, r_PNL_CYCLES_LO + 1)] s u))

/-- R321, R112, R114, R118, R157, R198: a doorbell moves a ring's TAIL or is discarded; the descriptor at a ring's HEAD is accepted under a
free tag, refused with a record, or, on a serving ring, kept as a request; a cadence ring's first descriptor is accepted the same way. -/
def Obligations.DescriptorsAreTakenFromRings : Prop :=
  (∀ (t : Fin 33) (r : Fin 64) (tail : Word) (s : State), s.reaches t.val = true → s.running (tenantPage t.val 3) = true →
    s.ringOn t.val r.val = true → s.tenantRunning t.val = true →
    (tail.toNat + 2 ^ 32 - (s.ring t.val r.val).tail) % 2 ^ 32 ≤ 2 ^ s.fld (ringPage t.val r.val) (f_RING_CFG_LOG2 (r.val % 32)) -
      ((s.ring t.val r.val).tail + 2 ^ 32 - (s.word (ringPage t.val r.val) (r_RING_HEAD (r.val % 32))).toNat) % 2 ^ 32 →
    exec (.doorbell t r tail) s = .next (s.setRing t.val r.val { s.ring t.val r.val with tail := tail.toNat })) ∧
  (∀ (t : Fin 33) (r : Fin 64) (tail : Word) (s : State), s.reaches t.val = true →
    s.ringOn t.val r.val = false ∨ s.tenantRunning t.val = false →
    Runs (.doorbell t r tail) s (fun u =>
      Raised (tenantPage t.val 3) ev_doorbell_DOORBELL_DISCARDED s u ∧
      WordsBut [(tenantPage t.val 3, hRAW), (tenantPage t.val 3, hSETCOUNT)] s u)) ∧
  (∀ (t : Fin 33) (r : Fin 64) (pick : Fin 8192) (now : DWord) (b : List Byte) (tag : Nat) (s : State),
    (s.at now.toNat).fetchable t.val r.val = true →
    s.readDva (bareWho t.val) (s.ringSlot t.val r.val (s.word (ringPage t.val r.val) (r_RING_HEAD (r.val % 32))).toNat) 64 = .ok b false →
    s.fld (ringPage t.val r.val) (f_RING_CFG_KIND (r.val % 32)) = 0 → s.seqKind t.val r.val (parseDesc b).seq = .new →
    s.descTests t.val (parseDesc b) false = none → s.tagsOf t.val < s.fld (hmTEN t.val) f_HIF_TEN_CFG_TAGS →
    s.pickTag 0 7936 pick.val = some tag →
    Runs (.descriptorFetch (.ring t r) pick now) s (fun u =>
      (u.op tag).map (fun o => (o.tenant, o.ring, o.cad, o.phase, o.d)) = some (t.val, r.val, false, .waiting, parseDesc b) ∧
      u.word (ringPage t.val r.val) (r_RING_HEAD (r.val % 32)) = s.word (ringPage t.val r.val) (r_RING_HEAD (r.val % 32)) + 1 ∧
      (u.ledger pgHIF0 0).free = (s.ledger pgHIF0 0).free - 1 ∧ u.time = max s.time now.toNat)) ∧
  (∀ (t : Fin 33) (r : Fin 64) (pick : Fin 8192) (now : DWord) (b : List Byte) (st det : Nat) (s : State),
    (s.at now.toNat).fetchable t.val r.val = true →
    s.readDva (bareWho t.val) (s.ringSlot t.val r.val (s.word (ringPage t.val r.val) (r_RING_HEAD (r.val % 32))).toNat) 64 = .ok b false →
    s.fld (ringPage t.val r.val) (f_RING_CFG_KIND (r.val % 32)) = 0 → s.seqKind t.val r.val (parseDesc b).seq = .new →
    s.descTests t.val (parseDesc b) false = some (st, det) →
    Runs (.descriptorFetch (.ring t r) pick now) s (fun u =>
      u.ops.ops = s.ops.ops ∧
      u.word (ringPage t.val r.val) (r_RING_HEAD (r.val % 32)) = s.word (ringPage t.val r.val) (r_RING_HEAD (r.val % 32)) + 1 ∧
      (u.cq t.val (s.ringCq t.val r.val)).due.any (fun c => c.noTag && c.status == st && c.detail == det && c.seq == (parseDesc b).seq &&
        c.start == max s.time now.toNat && c.fin == max s.time now.toNat) = true)) ∧
  (∀ (t : Fin 33) (r : Fin 64) (pick : Fin 8192) (now : DWord) (b : List Byte) (s : State),
    (s.at now.toNat).fetchable t.val r.val = true →
    s.readDva (bareWho t.val) (s.ringSlot t.val r.val (s.word (ringPage t.val r.val) (r_RING_HEAD (r.val % 32))).toNat) 64 = .ok b false →
    s.fld (ringPage t.val r.val) (f_RING_CFG_KIND (r.val % 32)) = 1 →
    s.seqKind t.val r.val (leAt b 4 4) = .new → s.reqTests t.val b = none →
    Runs (.descriptorFetch (.ring t r) pick now) s (fun u =>
      smFind u.srv.reqs s.srv.orders = some (parseReq b t.val r.val (s.ringCq t.val r.val) (max s.time now.toNat)) ∧
      u.srv.orders = s.srv.orders + 1 ∧ u.ops.ops = s.ops.ops)) ∧
  (∀ (d : Fin 16) (pick : Fin 8192) (now : DWord) (e : RingSlot) (rest : List RingSlot) (tag : Nat) (s : State),
    (s.dom d.val).ring = e :: rest → s.running (pgCAD d.val) = true →
    s.descTests (s.domOwner d.val) (parseDesc e.bytes) true = none → s.pickTag (7936 + 16 * d.val) 16 pick.val = some tag →
    Runs (.descriptorFetch (.cadence d) pick now) s (fun u =>
      (u.op tag).map (fun o => (o.tenant, o.ring, o.cad, o.phase, o.d)) =
        some (s.domOwner d.val, d.val, true, .waiting, parseDesc e.bytes) ∧
      (u.dom d.val).ring = rest))

/-- R107, R109, R121, R122: a ready RUN whose block, cartoons and bindings pass its checks queues one part on each panel of its group, and one
whose cartoon an earlier load still replaces waits; COPY and
FILL move their rows and end OK; SIGNAL ends with its further adds; WAIT ends once its waits are met; CARTOON_LOAD makes an image resident
where the digest of the copy agrees, and leaves nothing of it where it does not. -/
def Obligations.OperationsDoTheirOpcodes : Prop :=
  (∀ (tag : Fin 8192) (now : DWord) (b : State) (o : Op) (a : List Byte) (s : State), s.begins tag.val 1 now.toNat = some (b, o) →
    s.runHeld tag.val = false → o.isResult = false → b.readDva (o.who tag.val) o.d.arg 320 = .ok a false → b.runArgFault o.tenant a = none → leAt a 4 4 % 2 = 0 →
    (∀ g < o.group.length,
      (match b.cart (o.group.getD g 0) o.tenant (leAt a 0 2) with
       | some c => c.stale = false ∧ slotFaultOf a c.image c.g = none ∧
          (bindsOf c.image c.g).findSome? (fun i => b.bindFault (o.who tag.val) a (imgBinding c.image i)) = none
       | none => False)) →
    Runs (.opRun tag now) s (fun t =>
      (t.op tag.val).map (fun q => (q.phase, q.parts, q.start)) = some (.issued, o.group.length, some (max s.time now.toNat)) ∧
      o.group.all (fun p => (t.panel p).work.any (fun w => w.tag == tag.val && w.step == 0 && !w.running)) = true)) ∧
  (∀ (tag : Fin 8192) (now : DWord) (s : State), s.runHeld tag.val = true → exec (.opRun tag now) s = .next s) ∧
  (∀ (tag : Fin 8192) (now : DWord) (b : State) (o0 o : Op) (h a bs : List Byte) (po : Bool) (m n : Nat) (s : State),
    s.op tag.val = some o0 → s.begins tag.val 2 now.toNat = some (b, o) → s.mem.repairs = [] →
    s.readDva (o0.who tag.val) o0.d.arg 16 = .ok h false → isMural (leAt h 0 8) = false → isMural (leAt h 8 8) = false →
    b.readDva (o.who tag.val) o.d.arg 64 = .ok a false → muralArgFault a = none → copyArgFault a = none →
    leAt a 0x14 4 = 1 → leAt a 0x10 4 = n → b.readDva (o.who tag.val) (leAt a 0 8) n = .ok bs po →
    leAt a 8 8 % 65536 + n ≤ 65536 → b.translate (o.who tag.val) 0 (leAt a 8 8) true = .ok (.module m) →
    Runs (.opCopy tag now) s (fun t =>
      t.endedAs tag.val (if po then scPOISON else scOK) ∧ (∀ i < n, cGet t.mem.mem (m + i) = bs.getD i 0#8) ∧
      (∀ k, k < m ∨ m + n ≤ k → cGet t.mem.mem k = cGet s.mem.mem k))) ∧
  (∀ (tag : Fin 8192) (now : DWord) (b : State) (o : Op) (a : List Byte) (m n : Nat) (s : State),
    s.begins tag.val 3 now.toNat = some (b, o) → b.readDva (o.who tag.val) o.d.arg 64 = .ok a false → leAt a 0x10 4 = n →
    8 ≤ n → n % 8 = 0 → leAt a 0x14 4 = 1 → rsvByte a [(0x18, 8), (0x28, 24)] = none →
    leAt a 0 8 % 65536 + n ≤ 65536 → b.translate (o.who tag.val) 0 (leAt a 0 8) true = .ok (.module m) →
    Runs (.opFill tag now) s (fun t =>
      t.endedAs tag.val scOK ∧ (∀ i < n, cGet t.mem.mem (m + i) = a.getD (8 + i % 8) 0#8) ∧
      (∀ k, k < m ∨ m + n ≤ k → cGet t.mem.mem k = cGet s.mem.mem k))) ∧
  (∀ (tag : Fin 8192) (now : DWord) (b : State) (o : Op) (s : State), s.begins tag.val 0xA now.toNat = some (b, o) → o.d.arg = 0 →
    Runs (.opSignal tag now) s (fun t => t.endedAs tag.val scOK)) ∧
  (∀ (tag : Fin 8192) (now : DWord) (b : State) (o : Op) (a : List Byte) (s : State), s.begins tag.val 0xA now.toNat = some (b, o) →
    o.d.arg ≠ 0 → b.readDva (o.who tag.val) o.d.arg 128 = .ok a false → b.entryFault o.tenant a = none →
    Runs (.opSignal tag now) s (fun t => t.endedAs tag.val scOK ∧ (t.op tag.val).map (fun q => q.further) = some (entriesOf a))) ∧
  (∀ (tag : Fin 8192) (now : DWord) (b : State) (o : Op) (a : List Byte) (s : State), s.begins tag.val 0xB now.toNat = some (b, o) →
    o.d.arg ≠ 0 → b.readDva (o.who tag.val) o.d.arg 128 = .ok a false → b.entryFault o.tenant a = none →
    (∀ x ∈ entriesOf a, s.counterPoisoned ((s.relCounter o.tenant x.1).getD 0) = false ∧ x.2 ≤ s.counter ((s.relCounter o.tenant x.1).getD 0)) →
    Runs (.opWait tag now) s (fun t => t.endedAs tag.val scOK)) ∧
  (∀ (tag : Fin 8192) (now : DWord) (b : State) (o0 o : Op) (a img : List Byte) (s : State), s.op tag.val = some o0 →
    s.begins tag.val 0xF now.toNat = some (b, o) → b.readDva (o.who tag.val) o.d.arg 128 = .ok a false →
    s.cartHeld o0 (s.argNow tag.val o0 0xC 4) = false → loadArgFault a = none →
    b.readDva (o.who tag.val) (leAt a 0 8) (leAt a 8 4) = .ok img false → imageFault img (leAt a 8 4) o.group.length = none →
    ((List.range o.group.length).zip o.group).all (fun x =>
      (b.placeFault x.2 o.tenant (leAt a 0xC 4) ⟨x.1, img, leAt a 0x14 4, leAt a 0x18 4, leAt a 0x1C 4, false⟩).isNone) = true →
    leAt a 0x10 4 % 2 = 0 →
    Runs (.cartoonLoad tag now) s (fun t =>
      if sub img (leAt a 8 4 - 64) 48 = sub (Config.sha384 (img.take (leAt a 8 4 - 64))) 0 48 then
        t.endedAs tag.val scOK ∧ (∀ p ∈ o.group, (t.cart p o.tenant (leAt a 0xC 4)).map (fun c => (c.image, c.stale)) = some (img, false))
      else t.endedAs tag.val scDIGEST ∧ (∀ p ∈ o.group, t.cart p o.tenant (leAt a 0xC 4) = none)))

/-- R116, R117, R118, R127, R324, R325: an operation that has ended adds its SIGNAL and its record becomes due; one whose TIMEOUT expires is
abandoned with a TIMEOUT record; the record at the head of a queue is written to its slot in host memory. -/
def Obligations.OperationsEndWithRecords : Prop :=
  (∀ (tag : Fin 8192) (now : DWord) (o : Op) (s : State), s.op tag.val = some o → o.phase = .ended → o.onChannels = false →
    ¬(o.isResult = true ∧ o.status = 0 ∧ o.decided = false) → o.abandoned = false → s.writesOff o.tenant = false → o.ring < 64 →
    s.noServing →
    Runs (.operationComplete tag now) s (fun t =>
      (t.op tag.val).map (fun q => (q.phase, q.fin)) = some (.due, max s.time now.toNat) ∧
      (t.cq o.tenant o.cq).due.any (fun c => !c.noTag && c.tag == tag.val && c.seq == o.d.seq && c.status == o.status &&
        c.fin == max s.time now.toNat) = true ∧
      (∀ g, o.signals = true → cfValid o.d.sig = true → o.d.opcode ≠ 0xA → s.relCounter o.tenant (cfCounter o.d.sig) = some g →
        s.synTakes g = true → t.counter g = min (s.counter g + o.d.sigAdd) (2 ^ 64 - 1)))) ∧
  (∀ (tag : Fin 8192) (now : DWord) (o : Op) (s : State), s.op tag.val = some o → o.phase = .waiting ∨ o.phase = .issued →
    o.abandoned = false → o.timeout ≠ 0 → o.decided = false → o.channels = 0 → o.ring < 64 → s.noServing →
    Runs (.operationTimeout tag now) s (fun t =>
      (t.op tag.val).all (fun q => q.abandoned) = true ∧
      (t.cq o.tenant o.cq).due.any (fun c => !c.noTag && c.tag == tag.val && c.seq == o.d.seq && c.status == scTIMEOUT) = true)) ∧
  (∀ (t : Fin 33) (q : Fin 64) (r : CRec) (rest : List CRec) (a : Nat) (s : State), (s.cq t.val q.val).due = r :: rest →
    (s.cq t.val q.val).failed = false → s.cqOn t.val q.val = true → s.running (cqPg t.val) = true → s.cqFull t.val q.val = false →
    s.cqSlot t.val q.val (s.cq t.val q.val).posted % 65536 + 32 ≤ 65536 →
    s.translate { bareWho t.val with tag := r.tag, opcode := r.opcode } 0 (s.cqSlot t.val q.val (s.cq t.val q.val).posted) true =
      .ok (.host a) →
    Runs (.completionPost t q) s (fun u =>
      (u.cq t.val q.val).due = rest ∧ (u.cq t.val q.val).posted = ((s.cq t.val q.val).posted + 1) % 2 ^ 32 ∧
      (∀ i < 32, cGet u.mem.host (a + i) =
        (r.bytes (1 - ((s.cq t.val q.val).posted / 2 ^ s.fld (cqPg t.val) (f_CQ_CFG_LOG2 q.val)) % 2)).getD i 0#8) ∧
      (∀ k, k < a ∨ a + 32 ≤ k → cGet u.mem.host k = cGet s.mem.host k)))

/-- R125, R130: an add of the 64-bit value to the selected counter saturates; one to a counter of no enabled range or a poisoned one is
discarded; reading a value gives its low word and latches its high word. -/
def Obligations.SyncCountersAddAndRead : Prop :=
  (∀ (hi : Word) (s : State), s.reaches 0 = true → s.synTakes (s.fld pgSYN f_SYN_SEL_COUNTER) = true →
    Runs (.synAdd hi) s (fun t =>
      t.counter (s.fld pgSYN f_SYN_SEL_COUNTER) =
        min (s.counter (s.fld pgSYN f_SYN_SEL_COUNTER) + smGet 0 s.ops.addLo 0 + 2 ^ 32 * hi.toNat) (2 ^ 64 - 1) ∧
      smGet 0 t.ops.addLo 0 = 0 ∧
      (∀ c, c ≠ s.fld pgSYN f_SYN_SEL_COUNTER → t.counter c = s.counter c))) ∧
  (∀ (hi : Word) (s : State), s.reaches 0 = true → s.synTakes (s.fld pgSYN f_SYN_SEL_COUNTER) = false →
    Runs (.synAdd hi) s (fun t => Raised pgSYN evWRITE_DISCARDED s t ∧ t.ops.counters = s.ops.counters)) ∧
  (∀ (u : Fin 33) (hi : Word) (g : Nat) (s : State), s.reaches u.val = true →
    s.relCounter u.val (s.fld (tenantPage u.val 5) f_SYN_T_SEL_COUNTER) = some g → s.synTakes g = true →
    Runs (.synTAdd u hi) s (fun t =>
      t.counter g = min (s.counter g + smGet 0 s.ops.addLo (u.val + 1) + 2 ^ 32 * hi.toNat) (2 ^ 64 - 1) ∧
      (∀ c, c ≠ g → t.counter c = s.counter c))) ∧
  (∀ (u : Fin 33) (hi : Word) (s : State), s.reaches u.val = true →
    s.relCounter u.val (s.fld (tenantPage u.val 5) f_SYN_T_SEL_COUNTER) = none →
    Runs (.synTAdd u hi) s (fun t => Raised (tenantPage u.val 5) evWRITE_DISCARDED s t ∧ t.ops.counters = s.ops.counters)) ∧
  (∀ (s : State), s.reaches 0 = true →
    Runs (.synValueRead none) s (fun t =>
      t.reply = s.counter (s.fld pgSYN f_SYN_SEL_COUNTER) % 2 ^ 32 ∧
      t.word pgSYN r_SYN_VALUE_HI = BitVec.ofNat 32 (s.counter (s.fld pgSYN f_SYN_SEL_COUNTER) / 2 ^ 32) ∧
      WordsBut [(pgSYN, r_SYN_VALUE_HI)] s t)) ∧
  (∀ (u : Fin 33) (g : Nat) (s : State), s.reaches u.val = true →
    s.relCounter u.val (s.fld (tenantPage u.val 5) f_SYN_T_SEL_COUNTER) = some g →
    Runs (.synValueRead (some u)) s (fun t =>
      t.reply = s.counter g % 2 ^ 32 ∧ t.word (tenantPage u.val 5) r_SYN_T_VALUE_HI = BitVec.ofNat 32 (s.counter g / 2 ^ 32)))

/-- R199, R201, R206 to R208: OPEN takes a slot within the tenant's limit; PLAN_LOAD makes a plan that passes its checks and its digest
resident; GENERATE begins on an IDLE sequence; PAUSE, CANCEL and a TIMEOUT mark a generation that has a step in flight; CLOSE frees a
sequence without work and ends the life of its handle. -/
def Obligations.RequestCommandsActOnSequences : Prop :=
  (∀ (i pick : Nat) (now : DWord) (r : Req) (s : State), smFind s.srv.reqs i = some r → r.cmd = 0x21 → s.running pgSMP = true → r.ring < 64 →
    s.writesOff r.tenant = false → (s.srv.seqs.filter (fun e => e.2.tenant == r.tenant)).length < s.fld pgSMP (f_SMP_SERVE_SEQS r.tenant) * 16 →
    s.planResident r.tenant r.plan = true → s.seq (pick % 65536) = none →
    Runs (.seqOpen i pick now) s (fun t =>
      t.seq (pick % 65536) = some (seqReset r.tenant r.plan r.domain (r.cflags % 2 == 1)) ∧ t.answered r scOK (s.handleOf (pick % 65536)) ∧
      smFind t.srv.reqs i = none)) ∧
  (∀ (i pick : Nat) (now : DWord) (r : Req) (s : State), smFind s.srv.reqs i = some r → r.cmd = 0x21 → s.running pgSMP = true → r.ring < 64 →
    s.writesOff r.tenant = false → s.fld pgSMP (f_SMP_SERVE_SEQS r.tenant) * 16 ≤ (s.srv.seqs.filter (fun e => e.2.tenant == r.tenant)).length →
    Runs (.seqOpen i pick now) s (fun t => t.srv.seqs = s.srv.seqs ∧ t.answered r scSEQLIMIT 0)) ∧
  (∀ (i n : Nat) (now : DWord) (r : Req) (a b : List Byte) (s : State), smFind s.srv.reqs i = some r → r.cmd = 0x20 → s.running pgSMP = true →
    s.running pgEAS = true → r.ring < 64 → s.writesOff r.tenant = false →
    s.readDva { bareWho r.tenant with opcode := r.cmd } r.arg 12 = .ok a false → leAt a 8 4 = n → n ≤ 8192 → n % 64 = 0 → 192 ≤ n →
    s.srv.seqs.any (fun e => e.2.tenant == r.tenant && e.2.plan == r.plan) = false →
    s.readDva { bareWho r.tenant with opcode := r.cmd } (leAt a 0 8) n = .ok b false →
    Runs (.planLoad i now) s (fun t =>
      match (s.taken i now.toNat).planFault r.tenant b n with
      | none => t.plan r.tenant r.plan = b ∧ t.answered r scOK 0
      | some o => t.srv.plans = s.srv.plans ∧ t.answered r scPLANINVALID o)) ∧
  (∀ (i slot : Nat) (now : DWord) (r : Req) (q : Seq) (a b : List Byte) (s : State), smFind s.srv.reqs i = some r → r.cmd = 0x22 →
    s.running pgSMP = true → s.running pgEAS = true → s.running pgGLZ = true → s.named r.tenant r.handle = some (slot, q) →
    q.hosted = false → q.state = sqIDLE → q.job = none → s.planResident r.tenant r.plan = true →
    s.readDva { bareWho r.tenant with opcode := r.cmd } r.arg 192 = .ok a false → genArgFault a = none → leAt a 8 4 ≠ 0 → leAt a 0xC 4 ≠ 0 →
    s.seqLen q + (s.pendingOf q).toList.length + leAt a 8 4 ≤ leAt (s.plan q.tenant q.plan) 0x20 4 →
    s.readDva { bareWho r.tenant with opcode := r.cmd } (leAt a 0 8) (4 * leAt a 8 4) = .ok b false →
    Runs (.seqGenerate i now) s (fun t =>
      (t.seq slot).map (fun x => (x.state, x.job.map (fun j => (j.req, j.maxNew)))) = some (sqGENERATING, some (r, leAt a 0xC 4)))) ∧
  (∀ (i slot : Nat) (now : DWord) (r : Req) (q : Seq) (s : State), smFind s.srv.reqs i = some r → r.cmd = 0x23 → s.running pgSMP = true →
    s.named r.tenant r.handle = some (slot, q) → q.state = sqIDLE → q.job = none → r.cflags % 2 = 0 → r.ring < 64 → s.writesOff r.tenant = false →
    Runs (.seqPause i now) s (fun t => t.srv.seqs = s.srv.seqs ∧ t.answered r scOK 0)) ∧
  (∀ (i slot : Nat) (now : DWord) (r : Req) (q : Seq) (j : GenJob) (s : State), smFind s.srv.reqs i = some r → r.cmd = 0x23 →
    s.running pgSMP = true → s.named r.tenant r.handle = some (slot, q) → q.state = sqGENERATING → q.job = some j → j.flying = true →
    exec (.seqPause i now) s = .next ((s.taken i now.toNat).setSeq slot
      { q with state := sqPAUSING, pause := some r, parkTtl := if r.cflags % 2 = 1 then some r.ttl else none })) ∧
  (∀ (i slot : Nat) (now : DWord) (r : Req) (q : Seq) (j : GenJob) (s : State), smFind s.srv.reqs i = some r → r.cmd = 0x24 →
    s.running pgSMP = true → s.named r.tenant r.handle = some (slot, q) → q.state ≠ sqFAILED → q.hosted = false → q.job = some j →
    j.flying = true → r.ring < 64 → s.writesOff r.tenant = false →
    Runs (.seqCancel i now) s (fun t => (t.seq slot).map (fun x => x.mark) = some true ∧ t.answered r scOK 0)) ∧
  (∀ (i slot : Nat) (now : DWord) (r : Req) (q : Seq) (s : State), smFind s.srv.reqs i = some r → r.cmd = 0x24 →
    s.running pgSMP = true → s.named r.tenant r.handle = some (slot, q) → q.state ≠ sqFAILED → q.hosted = false → q.job = none →
    q.lastGen = none → r.ring < 64 → s.writesOff r.tenant = false →
    Runs (.seqCancel i now) s (fun t => t.srv.seqs = s.srv.seqs ∧ t.answered r scOK 2)) ∧
  (∀ (i slot : Nat) (now : DWord) (r : Req) (q : Seq) (s : State), smFind s.srv.reqs i = some r → r.cmd = 0x25 →
    s.running pgSMP = true → s.named r.tenant r.handle = some (slot, q) → q.state ≠ sqCLOSING → s.seqWork slot q = false → q.pause = none →
    r.ring < 64 → s.writesOff r.tenant = false →
    Runs (.seqClose i now) s (fun t => t.seq slot = none ∧ t.seqGen slot = (s.seqGen slot + 1) % 256 ∧ t.answered r scOK 0)) ∧
  (∀ (slot : Fin 65536) (now : DWord) (q : Seq) (j : GenJob) (s : State), s.seq slot.val = some q → q.job = some j → q.hosted = false →
    j.req.timeout ≠ 0 → j.req.timeout ≠ 0xFFFFFFFF → j.timedOut = false → q.mark = false → j.flying = true →
    Runs (.generateTimeout slot now) s (fun t =>
      (t.seq slot.val).map (fun x => (x.mark, x.job.map (fun g => g.timedOut))) = some (true, some true))) ∧
  (∀ (slot : Fin 65536) (now : DWord) (q : Seq) (j : GenJob) (s : State), s.seq slot.val = some q → q.job = some j → q.hosted = false →
    j.req.timeout ≠ 0 → j.req.timeout ≠ 0xFFFFFFFF → j.timedOut = false → q.mark = false → j.flying = false → q.state = sqGENERATING →
    j.req.ring < 64 → s.writesOff j.req.tenant = false →
    Runs (.generateTimeout slot now) s (fun t =>
      (t.seq slot.val).map (fun x => x.job.isNone) = some true ∧ t.answered j.req scTIMEOUT 0))

/-- R202 to R205, R218, R220, R222, R226: a batch step is formed, recorded and counted; one that failed in a way that is retried is issued
again; its SAMPLE hands its sampled rows to the Sampler; SAMPLE does the same for the rows of its table; a decision is made for one row at
a time; a token commits at the sequence's next position and in its ring, unless a mark drops it; HEAD releases the entries up to it. -/
def Obligations.BatchStepsAndTokensCommit : Prop :=
  (∀ (t : Fin 33) (plan : Fin 4) (only : List Nat) (now : DWord) (b : List Byte) (k : Nat) (f : Forming) (s : State),
    s.running pgEAS = true → s.running pgSMP = true → s.running pgGLZ = true → s.tenantRunning t.val = true →
    s.plan t.val plan.val = b → b ≠ [] → smGet 0 s.srv.stepNo (t.val * 4 + plan.val) = k →
    s.formStep t.val b (s.eligible t.val plan.val only) = f → f.rows ≠ [] → f.stall = false → s.tagsFit t.val (planTemplates b) = true →
    k < leAt b 0x30 4 ∨ s.stepAt (stepKey t.val plan.val (k - leAt b 0x30 4)) = none →
    s.writeFault (bareWho t.val) 0 (cuts (leAt b 0x28 8 + k % leAt b 0x30 4 * leAt b 0x34 4) (batchBytes k f.rows).length) = none →
    Runs (.batchStep t plan only now) s (fun u =>
      (u.stepAt (stepKey t.val plan.val k)).map (fun x => (x.k, x.rows, x.tries, x.fail)) = some (k, f.rows, 0, none) ∧
      smGet 0 u.srv.stepNo (t.val * 4 + plan.val) = k + 1)) ∧
  (∀ (t : Fin 33) (plan : Fin 4) (k : Nat) (now : DWord) (x : Step) (st opc : Nat) (s : State),
    s.stepAt (stepKey t.val plan.val k) = some x → s.stepOps (stepKey t.val plan.val k) = false → x.fail = some (st, opc) →
    retryable st = true → x.tries < 2 → s.tagsFit t.val (planTemplates (s.plan t.val plan.val)) = true → s.running pgEAS = true →
    Runs (.stepReissue t plan k now) s (fun u =>
      u.stepAt (stepKey t.val plan.val k) = some { x with fail := none, tries := x.tries + 1 })) ∧
  (∀ (t : Fin 33) (plan : Fin 4) (k : Nat) (now : DWord) (x : Step) (s : State), s.stepAt (stepKey t.val plan.val k) = some x →
    x.sampled = false → s.running pgEAS = true → s.running pgSMP = true →
    s.waitMet t.val (leAt (s.plan t.val plan.val) 0x50 4) ((k + 1) * leAt (s.plan t.val plan.val) 0x54 4) = true →
    x.rows.any (fun r => r.sample) = true →
    (∀ r ∈ x.rows, r.sample = true →
      (s.seq r.slot).any (fun q => q.job.any (fun j => j.step == some (stepKey t.val plan.val k))) = true) →
    Runs (.easelSampleIssue t plan k now) s (fun u =>
      (u.jobOf (stepJob (stepKey t.val plan.val k))).map (fun j => (j.vocab, j.next, j.rows.map (fun r => r.slot))) =
        some (leAt (s.plan t.val plan.val) 0xC 4, 0, (x.rows.filter (fun r => r.sample)).map (fun r => r.slot)) ∧
      (u.stepAt (stepKey t.val plan.val k)).map (fun y => y.sampled) = some true)) ∧
  (∀ (tag : Fin 8192) (now : DWord) (b : State) (o : Op) (a tb : List Byte) (n r : Nat) (s : State),
    s.begins tag.val 7 now.toNat = some (b, o) → b.running pgSMP = true → b.readDva (o.who tag.val) o.d.arg 64 = .ok a false →
    sampleArgFault a = none → leAt a 0x10 4 = n → leAt a 0x1C 4 = r → b.ringValid o.tenant r = true →
    b.readDva (o.who tag.val) (leAt a 0x20 8) (16 * n) = .ok tb false →
    b.sampleRowFault o.tenant ((List.range n).map (fun i => leAt tb (16 * i) 3)) = none →
    (∀ i < n, ∃ x, b.readDva (o.who tag.val) (leAt tb (16 * i + 8) 8) 128 = .ok x false ∧ samplingFault x = none) →
    n ≤ b.slotsFree o.tenant r →
    Runs (.sample tag now) s (fun t =>
      (t.jobOf tag.val).map (fun j => (j.tenant, j.vocab, j.next, j.rows.map (fun x => x.handle))) =
        some (o.tenant, leAt a 0x14 4, 0, (List.range n).map (fun i => leAt tb (16 * i) 3)) ∧
      t.slotsHeld o.tenant r = s.slotsHeld o.tenant r + n)) ∧
  (∀ (job : Nat) (now : DWord) (j : SampJob) (r : SRow) (s : State), s.jobOf job = some j → j.rows[j.next]? = some r → j.pick = none →
    s.working pgSMP = true →
    Runs (.samplerDecision job now) s (fun t =>
      t.jobOf job = some { j with pick := some ((s.at now.toNat).decideRow j r) } ∧
      t.wideOf pgSMP r_SMP_DECISIONS_LO = (s.wideOf pgSMP r_SMP_DECISIONS_LO + 1) % 2 ^ 64)) ∧
  (∀ (job : Nat) (now : DWord) (j : SampJob) (r : SRow) (id lp : Nat) (q : Seq) (s : State), s.jobOf job = some j →
    j.rows[j.next]? = some r → j.pick = some (.tok id lp) → s.seq r.slot = some q → q.mark = false → q.state = sqIDLE → q.job = none →
    j.step = none →
    Runs (.tokenCommit job now) s (fun t =>
      (t.seq r.slot).map (fun x => x.last) = some (some (id, s.nextPos q)) ∧
      t.fld (smpPg j.tenant) (f_SMP_T_RING_PTR_TAIL r.ring) =
        (s.fld (smpPg j.tenant) (f_SMP_T_RING_PTR_TAIL r.ring) + 1) % s.ringSize j.tenant r.ring % 65536)) ∧
  (∀ (job : Nat) (now : DWord) (j : SampJob) (r : SRow) (p : Pick) (q : Seq) (s : State), s.jobOf job = some j → j.fail = none →
    j.rows[j.next]? = some r → j.pick = some p → s.seq r.slot = some q → q.mark = true → q.state = sqIDLE → q.job = none → j.step = none →
    Runs (.tokenCommit job now) s (fun t =>
      (t.seq r.slot).map (fun x => (x.last, x.lens)) = some (q.last, q.lens) ∧
      t.fld (smpPg j.tenant) (f_SMP_T_RING_PTR_TAIL r.ring) = s.fld (smpPg j.tenant) (f_SMP_T_RING_PTR_TAIL r.ring) ∧
      (t.word pgSMP r_SMP_ROWS_DROPPED).toNat = min ((s.word pgSMP r_SMP_ROWS_DROPPED).toNat + 1) 0xFFFFFFFF)) ∧
  (∀ (t : Fin 33) (r : Fin 16) (v : Word) (n : Nat) (s : State), s.reaches t.val = true → v.toNat % 65536 < s.ringSize t.val r.val →
    (v.toNat % 65536 + s.ringSize t.val r.val - s.fld (smpPg t.val) (f_SMP_T_RING_PTR_HEAD r.val) % s.ringSize t.val r.val) %
      s.ringSize t.val r.val = n → n ≤ s.slotsUsed t.val r.val →
    Runs (.tokenRingHead t r v) s (fun u =>
      u.fld (smpPg t.val) (f_SMP_T_RING_PTR_HEAD r.val) = v.toNat % 65536 ∧ u.slotsUsed t.val r.val + n = s.slotsUsed t.val r.val)) ∧
  (∀ (t : Fin 33) (r : Fin 16) (v : Word) (s : State), s.reaches t.val = true → s.ringSize t.val r.val ≤ v.toNat % 65536 →
    Runs (.tokenRingHead t r v) s (fun u =>
      Raised (smpPg t.val) evWRITE_DISCARDED s u ∧ WordsBut [(smpPg t.val, hRAW), (smpPg t.val, hSETCOUNT)] s u)) ∧
  (∀ (s : State), s.reaches 0 = true →
    Runs .smpDecisionsRead s (fun u =>
      u.reply = s.wideOf pgSMP r_SMP_DECISIONS_LO % 2 ^ 32 ∧
      u.word pgSMP (r_SMP_DECISIONS_LO + 1) = BitVec.ofNat 32 (s.wideOf pgSMP r_SMP_DECISIONS_LO / 2 ^ 32) ∧
      WordsBut [(pgSMP, r_SMP_DECISIONS_LO + 1)] s u))

/-- R215, R225: a key installed for a shared domain, given or drawn, advances its EPOCH and drops its entries; VALID 1 to 0 drops them too. -/
def Obligations.SharedDomainKeysAndValidity : Prop :=
  (∀ (v : Word) (d : Nat) (s : State), s.reaches 0 = true → s.selDom = some d →
    Runs (.domainKeyInstall v) s (fun t =>
      (t.sdom d).key = (s.word pgSMP (r_SMP_DOM_KEY 0)).toNat + 2 ^ 32 * (s.word pgSMP (r_SMP_DOM_KEY 1)).toNat +
        2 ^ 64 * (s.word pgSMP (r_SMP_DOM_KEY 2)).toNat + 2 ^ 96 * v.toNat ∧
      (t.sdom d).epoch = ((s.sdom d).epoch + 1) % 256 ∧ (t.sdom d).valid = (s.sdom d).valid ∧
      t.srv.prefixes.all (fun e => e.2.domain != d) = true ∧ Raised pgSMP ev_smp_DOMAIN_KEY s t)) ∧
  (∀ (v : Word) (s : State), s.reaches 0 = true → s.selDom = none →
    Runs (.domainKeyInstall v) s (fun t => t.srv = s.srv ∧ Raised pgSMP evWRITE_DISCARDED s t)) ∧
  (∀ (v : Word) (d : Nat) (s : State), s.reaches 0 = true → s.selDom = some d → fldGet v f_SMP_DOM_CTRL_GEN_KEY = 1 → s.sec.trngFail = false →
    Runs (.genKey v) s (fun t =>
      (t.sdom d).key < 2 ^ 128 ∧ (t.sdom d).epoch = ((s.sdom d).epoch + 1) % 256 ∧
      (t.sdom d).valid = (fldGet v f_SMP_DOM_CTRL_VALID == 1) ∧ t.srv.prefixes.all (fun e => e.2.domain != d) = true ∧ t.free = s.free + 1)) ∧
  (∀ (v : Word) (d : Nat) (s : State), s.reaches 0 = true → s.selDom = some d → fldGet v f_SMP_DOM_CTRL_GEN_KEY = 0 →
    Runs (.sharedDomainValid v) s (fun t =>
      (t.sdom d).valid = (fldGet v f_SMP_DOM_CTRL_VALID == 1) ∧ (t.sdom d).key = (s.sdom d).key ∧ (t.sdom d).epoch = (s.sdom d).epoch ∧
      ((s.sdom d).valid = true → fldGet v f_SMP_DOM_CTRL_VALID = 0 → t.srv.prefixes.all (fun e => e.2.domain != d) = true)))

/-- R216, R233 to R237, R240, R244, R245: GLAZE_APPEND and ATTEND take up the rows that pass their checks; a layer whose wait is met appends
each row's position; a panel runs an ATTEND's layer, and the last layer's last panel ends it; GLAZE_MOVE takes every destination set and holds the sequence, or
ends PAGES with nothing changed; at the move's end its blocks are in the other tier and the sequence is PARKED with its time to live, or IDLE; PREFIX_LOOKUP ends with the count of matched blocks; a parked sequence expires without its pages. -/
def Obligations.GlazeOperationsRunTheirLayers : Prop :=
  (∀ (tag : Fin 8192) (now : DWord) (b : State) (o : Op) (a : List Byte) (rows : List (Nat × Nat)) (s : State),
    s.begins tag.val 5 now.toNat = some (b, o) → b.running pgGLZ = true → b.readDva (o.who tag.val) o.d.arg 128 = .ok a false →
    b.glzArgFault o a 0xFFFFFEF8 = none → rsvByte a [(0x48, 56)] = none → b.glzRows tag.val o a = .ok rows →
    b.rowFault o (leAt a 0x30 4 % 8) rows = none →
    Runs (.glazeAppend tag now) s (fun t =>
      smFind t.srv.apps tag.val = some (rows.map (fun r => ⟨r.1 % 65536, r.2 % 0x100000⟩)) ∧
      (t.op tag.val).map (fun q => (q.phase, q.parts, q.aux)) = some (.issued, 1, [0]))) ∧
  (∀ (tag : Fin 8192) (now : DWord) (o : Op) (rows : List GRow) (s1 : State) (s : State), s.op tag.val = some o → o.phase = .issued →
    smFind s.srv.apps tag.val = some rows → o.abandoned = false → s.writesOff o.tenant = false → s.waitPoisoned o.tenant o.d.wait0 = false →
    s.working pgGLZ = true → s.layerReady o (o.aux.getD 0 0) = true →
    (s.at now.toNat).appendRows tag.val o (o.aux.getD 0 0) ((List.range rows.length).zip rows) = (s1, none) →
    Runs (.appendLayer tag now) s (fun t =>
      (∀ r ∈ rows, (t.seq r.slot).any (fun q => decide (r.pos < smGet 0 q.lens (leAt o.args 0x34 4 % 256 + o.aux.getD 0 0))) = true) ∧
      (o.aux.getD 0 0 + 1 = leAt o.args 0x34 4 / 256 % 512 → t.endedAs tag.val scOK ∧ smFind t.srv.apps tag.val = none) ∧
      (o.aux.getD 0 0 + 1 ≠ leAt o.args 0x34 4 / 256 % 512 → (t.op tag.val).map (fun q => q.aux) = some [o.aux.getD 0 0 + 1]))) ∧
  (∀ (tag : Fin 8192) (now : DWord) (b : State) (o : Op) (a : List Byte) (rows : List (Nat × Nat)) (ds : List PDesc) (s : State),
    s.begins tag.val 4 now.toNat = some (b, o) → b.running pgGLZ = true → b.readDva (o.who tag.val) o.d.arg 128 = .ok a false →
    b.glzArgFault o a 0xFFFFEDF8 = none → b.attArgFault a = none → b.glzRows tag.val o a = .ok rows →
    b.rowFault o (leAt a 0x30 4 % 8) rows = none → rows.all (fun r => decide (r.2 < 1048576)) = true →
    (List.range rows.length).flatMap (fun i => match b.seq ((rows.getD i (0, 0)).1 % 65536) with
      | some q => b.rowDescs (leAt a 0x30 4 % 8) q i (rows.getD i (0, 0)).2 (leAt a 0x54 4)
      | none => []) = ds →
    (∀ k < o.group.length, 32 * (ds.filter (fun d => holdsRow o.group.length (b.geoHeads (leAt a 0x30 4 % 8)) k d.row)).length + 524288 ≤
      leAt a 0x58 4 / 2048 * 4096) →
    Runs (.attend tag now) s (fun t =>
      t.att tag.val = some ⟨rows.map (fun r => ⟨r.1 % 65536, r.2⟩), ds, 0, [], [], none⟩ ∧
      o.group.all (fun p => (t.panel p).work.any (fun w => w.tag == tag.val && w.kind == 1 && w.step == 0)) = true)) ∧
  (∀ (p : Fin 128) (now : DWord) (w : Work) (o o1 : Op) (x x1 : Att) (s1 : State) (s : State), s.headWork p.val = some w →
    s.op w.tag = some o → s.att w.tag = some x → w.kind = 1 → s.panelReady p.val = true → o.status = 0 → o.abandoned = false →
    s.writesOff o.tenant = false → x.layer = w.step → s.working pgGLZ = true →
    w.step ≠ 0 ∨ o.group.all (fun q => s.panelMode q != 0 || s.resident q == o.tenant) = true →
    s.waitPoisoned o.tenant o.d.wait0 = false → s.layerReady o w.step = true →
    (∀ r < x.rows.length, (s.seq (x.rows.getD r ⟨0, 0⟩).slot).any
      (fun q => decide ((x.rows.getD r ⟨0, 0⟩).pos < smGet 0 q.lens (leAt o.args 0x34 4 % 256 + w.step))) = true) →
    (if w.step = 0 then (s.at now.toNat).scratchFill p.val w.g o x else s.at now.toNat).attItems w.tag o w.step
      ((List.range x.rows.length).flatMap (fun r => ((List.range (s.geoHeads (leAt o.args 0x30 4 % 8))).filter
        (fun h => (r * s.geoHeads (leAt o.args 0x30 4 % 8) + h) % o.group.length == w.g)).map (fun h => (r, h)))) = (s1, none) →
    s1.att w.tag = some x1 → s1.op w.tag = some o1 →
    Runs (.attendLayerStep p now) s (fun t =>
      (t.word (pnlPage p.val) r_PNL_STEPS).toNat = min ((s.word (pnlPage p.val) r_PNL_STEPS).toNat + 1) 0xFFFFFFFF ∧
      (x1.doneOn.length + 1 < o.group.length → t.att w.tag = some { x1 with doneOn := x1.doneOn ++ [w.g] }) ∧
      (x1.doneOn.length + 1 = o.group.length → w.step + 1 < w.steps → (t.att w.tag).map (fun y => (y.layer, y.doneOn)) = some (w.step + 1, [])) ∧
      (x1.doneOn.length + 1 = o.group.length → w.step + 1 = w.steps → x1.poisonRow = none → o1.phase = .issued → t.endedAs w.tag scOK))) ∧
  (∀ (tag : Fin 8192) (slot : Fin 65536) (now : DWord) (b : State) (o : Op) (a : List Byte) (n : Nat) (q : Seq) (s : State),
    s.moveOf (some tag.val) slot.val = none → s.begins tag.val 6 now.toNat = some (b, o) → b.running pgGLZ = true →
    b.readDva (o.who tag.val) o.d.arg 64 = .ok a false → moveArgFault a = none → b.named o.tenant (leAt a 0 3) = some (n, q) → q.hosted = true →
    q.state = (if leAt a 4 4 = 0 then sqIDLE else sqPARKED) → b.seqBusyOps n = false → q.row = none →
    Runs (.glazeMove (some tag) slot now) s (fun t =>
      (q.toMove (leAt a 4 4 == 0) = [] ∨ b.setsFit q.tenant (q.geo.getD 0) (q.toMove (leAt a 4 4 == 0)).length (leAt a 4 4 == 0) = true →
        (smFind t.srv.moves n).map (fun m => (m.toLoft, m.tag, m.ttl)) = some (leAt a 4 4 == 0, some tag.val, leAt a 8 4) ∧
        (t.seq n).map (fun x => (x.state, x.expiry)) = some (if leAt a 4 4 = 0 then sqPARKING else sqPARKED, none) ∧
        (t.op tag.val).map (fun x => x.phase) = some .issued) ∧
      (q.toMove (leAt a 4 4 == 0) ≠ [] → b.setsFit q.tenant (q.geo.getD 0) (q.toMove (leAt a 4 4 == 0)).length (leAt a 4 4 == 0) = false →
        t.endedAs tag.val scPAGES ∧ t.srv.seqs = s.srv.seqs))) ∧
  (∀ (slot : Fin 65536) (now : DWord) (q : Seq) (p : Req) (ttl : Nat) (s : State), s.moveOf none slot.val = none → s.running pgGLZ = true →
    s.running pgEAS = true → s.seq slot.val = some q → q.state = sqPARKING → q.parkTtl = some ttl → q.pause = some p → s.seqWork slot.val q = false →
    p.ring < 64 → s.writesOff p.tenant = false →
    Runs (.glazeMove none slot now) s (fun t =>
      (q.toMove true = [] ∨ s.setsFit q.tenant (q.geo.getD 0) (q.toMove true).length true = true →
        (smFind t.srv.moves slot.val).map (fun m => (m.toLoft, m.tag, m.ttl)) = some (true, none, ttl) ∧
        (t.seq slot.val).map (fun x => x.state) = some sqPARKING) ∧
      (q.toMove true ≠ [] → s.setsFit q.tenant (q.geo.getD 0) (q.toMove true).length true = false →
        t.answered p scPAGES (s.handleOf slot.val) ∧ (t.seq slot.val).map (fun x => x.state) = some sqIDLE))) ∧
  (∀ (slot : Fin 65536) (now : DWord) (q : Seq) (j : GenJob) (s : State), s.moveOf none slot.val = none → s.running pgGLZ = true →
    s.running pgEAS = true → s.seq slot.val = some q → q.state = sqPARKED → q.job = some j → q.pause = none → j.req.ring < 64 →
    s.writesOff j.req.tenant = false →
    Runs (.glazeMove none slot now) s (fun t =>
      (q.toMove false = [] ∨ s.setsFit q.tenant (q.geo.getD 0) (q.toMove false).length false = true →
        (smFind t.srv.moves slot.val).map (fun m => (m.toLoft, m.tag)) = some (false, none) ∧
        (t.seq slot.val).map (fun x => (x.state, x.expiry, x.job)) = some (sqPARKED, none, some j)) ∧
      (q.toMove false ≠ [] → s.setsFit q.tenant (q.geo.getD 0) (q.toMove false).length false = false →
        t.answered j.req scPAGES (s.handleOf slot.val) ∧
        (t.seq slot.val).map (fun x => (x.state, x.expiry, x.job.isNone)) = some (sqPARKED, q.expiry, true)))) ∧
  (∀ (tag : Option (Fin 8192)) (slot : Fin 65536) (now : DWord) (n : Nat) (m : SeqMove) (q : Seq) (s : State), s.working pgGLZ = true →
    s.moveOf (tag.map (fun t => t.val)) slot.val = some (n, m) → s.seq n = some q → q.state ≠ sqCLOSING → q.state ≠ sqFAILED →
    Runs (.glazeMove tag slot now) s (fun t =>
      smFind t.srv.moves n = none ∧
      (m.toLoft = true →
        (t.seq n).map (fun x => (x.state, x.expiry, x.pause)) =
          some (sqPARKED, some (wholeSecond (max s.time now.toNat + m.ttl * 1000000000)), none) ∧
        (∀ p, q.pause = some p → p.ring < 64 → s.writesOff p.tenant = false → t.answered p scOK 0)) ∧
      (m.toLoft = false → q.job = none → (t.seq n).map (fun x => (x.state, x.expiry)) = some (sqIDLE, none)) ∧
      (m.toLoft = true ∨ q.job = none → (m.dests.map (fun d => d.1)).Nodup → q.geo.isSome = true →
        ∀ d ∈ m.dests, ∀ e, smFind q.blocks d.1 = some e →
          ((t.seq n).bind (fun x => smFind x.blocks d.1)).map (fun x => (x.set, x.loft)) = some (d.2 % 0x1000000, m.toLoft)) ∧
      (∀ g o, m.tag = some g → s.op g = some o → o.phase = .issued → t.endedAs g scOK))) ∧
  (∀ (tag : Fin 8192) (now : DWord) (b : State) (o : Op) (a tb : List Byte) (n : Nat) (q : Seq) (s : State),
    s.begins tag.val 0x10 now.toNat = some (b, o) → b.running pgGLZ = true → b.readDva (o.who tag.val) o.d.arg 64 = .ok a false →
    lookupArgFault a = none → b.named o.tenant (leAt a 0xC 3) = some (n, q) → q.hosted = true → q.state = sqIDLE → q.row = none →
    b.seqLen q % 32 = 0 → b.pendingOf q = none → b.readDva (o.who tag.val) (leAt a 0 8) (128 * leAt a 8 4) = .ok tb false →
    leAt a 0x18 8 = 0 →
    Runs (.prefixLookup tag now) s (fun t =>
      t.endedAs tag.val scOK ∧ (t.op tag.val).map (fun x => x.detail) = some (((b.prefixLookup n
        ((List.range (32 * leAt a 8 4)).map (fun i => leAt tb (4 * i) 4)) (leAt a 0x10 4 == 1)).2.filter (fun x => x.set.isSome)).length))) ∧
  (∀ (slot : Fin 65536) (now : DWord) (q : Seq) (e : Nat) (s : State), s.seq slot.val = some q → q.state = sqPARKED → q.expiry = some e →
    e ≤ max s.time now.toNat → q.job = none →
    Runs (.seqExpired slot now) s (fun t =>
      (t.seq slot.val).map (fun x => (x.state, x.blocks.length, x.expiry)) = some (sqEXPIRED, 0, none) ∧
      (t.word pgGLZ r_GLZ_EXPIRIES).toNat = min ((s.word pgGLZ r_GLZ_EXPIRIES).toNat + 1) 0xFFFFFFFF ∧
      bitOf (t.word (tenantPage q.tenant 6) hRAW) ev_glzT_SEQ_EXPIRED = true ∧
      bitOf (t.word (tenantPage q.tenant 7) hRAW) ev_smpT_SEQ_EXPIRED = true))

/-- R251, R256, R257, R262, R269, R270: VDEC_OPEN and VENC_OPEN claim a context for a parameter block that breaks no rule; DECODE, ENCODE
and FLUSH join the context's queue in order; RECONFIGURE replaces an encode context's parameter block; CLOSE frees a context that no frame
occupies and ends the life of its handle. -/
def Obligations.CodecCommandsActOnContexts : Prop :=
  (∀ (tag : Fin 8192) (e : Fin 2) (pick : Fin 256) (now : DWord) (u : State) (o : Op) (b p : List Byte) (s : State),
    s.vBegins tag.val 8 0 now.toNat e.val = some (u, o, b) → vArgFault true 0 b = none →
    u.readDva (o.who tag.val) (leAt b 8 8) 256 = .ok p false → u.vdecParamFault e.val o.tenant p = none →
    (vpDest p && u.pdBound e.val (vpSlot p)) = false → u.vctx e.val pick.val = none →
    (u.vctxsOf e.val o.tenant).length < u.fld (pgVCE e.val) (f_VCE_QUOTA_CONTEXTS o.tenant) →
    Runs (.vdecOpen tag e pick now) s (fun t =>
      (t.vctx e.val pick.val).map (fun x => (x.tenant, x.enc, x.params, x.state)) = some (o.tenant, false, p, vcOPEN) ∧
      (t.op tag.val).map (fun q => (q.phase, q.status, q.detail)) = some (.ended, scOK, pick.val + 256 * u.vgen e.val pick.val) ∧
      (vpDest p = true → t.pdBound e.val (vpSlot p) = true))) ∧
  (∀ (tag : Fin 8192) (e : Fin 2) (pick : Fin 256) (now : DWord) (u : State) (o : Op) (b p : List Byte) (d : Nat) (s : State),
    s.vBegins tag.val 8 0 now.toNat e.val = some (u, o, b) → vArgFault true 0 b = none →
    u.readDva (o.who tag.val) (leAt b 8 8) 256 = .ok p false → u.vdecParamFault e.val o.tenant p = some d →
    Runs (.vdecOpen tag e pick now) s (fun t =>
      t.vce = s.vce ∧ (t.op tag.val).map (fun q => (q.phase, q.status, q.detail)) = some (.ended, scPARAM, d))) ∧
  (∀ (tag : Fin 8192) (e : Fin 2) (pick : Fin 256) (now : DWord) (u : State) (o : Op) (b p : List Byte) (s : State),
    s.vBegins tag.val 9 0 now.toNat e.val = some (u, o, b) → vArgFault false 0 b = none →
    u.readDva (o.who tag.val) (leAt b 8 8) 256 = .ok p false → u.vctx e.val pick.val = none →
    (u.vctxsOf e.val o.tenant).length < u.fld (pgVCE e.val) (f_VCE_QUOTA_CONTEXTS o.tenant) →
    Runs (.vencOpen tag e pick now) s (fun t =>
      match u.vencParamFault o.tenant p with
      | none => (t.vctx e.val pick.val).map (fun x => (x.tenant, x.enc, x.params, x.state)) = some (o.tenant, true, p, vcOPEN) ∧
          (t.op tag.val).map (fun q => (q.phase, q.status, q.detail)) = some (.ended, scOK, pick.val + 256 * u.vgen e.val pick.val)
      | some d => t.vce = s.vce ∧ (t.op tag.val).map (fun q => (q.phase, q.status, q.detail)) = some (.ended, scPARAM, d))) ∧
  (∀ (tag : Fin 8192) (e : Fin 2) (now : DWord) (u : State) (o : Op) (b : List Byte) (x : VCtx) (s : State),
    s.vBegins tag.val 8 1 now.toNat e.val = some (u, o, b) → vArgFault true 1 b = none →
    u.handled e.val o.tenant (leAt b 4 2) = some x → x.enc = false → vpIngest x.params = false → x.state ≠ vcFAILED →
    Runs (.vdecDecode tag e now) s (fun t =>
      (t.vctx e.val (leAt b 4 2 % 256)).map (fun y => y.units) =
        some (x.units ++ [⟨some tag.val, false, b, x.params, leAt b 0x20 8, 0, s.vce.orders⟩]) ∧
      (t.op tag.val).map (fun q => q.phase) = some .issued)) ∧
  (∀ (tag : Fin 8192) (e : Fin 2) (now : DWord) (u : State) (o : Op) (b : List Byte) (x : VCtx) (s : State),
    s.vBegins tag.val 8 2 now.toNat e.val = some (u, o, b) → vArgFault true 2 b = none →
    u.handled e.val o.tenant (leAt b 4 2) = some x → x.enc = false → x.state ≠ vcFAILED →
    Runs (.vdecFlush tag e now) s (fun t =>
      (t.vctx e.val (leAt b 4 2 % 256)).map (fun y => y.units) =
        some (x.units ++ [⟨some tag.val, true, b, x.params, leAt b 0x20 8, 0, s.vce.orders⟩]) ∧
      (x.state = vcOPEN → (t.vctx e.val (leAt b 4 2 % 256)).map (fun y => y.state) = some vcFLUSHING))) ∧
  (∀ (tag : Fin 8192) (e : Fin 2) (now : DWord) (u : State) (o : Op) (b : List Byte) (x : VCtx) (s : State),
    s.vBegins tag.val 8 3 now.toNat e.val = some (u, o, b) → vArgFault true 3 b = none →
    u.handled e.val o.tenant (leAt b 4 2) = some x → x.enc = false →
    Runs (.vdecClose tag e now) s (fun t =>
      if u.vBusy e.val (leAt b 4 2 % 256) = true then
        (t.vctx e.val (leAt b 4 2 % 256)).map (fun y => (y.state, y.units, y.closeTag)) = some (vcCLOSING, [], some tag.val)
      else t.vctx e.val (leAt b 4 2 % 256) = none ∧ t.vgen e.val (leAt b 4 2 % 256) = (u.vgen e.val (leAt b 4 2 % 256) + 1) % 256 ∧
        (x.units = [] → t.endedAs tag.val scOK))) ∧
  (∀ (tag : Fin 8192) (e : Fin 2) (now : DWord) (u : State) (o : Op) (b : List Byte) (x : VCtx) (s : State),
    s.vBegins tag.val 9 1 now.toNat e.val = some (u, o, b) → vArgFault false 1 b = none →
    u.handled e.val o.tenant (leAt b 4 2) = some x → x.enc = true → x.state ≠ vcFAILED →
    x.units.head?.any (fun v => v.flush) = false →
    Runs (.vencEncode tag e now) s (fun t =>
      (t.vctx e.val (leAt b 4 2 % 256)).map (fun y => y.units) =
        some (x.units ++ [⟨some tag.val, false, b, x.params, leAt b 0x20 8, 0, s.vce.orders⟩]) ∧
      (t.op tag.val).map (fun q => q.phase) = some .issued)) ∧
  (∀ (tag : Fin 8192) (e : Fin 2) (now : DWord) (u : State) (o : Op) (b : List Byte) (x : VCtx) (s : State),
    s.vBegins tag.val 9 3 now.toNat e.val = some (u, o, b) → vArgFault false 3 b = none →
    u.handled e.val o.tenant (leAt b 4 2) = some x → x.enc = true → x.state ≠ vcFAILED →
    Runs (.vencFlush tag e now) s (fun t =>
      (x.units = [] → u.vBusy e.val (leAt b 4 2 % 256) = false →
        t.endedAs tag.val scOK ∧ (t.vctx e.val (leAt b 4 2 % 256)).map (fun y => y.units) = some []) ∧
      (x.units.head?.any (fun v => !v.flush) = true → (t.op tag.val).map (fun q => q.phase) = some .issued ∧
        (t.vctx e.val (leAt b 4 2 % 256)).map (fun y => y.units) =
          some (x.units ++ [⟨some tag.val, true, b, x.params, leAt b 0x20 8, 0, s.vce.orders⟩])))) ∧
  (∀ (tag : Fin 8192) (e : Fin 2) (now : DWord) (u : State) (o : Op) (b p : List Byte) (x : VCtx) (s : State),
    s.vBegins tag.val 9 2 now.toNat e.val = some (u, o, b) → vArgFault false 2 b = none →
    u.handled e.val o.tenant (leAt b 4 2) = some x → x.enc = true → x.state ≠ vcFAILED →
    u.readDva (o.who tag.val) (leAt b 8 8) 256 = .ok p false →
    (∀ i < 256, p.getD i 0#8 ≠ x.params.getD i 0#8 → 0x18 ≤ i ∧ i < 0x30) →
    Runs (.vencReconfigure tag e now) s (fun t =>
      match u.vencParamFault o.tenant p with
      | none => t.vctx e.val (leAt b 4 2 % 256) = some { x with params := p } ∧ t.endedAs tag.val scOK
      | some d => t.vce = s.vce ∧ (t.op tag.val).map (fun q => (q.phase, q.status, q.detail)) = some (.ended, scPARAM, d))) ∧
  (∀ (tag : Fin 8192) (e : Fin 2) (now : DWord) (u : State) (o : Op) (b : List Byte) (x : VCtx) (s : State),
    s.vBegins tag.val 9 4 now.toNat e.val = some (u, o, b) → vArgFault false 4 b = none →
    u.handled e.val o.tenant (leAt b 4 2) = some x → x.enc = true →
    Runs (.vencClose tag e now) s (fun t =>
      if u.vBusy e.val (leAt b 4 2 % 256) = true then
        (t.vctx e.val (leAt b 4 2 % 256)).map (fun y => (y.state, y.units, y.closeTag)) = some (vcCLOSING, [], some tag.val)
      else t.vctx e.val (leAt b 4 2 % 256) = none ∧ t.vgen e.val (leAt b 4 2 % 256) = (u.vgen e.val (leAt b 4 2 % 256) + 1) % 256 ∧
        (x.units = [] → t.endedAs tag.val scOK)))

/-- R252, R255, R262, R271: a ready context's frame enters its pipeline with its unit; at its end a decoded unit joins the context's
history, or a cause of R255 stalls the context; a FLUSH of a context that holds no picture ends at once; a slice advances the bitstream
ring and the count of records; a palette destination slot commits where no rule of its check is broken. What a unit's headers say and the
bytes of a slice are the stream's own (Config). -/
def Obligations.FramesMoveThroughTheCodecPipelines : Prop :=
  (∀ (e : Fin 2) (c : Fin 256) (now : DWord) (x : VCtx) (v : VUnit) (rest : List VUnit) (bs : List Byte) (s : State),
    s.vctx e.val c.val = some x → smFind s.vce.dec e.val = none → s.vStarts e.val = true → s.vPicks e.val c.val false = true →
    x.units = v :: rest →
    (v.tag = none ∧ bs = v.bytes) ∨ (v.tag.isSome = true ∧ v.flush = true ∧ bs = []) ∨
      (v.tag.isSome = true ∧ v.flush = false ∧ s.readDva (s.vWho x v) (leAt v.bytes 0x10 8) (leAt v.bytes 0x18 4) = .ok bs false) →
    Runs (.decodeFrameStart e c now) s (fun t =>
      smFind t.vce.dec e.val = some ⟨c.val, s.vgen e.val c.val, { v with bytes := bs }, 0, 0, 0, false⟩ ∧
      (t.vctx e.val c.val).map (fun y => y.units) = some rest)) ∧
  (∀ (e : Fin 2) (now : DWord) (r : VRun) (x : VCtx) (h : List (Nat × List Byte)) (n : Nat) (s : State), smFind s.vce.dec e.val = some r →
    s.vctx e.val r.ctx = some x → x.state = vcOPEN → r.unit.flush = false →
    s.writeFault (s.vWho x r.unit) 0 (cuts (leAt x.params 0x20 8) (leAt x.params 0x28 8)) = none →
    x.hist ++ [(r.unit.loss + 2 ^ 32 * r.hurt, r.unit.bytes)] = h → vdecCause x.params (Config.vdecUnit (vdecKey x.params) h) = n →
    Runs (.decodeFrameEnd e now) s (fun t =>
      smFind t.vce.dec e.val = none ∧
      (n = 0 → (t.vctx e.val r.ctx).map (fun y => y.hist) = some h) ∧
      (n ≠ 0 →
        (t.vctx e.val r.ctx).map (fun y => (y.state, y.hist)) = some (vcSTALLED, x.hist) ∧
        (∀ g, r.unit.tag = some g → (s.op g).any (fun o => o.phase == .issued) = true →
          (t.op g).map (fun q => (q.phase, q.status, q.detail)) =
            some (.ended, scSTREAM, n))))) ∧
  (∀ (e : Fin 2) (now : DWord) (r : VRun) (x : VCtx) (g : Nat) (s : State), smFind s.vce.dec e.val = some r →
    s.vctx e.val r.ctx = some x → x.state = vcFLUSHING → r.unit.flush = true → x.held = [] → r.unit.tag = some g →
    (s.op g).any (fun o => o.phase == .issued) = true →
    Runs (.decodeFrameEnd e now) s (fun t =>
      smFind t.vce.dec e.val = none ∧ (t.op g).map (fun q => (q.phase, q.status, q.detail)) = some (.ended, scOK, 0))) ∧
  (∀ (e : Fin 2) (c : Fin 256) (now : DWord) (x : VCtx) (v : VUnit) (rest : List VUnit) (b1 b2 : List Byte) (s : State),
    s.vctx e.val c.val = some x → smFind s.vce.enc e.val = none → s.vStarts e.val = true → s.vPicks e.val c.val true = true →
    x.units = v :: rest → x.refFault v = false → s.vReadRows (s.vWho x v) (vencReads v.params v.bytes).1 = .ok b1 false →
    s.vReadRows (s.vWho x v) (vencReads v.params v.bytes).2 = .ok b2 false →
    Runs (.encodeFrameStart e c now) s (fun t =>
      smFind t.vce.enc e.val = some ⟨c.val, s.vgen e.val c.val, v, 0, 0, 0, x.keyFrame v⟩ ∧
      (t.vctx e.val c.val).map (fun y => (y.units, y.forceKey)) = some (rest, false) ∧
      (x.keyFrame v = true → (t.vctx e.val c.val).map (fun y => (y.sinceKey, y.lt)) = some (0, [])))) ∧
  (∀ (e : Fin 2) (now : DWord) (r : VRun) (x : VCtx) (p bs : List Byte) (s : State), smFind s.vce.enc e.val = some r →
    s.vctx e.val r.ctx = some x → x.state = vcOPEN → r.hurt = 0 → r.unit.params = p → 0 < leAt p 0x58 4 → leAt p 0x5C 4 ≤ leAt p 0x58 4 →
    (∀ k < leAt p 0x58 4, ∀ n ≤ leAt p 0x58 4 - k, s.writeFault (s.vWho x r.unit) 0 (cuts (leAt p 0x50 8 + k) n) = none) →
    s.writeFault (s.vWho x r.unit) 0 (cuts (leAt p 0x68 8 + 32 * (x.records % 2 ^ leAt p 0x70 4)) 32) = none →
    (Config.vencSlice (vencKey p) x.hist r.slices).take (leAt p 0x5C 4 - r.sent) = bs →
    Runs (.sliceEmit e now) s (fun t =>
      (t.vctx e.val r.ctx).map (fun y => (y.written, y.records)) = some (x.written + bs.length, x.records + 1) ∧
      (r.slices + 1 < vencSlices p → smFind t.vce.enc e.val = some { r with slices := r.slices + 1, sent := r.sent + bs.length }))) ∧
  (∀ (e : Fin 2) (v : Word) (n : Nat) (s : State), s.reaches 0 = true → RsvClear (pgVCE e.val) r_VCE_PDEST_CMD v → bitOf v 8 = true →
    v.toNat % 16 = n → s.pdBound e.val n = false →
    Runs (.pdestCommit e v) s (fun t =>
      t.pdCommitted e.val n = (s.pdRefusal e.val n).isNone ∧
      t.fld (pgVCE e.val) f_VCE_PDEST_RESULT_SLOT = n ∧ Raised (pgVCE e.val) ev_vce_PDEST_DONE s t ∧
      t.fld (pgVCE e.val) f_VCE_PDEST_RESULT_REFUSED = (if (s.pdRefusal e.val n).isNone then 0 else 1) ∧
      t.fld (pgVCE e.val) f_VCE_PDEST_RESULT_REASON = ((s.pdRefusal e.val n).map (fun x => x.1)).getD 0 ∧
      WordsBut ([r_VCE_PDEST_STATUS, r_VCE_PDEST_RESULT, hRAW, hSETCOUNT].map (fun w => (pgVCE e.val, w))) s t)) ∧
  (∀ (e : Fin 2) (v : Word) (n : Nat) (s : State), s.reaches 0 = true → RsvClear (pgVCE e.val) r_VCE_PDEST_CMD v → bitOf v 8 = true →
    v.toNat % 16 = n → s.pdBound e.val n = true →
    Runs (.pdestCommit e v) s (fun t =>
      Raised (pgVCE e.val) evWRITE_DISCARDED s t ∧ WordsBut [(pgVCE e.val, hRAW), (pgVCE e.val, hSETCOUNT)] s t))

/-- R145 to R147, R386: a level that has held fewer than FILTER samples is not accepted; an accepted edge counts up or down as the channel's mode says, both lines at once are a quadrature error, PTP time or the timebase counts up at each multiple of PERIOD;
an index edge gives the reference count, corrects a count within its tolerance and reports one beyond it, and gives a waiting domain its
origin; a lost line raises LOS and SLIP, and the last one that returns clears LOS; reading COUNT_LO latches the rest. -/
def Obligations.ReferenceChannelsCountEdges : Prop :=
  (∀ (ch : Fin 4) (a b : Bool) (ha hb : Fin 64) (ts : DWord) (r : RefCh) (s : State), s.refCh ch.val = r →
    ha.val < s.fld (pgREF ch.val) f_CAD_REF_FILTER_FILTER → hb.val < s.fld (pgREF ch.val) f_CAD_REF_FILTER_FILTER →
    Runs (.referenceEdge ch a b ha hb ts) s (fun t => t.refCh ch.val = r ∧ WordsBut [] s t)) ∧
  (∀ (ch : Fin 4) (a b x y : Bool) (ha hb : Fin 64) (ts : DWord) (r : RefCh) (s : State), s.domainOn (pgREF ch.val) = true →
    s.running (pgREF ch.val) = true → s.refCh ch.val = r → s.accepted ch.val r.a a ha.val = x → s.accepted ch.val r.b b hb.val = y →
    r.frozen = false → s.fld (pgREF ch.val) f_CAD_REF_MODE_MODE = 0 → (x != r.a) = !(y != r.b) →
    Runs (.referenceEdge ch a b ha hb ts) s (fun t =>
      t.refCh ch.val = { r with a := x, b := y, edge := ts.toNat, count := Int.bmod (r.count +
        (if ((if x = r.a then x == y else x != y) != (s.fld (pgREF ch.val) f_CAD_REF_MODE_INVERT_DIR == 1)) = true then 1 else -1)) (2 ^ 64) })) ∧
  (∀ (ch : Fin 4) (a b x y : Bool) (ha hb : Fin 64) (ts : DWord) (r : RefCh) (s : State), s.domainOn (pgREF ch.val) = true →
    s.running (pgREF ch.val) = true → s.refCh ch.val = r → s.accepted ch.val r.a a ha.val = x → s.accepted ch.val r.b b hb.val = y →
    s.fld (pgREF ch.val) f_CAD_REF_MODE_MODE = 0 → x ≠ r.a → y ≠ r.b →
    Runs (.referenceEdge ch a b ha hb ts) s (fun t =>
      t.refCh ch.val = { r with a := x, b := y } ∧ Raised (pgREF ch.val) ev_cadRef_QUAD_ERROR s t ∧
      WordsBut ([r_CAD_REF_CNT_QUAD, hRAW, hSETCOUNT].map (fun w => (pgREF ch.val, w))) s t)) ∧
  (∀ (ch : Fin 4) (a b y : Bool) (ha hb : Fin 64) (ts : DWord) (r : RefCh) (s : State), s.domainOn (pgREF ch.val) = true →
    s.running (pgREF ch.val) = true → s.refCh ch.val = r → s.accepted ch.val r.a a ha.val = true → s.accepted ch.val r.b b hb.val = y →
    r.frozen = false → s.fld (pgREF ch.val) f_CAD_REF_MODE_MODE = 1 → r.a = false →
    Runs (.referenceEdge ch a b ha hb ts) s (fun t =>
      t.refCh ch.val = { r with a := true, b := y, edge := ts.toNat, count := Int.bmod (r.count +
        (if (y != (s.fld (pgREF ch.val) f_CAD_REF_MODE_INVERT_DIR == 1)) = true then 1 else -1)) (2 ^ 64) })) ∧
  (∀ (ch : Fin 4) (a b y : Bool) (ha hb : Fin 64) (ts : DWord) (r : RefCh) (s : State), s.domainOn (pgREF ch.val) = true →
    s.running (pgREF ch.val) = true → s.refCh ch.val = r → s.accepted ch.val r.a a ha.val = true → s.accepted ch.val r.b b hb.val = y →
    r.frozen = false → s.fld (pgREF ch.val) f_CAD_REF_MODE_MODE = 2 ∨ s.fld (pgREF ch.val) f_CAD_REF_MODE_MODE = 3 → r.a = false →
    Runs (.referenceEdge ch a b ha hb ts) s (fun t =>
      t.refCh ch.val =
        if r.edge = 0 ∨ r.edge + s.fld (pgREF ch.val) f_CAD_REF_FILTER_HOLDOFF * 1000 ≤ ts.toNat then
          { r with a := true, b := y, edge := ts.toNat, count := Int.bmod (r.count + 1) (2 ^ 64) }
        else { r with a := true, b := y })) ∧
  (∀ (ch : Fin 4) (ts : DWord) (r : RefCh) (s : State), s.running (pgREF ch.val) = true → s.refCh ch.val = r → r.frozen = false →
    s.fld (pgREF ch.val) f_CAD_REF_MODE_MODE = 4 →
    Runs (.ptpTimeCount ch ts) s (fun t => t.refCh ch.val =
      if (if s.fld pgMOD f_MOD_TIME_CTRL_DISCIPLINE = 0 then ts.toNat else (ts.toNat + s.wideOf pgMOD r_MOD_PTP_OFFSET_LO) % 2 ^ 64) %
          (s.word (pgREF ch.val) r_CAD_REF_PERIOD).toNat = 0 then
        { r with edge := ts.toNat, count := Int.bmod (r.count + 1) (2 ^ 64) } else r)) ∧
  (∀ (ch : Fin 4) (held : Fin 64) (ts : DWord) (s : State), held.val < s.fld (pgREF ch.val) f_CAD_REF_FILTER_FILTER →
    exec (.indexEdge ch held ts) s = .next s) ∧
  (∀ (ch : Fin 4) (held : Fin 64) (ts : DWord) (r : RefCh) (s : State), s.running (pgREF ch.val) = true → s.refCh ch.val = r →
    s.fld (pgREF ch.val) f_CAD_REF_FILTER_FILTER ≤ held.val →
    s.fld (pgREF ch.val) f_CAD_REF_MODE_MODE ≤ 1 → s.fld (pgREF ch.val) f_CAD_REF_MODE_INDEX_EN = 1 → r.indexRef = none →
    Runs (.indexEdge ch held ts) s (fun t =>
      t.refCh ch.val = { r with indexRef := some r.count, frozen := false } ∧ t.fld (pgREF ch.val) f_CAD_REF_STATUS_INDEX_SEEN = 1 ∧
      (∀ d < 16, s.running (pgCAD d) = true → s.ctlOf d f_CAD_DOM_CTRL_CHANNEL = ch.val → (s.dom d).origin = none →
        ((t.dom d).origin, (t.dom d).h, (t.dom d).k, (t.dom d).pend) = (some r.count, 0, 0, some (ts.toNat, 0))))) ∧
  (∀ (ch : Fin 4) (held : Fin 64) (ts : DWord) (r : RefCh) (ref dl : Int) (s : State), s.running (pgREF ch.val) = true → s.refCh ch.val = r →
    s.fld (pgREF ch.val) f_CAD_REF_FILTER_FILTER ≤ held.val →
    s.fld (pgREF ch.val) f_CAD_REF_MODE_MODE ≤ 1 → s.fld (pgREF ch.val) f_CAD_REF_MODE_INDEX_EN = 1 → r.indexRef = some ref →
    r.frozen = false → s.fld (pgREF ch.val) f_CAD_REF_INDEX_COUNTS_PER_REV ≠ 0 →
    (∀ up : Bool, indexDiff r.count ref (s.fld (pgREF ch.val) f_CAD_REF_INDEX_COUNTS_PER_REV) up = dl) → dl ≠ 0 →
    Runs (.indexEdge ch held ts) s (fun t =>
      if dl.natAbs ≤ s.fld (pgREF ch.val) f_CAD_REF_INDEX_INDEX_TOL then
        t.refCh ch.val = { r with count := r.count - dl } ∧ t.word (pgREF ch.val) r_CAD_REF_LAST_FIX = wordOf (-dl) ∧
        Raised (pgREF ch.val) ev_cadRef_INDEX_CORRECTED s t
      else t.refCh ch.val = r ∧ Raised (pgREF ch.val) ev_cadRef_INDEX_ERROR s t ∧
        (∀ d < 16, s.running (pgCAD d) = true → s.ctlOf d f_CAD_DOM_CTRL_CHANNEL = ch.val → t.fld (pgCAD d) f_CAD_DOM_STATUS_SLIP = 1))) ∧
  (∀ (ch : Fin 4) (line : Fin 3) (s : State), s.domainOn (pgREF ch.val) = true → (s.usedLines ch.val).testBit line.val = true →
    s.fld (pgREF ch.val) f_CAD_REF_STATUS_LOS = 0 →
    Runs (.lossOfSignal ch line) s (fun t =>
      t.fld (pgREF ch.val) f_CAD_REF_STATUS_LOS = 1 ∧ Raised (pgREF ch.val) ev_cadRef_LOS s t ∧
      t.refCh ch.val = { s.refCh ch.val with los := (s.refCh ch.val).los ||| 2 ^ line.val } ∧
      (∀ d < 16, s.running (pgCAD d) = true → s.ctlOf d f_CAD_DOM_CTRL_CHANNEL = ch.val → t.fld (pgCAD d) f_CAD_DOM_STATUS_SLIP = 1))) ∧
  (∀ (ch : Fin 4) (line : Fin 3) (s : State), s.fld (pgREF ch.val) f_CAD_REF_STATUS_LOS = 1 → (s.refCh ch.val).los = 2 ^ line.val →
    Runs (.losCleared ch line) s (fun t =>
      t.fld (pgREF ch.val) f_CAD_REF_STATUS_LOS = 0 ∧ Raised (pgREF ch.val) ev_cadRef_LOS_CLEARED s t ∧ (t.refCh ch.val).los = 0 ∧
      WordsBut ([r_CAD_REF_STATUS, hRAW, hSETCOUNT].map (fun w => (pgREF ch.val, w))) s t)) ∧
  (∀ (ch : Fin 4) (s : State), s.reaches 0 = true →
    Runs (.cadRefCountRead ch) s (fun t =>
      t.reply = low64 (s.refCh ch.val).count % 2 ^ 32 ∧
      t.word (pgREF ch.val) (r_CAD_REF_COUNT_LO + 1) = BitVec.ofNat 32 (low64 (s.refCh ch.val).count / 2 ^ 32) ∧
      t.word (pgREF ch.val) r_CAD_REF_EDGE_LO = BitVec.ofNat 32 (s.refCh ch.val).edge ∧
      t.word (pgREF ch.val) r_CAD_REF_EDGE_HI = BitVec.ofNat 32 ((s.refCh ch.val).edge / 2 ^ 32) ∧ t.cad = s.cad))

/-- R148, R149, R151, R153 to R158, R163, R164, R170: an update takes the pending edge and the step of R148, or raises SLIP beyond SLIP_TOL;
an evaluation moves H and fires the instance it passes: a trigger drives its output for its width, a SUBMIT fills a ring slot, a DEADLINE drives an
available result or is noted as missed, which a later tick's evaluation counts, a MARK queues its time; a committed table takes over from the next cycle; the reads show what they latch. -/
def Obligations.CadenceDomainsTrackAndFire : Prop :=
  (∀ (d : Fin 16) (now : DWord) (x : Dom) (tm : Nat) (m p v e : Int) (s : State), s.running (pgCAD d.val) = true → s.dom d.val = x →
    x.pend = some (tm, m) →
    trackStep x tm m (s.fld (pgCAD d.val) f_CAD_DOM_GAIN_ALPHA) (s.fld (pgCAD d.val) f_CAD_DOM_GAIN_BETA) = (p, v, e) →
    Runs (.trackerUpdate d now) s (fun t =>
      ((t.dom d.val).pend, (t.dom d.val).v, (t.dom d.val).k, (t.dom d.val).tLast, (t.dom d.val).mLast) = (none, v, min (x.k + 1) 255, tm, m) ∧
      ((t.dom d.val).p = p ∨ (t.dom d.val).p = m ∧ t.fld (pgCAD d.val) f_CAD_DOM_STATUS_SLIP = 1) ∧
      (4 ≤ x.k → (s.word (pgCAD d.val) r_CAD_DOM_SLIP_TOL).toNat < e.natAbs →
        (t.dom d.val).p = m ∧ t.fld (pgCAD d.val) f_CAD_DOM_STATUS_SLIP = 1 ∧
        bitOf (t.word (pgCAD d.val) hRAW) ev_cadDom_SLIP = true ∧
        (t.word (pgCAD d.val) r_CAD_DOM_CNT_SLIP).toNat = min ((s.word (pgCAD d.val) r_CAD_DOM_CNT_SLIP).toNat + 1) 0xFFFFFFFF))) ∧
  (∀ (d : Fin 16) (now : DWord) (h' pos : Int) (key n : Nat) (e : Ept) (s : State), s.firesOnce d.val now.toNat h' pos key n e →
    Runs (.positionEvaluation d now) s (fun t =>
      ((t.dom d.val).h, (t.dom d.val).nextPos, (t.dom d.val).nextKey) = (h', pos, key + 1) ∧
      (e.action = 1 → s.triggers d.val = true →
        smFind t.cad.pulses (e.d2 % 16) = some (max s.time now.toNat + e.d3 % 2 ^ 20) ∧
        ∀ j < 16, (t.fld pgMGT f_MGT_OUT_STATE_LEVEL).testBit j = (decide (j = e.d2 % 16) || (s.fld pgMGT f_MGT_OUT_STATE_LEVEL).testBit j)) ∧
      (e.action = 2 → s.submits d.val = true → (s.dom d.val).ring.length < 64 →
        (t.dom d.val).ring = (s.dom d.val).ring ++ [⟨s.submitBytes d.val n (e.d2 % 16), n, e.d2 % 16⟩]) ∧
      (e.action = 3 → s.submits d.val = true → s.drives d.val = true → s.cad.dip.hand = none → ((s.dom d.val).getInst n).passed = false →
        (∀ w, ((s.dom d.val).getInst n).word = some w → s.holding d.val = false →
          ((t.dom d.val).lastWord, (t.dom d.val).lastN) = (w, max (s.dom d.val).lastN n) ∧
          (∀ j < 16, (s.fld (pgCAD d.val) f_CAD_DOM_OUTS_RESULT).testBit j = true →
            (t.fld pgMGT f_MGT_OUT_STATE_LEVEL).testBit j = w.testBit j)) ∧
        (((s.dom d.val).getInst n).word = none → ((s.dom d.val).getInst n).driven = false →
          ((t.dom d.val).getInst n).missAt = some (max s.time now.toNat))) ∧
      (e.action = 5 → (s.dom d.val).marks.length < 64 →
        (t.dom d.val).marks = (s.dom d.val).marks ++ [(max s.time now.toNat, key / 2, n)]))) ∧
  (∀ (d : Fin 16) (now : DWord) (df : Int) (k : Nat) (s : State), s.running (pgCAD d.val) = true → (s.dom d.val).origin.isSome = true →
    sdiff (s.predict d.val (max s.time now.toNat)) (s.dom d.val).h = df → 0 ≤ df → s.movesH d.val now.toNat →
    (s.dom d.val).next.all (fun c => decide ((s.dom d.val).h + df < c.1)) = true →
    ((s.dom d.val).inst.filter (fun i => i.2.missAt.any (fun m => decide (m / 10 < now.toNat / 10)))).length = k →
    Runs (.positionEvaluation d now) s (fun t =>
      (t.dom d.val).h = (s.dom d.val).h + df ∧ (t.dom d.val).nextPos = (s.dom d.val).nextPos ∧
      t.word (pgCAD d.val) r_CAD_DOM_INSTANCE = BitVec.ofNat 32 (t.dom d.val).cycle ∧
      (t.word (pgCAD d.val) r_CAD_DOM_CNT_MISSED).toNat = min ((s.word (pgCAD d.val) r_CAD_DOM_CNT_MISSED).toNat + k) 0xFFFFFFFF ∧
      (k = 0 → WordsBut ([r_CAD_DOM_STATUS, r_CAD_DOM_INSTANCE].map (fun w => (pgCAD d.val, w))) s t) ∧
      (k ≠ 0 → bitOf (t.word (pgCAD d.val) hRAW) ev_cadDom_MISSED = true))) ∧
  (∀ (j : Fin 16) (now : DWord) (tm : Nat) (s : State), smFind s.cad.pulses j.val = some tm →
    Runs (.triggerPulseEnd j now) s (fun t =>
      if tm ≤ now.toNat then
        smFind t.cad.pulses j.val = none ∧
        (∀ i < 16, (t.fld pgMGT f_MGT_OUT_STATE_LEVEL).testBit i = (decide (i ≠ j.val) && (s.fld pgMGT f_MGT_OUT_STATE_LEVEL).testBit i)) ∧
        WordsBut [(pgMGT, r_MGT_OUT_STATE)] s t
      else t = s)) ∧
  (∀ (d : Fin 16) (now : DWord) (x : Dom) (s : State), s.running (pgCAD d.val) = true →
    s.fld (pgCAD d.val) f_CAD_DOM_STATUS_STANDSTILL = 0 → s.dom d.val = x →
    Runs (.standstill d now) s (fun t =>
      if s.lastEdge d.val + s.fld (pgCAD d.val) f_CAD_DOM_STANDSTILL_US * 1000 ≤ now.toNat then
        t.dom d.val = { x with v := 0, k := 0, p := if x.measured then x.mLast else x.p } ∧
        t.fld (pgCAD d.val) f_CAD_DOM_STATUS_STANDSTILL = 1 ∧ Raised (pgCAD d.val) ev_cadDom_STANDSTILL s t
      else t = s)) ∧
  (∀ (d : Fin 16) (v : Word) (s : State), s.reaches 0 = true → v.toNat % 2 = 1 → RsvClear (pgCAD d.val) r_CAD_EPT_COMMIT v →
    s.fld (pgCAD d.val) f_CAD_EPT_STATUS_BUSY = 0 → s.running pgEAS = true →
    Runs (.eptCommit d v) s (fun t =>
      Raised (pgCAD d.val) ev_cadDom_EPT_DONE s t ∧
      match s.eptCheck d.val (s.dom d.val).shadow with
      | some (r, i) => t.dom d.val = s.dom d.val ∧ t.fld (pgCAD d.val) f_CAD_EPT_STATUS_REFUSED = 1 ∧
          t.fld (pgCAD d.val) f_CAD_EPT_STATUS_REASON = r % 256 ∧ t.fld (pgCAD d.val) f_CAD_EPT_STATUS_INDEX = i % 1024
      | none => t.fld (pgCAD d.val) f_CAD_EPT_STATUS_REFUSED = 0 ∧
          t.fld (pgCAD d.val) f_CAD_EPT_STATUS_REASON = s.fld (pgCAD d.val) f_CAD_EPT_STATUS_REASON ∧ (t.dom d.val).active = (s.dom d.val).shadow ∧
          (s.running (pgCAD d.val) = true → (s.dom d.val).origin.isSome = true →
            ((t.dom d.val).old, (t.dom d.val).n0) = (some (s.dom d.val).active, (s.dom d.val).cycle + 1) ∧
            t.fld (pgCAD d.val) f_CAD_EPT_STATUS_BUSY = 1))) ∧
  (∀ (d : Fin 16) (s : State), (s.dom d.val).old.isSome = true → (s.dom d.val).oldServes = false →
    Runs (.eptBankSwitch d) s (fun t =>
      t.dom d.val = { s.dom d.val with old := none, shadow := (s.dom d.val).active } ∧
      t.fld (pgCAD d.val) f_CAD_EPT_STATUS_BUSY = 0)) ∧
  (∀ (d : Fin 16) (tm i n : Nat) (r : List (Nat × Nat × Nat)) (s : State), s.reaches 0 = true → (s.dom d.val).marks = (tm, i, n) :: r →
    Runs (.markQueueRead d) s (fun t =>
      t.reply = tm % 2 ^ 32 ∧ t.word (pgCAD d.val) r_CAD_MARK_TIME_HI = BitVec.ofNat 32 (tm / 2 ^ 32) ∧
      t.word (pgCAD d.val) r_CAD_MARK_INFO = BitVec.ofNat 32 (2 ^ 31 + n % 32768 * 65536 + i) ∧ (t.dom d.val).marks = r)) ∧
  (∀ (d : Fin 16) (s : State), s.reaches 0 = true → (s.dom d.val).marks = [] →
    Runs (.markQueueRead d) s (fun t => t.reply = 0 ∧ t.word (pgCAD d.val) r_CAD_MARK_INFO = 0#32)) ∧
  (∀ (d : Fin 16) (which : Fin 3) (now : DWord) (s : State), s.reaches 0 = true →
    Runs (.cadDomPositionRead d which now) s (fun t =>
      t.reply = low64 (if which = 0 then s.predict d.val (max s.time now.toNat) else if which = 1 then (s.dom d.val).h else (s.dom d.val).v) % 2 ^ 32 ∧
      t.word (pgCAD d.val) (if which = 0 then r_CAD_DOM_POS_HI else if which = 1 then r_CAD_DOM_HWM_HI else r_CAD_DOM_SPEED_HI) =
        BitVec.ofNat 32 (low64 (if which = 0 then s.predict d.val (max s.time now.toNat) else if which = 1 then (s.dom d.val).h
          else (s.dom d.val).v) / 2 ^ 32) ∧ t.cad = s.cad))

/-- R172, R173, R175 to R177, R179, R180: the RESULT RUN of a Triptych domain runs on the channels that are IN, and ends with 0x41 where none
is, which takes the domain to FAULT; a vote with a majority ends OK and names it, one without raises NO_MAJORITY; a part that is late is abandoned and the vote decided
without it; a recovered channel takes the source's state region and is IN; a voter that fails its check is FAILED and the other takes over;
decisions of two READY voters that differ give no result. -/
def Obligations.TriptychChannelsVote : Prop :=
  (∀ (tag : Fin 8192) (now : DWord) (b l : State) (o : Op) (a : List Byte) (cs : List Nat) (s : State), s.runHeld tag.val = false →
    s.begins tag.val 1 now.toNat = some (b, o) → o.isResult = true → b.triptych o.ring = true → b.lostChannels o.ring = l →
    l.readDva (o.who tag.val) o.d.arg 320 = .ok a false → l.runArgFault o.tenant a = none →
    (chans 7).filter (fun c => l.chState o.ring c == 0) = cs →
    ((cs.flatMap (fun c => l.chanPanels o.ring o c)).filterMap (fun p => l.cart p o.tenant (leAt a 0 2))).any triCartBad = false →
    Runs (.opRun tag now) s (fun t =>
      (cs = [] → t.endedAs tag.val 0x41 ∧ t.st (pgCAD o.ring) = stFAULT ∧ bitOf (t.word pgVAR0 hRAW) ev_var0_NO_MAJORITY = true) ∧
      (cs ≠ [] → (t.op tag.val).map (fun q => (q.parts, q.channels, q.decided)) = some (cs.length, maskOf cs, false) ∧
        ∀ c ∈ cs, (t.op (partTag tag.val c)).any (fun q => q.group == l.chanPanels o.ring o c) = true))) ∧
  (∀ (tag : Fin 8192) (now : DWord) (o : Op) (recs : List (Nat × Option (List Byte))) (maj : List Nat) (s : State), s.op tag.val = some o →
    o.isResult = true → o.decided = false → o.abandoned = false → o.channels ≠ 0 →
    (∀ c ∈ chans o.channels, (s.op (partTag tag.val c)).any (fun q => q.phase == .ended && q.status == 0) = true) →
    (chans o.channels).map (fun c => (c, s.record o.ring ((s.chanPanels o.ring o c).getD (s.fld pgVAR0 (f_VAR_TRI_STATE_RECORD_G o.ring)) 0))) = recs →
    majority recs = maj →
    Runs (.voteDecision tag now) s (fun t =>
      (maj ≠ [] → (t.op tag.val).map (fun q => (q.decided, q.status, q.detail % 8)) = some (true, scOK, maskOf maj) ∧
        ((t.dom o.ring).getInst o.instance').chan = maj.head?) ∧
      (maj = [] → 2 ≤ (chans o.channels).length →
        (t.op tag.val).map (fun q => (q.decided, q.status)) = some (true, 0x40) ∧ t.st (pgCAD o.ring) = stFAULT ∧
        bitOf (t.word pgVAR0 hRAW) ev_var0_NO_MAJORITY = true) ∧
      (maj = [] → (chans o.channels).length < 2 → (t.op tag.val).map (fun q => (q.decided, q.status)) = some (true, 0x41)))) ∧
  (∀ (tag : Fin 8192) (now : DWord) (o : Op) (w : Nat) (s : State), s.op tag.val = some o → o.isResult = true → o.decided = false →
    o.abandoned = false → o.channels = 0 → o.phase = .ended → o.status = 0 →
    leNat (s.palRead (s.fld (pgCAD o.ring) f_CAD_DOM_RECORD_PANEL) (s.fld (pgCAD o.ring) f_CAD_DOM_RECORD_ADDR * 64) 2) = w →
    s.running (pgCAD o.ring) = true → s.drives o.ring = true → (s.dom o.ring).lastN < o.instance' →
    ((s.dom o.ring).getInst o.instance').due = false → ((s.dom o.ring).getInst o.instance').passed = false →
    s.ctlOf o.ring f_CAD_DOM_CTRL_RELEASE = 0 →
    Runs (.voteDecision tag now) s (fun t =>
      (t.op tag.val).map (fun q => q.decided) = some true ∧ ((t.dom o.ring).getInst o.instance').word = some w)) ∧
  (∀ (tag : Fin 8192) (now : DWord) (o : Op) (s : State), s.op tag.val = some o → o.isResult = true → o.channels = 0 → o.phase = .ended →
    o.status ≠ 0 ∨ o.decided = true ∨ o.abandoned = true →
    Runs (.operationComplete tag now) s (fun t => ((t.dom o.ring).getInst o.instance').ended = true)) ∧
  (∀ (tag : Fin 8192) (now : DWord) (o : Op) (c : Nat) (maj : List Nat) (s : State), s.op tag.val = some o → o.isResult = true →
    o.decided = false → o.abandoned = false → o.channels = 7 → c < 3 → (s.op (partTag tag.val c)).any (fun q => q.phase == .issued) = true →
    (∀ k < 3, k ≠ c → (s.op (partTag tag.val k)).any (fun q => q.phase == .ended && q.status == 0) = true) →
    majority (((chans 7).filter (fun k => k != c)).map (fun k =>
      (k, s.record o.ring ((s.chanPanels o.ring o k).getD (s.fld pgVAR0 (f_VAR_TRI_STATE_RECORD_G o.ring)) 0)))) = maj →
    Runs (.skewTimeout tag now) s (fun t =>
      (t.op (partTag tag.val c)).any (fun q => q.abandoned) = true ∧
      (t.op tag.val).map (fun q => (q.decided, q.status, q.detail / 64 % 8)) = some (true, if maj = [] then 0x40 else scOK, 2 ^ c))) ∧
  (∀ (d : Fin 16) (c : Fin 3) (src tpl f x y : Nat) (s : State), smFind (s.dom d.val).recov c.val = some src → s.resultTpl d.val = some tpl →
    leAt (s.tplBytes d.val tpl) 52 4 = f → s.chState d.val c.val = 1 →
    (if c.val = 0 then pgFirst f else s.fld pgVAR0 (if c.val = 1 then f_VAR_TRI_CHAN_FIRST1 d.val else f_VAR_TRI_CHAN_FIRST2 d.val)) = x →
    (if src = 0 then pgFirst f else s.fld pgVAR0 (if src = 1 then f_VAR_TRI_CHAN_FIRST1 d.val else f_VAR_TRI_CHAN_FIRST2 d.val)) = y →
    x + pgCount f ≤ y ∨ y + pgCount f ≤ x →
    s.fld pgVAR0 (f_VAR_TRI_STATE_BASE d.val) * 4096 + s.fld pgVAR0 (f_VAR_TRI_STATE_SIZE d.val) * 4096 ≤ 0x800000 →
    (∀ e ∈ s.ops.ops, e.1 / 8192 = c.val + 1 ∨ e.1 / 8192 = src + 1 → e.2.ring = d.val → e.2.phase = .ended) → s.moveFree x = true →
    s.moveFree y = true → (∀ g < pgCount f, (s.panel (x + g)).substing = false ∧ (s.panel (x + g)).lost = false) →
    Runs (.channelRecovery d c) s (fun t =>
      t.chState d.val c.val = 0 ∧ smFind (t.dom d.val).recov c.val = none ∧ Raised pgVAR0 ev_var0_CHANNEL_READMITTED s t ∧
      (∀ g < pgCount f, ∀ k < s.fld pgVAR0 (f_VAR_TRI_STATE_SIZE d.val) * 4096,
        cGet t.mem.pal ((x + g) * 0x800000 + s.fld pgVAR0 (f_VAR_TRI_STATE_BASE d.val) * 4096 + k) =
          cGet s.mem.pal ((y + g) * 0x800000 + s.fld pgVAR0 (f_VAR_TRI_STATE_BASE d.val) * 4096 + k)))) ∧
  (∀ (d : Fin 16) (s : State),
    Runs (.recoveryWindowClear d) s (fun t =>
      t.fld pgVAR0 (f_VAR_TRI_CHSTATE_RECOVERIES d.val) = 0 ∧ (∀ c < 3, t.chState d.val c = s.chState d.val c) ∧
      WordsBut [(pgVAR0, r_VAR_TRI_CHSTATE d.val)] s t)) ∧
  (∀ (v : Fin 2) (s : State), s.fld pgVAR0 (fVoter v.val) ≠ 1 →
    Runs (.voterCheck v) s (fun t =>
      t.fld pgVAR0 (fVoter v.val) = 1 ∧
      (s.fld pgVAR0 (fVoter (1 - v.val)) ≠ 1 → s.fld pgVAR0 f_VAR_VOTER_ACTIVE = v.val →
        t.fld pgVAR0 f_VAR_VOTER_ACTIVE = 1 - v.val ∧ t.fld pgVAR0 f_VAR_VOTER_SWITCHES = min (s.fld pgVAR0 f_VAR_VOTER_SWITCHES + 1) 255) ∧
      (s.fld pgVAR0 (fVoter (1 - v.val)) = 1 →
        ∀ d < 16, s.triptych d = true → s.running (pgCAD d) = true ∨ s.st (pgCAD d) = stQUIESCING → t.st (pgCAD d) = stFAULT))) ∧
  (∀ (tag : Fin 8192) (fail0 fail1 : Bool) (o : Op) (s : State), s.op tag.val = some o → o.onChannels = true → o.decided = false →
    o.abandoned = false → s.fld pgVAR0 (fVoter 0) ≠ 1 → s.fld pgVAR0 (fVoter 1) ≠ 1 → s.partsLeft tag.val o = [] ∨ s.skewed tag.val o = true →
    Runs (.voterMismatch tag fail0 fail1) s (fun t =>
      (t.op tag.val).any (fun q => q.decided && [scOK, 0x40, 0x41].contains q.status) = true ∧
      (t.dom o.ring).getInst o.instance' = (s.dom o.ring).getInst o.instance' ∧ t.free = s.free + 1 ∧
      (fail0 = true → t.fld pgVAR0 (fVoter 0) = 1) ∧ (fail1 = true → t.fld pgVAR0 (fVoter 1) = 1)))

/-- R181, R183 to R192: the pair settles its roles by pairing frames, heartbeats and missed windows; snapshots of ended instances are sent,
applied or compared; HANDOVER and TAKE_ACTIVE change roles; the port delivers frames once in sequence, replays what is not acknowledged, and
follows its link and its spare lane. -/
def Obligations.DiptychPairKeepsRolesAndSnapshots : Prop :=
  (∀ (serial : DWord) (prefer : Bool) (role : Fin 8) (digest : List Byte) (s : State), s.dipReady = true →
    Runs (.pairingFrame serial prefer role digest) s (fun t =>
      t.wideOf pgDIP r_VAR_DIP_PEER_SERIAL_LO = serial.toNat ∧ (s.role = 3 → t.role = 3) ∧
      if digest = s.pairDigest then
        t.fld pgDIP f_VAR_DIP_STATUS_CONFIG_MATCH = 1 ∧
        (s.role ≠ 3 → t.role = if role.val = 3 then 1 else if s.fld pgDIP f_VAR_DIP_CTRL_PREFER = 1 ∧ prefer = false then 3
          else if prefer = true ∧ s.fld pgDIP f_VAR_DIP_CTRL_PREFER ≠ 1 then 1 else if Config.serial % 2 ^ 64 < serial.toNat then 3 else 1)
      else t.fld pgDIP f_VAR_DIP_STATUS_CONFIG_MATCH = 0 ∧ bitOf (t.word pgDIP hRAW) ev_dip_CONFIG_MISMATCH = true ∧ (s.role ≠ 3 → t.role = 0))) ∧
  (∀ (now : DWord) (s : State), s.dipReady = true → s.cad.dip.queue = [] →
    Runs (.heartbeatSend now) s (fun t =>
      t.fld pgDIP f_VAR_DIP_PERIOD_P_US = s.heartPeriod ∧ WordsBut [(pgDIP, r_VAR_DIP_PERIOD)] s t ∧
      ((s.ledger pgDIP 0).free ≠ 0 → t.cad.dip.txSeq = s.cad.dip.txSeq + 1 ∧
        (∃ w, t.out = s.out ++ [⟨.diptych, 0, [2, s.cad.dip.txSeq + 1, s.role, s.heartPeriod] ++ w, []⟩] ∧
          t.cad.dip.unacked = s.cad.dip.unacked ++ [⟨s.cad.dip.txSeq + 1, 2, [s.role, s.heartPeriod] ++ w, []⟩])) ∧
      ((s.ledger pgDIP 0).free = 0 → t.out = s.out ∧ t.cad.dip.queue.map (fun f => f.kind) = [2]))) ∧
  (∀ (role : Fin 8) (p : Byte) (doms : List HbDom) (hand : Option Nat) (ack : Bool) (now : DWord) (s : State), s.dipReady = true →
    Runs (.heartbeatReceive role p doms hand ack now) s (fun t =>
      (t.cad.dip.misses, t.cad.dip.peerRole, t.cad.dip.peerP) = (0, role.val, p.toNat) ∧
      t.fld pgDIP f_VAR_DIP_STATUS_PEER_ACTIVE = (if role.val = 3 then 1 else 0) ∧
      (s.role = 3 → role.val = 3 → t.role = 4 ∧ bitOf (t.word pgDIP hRAW) ev_dip_DUAL_ACTIVE = true) ∧
      (s.role = 2 → role.val = 4 → t.role = 3) ∧ (s.role = 2 → t.cad.dip.hand = hand) ∧
      (s.role = 1 → role.val = 3 → s.cad.dip.peerDone = false → t.fld pgDIP f_VAR_DIP_STATUS_ALIGNED = 1 ∧ t.cad.dip.peerDone = true ∧
        ∀ (x : HbDom) (k : Int), doms = [x] → s.paired x.dom.val = true →
          (∀ up : Bool, cyclesTo (s.dom x.dom.val).h x.h.toInt up = k) → (t.dom x.dom.val).h = (s.dom x.dom.val).h + k * 2 ^ 32))) ∧
  (∀ (now : DWord) (s : State), s.running pgDIP = true →
    Runs (.hbMiss now) s (fun t =>
      t.cad.dip.misses = s.cad.dip.misses + 1 ∧ bitOf (t.word pgDIP hRAW) ev_dip_HB_MISS = true ∧
      (t.word pgDIP r_VAR_DIP_CNT_MISS).toNat = min ((s.word pgDIP r_VAR_DIP_CNT_MISS).toNat + 1) 0xFFFFFFFF ∧
      t.role = if s.role = 3 then 4 else if s.role = 2 ∧ 3 ≤ s.cad.dip.misses + 1 then 3
        else if s.role = 0 ∧ 3 ≤ s.cad.dip.misses + 1 ∧ s.fld pgDIP f_VAR_DIP_CTRL_SOLO = 1 then 3 else s.role)) ∧
  (∀ (d : Fin 16) (n c : Nat) (bs : List Byte) (s : State), s.snapDue d.val n = some c → s.dipReady = true → s.cad.dip.sending = none →
    s.regsRead d.val c = some bs → s.cad.dip.queue = [] → (s.ledger pgDIP 0).free ≠ 0 →
    Runs (.snapshotStart d n) s (fun t =>
      t.cad.dip.sending = some (d.val, n) ∧ t.fld pgDIP f_VAR_DIP_STATUS_LAST_SNAP = n % 65536 ∧ smFind t.cad.dip.lastSnap d.val = some n ∧
      ((t.dom d.val).getInst n).snap = false ∧
      ∃ w l, t.out = s.out ++ ⟨.diptych, 0, [3, s.cad.dip.txSeq + 1, d.val, n] ++ w ++ [crc32c bs], []⟩ :: l)) ∧
  (∀ (d : Fin 16) (n c : Nat) (s : State), s.snapDue d.val n = some c → s.dipReady = true → s.cad.dip.sending.isSome = true →
    s.cad.dip.waiting = none →
    Runs (.snapshotStart d n) s (fun t => t.cad.dip.waiting = some (d.val, n) ∧ t.out = s.out)) ∧
  (∀ (d : Fin 16) (n : Nat) (word : BitVec 16) (data : List Byte) (crc : Word) (s : State), s.dipReady = true → s.paired d.val = true →
    s.role = 1 ∨ s.role = 2 →
    Runs (.snapshotReceive d n word data crc) s (fun t =>
      if crc32c data = crc.toNat ∧ data.length = s.regTotal d.val then
        smFind t.cad.dip.held d.val = some n ∧ smFind t.cad.dip.peerWord d.val = some word.toNat ∧
        (s.fld pgDIP f_VAR_DIP_CTRL_SHADOW_RUN = 0 → t.mem = (s.regsWrite d.val n data).mem ∧
          (s.regsFault d.val = none → t.fld pgDIP f_VAR_DIP_STATUS_LAST_SNAP = n % 65536) ∧
          (s.regsFault d.val ≠ none → t.mem = s.mem ∧ bitOf (t.word pgDIP hRAW) ev_dip_SNAP_DROPPED = true)) ∧
        (s.fld pgDIP f_VAR_DIP_CTRL_SHADOW_RUN = 1 → t.mem = s.mem ∧ smFind t.cad.dip.snaps d.val = some ⟨n, data⟩)
      else t.mem = s.mem ∧ t.cad = s.cad ∧ Raised pgDIP ev_dip_SNAP_DROPPED s t)) ∧
  (∀ (d : Fin 16) (x : Snap) (s : State), smFind s.cad.dip.snaps d.val = some x → ((s.dom d.val).getInst x.n).ended = true →
    Runs (.snapshotCompare d) s (fun t =>
      smFind t.cad.dip.snaps d.val = none ∧
      if s.regsRead d.val (((s.dom d.val).getInst x.n).chan.getD 0) = some x.data then
        t.mem = s.mem ∧ t.fld pgDIP f_VAR_DIP_STATUS_LAST_SNAP = x.n % 65536 ∧ WordsBut [(pgDIP, r_VAR_DIP_STATUS)] s t
      else t.mem = (s.regsWrite d.val x.n x.data).mem ∧ bitOf (t.word pgDIP hRAW) ev_dip_DIVERGED = true ∧
        (s.regsFault d.val = none → t.fld pgDIP f_VAR_DIP_STATUS_LAST_SNAP = x.n % 65536))) ∧
  (∀ (v : Word) (now : DWord) (d : Nat) (s : State), s.reaches 0 = true → RsvClear pgDIP r_VAR_DIP_CMD v → fldGet v f_VAR_DIP_CMD_KEY = 0x4450 →
    fldGet v f_VAR_DIP_CMD_CMD = 2 → s.running pgDIP = true → s.role = 3 → s.cad.dip.peerRole = 2 → s.handDomain = some d →
    Runs (.handover v now) s (fun t =>
      (t.cad.dip.hand, t.cad.dip.handAck) = (some ((s.at now.toNat).handInstance d), false) ∧ t.role = 3 ∧ WordsBut [] s t)) ∧
  (∀ (v : Word) (now : DWord) (s : State), s.reaches 0 = true → RsvClear pgDIP r_VAR_DIP_CMD v → fldGet v f_VAR_DIP_CMD_KEY ≠ 0x4450 →
    Runs (.handover v now) s (fun t => t.cad = s.cad ∧ Raised pgDIP evWRITE_DISCARDED s t)) ∧
  (∀ (v : Word) (now : DWord) (s : State), s.reaches 0 = true → RsvClear pgDIP r_VAR_DIP_CMD v → fldGet v f_VAR_DIP_CMD_KEY = 0x4450 →
    fldGet v f_VAR_DIP_CMD_CMD = 1 → s.running pgDIP = true → s.role = 0 →
    s.cad.dip.heardActive + 3 * (s.cad.dip.peerP + 25) * 1000 ≤ max s.time now.toNat →
    Runs (.takeActive v now) s (fun t =>
      t.role = 3 ∧ bitOf (t.word pgDIP hRAW) ev_dip_ROLE_CHANGE = true ∧
      (t.word pgDIP r_VAR_DIP_CNT_TAKEOVER).toNat = min ((s.word pgDIP r_VAR_DIP_CNT_TAKEOVER).toNat + 1) 0xFFFFFFFF)) ∧
  (∀ (s : State), s.reaches 0 = true →
    Runs .varDipPeerSerialRead s (fun t =>
      t.reply = s.wideOf pgDIP r_VAR_DIP_PEER_SERIAL_LO % 2 ^ 32 ∧
      t.word pgDIP r_VAR_DIP_PEER_SERIAL_HI = BitVec.ofNat 32 (s.wideOf pgDIP r_VAR_DIP_PEER_SERIAL_LO / 2 ^ 32) ∧
      WordsBut [(pgDIP, r_VAR_DIP_PEER_SERIAL_HI)] s t)) ∧
  (∀ (seq acked : Nat) (s : State), s.fld pgDIP f_VAR_DIP_STATUS_LINK = 2 →
    Runs (.diptychFrameReceive seq true false acked) s (fun t =>
      t.cad.dip.rxSeq = (if seq = s.cad.dip.rxSeq + 1 then seq else s.cad.dip.rxSeq) ∧
      t.regs = s.regs ∧ ∃ l, t.cad.dip.unacked = s.cad.dip.unacked.filter (fun f => decide (acked < f.seq)) ++ l ∧
        (s.cad.dip.queue = [] → l = []))) ∧
  (∀ (f : DipFrame) (rest : List DipFrame) (s : State), s.cad.dip.unacked = f :: rest → s.fld pgDIP f_VAR_DIP_STATUS_LINK = 2 →
    s.cad.dip.replays < 4 →
    Runs (.diptychRetryTimeout false) s (fun t =>
      t.cad.dip.replays = s.cad.dip.replays + 1 ∧ t.out = s.out ++ [⟨.diptych, 0, [f.kind, f.seq] ++ f.words, f.bytes⟩])) ∧
  (∀ (expired : Bool) (f : DipFrame) (rest : List DipFrame) (s : State), s.cad.dip.unacked = f :: rest → s.fld pgDIP f_VAR_DIP_STATUS_LINK = 2 →
    expired = true ∨ 4 ≤ s.cad.dip.replays →
    Runs (.diptychRetryTimeout expired) s (fun t => t.cad.dip.replays = 0 ∧ t.fld pgDIP f_VAR_DIP_STATUS_LINK = 1)) ∧
  (∀ (lane : Fin 3) (s : State), s.fld pgDIP f_VAR_DIP_STATUS_LINK ≠ 0 → s.fld pgDIP f_VAR_DIP_STATUS_SPARE_LANE = 0 →
    Runs (.diptychLaneSwap lane) s (fun t =>
      t.fld pgDIP f_VAR_DIP_STATUS_SPARE_LANE = 1 ∧ t.fld pgDIP f_VAR_DIP_STATUS_LINK = s.fld pgDIP f_VAR_DIP_STATUS_LINK)) ∧
  (∀ (partialSnap : Bool) (s : State), s.fld pgDIP f_VAR_DIP_STATUS_LINK ≠ 0 →
    Runs (.diptychLinkDown partialSnap) s (fun t =>
      t.fld pgDIP f_VAR_DIP_STATUS_LINK = 0 ∧ bitOf (t.word pgDIP hRAW) ev_dip_LINK_DOWN = true ∧
      (t.word pgDIP r_VAR_DIP_CNT_SNAP_DROP).toNat =
        (if partialSnap then min ((s.word pgDIP r_VAR_DIP_CNT_SNAP_DROP).toNat + 1) 0xFFFFFFFF else (s.word pgDIP r_VAR_DIP_CNT_SNAP_DROP).toNat) ∧
      t.cad = s.cad)) ∧
  (∀ (s : State), s.fld pgDIP f_VAR_DIP_STATUS_LINK = 0 →
    Runs .diptychLinkDownTimeout s (fun t =>
      (t.ledger pgDIP 0).held = 0 ∧ (t.ledger pgDIP 0).transit = 0 ∧
      (t.ledger pgDIP 0).free = (s.ledger pgDIP 0).free + (s.ledger pgDIP 0).held + (s.ledger pgDIP 0).transit ∧
      t.cad.dip.unacked = [] ∧ t.cad.dip.queue = [] ∧ t.cad.dip.sending = none)) ∧
  (∀ (s : State), s.fld pgDIP f_VAR_DIP_STATUS_LINK ≠ 2 → s.domainOn pgDIP = true →
    Runs .diptychLinkUp s (fun t =>
      t.fld pgDIP f_VAR_DIP_STATUS_LINK = 2 ∧ Raised pgDIP ev_dip_LINK_UP s t ∧
      (s.running pgDIP = true → s.cad.dip.keyed = true → s.cad.dip.queue = [] → (s.ledger pgDIP 0).free ≠ 0 →
        t.cad.dip.txSeq = s.cad.dip.txSeq + 1)))

/-- R290, R292, R300, R301: a write of STU_BANKn hands a bank over, or changes its guest; its end zeroes what another owner held; a march test
starts on a legal target, takes it out of use where it destroys, and ends with the failing words it found. -/
def Obligations.BanksHandOverAndMarchTestsRun : Prop :=
  (∀ (n : Fin 32) (v : Word) (o g : Nat) (s : State), s.reaches 0 = true → RsvClear pgSTU (r_STU_BANK n.val) v → s.running pgSTU = true →
    fldGet v (f_STU_BANK_OWNER n.val) = o → fldGet v (f_STU_BANK_GUEST n.val) = g → o ≤ 32 ∨ o = 0x3F → g ≤ 4 → s.bankState n.val = 0 →
    o ≠ s.fld pgSTU (f_STU_BANK_OWNER n.val) → o = 0x3F ∨ s.tenantRunning o = true →
    Runs (.bankHandover n v) s (fun t =>
      smFind t.mem.hand n.val = some ⟨o, g, false, false⟩ ∧ t.bankState n.val = 1 ∧
      t.fld pgSTU (f_STU_BANK_OWNER n.val) = s.fld pgSTU (f_STU_BANK_OWNER n.val) ∧
      t.ledger pgSTU 0 = (s.ledger pgSTU 0).move (if s.fld pgSTU (f_STU_BANK_OWNER n.val) = 0x3F then .free else .held) .transit 1 ∧
      t.mem.mem = s.mem.mem ∧ WordsBut [(pgSTU, r_STU_BANK n.val)] s t)) ∧
  (∀ (n : Fin 32) (v : Word) (o : Nat) (s : State), s.reaches 0 = true → RsvClear pgSTU (r_STU_BANK n.val) v →
    fldGet v (f_STU_BANK_OWNER n.val) = o →
    (32 < o ∧ o ≠ 0x3F) ∨ 4 < fldGet v (f_STU_BANK_GUEST n.val) ∨ s.bankState n.val ≠ 0 ∨
      (o ≠ 0x3F ∧ o ≠ s.fld pgSTU (f_STU_BANK_OWNER n.val) ∧ s.tenantRunning o = false) →
    Runs (.bankHandover n v) s (fun t =>
      t.mem = s.mem ∧ Raised pgSTU evWRITE_DISCARDED s t ∧ WordsBut [(pgSTU, hRAW), (pgSTU, hSETCOUNT)] s t)) ∧
  (∀ (n : Fin 32) (g : Fin 8) (o : Nat) (s : State), s.reaches 0 = true → s.running pgSTU = true → s.fld pgSTU (f_STU_BANK_OWNER n.val) = o →
    o ≤ 32 ∨ o = 0x3F → g.val ≤ 4 → s.bankState n.val = 0 → g.val ≠ s.fld pgSTU (f_STU_BANK_GUEST n.val) →
    Runs (.bankGuestChange n g) s (fun t =>
      smFind t.mem.hand n.val = some ⟨o, g.val, true, false⟩ ∧ t.bankState n.val = 1 ∧ t.mem.mem = s.mem.mem ∧
      WordsBut [(pgSTU, r_STU_BANK n.val)] s t)) ∧
  (∀ (n : Fin 32) (h : Handover) (old : Nat) (s : State), smFind s.mem.hand n.val = some h → h.owner < 64 → h.guest < 8 →
    s.fld pgSTU (f_STU_BANK_OWNER n.val) = old →
    Runs (.handoverDone n) s (fun t =>
      t.fld pgSTU (f_STU_BANK_OWNER n.val) = h.owner ∧ t.fld pgSTU (f_STU_BANK_GUEST n.val) = h.guest ∧ t.fld pgSTU (f_STU_BANK_STATE n.val) = 0 ∧
      smFind t.mem.hand n.val = none ∧ Raised pgSTU ev_stu_HANDOVER_DONE s t ∧
      (∀ a, cGet t.mem.mem a = if h.owner ≠ old ∧ old ≠ 0x3F ∧ studioBase + n.val * 0x400000 ≤ a ∧ a < studioBase + n.val * 0x400000 + 0x400000
        then 0 else cGet s.mem.mem a) ∧
      (h.reclaim = false →
        t.ledger pgSTU 0 = (s.ledger pgSTU 0).move .transit (if h.owner = 0x3F then .free else .held) 1))) ∧
  (∀ (tier : Fin 3) (v : Word) (pg : Nat) (d : Bool) (s : State), s.reaches 0 = true → RsvClear (tierPage tier.val) r_HBM_MARCH_CMD v →
    tierPage tier.val = pg → fldGet v f_HBM_MARCH_CMD_START = 1 → fldGet v f_HBM_MARCH_CMD_KEY = 0x4D43 → s.marchRefused tier.val = false →
    d = (s.fld pg f_HBM_MARCH_CTRL_MODE == 0) →
    Runs (.marchStart tier v) s (fun t =>
      smFind t.mem.march tier.val =
        some ⟨s.fld pg f_HBM_MARCH_BASE_BASE, s.fld pg f_HBM_MARCH_SIZE_FRAMES, d, s.fld pg f_HBM_MARCH_CTRL_RETIRE == 1⟩ ∧
      t.word pg r_HBM_MARCH_STATUS = 1#32 ∧
      (d = true → tier.val = 0 → t.bankState (s.fld pg f_HBM_MARCH_BASE_BASE) = 2 ∧
        t.ledger pgSTU 0 = (s.ledger pgSTU 0).move .free .transit 1) ∧
      (d = true → tier.val ≠ 0 → ∀ i < s.fld pg f_HBM_MARCH_SIZE_FRAMES,
        t.frameKind (tierFrame0 tier.val + s.fld pg f_HBM_MARCH_BASE_BASE + i) = kTEST) ∧
      (d = false → t.mem.fot = s.mem.fot) ∧ t.mem.mem = s.mem.mem)) ∧
  (∀ (tier : Fin 3) (v : Word) (pg : Nat) (s : State), s.reaches 0 = true → RsvClear (tierPage tier.val) r_HBM_MARCH_CMD v →
    tierPage tier.val = pg → fldGet v f_HBM_MARCH_CMD_START = 1 →
    fldGet v f_HBM_MARCH_CMD_KEY ≠ 0x4D43 ∨ s.marchRefused tier.val = true →
    Runs (.marchStart tier v) s (fun t =>
      t.mem = s.mem ∧ Raised pg evWRITE_DISCARDED s t ∧
      (fldGet v f_HBM_MARCH_CMD_KEY = 0x4D43 → t.fld pg f_HBM_MARCH_STATUS_REFUSED = 1) ∧
      (fldGet v f_HBM_MARCH_CMD_KEY ≠ 0x4D43 → t.word pg r_HBM_MARCH_STATUS = s.word pg r_HBM_MARCH_STATUS))) ∧
  (∀ (tier : Fin 3) (found fails : List Nat) (m : March) (pg : Nat) (s : State), smFind s.mem.march tier.val = some m →
    tierPage tier.val = pg → found.filter (marchIn tier.val m) = fails → fails.length < 65536 →
    Runs (.marchDone tier found) s (fun t =>
      smFind t.mem.march tier.val = none ∧ t.fld pg f_HBM_MARCH_STATUS_BUSY = 0 ∧ t.fld pg f_HBM_MARCH_STATUS_PROGRESS = 100 ∧
      t.fld pg f_HBM_MARCH_STATUS_FAILED = (if fails = [] then 0 else 1) ∧ t.fld pg f_HBM_MARCH_STATUS_FAILS = fails.length ∧
      (∀ a r, fails = a :: r → t.wideOf pg r_HBM_MARCH_FAIL_LO = a % 2 ^ 64) ∧
      Raised pg (if tier.val = 0 then ev_stu_MARCH_DONE else ev_hbm_MARCH_DONE) s t ∧
      (m.destructive = true → tier.val = 0 → m.base < 32 → t.fld pgSTU (f_STU_BANK_STATE m.base) = 0 ∧
        ∀ a, studioBase + m.base * 0x400000 ≤ a → a < studioBase + m.base * 0x400000 + 0x400000 → cGet t.mem.mem a = 0) ∧
      (m.destructive = true → tier.val ≠ 0 → ∀ i < m.frames,
        t.frameKind (tierFrame0 tier.val + m.base + i) =
          (if smGet false s.mem.badDue (tierFrame0 tier.val + m.base + i) then kBAD else kFREE) ∧
        ∀ a, frameBase (tierFrame0 tier.val + m.base + i) ≤ a → a < frameBase (tierFrame0 tier.val + m.base + i) + 0x200000 →
          cGet t.mem.mem a = 0) ∧
      (m.destructive = false → t.mem.mem = s.mem.mem ∧ t.mem.fot = s.mem.fot) ∧
      (m.retire = true → tier.val ≠ 0 → ∀ a ∈ fails, smFind s.mem.retired (a / 4096) = none →
        smGet false t.mem.retireDue (a / 4096) = true))) ∧
  (∀ (tier : Fin 3) (s : State), s.reaches 0 = true →
    Runs (.marchFailRead tier) s (fun t =>
      t.reply = s.wideOf (tierPage tier.val) r_HBM_MARCH_FAIL_LO % 2 ^ 32 ∧
      t.word (tierPage tier.val) r_HBM_MARCH_FAIL_HI = BitVec.ofNat 32 (s.wideOf (tierPage tier.val) r_HBM_MARCH_FAIL_LO / 2 ^ 32) ∧
      WordsBut [(tierPage tier.val, r_HBM_MARCH_FAIL_HI)] s t))

/-- R302 to R306: the Fresco ring's TAIL is taken while its slots suffice; a command is taken at HEAD while its page runs, and holds a slot;
one whose check fails moves nothing; READ, WRITE, TRIM and FLUSH do what they say; a finished command's slot is written and given back. -/
def Obligations.FrescoCommandsRunInOrder : Prop :=
  (∀ (v : Word) (s : State), s.reaches 0 = true → RsvClear pgFRS r_FRS_RING_TAIL v →
    Runs (.frescoRingTail v) s (fun t =>
      if (fldGet v f_FRS_RING_TAIL_TAIL + 65536 - s.fld pgFRS f_FRS_RING_HEAD_HEAD) % 65536 ≤ 2 ^ s.fld pgFRS f_FRS_RING_CFG_LOG2 then
        t.fld pgFRS f_FRS_RING_TAIL_TAIL = fldGet v f_FRS_RING_TAIL_TAIL ∧ WordsBut [(pgFRS, r_FRS_RING_TAIL)] s t
      else Raised pgFRS evWRITE_DISCARDED s t ∧ WordsBut [(pgFRS, hRAW), (pgFRS, hSETCOUNT)] s t)) ∧
  (∀ (c : Instr) (op st : Nat) (media : List Nat) (b : List Byte) (p : Bool) (s : State),
    (c, op) ∈ [(.frescoRead media, 1), (.frescoWrite, 2), (.frescoTrim, 3), (.frescoFlush, 4)] → s.running pgFRS = true →
    s.fld pgFRS f_FRS_RING_HEAD_HEAD ≠ s.fld pgFRS f_FRS_RING_TAIL_TAIL → s.mem.frsCmds.length < 64 →
    s.readDva (bareWho 0) (s.frsSlot (s.fld pgFRS f_FRS_RING_HEAD_HEAD)) 32 = .ok b p → leAt b 0 1 = op → s.frsStatus b = st → st ≠ 0 →
    Runs c s (fun t =>
      t.mem = { s.mem with frsCmds := s.mem.frsCmds ++ [⟨s.fld pgFRS f_FRS_RING_HEAD_HEAD, op, leAt b 1 1, leAt b 4 4, leAt b 8 8, leAt b 16 8,
        true, st, 0⟩] } ∧ WordsBut [(pgFRS, r_FRS_RING_HEAD)] s t)) ∧
  (∀ (media : List Nat) (b : List Byte) (p : Bool) (n : Nat) (s : State), s.running pgFRS = true →
    s.fld pgFRS f_FRS_RING_HEAD_HEAD ≠ s.fld pgFRS f_FRS_RING_TAIL_TAIL → s.mem.frsCmds.length < 64 →
    s.readDva (bareWho 0) (s.frsSlot (s.fld pgFRS f_FRS_RING_HEAD_HEAD)) 32 = .ok b p → leAt b 0 1 = 1 → s.frsStatus b = 0 → leAt b 4 4 = n →
    (∀ i < n, s.writeFault (bareWho 0) 0 (cuts (leAt b 16 8 + 4096 * i) 4096) = none) →
    Runs (.frescoRead media) s (fun t =>
      t.fld pgFRS f_FRS_RING_HEAD_HEAD = (s.fld pgFRS f_FRS_RING_HEAD_HEAD + 1) % 65536 ∧
      t.ledger pgFRS 0 = ((s.ledger pgFRS 0).move .free .held 1).move .held .transit 1 ∧
      (match (List.range n).find? (fun i => media.contains i || smGet false s.mem.flashBad (flashKey (leAt b 1 1) (leAt b 8 8 + i))) with
      | some i => t.mem.frsCmds = s.mem.frsCmds ++
          [⟨s.fld pgFRS f_FRS_RING_HEAD_HEAD, 1, leAt b 1 1, n, leAt b 8 8, leAt b 16 8, true, 4, i⟩] ∧
        smGet false t.mem.flashBad (flashKey (leAt b 1 1) (leAt b 8 8 + i)) = true ∧
        (t.word pgFRS r_FRS_CNT_MEDIA_UE).toNat ≠ 0
      | none => t.mem.frsCmds = s.mem.frsCmds ++
          [⟨s.fld pgFRS f_FRS_RING_HEAD_HEAD, 1, leAt b 1 1, n, leAt b 8 8, leAt b 16 8, true, 0, 0⟩] ∧
        (n = 1 → t.mem.mem = (s.writeDva (bareWho 0) (leAt b 16 8) (cRead s.mem.flash (flashAt (leAt b 1 1) (leAt b 8 8)) 4096)).mem.mem)))) ∧
  (∀ (b bs : List Byte) (p q : Bool) (n : Nat) (s : State), s.running pgFRS = true →
    s.fld pgFRS f_FRS_RING_HEAD_HEAD ≠ s.fld pgFRS f_FRS_RING_TAIL_TAIL → s.mem.frsCmds.length < 64 →
    s.readDva (bareWho 0) (s.frsSlot (s.fld pgFRS f_FRS_RING_HEAD_HEAD)) 32 = .ok b p → leAt b 0 1 = 2 → s.frsStatus b = 0 → leAt b 4 4 = n →
    s.readDva (bareWho 0) (leAt b 16 8) (n * 4096) = .ok bs q →
    Runs .frescoWrite s (fun t =>
      cRead t.mem.flash (flashAt (leAt b 1 1) (leAt b 8 8)) bs.length = bs ∧
      (∀ i < n, smGet false t.mem.flashBad (flashKey (leAt b 1 1) (leAt b 8 8 + i)) = false ∧
        (n ≤ i + 8192 → flashKey (leAt b 1 1) (leAt b 8 8 + i) ∈ t.mem.buffered)) ∧ t.mem.buffered.length ≤ max 8192 s.mem.buffered.length ∧
      t.wideOf pgFRS r_FRS_WRITTEN_GIB = (s.wideOf pgFRS r_FRS_WRITTEN_GIB + n * 4096) % 2 ^ 64 ∧
      t.mem.frsCmds = s.mem.frsCmds ++
        [⟨s.fld pgFRS f_FRS_RING_HEAD_HEAD, 2, leAt b 1 1, n, leAt b 8 8, leAt b 16 8, true, 0, 0⟩] ∧ t.mem.mem = s.mem.mem)) ∧
  (∀ (b : List Byte) (p : Bool) (n : Nat) (s : State), s.running pgFRS = true →
    s.fld pgFRS f_FRS_RING_HEAD_HEAD ≠ s.fld pgFRS f_FRS_RING_TAIL_TAIL → s.mem.frsCmds.length < 64 →
    s.readDva (bareWho 0) (s.frsSlot (s.fld pgFRS f_FRS_RING_HEAD_HEAD)) 32 = .ok b p → leAt b 0 1 = 3 → s.frsStatus b = 0 → leAt b 4 4 = n →
    Runs .frescoTrim s (fun t =>
      (∀ a, cGet t.mem.flash a = if flashAt (leAt b 1 1) (leAt b 8 8) ≤ a ∧ a < flashAt (leAt b 1 1) (leAt b 8 8) + n * 4096 then 0
        else cGet s.mem.flash a) ∧
      (∀ i < n, smGet false t.mem.flashBad (flashKey (leAt b 1 1) (leAt b 8 8 + i)) = false ∧
        flashKey (leAt b 1 1) (leAt b 8 8 + i) ∉ t.mem.buffered) ∧
      t.mem.frsCmds = s.mem.frsCmds ++
        [⟨s.fld pgFRS f_FRS_RING_HEAD_HEAD, 3, leAt b 1 1, n, leAt b 8 8, leAt b 16 8, true, 0, 0⟩])) ∧
  (∀ (b : List Byte) (p : Bool) (s : State), s.running pgFRS = true →
    s.fld pgFRS f_FRS_RING_HEAD_HEAD ≠ s.fld pgFRS f_FRS_RING_TAIL_TAIL → s.mem.frsCmds.length < 64 →
    s.readDva (bareWho 0) (s.frsSlot (s.fld pgFRS f_FRS_RING_HEAD_HEAD)) 32 = .ok b p → leAt b 0 1 = 4 → s.frsStatus b = 0 →
    Runs .frescoFlush s (fun t =>
      t.mem.buffered = [] ∧ t.mem.flash = s.mem.flash ∧
      t.mem.frsCmds = s.mem.frsCmds ++
        [⟨s.fld pgFRS f_FRS_RING_HEAD_HEAD, 4, leAt b 1 1, leAt b 4 4, leAt b 8 8, leAt b 16 8, true, 0, 0⟩])) ∧
  (∀ (c : Instr) (media : List Nat) (s : State), c ∈ [.frescoRead media, .frescoWrite, .frescoTrim, .frescoFlush] → s.running pgFRS = false →
    exec c s = .next s) ∧
  (∀ (slot : Fin 65536) (c : FrsCmd) (s : State), s.mem.frsCmds.find? (fun x => x.done && x.slot == slot.val) = some c →
    s.writeFault (bareWho 0) 0 (cuts (s.frsSlot c.slot + 24) 8) = none →
    Runs (.cmdDone slot) s (fun t =>
      t.mem = { ((s.writeDva (bareWho 0) (s.frsSlot c.slot + 24) (toLe 1 c.status ++ [0] ++ toLe 2 0 ++ toLe 4 c.detail)).writeDva (bareWho 0)
        (s.frsSlot c.slot + 25) [1]).mem with frsCmds := s.mem.frsCmds.filter (fun x => x != c) } ∧
      t.ledger pgFRS 0 = (s.ledger pgFRS 0).move .transit .free 1 ∧ Raised pgFRS ev_frs_CMD_DONE s t ∧
      WordsBut [(pgFRS, hRAW), (pgFRS, hSETCOUNT)] s t))

/-- R295 to R299: a piece that is due takes a free piece of its reserve, or its frame becomes BAD; clearing writes zeros over its tier; the
scrubber reads word by word and acts on what it finds by the kind of frame; a weight block under repair is rewritten. -/
def Obligations.StoresAreScrubbedRetiredAndRepaired : Prop :=
  (∀ (piece n : Nat) (loft : Bool) (s : State), smGet false s.mem.retireDue piece = true → loft = decide (loftBase ≤ piece * 4096) →
    s.reserveFree loft (pieceHome (piece * 4096)) = n →
    Runs (.pieceRetired piece) s (fun t =>
      smGet false t.mem.retireDue piece = false ∧ t.mem.mem = s.mem.mem ∧
      (n ≠ 0 → smFind t.mem.retired piece = some (reserveSize loft - n) ∧ t.mem.fot = s.mem.fot ∧
        bitOf (t.word (if loft then pgLFT else pgHBM) hRAW) ev_hbm_RETIRED = true ∧
        (t.word (if loft then pgLFT else pgHBM) (if loft then r_LFT_CNT_RETIRED else r_HBM_CNT_RETIRED)).toNat =
          min ((s.word (if loft then pgLFT else pgHBM) (if loft then r_LFT_CNT_RETIRED else r_HBM_CNT_RETIRED)).toNat + 1) 0xFFFFFFFF) ∧
      (n = 0 → t.mem.retired = s.mem.retired ∧ bitOf (t.word (if loft then pgLFT else pgHBM) hRAW) ev_hbm_RESERVE_EXHAUSTED = true ∧
        (s.frameKind (frameOf (piece * 4096)) = kFREE → t.frameKind (frameOf (piece * 4096)) = kBAD) ∧
        (s.frameKind (frameOf (piece * 4096)) ≠ kFREE → smGet false t.mem.badDue (frameOf (piece * 4096)) = true)))) ∧
  (∀ (piece : Nat) (s : State), smGet false s.mem.retireDue piece = false → exec (.pieceRetired piece) s = .next s) ∧
  (∀ (loft : Bool) (pg r lo hi : Nat) (s : State),
    (pg, r, lo, hi) = (if loft then (pgLFT, r_LFT_CLEAR, 0x8000000000, 0x10000000000) else (pgHBM, r_HBM_CLEAR, 0, 0x6000000000)) →
    bitOf (s.word pg r) 31 = false → s.pow.phase = .ready ∨ s.pow.phase = .released →
    Runs (.clearDone loft) s (fun t =>
      t.word pg r = 0x80000064#32 ∧ (∀ a, cGet t.mem.mem a = if lo ≤ a ∧ a < hi then 0 else cGet s.mem.mem a) ∧
      Raised pg ev_hbm_CLEAR_DONE s t ∧ WordsBut [(pg, r), (pg, hRAW), (pg, hSETCOUNT)] s t)) ∧
  (∀ (tier found : Fin 3) (syn : Byte) (now : DWord) (u v p q a : Nat) (s : State), s.running (tierPage tier.val) = true →
    smGet 0 s.mem.patrol tier.val = p → p / tierUnit tier.val = u →
    s.scrubUnit tier.val u (tierSize tier.val / tierUnit tier.val - u) = some v → q = (if v = u then p else v * tierUnit tier.val) →
    tierBase tier.val + q = a →
    Runs (.patrolScrub tier found syn now) s (fun t =>
      smGet 0 t.mem.patrol tier.val = (if q + 8 = tierSize tier.val then 0 else q + 8) ∧
      (found.val = 0 → t.mem.mem = s.mem.mem ∧ t.mem.poison = s.mem.poison ∧ t.flt = s.flt) ∧
      (found.val = 1 → t.mem.mem = s.mem.mem ∧ t.mem.poison = s.mem.poison ∧
        (t.word (storePage (storeOf a)) hCE).toNat = min ((s.word (storePage (storeOf a)) hCE).toNat + 1) 0xFFFFFFFF) ∧
      (found.val = 2 → tier.val = 1 → s.frameKind (frameOf a) = kTENANT →
        smGet false t.mem.poison (a / 8) = true ∧
        (t.word pgHBM r_HBM_CNT_PATROL_UE).toNat = min ((s.word pgHBM r_HBM_CNT_PATROL_UE).toNat + 1) 0xFFFFFFFF) ∧
      (found.val = 2 → tier.val = 1 → s.frameKind (frameOf a) = kWEIGHT → smGet false t.mem.repairs (a / 65536) = true) ∧
      (found.val = 2 → tier.val = 1 → s.frameKind (frameOf a) = kFREE →
        ∀ i < 64, cGet t.mem.mem (a / 64 * 64 + i) = 0 ∧ smGet false t.mem.poison ((a / 64 * 64 + i) / 8) = false))) ∧
  (∀ (addr : DWord) (syn : Byte) (now : DWord) (s : State), storeOf addr.toNat = .hbm → s.frameKind (frameOf addr.toNat) = kWEIGHT →
    Runs (.weightRepair addr syn now) s (fun t =>
      smGet false t.mem.repairs (addr.toNat / 65536) = true ∧ smGet false t.mem.poison (addr.toNat / 8) = true ∧
      (t.word pgHBM hUE).toNat = min ((s.word pgHBM hUE).toNat + 1) 0xFFFFFFFF)) ∧
  (∀ (k : Fin 8388608) (media : Bool) (now : DWord) (s0 : State) (s : State), smGet false s.mem.repairs k.val = true →
    s0 = { s.at now.toNat with mem := { s.mem with repairs := smSet false s.mem.repairs k.val false } } →
    Runs (.weightRepaired k media now) s (fun t =>
      smGet false t.mem.repairs k.val = false ∧
      (match if media then none else s0.refetch k.val with
      | none => (t.word pgSEC hUE).toNat = min ((s.word pgSEC hUE).toNat + 1) 0xFFFFFFFF ∧ t.mem.mem = s.mem.mem
      | some b => cRead t.mem.mem (k.val * 65536) b.length = b ∧ smGet false t.sec.tagBad k.val = false ∧
        Raised pgHBM ev_hbm_WEIGHT_REPAIRED s t ∧
        (t.word pgHBM r_HBM_CNT_WEIGHT_REPAIR).toNat = min ((s.word pgHBM r_HBM_CNT_WEIGHT_REPAIR).toNat + 1) 0xFFFFFFFF))) ∧
  (∀ (k : Fin 8388608) (media : Bool) (now : DWord) (s : State), smGet false s.mem.repairs k.val = false →
    exec (.weightRepaired k media now) s = .next s)

/-- R38, R421, R422, R426 to R430, R441: a page's error is counted and captured, the first one kept until cleared; a corrected one is counted for
the minute, a contained one opens a record; a record whose grace timer expires fences its page, latches it, or makes the error fatal; a
worn part is recorded. -/
def Obligations.ErrorsAreCapturedAndCollected : Prop :=
  (∀ (page : Fin 4096) (src : Fin 256) (addr : DWord) (syn : Word) (now : DWord) (k : PageKind) (s : State), pageKind page.val = k →
    errClass k src.val = 1 → k ≠ .stu → k ≠ .hbm → k ≠ .lft → s.pow.phase ≠ .off → s.fld page.val fERRVALID = 0 →
    (k = .var0 → s.channelsSettled) →
    Runs (.errorSignal page src addr syn now) s (fun t =>
      t.fld page.val fERRVALID = 1 ∧ t.fld page.val fERRSOURCE = src.val ∧ t.fld page.val fERRCLASS = 1 ∧
      t.word page.val hADDRLO = BitVec.ofNat 32 addr.toNat ∧ t.word page.val hADDRHI = BitVec.ofNat 32 (addr.toNat / 2 ^ 32) ∧
      t.word page.val hSYN = syn ∧ (t.word page.val hCE).toNat = min ((s.word page.val hCE).toNat + 1) 0xFFFFFFFF ∧
      bitOf (t.word page.val hRAW) evERROR_CAPTURED = true ∧
      (smGet false s.flt.wire (page.val * 4 + 1) = false → (smFind s.flt.ce (page.val * 256 + src.val)).isSome = true →
        smGet 0 t.flt.ce (page.val * 256 + src.val) = smGet 0 s.flt.ce (page.val * 256 + src.val) + 1))) ∧
  (∀ (page : Fin 4096) (src : Fin 256) (addr : DWord) (syn : Word) (now : DWord) (k : PageKind) (s : State), pageKind page.val = k →
    errClass k src.val = 1 → k ≠ .stu → k ≠ .hbm → k ≠ .lft → s.pow.phase ≠ .off → s.fld page.val fERRVALID = 1 →
    s.fld page.val fERRCLASS ≠ 0 → (k = .var0 → s.channelsSettled) →
    Runs (.errorSignal page src addr syn now) s (fun t =>
      t.fld page.val fERROVF = 1 ∧ t.fld page.val fERRMERGE = min (s.fld page.val fERRMERGE + 1) 255 ∧
      t.fld page.val fERRSOURCE = s.fld page.val fERRSOURCE ∧ t.word page.val hCLASS = s.word page.val hCLASS ∧
      t.word page.val hADDRLO = s.word page.val hADDRLO ∧ t.word page.val hADDRHI = s.word page.val hADDRHI ∧
      t.word page.val hSYN = s.word page.val hSYN)) ∧
  (∀ (page : Fin 4096) (src : Fin 256) (addr : DWord) (syn : Word) (now : DWord) (i : Nat) (s : State),
    pageKind page.val ∈ [.cnv, .hif0, .var0, .eas] → errClass (pageKind page.val) src.val = 2 → s.pow.phase ≠ .off →
    smGet false s.flt.wire (page.val * 4 + 2) = false → s.openRec page.val = none → smFresh s.flt.recs 0 64 = some i →
    (page.val = pgVAR0 → s.channelsSettled) →
    Runs (.errorSignal page src addr syn now) s (fun t =>
      smFind t.flt.recs i = some ⟨page.val, src.val, 2, 0, max s.time now.toNat, false, true, addr.toNat, syn.toNat,
        s.fld pgFLT f_FLT_GRACE_US⟩ ∧
      bitOf (t.word pgFLT hRAW) ev_flt_OPENED = true ∧
      (t.word page.val hUE).toNat = min ((s.word page.val hUE).toNat + 1) 0xFFFFFFFF)) ∧
  (∀ (i : Fin 64) (now : DWord) (r : FltRec) (s : State), smFind s.flt.recs i.val = some r → r.timer = true →
    r.opened + r.grace * 1000 ≤ max s.time now.toNat → r.page < 0x1000 → unfenceable r.page = false →
    s.st r.page = stRUNNING → pageKind r.page ≠ .pnl → s.channelsSettled →
    Runs (.escalated i now) s (fun t =>
      bitOf (t.word pgFLT hRAW) ev_flt_ESCALATED = true ∧
      (t.word pgFLT r_FLT_CNT_ESCALATED).toNat = min ((s.word pgFLT r_FLT_CNT_ESCALATED).toNat + 1) 0xFFFFFFFF ∧
      (if s.fld pgFLT f_FLT_RECOVERY_LIMIT ≤ (s.rcv r.page).inWindow then
        t.st r.page = stFAULT ∧ (t.rcv r.page).latched = true ∧ smFind t.flt.recs i.val = none
      else t.st r.page = stFENCED ∧ smFind t.flt.recs i.val = some { r with fenced := true, timer := false }))) ∧
  (∀ (i : Fin 64) (now : DWord) (r : FltRec) (s : State), smFind s.flt.recs i.val = some r → r.timer = true →
    r.opened + r.grace * 1000 ≤ max s.time now.toNat → unfenceable r.page = true →
    Runs (.escalated i now) s (fun t =>
      t.st r.page = stFAULT ∧ t.pow.noFatal = false ∧ bitOf (t.word pgFLT hRAW) ev_flt_FATAL = true ∧
      (∀ d < 16, t.st (pgCAD d) = stFAULT) ∧
      (s.word pgFLT r_FLT_FATAL_FIRST = 0#32 → t.word pgFLT r_FLT_FATAL_FIRST =
        BitVec.ofNat 32 (blkType (pageKind r.page) * 65536 + pageInstance r.page * 256 + r.source)) ∧
      smFind t.flt.recs i.val = none)) ∧
  (∀ (i : Fin 64) (now : DWord) (s : State),
    (∀ r, smFind s.flt.recs i.val = some r → r.timer = false ∨ max s.time now.toNat < r.opened + r.grace * 1000) →
    exec (.escalated i now) s = .next s) ∧
  (∀ (part : WearPart) (drift : Fin 65536) (ces day : Bool) (now : DWord) (limit : Nat) (s : State), s.pow.phase = .ready →
    10 * s.fld pgFLT f_FLT_WEAR_PERMILLE = limit → drift.val ≤ limit → ces = false ∨ (wearPlace part).1 ≠ 0 → day = false ∨ 2 * drift.val ≤ limit →
    exec (.wearMeasurement part drift ces day now) s = .next (s.at now.toNat)) ∧
  (∀ (p : Fin 128) (x : Fin 68) (drift : Fin 65536) (day : Bool) (now : DWord) (s : State), s.pow.phase = .ready →
    10 * s.fld pgFLT f_FLT_WEAR_PERMILLE < drift.val →
    Runs (.wearMeasurement (.core p x) drift false day now) s (fun t =>
      (t.word (pnlPage p.val) hCE).toNat = min ((s.word (pnlPage p.val) hCE).toNat + 1) 0xFFFFFFFF ∧
      (s.fld pgFLT f_FLT_ACTION_WEAR_AUTO = 1 → (s.panel p.val).freeSpares ≠ [] →
        (s.logicalOf p.val x.val).isSome = true → (s.panel p.val).coreOut.any (fun c => c.phys == x.val) = false →
        (t.panel p.val).coreOut = (s.panel p.val).coreOut ++ [⟨x.val, false, true⟩]) ∧
      (s.fld pgFLT f_FLT_ACTION_WEAR_AUTO = 0 → t.pan = s.pan)))

/-- R423 to R440, R443: broken pairs are polled, aggregators take over, open records are closed, errors are injected, the journals are written,
and the Easel pairs, the clock references and the ledgers are watched. -/
def Obligations.TheCollectorWatchesTheModule : Prop :=
  (∀ (page : Fin 4096) (cls : Fin 4) (k n : Nat) (s : State), page.val * 4 + cls.val = k → smGet false s.flt.wire k = true →
    s.pollCount page.val cls.val = n → (page.val = pgVAR0 → s.channelsSettled) →
    Runs (.wirePoll page cls) s (fun t =>
      smGet 0 t.flt.baseline k = s.pairCount page.val cls.val ∧ smGet 0 t.flt.otherUe k = 0 ∧
      (∀ e, cls.val = 1 → page.val * 256 + s.fld page.val fERRSOURCE = e → (smFind s.flt.ce e).isSome = true →
        smGet 0 t.flt.ce e = smGet 0 s.flt.ce e + n))) ∧
  (∀ (page : Fin 4096) (cls : Fin 4) (s : State), smGet false s.flt.wire (page.val * 4 + cls.val) = false → exec (.wirePoll page cls) s = .next s) ∧
  (∀ (i : Fin 2) (s : State), s.fld pgFLT (fAgg i.val) ≠ 2 → s.fld pgFLT (fAgg (1 - i.val)) ≠ 2 →
    Runs (.aggregatorCheckFail i) s (fun t =>
      t.fld pgFLT (fAgg i.val) = 2 ∧
      (s.fld pgFLT (fAgg i.val) = 0 → t.fld pgFLT (fAgg (1 - i.val)) = 0 ∧ bitOf (t.word pgFLT hRAW) ev_flt_AGG_SWITCH = true) ∧
      (s.fld pgFLT (fAgg i.val) ≠ 0 → t.fld pgFLT (fAgg (1 - i.val)) = s.fld pgFLT (fAgg (1 - i.val)) ∧
        (t.word pgFLT hCE).toNat = min ((s.word pgFLT hCE).toNat + 1) 0xFFFFFFFF))) ∧
  (∀ (i : Fin 2) (s : State), s.fld pgFLT (fAgg i.val) ≠ 2 → s.fld pgFLT (fAgg (1 - i.val)) = 2 →
    Runs (.aggregatorCheckFail i) s (fun t => t.fld pgFLT (fAgg i.val) = 2 ∧ ∀ p ∈ allPages, t.st p = stFAULT)) ∧
  (∀ (easel : Bool) (v : Word) (now : DWord) (s : State), easel = true ∨ s.reaches 0 = true → RsvClear pgFLT r_FLT_ACK v →
    Runs (.fltAck easel v now) s (fun t =>
      match smFind s.flt.recs (v.toNat % 64) with
      | some r => if r.fenced then t.flt = s.flt ∧ Raised pgFLT evWRITE_DISCARDED s t else smFind t.flt.recs (v.toNat % 64) = none
      | none => t.flt = s.flt ∧ Raised pgFLT evWRITE_DISCARDED s t)) ∧
  (∀ (now : DWord) (s : State), s.flt.window + s.fld pgFLT f_FLT_RECOVERY_WINDOW_S * 1000000000 ≤ max s.time now.toNat →
    Runs (.recoveryWindowExpiry now) s (fun t => t.flt.window = max s.time now.toNat ∧
      ∀ p, (t.rcv p).inWindow = 0 ∧
        ∀ r, smFind s.flt.rcv p = some r → r.recoveries ≠ 0 ∨ r.latched = true → t.rcv p = { r with inWindow := 0 })) ∧
  (∀ (now : DWord) (s : State), max s.time now.toNat < s.flt.window + s.fld pgFLT f_FLT_RECOVERY_WINDOW_S * 1000000000 →
    exec (.recoveryWindowExpiry now) s = .next s) ∧
  (∀ (v : Word) (p cls : Nat) (s : State), s.reaches 0 = true → RsvClear pgFLT r_FLT_INJECT v →
    pageOfId (s.fld pgFLT f_FLT_RCV_SEL_TYPE) (s.fld pgFLT f_FLT_RCV_SEL_INSTANCE) (s.fld pgFLT f_FLT_RCV_SEL_PAGE) = some p →
    fldGet v f_FLT_INJECT_KEY = 0x4649 → fldGet v f_FLT_INJECT_CLASS = cls → cls = 1 ∨ cls = 2 →
    errClass (pageKind p) (fldGet v f_FLT_INJECT_SOURCE) = cls → unfenceable p = false →
    (p = pgVAR0 → s.channelsSettled) →
    Runs (.fltInject v) s (fun t =>
      (t.word p (if cls = 1 then hCE else hUE)).toNat = min ((s.word p (if cls = 1 then hCE else hUE)).toNat + 1) 0xFFFFFFFF ∧
      (s.fld p fERRVALID = 0 → t.fld p fERRVALID = 1 ∧ t.fld p fERRSOURCE = fldGet v f_FLT_INJECT_SOURCE ∧ t.fld p fERRCLASS = cls))) ∧
  (∀ (v : Word) (s : State), s.reaches 0 = true → RsvClear pgFLT r_FLT_INJECT v →
    fldGet v f_FLT_INJECT_KEY ≠ 0x4649 ∨ fldGet v f_FLT_INJECT_CLASS = 0 ∨ fldGet v f_FLT_INJECT_CLASS = 3 ∨
      pageOfId (s.fld pgFLT f_FLT_RCV_SEL_TYPE) (s.fld pgFLT f_FLT_RCV_SEL_INSTANCE) (s.fld pgFLT f_FLT_RCV_SEL_PAGE) = none →
    Runs (.fltInject v) s (fun t =>
      t.flt = s.flt ∧ Raised pgFLT evWRITE_DISCARDED s t ∧ WordsBut [(pgFLT, hRAW), (pgFLT, hSETCOUNT)] s t)) ∧
  (∀ (now : DWord) (s : State), s.flt.lostDue = 0 → s.flt.queue.length + s.flt.ce.length < 256 →
    Runs (.ceSummary now) s (fun t =>
      t.flt.ce = [] ∧ t.flt.ceOver = 0 ∧
      t.flt.queue.map (fun r => (r.typ, r.page, r.source, r.detail)) =
        s.flt.queue.map (fun r => (r.typ, r.page, r.source, r.detail)) ++
          s.flt.ce.map (fun e => (logCE, e.1 / 256, e.1 % 256, [e.2])) ++
          (if s.flt.ceOver = 0 then [] else [(logCE, pgMOD, 0, [s.flt.ceOver])]))) ∧
  (∀ (s : State), Runs (.logFlush false false) s (fun t =>
    t.flt.queue = [] ∧ t.flt.beside = [] ∧
    (t.word pgFLT r_FLT_LOG_SEQ).toNat = ((s.word pgFLT r_FLT_LOG_SEQ).toNat +
      ((s.flt.beside ++ s.flt.queue).filter (fun r => decide (r.typ < 0x20))).length) % 2 ^ 32 ∧
    t.flt.spare.length = s.flt.spare.length + ((s.flt.beside ++ s.flt.queue).filter (fun r => decide (0x20 ≤ r.typ))).length ∧
    t.flt.spareSeq = s.flt.spareSeq + ((s.flt.beside ++ s.flt.queue).filter (fun r => decide (0x20 ≤ r.typ))).length)) ∧
  (∀ (failSpare : Bool) (s : State), (s.flt.beside ++ s.flt.queue).any (fun r => decide (r.typ < 0x20)) = true →
    Runs (.logFlush true failSpare) s (fun t =>
      (t.word pgFLT r_FLT_LOG_SEQ).toNat = ((s.word pgFLT r_FLT_LOG_SEQ).toNat / 64 + 1) * 64 % 2 ^ 32 ∧ t.flt.log = s.flt.log ∧
      (t.word pgFLT hUE).toNat = min ((s.word pgFLT hUE).toNat + 1) 0xFFFFFFFF)) ∧
  (∀ (s : State), Runs (.spareMapRetry false) s (fun t =>
    t.flt.queue = (s.flt.beside ++ s.flt.queue).filter (fun r => decide (r.typ < 0x20)) ∧ t.flt.log = s.flt.log ∧
    t.flt.spare.length = s.flt.spare.length + ((s.flt.beside ++ s.flt.queue).filter (fun r => decide (0x20 ≤ r.typ))).length)) ∧
  (∀ (s : State), Runs (.spareMapRetry true) s (fun t => t.flt.spare = s.flt.spare ∧ t.flt.queue = s.flt.beside ++ s.flt.queue)) ∧
  (∀ (pair : Fin 2) (s : State), s.fld pgEAS (fPair pair.val) ≠ 2 → s.fld pgEAS (fPair (1 - pair.val)) ≠ 2 →
    Runs (.lockstep pair) s (fun t =>
      t.fld pgEAS (fPair pair.val) = 2 ∧ t.fld pgEAS (fPair (1 - pair.val)) = 0 ∧ t.fld pgEAS f_EAS_STATUS_ACTIVE = 1 - pair.val ∧
      (s.fld pgEAS (fPair pair.val) = 0 → bitOf (t.word pgEAS hRAW) ev_eas_PAIR_SWITCH = true ∧
        (t.word pgEAS r_EAS_CNT_SWITCH).toNat = min ((s.word pgEAS r_EAS_CNT_SWITCH).toNat + 1) 0xFFFFFFFF))) ∧
  (∀ (c : Instr) (s : State), c ∈ [.pairLost, .watchdog] ∨ (∃ pair : Fin 2, c = .lockstep pair ∧ s.fld pgEAS (fPair pair.val) ≠ 2 ∧
      s.fld pgEAS (fPair (1 - pair.val)) = 2) → smGet false s.flt.wire (pgEAS * 4 + 3) = false →
    Runs c s (fun t => t.st pgEAS = stFAULT ∧ t.pow.noFatal = false ∧ bitOf (t.word pgFLT hRAW) ev_flt_FATAL = true ∧
      (t.word pgEAS hUE).toNat = min ((s.word pgEAS hUE).toNat + 1) 0xFFFFFFFF)) ∧
  (∀ (r : Nat) (s : State), s.fld pgFLT f_FLT_STATUS_CLOCK_REF = r → smGet false s.flt.refFailed (1 - r) = false →
    Runs .clockSwitch s (fun t =>
      t.fld pgFLT f_FLT_STATUS_CLOCK_REF = 1 - r ∧ smGet false t.flt.refFailed r = true ∧
      (t.word pgFLT hCE).toNat = min ((s.word pgFLT hCE).toNat + 1) 0xFFFFFFFF)) ∧
  (∀ (r : Nat) (s : State), s.fld pgFLT f_FLT_STATUS_CLOCK_REF = r → smGet false s.flt.refFailed (1 - r) = true →
    smGet false s.flt.refFailed r = false → smGet false s.flt.wire (pgFLT * 4 + 3) = false →
    Runs .clockSwitch s (fun t => smGet false t.flt.refFailed r = true ∧ t.st pgFLT = stFAULT ∧ t.pow.noFatal = false)) ∧
  (∀ (page : Fin 4096) (index : Fin 8) (s : State), (s.ledger page.val index.val).sums = true ∨ ledgerCount (pageKind page.val) ≤ index.val →
    exec (.ledgerCheck page index) s = .next s) ∧
  (∀ (page : Fin 4096) (index : Fin 8) (s : State), (s.ledger page.val index.val).sums = false → index.val < ledgerCount (pageKind page.val) →
    smGet false s.flt.wire (page.val * 4 + 3) = false →
    Runs (.ledgerCheck page index) s (fun t =>
      (s.word pgMOD r_MOD_LEDGER_FIRST_FAULT = 0#32 → t.word pgMOD r_MOD_LEDGER_FIRST_FAULT =
        BitVec.ofNat 32 (index.val * 2 ^ 24 + pageInstance page.val * 2 ^ 16 + blkType (pageKind page.val))) ∧
      (s.word pgMOD r_MOD_LEDGER_FIRST_FAULT ≠ 0#32 → t.word pgMOD r_MOD_LEDGER_FIRST_FAULT = s.word pgMOD r_MOD_LEDGER_FIRST_FAULT) ∧
      t.st page.val = stFAULT ∧ (t.word page.val hUE).toNat = min ((s.word page.val hUE).toNat + 1) 0xFFFFFFFF))

/-- R322, R324 to R326: a ring or a queue opens with fresh pointers where its configuration passes its tests, and is refused with the reason
otherwise; it closes on a write of ENABLE 0, a queue only while nothing names it; CQ_HEAD moves forward over records posted; a failed record
write is tried again; a raise held off is sent once. -/
def Obligations.RingsAndQueuesOpenAndClose : Prop :=
  (∀ (t : Fin 33) (r : Fin 64) (v w : Word) (pg i : Nat) (s : State), s.reaches t.val = true → ringPage t.val r.val = pg → r.val % 32 = i →
    RsvClear pg (r_RING_CFG i) v → s.ringOn t.val r.val = false → w = (v ||| 0x80000000#32) →
    Runs (.ringEnable t r v) s (fun u =>
      match s.ringRefusal t.val r.val w with
      | none => u.ringOn t.val r.val = true ∧ u.fld pg (f_RING_STATUS_ACTIVE i) = 1 ∧ u.word pg (r_RING_HEAD i) = 0#32 ∧
        u.word pg (r_RING_SEQ_H i) = 0#32 ∧ u.ring t.val r.val = ringReset ∧ u.fld pg (f_RING_CFG_LOG2 i) = fldGet v (f_RING_CFG_LOG2 i) ∧
        u.fld pg (f_RING_CFG_CQ i) = fldGet v (f_RING_CFG_CQ i) ∧
        WordsBut ([r_RING_CFG i, r_RING_STATUS i, r_RING_HEAD i, r_RING_SEQ_H i].map (fun x => (pg, x))) s u
      | some e => u.ringOn t.val r.val = false ∧ u.fld pg (f_RING_STATUS_REASON i) = e ∧ Raised pg ev_ringCfg_RING_REFUSED s u ∧
        u.ops.rings = s.ops.rings)) ∧
  (∀ (t : Fin 33) (r : Fin 64) (v : Word) (pg i : Nat) (s : State), s.reaches t.val = true → ringPage t.val r.val = pg → r.val % 32 = i →
    RsvClear pg (r_RING_CFG i) v → s.ringOn t.val r.val = true → (s.word pg (r_RING_CFG i) &&& 0x403F001F#32) ≠ v &&& 0x403F001F#32 →
    Runs (.ringEnable t r v) s (fun u =>
      u.word pg (r_RING_CFG i) = s.word pg (r_RING_CFG i) ∧ Raised pg evWRITE_DISCARDED s u ∧
      WordsBut [(pg, hRAW), (pg, hSETCOUNT)] s u)) ∧
  (∀ (t : Fin 33) (r : Fin 64) (pg i : Nat) (s : State), s.reaches t.val = true → ringPage t.val r.val = pg → r.val % 32 = i →
    s.ringOn t.val r.val = true →
    Runs (.ringDisable t r) s (fun u =>
      u.ringOn t.val r.val = false ∧ u.fld pg (f_RING_STATUS_ACTIVE i) = 0 ∧ u.fld pg (f_RING_STATUS_TAG_WAIT i) = 0 ∧
      WordsBut [(pg, r_RING_CFG i), (pg, r_RING_STATUS i)] s u)) ∧
  (∀ (t : Fin 33) (q : Fin 64) (v w : Word) (s : State), s.reaches t.val = true → RsvClear (cqPg t.val) (r_CQ_CFG q.val) v →
    s.cqOn t.val q.val = false → w = (v ||| 0x80000000#32) →
    Runs (.cqEnable t q v) s (fun u =>
      match s.cqRefusal t.val q.val w with
      | none => u.cqOn t.val q.val = true ∧ u.word (cqPg t.val) (r_CQ_HEAD q.val) = 0#32 ∧
        u.cq t.val q.val = ⟨0, (s.cq t.val q.val).due, false, false, false⟩ ∧
        WordsBut [(cqPg t.val, r_CQ_CFG q.val), (cqPg t.val, r_CQ_HEAD q.val)] s u
      | some e => u.cqOn t.val q.val = false ∧ u.word (cqPg t.val) r_CQ_REFUSE = BitVec.ofNat 32 (2 ^ 31 + q.val * 65536 + e * 256) ∧
        Raised (cqPg t.val) ev_cqPage_CQ_REFUSED s u ∧ u.ops.cqs = s.ops.cqs)) ∧
  (∀ (t : Fin 33) (q : Fin 64) (s : State), s.reaches t.val = true → s.cqOn t.val q.val = true →
    Runs (.cqDisable t q) s (fun u =>
      if s.cqNamed t.val q.val then u.cqOn t.val q.val = true ∧ Raised (cqPg t.val) evWRITE_DISCARDED s u
      else u.cqOn t.val q.val = false ∧ WordsBut [(cqPg t.val, r_CQ_CFG q.val)] s u)) ∧
  (∀ (t : Fin 33) (q : Fin 64) (v : Word) (h : Nat) (s : State), s.reaches t.val = true → (s.word (cqPg t.val) (r_CQ_HEAD q.val)).toNat = h →
    Runs (.cqHeadWrite t q v) s (fun u =>
      if s.cqOn t.val q.val = true ∧ (v.toNat + 2 ^ 32 - h) % 2 ^ 32 ≤ ((s.cq t.val q.val).posted + 2 ^ 32 - h) % 2 ^ 32 then
        u.word (cqPg t.val) (r_CQ_HEAD q.val) = v ∧ WordsBut [(cqPg t.val, r_CQ_HEAD q.val)] s u
      else Raised (cqPg t.val) evWRITE_DISCARDED s u ∧ WordsBut [(cqPg t.val, hRAW), (cqPg t.val, hSETCOUNT)] s u)) ∧
  (∀ (t : Fin 33) (q : Fin 64) (r : CRec) (rest : List CRec) (a : Nat) (w : Who) (s : State), (s.cq t.val q.val).due = r :: rest →
    (s.cq t.val q.val).failed = true → s.cqOn t.val q.val = true → s.running (cqPg t.val) = true → s.cqFull t.val q.val = false →
    s.cqSlot t.val q.val (s.cq t.val q.val).posted = a → w = { bareWho t.val with tag := r.tag, opcode := r.opcode } →
    Runs (.cqWriteRetry t q) s (fun u =>
      match s.writeFault w 0 (cuts a 32) with
      | none => (u.cq t.val q.val).due = rest ∧ (u.cq t.val q.val).posted = ((s.cq t.val q.val).posted + 1) % 2 ^ 32 ∧
        (u.cq t.val q.val).failed = false
      | some _ => u = s)) ∧
  (∀ (t : Fin 33) (q : Fin 64) (s : State), (s.cq t.val q.val).failed = false → exec (.cqWriteRetry t q) s = .next s) ∧
  (∀ (t : Fin 33) (q : Fin 64) (c : Cq) (s : State), s.cq t.val q.val = c →
    Runs (.holdoffEnd t q) s (fun u =>
      (c.holdoff = false → u = s) ∧
      (c.holdoff = true → c.raiseDue = false → u.cq t.val q.val = { c with holdoff := false } ∧ u.out = s.out) ∧
      (c.holdoff = true → c.raiseDue = true →
        u.cq t.val q.val = { c with holdoff := s.fld (cqPg t.val) (f_CQ_CFG_HOLDOFF_US q.val) != 0, raiseDue := false } ∧
        u.out = s.out ++ [⟨.msix, t.val, [s.fld (cqPg t.val) (f_CQ_CFG_VECTOR q.val)], []⟩])))

/-- R314, R327 to R330: the MMU takes one command at a time; MAP claims FREE frames and adds leaves, UNMAP removes them and frees frames,
SET_WINDOW and CLEAR_WINDOW give a tenant its window and take it away; a fault is popped by its read; a completion brings a line of host
memory. -/
def Obligations.MmuMapsAndHostLinesArrive : Prop :=
  (∀ (c : Instr) (s : State), c ∈ [.mmuMap, .mmuUnmap, .setWindow, .clearWindow] → s.reaches 0 = true → s.mmuBusy = true →
    Runs c s (fun t => Raised pgMMU evWRITE_DISCARDED s t ∧ t.hif.leaves = s.hif.leaves ∧ t.hif.window = s.hif.window ∧ t.hif.cmd = s.hif.cmd ∧
      WordsBut [(pgMMU, hRAW), (pgMMU, hSETCOUNT)] s t)) ∧
  (∀ (c : MmuCmd) (s : State), s.reaches 0 = true → s.mmuBusy = false → s.mmuRegs 1 = c →
    Runs .mmuMap s (fun t =>
      t.word pgMMU r_MMU_RESULT = BitVec.ofNat 32 (s.mapResult c * 16) ∧ bitOf (t.word pgMMU hRAW) ev_mmu_CMD_DONE = true ∧
      (s.mapResult c ≠ mrOK → t.hif.leaves = s.hif.leaves ∧ t.mem.fot = s.mem.fot) ∧
      (s.mapResult c = mrOK → (∀ i < c.count, smFind t.hif.leaves (c.tenant * 0x100000000 + (c.dva + i * c.size) / 0x10000) =
          some ⟨c.big, c.host, c.target + i * c.size, c.rd, c.wr, false⟩) ∧
        (c.host = false → ∀ f ∈ framesOf c.target c.len, s.frameKind f = kFREE → t.frameKind f = kTENANT ∧ t.frameTenant f = c.tenant)))) ∧
  (∀ (c : MmuCmd) (s : State), s.reaches 0 = true → s.mmuBusy = false → s.mmuRegs 2 = c →
    Runs .mmuUnmap s (fun t =>
      t.word pgMMU r_MMU_RESULT = BitVec.ofNat 32 (s.unmapResult c * 16) ∧ bitOf (t.word pgMMU hRAW) ev_mmu_CMD_DONE = true ∧
      (s.unmapResult c ≠ mrOK → t.hif.leaves = s.hif.leaves ∧ t.mem.fot = s.mem.fot) ∧
      (s.unmapResult c = mrOK → (∀ k ∈ c.keys, smFind t.hif.leaves k = none) ∧
        (∀ k, k ∉ c.keys → smFind t.hif.leaves k = smFind s.hif.leaves k) ∧
        (∀ k l f, k ∈ c.keys → smFind s.hif.leaves k = some l → l.host = false →
          f ∈ framesOf l.target (if l.big then 0x200000 else 0x10000) → s.frameKind f = kTENANT → s.frameTenant f = c.tenant →
          t.frameMapped c.tenant f = false → smGet false s.mem.badDue f = false → t.frameKind f = kFREE)))) ∧
  (∀ (c : MmuCmd) (s : State), s.reaches 0 = true → s.mmuBusy = false → s.mmuRegs 3 = c →
    Runs .setWindow s (fun t =>
      t.word pgMMU r_MMU_RESULT = BitVec.ofNat 32 (s.windowResult c * 16) ∧ bitOf (t.word pgMMU hRAW) ev_mmu_CMD_DONE = true ∧
      t.hif.window = (if s.windowResult c = mrOK then smPut s.hif.window c.tenant c.dva else s.hif.window))) ∧
  (∀ (c : MmuCmd) (s : State), s.reaches 0 = true → s.mmuBusy = false → s.mmuRegs 4 = c →
    Runs .clearWindow s (fun t =>
      t.hif.window = s.hif.window ∧
      (if s.mmuState c.tenant ≠ mrOK then t.word pgMMU r_MMU_RESULT = BitVec.ofNat 32 (s.mmuState c.tenant * 16) ∧ t.hif.cmd = s.hif.cmd
       else if smFind s.hif.window c.tenant = none then t.word pgMMU r_MMU_RESULT = BitVec.ofNat 32 (mrNOTMAPPED * 16) ∧ t.hif.cmd = s.hif.cmd
       else t.fld pgMMU f_MMU_RESULT_BUSY = 1 ∧ t.hif.cmd = some c ∧ smGet false t.hif.clearing c.tenant = true))) ∧
  (∀ (c : MmuCmd) (s : State), s.hif.cmd = some c →
    Runs .clearWindowRemove s (fun t =>
      if s.ops.ops.any (fun e => e.2.tenant == c.tenant && e.2.windowed && e.2.phase == .issued) then t = s
      else smFind t.hif.window c.tenant = none ∧ t.hif.cmd = none ∧ smGet false t.hif.clearing c.tenant = false ∧
        t.word pgMMU r_MMU_RESULT = 0#32 ∧ bitOf (t.word pgMMU hRAW) ev_mmu_CMD_DONE = true)) ∧
  (∀ (s : State), s.hif.cmd = none → exec .clearWindowRemove s = .next s) ∧
  (∀ (t : Fin 33) (q : List MmuFault) (s : State), s.reaches t.val = true → smGet [] s.hif.faults t.val = q →
    Runs (.mmuFaultPop t) s (fun u => u.reply = faultInfo q ∧ smGet [] u.hif.faults t.val = q.tail ∧ WordsBut [] s u)) ∧
  (∀ (t : Fin 33) (f : MmuFault) (q : List MmuFault) (s : State), s.reaches t.val = true → smGet [] s.hif.faults t.val = f :: q →
    Runs (.mmuFaultDvaRead t) s (fun u => u.reply = f.dva % 2 ^ 32 ∧
      u.word (tenantPage t.val 10) r_MMU_T_FAULT_DVA_HI = BitVec.ofNat 32 (f.dva / 2 ^ 32) ∧ u.hif = s.hif)) ∧
  (∀ (t : Fin 33) (line : Nat) (b : List Byte) (p : Bool) (s : State),
    Runs (.hostCompletion t line (if p then .poisoned b else .data b)) s (fun u =>
      (∀ a, cGet u.mem.host a = if line * 64 ≤ a ∧ a < line * 64 + 64 then b.getD (a - line * 64) 0#8 else cGet s.mem.host a) ∧
      smGet false u.mem.hostErr line = false ∧ smGet false u.mem.hostPoison line = p ∧ u.mem.mem = s.mem.mem ∧
      (u.word pgHIF0 hUE).toNat = (if p then min ((s.word pgHIF0 hUE).toNat + 1) 0xFFFFFFFF else (s.word pgHIF0 hUE).toNat))) ∧
  (∀ (c : Instr) (t : Fin 33) (line : Nat) (s : State), c ∈ [.hostCompletion t line .error, .hostCompletionTimeout line] →
    exec c s = .next { s with mem := { s.mem with hostErr := smSet false s.mem.hostErr line true } })

/-- R312, R315, R316, R318, R319, R331, R332, R335, R336: a tenant's enable starts its check and its disable its drain; a check ends RUNNING or
REFUSED; a drained tenant leaves nothing behind; a function-level reset, VF Enable cleared, an IDE stream that fails and configuration writes
disable what they must. -/
def Obligations.TenantsAndFunctionsComeAndGo : Prop :=
  (∀ (t : Fin 64) (now : DWord) (s : State), s.reaches 0 = true → t.val ≤ 32 →
    (s.tenant t.val).state = stOFF ∨ (s.tenant t.val).state = stREFUSED → (s.tenant t.val).tdi ≠ 3 →
    Runs (.tenantEnable t now) s (fun u =>
      u.tenant t.val = { s.tenant t.val with state := stCHECKING, reason := 0, detail := 0, order := s.hif.orders + 1 } ∧
      u.st (tenantPage t.val 0) = stCHECKING ∧ u.fld (tenantPage t.val 0) fENABLE = 1 ∧ bitOf (u.word pgTEN hRAW) ev_hifTen_TENANT_STATE = true)) ∧
  (∀ (t : Fin 64) (now : DWord) (s : State), s.reaches 0 = true →
    32 < t.val ∨ ((s.tenant t.val).state ≠ stOFF ∧ (s.tenant t.val).state ≠ stREFUSED) ∨ (s.tenant t.val).tdi = 3 →
    Runs (.tenantEnable t now) s (fun u => u.hif.tenants = s.hif.tenants ∧ Raised pgTEN evWRITE_DISCARDED s u ∧
      WordsBut [(pgTEN, hRAW), (pgTEN, hSETCOUNT)] s u)) ∧
  (∀ (t : Fin 64) (now : DWord) (s : State), s.reaches 0 = true → t.val ≤ 32 → (s.tenant t.val).tdi = 0 → s.tenantDependants t.val = false →
    (s.tenant t.val).state = stRUNNING ∨ (s.tenant t.val).state = stCHECKING →
    Runs (.tenantDisable t now) s (fun u =>
      if (s.tenant t.val).state = stCHECKING then (u.tenant t.val).state = stOFF
      else (u.tenant t.val).state = stQUIESCING ∧ (u.tenant t.val).quietFrom = max s.time now.toNat ∧ u.st (tenantPage t.val 0) = stQUIESCING)) ∧
  (∀ (t : Fin 64) (now : DWord) (s : State), s.reaches 0 = true →
    32 < t.val ∨ ((s.tenant t.val).state ≠ stRUNNING ∧ (s.tenant t.val).state ≠ stCHECKING) ∨ s.tenantDependants t.val = true →
    Runs (.tenantDisable t now) s (fun u => u.hif.tenants = s.hif.tenants ∧ Raised pgTEN evWRITE_DISCARDED s u ∧
      WordsBut [(pgTEN, hRAW), (pgTEN, hSETCOUNT)] s u)) ∧
  (∀ (t : Fin 33) (now : DWord) (s : State), (s.tenant t.val).state = stCHECKING →
    Runs (.enableCheckEnd (.tenant t) now) s (fun u =>
      match (s.at now.toNat).tenantCheck t.val with
      | none => (u.tenant t.val).state = stRUNNING ∧ (u.tenant t.val).held = s.allocCount t.val
      | some (r, d) => (u.tenant t.val).state = stREFUSED ∧ (u.tenant t.val).reason = r ∧ (u.tenant t.val).detail = d)) ∧
  (∀ (t : Fin 33) (now : DWord) (s : State), (s.tenant t.val).state = stQUIESCING → (s.at now.toNat).tenDrained t.val = true →
    Runs (.tenantQuiet t now) s (fun u =>
      (u.tenant t.val).state = stOFF ∧ (u.tenant t.val).held = 0 ∧ smFind u.hif.window t.val = none ∧
      (∀ e ∈ u.hif.leaves, e.1 / 0x100000000 ≠ t.val) ∧ (∀ f, u.frameKind f = kTENANT → u.frameTenant f ≠ t.val) ∧
      (∀ n < 32, u.fld pgSTU (f_STU_BANK_OWNER n) ≠ t.val) ∧ (∀ i < 64, u.ringOn t.val i = false ∧ u.cqOn t.val i = false) ∧
      (∀ e ∈ u.pan.saved, e.1 % 64 ≠ t.val))) ∧
  (∀ (t : Fin 33) (now : DWord) (s : State), (s.tenant t.val).state ≠ stQUIESCING ∨ (s.at now.toNat).tenDrained t.val = false →
    exec (.tenantQuiet t now) s = .next (s.at now.toNat)) ∧
  (∀ (vf : Fin 32) (now : DWord) (t : Nat) (s : State), s.pow.phase = .ready → s.hif.linkUp = true → s.hif.vfEnable = true →
    vf.val + 1 ≤ s.hif.numVfs → vf.val + 1 = t →
    Runs (.flr vf now) s (fun u =>
      (u.word pgHIF0 r_HIF_CNT_FLR).toNat = min ((s.word pgHIF0 r_HIF_CNT_FLR).toNat + 1) 0xFFFFFFFF ∧
      smGet false u.hif.bme t = false ∧ smGet false u.hif.mse t = false ∧ smGet false u.hif.d3 t = false ∧
      (u.tenant t).state ≠ stRUNNING ∧ (u.tenant t).state ≠ stCHECKING ∧
      (∀ k < 11, ∀ w < 1024, k ≠ 0 ∨ (w ≠ hCTRL ∧ w ≠ hSTATE) → u.word (tenantPage t k) w = resetWord (tenantPage t k) w))) ∧
  (∀ (now : DWord) (s : State), s.pow.phase = .ready → s.hif.linkUp = true →
    Runs (.vfEnableClear now) s (fun u => u.hif.vfEnable = false ∧
      ∀ t, 1 ≤ t → t ≤ 32 → (u.tenant t).state ≠ stRUNNING ∧ (u.tenant t).state ≠ stCHECKING ∧ (u.tenant t).tdi ≠ 1 ∧ (u.tenant t).tdi ≠ 2)) ∧
  (∀ (fn : Fin 33) (s : State), s.pow.phase = .ready → s.hif.linkUp = true →
    Runs (.d3hotEntry fn) s (fun u => smGet false u.hif.d3 fn.val = true ∧ (∀ f, f ≠ fn.val → smGet false u.hif.d3 f = smGet false s.hif.d3 f) ∧
      u.hif.tenants = s.hif.tenants ∧ WordsBut [] s u)) ∧
  (∀ (c : Instr) (fn : Fin 33) (vf : Fin 32) (now : DWord) (w : CfgWrite) (s : State), s.pow.phase ≠ .ready ∨ s.hif.linkUp = false →
    (c = .d3hotEntry fn → exec c s = .next s) ∧
    (c ∈ [.flr vf now, .vfEnableClear now, .pciConfigWrite w now] → exec c s = .next (s.at now.toNat))) ∧
  (∀ (fn : Fin 33) (mse bme : Bool) (now : DWord) (s : State), s.pow.phase = .ready → s.hif.linkUp = true →
    Runs (.pciConfigWrite (.command fn mse bme) now) s (fun u =>
      smGet false u.hif.mse fn.val = mse ∧ smGet false u.hif.bme fn.val = bme ∧
      (smGet false s.hif.mse fn.val = true → mse = false → fn.val ≠ 0 → (u.tenant fn.val).tdi ≠ 1 ∧ (u.tenant fn.val).tdi ≠ 2) ∧
      (mse = true → u.hif.tenants = s.hif.tenants))) ∧
  (∀ (en mse : Bool) (num : Fin 33) (now : DWord) (s : State), s.pow.phase = .ready → s.hif.linkUp = true →
    Runs (.pciConfigWrite (.vfControl en mse num) now) s (fun u =>
      u.hif.vfEnable = en ∧ u.hif.numVfs = (if s.hif.vfEnable then s.hif.numVfs else num.val) ∧
      (s.hif.vfEnable = true → en = false → ∀ t, 1 ≤ t → t ≤ 32 → (u.tenant t).state ≠ stRUNNING ∧ (u.tenant t).state ≠ stCHECKING))) ∧
  (∀ (fn : Fin 33) (n : Fin 6) (v now : DWord) (s : State), s.pow.phase = .ready → s.hif.linkUp = true →
    Runs (.pciConfigWrite (.bar fn n v) now) s (fun u => smGet 0 u.hif.bars (barKey fn.val n.val) = v.toNat ∧ u.hif.tenants = s.hif.tenants) ∧
    Runs (.pciConfigWrite (.vfBar n v) now) s (fun u => smGet 0 u.hif.bars (vfBarKey n.val) = v.toNat ∧
      (smGet 0 s.hif.bars (vfBarKey n.val) = v.toNat → u.hif.tenants = s.hif.tenants) ∧
      (smGet 0 s.hif.bars (vfBarKey n.val) ≠ v.toNat → ∀ t, 1 ≤ t → t ≤ 32 → (u.tenant t).tdi ≠ 1 ∧ (u.tenant t).tdi ≠ 2))) ∧
  (∀ (fn : Fin 33) (off : Fin 4096) (d3 : Bool) (v : Word) (now : DWord) (s : State), s.pow.phase = .ready → s.hif.linkUp = true →
    Runs (.pciConfigWrite (.other fn off v) now) s (fun u => smGet 0 u.hif.cfg (fn.val * 4096 + off.val) = v.toNat ∧ u.hif.tenants = s.hif.tenants) ∧
    Runs (.pciConfigWrite (.power fn d3) now) s (fun u => smGet false u.hif.d3 fn.val = d3 ∧ u.hif.tenants = s.hif.tenants)) ∧
  (∀ (stream : Fin 34) (now : DWord) (s : State), smGet 0 s.hif.ide stream.val ≠ 1 →
    Runs (.ideFail stream now) s (fun u => u.hif.ide = s.hif.ide ∧ u.hif.tenants = s.hif.tenants ∧
      (u.word pgHIF0 hUE).toNat = min ((s.word pgHIF0 hUE).toNat + 1) 0xFFFFFFFF)) ∧
  (∀ (stream : Fin 34) (now : DWord) (s : State), smGet 0 s.hif.ide stream.val = 1 →
    Runs (.ideFail stream now) s (fun u => smGet 0 u.hif.ide stream.val = 2 ∧
      ∀ e ∈ s.sec.bound, e.2 = stream.val → (u.tenant e.1).tdi ≠ 1 ∧ (u.tenant e.1).tdi ≠ 2))

/-- R376 to R385: a frame that an interface cannot take is dropped and counted; a packet goes to the stream it matches; a leader begins a frame,
a payload adds its bytes, a trailer or a timeout ends it, and the policies decide what becomes of it; RTP packets are taken in sequence; ARP
and PTP are answered; a stream's words come into force at a frame boundary. -/
def Obligations.IngestTakesPacketsIntoFrames : Prop :=
  (∀ (c : Instr) (i : Fin 4) (dst : Word) (port : Fin 65536) (ext : Bool) (p : GvspPkt) (r : RtpPkt) (raw : List Byte) (tgt : Word)
    (now : DWord) (s : State), s.ifUp i.val = false →
    c ∈ [.gvspPacket i dst port ext p now, .rtpPacket i dst port r now, .rawPacket i raw now, .arpRequest i tgt] → exec c s = .next s) ∧
  (∀ (i : Fin 4) (len : Fin 65536) (fcs : Bool) (tags : Fin 8) (b : EthBody) (now : DWord) (s : State), s.ifUp i.val = true →
    fcs = false ∨ 9216 < len.val ∨ 1 < tags.val ∨ b = .unknown →
    Runs (.ethernetFrame i len fcs tags b now) s (fun t =>
      (t.word pgING (r_ING_IF_CNT_DROP i.val)).toNat = min ((s.word pgING (r_ING_IF_CNT_DROP i.val)).toNat + 1) 0xFFFFFFFF ∧
      t.ing = s.ing ∧ WordsBut [(pgING, r_ING_IF_CNT_DROP i.val)] s t)) ∧
  (∀ (i : Fin 4) (len : Fin 65536) (tags : Fin 8) (dst : Word) (port : Fin 65536) (ext udp : Bool) (p : GvspPkt) (r : RtpPkt) (raw : List Byte)
    (dom : Fin 256) (m : PtpMsg) (now : DWord) (s : State), s.ifUp i.val = true → len.val ≤ 9216 → tags.val ≤ 1 →
    exec (.ethernetFrame i len true tags (.gvsp dst port ext p) now) s = exec (.gvspPacket i dst port ext p now) s ∧
    exec (.ethernetFrame i len true tags (.rtp dst port r) now) s = exec (.rtpPacket i dst port r now) s ∧
    exec (.ethernetFrame i len true tags (.raw raw) now) s = exec (.rawPacket i raw now) s ∧
    exec (.ethernetFrame i len true tags (.ptp udp dom m) now) s = exec (.ptpMessage i udp dom m now) s) ∧
  (∀ (i : Fin 4) (dst : Word) (port : Fin 65536) (ext : Bool) (p : GvspPkt) (now : DWord) (s : State), s.ifUp i.val = true →
    s.udpStream i.val dst.toNat port.val = none →
    Runs (.gvspPacket i dst port ext p now) s (fun t =>
      (t.word pgING (r_ING_IF_CNT_DROP i.val)).toNat = min ((s.word pgING (r_ING_IF_CNT_DROP i.val)).toNat + 1) 0xFFFFFFFF ∧ t.ing = s.ing)) ∧
  (∀ (i : Fin 4) (dst : Word) (port : Fin 65536) (ext : Bool) (block now : DWord) (fmt : Fin 8) (lw lh : Fin 65536) (n : Nat) (c : List Nat)
    (s : State), s.ifUp i.val = true → s.udpStream i.val dst.toNat port.val = some (n, c) → icProto c = 0 → fmt.val < 6 →
    1 ≤ (s.ledger pgING 0).free → (s.stream n).frames = [] → (s.stream n).ended = none → (s.stream n).next = none → (s.stream n).cfg = some c →
    Runs (.gvspPacket i dst port ext (.leader block fmt lw lh) now) s (fun t =>
      (s.running pgING = true → (t.stream n).frames.map (fun f => (f.num, f.cfg, f.inst, f.seen, f.row, f.data)) =
        [(block.toNat, c, s.strInst c, max s.time now.toNat, lw.val * fmtBytes fmt.val, [])]) ∧
      (s.running pgING = false → (t.stream n).frames = [] ∧
        (t.word pgING (r_ING_IF_CNT_DROP i.val)).toNat = min ((s.word pgING (r_ING_IF_CNT_DROP i.val)).toNat + 1) 0xFFFFFFFF) ∧
      t.ledger pgING 0 = s.ledger pgING 0)) ∧
  (∀ (i : Fin 4) (dst : Word) (port : Fin 65536) (ext : Bool) (block now : DWord) (off : Word) (data : List Byte) (n : Nat) (c : List Nat)
    (f : IngFrame) (s : State), s.ifUp i.val = true → s.udpStream i.val dst.toNat port.val = some (n, c) → icProto c = 0 →
    rxBufs data.length ≤ (s.ledger pgING 0).free → (s.stream n).frames.find? (fun g => g.num == block.toNat) = some f →
    f.row = icLine f.cfg → f.row ≠ 0 → off.toNat + data.length ≤ icFrame f.cfg →
    Runs (.gvspPacket i dst port ext (.payload block off data) now) s (fun t =>
      ∃ g, (t.stream n).frames.find? (fun x => x.num == block.toNat) = some g ∧ g.cfg = f.cfg ∧ g.seen = max s.time now.toNat ∧ g.overX = f.overX ∧ g.overY = f.overY ∧
        (∀ j < data.length, smFind g.data (off.toNat + j) = data[j]?) ∧
        (∀ o, o < off.toNat ∨ off.toNat + data.length ≤ o → smFind g.data o = smFind f.data o))) ∧
  (∀ (i : Fin 4) (b : List Byte) (now : DWord) (n : Nat) (c : List Nat) (s : State), s.ifUp i.val = true →
    (List.range 64).findSome? (fun n => match (s.stream n).cfg with
      | some c => if icProto c = 3 ∧ icIf c = i.val ∧ icTag c = leAt b 1 1 ∧ 2 ≤ b.length then some (n, c) else none
      | none => none) = some (n, c) →
    Runs (.rawPacket i b now) s (fun t =>
      (rawBad c b = true → t.fld (hmSTR n) f_ING_STR_CNT_BAD_BAD = min (s.fld (hmSTR n) f_ING_STR_CNT_BAD_BAD + 1) 255 ∧ t.ing = s.ing) ∧
      (rawBad c b = false → leAt b 0 1 / 16 = 2 → rxBufs b.length ≤ (s.ledger pgING 0).free →
        (s.stream n).frames.any (fun f => f.num == leAt b 4 4) = true →
        (t.stream n).frames.all (fun f => f.num != leAt b 4 4) = true ∧ (t.stream n).ended = some (leAt b 4 4)))) ∧
  (∀ (n : Fin 64) (now : DWord) (f : IngFrame) (h : Nat) (s : State),
    (s.stream n.val).frames.find? (fun g => decide (g.seen + icUs g.cfg * 1000 ≤ max s.time now.toNat)) = some f →
    (s.stream n.val).frames.find? (fun g => g.num == f.num) = some f → hmSTR n.val = h →
    Runs (.frameTimeout n now) s (fun t =>
      (t.stream n.val).frames.all (fun g => g.num != f.num) = true ∧ (t.stream n.val).ended = some f.num ∧
      (t.word h r_ING_STR_CNT_SHORT).toNat =
        (if f.data.length < icFrame f.cfg then min ((s.word h r_ING_STR_CNT_SHORT).toNat + 1) 0xFFFFFFFF else (s.word h r_ING_STR_CNT_SHORT).toNat) ∧
      (t.word h r_ING_STR_CNT_LONG).toNat =
        (if f.overX || f.overY then min ((s.word h r_ING_STR_CNT_LONG).toNat + 1) 0xFFFFFFFF else (s.word h r_ING_STR_CNT_LONG).toNat) ∧
      (if (f.data.length < icFrame f.cfg ∧ icShort f.cfg = 1) ∨ ((f.overX || f.overY) = true ∧ icLong f.cfg = 1) then
        (t.word h r_ING_STR_CNT_DROPPED).toNat = min ((s.word h r_ING_STR_CNT_DROPPED).toNat + 1) 0xFFFFFFFF ∧
        t.word h r_ING_STR_CNT_FRAMES = s.word h r_ING_STR_CNT_FRAMES
      else (t.word h r_ING_STR_CNT_FRAMES).toNat = min ((s.word h r_ING_STR_CNT_FRAMES).toNat + 1) 0xFFFFFFFF ∧
        t.word h r_ING_STR_CNT_DROPPED = s.word h r_ING_STR_CNT_DROPPED))) ∧
  (∀ (n : Fin 64) (now : DWord) (s : State), (∀ f ∈ (s.stream n.val).frames, max s.time now.toNat < f.seen + icUs f.cfg * 1000) →
    exec (.frameTimeout n now) s = .next s) ∧
  (∀ (i : Fin 4) (dst : Word) (port : Fin 65536) (p : RtpPkt) (now : DWord) (n d : Nat) (c : List Nat) (b : List Byte) (s : State),
    s.ifUp i.val = true → s.udpStream i.val dst.toNat port.val = some (n, c) → icProto c = 1 ∨ icProto c = 2 →
    rtpUnits (icProto c == 2) p.payload = some b →
    (p.seq.toNat + 65536 - (s.stream n).seq.getD p.seq.toNat) % 65536 = d →
    Runs (.rtpPacket i dst port p now) s (fun t =>
      (32768 ≤ d → t.fld (hmSTR n) f_ING_STR_CNT_BAD_LATE = min (s.fld (hmSTR n) f_ING_STR_CNT_BAD_LATE + 1) 65535 ∧ t.ing = s.ing) ∧
      (0 < d → d < 64 → rxBufs p.payload.length ≤ (s.ledger pgING 0).free → (s.stream n).win.any (fun w => w.1 == p.seq.toNat) = false →
        (∀ e, (s.stream n).seq = some e → (s.stream n).win.all (fun w => w.1 != e) = true) →
        (t.stream n).win.map (fun w => (w.1, w.2.payload)) =
          (s.stream n).win.map (fun w => (w.1, w.2.payload)) ++ [(p.seq.toNat, p.payload)] ∧ (t.stream n).seq = (s.stream n).seq) ∧
      (d = 0 → rxBufs p.payload.length ≤ (s.ledger pgING 0).free → (s.stream n).win = [] → (s.stream n).au = none → (s.stream n).next = none →
        (s.stream n).cfg = some c → s.running pgING = true → p.marker = false → (∀ e, (s.stream n).seq = some e → e < 65536) →
        (t.stream n).seq = some ((p.seq.toNat + 1) % 65536) ∧ (t.stream n).win = [] ∧
        (t.stream n).au.map (fun u => (u.ts, u.bytes, u.loss, u.bufs)) = some (p.ts.toNat, b, (s.stream n).loss, rxBufs p.payload.length)))) ∧
  (∀ (n : Fin 64) (now : DWord) (e q : Nat) (p : IngPkt) (u : IngAu) (c : List Nat) (b : List Byte) (s : State), (s.stream n.val).seq = some e →
    (s.stream n.val).win = [(q, p)] → q < 65536 → e < 65536 → (s.stream n.val).au = some u → u.ts = p.ts → p.marker = false →
    (s.stream n.val).cfg = some c → rtpUnits (icProto c == 2) p.payload = some b →
    Runs (.rtpReorderTimeout n now) s (fun t =>
      (t.stream n.val).seq = some ((q + 1) % 65536) ∧ (t.stream n.val).win = [] ∧
      (t.stream n.val).au = some { u with loss := u.loss + 1, bytes := u.bytes ++ b, bufs := u.bufs + p.bufs })) ∧
  (∀ (n : Fin 64) (now : DWord) (s : State), (s.stream n.val).win = [] → exec (.rtpReorderTimeout n now) s = .next s) ∧
  (∀ (i : Fin 4) (tgt : Word) (s : State), s.ifUp i.val = true →
    Runs (.arpRequest i tgt) s (fun t =>
      if tgt.toNat ≠ 0 ∧ tgt.toNat = s.fld pgING (f_ING_IF_IPV4 i.val) then t.out = s.out ++ [⟨.ethernet, i.val, [3, tgt.toNat], []⟩] ∧ WordsBut [] s t
      else (t.word pgING (r_ING_IF_CNT_DROP i.val)).toNat = min ((s.word pgING (r_ING_IF_CNT_DROP i.val)).toNat + 1) 0xFFFFFFFF ∧ t.out = s.out)) ∧
  (∀ (i : Fin 4) (udp mine : Bool) (dom : Fin 256) (m : PtpMsg) (now : DWord) (s : State), s.ifUp i.val = true →
    mine = (s.fld pgING f_ING_PTP_CFG_ENABLE == 1 && s.fld pgING f_ING_PTP_CFG_INTERFACE == i.val &&
      (s.fld pgING f_ING_PTP_CFG_TRANSPORT == 1) == udp && s.fld pgING f_ING_PTP_CFG_DOMAIN == dom.val) →
    Runs (.ptpMessage i udp dom m now) s (fun t =>
      (mine = false → t.ing = s.ing ∧
        (t.word pgING (r_ING_IF_CNT_DROP i.val)).toNat = min ((s.word pgING (r_ING_IF_CNT_DROP i.val)).toNat + 1) 0xFFFFFFFF) ∧
      (mine = true → ∀ src rank, m = .announce src rank → s.ing.ptp.master = none →
        t.ing.ptp.master = some (src.toNat, rank.toNat) ∧ t.fld pgING f_ING_PTP_STATUS_STATE = 1) ∧
      (mine = true → ∀ src t4 q t1 t3, m = .delayResp src t4 → s.ing.ptp.master = some (src.toNat, q) → s.ing.ptp.t1 = some t1 →
        s.ing.ptp.t3 = some t3 →
        t.wideOf pgMOD r_MOD_PTP_OFFSET_LO =
          ((((t1 : Int) - s.ing.ptp.t2 + ((t4.toNat : Int) - t3)) / 2) % 2 ^ 64).toNat ∧
        t.fld pgING f_ING_PTP_STATUS_STATE = 2))) ∧
  (∀ (s : State),
    Runs .ptpAnnounceTimeout s (fun t =>
      if s.working pgING = true ∧ s.ing.ptp.master.isSome = true then
        t.ing.ptp.master = none ∧ t.fld pgING f_ING_PTP_STATUS_STATE = 3 ∧ t.fld pgMOD f_MOD_TIME_CTRL_PTP_LOCKED = 0
      else t = s)) ∧
  (∀ (c : Instr) (s : State), c ∈ [.streamCommit, .streamDisable] → s.reaches 0 = true → s.running pgING = false →
    Runs c s (fun t => Raised pgING evWRITE_DISCARDED s t ∧ t.ing = s.ing)) ∧
  (∀ (n h : Nat) (s : State), s.reaches 0 = true → s.running pgING = true → s.fld pgING f_ING_STR_SEL_STREAM = n → hmSTR n = h →
    Runs .streamCommit s (fun t =>
      Raised pgING ev_ing_STREAM_DONE s t ∧
      (match s.strRefusal n with
      | some (r, w) => t.fld h f_ING_STR_STATUS_REFUSED = 1 ∧ t.fld h f_ING_STR_STATUS_REASON = r % 256 ∧ t.fld h f_ING_STR_STATUS_WORD = w % 1024 ∧
        t.ing = s.ing
      | none => t.fld h f_ING_STR_STATUS_REFUSED = 0 ∧
        (if (s.stream n).busy then (t.stream n).next = some (some (s.strWords n)) ∧ (t.stream n).cfg = (s.stream n).cfg ∧
          t.fld h f_ING_STR_STATUS_PENDING = 1
         else (t.stream n).cfg = some (s.strWords n) ∧ (t.stream n).next = none ∧ t.fld h f_ING_STR_STATUS_ACTIVE = 1 ∧
          t.fld h f_ING_STR_STATUS_PENDING = 0)))) ∧
  (∀ (n : Nat) (s : State), s.reaches 0 = true → s.running pgING = true → s.fld pgING f_ING_STR_SEL_STREAM = n →
    Runs .streamDisable s (fun t =>
      Raised pgING ev_ing_STREAM_DONE s t ∧
      ((s.stream n).cfg.isSome = true → (s.stream n).busy = true → (t.stream n).next = some none ∧ (t.stream n).cfg = (s.stream n).cfg) ∧
      ((s.stream n).busy = false → (t.stream n).cfg = none))) ∧
  (∀ (i : Fin 4) (up : Bool) (f : Fld) (s : State), s.working pgING = true → f_ING_PORT_STATUS_UP (i.val / 2) = f →
    i.val % 2 = 0 ∨ 2 ≤ s.fld pgING (f_ING_PORT_CFG_MODE (i.val / 2)) →
    Runs (.linkChange i up) s (fun t =>
      (t.fld pgING f).testBit (i.val % 2) = up ∧ (t.fld pgING f).testBit (1 - i.val % 2) = (s.fld pgING f).testBit (1 - i.val % 2) ∧
      ((s.fld pgING f).testBit (i.val % 2) ≠ up → Raised pgING ev_ing_LINK_CHANGE s t) ∧
      ((s.fld pgING f).testBit (i.val % 2) = up → t = s)))

/-- R360 to R362, R367: a request for no open job, or from no member, is answered and counted; one whose counter is replayed is dropped, one
whose tag fails is refused; else a WRITE, a READ_REQ, a SIGNAL or an EC_CONTRIB acts on the member's window. -/
def Obligations.MuralRequestsAreServed : Prop :=
  (∀ (c : Instr) (typ : Nat) (now : DWord) (s : State),
    (c, typ) ∈ [(.muralWrite now, 0), (.muralReadReq now, 1), (.ecContrib now, 6), (.readResp now, 2), (.writeAck now, 3), (.signalAck now, 5),
      (.ecAck now, 7)] → s.inboxOf typ = none → exec c s = .next (s.at now.toNat)) ∧
  (∀ (now : DWord) (s : State), s.inboxOf 4 = none → exec (.muralSignal now) s = .next s) ∧
  (∀ (now : DWord) (k : MPkt) (s : State), s.inboxOf 4 = some k →
    (s.mur.inbox.takeWhile (fun x => x != k)).any (fun x => phType x.bytes == 0 && phSrc x.bytes == phSrc k.bytes && phJob x.bytes == phJob k.bytes)
      = true → exec (.muralSignal now) s = .next s) ∧
  (∀ (c : Instr) (typ rt : Nat) (now : DWord) (k : MPkt) (b : List Byte) (s : State),
    (c, typ, rt) ∈ [(.muralWrite now, 0, 3), (.muralReadReq now, 1, 2), (.muralSignal now, 4, 5), (.ecContrib now, 6, 7)] →
    s.inboxOf typ = some k → k.bytes = b →
    (typ = 4 → (s.mur.inbox.takeWhile (fun x => x != k)).any
      (fun x => phType x.bytes == 0 && phSrc x.bytes == phSrc k.bytes && phJob x.bytes == phJob k.bytes) = false) →
    Runs c s (fun t =>
      (s.jobSlot (phJob b) = none →
        (t.word pgMUR r_MUR_CNT_REFUSED).toNat = min ((s.word pgMUR r_MUR_CNT_REFUSED).toNat + 1) 0xFFFFFFFF ∧ t.mem = s.mem ∧
        ∃ tag, tag.length = 16 ∧ t.mur.arrived = s.mur.arrived ++
          [⟨muralHdr (phSrc b) (s.fld pgMUR f_MUR_ID_ID) rt 2 (phJob b) (phOff b) 0 (phReq b) 0 0 (phEpoch b) ++ tag, none, 0, none, 0⟩]) ∧
      (∀ j, s.jobSlot (phJob b) = some j → s.memberOf j (phSrc b) = none →
        (t.word pgMUR r_MUR_CNT_REFUSED).toNat = min ((s.word pgMUR r_MUR_CNT_REFUSED).toNat + 1) 0xFFFFFFFF ∧ t.mem = s.mem ∧
        t.mur.arrived.length = s.mur.arrived.length + 1) ∧
      (∀ j m, s.jobSlot (phJob b) = some j → s.memberOf j (phSrc b) = some m →
        match (s.mOpen j b).2 with
        | .replayed => t.mem = s.mem ∧ t.mur.arrived = s.mur.arrived ∧
          (t.word pgMUR r_MUR_CNT_E2E_REPLAY).toNat = min ((s.word pgMUR r_MUR_CNT_E2E_REPLAY).toNat + 1) 0xFFFFFFFF
        | .badTag => t.mem = s.mem ∧ t.mur.arrived.length = s.mur.arrived.length + 1 ∧ bitOf (t.word pgMUR hRAW) ev_mur0_AUTH_FAIL = true ∧
          (t.word pgMUR r_MUR_CNT_AUTH).toNat = min ((s.word pgMUR r_MUR_CNT_AUTH).toNat + 1) 0xFFFFFFFF
        | .ok p => t.mur.arrived.length ≤ s.mur.arrived.length + 1 ∧
          (s.memberState j m = 2 ∨ (typ ≠ 1 ∧ s.memberState j m ≠ 0) ∨
            (typ ≤ 1 ∧ s.mWhere j (phOff b) (min (phLen b) 4096) = none) ∨
            (typ = 6 ∧ (s.jobG j < 4 ∨ s.jobG j ≤ bits (phOff b) 37 32 ∨ s.jobUnits j * 4096 < bits (phOff b) 29 0 + phLen b)) →
            (t.word pgMUR r_MUR_CNT_REFUSED).toNat = min ((s.word pgMUR r_MUR_CNT_REFUSED).toNat + 1) 0xFFFFFFFF ∧ t.mem = s.mem) ∧
          (typ = 0 → s.memberState j m = 0 → phPoison b = 0 → ∀ dva, s.mWhere j (phOff b) (min (phLen b) 4096) = some (.window dva) →
            s.writeFault (bareWho (s.jobTenant j)) 4 (cuts dva (min (phLen b) 4096)) = none → s.writesOff (s.jobTenant j) = false →
            t.mem = (s.writeCuts (bareWho (s.jobTenant j)) 4 (cuts dva (min (phLen b) 4096)) (sub p 0 (min (phLen b) 4096))).mem) ∧
          (typ = 0 → s.memberState j m = 0 → phPoison b = 0 → ∀ q o, s.mWhere j (phOff b) (min (phLen b) 4096) = some (.landing q o) →
            t.mem = (s.palWrite q o (sub p 0 (min (phLen b) 4096))).mem) ∧
          (typ = 1 → s.memberState j m ≠ 2 → ∀ dva bs mask, s.mWhere j (phOff b) (min (phLen b) 4096) = some (.window dva) →
            s.readLines (bareWho (s.jobTenant j)) 4 dva 64 (min (phLen b) 4096) = .ok (bs, mask) →
            t.mem = s.mem ∧ t.mur.arrived.length = s.mur.arrived.length + 1 ∧ t.word pgMUR r_MUR_CNT_REFUSED = s.word pgMUR r_MUR_CNT_REFUSED) ∧
          (typ = 4 → s.memberState j m = 0 → ∀ x, s.fld (hmJOB j) f_MUR_JOB_RX_COUNTER_COUNTER = x →
            (s.fld (hmJOB j) f_MUR_JOB_RX_COUNTER_VALID = 1 → s.synTakes x = true → t.counter x = min (s.counter x + 1) (2 ^ 64 - 1)) ∧
            (s.fld (hmJOB j) f_MUR_JOB_RX_COUNTER_VALID = 0 → t.ops.counters = s.ops.counters))))) ∧
  (∀ (now : DWord) (k : MPkt) (j m g stripe q base n : Nat) (b p h hdr d : List Byte) (w : Who) (s : State), s.inboxOf 6 = some k → k.bytes = b →
    s.jobSlot (phJob b) = some j → s.memberOf j (phSrc b) = some m → s.memberState j m = 0 → s.jobG j = g → 4 ≤ g →
    bits (phOff b) 37 32 = stripe → stripe < g → bits (phOff b) 40 40 = q → (if q = 0 then stripe else (stripe + 1) % g) = s.jobMe j →
    bits (phOff b) 29 0 + phLen b ≤ s.jobUnits j * 4096 → m ∈ dataMembers g stripe → phPoison b = 0 →
    s.jobWin j + s.slotOff j (phEpoch b % 2) q = base → bareWho (s.jobTenant j) = w → s.writesOff w.tenant = false →
    s.readLines w 4 base 64 264 = .ok (h, 0) → min (phLen b) 4096 = n →
    ((leAt h 0 4 = phEpoch b ∧ hdr = sub h 0 (8 + 4 * m) ++ toLe 4 (leAt h (8 + 4 * m) 4 + 1) ++ sub h (12 + 4 * m) (264 - 12 - 4 * m) ∧
        ∃ old, s.readLines w 4 (base + 4096 + bits (phOff b) 29 0) 64 n = .ok (old, 0) ∧ d = xorBytes (sub p 0 n) old) ∨
      (leAt h 0 4 ≠ phEpoch b ∧ 0 < serial (phEpoch b) (leAt h 0 4) ∧ d = sub p 0 n ∧
        hdr = sub (toLe 4 (phEpoch b) ++ sub h 4 4 ++ toLe 256 0) 0 (8 + 4 * m) ++ toLe 4 1 ++
          sub (toLe 4 (phEpoch b) ++ sub h 4 4 ++ toLe 256 0) (12 + 4 * m) (264 - 12 - 4 * m))) →
    s.writeFault w 4 (cuts (base + 4096 + bits (phOff b) 29 0) n) = none → s.writeFault w 4 (cuts base hdr.length) = none →
    Runs (.ecContrib now) s (fun t => (s.mOpen j b).2 = .ok p →
      t.mem = ((s.writeCuts w 4 (cuts (base + 4096 + bits (phOff b) 29 0) n) d).writeCuts w 4 (cuts base hdr.length) hdr).mem))

/-- R359, R363, R366 to R368, R370: EC_ENCODE and EC_REBUILD start on an open job with members to spare; a response is taken for the request it
answers alone, returns its entry, and carries its operation on to its end; a request without an answer times out. -/
def Obligations.MuralOperationsFollowTheirAnswers : Prop :=
  (∀ (c : Instr) (opc : Nat) (tag : Fin 8192) (now : DWord) (s : State), (c, opc) ∈ [(.ecEncode tag now, 0xC), (.ecRebuild tag now, 0xD)] →
    s.running pgMUR = false → exec c s = .next s) ∧
  (∀ (c : Instr) (opc used : Nat) (tag : Fin 8192) (now : DWord) (b : State) (o : Op) (a : List Byte) (j : Nat) (s : State),
    (c, opc, used) ∈ [(.ecEncode tag now, 0xC, 8), (.ecRebuild tag now, 0xD, 0x18)] → s.running pgMUR = true →
    s.begins tag.val opc now.toNat = some (b, o) → b.readDva (o.who tag.val) o.d.arg 64 = .ok a false → rsvByte a [(used, 64 - used)] = none →
    leAt a 0 4 = j →
    Runs c s (fun t =>
      (64 ≤ j → t.endedAs tag.val scARG) ∧
      (j < 64 → (s.mjob j).isOpen = false ∨ s.jobTenant j ≠ o.tenant → t.endedAs tag.val scJOB ∧ (t.op tag.val).map (fun x => x.detail) = some j) ∧
      (j < 64 → (s.mjob j).isOpen = true → s.jobTenant j = o.tenant → s.jobG j < 4 → t.endedAs tag.val scARG))) ∧
  (∀ (tag : Fin 8192) (now : DWord) (b : State) (o : Op) (a bs : List Byte) (j mask : Nat) (s : State), s.running pgMUR = true →
    s.begins tag.val 0xC now.toNat = some (b, o) → b.readDva (o.who tag.val) o.d.arg 64 = .ok a false → rsvByte a [(8, 56)] = none →
    leAt a 0 4 = j → j < 64 → (s.mjob j).isOpen = true → s.jobTenant j = o.tenant → 4 ≤ s.jobG j →
    (s.mjob j).epoch.all (fun e => decide (0 < serial (leAt a 4 4) e)) = true →
    s.lostAmong j ((List.range (s.jobG j)).filter (fun k => k != s.jobMe j)) = none → (s.mjob j).key.isSome = true → s.jobUnits j ≠ 0 →
    o.abandoned = false → s.writesOff o.tenant = false → (smFresh s.mur.reqs 0 8192).isSome = true →
    b.readLines (o.who tag.val) 4 (s.jobWin j + s.jobShard j) 64 4096 = .ok (bs, mask) →
    Runs (.ecEncode tag now) s (fun t =>
      (t.mop tag.val).map (fun x => (x.kind, x.slot, x.total)) = some (2, j, (s.jobG j - 2) * s.jobUnits j * 2) ∧
      (t.mjob j).epoch = some (leAt a 4 4) ∧ ∃ q, q ∈ t.mur.reqs ∧ q.2.tag = tag.val ∧ q.2.kind = 6)) ∧
  (∀ (tag : Fin 8192) (now : DWord) (b : State) (o : Op) (a : List Byte) (j k off : Nat) (s : State), s.running pgMUR = true →
    s.begins tag.val 0xD now.toNat = some (b, o) → b.readDva (o.who tag.val) o.d.arg 64 = .ok a false → rsvByte a [(0x18, 40)] = none →
    leAt a 0 4 = j → j < 64 → (s.mjob j).isOpen = true → s.jobTenant j = o.tenant → 4 ≤ s.jobG j →
    leAt a 8 4 < 64 → leAt a 8 4 < s.jobG j → leAt a 0xC 4 = leAt a 8 4 → leAt a 0x10 8 % 4096 = 0 →
    s.lostAmong j ((List.range (s.jobG j)).filter (fun m => m != leAt a 8 4 && m != s.jobMe j)) = none → (s.mjob j).key.isSome = true →
    o.abandoned = false → s.writesOff o.tenant = false → (smFresh s.mur.reqs 0 8192).isSome = true →
    (s.rbSources j a ((dataStripes (s.jobG j) (leAt a 0xC 4)).getD 0 0) none).head? = some (k, off) → k ≠ s.jobMe j →
    Runs (.ecRebuild tag now) s (fun t =>
      (t.mop tag.val).map (fun x => (x.kind, x.slot, x.total, x.stage)) = some (3, j, (s.jobG j - 2) * (s.jobUnits j + 1), 0) ∧
      ∃ q, q ∈ t.mur.reqs ∧ q.2.tag = tag.val ∧ q.2.kind = 1 ∧ q.2.member = k)) ∧
  (∀ (c : Instr) (typ kind e : Nat) (now : DWord) (k : MPkt) (b : List Byte) (s : State),
    (c, typ, kind) ∈ [(.readResp now, 2, 1), (.writeAck now, 3, 0), (.signalAck now, 5, 4), (.ecAck now, 7, 6)] → s.inboxOf typ = some k →
    k.bytes = b → phReq b % 8192 = e → (∀ q, smFind s.mur.reqs e = some q → q.gen ≠ phReq b / 8192 ∨ q.kind ≠ kind) →
    Runs c s (fun t => t.mur.reqs = s.mur.reqs ∧ t.mur.ops = s.mur.ops ∧ t.mem = s.mem)) ∧
  (∀ (c : Instr) (typ kind e : Nat) (now : DWord) (k : MPkt) (b : List Byte) (q : MReq) (o : MOp) (op : Op) (s : State),
    (c, typ, kind) ∈ [(.readResp now, 2, 1), (.writeAck now, 3, 0), (.signalAck now, 5, 4), (.ecAck now, 7, 6)] → s.inboxOf typ = some k →
    k.bytes = b → phReq b % 8192 = e → smFind s.mur.reqs e = some q → q.gen = phReq b / 8192 → q.kind = kind →
    (s.mjob q.slot).isOpen = true → s.jobId q.slot = phJob b → s.mop q.tag = some o → o.slot = q.slot → o.out = 1 → o.fail = none → s.op q.tag = some op →
    op.phase = .issued → op.abandoned = false → s.writesOff op.tenant = false →
    Runs c s (fun t =>
      (phStatus b ≠ 0 → smFind t.mur.reqs e = none ∧ smGet 0 t.mur.gens e = (q.gen + 1) % 8 ∧ t.mop q.tag = none ∧
        t.endedAs q.tag (respStatus (phStatus b) q).1 ∧ (t.op q.tag).map (fun x => x.detail) = some (respStatus (phStatus b) q).2) ∧
      (phStatus b = 0 → match (s.mOpen q.slot b).2 with
        | .replayed => t.mur.reqs = s.mur.reqs ∧ t.mur.ops = s.mur.ops ∧
          (t.word pgMUR r_MUR_CNT_E2E_REPLAY).toNat = min ((s.word pgMUR r_MUR_CNT_E2E_REPLAY).toNat + 1) 0xFFFFFFFF
        | .badTag => smFind t.mur.reqs e = none ∧ t.endedAs q.tag scMAUTH ∧ (t.op q.tag).map (fun x => x.detail) = some q.member
        | .ok p => smFind t.mur.reqs e ≠ some q ∧
          (typ = 2 → o.kind = 1 → phPoison b = 0 → s.writeFault (op.who q.tag) 0 (cuts q.dva q.len) = none →
            t.mem = (s.writeCuts (op.who q.tag) 0 (cuts q.dva q.len) (sub p 0 q.len)).mem ∧
            (o.total ≤ o.next → t.endedAs q.tag (if o.poison then scPOISON else scOK))) ∧
          (typ = 3 → o.kind = 0 → o.total ≤ o.next → o.signal = 0 → (t.mop q.tag).map (fun x => (x.signal, x.out)) = some (1, 1)) ∧
          (typ = 5 → o.kind = 0 → o.total ≤ o.next → t.endedAs q.tag (if o.poison then scPOISON else scOK)) ∧
          (typ = 7 → o.kind = 2 → o.total ≤ o.next → t.endedAs q.tag (if o.poison then scPOISON else scOK))))) ∧
  (∀ (e : Fin 8192) (now : DWord) (q : MReq) (o : MOp) (op : Op) (s : State), smFind s.mur.reqs e.val = some q → s.mop q.tag = some o →
    o.out = 1 → o.fail = none → s.op q.tag = some op → op.phase = .issued →
    Runs (.requestTimeout e now) s (fun t =>
      smFind t.mur.reqs e.val = none ∧ smGet 0 t.mur.gens e.val = (q.gen + 1) % 8 ∧ t.endedAs q.tag scLINK ∧
      (t.op q.tag).map (fun x => x.detail) = some q.hop)) ∧
  (∀ (e : Fin 8192) (now : DWord) (s : State), smFind s.mur.reqs e.val = none → exec (.requestTimeout e now) s = .next (s.at now.toNat))

/-- R364, R365, R374, R375, R361: a packet is looked up once and delivered, sent, or waits; a route table is committed whole (by a running page, and
refused while Easel does not run: log entry 36), and the old epoch retires when it has drained; a job slot opens where its registers pass their tests and closes; a member's state is written at any time. -/
def Obligations.PacketsAreRoutedAndJobsOpened : Prop :=
  (∀ (n : Nat) (now : DWord) (s : State), s.working pgMUR = false ∨ s.mur.arrived[n]? = none →
    Runs (.packetRoute n now) s (fun t => t.mur = s.mur ∧ WordsBut [] s t)) ∧
  (∀ (n : Nat) (now : DWord) (k : MPkt) (e : Nat) (s : State), s.working pgMUR = true → s.mur.arrived[n]? = some k → k.route = none →
    smGet 0 s.mur.rtActive (phDst k.bytes) = e →
    Runs (.packetRoute n now) s (fun t =>
      (rtValid e = false → k.inPort.isSome = true → t.mur.arrived = s.mur.arrived.eraseIdx n ∧
        (t.word pgMUR r_MUR_CNT_NO_ROUTE).toNat = min ((s.word pgMUR r_MUR_CNT_NO_ROUTE).toNat + 1) 0xFFFFFFFF) ∧
      (rtValid e = true → rtLocal e = true → t.mur.arrived = s.mur.arrived.eraseIdx n ∧
        t.mur.inbox = s.mur.inbox ++ [{ k with route := some e, epoch := s.fld pgRT f_MUR_RT_STATUS_EPOCH }]) ∧
      (rtValid e = true → rtLocal e = false → s.portUsable (rtPort e) = true ∨ (rtAltValid e = true ∧ s.portUsable (rtAlt e) = true) →
        t.mur.arrived = s.mur.arrived.eraseIdx n ∧ t.mur.inbox = s.mur.inbox) ∧
      (rtValid e = true → rtLocal e = false → s.portUsable (rtPort e) = false → rtAltValid e = false ∨ s.portUsable (rtAlt e) = false →
        t.mur.arrived = s.mur.arrived.set n { k with route := some e, epoch := s.fld pgRT f_MUR_RT_STATUS_EPOCH } ∧ t.mur.inbox = s.mur.inbox))) ∧
  (∀ (n : Nat) (now : DWord) (k : MPkt) (e : Nat) (s : State), s.mur.arrived[n]? = some k → k.route = some e →
    Runs (.routeWaitTimeout n now) s (fun t =>
      if rtLocal e || s.portUsable (rtPort e) || (rtAltValid e && s.portUsable (rtAlt e)) then t = s
      else k.inPort.isSome = true → t.mur.arrived.length = s.mur.arrived.length - (if isRequest (phType k.bytes) then 0 else 1))) ∧
  (∀ (n : Nat) (now : DWord) (s : State), s.mur.arrived[n]? = none → exec (.routeWaitTimeout n now) s = .next s) ∧
  (∀ (v : Word) (s : State), s.reaches 0 = true → RsvClear pgRT r_MUR_RT_COMMIT v → v.toNat % 2 = 1 →
    Runs (.routeCommit v) s (fun t =>
      if s.running pgRT = false then t.mur = s.mur ∧ Raised pgRT evWRITE_DISCARDED s t ∧ WordsBut [(pgRT, hRAW), (pgRT, hSETCOUNT)] s t
      else if s.fld pgRT f_MUR_RT_STATUS_OLD_LIVE = 1 then t.mur = s.mur ∧ t.fld pgRT f_MUR_RT_STATUS_REASON = 0xE ∧
        t.fld pgRT f_MUR_RT_STATUS_REFUSED = 1 ∧ Raised pgRT ev_murRt_ROUTE_DONE s t
      else if s.running pgEAS = false then t.mur = s.mur ∧ t.fld pgRT f_MUR_RT_STATUS_REASON = 3 ∧
        t.fld pgRT f_MUR_RT_STATUS_REFUSED = 1 ∧ Raised pgRT ev_murRt_ROUTE_DONE s t
      else match s.routeRefusal s.mur.rtShadow with
        | some r => t.mur = s.mur ∧ t.fld pgRT f_MUR_RT_STATUS_REASON = r ∧ t.fld pgRT f_MUR_RT_STATUS_REFUSED = 1 ∧
          Raised pgRT ev_murRt_ROUTE_DONE s t
        | none => t.mur.rtActive = s.mur.rtShadow ∧ t.fld pgRT f_MUR_RT_STATUS_REASON = 0 ∧ t.fld pgRT f_MUR_RT_STATUS_REFUSED = 0 ∧
          t.fld pgRT f_MUR_RT_INFLIGHT_OLD = s.fld pgRT f_MUR_RT_INFLIGHT_CUR ∧ t.fld pgRT f_MUR_RT_INFLIGHT_CUR = 0 ∧
          t.fld pgRT f_MUR_RT_STATUS_OLD_LIVE = (if s.fld pgRT f_MUR_RT_INFLIGHT_CUR = 0 then 0 else 1) ∧
          Raised pgRT ev_murRt_ROUTE_DONE s t)) ∧
  (∀ (s : State), Runs .routeEpochRetire s (fun t =>
    if s.fld pgRT f_MUR_RT_STATUS_OLD_LIVE = 1 ∧ s.fld pgRT f_MUR_RT_INFLIGHT_OLD = 0 then
      t.fld pgRT f_MUR_RT_STATUS_OLD_LIVE = 0 ∧ WordsBut [(pgRT, r_MUR_RT_STATUS)] s t
    else t = s)) ∧
  (∀ (slot : Fin 64) (s : State), s.reaches 0 = true →
    Runs (.jobOpen slot) s (fun t =>
      if s.running pgJOB = false ∨ (s.mjob slot.val).isOpen = true then t.mur = s.mur ∧ Raised pgJOB evWRITE_DISCARDED s t
      else match s.jobRefusal slot.val with
        | none => (t.mjob slot.val).isOpen = true ∧ (t.mjob slot.val).acc = (s.mjob slot.val).acc ∧ (t.mjob slot.val).epoch = none ∧
          (t.mjob slot.val).key = (s.mjob slot.val).key ∧ t.fld pgJOB f_MUR_JOB_STATUS_REFUSED = 0 ∧ Raised pgJOB ev_murJob_JOB_DONE s t
        | some r => t.mur = s.mur ∧ t.fld pgJOB f_MUR_JOB_STATUS_REASON = r ∧ t.fld pgJOB f_MUR_JOB_STATUS_REFUSED = 1 ∧
          Raised pgJOB ev_murJob_JOB_DONE s t)) ∧
  (∀ (slot : Fin 64) (s : State), s.reaches 0 = true →
    Runs (.jobClose slot) s (fun t =>
      ((s.mjob slot.val).isOpen = false → t.mur = s.mur ∧ Raised pgJOB evWRITE_DISCARDED s t) ∧
      ((s.mjob slot.val).isOpen = true → (t.mjob slot.val).isOpen = false ∧ bitOf (t.word pgJOB hRAW) ev_murJob_JOB_DONE = true ∧
        ∀ e ∈ t.mur.reqs, e.2.slot ≠ slot.val))) ∧
  (∀ (v : Word) (j k : Nat) (s : State), s.reaches 0 = true → RsvClear pgJOB r_MUR_JOB_MEMBER v → s.fld pgJOB f_MUR_JOB_SEL_SLOT = j →
    s.fld pgJOB f_MUR_JOB_MEMBER_SEL_INDEX = k →
    Runs (.memberStateWrite v) s (fun t =>
      t.memberState j k = (if fldGet v f_MUR_JOB_MEMBER_STATE = 3 then s.memberState j k else fldGet v f_MUR_JOB_MEMBER_STATE) ∧
      t.memberId j k = (if (s.mjob j).isOpen then s.memberId j k else fldGet v f_MUR_JOB_MEMBER_ID) ∧
      (fldGet v f_MUR_JOB_MEMBER_STATE = 3 ∨ ((s.mjob j).isOpen = true ∧ fldGet v f_MUR_JOB_MEMBER_ID ≠ s.memberId j k) →
        Raised pgJOB evWRITE_DISCARDED s t)))

/-- R350 to R353, R355: a port descrambles what it receives, scrambles what it sends, hunts for its frame boundary, locks through the CRC gate and loses lock; a locked port delivers the flit whose
SEQ it expects and no other; a control flit acknowledges, returns credits and asks for a replay, and a replay has its budget. -/
def Obligations.FlitsAreDeliveredInOrderOrReplayed : Prop :=
  (∀ (port : Fin 8) (off : Fin 257) (sync : DWord) (ok : Bool) (fec : BitVec 16) (tail : BitVec 58) (s : State),
    s.link port.val = lkDOWN ∨ s.link port.val = lkPARKED → exec (.muralFrameReceive port off sync ok fec tail) s = .next s) ∧
  (∀ (port : Fin 8) (off : Fin 257) (sync : DWord) (ok hit : Bool) (fec : BitVec 16) (tail : BitVec 58) (x : MPort) (s : State),
    s.link port.val ≠ lkDOWN → s.link port.val ≠ lkPARKED → s.mport port.val = x → (hit = true ↔ sync = 0x7A12C6E531B94D8F#64) →
    Runs (.muralFrameReceive port off sync ok fec tail) s (fun t =>
      (t.word (pgPORT port.val) r_MUR_PORT_FEC_CE).toNat = min ((s.word (pgPORT port.val) r_MUR_PORT_FEC_CE).toNat + fec.toNat) 0xFFFFFFFF ∧
      (x.lock = 0 → ∀ n, n = (if hit then smGet 0 x.cand off.val + 1 else 0) →
        t.mport port.val = (if n = 8 then { x with lock := 1, off := off.val, count := 0, cand := [], gate := [], dscr := tail.toNat }
          else { x with cand := smSet 0 x.cand off.val n, dscr := tail.toNat }) ∧
        WordsBut [(pgPORT port.val, r_MUR_PORT_FEC_CE)] s t) ∧
      (x.lock ≠ 0 → off.val ≠ x.off → t.mport port.val = x ∧ WordsBut [(pgPORT port.val, r_MUR_PORT_FEC_CE)] s t) ∧
      (x.lock = 1 → off.val = x.off → ok = false →
        t.mport port.val = { x with lock := 0, count := 0, cand := [], gate := [], dscr := tail.toNat } ∧
        (t.word (pgPORT port.val) hCE).toNat = min ((s.word (pgPORT port.val) hCE).toNat + 1) 0xFFFFFFFF) ∧
      (x.lock = 1 → off.val = x.off → ok = true → x.count ≠ 3 →
        t.mport port.val = { x with count := x.count + 1, dscr := tail.toNat } ∧ WordsBut [(pgPORT port.val, r_MUR_PORT_FEC_CE)] s t) ∧
      (x.lock = 1 → off.val = x.off → ok = true → x.count = 3 →
        (x.gate = [] → t.mport port.val = { x with lock := 2, count := 0, dscr := tail.toNat } ∧ WordsBut [(pgPORT port.val, r_MUR_PORT_FEC_CE)] s t) ∧
        (∀ b, x.gate = [.data b] → crc32c (b.take 60) = leAt b 60 4 → leAt b 0 2 % 8 < 3 → leAt b 0 2 / 8 = x.rxSeq →
          (t.mport port.val).lock = 2 ∧ (t.mport port.val).gate = [] ∧ (t.mport port.val).rxSeq = (x.rxSeq + 1) % 8192)) ∧
      (x.lock = 2 → off.val = x.off → t.mport port.val = (if hit then { x with count := 0 }
          else if x.count = 3 then { x with lock := 0, count := 0, cand := [], gate := [] } else { x with count := x.count + 1 }) ∧
        (t.word (pgPORT port.val) r_MUR_PORT_CNT_RELOCK).toNat = (if hit = false ∧ x.count = 3 then
          min ((s.word (pgPORT port.val) r_MUR_PORT_CNT_RELOCK).toNat + 1) 0xFFFFFFFF else (s.word (pgPORT port.val) r_MUR_PORT_CNT_RELOCK).toNat)))) ∧
  (∀ (port : Fin 8) (wire : List Byte) (now : DWord) (x : MPort) (h : Nat) (b : List Byte) (s : State), s.mport port.val = x →
    scrBytes true x.dscr (sub wire 0 64) = (h, b) →
    (s.link port.val ≠ lkUP ∨ x.lock = 0 → exec (.dataFlitReceive port wire now) s = .next (s.at now.toNat)) ∧
    (s.link port.val = lkUP → x.lock = 1 → Runs (.dataFlitReceive port wire now) s (fun t =>
      t.mport port.val = { x with dscr := h, gate := x.gate ++ [.data b] } ∧ t.mur.arrived = s.mur.arrived ∧ WordsBut [] s t))) ∧
  (∀ (port : Fin 8) (wire b : List Byte) (now : DWord) (x : MPort) (h vc seq : Nat) (s : State), s.mport port.val = x →
    scrBytes true x.dscr (sub wire 0 64) = (h, b) → s.link port.val = lkUP → x.lock = 2 → leAt b 0 2 % 4 = vc → leAt b 0 2 / 8 = seq →
    Runs (.dataFlitReceive port wire now) s (fun t =>
      (t.mport port.val).dscr = h ∧
      if crc32c (b.take 60) ≠ leAt b 60 4 ∨ (vc = 3 ∧ bits (leAt b 0 2) 2 2 = 0) then
        (t.mport port.val).nak = true ∧ (t.mport port.val).rxSeq = x.rxSeq ∧ t.mur.arrived = s.mur.arrived ∧
        (t.word (pgPORT port.val) r_MUR_PORT_CNT_CRC).toNat = min ((s.word (pgPORT port.val) r_MUR_PORT_CNT_CRC).toNat + 1) 0xFFFFFFFF
      else if bits (leAt b 0 2) 2 2 = 1 then t.mport port.val = { x with dscr := h } ∧ t.mur.arrived = s.mur.arrived ∧ WordsBut [] s t
      else if seq = x.rxSeq then
        (t.mport port.val).rxSeq = (x.rxSeq + 1) % 8192 ∧ (t.mport port.val).nak = false ∧
        t.ledger (pgPORT port.val) 1 = (s.ledger (pgPORT port.val) 1).move .free .held 1 ∧
        (if packetLen (smGet [] x.part vc ++ sub b 2 58) ≤ (smGet [] x.part vc ++ sub b 2 58).length then
          t.mur.arrived = s.mur.arrived ++ [⟨(smGet [] x.part vc ++ sub b 2 58).take (packetLen (smGet [] x.part vc ++ sub b 2 58)), some port.val,
            smGet 0 x.partN vc + 1, none, 0⟩]
        else t.mur.arrived = s.mur.arrived ∧ smGet [] (t.mport port.val).part vc = smGet [] x.part vc ++ sub b 2 58)
      else if (seq + 8192 - x.rxSeq) % 8192 < 4096 then
        (t.mport port.val).nak = true ∧ (t.mport port.val).rxSeq = x.rxSeq ∧ t.mur.arrived = s.mur.arrived ∧ WordsBut [] s t
      else t.mport port.val = { x with dscr := h } ∧ t.mur.arrived = s.mur.arrived ∧ WordsBut [(pgPORT port.val, r_MUR_PORT_CNT_DUP)] s t ∧
        (t.word (pgPORT port.val) r_MUR_PORT_CNT_DUP).toNat = min ((s.word (pgPORT port.val) r_MUR_PORT_CNT_DUP).toNat + 1) 0xFFFFFFFF)) ∧
  (∀ (c : Instr) (port : Fin 8) (rep : Bool) (now : DWord) (x : MPort) (w : List Nat) (s : State),
    (c, rep) ∈ [(.nakRepeat port now, true), (.controlFlitSend port now, false)] → s.mport port.val = x →
    w = [1, if x.rxAny then 1 else 0, (x.rxSeq + 8191) % 8192, if x.nak then 1 else 0, x.rxSeq, smGet 0 x.freed 0, smGet 0 x.freed 1,
      smGet 0 x.freed 2, 0] →
    Runs c s (fun t =>
      if s.link port.val = lkUP ∧ (x.nak = true ∨ rep = false) then
        t.mport port.val = { x with scr := (scrBytes false x.scr (controlBytes w)).1 } ∧ WordsBut [] s t ∧
        t.out = s.out ++ [⟨.muralFlit, port.val, w, (scrBytes false x.scr (controlBytes w)).2⟩]
      else t = s)) ∧
  (∀ (port : Fin 8) (wire b : List Byte) (av nv : Bool) (ack nak : BitVec 13) (c0 c1 c2 : BitVec 16) (now : DWord) (x : MPort) (h : Nat)
    (rest : List SentFlit) (s : State), s.mport port.val = x → scrBytes true x.dscr (sub wire 0 64) = (h, b) →
    (if av then x.sent.filter (fun f => !seqUpTo f.seq ack.toNat) else x.sent) = rest →
    Runs (.controlFlitReceive port wire av ack nv nak c0 c1 c2 now) s (fun t =>
      (s.link port.val ≠ lkUP ∨ x.lock = 0 → t = s.at now.toNat) ∧
      (s.link port.val = lkUP → x.lock = 1 → WordsBut [] s t ∧ t.mport port.val = { x with
        dscr := h, gate := x.gate ++ [.control b ⟨if av then some ack.toNat else none, if nv then some nak.toNat else none, [c0.toNat, c1.toNat, c2.toNat]⟩] }) ∧
      (s.link port.val = lkUP → x.lock = 2 → crc32c (b.take 60) ≠ leAt b 60 4 →
        (t.mport port.val).nak = true ∧ (t.mport port.val).sent = x.sent ∧ (t.mport port.val).credit = x.credit ∧
        (t.word (pgPORT port.val) r_MUR_PORT_CNT_CRC).toNat = min ((s.word (pgPORT port.val) r_MUR_PORT_CNT_CRC).toNat + 1) 0xFFFFFFFF) ∧
      (s.link port.val = lkUP → x.lock = 2 → crc32c (b.take 60) = leAt b 60 4 →
        (nv = false → x.queue = [] → (t.mport port.val).sent = rest ∧ WordsBut [] s t ∧
          ∀ vc c, (vc, c) ∈ [(0, c0), (1, c1), (2, c2)] → smGet 0 (t.mport port.val).seen vc = c.toNat ∧
            smGet 0 (t.mport port.val).credit vc = smGet 0 x.credit vc + (c.toNat + 65536 - smGet 0 x.seen vc) % 65536) ∧
        (nv = true → x.queue = [] → ∀ f r, rest.filter (fun f => seqUpTo nak.toNat f.seq) = f :: r →
          if 16 ≤ f.replays ∨ f.first + 40000 < (s.at now.toNat).time then t.link port.val = lkDOWN ∧ (t.mport port.val).sent = []
          else (t.mport port.val).sent = rest.filter (fun f => !seqUpTo nak.toNat f.seq) ++
              (rest.filter (fun f => seqUpTo nak.toNat f.seq)).map (fun f => { f with replays := f.replays + 1 }) ∧
            (t.word (pgPORT port.val) r_MUR_PORT_CNT_REPLAY).toNat = min ((s.word (pgPORT port.val) r_MUR_PORT_CNT_REPLAY).toNat + 1) 0xFFFFFFFF) ∧
        (nv = false → c0.toNat = smGet 0 x.seen 0 → c1.toNat = smGet 0 x.seen 1 → c2.toNat = smGet 0 x.seen 2 → ∀ f, x.queue = [f] →
          if smGet 0 x.credit f.vc = 0 ∨ 4096 ≤ rest.length then (t.mport port.val).queue = [f] ∧ (t.mport port.val).sent = rest
          else (t.mport port.val).queue = [] ∧ (t.mport port.val).sent = rest ++ [⟨x.txSeq, f, (s.at now.toNat).time, 0⟩] ∧
            (t.mport port.val).txSeq = (x.txSeq + 1) % 8192 ∧ smGet 0 (t.mport port.val).credit f.vc = smGet 0 x.credit f.vc - 1 ∧
            t.out = s.out ++ [⟨.muralFlit, port.val, [0], (scrBytes false x.scr (flitBytes f.vc x.txSeq f.pay)).2⟩])))) ∧
  (∀ (port : Fin 8) (now : DWord) (s : State), s.link port.val ≠ lkUP → exec (.replayTimeout port now) s = .next s) ∧
  (∀ (port : Fin 8) (now : DWord) (h : SentFlit) (r : List SentFlit) (s : State), s.link port.val = lkUP → (s.mport port.val).sent = h :: r →
    Runs (.replayTimeout port now) s (fun t =>
      if 16 ≤ h.replays ∨ h.first + 40000 < (s.at now.toNat).time then
        t.link port.val = lkDOWN ∧ (t.mport port.val).sent = [] ∧ (t.mport port.val).queue = [] ∧ (t.mport port.val).downWait = true ∧
        (t.word (pgPORT port.val) hUE).toNat = min ((s.word (pgPORT port.val) hUE).toNat + 1) 0xFFFFFFFF
      else (t.mport port.val).sent = (h :: r).map (fun f => { f with replays := f.replays + 1 }) ∧
        (t.word (pgPORT port.val) r_MUR_PORT_CNT_REPLAY).toNat = min ((s.word (pgPORT port.val) r_MUR_PORT_CNT_REPLAY).toNat + 1) 0xFFFFFFFF))

/-- R354 to R357, R373: the spare lane takes a failing lane's place; a supply change holds targets and ends; a port comes UP with its credits
from zero; going DOWN fails what it held, and its credits return when the link-down timeout ends; a VC without credit is reported; a test
runs on a drained port that is UP. -/
def Obligations.PortsChangePowerAndGoDown : Prop :=
  (∀ (port : Fin 8) (lane : Fin 9) (now : DWord) (s : State),
    Runs (.laneSwapped port lane now) s (fun t =>
      if s.link port.val ≠ lkUP then t = s
      else if s.fld (pgPORT port.val) f_MUR_PORT_STATUS_SPARE_USED = 1 then
        t.link port.val = lkDOWN ∧ (t.mport port.val).downWait = true ∧ Raised (pgPORT port.val) ev_murPort_LINK_DOWN s t ∧
        (t.word (pgPORT port.val) r_MUR_PORT_CNT_DOWN).toNat = min ((s.word (pgPORT port.val) r_MUR_PORT_CNT_DOWN).toNat + 1) 0xFFFFFFFF
      else if s.fld (pgPORT port.val) f_MUR_PORT_CTRL_SPARE_AUTO = 0 then t = s.at now.toNat
      else t.mport port.val = s.mport port.val ∧ t.link port.val = lkUP ∧ t.fld (pgPORT port.val) f_MUR_PORT_STATUS_SPARE_USED = 1 ∧
        t.fld (pgPORT port.val) f_MUR_PORT_STATUS_FAILED_LANE = lane.val ∧ bitOf (t.word (pgPORT port.val) hRAW) ev_murPort_LANE_SWAPPED = true ∧
        (t.word (pgPORT port.val) hCE).toNat = min ((s.word (pgPORT port.val) hCE).toNat + 1) 0xFFFFFFFF)) ∧
  (∀ (port : Fin 8) (v : Word) (g : Nat) (s : State), s.reaches 0 = true → fldGet v f_MUR_PORT_CTRL_POWER = g →
    Runs (.portPowerWrite port v) s (fun t =>
      t.fld (pgPORT port.val) f_MUR_PORT_CTRL_DRAIN = fldGet v f_MUR_PORT_CTRL_DRAIN ∧
      (g = 3 → t.fld (pgPORT port.val) f_MUR_PORT_CTRL_POWER = s.fld (pgPORT port.val) f_MUR_PORT_CTRL_POWER ∧
        bitOf (t.word (pgPORT port.val) hRAW) evWRITE_DISCARDED = true ∧ t.mur = s.mur) ∧
      (g ≠ 3 → t.fld (pgPORT port.val) f_MUR_PORT_CTRL_POWER = g ∧
        (if s.running (pgPORT port.val) = false then t.mur = s.mur
         else if (s.mport port.val).trans.isSome = true ∨ (s.mport port.val).downWait = true then
          t.mport port.val = { s.mport port.val with heldTarget := some g }
         else if s.fld (pgPORT port.val) f_MUR_PORT_STATUS_POWER = g then t.mur = s.mur
         else t.mport port.val = { s.mport port.val with trans := some g } ∧ t.fld (pgPORT port.val) f_MUR_PORT_STATUS_TRANSITION = 1)))) ∧
  (∀ (port : Fin 8) (now : DWord) (s : State), (s.mport port.val).trans = none → exec (.powerDone port now) s = .next (s.at now.toNat)) ∧
  (∀ (port : Fin 8) (now : DWord) (g : Nat) (x : MPort) (s : State), s.mport port.val = x → x.trans = some g → g ≤ 2 →
    Runs (.powerDone port now) s (fun t =>
      if g ≠ 0 ∧ s.link port.val = lkUP ∧ (x.queue ≠ [] ∨ x.sent ≠ []) then t = s.at now.toNat
      else t.fld (pgPORT port.val) f_MUR_PORT_STATUS_POWER = g ∧ bitOf (t.word (pgPORT port.val) hRAW) ev_murPort_POWER_DONE = true ∧
        (g ≠ 2 → s.fld (pgPORT port.val) f_MUR_PORT_STATUS_LOS = 1 → t.link port.val = lkDOWN) ∧
        (g ≠ 2 → s.fld (pgPORT port.val) f_MUR_PORT_STATUS_LOS = 0 → t.link port.val = (if g = 0 then lkTRAINING else lkPARKED)) ∧
        (g = 2 → t.link port.val = lkDOWN) ∧
        (x.heldTarget = none → t.fld (pgPORT port.val) f_MUR_PORT_STATUS_TRANSITION = 0 ∧ (t.mport port.val).trans = none) ∧
        (∀ h, x.heldTarget = some h → x.downWait = false → g = 2 ∨ s.fld (pgPORT port.val) f_MUR_PORT_STATUS_LOS = 0 → h ≠ g →
          t.fld (pgPORT port.val) f_MUR_PORT_STATUS_TRANSITION = 1 ∧ (t.mport port.val).trans = some h ∧ (t.mport port.val).heldTarget = none))) ∧
  (∀ (port : Fin 8) (peer : BitVec 12) (pp : Fin 8) (st : BitVec 16) (x4 : Bool) (rtt : BitVec 16) (now : DWord) (s : State),
    Runs (.muralLinkUp port peer pp st x4 rtt now) s (fun t =>
      if s.link port.val ≠ lkTRAINING ∨ (s.mport port.val).trans.isSome = true then t = s
      else t.link port.val = lkUP ∧ (t.mport port.val).rxSeq = 0 ∧ (t.mport port.val).txSeq = 0 ∧ (t.mport port.val).credit = [] ∧
        t.fld (pgPORT port.val) f_MUR_PORT_PEER_ID = peer.toNat ∧ t.fld (pgPORT port.val) f_MUR_PORT_PEER_PORT = pp.val ∧
        t.fld (pgPORT port.val) f_MUR_PORT_PEER_STEPPING = st.toNat ∧ t.fld (pgPORT port.val) f_MUR_PORT_PEER_VALID = 1 ∧
        t.fld (pgPORT port.val) f_MUR_PORT_STATUS_X4 = (if x4 then 1 else 0) ∧ t.fld (pgPORT port.val) f_MUR_PORT_RTT_NS = rtt.toNat ∧
        Raised (pgPORT port.val) ev_murPort_LINK_UP s t)) ∧
  (∀ (port : Fin 8) (los : Bool) (now : DWord) (x : MPort) (s : State), s.mport port.val = x →
    Runs (.muralLinkDown port los now) s (fun t =>
      (los = true → t.fld (pgPORT port.val) f_MUR_PORT_STATUS_LOS = 1) ∧
      (if x.trans.isSome = true ∨ s.link port.val = lkDOWN ∨ (los = false ∧ (s.link port.val ≠ lkUP ∨ x.lock = 2)) then
        t.mur = s.mur ∧ t.ops = s.ops ∧ t.link port.val = s.link port.val
      else t.link port.val = lkDOWN ∧ (t.mport port.val).queue = [] ∧ (t.mport port.val).sent = [] ∧ (t.mport port.val).part = [] ∧
        (t.mport port.val).downWait = true ∧ Raised (pgPORT port.val) ev_murPort_LINK_DOWN s t ∧
        ((s.ledger (pgPORT port.val) 2).held ≤ 4096 → (t.ledger (pgPORT port.val) 2).held = 0) ∧
        ∀ e ∈ entriesIn (x.queue ++ x.sent.map (fun f => f.flit)), smFind t.mur.reqs e = none ∧
          ∀ q o op, smFind s.mur.reqs e = some q → s.mop q.tag = some o → o.out = 1 → o.fail = none → s.op q.tag = some op → op.phase = .issued →
            t.endedAs q.tag scLINK ∧ (t.op q.tag).map (fun y => y.detail) = some port.val))) ∧
  (∀ (port : Fin 8) (now : DWord) (x : MPort) (s : State), s.mport port.val = x →
    Runs (.linkDownTimeout port now) s (fun t =>
      if x.downWait = false then t = s
      else (t.mport port.val).downWait = false ∧ (t.mport port.val).heldTarget = none ∧
        ((s.ledger (pgPORT port.val) 0).held ≤ 4096 → (t.ledger (pgPORT port.val) 0).held = 0) ∧
        (if x.heldTarget.getD (s.fld (pgPORT port.val) f_MUR_PORT_STATUS_POWER) = s.fld (pgPORT port.val) f_MUR_PORT_STATUS_POWER then
          t.link port.val = (if s.fld (pgPORT port.val) f_MUR_PORT_STATUS_POWER = 0 then lkTRAINING else s.link port.val)
         else t.fld (pgPORT port.val) f_MUR_PORT_STATUS_TRANSITION = 1 ∧ (t.mport port.val).trans = x.heldTarget))) ∧
  (∀ (port : Fin 8) (vc : Fin 3) (s : State),
    Runs (.routeStall port vc) s (fun t =>
      if (s.mport port.val).queue.any (fun f => f.vc == vc.val) = true ∧ smGet 0 (s.mport port.val).credit vc.val = 0 then
        Raised pgMUR ev_mur0_ROUTE_STALL s t ∧ t.mur = s.mur
      else t = s)) ∧
  (∀ (port : Fin 8) (v : Word) (s : State), s.reaches 0 = true → RsvClear (pgPORT port.val) r_MUR_PORT_TEST v →
    Runs (.portTest port v) s (fun t =>
      t.fld (pgPORT port.val) f_MUR_PORT_TEST_SECONDS = v.toNat / 65536 ∧
      (if s.link port.val = lkUP ∧ s.fld (pgPORT port.val) f_MUR_PORT_CTRL_DRAIN = 1 then
        t.fld (pgPORT port.val) f_MUR_PORT_TEST_RUN = 1 ∧ t.fld (pgPORT port.val) f_MUR_PORT_TEST_DONE = 0 ∧
        t.fld (pgPORT port.val) f_MUR_PORT_TEST_PASS = 0 ∧ t.word (pgPORT port.val) r_MUR_PORT_TEST_ERRORS = 0
       else t.fld (pgPORT port.val) f_MUR_PORT_TEST_RUN = s.fld (pgPORT port.val) f_MUR_PORT_TEST_RUN ∧
        Raised (pgPORT port.val) evWRITE_DISCARDED s t))) ∧
  (∀ (port : Fin 8) (errors : Word) (s : State),
    Runs (.testDone port errors) s (fun t =>
      if s.fld (pgPORT port.val) f_MUR_PORT_TEST_RUN = 0 then t = s
      else t.fld (pgPORT port.val) f_MUR_PORT_TEST_RUN = 0 ∧ t.fld (pgPORT port.val) f_MUR_PORT_TEST_DONE = 1 ∧
        t.word (pgPORT port.val) r_MUR_PORT_TEST_ERRORS = errors ∧ t.fld (pgPORT port.val) f_MUR_PORT_TEST_PASS = (if errors = 0 then 1 else 0) ∧
        Raised (pgPORT port.val) ev_murPort_TEST_DONE s t))

/-- R396, R397, R401, R417 to R419: an accepted lifecycle command burns the next state, wipes the Reserve and resets the module; a wipe leaves
no key; debug commands answer by the lifecycle; a tamper trip wipes and is FATAL; a nonce is drawn at every read; counters only rise. -/
def Obligations.LifecycleCommandsAndTamperWipe : Prop :=
  (∀ (c : Instr) (n : Nat) (now : DWord) (s : State), (c, n) ∈ [(.lcDeploy now, 1), (.lcReturn now, 2), (.lcEnd now, 3)] → s.reaches 0 = true →
    s.lifecycle = n →
    Runs c s (fun t => t.lifecycle = n + 1 ∧
      (∃ u : State, u.word pgMOD r_MOD_RESET_COUNT = s.word pgMOD r_MOD_RESET_COUNT ∧ AfterReset 2 u t) ∧
      (n = 2 → ∀ p a, 5 ≤ p → p < 16 → a < s.partBlocks p * 4096 → smGet 0 t.mem.flash (p * 2 ^ 43 + a) = 0))) ∧
  (∀ (c : Instr) (n : Nat) (now : DWord) (s : State), (c, n) ∈ [(.lcDeploy now, 1), (.lcReturn now, 2), (.lcEnd now, 3)] → s.reaches 0 = true →
    s.lifecycle ≠ n → Runs c s (fun t => Raised pgSEC evWRITE_DISCARDED s t ∧ WordsBut [(pgSEC, hRAW), (pgSEC, hSETCOUNT)] s t)) ∧
  (∀ (now : DWord) (s : State), s.reaches 0 = true →
    Runs (.lcWipe now) s (fun t =>
      t.sec.wiped = true ∧ t.sec.keys = [] ∧ t.sec.sessions = [] ∧ t.hif.ideKeys = [] ∧ t.cad.dip.keyed = false ∧
      (∀ j, (t.mjob j).key = none) ∧ (∀ k, 1 ≤ k → k ≤ 32 → (t.tenant k).tdi ≠ 1 ∧ (t.tenant k).tdi ≠ 2) ∧
      (s.sec.load = none → ∀ r < 16, t.wrState r = (if s.wrState r = wrEMPTY then wrEMPTY else wrFAILED)) ∧
      t.fld pgSEC f_SEC_LC_TAMPERED = 1 ∧ t.fld pgSEC f_SEC_WIPE_COUNT_WIPES = min (s.fld pgSEC f_SEC_WIPE_COUNT_WIPES + 1) 0xFFFF ∧
      (smGet false s.flt.wire (pgSEC * 4 + 3) = false → bitOf (t.word pgFLT hRAW) ev_flt_FATAL = true ∧ t.pow.noFatal = false) ∧
      t.fld pgSEC f_SEC_LC_RESULT_REASON = 0 ∧ bitOf (t.word pgSEC hRAW) ev_sec_LC_DONE = true)) ∧
  (∀ (s : State), s.reaches 0 = true →
    Runs .debugField s (fun t => Raised pgSEC ev_sec_LC_DONE s t ∧
      (if s.lifecycle = 1 ∨ s.lifecycle = 2 ∨ s.lifecycle = 3 then
        t.fld pgSEC f_SEC_LC_DEBUG_NEXT = 1 ∧ t.fld pgSEC f_SEC_LC_RESULT_REASON = 0
       else t.word pgSEC r_SEC_LC = s.word pgSEC r_SEC_LC ∧ t.fld pgSEC f_SEC_LC_RESULT_REASON = 8) ∧
      t.fld pgSEC f_SEC_LC_DEBUG = s.fld pgSEC f_SEC_LC_DEBUG ∧
      WordsBut [(pgSEC, hRAW), (pgSEC, hSETCOUNT), (pgSEC, r_SEC_LC), (pgSEC, r_SEC_LC_RESULT)] s t)) ∧
  (∀ (s : State), s.reaches 0 = true →
    Runs .debugClose s (fun t => Raised pgSEC ev_sec_LC_DONE s t ∧ t.fld pgSEC f_SEC_LC_DEBUG_NEXT = 0 ∧ t.fld pgSEC f_SEC_LC_RESULT_REASON = 0 ∧
      t.fld pgSEC f_SEC_LC_DEBUG = s.fld pgSEC f_SEC_LC_DEBUG ∧
      WordsBut [(pgSEC, hRAW), (pgSEC, hSETCOUNT), (pgSEC, r_SEC_LC), (pgSEC, r_SEC_LC_RESULT)] s t)) ∧
  (∀ (now : DWord) (s : State), s.reaches 0 = true →
    Runs (.debugOpen now) s (fun t => bitOf (t.word pgSEC hRAW) ev_sec_LC_DONE = true ∧
      (if s.lifecycle ≠ 0 ∧ s.lifecycle ≠ 3 then
        t.fld pgSEC f_SEC_LC_RESULT_REASON = 8 ∧ t.word pgSEC r_SEC_LC = s.word pgSEC r_SEC_LC ∧ t.sec = s.sec
       else if Config.ecdsaOk (Config.fwKeyDigest 2) s.token s.tokenDigest = true then
        t.fld pgSEC f_SEC_LC_DEBUG = 2 ∧ t.fld pgSEC f_SEC_LC_RESULT_REASON = 0 ∧ t.sec.wiped = true ∧ t.sec.keys = [] ∧
        t.fld pgSEC f_SEC_WIPE_COUNT_WIPES = min (s.fld pgSEC f_SEC_WIPE_COUNT_WIPES + 1) 0xFFFF
       else t.fld pgSEC f_SEC_LC_RESULT_REASON ≠ 0 ∧ t.word pgSEC r_SEC_LC = s.word pgSEC r_SEC_LC ∧ t.sec = s.sec))) ∧
  (∀ (s : State), s.reaches 0 = true →
    Runs .nonceRead s (fun t => t.reply = t.wideOf pgSEC r_SEC_NONCE_LO % 2 ^ 32 ∧
      (t.word pgSEC r_SEC_NONCE_HI).toNat = t.wideOf pgSEC r_SEC_NONCE_LO / 2 ^ 32 ∧ t.free = s.free + 1 ∧
      WordsBut [(pgSEC, r_SEC_NONCE_HI)] s t)) ∧
  (∀ (v : Fin 256) (c : Nat) (s : State), s.reaches 0 = true → s.fld pgSEC f_SEC_ARB_SEL_COUNTER = c →
    Runs (.arbAdvance v) s (fun t =>
      (∀ d, smGet 0 s.sec.arb d ≤ smGet 0 t.sec.arb d) ∧
      (if smGet 0 s.sec.arb c < v.val then smGet 0 t.sec.arb c = v.val ∧ WordsBut [] s t
       else t.sec = s.sec ∧ Raised pgSEC evWRITE_DISCARDED s t))) ∧
  (∀ (closed : Fin 4) (held : Fin 256) (dets : Fin 8) (now : DWord) (s : State),
    Runs (.tamper closed held dets now) s (fun t =>
      if s.pow.phase = .off then t = s.at now.toNat
      else if s.trips closed.val held.val dets.val = 0 then
        t.fld pgSEC f_SEC_TAMPER_STATUS_EXT_LEVEL = closed.val ∧ t.sec = s.sec ∧ t.pow = s.pow ∧ WordsBut [(pgSEC, r_SEC_TAMPER_STATUS)] s t
      else t.word pgSEC r_SEC_TAMPER_STATUS = fldPut (s.word pgSEC r_SEC_TAMPER_STATUS) f_SEC_TAMPER_STATUS_EXT_LEVEL closed.val |||
          BitVec.ofNat 32 (s.trips closed.val held.val dets.val) ∧
        (4 ≤ s.trips closed.val held.val dets.val → t.pow.envOk = false) ∧
        t.sec.wiped = true ∧ t.sec.keys = [] ∧ t.sec.sessions = [] ∧ (∀ j, (t.mjob j).key = none) ∧ t.fld pgSEC f_SEC_LC_TAMPERED = 1 ∧
        t.fld pgSEC f_SEC_WIPE_COUNT_TAMPERS = min (s.fld pgSEC f_SEC_WIPE_COUNT_TAMPERS + 1) 0xFFFF ∧
        bitOf (t.word pgSEC hRAW) ev_sec_TAMPER = true ∧
        (smGet false s.flt.wire (pgSEC * 4 + 3) = false → bitOf (t.word pgFLT hRAW) ev_flt_FATAL = true ∧ t.pow.noFatal = false))) ∧
  (∀ (closed : Fin 4) (held : Fin 256) (dets : Fin 8) (n : Nat) (s : State), n < 2 →
    (s.trips closed.val held.val dets.val / 2 ^ n % 2 = 1 ↔
      s.fld pgSEC f_SEC_TAMPER_CFG_ARM / 2 ^ n % 2 = 1 ∧ closed.val / 2 ^ n % 2 = s.fld pgSEC f_SEC_TAMPER_CFG_POLARITY / 2 ^ n % 2 ∧
        s.fld pgSEC f_SEC_TAMPER_CFG_FILTER_US ≤ held.val)) ∧
  (∀ (s : State), Runs .trngHealthRestored s (fun t => t.sec = { s.sec with trngFail := false } ∧ WordsBut [] s t ∧ t.mem = s.mem))

/-- R409 to R411, R414, R416: a weight load makes its tests in order, claims its frames and fills them; an unload zeroes and frees them; a
key envelope is installed, or says why not; GESSO primes the tenant's state on its panels. Every command of the security block completes, and
none takes the lifecycle or an anti-rollback counter back (R396, R401). -/
def Obligations.WeightsKeysAndGessoGoTheirWay : Prop :=
  (∀ (c : Instr) (v : Fin 256) (closed : Fin 4) (held : Fin 256) (dets : Fin 8) (k : Fin 64) (media : List Nat) (now : DWord) (s : State),
    c ∈ [.lcDeploy now, .lcReturn now, .lcEnd now, .lcWipe now, .debugField, .debugClose, .debugOpen now, .nonceRead, .arbAdvance v,
      .tamper closed held dets now, .trngHealthRestored, .wrLoad now, .wrUnload, .weightLoadComplete media now, .installJob k, .installPair,
      .clearJob k, .clearPair] → s.reaches 0 = true →
    Runs c s (fun t => s.lifecycle ≤ t.lifecycle ∧ t.lifecycle ≤ s.lifecycle + 1 ∧
      (t.lifecycle ≠ s.lifecycle → c ∈ [.lcDeploy now, .lcReturn now, .lcEnd now]) ∧ ∀ d, smGet 0 s.sec.arb d ≤ smGet 0 t.sec.arb d)) ∧
  (∀ (now : DWord) (r : Nat) (s : State), s.reaches 0 = true → s.fld pgSEC f_SEC_WR_SEL_REGION = r →
    Runs (.wrLoad now) s (fun t =>
      if s.sec.load.isSome = true ∨ s.wrState r = wrLOADED then Raised pgSEC evWRITE_DISCARDED s t ∧ t.sec = s.sec ∧ t.mem = s.mem
      else match s.loadTests r with
        | .error e => t.fld (hmWR r) f_SEC_WR_STATUS_RESULT = e % 256 ∧ t.wrState r = s.wrState r ∧ Raised pgSEC ev_sec_WR_DONE s t ∧
          t.sec = s.sec ∧ t.mem = s.mem
        | .ok (h, ck) =>
          if s.framesFree (s.fld (hmWR r) f_SEC_WR_FRAME_FRAME) (imageFrames (mwBlocks h)) = false then
            t.fld (hmWR r) f_SEC_WR_STATUS_RESULT = 7 ∧ t.wrState r = wrFAILED ∧ Raised pgSEC ev_sec_WR_DONE s t ∧ t.mem = s.mem
          else t.wrState r = wrLOADING ∧ t.sec.load = some r ∧ smFind t.sec.keys r = some ck ∧
            t.wrFrames r = (s.fld (hmWR r) f_SEC_WR_FRAME_FRAME, imageFrames (mwBlocks h)) ∧
            ∀ i < imageFrames (mwBlocks h), t.frameKind (s.fld (hmWR r) f_SEC_WR_FRAME_FRAME + i) = kWEIGHT ∧
              t.frameTenant (s.fld (hmWR r) f_SEC_WR_FRAME_FRAME + i) = s.fld (hmWR r) f_SEC_WR_CFG_TENANT)) ∧
  (∀ (r : Nat) (s : State), s.reaches 0 = true → s.fld pgSEC f_SEC_WR_SEL_REGION = r →
    Runs .wrUnload s (fun t =>
      if s.sec.load.isSome = true then Raised pgSEC evWRITE_DISCARDED s t ∧ t.sec = s.sec ∧ t.mem = s.mem
      else if s.wrMapped r = true then t.fld (hmWR r) f_SEC_WR_STATUS_RESULT = 10 ∧ t.wrState r = s.wrState r ∧ t.sec = s.sec ∧ t.mem = s.mem ∧
        Raised pgSEC ev_sec_WR_DONE s t
      else t.fld (hmWR r) f_SEC_WR_STATUS_RESULT = 0 ∧ t.wrState r = wrEMPTY ∧ Raised pgSEC ev_sec_WR_DONE s t ∧ smFind t.sec.keys r = none ∧
        t.wrFrames r = (s.fld (hmWR r) f_SEC_WR_FRAME_FRAME, 0) ∧
        ∀ i, i < (s.wrFrames r).2 → (∀ a, frameBase ((s.wrFrames r).1 + i) ≤ a → a < frameBase ((s.wrFrames r).1 + i) + 0x200000 →
            smGet 0 t.mem.mem a = 0) ∧
          ((∀ f, smGet false s.mem.badDue f = false) → t.frameKind ((s.wrFrames r).1 + i) = kFREE))) ∧
  (∀ (media : List Nat) (now : DWord) (s : State), s.sec.load = none → exec (.weightLoadComplete media now) s = .next (s.at now.toNat)) ∧
  (∀ (now : DWord) (r : Nat) (s : State), s.sec.load = some r → (s.wrSource r).2 < s.partBlocks (s.wrSource r).1 →
    Runs (.weightLoadComplete [(s.wrSource r).2] now) s (fun t => t.wrState r = wrFAILED ∧ t.fld (hmWR r) f_SEC_WR_STATUS_RESULT = 5 ∧
      t.sec.load = none ∧ smFind t.sec.keys r = none)) ∧
  (∀ (now : DWord) (r : Nat) (s : State), s.sec.load = some r →
    Runs (.weightLoadComplete [] now) s (fun t => t.sec.load = none ∧ Raised pgSEC ev_sec_WR_DONE s t ∧ match s.wrHeader r with
      | none => t.wrState r = wrFAILED ∧ t.fld (hmWR r) f_SEC_WR_STATUS_RESULT = 5 ∧ smFind t.sec.keys r = none
      | some h =>
        ((∃ i e, i < mwBlocks h ∧ s.modelBlock r h i = .error e) → t.wrState r = wrFAILED ∧ smFind t.sec.keys r = none ∧ t.sec.arb = s.sec.arb) ∧
        ((∀ i < mwBlocks h, ∃ b, s.modelBlock r h i = .ok b) → t.wrState r = wrLOADED ∧ t.fld (hmWR r) f_SEC_WR_STATUS_RESULT = 0 ∧
          t.sec.keys = s.sec.keys ∧ smGet 0 t.sec.arb (mwCounter h) = (if s.fld (hmWR r) f_SEC_WR_CFG_ADVANCE = 1 then
            max (smGet 0 s.sec.arb (mwCounter h)) (mwVersion h) else smGet 0 s.sec.arb (mwCounter h)) ∧
          ∀ i b j, i < mwBlocks h → s.modelBlock r h i = .ok b → j < min b.length 65536 →
            smGet 0 t.mem.mem (((s.wrFrames r).1 + tagFrames (mwBlocks h)) * 0x200000 + i * 65536 + j) = b.getD j 0))) ∧
  (∀ (c : Instr) (op slot : Nat) (k : Fin 64) (s : State),
    (c, op, slot) ∈ [(.installJob k, 1, k.val), (.installPair, 2, 0), (.clearJob k, 3, k.val), (.clearPair, 4, 0)] → s.reaches 0 = true →
    Runs c s (fun t => bitOf (t.word pgSEC hRAW) ev_sec_KEY_DONE = true ∧
      (if op ≤ 2 ∧ s.lifecycle ≠ 1 ∧ s.lifecycle ≠ 2 then t.fld pgSEC f_SEC_KEY_RESULT_RESULT = 7 ∧ t.mur = s.mur ∧ t.cad = s.cad
       else if s.sec.wiped = true then t.fld pgSEC f_SEC_KEY_RESULT_RESULT = 8 ∧ t.mur = s.mur ∧ t.cad = s.cad
       else if s.keyBusy op slot = true then t.fld pgSEC f_SEC_KEY_RESULT_RESULT = 4 ∧ t.mur = s.mur ∧ t.cad = s.cad
       else if op = 3 then t.fld pgSEC f_SEC_KEY_RESULT_RESULT = 0 ∧ t.mjob slot = { s.mjob slot with key := none, ctr := 0, acc := [] }
       else if op = 4 then t.fld pgSEC f_SEC_KEY_RESULT_RESULT = 0 ∧ t.cad.dip.keyed = false ∧ t.fld pgSEC f_SEC_KEY_RESULT_PAIR_KEY = 0
       else match s.readDva (bareWho 0) s.keyArg 256 with
        | .bad _ _ => t.fld pgSEC f_SEC_KEY_RESULT_RESULT = 6
        | .ok _ true => t.fld pgSEC f_SEC_KEY_RESULT_RESULT = 6 ∧ t.mur = s.mur ∧ t.cad = s.cad
        | .ok b false => match envelopeKey b op (if op = 1 then s.jobId slot else 0) with
          | .error e => t.fld pgSEC f_SEC_KEY_RESULT_RESULT = e % 256 ∧ t.mur = s.mur ∧ t.cad = s.cad
          | .ok key => t.fld pgSEC f_SEC_KEY_RESULT_RESULT = 0 ∧
            (op = 1 → t.mjob slot = { s.mjob slot with key := some key, ctr := 0, acc := [] } ∧ t.cad = s.cad) ∧
            (op = 2 → t.cad.dip.keyed = true ∧ t.fld pgSEC f_SEC_KEY_RESULT_PAIR_KEY = 1 ∧ t.mur = s.mur)))) ∧
  (∀ (tag : Fin 8192) (now : DWord) (s : State), (s.op tag.val).all (fun o => o.group.any (fun p => s.stepRuns p)) = true →
    exec (.gesso tag now) s = .next s) ∧
  (∀ (tag : Fin 8192) (now : DWord) (b : State) (o : Op) (a : List Byte) (d : Nat) (s : State),
    (s.op tag.val).any (fun x => x.group.any (fun p => s.stepRuns p)) = false → s.begins tag.val 0xE now.toNat = some (b, o) → o.d.arg ≠ 0 →
    b.readDva (o.who tag.val) o.d.arg 64 = .ok a false → gessoArgFault a = some d →
    Runs (.gesso tag now) s (fun t => t.endedAs tag.val scARG ∧ (t.op tag.val).map (fun x => x.detail) = some d ∧ t.mem = s.mem)) ∧
  (∀ (tag : Fin 8192) (now : DWord) (b : State) (o : Op) (keep : Bool) (s : State),
    (s.op tag.val).any (fun x => x.group.any (fun p => s.stepRuns p)) = false → s.begins tag.val 0xE now.toNat = some (b, o) →
    (o.d.arg = 0 ∧ keep = false) ∨ (o.d.arg ≠ 0 ∧ ∃ a, b.readDva (o.who tag.val) o.d.arg 64 = .ok a false ∧ gessoArgFault a = none ∧
      keep = (leAt a 0 4 == 1)) →
    Runs (.gesso tag now) s (fun t =>
      t.endedAs tag.val scOK ∧ (t.op tag.val).map (fun x => x.detail) = some o.group.length ∧
      ∀ p ∈ o.group,
          (keep = false → ∀ e ∈ t.pan.carts, e.1 / 65536 ≠ p * 64 + o.tenant) ∧
          (if s.panelMode p ≠ 0 ∨ s.resident p = o.tenant then
            (∀ x, x < 0x800000 → smGet 0 t.mem.pal (p * 0x800000 + x) = 0) ∧
            (keep = false → ∀ x, x < 0x400000 → smGet 0 t.mem.stores (p * 0x400000 + x) = 0)
           else (t.savedOf p o.tenant).pal = [] ∧ (keep = false → t.savedOf p o.tenant = savedReset)))) ∧
  (∀ (tag : Fin 8192) (now : DWord) (o : Op) (g : Nat) (s : State), s.op tag.val = some o → o.phase = .waiting → o.d.opcode = 0xE →
    o.abandoned = false → o.group.any (fun p => s.stepRuns p) = false → s.waitPoisoned o.tenant o.d.wait0 = false →
    s.waitPoisoned o.tenant o.d.wait1 = false → s.ready o = true → s.yields o = false →
    o.group.findIdx? (fun p => (s.panel p).lost) = some g →
    Runs (.gesso tag now) s (fun t => t.endedAs tag.val scPANEL ∧ (t.op tag.val).map (fun x => x.detail) = some (g % 128 * 4096) ∧ t.mem = s.mem))

/-- R402, R403, R419: the mailbox answers by the lifecycle, the debug state and the Reserve; certificates, challenges and measurements are
answered with the module's own nonce; at most four sessions are open, and a secured message needs an established one. The answers'
codes are the model's own (log entry 60). -/
def Obligations.SpdmAnswersAndSessions : Prop :=
  (∀ (c : Instr) (code : Nat) (b : List Byte) (offered : Fin 16) (s : State),
    (c, code, b) ∈ [(.getVersion, 0x04, [0x12#8, 0x13#8]), (.getCapabilities, 0x61, toLe 4 0x62F6),
      (.negotiateAlgorithms offered, 0x63, [BitVec.ofNat 8 offered.val])] → s.cfgReaches = true →
    Runs c s (fun t => WordsBut [] s t ∧ t.sec = s.sec ∧
      t.out = s.out ++ [if s.spdmBare = false ∧ s.sec.wiped = true then ⟨.mctp, 3, [0x7F], [5#8]⟩ else ⟨.mctp, 3, [code], b⟩])) ∧
  (∀ (c : Instr) (slot : Fin 8) (off len : Fin 65536) (nonce : BitVec 256) (index : Fin 256) (data : List Byte) (sid : Fin 4) (ok : Bool) (m : IdeKm)
      (k : Fin 32) (stream : Fin 34) (now : DWord) (s : State),
    c ∈ [.getCertificate slot off len, .challenge slot nonce, .getMeasurements index true nonce now, .keyExchange data now, .spdmFinish sid ok,
      .endSession sid, .spdmHeartbeat sid now, .keyUpdate sid, .ideKm sid m now, .getTdispVersion sid k, .getTdispCapabilities sid k,
      .lockInterfaceRequest sid k stream ok, .getDeviceInterfaceReport sid k, .getDeviceInterfaceState sid k,
      .startInterfaceRequest sid k nonce, .stopInterfaceRequest sid k now] → s.cfgReaches = true → s.spdmBare = true ∨ s.sec.wiped = true →
    Runs c s (fun t => t.out = s.out ++ [⟨.mctp, 3, [0x7F], [5#8]⟩] ∧ t.sec = s.sec ∧ t.hif = s.hif ∧ WordsBut [] s t)) ∧
  (∀ (slot : Fin 8) (off len : Fin 65536) (nonce : BitVec 256) (s : State), s.cfgReaches = true → s.spdmBare = false → s.sec.wiped = false →
    Runs (.getCertificate slot off len) s (fun t => t.sec = s.sec ∧ WordsBut [] s t ∧
      t.out = s.out ++ [if slot.val = 0 then ⟨.mctp, 3, [2], (s.chain.drop off.val).take len.val⟩ else ⟨.mctp, 3, [0x7F], [1#8]⟩]) ∧
    Runs (.challenge slot nonce) s (fun t => t.sec = s.sec ∧ WordsBut [] s t ∧
      (slot.val ≠ 0 → t.out = s.out ++ [⟨.mctp, 3, [0x7F], [1#8]⟩]) ∧
      (slot.val = 0 → ∃ own : List Byte, own.length = 32 ∧ t.out = s.out ++ [⟨.mctp, 3, [3], Config.sha384 s.chain ++ own ++
        s.aliasSign (toLe 32 nonce.toNat ++ (Config.sha384 s.chain ++ own))⟩]))) ∧
  (∀ (index : Fin 256) (signed : Bool) (nonce : BitVec 256) (now : DWord) (s : State), s.cfgReaches = true →
    (s.spdmBare = true ∧ signed = false) ∨ (s.spdmBare = false ∧ s.sec.wiped = false) →
    Runs (.getMeasurements index signed nonce now) s (fun t => t.sec = s.sec ∧ WordsBut [] s t ∧
      (9 ≤ index.val → index.val < 255 → t.out = s.out ++ [⟨.mctp, 3, [0x7F], [1#8]⟩]) ∧
      (index.val ≤ 8 ∨ index.val = 255 → ∃ own body : List Byte, own.length = 32 ∧
        body = (if index.val = 0 then [8#8]
          else if index.val = 255 then [8#8] ++ [1, 2, 3, 4, 5, 6, 7, 8].flatMap (s.at now.toNat).measBlock
          else [1#8] ++ (s.at now.toNat).measBlock index.val) ++ own ∧
        t.out = s.out ++ [⟨.mctp, 3, [0x60], if signed then body ++ s.aliasSign (toLe 32 nonce.toNat ++ body) else body⟩]))) ∧
  (∀ (data : List Byte) (now : DWord) (s : State), s.cfgReaches = true → s.spdmBare = false → s.sec.wiped = false →
    Runs (.keyExchange data now) s (fun t => WordsBut [] s t ∧
      if s.sec.trngFail = true then t.out = s.out ++ [⟨.mctp, 3, [0x7F], [5#8]⟩] ∧ t.sec = s.sec
      else match smFresh s.sec.sessions 0 4 with
        | none => t.out = s.out ++ [⟨.mctp, 3, [0x7F], [0x0A#8]⟩] ∧ t.sec = s.sec
        | some k => t.session k = some ⟨false, 0, (s.at now.toNat).time⟩ ∧ k < 4 ∧ s.session k = none ∧
          (∃ key : List Byte, t.out = s.out ++ [⟨.mctp, 3, [0x64], toLe 1 k ++ key ++ s.aliasSign (data ++ (toLe 1 k ++ key))⟩]) ∧ ∀ j, j ≠ k → t.session j = s.session j)) ∧
  (∀ (sid : Fin 4) (ok : Bool) (s : State), s.cfgReaches = true → s.spdmBare = false → s.sec.wiped = false →
    Runs (.spdmFinish sid ok) s (fun t => WordsBut [] s t ∧ match s.session sid.val with
      | none => t.out = s.out ++ [⟨.mctp, 3, [0x7F], [2#8]⟩] ∧ t.sec = s.sec
      | some x =>
        if x.established = true then t.out = s.out ++ [⟨.mctp, 3, [0x7F], [4#8]⟩] ∧ t.sec = s.sec
        else if ok = true then t.session sid.val = some { x with established := true } ∧ t.out = s.out ++ [⟨.mctp, 3, [0x65], []⟩]
        else t.session sid.val = none ∧ t.out = s.out ++ [⟨.mctp, 3, [0x7F], [6#8]⟩])) ∧
  (∀ (c : Instr) (sid : Fin 4) (m : IdeKm) (k : Fin 32) (stream : Fin 34) (b : Bool) (nonce : BitVec 256) (now : DWord) (s : State),
    c ∈ [.endSession sid, .spdmHeartbeat sid now, .keyUpdate sid, .ideKm sid m now, .getTdispVersion sid k, .getTdispCapabilities sid k,
      .lockInterfaceRequest sid k stream b, .getDeviceInterfaceReport sid k, .getDeviceInterfaceState sid k,
      .startInterfaceRequest sid k nonce, .stopInterfaceRequest sid k now] → s.cfgReaches = true → s.spdmBare = false → s.sec.wiped = false →
    (s.session sid.val).all (fun x => !x.established) = true →
    Runs c s (fun t => t.out = s.out ++ [⟨.mctp, 3, [0x7F], [2#8]⟩] ∧ t.sec = s.sec ∧ t.hif = s.hif ∧ WordsBut [] s t)) ∧
  (∀ (sid : Fin 4) (x : Session) (now : DWord) (s : State), s.cfgReaches = true → s.spdmBare = false → s.sec.wiped = false →
    s.session sid.val = some x → x.established = true →
    Runs (.endSession sid) s (fun t => t.session sid.val = none ∧ t.out = s.out ++ [⟨.mctp, 3, [0x6C], []⟩] ∧ WordsBut [] s t) ∧
    Runs (.spdmHeartbeat sid now) s (fun t => t.session sid.val = some { x with heard := (s.at now.toNat).time } ∧
      t.out = s.out ++ [⟨.mctp, 3, [0x68], []⟩] ∧ WordsBut [] s t) ∧
    Runs (.keyUpdate sid) s (fun t => t.session sid.val = some { x with keyGen := x.keyGen + 1 } ∧
      t.out = s.out ++ [⟨.mctp, 3, [0x69], []⟩] ∧ WordsBut [] s t))

/-- R335, R405, R406: IDE_KM programs, starts and stops the keys of a stream; a TDI is locked, reported, started with its nonce and stopped by
TDISP messages in an established session of a DEPLOYED module. Every request of the mailbox is answered once, writes no register and no memory,
and opens no fifth session (R402). The answers' codes are the model's own (log entry 60). -/
def Obligations.IdeKmAndTdispMoveInterfaces : Prop :=
  (∀ (c : Instr) (offered : Fin 16) (slot : Fin 8) (off len : Fin 65536) (nonce : BitVec 256) (index : Fin 256) (b : Bool) (data : List Byte)
      (sid : Fin 4) (now : DWord) (s : State),
    c ∈ [.getVersion, .getCapabilities, .negotiateAlgorithms offered, .getCertificate slot off len, .challenge slot nonce,
      .getMeasurements index b nonce now, .keyExchange data now, .spdmFinish sid b, .endSession sid, .spdmHeartbeat sid now, .keyUpdate sid] →
    s.cfgReaches = true →
    Runs c s (fun t => (∃ m, t.out = s.out ++ [m] ∧ m.kind = .mctp ∧ m.port = 3) ∧ WordsBut [] s t ∧ t.mem = s.mem ∧ t.hif = s.hif ∧
      ((∀ k, 4 ≤ k → s.session k = none) → ∀ k, 4 ≤ k → t.session k = none))) ∧
  (∀ (sid : Fin 4) (n : Fin 34) (x : Session) (now : DWord) (s : State), s.cfgReaches = true → s.spdmBare = false → s.sec.wiped = false →
    s.session sid.val = some x → x.established = true →
    Runs (.ideKm sid (.query n) now) s (fun t => t.hif = s.hif ∧
      t.out = s.out ++ [⟨.mctp, 2, [0x81, n.val], [BitVec.ofNat 8 (smGet 0 s.hif.ide n.val)]⟩]) ∧
    Runs (.ideKm sid (.keyProg n) now) s (fun t => t.ideKeyed n.val = true ∧ t.hif.ide = s.hif.ide ∧ t.out = s.out ++ [⟨.mctp, 2, [0x82, n.val], []⟩]) ∧
    Runs (.ideKm sid (.setGo n) now) s (fun t =>
      if s.ideKeyed n.val = true then smGet 0 t.hif.ide n.val = 1 ∧ t.out = s.out ++ [⟨.mctp, 2, [0x83, n.val], []⟩]
      else t.hif = s.hif ∧ t.out = s.out ++ [⟨.mctp, 2, [0xFF, n.val], []⟩]) ∧
    Runs (.ideKm sid (.setStop n) now) s (fun t => smGet 0 t.hif.ide n.val ≠ 1 ∧
      (smGet 0 s.hif.ide n.val = 1 → ∀ e ∈ s.sec.bound, e.2 = n.val → (t.tenant e.1).tdi ≠ 1 ∧ (t.tenant e.1).tdi ≠ 2) ∧
      t.out.getLast? = some ⟨.mctp, 2, [0x84, n.val], []⟩)) ∧
  (∀ (c : Instr) (sid : Fin 4) (x : Session) (k : Fin 32) (stream : Fin 34) (b : Bool) (nonce : BitVec 256) (now : DWord) (s : State),
    c ∈ [.getTdispVersion sid k, .getTdispCapabilities sid k, .lockInterfaceRequest sid k stream b, .getDeviceInterfaceReport sid k,
      .getDeviceInterfaceState sid k, .startInterfaceRequest sid k nonce, .stopInterfaceRequest sid k now] → s.cfgReaches = true →
    s.spdmBare = false → s.sec.wiped = false → s.session sid.val = some x → x.established = true → s.lifecycle ≠ 2 →
    Runs c s (fun t => t.out = s.out ++ [⟨.mctp, 2, [tdERROR, k.val + 1], []⟩] ∧ t.sec = s.sec ∧ t.hif = s.hif ∧ WordsBut [] s t)) ∧
  (∀ (sid : Fin 4) (x : Session) (k : Fin 32) (stream : Fin 34) (b : Bool) (nonce : BitVec 256) (now : DWord) (n : Nat) (s : State),
    s.cfgReaches = true → s.spdmBare = false → s.sec.wiped = false → s.session sid.val = some x → x.established = true → s.lifecycle = 2 →
    k.val + 1 = n →
    Runs (.getTdispVersion sid k) s (fun t => t.out = s.out ++ [⟨.mctp, 2, [tdVERSION, n], [0x10#8]⟩] ∧ t.sec = s.sec ∧ WordsBut [] s t) ∧
    Runs (.getTdispCapabilities sid k) s (fun t => t.out = s.out ++ [⟨.mctp, 2, [tdCAPABILITIES, n],
      [0x81#8, 0x82#8, 0x83#8, 0x84#8, 0x85#8, 0x86#8, 0x87#8]⟩] ∧ t.sec = s.sec ∧ WordsBut [] s t) ∧
    Runs (.getDeviceInterfaceState sid k) s (fun t => t.out = s.out ++ [⟨.mctp, 2, [tdSTATE, n], [BitVec.ofNat 8 (s.tenant n).tdi]⟩] ∧
      t.sec = s.sec ∧ WordsBut [] s t) ∧
    Runs (.getDeviceInterfaceReport sid k) s (fun t => t.sec = s.sec ∧ t.hif = s.hif ∧ WordsBut [] s t ∧
      t.out = s.out ++ [if (s.tenant n).tdi = 1 ∨ (s.tenant n).tdi = 2 then ⟨.mctp, 2, [tdREPORT, n], s.tdiReport n⟩
        else ⟨.mctp, 2, [tdERROR, n], []⟩]) ∧
    Runs (.lockInterfaceRequest sid k stream b) s (fun t => WordsBut [] s t ∧
      if (s.tenant n).tdi = 0 ∧ s.tenantRunning n = true ∧ stream.val ≠ 0 ∧ s.ideKeyed stream.val = true ∧
          smGet 0 s.hif.ide stream.val = 1 then
        (t.tenant n).tdi = 1 ∧ smFind t.sec.bound n = some stream.val ∧ smGet false t.sec.noUpdate n = b ∧
        ∃ z, z < 2 ^ 256 ∧ smFind t.sec.nonces n = some z ∧ t.out = s.out ++ [⟨.mctp, 2, [tdLOCK, n], toLe 32 z⟩]
      else t.out = s.out ++ [⟨.mctp, 2, [tdERROR, n], []⟩] ∧ t.sec = s.sec ∧ t.hif = s.hif) ∧
    Runs (.startInterfaceRequest sid k nonce) s (fun t => WordsBut [] s t ∧ t.sec = s.sec ∧
      if (s.tenant n).tdi = 1 ∧ smFind s.sec.nonces n = some nonce.toNat then
        (t.tenant n).tdi = 2 ∧ t.out = s.out ++ [⟨.mctp, 2, [tdSTART, n], []⟩]
      else t.hif = s.hif ∧ t.out = s.out ++ [⟨.mctp, 2, [tdERROR, n], []⟩]) ∧
    Runs (.stopInterfaceRequest sid k now) s (fun t => smFind t.sec.bound n = none ∧ smFind t.sec.nonces n = none ∧
      (t.tenant n).state ≠ stRUNNING ∧ (t.tenant n).state ≠ stCHECKING ∧
      ((s.tenant n).state ≠ stRUNNING → (s.tenant n).state ≠ stQUIESCING → (t.tenant n).state = stOFF ∧ (t.tenant n).tdi = 0 ∧
        t.out.getLast? = some ⟨.mctp, 2, [tdSTOP, n], []⟩)))

/-- R28: every write of the owner to a page of the TNT mirror is discarded, with the mirror page's WRITE_DISCARDED set. -/
def Obligations.TheTenantMirrorIsReadOnly : Prop :=
  ∀ (p : Fin 4096) (c : Instr) (w : RegWrite) (v : Word) (x y : Bool) (s : State), s.reaches 0 = true → 0xC00 ≤ p.val → pageExists p.val = true →
    c ∈ [.registerWrite (.pf p) w, .enable (.pf p), .disable (.pf p), .quiesce (.pf p), .quiesceClear (.pf p), .softReset (.pf p),
      .lockPage (.pf p), .evtRawClear (.pf p) v, .evtForce (.pf p) v, .errStatusClear (.pf p) x y, .clrCounts (.pf p), .ledgerSnapshot (.pf p) v,
      .pwrReqDoze (.pf p), .pwrReqActive (.pf p), .clkSelWrite (.pf p) v] →
    Runs c s (fun t => Raised p.val evWRITE_DISCARDED s t ∧ WordsBut [(p.val, hRAW), (p.val, hSETCOUNT)] s t)

/-- The step takes the command at the front of the queue and executes it with the queue's rest; with no command waiting, nothing changes
(log entry 6). -/
def Obligations.StepRunsTheCommandInFront : Prop :=
  (∀ (c : Instr) (s : State), step { s with pending := c :: s.pending } = exec c s) ∧
  (∀ (c : Instr) (rest : List Instr) (s : State), s.pending = c :: rest → step s = exec c { s with pending := rest }) ∧
  (∀ (s : State), s.pending = [] → step s = .next s)

/-- Every command completes in every state, and changes only the parts of the state that Safety/Touches.lean lists for it: every other part
is as it was, the queue is untouched, the timebase does not step back but at an AON power-on, the ledgers still add up and the byte
stores stay in canonical form. -/
def Obligations.EveryCommandCompletesWithinItsParts : Prop :=
  ∀ (c : Instr) (s : State), ∃ t, exec c s = .next t ∧ Chg (parts c) s t

/-- R16, R39: in a step's next state the free, held and in-transit units of every ledger add up to its total, if they did before it. -/
def Obligations.LedgersAddUpAfterEveryStep : Prop :=
  ∀ (s t : State), LedgersSum s → step s = .next t → LedgersSum t

/-- The byte stores stay in canonical form through every step: addresses rising, and no listed byte that an unlisted address reads as. -/
def Obligations.ByteStoresStayCanonical : Prop :=
  ∀ (s t : State), StoresCanon s → step s = .next t → StoresCanon t

/-- R47: the timebase never steps back, but where AON power comes up and it starts at 0. -/
def Obligations.TheTimebaseNeverStepsBack : Prop :=
  (∀ (s t : State), step s = .next t → s.pending.head? ≠ some .aonPowerOn → s.pending.head? ≠ some .overVoltageRecovery → s.time ≤ t.time) ∧
  (∀ (c : Instr) (s t : State), c ≠ .aonPowerOn → c ≠ .overVoltageRecovery → exec c s = .next t → s.time ≤ t.time)

/-- R401: no command lowers an anti-rollback counter. -/
def Obligations.AntiRollbackCountersOnlyRise : Prop :=
  ∀ (c : Instr) (s t : State) (k : Nat), exec c s = .next t → smGet 0 s.sec.arb k ≤ smGet 0 t.sec.arb k

/-- After reset no command waits, the timebase reads 0 (R47), no event is set or enabled (R36), no error is captured (R38), the ledgers are
free and add up (R16), and the byte stores are in canonical form. That the block starts at configuration ready and which registers
differ from their reset values are the model's choices (log entries 2 and 3). -/
def Obligations.TheStateAfterReset : Prop :=
  State.reset.pending = [] ∧ State.reset.time = 0 ∧ LedgersSum State.reset ∧ StoresCanon State.reset ∧
  (∀ page, State.reset.word page hRAW = 0#32 ∧ State.reset.word page hENA = 0#32 ∧ State.reset.fld page fERRVALID = 0) ∧
  (∀ page i, (State.reset.ledger page i).free = (State.reset.ledger page i).total ∧ (State.reset.ledger page i).held = 0 ∧
    (State.reset.ledger page i).transit = 0 ∧ (State.reset.ledger page i).reclaimed = 0) ∧
  (∀ page w, w < 1024 → (page, w) ∉ [(0x40, 0x40), (0x130, hCTRL), (0x130, hSTATE), (0x130, 0x40)] →
    State.reset.word page w = resetWord page w) ∧
  State.reset.pow.phase = .ready ∧ State.reset.hif.linkUp = true ∧ State.reset.ops.ops = [] ∧ State.reset.sec.wiped = false
end

