-- ==== Sys2Proof/Laws/Chg.lean ====
section
/-! SUPPORT. The relation of a change (Chg): how it composes, and what each update of one part of the state does. -/

namespace Sys2Proof.Machine

open Sys2Proof

variable {ps : List Part} {r s t : State}

/-- A part list that lies in another that lies in `ps`. -/
theorem within {a b ps : List Part} (hs : b ⊆ ps) (h : a ⊆ b) : a ⊆ ps := fun _ hx => hs (h hx)

theorem Part.same_trans {p : Part} (h : p.Same r s) (k : p.Same s t) : p.Same r t := by
  cases p <;> first | exact k.trans h | trivial

theorem Chg.refl (ps : List Part) (s : State) : Chg ps s s :=
  ⟨rfl, .inl (Nat.le_refl _), id, id, fun p _ => by cases p <;> first | rfl | trivial⟩

theorem Chg.trans (h : Chg ps r s) (k : Chg ps s t) : Chg ps r t :=
  ⟨k.pending.trans h.pending, h.clock.elim (fun a => k.clock.elim (fun b => .inl (Nat.le_trans a b)) .inr) .inr, fun x => k.ledgers (h.ledgers x),
   fun x => k.stores (h.stores x), fun p hp => Part.same_trans (h.same p hp) (k.same p hp)⟩

theorem Chg.mono {qs : List Part} (h : Chg ps r s) (hq : ps ⊆ qs) : Chg qs r s :=
  ⟨h.pending, h.clock.imp id (fun x => hq x), h.ledgers, h.stores, fun p hp => h.same p (fun x => hp (hq x))⟩

theorem Chg.ite {c : Prop} {d : Decidable c} (h : Chg ps r s) (k : Chg ps r t) : Chg ps r (if c then s else t) := by
  split <;> assumption

/-- As `ite`, for a pair whose first part is the state. -/
theorem Chg.iteFst {α : Type} {c : Prop} {d : Decidable c} {x y : State × α} (h : Chg ps r x.1) (k : Chg ps r y.1) :
    Chg ps r (if c then x else y).1 := by
  split <;> assumption

theorem Chg.foldl {α : Type} {f : State → α → State} {l : List α} (h : Chg ps r s)
    (hf : ∀ a x, Chg ps r a → Chg ps r (f a x)) : Chg ps r (l.foldl f s) := by
  induction l generalizing s with
  | nil => exact h
  | cons x l ih => exact ih (hf s x h)

/-- As `foldl`, for a fold that carries the state beside something else. -/
theorem Chg.foldlFst {α β : Type} {f : State × β → α → State × β} {l : List α} {b : State × β} (h : Chg ps r b.1)
    (hf : ∀ a x, Chg ps r a.1 → Chg ps r (f a x).1) : Chg ps r (l.foldl f b).1 := by
  induction l generalizing b with
  | nil => exact h
  | cons x l ih => exact ih (hf b x h)

theorem Chg.fst {α : Type} {x : State × α} {a : α} (h : Chg ps r x.1) (e : x = (s, a)) : Chg ps r s := by
  subst e; exact h

/-- A change of one part. -/
theorem Chg.of (q : Part) (h : Chg ps r s) (hs : [q] ⊆ ps) (hp : t.pending = s.pending) (hc : s.time ≤ t.time)
    (hl : LedgersSum s → LedgersSum t) (hb : StoresCanon s → StoresCanon t) (hq : ∀ p, p ≠ q → p.Same s t) : Chg ps r t :=
  ⟨hp.trans h.pending, h.clock.imp (fun a => Nat.le_trans a hc) id, fun k => hl (h.ledgers k), fun k => hb (h.stores k),
   fun p k => Part.same_trans (h.same p k) (hq p (fun e => k (e ▸ hs (List.mem_singleton.2 rfl))))⟩

/-! ### One part of the state replaced -/

theorem Chg.putFree {x} (h : Chg ps r s) (hs : [Part.free] ⊆ ps) : Chg ps r { s with free := x } :=
  h.of .free hs rfl (Nat.le_refl _) id id (fun p hn => by cases p <;> first | rfl | trivial)

theorem Chg.putWide {x} (h : Chg ps r s) (hs : [Part.wide] ⊆ ps) : Chg ps r { s with wide := x } :=
  h.of .wide hs rfl (Nat.le_refl _) id id (fun p hn => by cases p <;> first | rfl | trivial)

theorem Chg.putRsv {x} (h : Chg ps r s) (hs : [Part.rsv] ⊆ ps) : Chg ps r { s with rsv := x } :=
  h.of .rsv hs rfl (Nat.le_refl _) id id (fun p hn => by cases p <;> first | rfl | trivial)

theorem Chg.putOut {x} (h : Chg ps r s) (hs : [Part.out] ⊆ ps) : Chg ps r { s with out := x } :=
  h.of .out hs rfl (Nat.le_refl _) id id (fun p hn => by cases p <;> first | rfl | trivial)

theorem Chg.putReply {x} (h : Chg ps r s) (hs : [Part.reply] ⊆ ps) : Chg ps r { s with reply := x } :=
  h.of .reply hs rfl (Nat.le_refl _) id id (fun p hn => by cases p <;> first | rfl | trivial)

theorem Chg.putFlt {x} (h : Chg ps r s) (hs : [Part.flt] ⊆ ps) : Chg ps r { s with flt := x } :=
  h.of .flt hs rfl (Nat.le_refl _) id id (fun p hn => by cases p <;> first | rfl | trivial)

theorem Chg.putPow {x} (h : Chg ps r s) (hs : [Part.pow] ⊆ ps) : Chg ps r { s with pow := x } :=
  h.of .pow hs rfl (Nat.le_refl _) id id (fun p hn => by cases p <;> first | rfl | trivial)

theorem Chg.putOps {x} (h : Chg ps r s) (hs : [Part.ops] ⊆ ps) : Chg ps r { s with ops := x } :=
  h.of .ops hs rfl (Nat.le_refl _) id id (fun p hn => by cases p <;> first | rfl | trivial)

theorem Chg.putHif {x} (h : Chg ps r s) (hs : [Part.hif] ⊆ ps) : Chg ps r { s with hif := x } :=
  h.of .hif hs rfl (Nat.le_refl _) id id (fun p hn => by cases p <;> first | rfl | trivial)

theorem Chg.putCad {x} (h : Chg ps r s) (hs : [Part.cad] ⊆ ps) : Chg ps r { s with cad := x } :=
  h.of .cad hs rfl (Nat.le_refl _) id id (fun p hn => by cases p <;> first | rfl | trivial)

theorem Chg.putSrv {x} (h : Chg ps r s) (hs : [Part.srv] ⊆ ps) : Chg ps r { s with srv := x } :=
  h.of .srv hs rfl (Nat.le_refl _) id id (fun p hn => by cases p <;> first | rfl | trivial)

theorem Chg.putVce {x} (h : Chg ps r s) (hs : [Part.vce] ⊆ ps) : Chg ps r { s with vce := x } :=
  h.of .vce hs rfl (Nat.le_refl _) id id (fun p hn => by cases p <;> first | rfl | trivial)

theorem Chg.putMur {x} (h : Chg ps r s) (hs : [Part.mur] ⊆ ps) : Chg ps r { s with mur := x } :=
  h.of .mur hs rfl (Nat.le_refl _) id id (fun p hn => by cases p <;> first | rfl | trivial)

theorem Chg.putIng {x} (h : Chg ps r s) (hs : [Part.ing] ⊆ ps) : Chg ps r { s with ing := x } :=
  h.of .ing hs rfl (Nat.le_refl _) id id (fun p hn => by cases p <;> first | rfl | trivial)

theorem Chg.putMgt {x} (h : Chg ps r s) (hs : [Part.mgt] ⊆ ps) : Chg ps r { s with mgt := x } :=
  h.of .mgt hs rfl (Nat.le_refl _) id id (fun p hn => by cases p <;> first | rfl | trivial)

theorem Chg.putSec {x} (h : Chg ps r s) (hs : [Part.sec] ⊆ ps) : Chg ps r { s with sec := x } :=
  h.of .sec hs rfl (Nat.le_refl _) id id (fun p hn => by cases p <;> first | rfl | trivial)

theorem Chg.putRegs {x} (h : Chg ps r s) (hs : [Part.regs] ⊆ ps) : Chg ps r { s with regs := x } :=
  h.of .regs hs rfl (Nat.le_refl _) id id (fun p hn => by cases p <;> first | rfl | trivial)

theorem Chg.putTime {x} (h : Chg ps r s) (hs : [Part.time] ⊆ ps) (hx : s.time ≤ x) : Chg ps r { s with time := x } :=
  h.of .time hs rfl hx id id (fun p hn => by cases p <;> first | rfl | trivial)

/-- The byte stores are the same in two records of the stores. -/
def MemSt.SameBytes (x y : MemSt) : Prop := x.mem = y.mem ∧ x.pal = y.pal ∧ x.stores = y.stores ∧ x.host = y.host ∧ x.flash = y.flash

/-- A record of the stores whose byte stores keep the canonical form. -/
theorem Chg.putBytes {x} (h : Chg ps r s) (hs : [Part.mem] ⊆ ps)
    (hx : StoresCanon s → StoresCanon { s with mem := x }) : Chg ps r { s with mem := x } :=
  h.of .mem hs rfl (Nat.le_refl _) id hx (fun p hn => by cases p <;> first | rfl | trivial)

theorem Chg.putMem {x} (h : Chg ps r s) (hs : [Part.mem] ⊆ ps) (hx : x.SameBytes s.mem) : Chg ps r { s with mem := x } :=
  h.putBytes hs (fun ⟨a, b, c, d, e, f⟩ => by
    obtain ⟨a', b', c', d', e'⟩ := hx
    exact ⟨a' ▸ a, b' ▸ b, c' ▸ c, d' ▸ d, e' ▸ e, f⟩)

/-- A record of the panels whose saved slots keep the canonical form. -/
theorem Chg.putSaved {x} (h : Chg ps r s) (hs : [Part.pan] ⊆ ps)
    (hx : StoresCanon s → ∀ e ∈ x.saved, smWf (0 : Byte) e.2.pal = true ∧ smWf (0 : Byte) e.2.stores = true) :
    Chg ps r { s with pan := x } :=
  h.of .pan hs rfl (Nat.le_refl _) id (fun k => ⟨k.1, k.2.1, k.2.2.1, k.2.2.2.1, k.2.2.2.2.1, hx k⟩)
    (fun p hn => by cases p <;> first | rfl | trivial)

theorem Chg.putPan {x} (h : Chg ps r s) (hs : [Part.pan] ⊆ ps) (hx : x.saved = s.pan.saved) : Chg ps r { s with pan := x } :=
  h.putSaved hs (fun k => hx ▸ k.2.2.2.2.2)

theorem Chg.putLedgers {x} (h : Chg ps r s) (hs : [Part.ledgers] ⊆ ps)
    (hx : LedgersSum s → LedgersSum { s with ledgers := x }) : Chg ps r { s with ledgers := x } :=
  h.of .ledgers hs rfl (Nat.le_refl _) hx id (fun p hn => by cases p <;> first | rfl | trivial)

end Sys2Proof.Machine
end

