-- ==== Sys2Proof/Laws/SMap.lean ====
section
/-! SUPPORT. Sparse maps and byte stores: what a read sees after a write, and that every operation keeps the canonical form. -/

namespace Sys2Proof.Machine

open Sys2Proof

variable {α : Type}

/-! ### Reading after writing -/

theorem smFind_smPut_self (m : SMap α) (q : Nat) (v : α) : smFind (smPut m q v) q = some v := by
  induction m with
  | nil => simp [smPut, smFind]
  | cons e m ih =>
    obtain ⟨k, w⟩ := e
    simp only [smPut]
    split
    · simp [smFind, *]
    · split
      · simp [smFind]
      · simp [smFind, *]

theorem smFind_smPut_ne (m : SMap α) {q k : Nat} (v : α) (h : k ≠ q) : smFind (smPut m q v) k = smFind m k := by
  induction m with
  | nil => simp [smPut, smFind, h]
  | cons e m ih =>
    obtain ⟨k', w⟩ := e
    simp only [smPut]
    split
    · next hq => subst hq; simp [smFind, h]
    · split
      · simp [smFind, h]
      · simp only [smFind, ih]

theorem smFind_filter (m : SMap α) (p : Nat → Bool) (k : Nat) :
    smFind (m.filter (fun e => p e.1)) k = if p k then smFind m k else none := by
  induction m with
  | nil => simp [smFind]
  | cons e m ih =>
    obtain ⟨k', w⟩ := e
    by_cases hk : k = k'
    · subst hk
      cases hp : p k <;> simp [smFind, hp, ih]
    · cases hp : p k' <;> simp [smFind, hp, ih, hk]

theorem smFind_smDel_self (m : SMap α) (q : Nat) : smFind (smDel m q) q = none := by
  simpa [smDel] using smFind_filter m (fun k => decide (k ≠ q)) q

theorem smFind_smDel_ne (m : SMap α) {q k : Nat} (h : k ≠ q) : smFind (smDel m q) k = smFind m k := by
  simpa [smDel, h] using smFind_filter m (fun k => decide (k ≠ q)) k

@[simp] theorem smGet_smSet_self [DecidableEq α] (d : α) (m : SMap α) (q : Nat) (v : α) : smGet d (smSet d m q v) q = v := by
  unfold smGet smSet
  split
  · next h => simp [smFind_smDel_self, h]
  · simp [smFind_smPut_self]

theorem smGet_smSet_ne [DecidableEq α] (d d' : α) (m : SMap α) {q k : Nat} (v : α) (h : k ≠ q) :
    smGet d' (smSet d m q v) k = smGet d' m k := by
  unfold smGet smSet
  split
  · rw [smFind_smDel_ne m h]
  · rw [smFind_smPut_ne m v h]

theorem smGet_filter (d : α) (m : SMap α) (p : Nat → Bool) (k : Nat) :
    smGet d (m.filter (fun e => p e.1)) k = if p k then smGet d m k else d := by
  unfold smGet
  rw [smFind_filter]
  split <;> rfl

/-! ### Byte stores -/

@[simp] theorem cGet_cSet_self (m : List Host.Cell) (a : Nat) (b : Byte) : cGet (cSet m a b) a = b := smGet_smSet_self _ _ _ _

theorem cGet_cSet_ne (m : List Host.Cell) {a k : Nat} (b : Byte) (h : k ≠ a) : cGet (cSet m a b) k = cGet m k :=
  smGet_smSet_ne _ _ _ _ h

/-- A byte after a write of bytes: inside the range the written byte, outside what stood there. -/
theorem cGet_cWrite (m : List Host.Cell) (a : Nat) (bs : List Byte) (k : Nat) :
    cGet (cWrite m a bs) k = if a ≤ k ∧ k < a + bs.length then bs.getD (k - a) 0 else cGet m k := by
  induction bs generalizing m a with
  | nil => simp [cWrite]
  | cons b r ih =>
    rw [cWrite, ih]
    by_cases h : k = a
    · subst h; simp
    · rw [cGet_cSet_ne _ _ h]
      by_cases hk : a < k ∧ k < a + (r.length + 1)
      · have e : k - a = (k - (a + 1)) + 1 := by omega
        rw [if_pos (by omega), if_pos (by simp; omega), e]
        rfl
      · rw [if_neg (by omega), if_neg (by simp; omega)]

theorem cGet_cWrite_out (m : List Host.Cell) {a k : Nat} (bs : List Byte) (h : k < a ∨ a + bs.length ≤ k) :
    cGet (cWrite m a bs) k = cGet m k := by
  rw [cGet_cWrite, if_neg (by omega)]

theorem cRead_length (m : List Host.Cell) (a n : Nat) : (cRead m a n).length = n := by simp [cRead]

/-- Reading the bytes just written gives them back. -/
theorem cRead_cWrite (m : List Host.Cell) (a : Nat) (bs : List Byte) : cRead (cWrite m a bs) a bs.length = bs := by
  apply List.ext_getElem
  · simp [cRead]
  · intro i h1 h2
    simp only [cRead, List.getElem_map, List.getElem_range, cGet_cWrite]
    rw [if_pos (by omega)]
    simp [List.getD_eq_getElem?_getD, List.getElem?_eq_getElem h2]

theorem cGet_cClear (m : List Host.Cell) (a n k : Nat) : cGet (cClear m a n) k = if a ≤ k ∧ k < a + n then 0 else cGet m k := by
  unfold cGet cClear
  rw [smGet_filter (0 : Byte) m (fun k => decide (k < a ∨ a + n ≤ k)) k]
  by_cases h : a ≤ k ∧ k < a + n
  · rw [if_neg (by simp; omega), if_pos h]
  · rw [if_pos (by simp; omega), if_neg h]

/-! ### The canonical form -/

theorem smSorted_cons {k : Nat} {w : α} {m : SMap α} : smSorted ((k, w) :: m) = true ↔ (∀ e ∈ m, k < e.1) ∧ smSorted m = true := by
  simp [smSorted, List.all_eq_true]

theorem smSorted_filter {m : SMap α} (h : smSorted m = true) (p : Nat × α → Bool) : smSorted (m.filter p) = true := by
  induction m with
  | nil => rfl
  | cons e m ih =>
    obtain ⟨k, w⟩ := e
    rw [smSorted_cons] at h
    by_cases hp : p (k, w) = true
    · rw [List.filter_cons_of_pos hp, smSorted_cons]
      exact ⟨fun e he => h.1 e (List.mem_of_mem_filter he), ih h.2⟩
    · rw [List.filter_cons_of_neg hp]; exact ih h.2

theorem mem_smPut {m : SMap α} {q : Nat} {v : α} {e : Nat × α} (h : e ∈ smPut m q v) : e.1 = q ∧ e.2 = v ∨ e ∈ m := by
  induction m with
  | nil => simp [smPut] at h; simp [h]
  | cons x m ih =>
    obtain ⟨k, w⟩ := x
    simp only [smPut] at h
    split at h
    · next hq =>
      rcases List.mem_cons.1 h with h | h
      · subst h; exact .inl ⟨hq.symm, rfl⟩
      · exact .inr (List.mem_cons_of_mem _ h)
    · split at h
      · rcases List.mem_cons.1 h with h | h
        · subst h; exact .inl ⟨rfl, rfl⟩
        · exact .inr h
      · rcases List.mem_cons.1 h with h | h
        · subst h; exact .inr (List.mem_cons_self ..)
        · exact (ih h).imp id (List.mem_cons_of_mem _)

theorem smSorted_smPut {m : SMap α} (h : smSorted m = true) (q : Nat) (v : α) : smSorted (smPut m q v) = true := by
  induction m with
  | nil => rfl
  | cons x m ih =>
    obtain ⟨k, w⟩ := x
    have h' := smSorted_cons.1 h
    simp only [smPut]
    split
    · exact smSorted_cons.2 h'
    · split
      · next hq hlt =>
        refine smSorted_cons.2 ⟨fun e he => ?_, h⟩
        rcases List.mem_cons.1 he with he | he
        · subst he; exact hlt
        · exact Nat.lt_trans hlt (h'.1 e he)
      · next hq hlt =>
        refine smSorted_cons.2 ⟨fun e he => ?_, ih h'.2⟩
        rcases mem_smPut he with ⟨he, _⟩ | he
        · omega
        · exact h'.1 e he

theorem smWf_iff [DecidableEq α] {d : α} {m : SMap α} : smWf d m = true ↔ smSorted m = true ∧ ∀ e ∈ m, e.2 ≠ d := by
  simp [smWf, List.all_eq_true]

theorem smWf_filter [DecidableEq α] {d : α} {m : SMap α} (h : smWf d m = true) (p : Nat × α → Bool) : smWf d (m.filter p) = true := by
  rw [smWf_iff] at h ⊢
  exact ⟨smSorted_filter h.1 p, fun e he => h.2 e (List.mem_of_mem_filter he)⟩

/-- An entry after a write of a key: the value written, or one that was listed. -/
theorem mem_smSet [DecidableEq α] {d : α} {m : SMap α} {q : Nat} {v : α} {e : Nat × α} (h : e ∈ smSet d m q v) : e.1 = q ∧ e.2 = v ∨ e ∈ m := by
  unfold smSet at h
  split at h
  · exact .inr (List.mem_of_mem_filter h)
  · exact mem_smPut h

theorem smWf_smSet [DecidableEq α] {d : α} {m : SMap α} (h : smWf d m = true) (q : Nat) (v : α) : smWf d (smSet d m q v) = true := by
  unfold smSet
  split
  · exact smWf_filter h _
  · next hv =>
    rw [smWf_iff] at h ⊢
    refine ⟨smSorted_smPut h.1 q v, fun e he => ?_⟩
    rcases mem_smPut he with ⟨_, he⟩ | he
    · rw [he]; exact hv
    · exact h.2 e he

theorem smWf_cWrite {m : List Host.Cell} (h : smWf (0 : Byte) m = true) (a : Nat) (bs : List Byte) :
    smWf (0 : Byte) (cWrite m a bs) = true := by
  induction bs generalizing m a with
  | nil => exact h
  | cons b r ih => exact ih (smWf_smSet h a b) (a + 1)

theorem smWf_cClear {m : List Host.Cell} (h : smWf (0 : Byte) m = true) (a n : Nat) : smWf (0 : Byte) (cClear m a n) = true :=
  smWf_filter h _

theorem smSorted_map {m : SMap α} (f : Nat → Nat) (hf : ∀ e ∈ m, ∀ e' ∈ m, e.1 < e'.1 → f e.1 < f e'.1) (h : smSorted m = true) :
    smSorted (m.map (fun e => (f e.1, e.2))) = true := by
  induction m with
  | nil => rfl
  | cons x m ih =>
    obtain ⟨k, w⟩ := x
    rw [smSorted_cons] at h
    simp only [List.map_cons]
    refine smSorted_cons.2 ⟨fun e he => ?_, ih (fun e he e' he' => hf e (List.mem_cons_of_mem _ he) e' (List.mem_cons_of_mem _ he')) h.2⟩
    obtain ⟨e', he', rfl⟩ := List.mem_map.1 he
    exact hf (k, w) (List.mem_cons_self ..) e' (List.mem_cons_of_mem _ he') (h.1 e' he')

theorem smSorted_append {m n : SMap α} (hm : smSorted m = true) (hn : smSorted n = true) (h : ∀ e ∈ m, ∀ e' ∈ n, e.1 < e'.1) :
    smSorted (m ++ n) = true := by
  induction m with
  | nil => exact hn
  | cons x m ih =>
    obtain ⟨k, w⟩ := x
    rw [smSorted_cons] at hm
    rw [List.cons_append, smSorted_cons]
    refine ⟨fun e he => ?_, ih hm.2 (fun e he => h e (List.mem_cons_of_mem _ he))⟩
    rcases List.mem_append.1 he with he | he
    · exact hm.1 e he
    · exact h (k, w) (List.mem_cons_self ..) e he

theorem smWf_smCut [DecidableEq α] {d : α} {m : SMap α} (h : smWf d m = true) (b n : Nat) : smWf d (smCut m b n) = true := by
  have hf := smWf_iff.1 (smWf_filter h (fun e => decide (b ≤ e.1 ∧ e.1 < b + n)))
  refine smWf_iff.2 ⟨smSorted_map (fun k => k - b) (fun e he e' he' hlt => ?_) hf.1, fun e he => ?_⟩
  · have := (List.mem_filter.1 he).2
    simp at this
    show e.1 - b < e'.1 - b
    omega
  · obtain ⟨e', he', rfl⟩ := List.mem_map.1 he
    exact hf.2 e' he'

theorem smWf_smSplice [DecidableEq α] {d : α} {m x : SMap α} (hm : smWf d m = true) (hx : smWf d x = true) (b n : Nat) :
    smWf d (smSplice m b n x) = true := by
  have h1 := smWf_iff.1 (smWf_filter hm (fun e => decide (e.1 < b)))
  have h2 := smWf_iff.1 (smWf_filter hx (fun e => decide (e.1 < n)))
  have h3 := smWf_iff.1 (smWf_filter hm (fun e => decide (b + n ≤ e.1)))
  unfold smSplice
  refine smWf_iff.2 ⟨smSorted_append (smSorted_append h1.1 (smSorted_map (fun k => k + b) (fun _ _ _ _ h => Nat.add_lt_add_right h b) h2.1)
    fun e he e' he' => ?_) h3.1 fun e he e' he' => ?_, fun e he => ?_⟩
  · obtain ⟨y, _, rfl⟩ := List.mem_map.1 he'
    have := (List.mem_filter.1 he).2
    simp at this
    show e.1 < y.1 + b
    omega
  · have h' := (List.mem_filter.1 he').2
    simp at h'
    rcases List.mem_append.1 he with he | he
    · have := (List.mem_filter.1 he).2
      simp at this
      omega
    · obtain ⟨y, hy, rfl⟩ := List.mem_map.1 he
      have := (List.mem_filter.1 hy).2
      simp at this
      show y.1 + b < e'.1
      omega
  · rcases List.mem_append.1 he with he | he
    · rcases List.mem_append.1 he with he | he
      · exact h1.2 e he
      · obtain ⟨y, hy, rfl⟩ := List.mem_map.1 he
        exact h2.2 y hy
    · exact h3.2 e he

end Sys2Proof.Machine
end

