-- ==== Sys2Proof/Laws/Ledger.lean ====
section
/-! SUPPORT. Ledgers: what a ledger reads after a change of one, and that moving and reclaiming units keep every sum (R16, R39). -/

namespace Sys2Proof.Machine

open Sys2Proof

variable {s : State}

/-- The units of a ledger add up to its total. -/
def Ledger.Sum (l : Ledger) : Prop := l.free + l.held + l.transit = l.total

theorem ledgerReset_sum (page i : Nat) : (ledgerReset page i).Sum := by simp [Ledger.Sum, ledgerReset]

@[simp] theorem ledger_setLedger_self (s : State) (page i : Nat) (l : Ledger) : (s.setLedger page i l).ledger page i = l :=
  smGet_smSet_self _ _ _ _

theorem ledger_setLedger_ne (s : State) {page i p j : Nat} (l : Ledger) (h : p * 8 + j ≠ page * 8 + i) :
    (s.setLedger page i l).ledger p j = s.ledger p j := smGet_smSet_ne _ _ _ _ h

theorem LedgersSum.setLedger {page i : Nat} {l : Ledger} (h : LedgersSum s) (hl : l.Sum) : LedgersSum (s.setLedger page i l) := by
  intro p j
  by_cases e : p * 8 + j = page * 8 + i
  · have : (s.setLedger page i l).ledger p j = l ∨ (s.setLedger page i l).ledger p j = ledgerReset p j := by
      unfold State.ledger State.setLedger smGet
      rw [e]
      unfold smSet
      split
      · rw [smFind_smDel_self]; exact .inr rfl
      · rw [smFind_smPut_self]; exact .inl rfl
    rcases this with e | e <;> rw [e]
    · exact hl
    · exact ledgerReset_sum p j
  · rw [ledger_setLedger_ne s l e]; exact h p j

/-- A change that keeps every listed ledger or drops it keeps the sums. -/
theorem LedgersSum.filter {x : SMap Ledger} (h : LedgersSum s) (hx : ∀ k l, smFind x k = some l → smFind s.ledgers k = some l) :
    LedgersSum { s with ledgers := x } := by
  intro p j
  show Ledger.Sum (smGet (ledgerReset p j) x (p * 8 + j))
  have hp := h p j
  unfold State.ledger smGet at hp
  unfold smGet
  cases e : smFind x (p * 8 + j) with
  | none => exact ledgerReset_sum p j
  | some l => rw [hx _ _ e] at hp; exact hp

theorem Ledger.move_sum {l : Ledger} (h : l.Sum) (a b : UnitClass) (n : Nat) : (l.move a b n).Sum := by
  unfold Ledger.Sum at *
  cases a <;> cases b <;> simp only [Ledger.move, Ledger.put, Ledger.count] <;> omega

theorem Ledger.move_total (l : Ledger) (a b : UnitClass) (n : Nat) : (l.move a b n).total = l.total := by
  cases a <;> cases b <;> rfl

/-- Units that the source class holds arrive in the other class. -/
theorem Ledger.move_count {l : Ledger} {a b : UnitClass} {n : Nat} (hab : a ≠ b) (h : n ≤ l.count a) :
    (l.move a b n).count a = l.count a - n ∧ (l.move a b n).count b = l.count b + n := by
  cases a <;> cases b <;> simp_all [Ledger.move, Ledger.put, Ledger.count]

end Sys2Proof.Machine
end

