-- ==== Sys2Proof/Laws/Ops.lean ====
section
/-! SUPPORT. What each operation of Machine/Ops.lean touches at most, and that it keeps the ledgers and the byte stores in form (Chg). -/

namespace Sys2Proof.Machine

open Sys2Proof

variable {ps : List Part} {r s t : State}



theorem Chg.setWord {a1 a2 a3} (h : Chg ps r s) (hs : [Part.regs] ⊆ ps) : Chg ps r (State.setWord s a1 a2 a3) :=
  (Chg.putRegs h (within hs (by decide)))

theorem Chg.setFld {a1 a2 a3} (h : Chg ps r s) (hs : [Part.regs] ⊆ ps) : Chg ps r (State.setFld s a1 a2 a3) :=
  (h.setWord (within hs (by decide)))

theorem Chg.countUp {a1 a2 a3} (h : Chg ps r s) (hs : [Part.regs] ⊆ ps) : Chg ps r (State.countUp s a1 a2 a3) :=
  (h.setWord (within hs (by decide)))

theorem Chg.countFld {a1 a2 a3} (h : Chg ps r s) (hs : [Part.regs] ⊆ ps) : Chg ps r (State.countFld s a1 a2 a3) :=
  (h.setFld (within hs (by decide)))

theorem Chg.setWide {a1 a2 a3} (h : Chg ps r s) (hs : [Part.wide] ⊆ ps) : Chg ps r (State.setWide s a1 a2 a3) :=
  (Chg.putWide h (within hs (by decide)))

theorem Chg.readWide {a1 a2} (h : Chg ps r s) (hs : [Part.regs, .reply] ⊆ ps) : Chg ps r (State.readWide s a1 a2) := by
  unfold State.readWide
  extract_lets -underBinder v0
  have hv0 : Chg ps r v0 := by
    unfold v0
    exact (h.setWord (within hs (by decide)))
  clear_value v0
  exact (Chg.putReply hv0 (within hs (by decide)))

theorem Chg.emit {a1} (h : Chg ps r s) (hs : [Part.out] ⊆ ps) : Chg ps r (State.emit s a1) :=
  (Chg.putOut h (within hs (by decide)))

theorem Chg.irq {a1} (h : Chg ps r s) (hs : [Part.out, .hif] ⊆ ps) : Chg ps r (State.irq s a1) := by
  unfold State.irq
  refine Chg.ite ?_ ?_
  · exact (Chg.putHif h (within hs (by decide)))
  · refine Chg.ite ?_ ?_
    · exact h
    · extract_lets -underBinder v0 v1
      clear_value v0
      exact ((Chg.putHif h (within hs (by decide))).emit (within hs (by decide)))

theorem Chg.event {a1 a2} (h : Chg ps r s) (hs : [Part.regs, .out, .hif] ⊆ ps) : Chg ps r (State.event s a1 a2) := by
  unfold State.event
  extract_lets -underBinder v0 v1
  have hv0 : Chg ps r v0 := by
    unfold v0
    exact (h.setWord (within hs (by decide)))
  clear_value v0
  have hv1 : Chg ps r v1 := by
    unfold v1
    exact (hv0.setFld (within hs (by decide)))
  clear_value v1
  exact (hv1.irq (within hs (by decide)))

theorem Chg.discard {a1} (h : Chg ps r s) (hs : [Part.regs, .out, .hif] ⊆ ps) : Chg ps r (State.discard s a1) :=
  (h.event (within hs (by decide)))

theorem Chg.setSt {a1 a2} (h : Chg ps r s) (hs : [Part.regs, .out, .hif] ⊆ ps) : Chg ps r (State.setSt s a1 a2) :=
  (Chg.ite h ((h.setFld (within hs (by decide))).event (within hs (by decide))))

theorem Chg.used (h : Chg ps r s) (hs : [Part.free] ⊆ ps) : Chg ps r (State.used s) :=
  (Chg.putFree h (within hs (by decide)))

theorem Chg.at {a1} (h : Chg ps r s) (hs : [Part.time] ⊆ ps) : Chg ps r (State.at s a1) := by
  exact h.putTime hs (Nat.le_max_left _ _)

theorem Chg.answer {a1} (h : Chg ps r s) (hs : [Part.reply] ⊆ ps) : Chg ps r (State.answer s a1) :=
  (Chg.putReply h (within hs (by decide)))

theorem Chg.setLedger {a1 a2 a3} (h : Chg ps r s) (hl : LedgersSum s → Ledger.Sum a3) (hs : [Part.ledgers] ⊆ ps) : Chg ps r (State.setLedger s a1 a2 a3) := by
  unfold State.setLedger
  exact h.putLedgers hs (fun k => k.setLedger (hl k))

theorem Chg.move {a1 a2 a3 a4 a5} (h : Chg ps r s) (hs : [Part.ledgers] ⊆ ps) : Chg ps r (State.move s a1 a2 a3 a4 a5) := by
  unfold State.move
  exact h.setLedger (fun k => Ledger.move_sum (k _ _) _ _ _) (within hs (by decide))

theorem Chg.reclaim {a1 a2 a3 a4} (h : Chg ps r s) (hs : [Part.regs, .ledgers] ⊆ ps) : Chg ps r (State.reclaim s a1 a2 a3 a4) := by
  unfold State.reclaim
  extract_lets l m l1
  exact (h.setLedger (a3 := { l1 with reclaimed := min (l1.reclaimed + m) 0xFFFFFFFF }) (fun k => Ledger.move_sum (l := l) (k _ _) a3 .free a4) (within hs (by decide))).countUp (within hs (by decide))

theorem Chg.unmappedWrite {a1} (h : Chg ps r s) (hs : [Part.regs] ⊆ ps) : Chg ps r (State.unmappedWrite s a1) :=
  (Chg.ite h (h.countUp (within hs (by decide))))

theorem Chg.via {a1 a2} (h : Chg ps r s) (hf2 : ∀ x0, Chg ps r x0 → Chg ps r (a2 x0)) (_hs : ([] : List Part) ⊆ ps) : Chg ps r (State.via s a1 a2) :=
  (Chg.ite (hf2 _ h) h)

theorem Chg.noteRsv {a1 a2 a3} (h : Chg ps r s) (hs : [Part.regs, .rsv, .out, .hif] ⊆ ps) : Chg ps r (State.noteRsv s a1 a2 a3) := by
  unfold State.noteRsv
  split
  · rename_i y0 y1
    exact h
  · rename_i y2 y3 y4 y5
    extract_lets -underBinder v6 v7
    have hv7 : Chg ps r v7 := by
      unfold v7
      exact (Chg.putRsv h (within hs (by decide)))
    clear_value v7
    exact (Chg.ite (hv7.discard (within hs (by decide))) hv7)

theorem Chg.setPanel {a1 a2} (h : Chg ps r s) (hs : [Part.pan] ⊆ ps) : Chg ps r (State.setPanel s a1 a2) :=
  (Chg.putPan h (within hs (by decide)) rfl)

theorem Chg.setCanvas {a1 a2} (h : Chg ps r s) (hs : [Part.pan] ⊆ ps) : Chg ps r (State.setCanvas s a1 a2) :=
  (Chg.putPan h (within hs (by decide)) rfl)

theorem Chg.setTenant {a1 a2} (h : Chg ps r s) (hs : [Part.hif] ⊆ ps) : Chg ps r (State.setTenant s a1 a2) :=
  (Chg.putHif h (within hs (by decide)))

end Sys2Proof.Machine
end

