-- ==== Sys2Proof/Laws/Flags.lean ====
section
/-! SUPPORT. What each operation of Machine/Flags.lean touches at most, and that it keeps the ledgers and the byte stores in form (Chg). -/

namespace Sys2Proof.Machine

open Sys2Proof

variable {ps : List Part} {r s t : State}



theorem Chg.fillCapture {a1 a2 a3 a4 a5} (h : Chg ps r s) (hs : [Part.regs] ⊆ ps) : Chg ps r (State.fillCapture s a1 a2 a3 a4 a5) :=
  ((((((h.setFld (within hs (by decide))).setFld (within hs (by decide))).setWord (within hs (by decide))).setWord (within hs (by decide))).setWord (within hs (by decide))).setFld (within hs (by decide)))

theorem Chg.capture {a1 a2 a3 a4 a5} (h : Chg ps r s) (hs : [Part.regs, .out, .hif] ⊆ ps) : Chg ps r (State.capture s a1 a2 a3 a4 a5) := by
  unfold State.capture
  extract_lets -underBinder v0 v1
  have hv0 : Chg ps r v0 := by
    unfold v0
    exact (h.countUp (within hs (by decide)))
  clear_value v0
  have hv1 : Chg ps r v1 := by
    unfold v1
    exact ((hv0.setFld (within hs (by decide))).countFld (within hs (by decide)))
  clear_value v1
  exact (Chg.ite ((hv0.fillCapture (within hs (by decide))).event (within hs (by decide))) (Chg.ite ((hv1.fillCapture (within hs (by decide))).event (within hs (by decide))) hv1))

theorem Chg.logLoss (h : Chg ps r s) (hs : [Part.regs, .out, .flt, .hif] ⊆ ps) : Chg ps r (State.logLoss s) := by
  unfold State.logLoss
  extract_lets -underBinder v0 v1
  have hv0 : Chg ps r v0 := by
    unfold v0
    exact ((h.countUp (within hs (by decide))).event (within hs (by decide)))
  clear_value v0
  exact (Chg.putFlt hv0 (within hs (by decide)))

theorem Chg.enqueue {a1} (h : Chg ps r s) (hs : [Part.flt] ⊆ ps) : Chg ps r (State.enqueue s a1) :=
  (Chg.putFlt h (within hs (by decide)))

theorem Chg.journal {a1} (h : Chg ps r s) (hs : [Part.regs, .out, .flt, .hif] ⊆ ps) : Chg ps r (State.journal s a1) := by
  unfold State.journal
  extract_lets -underBinder v0 v1 v2 v3
  clear_value v0
  have hv1 : Chg ps r v1 := by
    unfold v1
    exact (Chg.ite h (Chg.putFlt h (within hs (by decide))))
  clear_value v1
  have hv2 : Chg ps r v2 := by
    unfold v2
    exact (Chg.ite (hv1.event (within hs (by decide))) hv1)
  clear_value v2
  clear_value v3
  exact (Chg.ite (hv2.enqueue (within hs (by decide))) (Chg.ite (((Chg.putFlt hv2 (within hs (by decide))).enqueue (within hs (by decide))).logLoss (within hs (by decide))) (hv2.logLoss (within hs (by decide)))))

theorem Chg.journalBytes {a1 a2 a3} (h : Chg ps r s) (hs : [Part.mem] ⊆ ps) : Chg ps r (State.journalBytes s a1 a2 a3) := by
  unfold State.journalBytes
  generalize LogRec.bytes a3 a3.recoveries = bs
  generalize a1 * 2 ^ 43 + a2 * 64 = q
  refine h.putBytes hs (fun k => ?_)
  exact ⟨k.1, k.2.1, k.2.2.1, k.2.2.2.1, smWf_cWrite k.2.2.2.2.1 _ _, k.2.2.2.2.2⟩

theorem Chg.durable {a1} (h : Chg ps r s) (hs : [Part.regs, .flt, .mem] ⊆ ps) : Chg ps r (State.durable s a1) := by
  unfold State.durable
  refine Chg.ite ?_ ?_
  · extract_lets -underBinder v0 v1
    clear_value v0
    exact ((Chg.putFlt h (within hs (by decide))).journalBytes (within hs (by decide)))
  · extract_lets -underBinder v2 v3 v4
    clear_value v3
    exact (((Chg.putFlt h (within hs (by decide))).setWord (within hs (by decide))).journalBytes (within hs (by decide)))

theorem Chg.journalFatal {a1} (h : Chg ps r s) (hs : [Part.regs, .out, .flt, .hif] ⊆ ps) : Chg ps r (State.journalFatal s a1) :=
  (Chg.ite (Chg.putFlt h (within hs (by decide))) (Chg.ite ((Chg.putFlt h (within hs (by decide))).logLoss (within hs (by decide))) (Chg.ite (Chg.putFlt h (within hs (by decide))) (h.logLoss (within hs (by decide))))))

theorem Chg.countCe {a1 a2} (h : Chg ps r s) (hs : [Part.flt] ⊆ ps) : Chg ps r (State.countCe s a1 a2) := by
  unfold State.countCe
  extract_lets -underBinder v0 v1
  exact (Chg.ite (Chg.putFlt h (within hs (by decide))) (Chg.putFlt h (within hs (by decide))))

theorem Chg.ringDrop {a1} (h : Chg ps r s) (hs : [Part.regs, .ledgers, .cad] ⊆ ps) : Chg ps r (State.ringDrop s a1) := by
  unfold State.ringDrop
  extract_lets -underBinder v0 v1 v2
  have hv1 : Chg ps r v1 := by
    unfold v1
    exact ((h.reclaim (within hs (by decide))).reclaim (within hs (by decide)))
  clear_value v1
  exact (Chg.putCad hv1 (within hs (by decide)))

theorem Chg.leaveRun {a1} (h : Chg ps r s) (hs : [Part.regs, .ledgers, .cad] ⊆ ps) : Chg ps r (State.leaveRun s a1) :=
  (Chg.ite (h.ringDrop (within hs (by decide))) h)

theorem Chg.faultFatal {a1} (h : Chg ps r s) (hs : [Part.regs, .ledgers, .out, .flt, .hif, .cad] ⊆ ps) : Chg ps r (State.faultFatal s a1) := by
  unfold State.faultFatal
  extract_lets -underBinder v0 v1
  have hv0 : Chg ps r v0 := by
    unfold v0
    exact ((h.leaveRun (within hs (by decide))).setSt (within hs (by decide)))
  clear_value v0
  exact (Chg.putFlt hv0 (within hs (by decide)))

theorem Chg.roleOut {a1} (h : Chg ps r s) (hs : [Part.regs] ⊆ ps) : Chg ps r (State.roleOut s a1) := by
  unfold State.roleOut
  extract_lets -underBinder v0 v1
  exact (Chg.ite (h.setFld (within hs (by decide))) h)

theorem Chg.fatalSeq {a1 a2} (h : Chg ps r s) (hs : [Part.regs, .ledgers, .out, .flt, .pow, .hif, .cad] ⊆ ps) : Chg ps r (State.fatalSeq s a1 a2) := by
  unfold State.fatalSeq
  extract_lets -underBinder v0 v1 v2 v3 v4 v5 v6
  have hv0 : Chg ps r v0 := by
    unfold v0
    exact (h.faultFatal (within hs (by decide)))
  clear_value v0
  have hv2 : Chg ps r v2 := by
    unfold v2
    exact (Chg.putPow hv0 (within hs (by decide)))
  clear_value v2
  have hv3 : Chg ps r v3 := by
    unfold v3
    exact (Chg.ite (hv2.setWord (within hs (by decide))) hv2)
  clear_value v3
  have hv4 : Chg ps r v4 := by
    unfold v4
    exact (hv3.event (within hs (by decide)))
  clear_value v4
  have hv5 : Chg ps r v5 := by
    unfold v5
    exact (Chg.foldl hv4 (fun _ _ h7 => (h7.faultFatal (within hs (by decide)))))
  clear_value v5
  have hv6 : Chg ps r v6 := by
    unfold v6
    exact (Chg.ite (((hv5.setFld (within hs (by decide))).event (within hs (by decide))).roleOut (within hs (by decide))) hv5)
  clear_value v6
  exact (hv6.journalFatal (within hs (by decide)))

theorem Chg.closeRec {a1} (h : Chg ps r s) (hs : [Part.flt] ⊆ ps) : Chg ps r (State.closeRec s a1) :=
  (Chg.putFlt h (within hs (by decide)))

theorem Chg.setRcv {a1 a2} (h : Chg ps r s) (hs : [Part.flt] ⊆ ps) : Chg ps r (State.setRcv s a1 a2) :=
  (Chg.putFlt h (within hs (by decide)))

theorem Chg.fencePanel {a1} (h : Chg ps r s) (hs : [Part.regs, .ledgers, .out, .flt, .hif, .pan] ⊆ ps) : Chg ps r (State.fencePanel s a1) := by
  unfold State.fencePanel
  extract_lets -underBinder v0 v1 v2 v3 v4 v5 v6 v7 v8 v9
  clear_value v0
  clear_value v1
  have hv2 : Chg ps r v2 := by
    unfold v2
    exact (h.reclaim (within hs (by decide)))
  clear_value v2
  clear_value v3
  clear_value v4
  clear_value v5
  have hv6 : Chg ps r v6 := by
    unfold v6
    exact (hv2.setCanvas (within hs (by decide)))
  clear_value v6
  have hv7 : Chg ps r v7 := by
    unfold v7
    exact (hv6.setPanel (within hs (by decide)))
  clear_value v7
  have hv8 : Chg ps r v8 := by
    unfold v8
    exact (Chg.foldl hv7 (fun _ _ h10 => (h10.setWord (within hs (by decide)))))
  clear_value v8
  clear_value v9
  exact (Chg.ite (((hv8.setWord (within hs (by decide))).event (within hs (by decide))).journal (within hs (by decide))) (hv8.setCanvas (within hs (by decide))))

theorem Chg.errSeen {a1} (h : Chg ps r s) (hs : [Part.flt] ⊆ ps) : Chg ps r (State.errSeen s a1) :=
  (Chg.putFlt h (within hs (by decide)))

theorem Chg.fence {a1} (h : Chg ps r s) (hs : [Part.regs, .ledgers, .out, .flt, .hif, .pan, .cad] ⊆ ps) : Chg ps r (State.fence s a1) := by
  unfold State.fence
  extract_lets -underBinder v0
  have hv0 : Chg ps r v0 := by
    unfold v0
    exact (((h.errSeen (within hs (by decide))).leaveRun (within hs (by decide))).setSt (within hs (by decide)))
  clear_value v0
  exact (Chg.ite (hv0.fencePanel (within hs (by decide))) hv0)

theorem Chg.escalate {a1 a2 a3 a4 a5 a6 a7} (h : Chg ps r s) (hs : [Part.regs, .ledgers, .out, .flt, .pow, .hif, .pan, .cad] ⊆ ps) : Chg ps r (State.escalate s a1 a2 a3 a4 a5 a6 a7) := by
  unfold State.escalate
  extract_lets -underBinder v0 v1 v2 v3 v4 v5 v6 v7
  have hv0 : Chg ps r v0 := by
    unfold v0
    exact ((h.event (within hs (by decide))).countUp (within hs (by decide)))
  clear_value v0
  have hv1 : ∀ z0, Chg ps r z0 → Chg ps r (v1 z0) := by
    intro x8 h9
    unfold v1
    split
    · rename_i y10 y11
      exact (h9.closeRec (within hs (by decide)))
    · rename_i y12
      exact h9
  have hv2 : ∀ z0 z1, Chg ps r z0 → Chg ps r (v2 z0 z1) := by
    intro x13 x14 h15
    unfold v2
    exact (h15.journal (within hs (by decide)))
  have hv3 : Chg ps r v3 := by
    unfold v3
    exact (hv2 _ _ hv0)
  clear_value v3
  have hv4 : Chg ps r v4 := by
    unfold v4
    exact (hv3.journal (within hs (by decide)))
  clear_value v4
  have hv5 : Chg ps r v5 := by
    unfold v5
    exact (((hv4.leaveRun (within hs (by decide))).setSt (within hs (by decide))).event (within hs (by decide)))
  clear_value v5
  clear_value v6
  have hv7 : Chg ps r v7 := by
    unfold v7
    exact ((hv2 _ _ hv0).fence (within hs (by decide)))
  clear_value v7
  refine Chg.ite ?_ ?_
  · exact ((hv1 _ (hv2 _ _ hv0)).fatalSeq (within hs (by decide)))
  · refine Chg.ite ?_ ?_
    · refine Chg.ite ?_ ?_
      · exact (hv1 _ (hv5.setRcv (within hs (by decide))))
      · refine Chg.ite ?_ ?_
        · exact (hv1 _ hv7)
        · split
          · rename_i y16 y17
            exact (Chg.putFlt hv7 (within hs (by decide)))
          · rename_i y18
            exact hv7
    · exact (hv1 _ (hv2 _ _ hv0))

theorem Chg.collect {a1 a2 a3 a4 a5 a6} (h : Chg ps r s) (hs : [Part.regs, .ledgers, .out, .flt, .pow, .hif, .pan, .cad] ⊆ ps) : Chg ps r (State.collect s a1 a2 a3 a4 a5 a6) := by
  unfold State.collect
  extract_lets -underBinder v0
  have hv0 : Chg ps r v0 := by
    unfold v0
    exact (h.errSeen (within hs (by decide)))
  clear_value v0
  refine Chg.ite ?_ ?_
  · exact (hv0.countCe (within hs (by decide)))
  · split
    · rename_i y1 y2 y3 y4
      extract_lets -underBinder v5 v6 v7
      clear_value v5
      clear_value v6
      have hv7 : Chg ps r v7 := by
        unfold v7
        exact (Chg.putFlt hv0 (within hs (by decide)))
      clear_value v7
      exact (Chg.ite (hv7.fatalSeq (within hs (by decide))) hv7)
    · rename_i y8 y9
      refine Chg.ite ?_ ?_
      · exact (hv0.fatalSeq (within hs (by decide)))
      · split
        · rename_i y10 y11
          exact (hv0.escalate (within hs (by decide)))
        · rename_i y12 y13 y14
          extract_lets -underBinder v15 v16 v17
          clear_value v15
          clear_value v16
          have hv17 : Chg ps r v17 := by
            unfold v17
            exact (Chg.putFlt hv0 (within hs (by decide)))
          clear_value v17
          exact ((hv17.event (within hs (by decide))).journal (within hs (by decide)))

theorem Chg.report {a1 a2 a3 a4 a5} (h : Chg ps r s) (hs : [Part.regs, .ledgers, .out, .flt, .pow, .hif, .pan, .cad] ⊆ ps) : Chg ps r (State.report s a1 a2 a3 a4 a5) := by
  unfold State.report
  extract_lets -underBinder v0 v1 v2 v3
  have hv1 : Chg ps r v1 := by
    unfold v1
    exact (h.capture (within hs (by decide)))
  clear_value v1
  have hv3 : Chg ps r v3 := by
    unfold v3
    exact (Chg.ite hv1 (Chg.putFlt hv1 (within hs (by decide))))
  clear_value v3
  exact (Chg.ite h (Chg.ite hv1 (hv3.collect (within hs (by decide)))))

end Sys2Proof.Machine
end

