-- ==== Sys2Proof/Laws/Mem.lean ====
section
/-! SUPPORT. What each operation of Machine/Mem.lean touches at most, and that it keeps the ledgers and the byte stores in form (Chg). -/

namespace Sys2Proof.Machine

open Sys2Proof

variable {ps : List Part} {r s t : State}



theorem Chg.setFrame {a1 a2 a3} (h : Chg ps r s) (hs : [Part.mem] ⊆ ps) : Chg ps r (State.setFrame s a1 a2 a3) :=
  (Chg.putMem h (within hs (by decide)) ⟨rfl, rfl, rfl, rfl, rfl⟩)

theorem Chg.freeFrame {a1} (h : Chg ps r s) (hs : [Part.regs, .out, .flt, .hif, .mem] ⊆ ps) : Chg ps r (State.freeFrame s a1) := by
  unfold State.freeFrame
  refine Chg.ite ?_ ?_
  · extract_lets -underBinder v0 v1 v2
    have hv0 : Chg ps r v0 := by
      unfold v0
      exact (h.setFrame (within hs (by decide)))
    clear_value v0
    have hv2 : Chg ps r v2 := by
      unfold v2
      exact (Chg.putMem hv0 (within hs (by decide)) ⟨rfl, rfl, rfl, rfl, rfl⟩)
    clear_value v2
    exact (hv2.journal (within hs (by decide)))
  · exact (h.setFrame (within hs (by decide)))

theorem Chg.setFrames {a1 a2 a3 a4} (h : Chg ps r s) (hs : [Part.mem] ⊆ ps) : Chg ps r (State.setFrames s a1 a2 a3 a4) := by
  induction a2 generalizing s a1 with
  | zero => exact h
  | succ n ih => exact ih (h.setFrame (within hs (by decide)))

theorem Chg.freeFrames {a1 a2} (h : Chg ps r s) (hs : [Part.regs, .out, .flt, .hif, .mem] ⊆ ps) : Chg ps r (State.freeFrames s a1 a2) := by
  induction a2 generalizing s a1 with
  | zero => exact h
  | succ n ih => exact ih (h.freeFrame (within hs (by decide)))

theorem Chg.memZero {a1 a2} (h : Chg ps r s) (hs : [Part.mem] ⊆ ps) : Chg ps r (State.memZero s a1 a2) := by
  unfold State.memZero
  refine h.putBytes hs (fun k => ?_)
  exact ⟨smWf_cClear k.1 _ _, k.2⟩

theorem Chg.zeroFrame {a1} (h : Chg ps r s) (hs : [Part.mem] ⊆ ps) : Chg ps r (State.zeroFrame s a1) :=
  (h.memZero (within hs (by decide)))

theorem Chg.memWrite {a1 a2} (h : Chg ps r s) (hs : [Part.mem] ⊆ ps) : Chg ps r (State.memWrite s a1 a2) := by
  unfold State.memWrite
  refine h.putBytes hs (fun k => ?_)
  exact ⟨smWf_cWrite k.1 _ _, k.2⟩

theorem Chg.memPoison {a1} (h : Chg ps r s) (hs : [Part.mem] ⊆ ps) : Chg ps r (State.memPoison s a1) :=
  (Chg.putMem h (within hs (by decide)) ⟨rfl, rfl, rfl, rfl, rfl⟩)


theorem Chg.palStore {a1 a2 a3} (h : Chg ps r s) (hs : [Part.mem] ⊆ ps) : Chg ps r (State.palStore s a1 a2 a3) := by
  unfold State.palStore
  refine h.putBytes hs (fun k => ?_)
  exact ⟨k.1, smWf_cWrite k.2.1 _ _, k.2.2⟩

theorem Chg.palWrite {a1 a2 a3} (h : Chg ps r s) (hs : [Part.mem] ⊆ ps) : Chg ps r (State.palWrite s a1 a2 a3) := by
  unfold State.palWrite
  refine h.putBytes hs (fun k => ?_)
  exact ⟨k.1, smWf_cWrite k.2.1 _ _, k.2.2⟩

theorem Chg.palPoison {a1 a2} (h : Chg ps r s) (hs : [Part.mem] ⊆ ps) : Chg ps r (State.palPoison s a1 a2) :=
  (Chg.putMem h (within hs (by decide)) ⟨rfl, rfl, rfl, rfl, rfl⟩)

theorem Chg.palZero {a1} (h : Chg ps r s) (hs : [Part.mem] ⊆ ps) : Chg ps r (State.palZero s a1) := by
  unfold State.palZero
  refine h.putBytes hs (fun k => ?_)
  exact ⟨k.1, smWf_cClear k.2.1 _ _, k.2.2⟩

theorem Chg.storesZero {a1} (h : Chg ps r s) (hs : [Part.mem] ⊆ ps) : Chg ps r (State.storesZero s a1) := by
  unfold State.storesZero
  refine h.putBytes hs (fun k => ?_)
  exact ⟨k.1, k.2.1, smWf_cClear k.2.2.1 _ _, k.2.2.2⟩

end Sys2Proof.Machine
end

