-- ==== Sys2Proof/Laws/Mmu.lean ====
section
/-! SUPPORT. What each operation of Machine/Mmu.lean touches at most, and that it keeps the ledgers and the byte stores in form (Chg). -/

namespace Sys2Proof.Machine

open Sys2Proof

variable {ps : List Part} {r s t : State}



/-- The form of a saved slot. -/
def Saved.Canon (x : Saved) : Prop := smWf (0 : Byte) x.pal = true ∧ smWf (0 : Byte) x.stores = true

theorem mem_of_smFind {α : Type} {m : SMap α} {k : Nat} {v : α} (h : smFind m k = some v) : (k, v) ∈ m := by
  induction m with
  | nil => simp [smFind] at h
  | cons e m ih =>
    obtain ⟨q, w⟩ := e
    simp only [smFind] at h
    split at h
    · next hq => subst hq; obtain rfl := Option.some.inj h; exact List.mem_cons_self ..
    · exact List.mem_cons_of_mem _ (ih h)

theorem StoresCanon.savedOf (k : StoresCanon s) (p q : Nat) : (s.savedOf p q).Canon := by
  unfold State.savedOf smGet
  cases e : smFind s.pan.saved (p * 64 + q) with
  | none => exact ⟨rfl, rfl⟩
  | some x => exact k.2.2.2.2.2 _ (mem_of_smFind e)

theorem Chg.setSaved {a1 a2 a3} (h : Chg ps r s) (hx : StoresCanon s → Saved.Canon a3) (hs : [Part.pan] ⊆ ps) : Chg ps r (State.setSaved s a1 a2 a3) := by
  unfold State.setSaved
  extract_lets -underBinder tag
  clear_value tag
  refine h.putSaved hs (fun k e he => ?_)
  rcases mem_smSet he with ⟨_, he⟩ | he
  · rw [he]; exact hx k
  · exact k.2.2.2.2.2 e he

theorem Chg.writeLoc {a1 a2} (h : Chg ps r s) (hs : [Part.mem, .pan] ⊆ ps) : Chg ps r (State.writeLoc s a1 a2) := by
  unfold State.writeLoc
  split
  · exact h.memWrite (within hs (by decide))
  · exact h.palWrite (within hs (by decide))
  · extract_lets -underBinder v0
    exact h.setSaved (fun k => ⟨smWf_cWrite (k.savedOf _ _).1 _ _, (k.savedOf _ _).2⟩) (within hs (by decide))
  · exact h.putBytes (within hs (by decide)) (fun k => ⟨k.1, k.2.1, k.2.2.1, smWf_cWrite k.2.2.2.1 _ _, k.2.2.2.2⟩)

theorem Chg.writeCuts {a1 a2 a3 a4} (h : Chg ps r s) (hs : [Part.mem, .pan] ⊆ ps) : Chg ps r (State.writeCuts s a1 a2 a3 a4) := by
  induction a3 generalizing s a4 with
  | nil => exact h
  | cons e l ih =>
    unfold State.writeCuts
    refine ih ?_
    split
    · exact h
    · exact h.writeLoc (within hs (by decide))

theorem Chg.writeDva {a1 a2 a3} (h : Chg ps r s) (hs : [Part.mem, .pan] ⊆ ps) : Chg ps r (State.writeDva s a1 a2 a3) :=
  (Chg.ite h (h.writeCuts (within hs (by decide))))

theorem Chg.poisonDva {a1 a2} (h : Chg ps r s) (hs : [Part.mem, .pan] ⊆ ps) : Chg ps r (State.poisonDva s a1 a2) := by
  unfold State.poisonDva
  refine Chg.ite ?_ ?_
  · exact h
  · split
    · rename_i y0 y1 y2
      exact (h.memPoison (within hs (by decide)))
    · rename_i y3 y4 y5 y6
      exact (h.palPoison (within hs (by decide)))
    · rename_i y7 y8 y9 y10 y11
      extract_lets -underBinder v12
      exact (h.setSaved (fun k => ⟨(k.savedOf _ _).1, (k.savedOf _ _).2⟩) (within hs (by decide)))
    · rename_i y13 y14 y15
      exact (Chg.putMem h (within hs (by decide)) ⟨rfl, rfl, rfl, rfl, rfl⟩)
    · rename_i y16 y17 y18
      exact h

theorem Chg.weightBad {a1} (h : Chg ps r s) (hs : [Part.regs, .ledgers, .out, .flt, .pow, .hif, .mem, .pan, .cad] ⊆ ps) : Chg ps r (State.weightBad s a1) := by
  unfold State.weightBad
  extract_lets -underBinder v0 v1
  have hv0 : Chg ps r v0 := by
    unfold v0
    exact (((h.countUp (within hs (by decide))).event (within hs (by decide))).report (within hs (by decide)))
  clear_value v0
  exact (Chg.putMem hv0 (within hs (by decide)) ⟨rfl, rfl, rfl, rfl, rfl⟩)

theorem Chg.weightTold {a1 a2} (h : Chg ps r s) (hs : [Part.regs, .ledgers, .out, .flt, .pow, .hif, .mem, .pan, .cad] ⊆ ps) : Chg ps r (State.weightTold s a1 a2) := by
  unfold State.weightTold
  extract_lets -underBinder v0
  exact (h.weightBad (within hs (by decide)))

theorem Chg.mmuFault {a1 a2 a3 a4} (h : Chg ps r s) (hs : [Part.regs, .ledgers, .out, .flt, .pow, .hif, .mem, .pan, .cad] ⊆ ps) : Chg ps r (State.mmuFault s a1 a2 a3 a4) := by
  unfold State.mmuFault
  refine Chg.ite ?_ ?_
  · exact (Chg.ite (h.weightTold (within hs (by decide))) h)
  · extract_lets -underBinder v0 v1 v2 v3 v4 v5
    clear_value v2
    have hv3 : Chg ps r v3 := by
      unfold v3
      exact ((h.countUp (within hs (by decide))).countUp (within hs (by decide)))
    clear_value v3
    have hv5 : Chg ps r v5 := by
      unfold v5
      exact (Chg.ite (Chg.putHif hv3 (within hs (by decide))) (hv3.setFld (within hs (by decide))))
    clear_value v5
    exact (hv5.event (within hs (by decide)))

end Sys2Proof.Machine
end

