-- ==== Sys2Proof/Laws/Sync.lean ====
section
/-! SUPPORT. What each operation of Machine/Sync.lean touches at most, and that it keeps the ledgers and the byte stores in form (Chg). -/

namespace Sys2Proof.Machine

open Sys2Proof

variable {ps : List Part} {r s t : State}



theorem Chg.setCounter {a1 a2} (h : Chg ps r s) (hs : [Part.ops] ⊆ ps) : Chg ps r (State.setCounter s a1 a2) :=
  (Chg.putOps h (within hs (by decide)))

theorem Chg.synAdd {a1 a2} (h : Chg ps r s) (hs : [Part.regs, .out, .ops, .hif] ⊆ ps) : Chg ps r (State.synAdd s a1 a2) :=
  (Chg.ite (Chg.ite (h.setCounter (within hs (by decide))) ((h.setCounter (within hs (by decide))).event (within hs (by decide)))) h)

theorem Chg.relAdd {a1 a2 a3} (h : Chg ps r s) (hs : [Part.regs, .out, .ops, .hif] ⊆ ps) : Chg ps r (State.relAdd s a1 a2 a3) := by
  unfold State.relAdd
  refine Chg.ite ?_ ?_
  · exact h
  · split
    · rename_i y0 y1 y2
      exact (h.synAdd (within hs (by decide)))
    · rename_i y3 y4
      exact h

theorem Chg.takeSlots {a1} (h : Chg ps r s) (hs : [Part.ledgers] ⊆ ps) : Chg ps r (State.takeSlots s a1) :=
  (h.move (within hs (by decide)))

theorem Chg.returnSlots {a1} (h : Chg ps r s) (hs : [Part.ledgers] ⊆ ps) : Chg ps r (State.returnSlots s a1) :=
  (h.move (within hs (by decide)))

theorem Chg.reclaimSlots {a1} (h : Chg ps r s) (hs : [Part.regs, .ledgers] ⊆ ps) : Chg ps r (State.reclaimSlots s a1) :=
  (h.reclaim (within hs (by decide)))

theorem Chg.zeroCounters {a1} (h : Chg ps r s) (hs : [Part.ops] ⊆ ps) : Chg ps r (State.zeroCounters s a1) := by
  unfold State.zeroCounters
  extract_lets -underBinder v0 v1 v2
  exact (Chg.putOps h (within hs (by decide)))

end Sys2Proof.Machine
end

