-- ==== Sys2Proof/Laws/Flight.lean ====
section
/-! SUPPORT. What each operation of Machine/Flight.lean touches at most, and that it keeps the ledgers and the byte stores in form (Chg). -/

namespace Sys2Proof.Machine

open Sys2Proof

variable {ps : List Part} {r s t : State}



theorem Chg.setOp {a1 a2} (h : Chg ps r s) (hs : [Part.ops] ⊆ ps) : Chg ps r (State.setOp s a1 a2) :=
  (Chg.putOps h (within hs (by decide)))

theorem Chg.dropOp {a1} (h : Chg ps r s) (hs : [Part.ops] ⊆ ps) : Chg ps r (State.dropOp s a1) :=
  (Chg.putOps h (within hs (by decide)))

theorem Chg.setRing {a1 a2 a3} (h : Chg ps r s) (hs : [Part.ops] ⊆ ps) : Chg ps r (State.setRing s a1 a2 a3) :=
  (Chg.putOps h (within hs (by decide)))

theorem Chg.setCq {a1 a2 a3} (h : Chg ps r s) (hs : [Part.ops] ⊆ ps) : Chg ps r (State.setCq s a1 a2 a3) :=
  (Chg.putOps h (within hs (by decide)))

theorem Chg.postDue {a1 a2 a3} (h : Chg ps r s) (hs : [Part.ops] ⊆ ps) : Chg ps r (State.postDue s a1 a2 a3) := by
  unfold State.postDue
  extract_lets -underBinder v0
  clear_value v0
  exact (h.setCq (within hs (by decide)))

theorem Chg.raise {a1 a2} (h : Chg ps r s) (hs : [Part.out, .ops] ⊆ ps) : Chg ps r (State.raise s a1 a2) := by
  unfold State.raise
  extract_lets -underBinder v0 v1
  clear_value v0
  have hv1 : Chg ps r v1 := by
    unfold v1
    exact (h.emit (within hs (by decide)))
  clear_value v1
  exact (Chg.ite (h.setCq (within hs (by decide))) (Chg.ite hv1 (hv1.setCq (within hs (by decide)))))

theorem Chg.jobMove {a1 a2 a3} (h : Chg ps r s) (hs : [Part.ledgers] ⊆ ps) : Chg ps r (State.jobMove s a1 a2 a3) := by
  unfold State.jobMove
  split
  · rename_i y0 y1 y2
    refine Chg.ite ?_ ?_
    · split
      · rename_i y3 y4 y5 y6
        exact (h.move (within hs (by decide)))
      · rename_i y7 y8
        exact h
    · exact h
  · rename_i y9 y10
    exact h

theorem Chg.returnTag {a1} (h : Chg ps r s) (hs : [Part.regs, .ledgers, .ops] ⊆ ps) : Chg ps r (State.returnTag s a1) := by
  unfold State.returnTag
  extract_lets -underBinder v0 v1 v2 v3
  have hv1 : Chg ps r v1 := by
    unfold v1
    exact ((h.jobMove (within hs (by decide))).dropOp (within hs (by decide)))
  clear_value v1
  have hv2 : Chg ps r v2 := by
    unfold v2
    exact (Chg.ite (hv1.reclaim (within hs (by decide))) (hv1.move (within hs (by decide))))
  clear_value v2
  exact (Chg.putOps hv2 (within hs (by decide)))

theorem Chg.afterPost {a1 a2 a3} (h : Chg ps r s) (hs : [Part.regs, .ledgers, .ops] ⊆ ps) : Chg ps r (State.afterPost s a1 a2 a3) := by
  unfold State.afterPost
  refine Chg.ite ?_ ?_
  · exact h
  · split
    · rename_i y0 y1 y2
      exact (Chg.ite (h.returnTag (within hs (by decide))) h)
    · rename_i y3 y4
      exact h

theorem Chg.postGood {a1 a2 a3 a4 a5 a6} (h : Chg ps r s) (hs : [Part.regs, .ledgers, .out, .ops, .mem, .pan] ⊆ ps) : Chg ps r (State.postGood s a1 a2 a3 a4 a5 a6) := by
  unfold State.postGood
  extract_lets c ph s1 s2 s3
  have h1 : Chg ps r s1 := h.writeCuts (within hs (by decide))
  have h2 : Chg ps r s2 := h1.setCq (within hs (by decide))
  have h3 : Chg ps r s3 := Chg.ite (h2.raise (within hs (by decide))) h2
  exact h3.afterPost (within hs (by decide))

theorem Chg.postRec {a1 a2 a3 a4 a5 a6} (h : Chg ps r s) (hs : [Part.regs, .ledgers, .out, .flt, .pow, .ops, .hif, .mem, .pan, .cad] ⊆ ps) : Chg ps r (State.postRec s a1 a2 a3 a4 a5 a6) := by
  rw [State.postRec]
  generalize s.writeFault _ _ _ = o
  cases o with
  | some d =>
    exact Chg.ite h (((h.setCq (within hs (by decide))).mmuFault (within hs (by decide))).event (within hs (by decide)))
  | none => exact h.postGood (within hs (by decide))

theorem Chg.postHead {a1 a2} (h : Chg ps r s) (hs : [Part.regs, .ledgers, .out, .flt, .pow, .ops, .hif, .mem, .pan, .cad] ⊆ ps) : Chg ps r (State.postHead s a1 a2) := by
  unfold State.postHead
  split
  · exact h
  · exact Chg.ite h (Chg.ite (h.event (within hs (by decide))) (h.postRec (within hs (by decide))))

theorem Chg.enterSeq {a1 a2 a3} (h : Chg ps r s) (hs : [Part.regs, .ops] ⊆ ps) : Chg ps r (State.enterSeq s a1 a2 a3) := by
  unfold State.enterSeq
  extract_lets -underBinder v0 v1 v2
  clear_value v0
  clear_value v2
  exact ((h.setRing (within hs (by decide))).setWord (within hs (by decide)))

theorem Chg.recordMade {a1 a2 a3 a4 a5 a6} (h : Chg ps r s) (hs : [Part.ops, .srv] ⊆ ps) : Chg ps r (State.recordMade s a1 a2 a3 a4 a5 a6) := by
  unfold State.recordMade
  refine Chg.ite ?_ ?_
  · exact (Chg.putSrv h (within hs (by decide)))
  · extract_lets -underBinder v0 v1 v2 v3
    clear_value v0
    clear_value v1
    have hv2 : Chg ps r v2 := by
      unfold v2
      split
      · rename_i y4 y5
        exact (h.setRing (within hs (by decide)))
      · rename_i y6
        exact h
    clear_value v2
    have hv3 : Chg ps r v3 := by
      unfold v3
      exact (hv2.postDue (within hs (by decide)))
    clear_value v3
    split
    · rename_i y7 y8
      exact (Chg.foldl hv3 (fun _ _ h9 => (h9.postDue (within hs (by decide)))))
    · rename_i y10
      exact hv3

theorem Chg.headUp {a1 a2} (h : Chg ps r s) (hs : [Part.regs] ⊆ ps) : Chg ps r (State.headUp s a1 a2) := by
  unfold State.headUp
  extract_lets -underBinder v0
  exact (h.setWord (within hs (by decide)))

theorem Chg.refuse {a1 a2 a3 a4 a5 a6} (h : Chg ps r s) (hs : [Part.regs, .ops, .srv] ⊆ ps) : Chg ps r (State.refuse s a1 a2 a3 a4 a5 a6) := by
  unfold State.refuse
  extract_lets -underBinder v0
  have hv0 : Chg ps r v0 := by
    unfold v0
    exact ((h.countUp (within hs (by decide))).countUp (within hs (by decide)))
  clear_value v0
  exact (hv0.recordMade (within hs (by decide)))

theorem Chg.takeOp {a1 a2 a3 a4 a5 a6 a7} (h : Chg ps r s) (hs : [Part.ledgers, .ops] ⊆ ps) : Chg ps r (State.takeOp s a1 a2 a3 a4 a5 a6 a7) := by
  unfold State.takeOp
  extract_lets -underBinder v0 v1 v2 v3 v4
  clear_value v1
  clear_value v2
  have hv3 : Chg ps r v3 := by
    unfold v3
    exact (((h.setOp (within hs (by decide))).move (within hs (by decide))).takeSlots (within hs (by decide)))
  clear_value v3
  clear_value v4
  exact (Chg.putOps hv3 (within hs (by decide)))

theorem Chg.tagWait {a1 a2 a3} (h : Chg ps r s) (hs : [Part.regs, .out, .hif] ⊆ ps) : Chg ps r (State.tagWait s a1 a2 a3) := by
  unfold State.tagWait
  extract_lets -underBinder v0
  clear_value v0
  exact (Chg.ite (Chg.ite h ((h.setFld (within hs (by decide))).event (within hs (by decide)))) (h.setFld (within hs (by decide))))

theorem Chg.accept {a1 a2 a3 a4} (h : Chg ps r s) (hs : [Part.regs, .ledgers, .out, .ops, .hif, .srv] ⊆ ps) : Chg ps r (State.accept s a1 a2 a3 a4) := by
  unfold State.accept
  split
  · rename_i y0 y1
    exact ((h.refuse (within hs (by decide))).headUp (within hs (by decide)))
  · rename_i y2 y3
    extract_lets -underBinder v4 v5
    clear_value v4
    have hv5 : Chg ps r v5 := by
      unfold v5
      exact (h.headUp (within hs (by decide)))
    clear_value v5
    split
    · rename_i y6 y7 y8 y9
      exact (hv5.postDue (within hs (by decide)))
    · rename_i y10 y11 y12
      exact (hv5.setRing (within hs (by decide)))
    · rename_i y13 y14
      exact hv5
  · rename_i y15 y16
    split
    · rename_i y17 y18 y19 y20
      exact (((h.enterSeq (within hs (by decide))).refuse (within hs (by decide))).headUp (within hs (by decide)))
    · rename_i y21 y22
      refine Chg.ite ?_ ?_
      · exact (h.tagWait (within hs (by decide)))
      · split
        · rename_i y23 y24
          exact (h.tagWait (within hs (by decide)))
        · rename_i y25 y26 y27
          exact ((((h.tagWait (within hs (by decide))).enterSeq (within hs (by decide))).takeOp (within hs (by decide))).headUp (within hs (by decide)))

theorem Chg.slotFault {a1 a2 a3 a4} (h : Chg ps r s) (hs : [Part.regs, .ledgers, .out, .flt, .pow, .ops, .hif, .mem, .pan, .cad, .srv] ⊆ ps) : Chg ps r (State.slotFault s a1 a2 a3 a4) := by
  unfold State.slotFault
  extract_lets -underBinder v0 v1
  have hv1 : Chg ps r v1 := by
    unfold v1
    exact ((h.mmuFault (within hs (by decide))).recordMade (within hs (by decide)))
  clear_value v1
  exact (((hv1.countUp (within hs (by decide))).countUp (within hs (by decide))).headUp (within hs (by decide)))

theorem Chg.opEnd {a1 a2 a3 a4} (h : Chg ps r s) (hs : [Part.ops] ⊆ ps) : Chg ps r (State.opEnd s a1 a2 a3 a4) := by
  unfold State.opEnd
  split
  · rename_i y0 y1
    exact h
  · rename_i y2 y3 y4
    exact (Chg.ite h (h.setOp (within hs (by decide))))

theorem Chg.opMark {a1 a2 a3} (h : Chg ps r s) (hs : [Part.ops] ⊆ ps) : Chg ps r (State.opMark s a1 a2 a3) := by
  unfold State.opMark
  split
  · rename_i y0 y1
    exact h
  · rename_i y2 y3 y4
    exact (Chg.ite (h.setOp (within hs (by decide))) h)

theorem Chg.slotsMet {a1} (h : Chg ps r s) (hs : [Part.ledgers, .ops] ⊆ ps) : Chg ps r (State.slotsMet s a1) := by
  unfold State.slotsMet
  split
  · rename_i y0 y1
    exact h
  · rename_i y2 y3 y4
    exact ((h.setOp (within hs (by decide))).returnSlots (within hs (by decide)))

theorem Chg.letSlots {a1} (h : Chg ps r s) (hs : [Part.ledgers, .ops] ⊆ ps) : Chg ps r (State.letSlots s a1) := by
  unfold State.letSlots
  split
  · rename_i y0 y1
    exact h
  · rename_i y2 y3 y4
    extract_lets -underBinder v5
    clear_value v5
    exact ((h.setOp (within hs (by decide))).returnSlots (within hs (by decide)))

theorem Chg.issue {a1 a2 a3 a4} (h : Chg ps r s) (hf4 : ∀ x0 x1, Chg ps r x0 → Chg ps r (a4 x0 x1)) (hs : [Part.time, .ledgers, .ops] ⊆ ps) : Chg ps r (State.issue s a1 a2 a3 a4) := by
  unfold State.issue
  split
  · rename_i y0 y1
    exact h
  · rename_i y2 y3 y4
    refine Chg.ite ?_ ?_
    · exact h
    · refine Chg.ite ?_ ?_
      · exact (((h.at (within hs (by decide))).slotsMet (within hs (by decide))).opEnd (within hs (by decide)))
      · refine Chg.ite ?_ ?_
        · extract_lets -underBinder v5 v6
          have hv5 : Chg ps r v5 := by
            unfold v5
            exact ((h.at (within hs (by decide))).slotsMet (within hs (by decide)))
          clear_value v5
          clear_value v6
          split
          · rename_i y7 y8 y9
            exact ((hv5.setOp (within hs (by decide))).opEnd (within hs (by decide)))
          · rename_i y10 y11
            exact (hf4 _ _ (hv5.setOp (within hs (by decide))))
        · exact (h.letSlots (within hs (by decide)))

theorem Chg.withArg {a1 a2 a3 a4} (h : Chg ps r s) (hf4 : ∀ x0, Chg ps r (a4 x0)) (hs : [Part.regs, .ledgers, .out, .flt, .pow, .ops, .hif, .mem, .pan, .cad] ⊆ ps) : Chg ps r (State.withArg s a1 a2 a3 a4) := by
  unfold State.withArg
  generalize State.readDva _ _ _ _ = o0
  split
  · rename_i y1 y2 y3
    exact ((h.mmuFault (within hs (by decide))).opEnd (within hs (by decide)))
  · rename_i y4 y5 y6
    exact (Chg.ite (h.opEnd (within hs (by decide))) (hf4 _ ))

theorem Chg.opFault {a1 a2 a3 a4 a5 a6} (h : Chg ps r s) (hs : [Part.regs, .ledgers, .out, .flt, .pow, .ops, .hif, .mem, .pan, .cad] ⊆ ps) : Chg ps r (State.opFault s a1 a2 a3 a4 a5 a6) :=
  ((h.mmuFault (within hs (by decide))).opEnd (within hs (by decide)))

theorem Chg.useWindow {a1 a2} (h : Chg ps r s) (hs : [Part.ops] ⊆ ps) : Chg ps r (State.useWindow s a1 a2) := by
  unfold State.useWindow
  split
  · rename_i y0 y1 y2
    exact (Chg.ite (h.setOp (within hs (by decide))) h)
  · rename_i y3 y4
    exact h

theorem Chg.doSignals {a1} (h : Chg ps r s) (hs : [Part.regs, .out, .ops, .hif] ⊆ ps) : Chg ps r (State.doSignals s a1) := by
  unfold State.doSignals
  extract_lets -underBinder v0
  have hv0 : Chg ps r v0 := by
    unfold v0
    exact (Chg.ite (h.relAdd (within hs (by decide))) h)
  clear_value v0
  exact (Chg.ite (Chg.foldl hv0 (fun _ _ h1 => (h1.relAdd (within hs (by decide))))) hv0)

theorem Chg.complete {a1} (h : Chg ps r s) (hs : [Part.regs, .ledgers, .out, .ops, .hif, .srv] ⊆ ps) : Chg ps r (State.complete s a1) := by
  unfold State.complete
  split
  · rename_i y0 y1
    exact h
  · rename_i y2 y3 y4
    extract_lets -underBinder v5 v6 v7 v8
    have hv5 : Chg ps r v5 := by
      unfold v5
      exact (((h.doSignals (within hs (by decide))).jobMove (within hs (by decide))).move (within hs (by decide)))
    clear_value v5
    clear_value v6
    clear_value v7
    have hv8 : Chg ps r v8 := by
      unfold v8
      exact (hv5.setOp (within hs (by decide)))
    clear_value v8
    exact (Chg.ite (Chg.ite (hv5.setOp (within hs (by decide))) (hv5.returnTag (within hs (by decide)))) (Chg.ite (hv8.recordMade (within hs (by decide))) (hv8.recordMade (within hs (by decide)))))

theorem Chg.abandon {a1} (h : Chg ps r s) (hs : [Part.regs, .ledgers, .out, .ops, .hif, .srv] ⊆ ps) : Chg ps r (State.abandon s a1) := by
  unfold State.abandon
  split
  · rename_i y0 y1
    exact h
  · rename_i y2 y3 y4
    extract_lets -underBinder v5 v6 v7 v8 v9
    have hv5 : Chg ps r v5 := by
      unfold v5
      exact (h.reclaimSlots (within hs (by decide)))
    clear_value v5
    clear_value v6
    clear_value v7
    clear_value v8
    have hv9 : Chg ps r v9 := by
      unfold v9
      exact ((hv5.setOp (within hs (by decide))).recordMade (within hs (by decide)))
    clear_value v9
    exact (Chg.ite ((hv9.setOp (within hs (by decide))).complete (within hs (by decide))) hv9)

theorem Chg.partEnd {a1} (h : Chg ps r s) (hs : [Part.ops] ⊆ ps) : Chg ps r (State.partEnd s a1) := by
  unfold State.partEnd
  split
  · rename_i y0 y1
    exact h
  · rename_i y2 y3 y4
    exact (Chg.ite h (Chg.ite (h.setOp (within hs (by decide))) (h.setOp (within hs (by decide)))))

end Sys2Proof.Machine
end

