-- ==== Sys2Proof/Laws/Panels.lean ====
section
/-! SUPPORT. What each operation of Machine/Panels.lean touches at most, and that it keeps the ledgers and the byte stores in form (Chg). -/

namespace Sys2Proof.Machine

open Sys2Proof

variable {ps : List Part} {r s t : State}



theorem Chg.setCarts {a1} (h : Chg ps r s) (hs : [Part.pan] ⊆ ps) : Chg ps r (State.setCarts s a1) :=
  (Chg.putPan h (within hs (by decide)) rfl)

theorem Chg.storeWrite {a1 a2 a3 a4} (h : Chg ps r s) (hs : [Part.mem, .pan] ⊆ ps) : Chg ps r (State.storeWrite s a1 a2 a3 a4) := by
  unfold State.storeWrite
  split
  · exact h.setSaved (fun k => ⟨(k.savedOf _ _).1, smWf_cWrite (k.savedOf _ _).2 _ _⟩) (within hs (by decide))
  · exact h.putBytes (within hs (by decide)) (fun k => ⟨k.1, k.2.1, smWf_cWrite k.2.2.1 _ _, k.2.2.2⟩)

theorem Chg.markStale {a1 a2} (h : Chg ps r s) (hs : [Part.pan] ⊆ ps) : Chg ps r (State.markStale s a1 a2) := by
  unfold State.markStale
  extract_lets -underBinder v0
  exact (h.setCarts (within hs (by decide)))

theorem Chg.setPort {a1 a2 a3} (h : Chg ps r s) (hs : [Part.pan] ⊆ ps) : Chg ps r (State.setPort s a1 a2 a3) := by
  unfold State.setPort
  extract_lets -underBinder v0
  clear_value v0
  exact (h.setPanel (within hs (by decide)))

theorem Chg.dropPort {a1 a2} (h : Chg ps r s) (hs : [Part.pan] ⊆ ps) : Chg ps r (State.dropPort s a1 a2) := by
  unfold State.dropPort
  extract_lets -underBinder v0
  clear_value v0
  exact (h.setPanel (within hs (by decide)))

theorem Chg.showPort {a1 a2} (h : Chg ps r s) (hs : [Part.regs] ⊆ ps) : Chg ps r (State.showPort s a1 a2) := by
  unfold State.showPort
  extract_lets -underBinder v0
  split
  · rename_i y1 y2
    exact (h.setWord (within hs (by decide)))
  · rename_i y3 y4 y5
    exact (h.setWord (within hs (by decide)))

theorem Chg.grant {a1 a2} (h : Chg ps r s) (hs : [Part.ledgers, .pan] ⊆ ps) : Chg ps r (State.grant s a1 a2) := by
  unfold State.grant
  split
  · rename_i y0 y1
    exact h
  · rename_i y2 y3 y4
    refine Chg.ite ?_ ?_
    · exact h
    · extract_lets -underBinder v5
      clear_value v5
      exact ((h.move (within hs (by decide))).setPort (within hs (by decide)))

theorem Chg.ungrant {a1 a2} (h : Chg ps r s) (hs : [Part.ledgers, .pan] ⊆ ps) : Chg ps r (State.ungrant s a1 a2) := by
  unfold State.ungrant
  split
  · rename_i y0 y1
    exact h
  · rename_i y2 y3 y4
    exact ((h.move (within hs (by decide))).setPort (within hs (by decide)))

theorem Chg.landCredit {a1} (h : Chg ps r s) (hs : [Part.ledgers] ⊆ ps) : Chg ps r (State.landCredit s a1) :=
  ((h.move (within hs (by decide))).move (within hs (by decide)))

theorem Chg.dropPorts {a1 a2} (h : Chg ps r s) (hs : [Part.regs, .pan] ⊆ ps) : Chg ps r (State.dropPorts s a1 a2) := by
  unfold State.dropPorts
  extract_lets -underBinder v0 v1 v2 v3
  clear_value v0
  clear_value v2
  have hv3 : Chg ps r v3 := by
    unfold v3
    exact (h.setPanel (within hs (by decide)))
  clear_value v3
  exact (Chg.foldl hv3 (fun _ _ h4 => (h4.showPort (within hs (by decide)))))

theorem Chg.openBinds {a1 a2 a3 a4 a5} (h : Chg ps r s) (hs : [Part.regs, .ledgers, .pan] ⊆ ps) : Chg ps r (State.openBinds s a1 a2 a3 a4 a5) := by
  unfold State.openBinds
  split
  · rename_i y0 y1
    exact h
  · rename_i y2 y3 y4
    extract_lets -underBinder v5
    clear_value v5
    refine Chg.foldl ?_ (fun a7 x8 h9 => ?_)
    · exact h
    · extract_lets -underBinder v10
      clear_value v10
      exact (Chg.ite h9 (Chg.ite ((h9.setPort (within hs (by decide))).showPort (within hs (by decide))) (Chg.ite h9 (((h9.setPort (within hs (by decide))).grant (within hs (by decide))).showPort (within hs (by decide))))))

theorem Chg.setWork {a1 a2} (h : Chg ps r s) (hs : [Part.pan] ⊆ ps) : Chg ps r (State.setWork s a1 a2) := by
  unfold State.setWork
  extract_lets -underBinder v0
  clear_value v0
  exact (h.setPanel (within hs (by decide)))

theorem Chg.fillPorts {a1} (h : Chg ps r s) (hs : [Part.regs, .ledgers, .pan] ⊆ ps) : Chg ps r (State.fillPorts s a1) := by
  unfold State.fillPorts
  extract_lets -underBinder v0
  clear_value v0
  split
  · rename_i y1
    exact h
  · rename_i y2 y3 y4
    extract_lets -underBinder v5
    refine Chg.ite ?_ ?_
    · exact h
    · refine Chg.ite ?_ ?_
      · exact (h.openBinds (within hs (by decide)))
      · split
        · rename_i y6
          exact h
        · rename_i y7 y8 y9
          exact (Chg.ite h (h.openBinds (within hs (by decide))))

theorem Chg.setPalOf {a1 a2} (h : Chg ps r s) (hm : StoresCanon s → smWf (0 : Byte) a2 = true) (hs : [Part.mem] ⊆ ps) : Chg ps r (State.setPalOf s a1 a2) := by
  unfold State.setPalOf
  exact h.putBytes (within hs (by decide)) (fun k => ⟨k.1, smWf_smSplice k.2.1 (hm k) _ _, k.2.2⟩)

theorem Chg.addStepSignal {a1 a2 a3} (h : Chg ps r s) (hs : [Part.regs, .out, .ops, .hif] ⊆ ps) : Chg ps r (State.addStepSignal s a1 a2 a3) := by
  unfold State.addStepSignal
  refine Chg.ite ?_ ?_
  · exact h
  · extract_lets -underBinder v0
    clear_value v0
    split
    · rename_i y1 y2 y3 y4
      exact (Chg.ite h (h.synAdd (within hs (by decide))))
    · rename_i y5 y6
      exact h

theorem Chg.workOff {a1 a2} (h : Chg ps r s) (hs : [Part.ops, .pan] ⊆ ps) : Chg ps r (State.workOff s a1 a2) := by
  unfold State.workOff
  extract_lets -underBinder v0
  clear_value v0
  exact (Chg.ite ((h.setPanel (within hs (by decide))).partEnd (within hs (by decide))) h)

theorem Chg.endOnPanels {a1} (h : Chg ps r s) (hs : [Part.regs, .ops, .pan] ⊆ ps) : Chg ps r (State.endOnPanels s a1) := by
  unfold State.endOnPanels
  split
  · rename_i y0 y1
    exact h
  · rename_i y2 y3 y4
    exact (Chg.foldl h (fun _ _ h5 => (Chg.ite h5 ((h5.dropPorts (within hs (by decide))).workOff (within hs (by decide))))))

theorem Chg.endAt {a1 a2 a3 a4} (h : Chg ps r s) (hs : [Part.regs, .ops, .pan] ⊆ ps) : Chg ps r (State.endAt s a1 a2 a3 a4) :=
  ((h.opMark (within hs (by decide))).endOnPanels (within hs (by decide)))

theorem Chg.drained {a1 a2 a3} (h : Chg ps r s) (hs : [Part.regs, .out, .ops, .hif, .pan] ⊆ ps) : Chg ps r (State.drained s a1 a2 a3) := by
  unfold State.drained
  split
  · rename_i y0 y1 y2 y3 y4 y5
    refine Chg.ite ?_ ?_
    · exact h
    · extract_lets -underBinder v6
      have hv6 : Chg ps r v6 := by
        unfold v6
        exact (h.addStepSignal (within hs (by decide)))
      clear_value v6
      exact (Chg.ite (hv6.workOff (within hs (by decide))) hv6)
  · rename_i y7 y8 y9
    exact h

theorem Chg.applyClock {a1} (h : Chg ps r s) (hs : [Part.regs, .pan] ⊆ ps) : Chg ps r (State.applyClock s a1) := by
  unfold State.applyClock
  extract_lets -underBinder v0 v1
  clear_value v0
  clear_value v1
  exact (Chg.ite (Chg.ite h (h.setPanel (within hs (by decide)))) (Chg.ite h ((h.setPanel (within hs (by decide))).setFld (within hs (by decide)))))

theorem Chg.stepWrite {a1 a2} (h : Chg ps r s) (hs : [Part.mem] ⊆ ps) : Chg ps r (State.stepWrite s a1 a2) := by
  unfold State.stepWrite
  extract_lets -underBinder v0 v1 v2
  have hv1 : Chg ps r v1 := by
    unfold v1
    exact (Chg.foldl h (fun _ _ h3 => (h3.palStore (within hs (by decide)))))
  clear_value v1
  exact (Chg.putMem hv1 (within hs (by decide)) ⟨rfl, rfl, rfl, rfl, rfl⟩)

theorem Chg.stepEnd {a1 a2 a3} (h : Chg ps r s) (hs : [Part.free, .regs, .wide, .ledgers, .out, .ops, .hif, .mem, .pan] ⊆ ps) : Chg ps r (State.stepEnd s a1 a2 a3) := by
  unfold State.stepEnd
  extract_lets -underBinder v0 v1 v2 v3 v4 v5 v6 v7 v8 v9 v10 v11 v12 v13 v14 v15 v16 v17 v18
  clear_value v0
  clear_value v1
  clear_value v2
  clear_value v3
  clear_value v4
  clear_value v5
  have hv6 : Chg ps r v6 := by
    unfold v6
    exact (h.stepWrite (within hs (by decide)))
  clear_value v6
  have hv7 : Chg ps r v7 := by
    unfold v7
    exact (Chg.putFree hv6 (within hs (by decide)))
  clear_value v7
  have hv8 : Chg ps r v8 := by
    unfold v8
    exact ((hv7.setWide (within hs (by decide))).countUp (within hs (by decide)))
  clear_value v8
  have hv9 : Chg ps r v9 := by
    unfold v9
    exact (hv8.setFld (within hs (by decide)))
  clear_value v9
  have hv10 : Chg ps r v10 := by
    unfold v10
    exact (Chg.ite (hv9.event (within hs (by decide))) hv9)
  clear_value v10
  have hv11 : Chg ps r v11 := by
    unfold v11
    exact (Chg.ite (hv10.event (within hs (by decide))) hv10)
  clear_value v11
  have hv12 : Chg ps r v12 := by
    unfold v12
    refine Chg.ite ?_ ?_
    · split
      · rename_i y19 y20 y21
        exact (hv11.setOp (within hs (by decide)))
      · rename_i y22 y23
        exact hv11
    · exact hv11
  clear_value v12
  clear_value v13
  clear_value v14
  have hv15 : Chg ps r v15 := by
    unfold v15
    exact (hv12.setWork (within hs (by decide)))
  clear_value v15
  have hv16 : Chg ps r v16 := by
    unfold v16
    exact (Chg.ite hv15 (hv15.openBinds (within hs (by decide))))
  clear_value v16
  have hv17 : Chg ps r v17 := by
    unfold v17
    exact (hv16.drained (within hs (by decide)))
  clear_value v17
  have hv18 : Chg ps r v18 := by
    unfold v18
    exact (Chg.ite (hv17.endAt (within hs (by decide))) (Chg.ite (hv17.endOnPanels (within hs (by decide))) hv17))
  clear_value v18
  exact ((hv18.fillPorts (within hs (by decide))).applyClock (within hs (by decide)))

theorem Chg.startStep {a1 a2} (h : Chg ps r s) (hs : [Part.regs, .ledgers, .mem, .pan] ⊆ ps) : Chg ps r (State.startStep s a1 a2) := by
  unfold State.startStep
  extract_lets -underBinder v0 v1 v2 v3 v4 v5 v6 v7
  clear_value v0
  clear_value v1
  have hv3 : Chg ps r v3 := by
    unfold v3
    exact (Chg.putMem h (within hs (by decide)) ⟨rfl, rfl, rfl, rfl, rfl⟩)
  clear_value v3
  have hv4 : Chg ps r v4 := by
    unfold v4
    exact (hv3.setPanel (within hs (by decide)))
  clear_value v4
  have hv5 : Chg ps r v5 := by
    unfold v5
    exact (((hv4.setFld (within hs (by decide))).setFld (within hs (by decide))).setWork (within hs (by decide)))
  clear_value v5
  have hv6 : Chg ps r v6 := by
    unfold v6
    exact (Chg.foldl hv5 (fun _ _ h8 => (h8.showPort (within hs (by decide)))))
  clear_value v6
  have hv7 : Chg ps r v7 := by
    unfold v7
    exact (Chg.ite hv6 (hv6.setFld (within hs (by decide))))
  clear_value v7
  exact (hv7.fillPorts (within hs (by decide)))

theorem Chg.sparesLeft {a1 a2} (h : Chg ps r s) (hs : [Part.regs, .out, .hif] ⊆ ps) : Chg ps r (State.sparesLeft s a1 a2) := by
  unfold State.sparesLeft
  extract_lets -underBinder v0 v1
  clear_value v0
  have hv1 : Chg ps r v1 := by
    unfold v1
    exact (h.setFld (within hs (by decide)))
  clear_value v1
  exact (Chg.ite (hv1.event (within hs (by decide))) (Chg.ite (hv1.event (within hs (by decide))) hv1))

theorem Chg.coreless {a1 a2} (h : Chg ps r s) (hs : [Part.regs, .ledgers, .out, .flt, .pow, .hif, .pan, .cad] ⊆ ps) : Chg ps r (State.coreless s a1 a2) :=
  (h.escalate (within hs (by decide)))

theorem Chg.fenceCore {a1 a2} (h : Chg ps r s) (hs : [Part.regs, .ledgers, .out, .flt, .pow, .hif, .pan, .cad] ⊆ ps) : Chg ps r (State.fenceCore s a1 a2) := by
  unfold State.fenceCore
  extract_lets -underBinder v0 v1 v2
  clear_value v0
  clear_value v1
  clear_value v2
  exact (Chg.ite ((h.setPanel (within hs (by decide))).sparesLeft (within hs (by decide))) (Chg.ite h (Chg.ite (h.coreless (within hs (by decide))) (h.setPanel (within hs (by decide))))))

theorem Chg.retireCore {a1 a2 a3} (h : Chg ps r s) (hs : [Part.pan] ⊆ ps) : Chg ps r (State.retireCore s a1 a2 a3) := by
  unfold State.retireCore
  extract_lets -underBinder v0
  clear_value v0
  exact (Chg.ite h (h.setPanel (within hs (by decide))))

theorem Chg.substCore {a1 a2} (h : Chg ps r s) (hs : [Part.regs, .ledgers, .out, .flt, .pow, .hif, .pan, .cad] ⊆ ps) : Chg ps r (State.substCore s a1 a2) := by
  unfold State.substCore
  extract_lets -underBinder v0 v1
  clear_value v0
  clear_value v1
  split
  · rename_i y2 y3
    exact h
  · rename_i y4 y5 y6
    extract_lets -underBinder v7
    clear_value v7
    split
    · rename_i y8 y9 y10 y11 y12 y13 y14
      extract_lets -underBinder v15 v16 v17 v18 v19 v20
      clear_value v15
      have hv16 : Chg ps r v16 := by
        unfold v16
        exact (h.setPanel (within hs (by decide)))
      clear_value v16
      have hv17 : Chg ps r v17 := by
        unfold v17
        exact (Chg.foldl hv16 (fun _ _ h21 => (h21.markStale (within hs (by decide)))))
      clear_value v17
      have hv18 : Chg ps r v18 := by
        unfold v18
        exact (hv17.countFld (within hs (by decide)))
      clear_value v18
      have hv19 : Chg ps r v19 := by
        unfold v19
        exact ((hv18.setFld (within hs (by decide))).setFld (within hs (by decide)))
      clear_value v19
      have hv20 : Chg ps r v20 := by
        unfold v20
        exact ((hv19.event (within hs (by decide))).sparesLeft (within hs (by decide)))
      clear_value v20
      exact (hv20.journal (within hs (by decide)))
    · rename_i y22 y23 y24 y25 y26
      exact (Chg.ite (h.setPanel (within hs (by decide))) (h.coreless (within hs (by decide))))
    · rename_i y27 y28 y29
      exact (h.setPanel (within hs (by decide)))

theorem Chg.substPanel {a1 a2} (h : Chg ps r s) (hs : [Part.regs, .out, .flt, .hif, .mem, .pan] ⊆ ps) : Chg ps r (State.substPanel s a1 a2) := by
  unfold State.substPanel
  extract_lets -underBinder v0 v1 v2 v3 v4 v5 v6 v7 v8
  clear_value v1
  clear_value v2
  have hv3 : Chg ps r v3 := by
    unfold v3
    exact ((h.setPanel (within hs (by decide))).setCanvas (within hs (by decide)))
  clear_value v3
  clear_value v4
  have hv6 : Chg ps r v6 := by
    unfold v6
    refine Chg.ite ?_ ?_
    · refine Chg.markStale ?_ (within hs (by decide))
      exact (Chg.putMem hv3 (within hs (by decide)) ⟨rfl, rfl, rfl, rfl, rfl⟩)
    · exact hv3
  clear_value v6
  have hv7 : Chg ps r v7 := by
    unfold v7
    exact (hv6.setFld (within hs (by decide)))
  clear_value v7
  have hv8 : Chg ps r v8 := by
    unfold v8
    exact (hv7.event (within hs (by decide)))
  clear_value v8
  exact (hv8.journal (within hs (by decide)))

theorem Chg.sweepPanel {a1} (h : Chg ps r s) (hs : [Part.regs, .ops, .pan] ⊆ ps) : Chg ps r (State.sweepPanel s a1) :=
  (Chg.foldl h (fun _ _ h0 => (h0.endAt (within hs (by decide)))))

theorem Chg.savePanel {a1 a2} (h : Chg ps r s) (hs : [Part.mem, .pan] ⊆ ps) : Chg ps r (State.savePanel s a1 a2) := by
  unfold State.savePanel
  exact ((h.setSaved (fun k => ⟨smWf_smCut k.2.1 _ _, smWf_smCut k.2.2.1 _ _⟩) (within hs (by decide))).palZero (within hs (by decide))).storesZero (within hs (by decide))

theorem Chg.restorePanel {a1 a2} (h : Chg ps r s) (hs : [Part.mem, .pan] ⊆ ps) : Chg ps r (State.restorePanel s a1 a2) := by
  unfold State.restorePanel
  extract_lets x s1 po st m s2
  have h1 : Chg ps r s1 := h.setPalOf (fun k => (k.savedOf _ _).1) (within hs (by decide))
  have hx : StoresCanon s1 → smWf (0 : Byte) x.stores = true := fun k => (k.savedOf a1 a2).2
  have h2 : Chg ps r { s1 with mem := { s1.mem with palPoison := po, stores := st } } :=
    h1.putBytes (within hs (by decide)) (fun k => ⟨k.1, k.2.1, smWf_smSplice k.2.2.1 (hx k) _ _, k.2.2.2⟩)
  have h3 : Chg ps r s2 := h2.setSaved (fun _ => ⟨rfl, rfl⟩) (within hs (by decide))
  clear_value s2
  exact h3.setPanel (within hs (by decide))

theorem Chg.ungrantAll {a1} (h : Chg ps r s) (hs : [Part.ledgers, .pan] ⊆ ps) : Chg ps r (State.ungrantAll s a1) :=
  (Chg.foldl h (fun _ _ h0 => (h0.ungrant (within hs (by decide)))))

theorem Chg.portsBack {a1} (h : Chg ps r s) (hs : [Part.regs, .ledgers, .pan] ⊆ ps) : Chg ps r (State.portsBack s a1) :=
  (Chg.foldl h (fun _ _ h0 => ((h0.grant (within hs (by decide))).showPort (within hs (by decide)))))

end Sys2Proof.Machine
end

