-- ==== Sys2Proof/Laws/Pages.lean ====
section
/-! SUPPORT. What each operation of Machine/Pages.lean touches at most, and that it keeps the ledgers and the byte stores in form (Chg). -/

namespace Sys2Proof.Machine

open Sys2Proof

variable {ps : List Part} {r s t : State}



theorem Chg.access {a1 a2 a3} (h : Chg ps r s) (hf3 : ∀ x0 x1, Chg ps r x1 → Chg ps r (a3 x0 x1)) (hs : [Part.regs, .out, .hif] ⊆ ps) : Chg ps r (State.access s a1 a2 a3) :=
  (h.via (fun _ h0 => (Chg.ite (h0.unmappedWrite (within hs (by decide))) (Chg.ite (h0.discard (within hs (by decide))) (hf3 _ _ h0)))) (within hs (by decide)))

theorem Chg.storeAt {a1 a2 a3 a4} (h : Chg ps r s) (hs : [Part.regs, .rsv, .out, .hif] ⊆ ps) : Chg ps r (State.storeAt s a1 a2 a3 a4) := by
  unfold State.storeAt
  split
  · rename_i y0 y1
    exact (Chg.ite h (h.discard (within hs (by decide))))
  · rename_i y2 y3 y4
    refine Chg.ite ?_ ?_
    · exact (h.discard (within hs (by decide)))
    · extract_lets -underBinder v5 v6 v7
      have hv6 : Chg ps r v6 := by
        unfold v6
        exact (Chg.putRsv h (within hs (by decide)))
      clear_value v6
      have hv7 : Chg ps r v7 := by
        unfold v7
        exact (Chg.ite (hv6.discard (within hs (by decide))) hv6)
      clear_value v7
      exact (hv7.setWord (within hs (by decide)))

theorem Chg.storeReg {a1 a2 a3} (h : Chg ps r s) (hs : [Part.regs, .rsv, .out, .hif] ⊆ ps) : Chg ps r (State.storeReg s a1 a2 a3) :=
  (h.storeAt (within hs (by decide)))

theorem Chg.evtClear {a1 a2} (h : Chg ps r s) (hs : [Part.regs, .rsv, .out, .hif] ⊆ ps) : Chg ps r (State.evtClear s a1 a2) :=
  (((h.setWord (within hs (by decide))).irq (within hs (by decide))).noteRsv (within hs (by decide)))

theorem Chg.evtEnable {a1 a2} (h : Chg ps r s) (hs : [Part.regs, .rsv, .out, .hif] ⊆ ps) : Chg ps r (State.evtEnable s a1 a2) := by
  unfold State.evtEnable
  extract_lets -underBinder v0
  have hv0 : Chg ps r v0 := by
    unfold v0
    exact (h.noteRsv (within hs (by decide)))
  clear_value v0
  exact ((hv0.setWord (within hs (by decide))).irq (within hs (by decide)))

theorem Chg.evtForceW {a1 a2} (h : Chg ps r s) (hs : [Part.regs, .rsv, .out, .hif] ⊆ ps) : Chg ps r (State.evtForceW s a1 a2) :=
  (Chg.foldl (h.noteRsv (within hs (by decide))) (fun _ _ h0 => (Chg.ite (h0.event (within hs (by decide))) h0)))

theorem Chg.execEvtRawClear {a1 a2} (h : Chg ps r s) (hs : [Part.regs, .rsv, .out, .hif] ⊆ ps) : ∃ t, execEvtRawClear a1 a2 s = .next t ∧ Chg ps r t := by
  refine ⟨_, rfl, ?_⟩
  exact (h.access (fun _ _ h0 => (h0.evtClear (within hs (by decide)))) (within hs (by decide)))

theorem Chg.execEvtForce {a1 a2} (h : Chg ps r s) (hs : [Part.regs, .rsv, .out, .hif] ⊆ ps) : ∃ t, execEvtForce a1 a2 s = .next t ∧ Chg ps r t := by
  refine ⟨_, rfl, ?_⟩
  exact (h.access (fun _ _ h0 => (h0.evtForceW (within hs (by decide)))) (within hs (by decide)))

theorem Chg.errWrite {a1 a2} (h : Chg ps r s) (hs : [Part.regs, .rsv, .out, .flt, .hif] ⊆ ps) : Chg ps r (State.errWrite s a1 a2) := by
  unfold State.errWrite
  extract_lets -underBinder v0 v1 v2 v3 v4
  have hv0 : Chg ps r v0 := by
    unfold v0
    exact (h.noteRsv (within hs (by decide)))
  clear_value v0
  have hv1 : Chg ps r v1 := by
    unfold v1
    exact (Chg.ite ((hv0.setFld (within hs (by decide))).setFld (within hs (by decide))) hv0)
  clear_value v1
  have hv2 : Chg ps r v2 := by
    unfold v2
    exact (Chg.ite (hv1.setFld (within hs (by decide))) hv1)
  clear_value v2
  have hv3 : Chg ps r v3 := by
    unfold v3
    exact ((hv2.setWord (within hs (by decide))).setWord (within hs (by decide)))
  clear_value v3
  exact (Chg.ite (Chg.putFlt hv3 (within hs (by decide))) hv2)

theorem Chg.execErrStatusClear {a1 a2 a3} (h : Chg ps r s) (hs : [Part.regs, .rsv, .out, .flt, .hif] ⊆ ps) : ∃ t, execErrStatusClear a1 a2 a3 s = .next t ∧ Chg ps r t := by
  refine ⟨_, rfl, ?_⟩
  exact (h.access (fun _ _ h0 => (h0.errWrite (within hs (by decide)))) (within hs (by decide)))

theorem Chg.execClrCounts {a1} (h : Chg ps r s) (hs : [Part.regs, .rsv, .out, .flt, .hif] ⊆ ps) : ∃ t, execClrCounts a1 s = .next t ∧ Chg ps r t := by
  refine ⟨_, rfl, ?_⟩
  exact (h.access (fun _ _ h0 => (h0.errWrite (within hs (by decide)))) (within hs (by decide)))

theorem Chg.ledgerSel {a1 a2} (h : Chg ps r s) (hs : [Part.regs, .rsv, .out, .hif] ⊆ ps) : Chg ps r (State.ledgerSel s a1 a2) := by
  unfold State.ledgerSel
  extract_lets -underBinder v0 v1 v2
  have hv1 : Chg ps r v1 := by
    unfold v1
    exact ((h.noteRsv (within hs (by decide))).setWord (within hs (by decide)))
  clear_value v1
  clear_value v2
  exact (((((hv1.setWord (within hs (by decide))).setWord (within hs (by decide))).setWord (within hs (by decide))).setWord (within hs (by decide))).setWord (within hs (by decide)))

theorem Chg.execLedgerSnapshot {a1 a2} (h : Chg ps r s) (hs : [Part.regs, .rsv, .out, .hif] ⊆ ps) : ∃ t, execLedgerSnapshot a1 a2 s = .next t ∧ Chg ps r t := by
  refine ⟨_, rfl, ?_⟩
  exact (h.access (fun _ _ h0 => (h0.ledgerSel (within hs (by decide)))) (within hs (by decide)))

theorem Chg.pwrWrite {a1 a2} (h : Chg ps r s) (hs : [Part.regs, .rsv, .out, .hif] ⊆ ps) : Chg ps r (State.pwrWrite s a1 a2) := by
  unfold State.pwrWrite
  extract_lets -underBinder v0 v1
  have hv0 : Chg ps r v0 := by
    unfold v0
    exact (h.noteRsv (within hs (by decide)))
  clear_value v0
  clear_value v1
  exact (Chg.ite (hv0.discard (within hs (by decide))) (Chg.ite (hv0.discard (within hs (by decide))) (Chg.ite hv0 ((hv0.setFld (within hs (by decide))).setFld (within hs (by decide))))))

theorem Chg.execPwrReqDoze {a1} (h : Chg ps r s) (hs : [Part.regs, .rsv, .out, .hif] ⊆ ps) : ∃ t, execPwrReqDoze a1 s = .next t ∧ Chg ps r t := by
  refine ⟨_, rfl, ?_⟩
  exact (h.access (fun _ _ h0 => (h0.pwrWrite (within hs (by decide)))) (within hs (by decide)))

theorem Chg.execPwrReqActive {a1} (h : Chg ps r s) (hs : [Part.regs, .rsv, .out, .hif] ⊆ ps) : ∃ t, execPwrReqActive a1 s = .next t ∧ Chg ps r t := by
  refine ⟨_, rfl, ?_⟩
  exact (h.access (fun _ _ h0 => (h0.pwrWrite (within hs (by decide)))) (within hs (by decide)))

theorem Chg.pwrDone {a1 a2} (h : Chg ps r s) (hs : [Part.regs] ⊆ ps) : Chg ps r (State.pwrDone s a1 a2) :=
  (Chg.ite ((h.setFld (within hs (by decide))).setFld (within hs (by decide))) h)

theorem Chg.execDozeGated {a1} (h : Chg ps r s) (hs : [Part.regs] ⊆ ps) : ∃ t, execDozeGated a1 s = .next t ∧ Chg ps r t := by
  refine ⟨_, rfl, ?_⟩
  exact (h.pwrDone (within hs (by decide)))

theorem Chg.execClocksRestarted {a1} (h : Chg ps r s) (hs : [Part.regs] ⊆ ps) : ∃ t, execClocksRestarted a1 s = .next t ∧ Chg ps r t := by
  refine ⟨_, rfl, ?_⟩
  exact (h.pwrDone (within hs (by decide)))

theorem Chg.reclock {a1} (h : Chg ps r s) (hs : [Part.regs, .pan] ⊆ ps) : Chg ps r (State.reclock s a1) :=
  (Chg.ite h (h.applyClock (within hs (by decide))))

theorem Chg.clkWrite {a1 a2} (h : Chg ps r s) (hs : [Part.regs, .rsv, .out, .hif, .pan] ⊆ ps) : Chg ps r (State.clkWrite s a1 a2) := by
  unfold State.clkWrite
  extract_lets -underBinder v0 v1
  have hv0 : Chg ps r v0 := by
    unfold v0
    exact (h.noteRsv (within hs (by decide)))
  clear_value v0
  clear_value v1
  split
  · rename_i y2 y3
    exact (Chg.ite (hv0.discard (within hs (by decide))) ((hv0.setFld (within hs (by decide))).reclock (within hs (by decide))))
  · rename_i y4 y5
    extract_lets -underBinder v6
    clear_value v6
    exact (Chg.ite (hv0.discard (within hs (by decide))) (Chg.foldl ((hv0.setFld (within hs (by decide))).setFld (within hs (by decide))) (fun _ _ h7 => (h7.reclock (within hs (by decide))))))
  · rename_i y8 y9 y10
    exact hv0

theorem Chg.execClkSelWrite {a1 a2} (h : Chg ps r s) (hs : [Part.regs, .rsv, .out, .hif, .pan] ⊆ ps) : ∃ t, execClkSelWrite a1 a2 s = .next t ∧ Chg ps r t := by
  refine ⟨_, rfl, ?_⟩
  exact (h.access (fun _ _ h0 => (h0.clkWrite (within hs (by decide)))) (within hs (by decide)))

theorem Chg.execModTimeRead {a1} (h : Chg ps r s) (hs : [Part.time, .regs, .wide, .reply] ⊆ ps) : ∃ t, execModTimeRead a1 s = .next t ∧ Chg ps r t := by
  refine ⟨_, rfl, ?_⟩
  refine Chg.via ?_ (fun x1 h2 => ?_) (within hs (by decide))
  · exact h
  · extract_lets -underBinder v3
    have hv3 : Chg ps r v3 := by
      unfold v3
      exact (h2.at (within hs (by decide)))
    clear_value v3
    exact (((hv3.setWide (within hs (by decide))).readWide (within hs (by decide))).answer (within hs (by decide)))

theorem Chg.execModPtpOffsetRead (h : Chg ps r s) (hs : [Part.regs, .reply] ⊆ ps) : ∃ t, execModPtpOffsetRead s = .next t ∧ Chg ps r t := by
  refine ⟨_, rfl, ?_⟩
  exact (h.via (fun _ h0 => (h0.readWide (within hs (by decide)))) (within hs (by decide)))

end Sys2Proof.Machine
end

