-- ==== Sys2Proof/Laws/Faults.lean ====
section
/-! SUPPORT. What each operation of Machine/Faults.lean touches at most, and that it keeps the ledgers and the byte stores in form (Chg). -/

namespace Sys2Proof.Machine

open Sys2Proof

variable {ps : List Part} {r s t : State}



theorem Chg.rebase {a1 a2} (h : Chg ps r s) (hs : [Part.flt] ⊆ ps) : Chg ps r (State.rebase s a1 a2) := by
  unfold State.rebase
  extract_lets -underBinder v0 v1 v2
  exact (Chg.putFlt h (within hs (by decide)))

theorem Chg.wireBroken {a1 a2} (h : Chg ps r s) (hs : [Part.regs, .out, .flt, .hif] ⊆ ps) : Chg ps r (State.wireBroken s a1 a2) := by
  unfold State.wireBroken
  extract_lets -underBinder v0 v1 v2 v3
  have hv2 : Chg ps r v2 := by
    unfold v2
    exact ((Chg.putFlt h (within hs (by decide))).rebase (within hs (by decide)))
  clear_value v2
  have hv3 : Chg ps r v3 := by
    unfold v3
    exact (hv2.countUp (within hs (by decide)))
  clear_value v3
  exact (Chg.ite h (hv3.journal (within hs (by decide))))

theorem Chg.fltAck {a1} (h : Chg ps r s) (hs : [Part.regs, .rsv, .out, .flt, .hif] ⊆ ps) : Chg ps r (State.fltAck s a1) := by
  unfold State.fltAck
  extract_lets -underBinder v0 v1
  have hv1 : Chg ps r v1 := by
    unfold v1
    exact (h.noteRsv (within hs (by decide)))
  clear_value v1
  split
  · rename_i y2 y3 y4
    refine Chg.ite ?_ ?_
    · exact (hv1.discard (within hs (by decide)))
    · extract_lets -underBinder v5
      have hv5 : Chg ps r v5 := by
        unfold v5
        exact (hv1.closeRec (within hs (by decide)))
      clear_value v5
      exact (hv5.journal (within hs (by decide)))
  · rename_i y6 y7
    exact (hv1.discard (within hs (by decide)))

theorem Chg.execFltAck {a1 a2 a3} (h : Chg ps r s) (hs : [Part.time, .regs, .rsv, .out, .flt, .hif] ⊆ ps) : ∃ t, execFltAck a1 a2 a3 s = .next t ∧ Chg ps r t := by
  refine ⟨_, rfl, ?_⟩
  exact (Chg.ite ((h.at (within hs (by decide))).fltAck (within hs (by decide))) ((h.at (within hs (by decide))).via (fun _ h0 => (h0.fltAck (within hs (by decide)))) (within hs (by decide))))

theorem Chg.execRecoveryWindowExpiry {a1} (h : Chg ps r s) (hs : [Part.time, .flt] ⊆ ps) : ∃ t, execRecoveryWindowExpiry a1 s = .next t ∧ Chg ps r t := by
  unfold Sys2Proof.Machine.execRecoveryWindowExpiry
  extract_lets v0 v1 v2
  have hv0 : Chg ps r v0 := by
    unfold v0
    exact (h.at (within hs (by decide)))
  clear_value v0
  clear_value v1
  clear_value v2
  refine ⟨_, rfl, ?_⟩
  exact (Chg.ite (Chg.putFlt hv0 (within hs (by decide))) h)

theorem Chg.execCeSummary {a1} (h : Chg ps r s) (hs : [Part.time, .regs, .out, .flt, .hif] ⊆ ps) : ∃ t, execCeSummary a1 s = .next t ∧ Chg ps r t := by
  refine ⟨_, rfl, ?_⟩
  exact (Chg.putFlt (Chg.ite (Chg.foldl (h.at (within hs (by decide))) (fun _ _ h0 => (h0.journal (within hs (by decide))))) ((Chg.foldl (h.at (within hs (by decide))) (fun _ _ h1 => (h1.journal (within hs (by decide))))).journal (within hs (by decide)))) (within hs (by decide)))

theorem Chg.flushQueue {a1} (h : Chg ps r s) (hs : [Part.regs, .flt, .mem] ⊆ ps) : Chg ps r (State.flushQueue s a1) := by
  unfold State.flushQueue
  extract_lets -underBinder v0 v1 v2
  clear_value v0
  have hv2 : Chg ps r v2 := by
    unfold v2
    exact (Chg.putFlt h (within hs (by decide)))
  clear_value v2
  exact (Chg.foldl hv2 (fun _ _ h3 => (h3.durable (within hs (by decide)))))

theorem Chg.logFlush {a1 a2} (h : Chg ps r s) (hs : [Part.regs, .ledgers, .out, .flt, .pow, .hif, .mem, .pan, .cad] ⊆ ps) : Chg ps r (State.logFlush s a1 a2) := by
  unfold State.logFlush
  extract_lets -underBinder v0 v1
  have hv0 : Chg ps r v0 := by
    unfold v0
    exact (h.flushQueue (within hs (by decide)))
  clear_value v0
  exact (Chg.ite ((hv0.setWord (within hs (by decide))).report (within hs (by decide))) hv0)

theorem Chg.execLogFlush {a1 a2} (h : Chg ps r s) (hs : [Part.regs, .ledgers, .out, .flt, .pow, .hif, .mem, .pan, .cad] ⊆ ps) : ∃ t, execLogFlush a1 a2 s = .next t ∧ Chg ps r t := by
  refine ⟨_, rfl, ?_⟩
  exact (h.logFlush (within hs (by decide)))

theorem Chg.execSpareMapRetry {a1} (h : Chg ps r s) (hs : [Part.regs, .flt, .mem] ⊆ ps) : ∃ t, execSpareMapRetry a1 s = .next t ∧ Chg ps r t := by
  refine ⟨_, rfl, ?_⟩
  exact (h.flushQueue (within hs (by decide)))

theorem Chg.discardPair {a1} (h : Chg ps r s) (hs : [Part.regs, .ledgers, .out, .flt, .pow, .hif, .pan, .cad] ⊆ ps) : Chg ps r (State.discardPair s a1) := by
  unfold State.discardPair
  extract_lets -underBinder v0 v1 v2 v3 v4 v5
  have hv2 : Chg ps r v2 := by
    unfold v2
    exact (h.setFld (within hs (by decide)))
  clear_value v2
  have hv3 : Chg ps r v3 := by
    unfold v3
    exact (hv2.journal (within hs (by decide)))
  clear_value v3
  have hv4 : Chg ps r v4 := by
    unfold v4
    exact ((hv3.setFld (within hs (by decide))).setFld (within hs (by decide)))
  clear_value v4
  have hv5 : Chg ps r v5 := by
    unfold v5
    exact (Chg.ite ((hv4.countUp (within hs (by decide))).event (within hs (by decide))) hv4)
  clear_value v5
  exact (Chg.ite h (Chg.ite (hv3.report (within hs (by decide))) (hv5.report (within hs (by decide)))))

end Sys2Proof.Machine
end

