-- ==== Sys2Proof/Laws/Cadence.lean ====
section
/-! SUPPORT. What each operation of Machine/Cadence.lean touches at most, and that it keeps the ledgers and the byte stores in form (Chg). -/

namespace Sys2Proof.Machine

open Sys2Proof

variable {ps : List Part} {r s t : State}



theorem Chg.setRef {a1 a2} (h : Chg ps r s) (hs : [Part.cad] ⊆ ps) : Chg ps r (State.setRef s a1 a2) :=
  (Chg.putCad h (within hs (by decide)))

theorem Chg.setDom {a1 a2} (h : Chg ps r s) (hs : [Part.cad] ⊆ ps) : Chg ps r (State.setDom s a1 a2) :=
  (Chg.putCad h (within hs (by decide)))

theorem Chg.setInst {a1 a2 a3} (h : Chg ps r s) (hs : [Part.cad] ⊆ ps) : Chg ps r (State.setInst s a1 a2 a3) := by
  unfold State.setInst
  extract_lets -underBinder v0
  clear_value v0
  exact (h.setDom (within hs (by decide)))

theorem Chg.driveOuts {a1 a2} (h : Chg ps r s) (hs : [Part.regs] ⊆ ps) : Chg ps r (State.driveOuts s a1 a2) := by
  unfold State.driveOuts
  extract_lets -underBinder v0
  exact (h.setFld (within hs (by decide)))

theorem Chg.driveOut {a1 a2} (h : Chg ps r s) (hs : [Part.regs] ⊆ ps) : Chg ps r (State.driveOut s a1 a2) :=
  (h.driveOuts (within hs (by decide)))

theorem Chg.setPulses {a1} (h : Chg ps r s) (hs : [Part.cad] ⊆ ps) : Chg ps r (State.setPulses s a1) :=
  (Chg.putCad h (within hs (by decide)))

theorem Chg.claimOuts {a1 a2} (h : Chg ps r s) (hs : [Part.regs, .cad] ⊆ ps) : Chg ps r (State.claimOuts s a1 a2) := by
  unfold State.claimOuts
  extract_lets -underBinder v0
  clear_value v0
  exact (Chg.ite (h.setFld (within hs (by decide))) (((h.setPulses (within hs (by decide))).setFld (within hs (by decide))).driveOuts (within hs (by decide))))

theorem Chg.showDom {a1} (h : Chg ps r s) (hs : [Part.regs] ⊆ ps) : Chg ps r (State.showDom s a1) := by
  unfold State.showDom
  extract_lets -underBinder v0 v1 v2 v3 v4 v5 v6
  clear_value v0
  have hv3 : Chg ps r v3 := by
    unfold v3
    exact (h.setFld (within hs (by decide)))
  clear_value v3
  have hv4 : Chg ps r v4 := by
    unfold v4
    exact (hv3.setFld (within hs (by decide)))
  clear_value v4
  have hv5 : Chg ps r v5 := by
    unfold v5
    exact (hv4.setFld (within hs (by decide)))
  clear_value v5
  have hv6 : Chg ps r v6 := by
    unfold v6
    exact (hv5.setFld (within hs (by decide)))
  clear_value v6
  exact (hv6.setWord (within hs (by decide)))

theorem Chg.slip {a1 a2} (h : Chg ps r s) (hs : [Part.regs, .out, .hif, .cad] ⊆ ps) : Chg ps r (State.slip s a1 a2) := by
  unfold State.slip
  extract_lets -underBinder v0 v1 v2 v3 v4 v5
  clear_value v0
  have hv4 : Chg ps r v4 := by
    unfold v4
    exact ((Chg.foldl h (fun _ _ h6 => (h6.event (within hs (by decide))))).event (within hs (by decide)))
  clear_value v4
  have hv5 : Chg ps r v5 := by
    unfold v5
    exact ((hv4.countUp (within hs (by decide))).setFld (within hs (by decide)))
  clear_value v5
  exact (hv5.setDom (within hs (by decide)))

theorem Chg.slipAll {a1} (h : Chg ps r s) (hs : [Part.regs, .out, .hif, .cad] ⊆ ps) : Chg ps r (State.slipAll s a1) :=
  (Chg.foldl h (fun _ _ h0 => ((h0.slip (within hs (by decide))).showDom (within hs (by decide)))))

theorem Chg.counted {a1 a2 a3} (h : Chg ps r s) (hs : [Part.regs, .out, .hif, .cad] ⊆ ps) : Chg ps r (State.counted s a1 a2 a3) := by
  unfold State.counted
  extract_lets -underBinder v0 v1 v2
  clear_value v0
  clear_value v1
  have hv2 : Chg ps r v2 := by
    unfold v2
    exact (Chg.ite ((h.setFld (within hs (by decide))).event (within hs (by decide))) h)
  clear_value v2
  split
  · rename_i y3 y4
    exact hv2
  · rename_i y5 y6 y7
    exact (hv2.setDom (within hs (by decide)))

theorem Chg.countEdge {a1 a2 a3} (h : Chg ps r s) (hs : [Part.regs, .out, .hif, .cad] ⊆ ps) : Chg ps r (State.countEdge s a1 a2 a3) := by
  unfold State.countEdge
  extract_lets -underBinder v0 v1 v2
  clear_value v0
  clear_value v1
  have hv2 : Chg ps r v2 := by
    unfold v2
    exact ((h.setRef (within hs (by decide))).setFld (within hs (by decide)))
  clear_value v2
  exact (Chg.ite h (Chg.foldl hv2 (fun _ _ h3 => (h3.counted (within hs (by decide))))))

theorem Chg.edge {a1 a2 a3 a4} (h : Chg ps r s) (hs : [Part.regs, .out, .hif, .cad] ⊆ ps) : Chg ps r (State.edge s a1 a2 a3 a4) := by
  unfold State.edge
  extract_lets -underBinder v0 v1 v2 v3 v4 v5
  clear_value v1
  have hv2 : Chg ps r v2 := by
    unfold v2
    exact (h.setRef (within hs (by decide)))
  clear_value v2
  exact (Chg.ite hv2 (Chg.ite (Chg.ite ((hv2.countUp (within hs (by decide))).event (within hs (by decide))) (Chg.ite (hv2.countEdge (within hs (by decide))) (Chg.ite (hv2.countEdge (within hs (by decide))) hv2))) (Chg.ite (Chg.ite (hv2.countEdge (within hs (by decide))) hv2) (Chg.ite (Chg.ite (hv2.countEdge (within hs (by decide))) hv2) hv2))))

theorem Chg.execReferenceEdge {a1 a2 a3 a4 a5 a6} (h : Chg ps r s) (hs : [Part.regs, .out, .hif, .cad] ⊆ ps) : ∃ t, execReferenceEdge a1 a2 a3 a4 a5 a6 s = .next t ∧ Chg ps r t := by
  refine ⟨_, rfl, ?_⟩
  exact (Chg.ite (h.edge (within hs (by decide))) h)

theorem Chg.execPtpTimeCount {a1 a2} (h : Chg ps r s) (hs : [Part.regs, .out, .hif, .cad] ⊆ ps) : ∃ t, execPtpTimeCount a1 a2 s = .next t ∧ Chg ps r t := by
  refine ⟨_, rfl, ?_⟩
  exact (Chg.ite (h.countEdge (within hs (by decide))) h)

theorem Chg.refStart {a1} (h : Chg ps r s) (hs : [Part.regs, .cad] ⊆ ps) : Chg ps r (State.refStart s a1) :=
  ((h.setRef (within hs (by decide))).setFld (within hs (by decide)))

theorem Chg.indexFix {a1} (h : Chg ps r s) (hs : [Part.free, .regs, .out, .hif, .cad] ⊆ ps) : Chg ps r (State.indexFix s a1).1 := by
  unfold State.indexFix
  extract_lets -underBinder v0 v1
  clear_value v1
  split
  · rename_i y2 y3
    dsimp only
    exact ((h.setRef (within hs (by decide))).setFld (within hs (by decide)))
  · rename_i y4 y5 y6
    extract_lets -underBinder v7 v8 v9 v10
    clear_value v7
    clear_value v8
    have hv9 : Chg ps r v9 := by
      unfold v9
      exact (h.used (within hs (by decide)))
    clear_value v9
    have hv10 : Chg ps r v10 := by
      unfold v10
      exact ((hv9.setRef (within hs (by decide))).setWord (within hs (by decide)))
    clear_value v10
    split
    · rename_i y11
      dsimp only
      exact (hv9.setRef (within hs (by decide)))
    · rename_i y12
      split
      · rename_i y13
        split
        · rename_i y14
          dsimp only
          exact hv9
        · rename_i y15
          dsimp only
          exact ((hv10.countUp (within hs (by decide))).event (within hs (by decide)))
      · rename_i y16
        dsimp only
        exact (((hv9.countUp (within hs (by decide))).event (within hs (by decide))).slipAll (within hs (by decide)))

theorem Chg.execIndexEdge {a1 a2 a3} (h : Chg ps r s) (hs : [Part.free, .regs, .out, .hif, .cad] ⊆ ps) : ∃ t, execIndexEdge a1 a2 a3 s = .next t ∧ Chg ps r t := by
  refine ⟨_, rfl, ?_⟩
  refine Chg.ite ?_ ?_
  · exact h
  · extract_lets -underBinder v0 v1
    have hv0 : Chg ps r v0.1 := by
      unfold v0
      refine Chg.iteFst ?_ ?_
      · exact (h.indexFix (within hs (by decide)))
      · exact h
    clear_value v0
    clear_value v1
    refine Chg.foldl ?_ (fun a3 x4 h5 => ?_)
    · exact hv0
    · extract_lets -underBinder v6
      clear_value v6
      exact (Chg.ite ((h5.setDom (within hs (by decide))).showDom (within hs (by decide))) (Chg.ite (h5.counted (within hs (by decide))) h5))

theorem Chg.execLossOfSignal {a1 a2} (h : Chg ps r s) (hs : [Part.regs, .out, .hif, .cad] ⊆ ps) : ∃ t, execLossOfSignal a1 a2 s = .next t ∧ Chg ps r t := by
  refine ⟨_, rfl, ?_⟩
  exact (Chg.ite h (Chg.ite (h.setRef (within hs (by decide))) ((((h.setRef (within hs (by decide))).setFld (within hs (by decide))).event (within hs (by decide))).slipAll (within hs (by decide)))))

theorem Chg.execLosCleared {a1 a2} (h : Chg ps r s) (hs : [Part.regs, .out, .hif, .cad] ⊆ ps) : ∃ t, execLosCleared a1 a2 s = .next t ∧ Chg ps r t := by
  refine ⟨_, rfl, ?_⟩
  exact (Chg.ite (((h.setRef (within hs (by decide))).setFld (within hs (by decide))).event (within hs (by decide))) (h.setRef (within hs (by decide))))

theorem Chg.execCadRefCountRead {a1} (h : Chg ps r s) (hs : [Part.regs, .wide, .reply] ⊆ ps) : ∃ t, execCadRefCountRead a1 s = .next t ∧ Chg ps r t := by
  refine ⟨_, rfl, ?_⟩
  refine Chg.via ?_ (fun x1 h2 => ?_) (within hs (by decide))
  · exact h
  · extract_lets -underBinder v3 v4 v5
    clear_value v4
    have hv5 : Chg ps r v5 := by
      unfold v5
      exact ((h2.setWord (within hs (by decide))).setWord (within hs (by decide)))
    clear_value v5
    exact ((hv5.setWide (within hs (by decide))).readWide (within hs (by decide)))

theorem Chg.track {a1} (h : Chg ps r s) (hs : [Part.regs, .out, .hif, .cad] ⊆ ps) : Chg ps r (State.track s a1) := by
  unfold State.track
  extract_lets -underBinder v0 v1
  clear_value v1
  split
  · rename_i y2 y3
    exact h
  · rename_i y4 y5 y6 y7
    split
    · rename_i y8 y9 y10 y11 y12
      extract_lets -underBinder v13 v14 v15 v16 v17 v18 v19 v20 v21 v22
      clear_value v13
      have hv14 : Chg ps r v14 := by
        unfold v14
        exact (h.setDom (within hs (by decide)))
      clear_value v14
      clear_value v15
      have hv20 : Chg ps r v20 := by
        unfold v20
        exact (hv14.setDom (within hs (by decide)))
      clear_value v20
      clear_value v22
      exact (Chg.ite (hv20.slip (within hs (by decide))) (Chg.ite (Chg.ite (((hv20.setDom (within hs (by decide))).setFld (within hs (by decide))).event (within hs (by decide))) (hv20.setDom (within hs (by decide)))) hv20))

theorem Chg.execTrackerUpdate {a1 a2} (h : Chg ps r s) (hs : [Part.time, .regs, .out, .hif, .cad] ⊆ ps) : ∃ t, execTrackerUpdate a1 a2 s = .next t ∧ Chg ps r t := by
  refine ⟨_, rfl, ?_⟩
  exact (Chg.ite (((h.at (within hs (by decide))).track (within hs (by decide))).showDom (within hs (by decide))) h)

theorem Chg.execStandstill {a1 a2} (h : Chg ps r s) (hs : [Part.time, .regs, .out, .hif, .cad] ⊆ ps) : ∃ t, execStandstill a1 a2 s = .next t ∧ Chg ps r t := by
  refine ⟨_, rfl, ?_⟩
  refine Chg.ite ?_ ?_
  · exact h
  · extract_lets -underBinder v0
    clear_value v0
    exact (((((h.at (within hs (by decide))).setDom (within hs (by decide))).setFld (within hs (by decide))).event (within hs (by decide))).showDom (within hs (by decide)))

theorem Chg.resultOuts {a1 a2} (h : Chg ps r s) (hs : [Part.regs] ⊆ ps) : Chg ps r (State.resultOuts s a1 a2) :=
  (h.driveOuts (within hs (by decide)))

theorem Chg.driveResult {a1 a2 a3} (h : Chg ps r s) (hs : [Part.regs, .cad] ⊆ ps) : Chg ps r (State.driveResult s a1 a2 a3) := by
  unfold State.driveResult
  extract_lets -underBinder v0 v1 v2 v3 v4
  clear_value v0
  clear_value v2
  have hv3 : Chg ps r v3 := by
    unfold v3
    exact (h.setInst (within hs (by decide)))
  clear_value v3
  clear_value v4
  exact (Chg.ite (h.setInst (within hs (by decide))) (Chg.ite ((h.setInst (within hs (by decide))).countUp (within hs (by decide))) (((hv3.setDom (within hs (by decide))).countUp (within hs (by decide))).resultOuts (within hs (by decide)))))

theorem Chg.missAction {a1} (h : Chg ps r s) (hs : [Part.regs] ⊆ ps) : Chg ps r (State.missAction s a1) :=
  (Chg.ite (h.resultOuts (within hs (by decide))) h)

theorem Chg.settleMisses {a1 a2} (h : Chg ps r s) (hs : [Part.regs, .out, .hif, .cad] ⊆ ps) : Chg ps r (State.settleMisses s a1 a2) := by
  unfold State.settleMisses
  refine Chg.foldl ?_ (fun a2 x3 h4 => ?_)
  · exact h
  · split
    · rename_i y5 y6 y7
      exact (Chg.ite ((((h4.setInst (within hs (by decide))).missAction (within hs (by decide))).countUp (within hs (by decide))).event (within hs (by decide))) h4)
    · rename_i y8 y9
      exact h4

theorem Chg.available {a1 a2 a3 a4} (h : Chg ps r s) (hs : [Part.regs, .out, .hif, .cad] ⊆ ps) : Chg ps r (State.available s a1 a2 a3 a4).1 := by
  unfold State.available
  extract_lets -underBinder v0 v1 v2 v3 v4 v5 v6
  clear_value v0
  have hv1 : Chg ps r v1 := by
    unfold v1
    exact (h.settleMisses (within hs (by decide)))
  clear_value v1
  clear_value v2
  clear_value v3
  clear_value v4
  have hv5 : Chg ps r v5 := by
    unfold v5
    exact (hv1.setInst (within hs (by decide)))
  clear_value v5
  have hv6 : Chg ps r v6 := by
    unfold v6
    exact ((hv5.countUp (within hs (by decide))).event (within hs (by decide)))
  clear_value v6
  refine Chg.iteFst ?_ ?_
  · exact hv5
  · refine Chg.iteFst ?_ ?_
    · exact (Chg.ite hv5 (hv5.setInst (within hs (by decide))))
    · refine Chg.iteFst ?_ ?_
      · exact (Chg.ite (hv6.driveResult (within hs (by decide))) hv6)
      · refine Chg.iteFst ?_ ?_
        · exact ((hv5.setInst (within hs (by decide))).driveResult (within hs (by decide)))
        · exact (hv5.setInst (within hs (by decide)))

theorem Chg.deadline {a1 a2} (h : Chg ps r s) (hs : [Part.regs, .cad] ⊆ ps) : Chg ps r (State.deadline s a1 a2) := by
  unfold State.deadline
  extract_lets -underBinder v0 v1 v2
  clear_value v0
  clear_value v1
  clear_value v2
  refine Chg.ite ?_ ?_
  · exact (h.setInst (within hs (by decide)))
  · refine Chg.ite ?_ ?_
    · exact (((h.setInst (within hs (by decide))).missAction (within hs (by decide))).countUp (within hs (by decide)))
    · split
      · rename_i y3 y4 y5
        exact ((h.setInst (within hs (by decide))).driveResult (within hs (by decide)))
      · rename_i y6 y7
        exact (h.setInst (within hs (by decide)))

theorem Chg.setDip {a1} (h : Chg ps r s) (hs : [Part.cad] ⊆ ps) : Chg ps r (State.setDip s a1) :=
  (Chg.putCad h (within hs (by decide)))

theorem Chg.dipPut {a1} (h : Chg ps r s) (hs : [Part.ledgers, .out, .cad] ⊆ ps) : Chg ps r (State.dipPut s a1) := by
  unfold State.dipPut
  extract_lets -underBinder v0 v1
  clear_value v0
  have hv1 : Chg ps r v1 := by
    unfold v1
    exact ((h.move (within hs (by decide))).move (within hs (by decide)))
  clear_value v1
  exact ((hv1.setDip (within hs (by decide))).emit (within hs (by decide)))

theorem Chg.dipPump {a1} (h : Chg ps r s) (hs : [Part.ledgers, .out, .cad] ⊆ ps) : Chg ps r (State.dipPump s a1) := by
  induction a1 generalizing s with
  | zero =>
    exact h
  | succ n ih =>
    unfold State.dipPump
    split
    · rename_i y0 y1
      exact h
    · rename_i y2 y3 y4 y5
      exact (Chg.ite h (ih (h.dipPut (within hs (by decide)))))

theorem Chg.dipSend {a1} (h : Chg ps r s) (hs : [Part.ledgers, .out, .cad] ⊆ ps) : Chg ps r (State.dipSend s a1) := by
  unfold State.dipSend
  refine Chg.ite ?_ ?_
  · exact h
  · extract_lets -underBinder v0 v1
    clear_value v0
    clear_value v1
    exact ((h.setDip (within hs (by decide))).dipPump (within hs (by decide)))

theorem Chg.heartbeat (h : Chg ps r s) (hs : [Part.regs, .ledgers, .out, .cad] ⊆ ps) : Chg ps r (State.heartbeat s) := by
  unfold State.heartbeat
  extract_lets -underBinder v0 v1 v2 v3
  clear_value v2
  clear_value v3
  exact ((h.setFld (within hs (by decide))).dipSend (within hs (by decide)))

theorem Chg.setRole {a1} (h : Chg ps r s) (hs : [Part.regs, .ledgers, .out, .hif, .cad] ⊆ ps) : Chg ps r (State.setRole s a1) := by
  unfold State.setRole
  refine Chg.ite ?_ ?_
  · exact h
  · extract_lets -underBinder v0
    have hv0 : Chg ps r v0 := by
      unfold v0
      exact (((h.setFld (within hs (by decide))).event (within hs (by decide))).roleOut (within hs (by decide)))
    clear_value v0
    exact (Chg.ite ((hv0.countUp (within hs (by decide))).heartbeat (within hs (by decide))) hv0)

theorem Chg.roleFault {a1} (h : Chg ps r s) (hs : [Part.regs, .ledgers, .out, .hif, .cad] ⊆ ps) : Chg ps r (State.roleFault s a1) :=
  (Chg.ite (Chg.ite ((h.setRole (within hs (by decide))).heartbeat (within hs (by decide))) (Chg.ite (h.setRole (within hs (by decide))) h)) h)

theorem Chg.domFault {a1} (h : Chg ps r s) (hs : [Part.regs, .ledgers, .out, .hif, .cad] ⊆ ps) : Chg ps r (State.domFault s a1) := by
  unfold State.domFault
  refine Chg.ite ?_ ?_
  · exact h
  · extract_lets -underBinder v0 v1 v2
    have hv1 : Chg ps r v1 := by
      unfold v1
      exact ((h.reclaim (within hs (by decide))).reclaim (within hs (by decide)))
    clear_value v1
    clear_value v2
    exact (((hv1.setDom (within hs (by decide))).setSt (within hs (by decide))).roleFault (within hs (by decide)))

theorem Chg.handAt {a1 a2} (h : Chg ps r s) (hs : [Part.regs, .ledgers, .out, .hif, .cad] ⊆ ps) : Chg ps r (State.handAt s a1 a2) := by
  unfold State.handAt
  refine Chg.ite ?_ ?_
  · extract_lets -underBinder v0 v1 v2
    have hv2 : Chg ps r v2 := by
      unfold v2
      exact (Chg.putCad h (within hs (by decide)))
    clear_value v2
    exact (Chg.ite (Chg.ite (hv2.setRole (within hs (by decide))) (hv2.event (within hs (by decide)))) (Chg.ite (hv2.setRole (within hs (by decide))) hv2))
  · exact h

theorem Chg.submit {a1 a2 a3} (h : Chg ps r s) (hs : [Part.regs, .ledgers, .out, .hif, .cad] ⊆ ps) : Chg ps r (State.submit s a1 a2 a3) := by
  unfold State.submit
  extract_lets -underBinder v0 v1
  clear_value v0
  exact (Chg.ite ((h.countUp (within hs (by decide))).event (within hs (by decide))) ((h.setDom (within hs (by decide))).move (within hs (by decide))))

theorem Chg.emptyRing {a1} (h : Chg ps r s) (hs : [Part.regs, .ledgers, .cad] ⊆ ps) : Chg ps r (State.emptyRing s a1) := by
  unfold State.emptyRing
  extract_lets -underBinder v0 v1
  have hv0 : Chg ps r v0 := by
    unfold v0
    exact (h.ringDrop (within hs (by decide)))
  clear_value v0
  clear_value v1
  exact (hv0.setDom (within hs (by decide)))

theorem Chg.trigFired {a1 a2 a3} (h : Chg ps r s) (hs : [Part.ing] ⊆ ps) : Chg ps r (State.trigFired s a1 a2 a3) :=
  (Chg.putIng h (within hs (by decide)))

theorem Chg.fireEntry {a1 a2 a3 a4} (h : Chg ps r s) (hs : [Part.regs, .ledgers, .out, .ops, .hif, .cad, .ing] ⊆ ps) : Chg ps r (State.fireEntry s a1 a2 a3 a4) := by
  unfold State.fireEntry
  extract_lets -underBinder v0 v1 v2 v3 v4 v5 v6
  clear_value v0
  clear_value v1
  clear_value v2
  clear_value v3
  have hv4 : Chg ps r v4 := by
    unfold v4
    exact (Chg.ite (h.relAdd (within hs (by decide))) h)
  clear_value v4
  clear_value v5
  have hv6 : Chg ps r v6 := by
    unfold v6
    exact (hv4.setDom (within hs (by decide)))
  clear_value v6
  exact (Chg.ite (Chg.ite h (((h.driveOut (within hs (by decide))).setPulses (within hs (by decide))).trigFired (within hs (by decide)))) (Chg.ite (Chg.ite (Chg.ite (h.setInst (within hs (by decide))) h) (Chg.ite h (h.submit (within hs (by decide))))) (Chg.ite ((Chg.ite (h.deadline (within hs (by decide))) (h.setInst (within hs (by decide)))).handAt (within hs (by decide))) (Chg.ite (Chg.ite (h.setInst (within hs (by decide))) h) (Chg.ite (Chg.ite (hv4.setFld (within hs (by decide))) (Chg.ite (hv6.event (within hs (by decide))) hv6)) h)))))

theorem Chg.fireUpTo {a1 a2} (h : Chg ps r s) (hs : [Part.regs, .ledgers, .out, .ops, .hif, .cad, .ing] ⊆ ps) : Chg ps r (State.fireUpTo s a1 a2) := by
  induction a2 generalizing s with
  | zero => exact h
  | succ n ih =>
    unfold State.fireUpTo
    split
    · exact h
    · exact Chg.ite h (ih ((h.setDom (within hs (by decide))).fireEntry (within hs (by decide))))

theorem Chg.raiseH {a1} (h : Chg ps r s) (hs : [Part.regs, .out, .hif, .cad] ⊆ ps) : Chg ps r (State.raiseH s a1) := by
  unfold State.raiseH
  extract_lets -underBinder v0 v1 v2 v3 v4 v5
  clear_value v0
  clear_value v1
  have hv2 : Chg ps r v2 := by
    unfold v2
    exact (Chg.ite (h.setDom (within hs (by decide))) h)
  clear_value v2
  clear_value v4
  have hv5 : Chg ps r v5 := by
    unfold v5
    exact (hv2.setDom (within hs (by decide)))
  clear_value v5
  exact (Chg.ite (hv5.slip (within hs (by decide))) hv5)

theorem Chg.execPositionEvaluation {a1 a2} (h : Chg ps r s) (hs : [Part.time, .regs, .ledgers, .out, .ops, .hif, .cad, .ing] ⊆ ps) : ∃ t, execPositionEvaluation a1 a2 s = .next t ∧ Chg ps r t := by
  refine ⟨_, rfl, ?_⟩
  exact (Chg.ite h (((((h.at (within hs (by decide))).settleMisses (within hs (by decide))).raiseH (within hs (by decide))).fireUpTo (within hs (by decide))).showDom (within hs (by decide))))

theorem Chg.execTriggerPulseEnd {a1 a2} (h : Chg ps r s) (hs : [Part.time, .regs, .cad] ⊆ ps) : ∃ t, execTriggerPulseEnd a1 a2 s = .next t ∧ Chg ps r t := by
  refine ⟨_, rfl, ?_⟩
  split
  · rename_i y0 y1 y2
    exact (Chg.ite (((h.at (within hs (by decide))).setPulses (within hs (by decide))).driveOut (within hs (by decide))) h)
  · rename_i y3 y4
    exact h

theorem Chg.eptEnd {a1 a2 a3} (h : Chg ps r s) (hs : [Part.regs, .out, .hif] ⊆ ps) : Chg ps r (State.eptEnd s a1 a2 a3) := by
  unfold State.eptEnd
  extract_lets -underBinder v0 v1
  clear_value v0
  have hv1 : Chg ps r v1 := by
    unfold v1
    exact (Chg.ite (h.setFld (within hs (by decide))) (((h.setFld (within hs (by decide))).setFld (within hs (by decide))).setFld (within hs (by decide))))
  clear_value v1
  exact (hv1.event (within hs (by decide)))

theorem Chg.showTrk (h : Chg ps r s) (hs : [Part.regs] ⊆ ps) : Chg ps r (State.showTrk s) := by
  unfold State.showTrk
  extract_lets -underBinder v0 v1
  exact ((h.setFld (within hs (by decide))).setFld (within hs (by decide)))

theorem Chg.eptCommit {a1 a2} (h : Chg ps r s) (hs : [Part.regs, .rsv, .out, .hif, .cad] ⊆ ps) : Chg ps r (State.eptCommit s a1 a2) := by
  unfold State.eptCommit
  extract_lets -underBinder v0 v1 v2
  clear_value v0
  have hv1 : Chg ps r v1 := by
    unfold v1
    exact (h.noteRsv (within hs (by decide)))
  clear_value v1
  clear_value v2
  refine Chg.ite ?_ ?_
  · exact hv1
  · refine Chg.ite ?_ ?_
    · exact (hv1.eptEnd (within hs (by decide)))
    · refine Chg.ite ?_ ?_
      · exact (hv1.eptEnd (within hs (by decide)))
      · split
        · rename_i y3 y4 y5 y6
          exact (hv1.eptEnd (within hs (by decide)))
        · rename_i y7 y8
          refine Chg.ite ?_ ?_
          · extract_lets -underBinder v9
            clear_value v9
            exact ((((hv1.setDom (within hs (by decide))).setFld (within hs (by decide))).eptEnd (within hs (by decide))).showTrk (within hs (by decide)))
          · exact ((hv1.setDom (within hs (by decide))).eptEnd (within hs (by decide)))

theorem Chg.execEptCommit {a1 a2} (h : Chg ps r s) (hs : [Part.regs, .rsv, .out, .hif, .cad] ⊆ ps) : ∃ t, execEptCommit a1 a2 s = .next t ∧ Chg ps r t := by
  refine ⟨_, rfl, ?_⟩
  exact (h.via (fun _ h0 => (h0.eptCommit (within hs (by decide)))) (within hs (by decide)))

theorem Chg.execEptBankSwitch {a1} (h : Chg ps r s) (hs : [Part.regs, .cad] ⊆ ps) : ∃ t, execEptBankSwitch a1 s = .next t ∧ Chg ps r t := by
  refine ⟨_, rfl, ?_⟩
  exact (Chg.ite h ((h.setDom (within hs (by decide))).setFld (within hs (by decide))))

theorem Chg.eptData {a1 a2 a3} (h : Chg ps r s) (hs : [Part.cad] ⊆ ps) : Chg ps r (State.eptData s a1 a2 a3) := by
  unfold State.eptData
  extract_lets -underBinder v0 v1 v2 v3 v4
  clear_value v0
  clear_value v2
  clear_value v4
  exact (h.setDom (within hs (by decide)))

theorem Chg.execMarkQueueRead {a1} (h : Chg ps r s) (hs : [Part.regs, .wide, .reply, .cad] ⊆ ps) : ∃ t, execMarkQueueRead a1 s = .next t ∧ Chg ps r t := by
  refine ⟨_, rfl, ?_⟩
  refine Chg.via ?_ (fun x1 h2 => ?_) (within hs (by decide))
  · exact h
  · extract_lets -underBinder v3
    clear_value v3
    split
    · rename_i y4 y5
      exact (((h2.setWord (within hs (by decide))).setWide (within hs (by decide))).readWide (within hs (by decide)))
    · rename_i y6 y7 y8 y9 y10 y11
      exact ((((h2.setDom (within hs (by decide))).setWord (within hs (by decide))).setWide (within hs (by decide))).readWide (within hs (by decide)))

theorem Chg.execCadDomPositionRead {a1 a2 a3} (h : Chg ps r s) (hs : [Part.time, .regs, .wide, .reply] ⊆ ps) : ∃ t, execCadDomPositionRead a1 a2 a3 s = .next t ∧ Chg ps r t := by
  refine ⟨_, rfl, ?_⟩
  refine Chg.via ?_ (fun x1 h2 => ?_) (within hs (by decide))
  · exact h
  · extract_lets -underBinder v3 v4
    have hv3 : Chg ps r v3 := by
      unfold v3
      exact (h2.at (within hs (by decide)))
    clear_value v3
    clear_value v4
    split
    · rename_i y5 y6 y7 y8
      exact ((hv3.setWide (within hs (by decide))).readWide (within hs (by decide)))

theorem Chg.domStart {a1} (h : Chg ps r s) (hs : [Part.regs, .cad, .ing] ⊆ ps) : Chg ps r (State.domStart s a1) := by
  unfold State.domStart
  extract_lets -underBinder v0 v1 v2 v3 v4 v5 v6 v7 v8
  clear_value v0
  clear_value v1
  clear_value v2
  clear_value v3
  clear_value v4
  have hv5 : Chg ps r v5 := by
    unfold v5
    exact (((h.setDom (within hs (by decide))).setFld (within hs (by decide))).setFld (within hs (by decide)))
  clear_value v5
  have hv6 : Chg ps r v6 := by
    unfold v6
    exact ((hv5.setFld (within hs (by decide))).setFld (within hs (by decide)))
  clear_value v6
  clear_value v7
  have hv8 : Chg ps r v8 := by
    unfold v8
    exact (Chg.putIng hv6 (within hs (by decide)))
  clear_value v8
  exact ((hv8.setFld (within hs (by decide))).showDom (within hs (by decide)))

theorem Chg.domLeave {a1} (h : Chg ps r s) (hs : [Part.regs, .ledgers, .out, .hif, .cad] ⊆ ps) : Chg ps r (State.domLeave s a1) :=
  (((h.settleMisses (within hs (by decide))).emptyRing (within hs (by decide))).showTrk (within hs (by decide)))

end Sys2Proof.Machine
end

