-- ==== Sys2Proof/Laws/Canvas.lean ====
section
/-! SUPPORT. What each operation of Machine/Canvas.lean touches at most, and that it keeps the ledgers and the byte stores in form (Chg). -/

namespace Sys2Proof.Machine

open Sys2Proof

variable {ps : List Part} {r s t : State}



theorem Chg.flitOn {a1 a2 a3 a4 a5 k} (h : Chg ps r s) (hs : [Part.pan] ⊆ ps) (e : State.flitOn s a1 a2 a3 a4 a5 = some (t, k)) : Chg ps r t := by
  unfold State.flitOn at e
  extract_lets nx at e
  split at e
  · obtain ⟨rfl, _⟩ := Prod.mk.inj (Option.some.inj e)
    exact h.setCanvas (within hs (by decide))
  · split at e
    · exact nomatch e
    · obtain ⟨rfl, _⟩ := Prod.mk.inj (Option.some.inj e)
      exact h.setCanvas (within hs (by decide))

theorem Chg.execStepStart {a1} (h : Chg ps r s) (hs : [Part.regs, .ledgers, .ops, .mem, .pan] ⊆ ps) : ∃ t, execStepStart a1 s = .next t ∧ Chg ps r t := by
  refine ⟨_, rfl, ?_⟩
  refine Chg.ite ?_ ?_
  · exact (h.sweepPanel (within hs (by decide)))
  · split
    · rename_i y0 y1
      exact h
    · rename_i y2 y3 y4
      split
      · rename_i y5 y6
        exact h
      · rename_i y7 y8 y9
        extract_lets -underBinder v10
        clear_value v10
        exact (Chg.ite (h.endAt (within hs (by decide))) (Chg.ite (h.startStep (within hs (by decide))) h))

theorem Chg.execStepEnd {a1} (h : Chg ps r s) (hs : [Part.free, .regs, .wide, .ledgers, .out, .ops, .hif, .mem, .pan] ⊆ ps) : ∃ t, execStepEnd a1 s = .next t ∧ Chg ps r t := by
  refine ⟨_, rfl, ?_⟩
  split
  · rename_i y0 y1
    exact h
  · rename_i y2 y3 y4
    split
    · rename_i y5 y6
      exact h
    · rename_i y7 y8 y9
      exact (h.stepEnd (within hs (by decide)))

theorem Chg.landUnits {a1 a2 a3 a4} (h : Chg ps r s) (hs : [Part.mem] ⊆ ps) : Chg ps r (State.landUnits s a1 a2 a3 a4).1 := by
  unfold State.landUnits
  refine Chg.foldlFst ?_ (fun a0 x1 h2 => ?_)
  · exact h
  · split
    · rename_i y3 y4 y5
      exact h2
    · rename_i y6 y7
      extract_lets -underBinder v8
      clear_value v8
      split
      · rename_i y9 y10 y11 y12
        exact h2
      · rename_i y13 y14 y15 y16
        extract_lets -underBinder v17
        have hv17 : Chg ps r v17 := by
          unfold v17
          exact (h2.palWrite (within hs (by decide)))
        clear_value v17
        exact (Chg.ite (hv17.palPoison (within hs (by decide))) hv17)

theorem Chg.landed {a1 a2 a3 a4} (h : Chg ps r s) (hs : [Part.regs, .ledgers, .pan] ⊆ ps) : Chg ps r (State.landed s a1 a2 a3 a4) := by
  unfold State.landed
  extract_lets -underBinder v0 v1
  clear_value v0
  have hv1 : Chg ps r v1 := by
    unfold v1
    exact ((h.landCredit (within hs (by decide))).setPort (within hs (by decide)))
  clear_value v1
  exact ((Chg.ite (hv1.ungrant (within hs (by decide))) (hv1.grant (within hs (by decide)))).showPort (within hs (by decide)))

theorem Chg.landSlot {a1 a2 a3 a4} (h : Chg ps r s) (hs : [Part.regs, .ledgers, .out, .flt, .pow, .ops, .hif, .mem, .pan, .cad] ⊆ ps) : Chg ps r (State.landSlot s a1 a2 a3 a4) := by
  unfold State.landSlot
  extract_lets -underBinder v0 v1 v2
  clear_value v0
  clear_value v1
  have hv2 : Chg ps r v2.1 := by
    unfold v2
    exact (h.landUnits (within hs (by decide)))
  clear_value v2
  refine Chg.ite ?_ ?_
  · exact h
  · split
    · rename_i y3 y4 y5 y6
      exact ((((hv2.landCredit (within hs (by decide))).mmuFault (within hs (by decide))).opMark (within hs (by decide))).endOnPanels (within hs (by decide)))
    · rename_i y7 y8
      exact (hv2.landed (within hs (by decide)))

theorem Chg.sendAt {a1 a2 a3 a4 a5} (h : Chg ps r s) (hs : [Part.mem, .pan] ⊆ ps) : Chg ps r (State.sendAt s a1 a2 a3 a4 a5).1 := by
  rw [State.sendAt]
  generalize State.writeFault _ _ _ _ = o
  cases o with
  | some q => exact h
  | none =>
    dsimp only
    split
    · exact h
    · exact Chg.foldl (h.writeDva (within hs (by decide))) (fun _ _ k => Chg.ite (k.poisonDva (within hs (by decide))) k)

theorem Chg.sentUnits {a1 a2 a3 a4} (h : Chg ps r s) (hs : [Part.regs, .ledgers, .out, .ops, .hif, .pan] ⊆ ps) : Chg ps r (State.sentUnits s a1 a2 a3 a4) := by
  unfold State.sentUnits
  extract_lets -underBinder v0 v1 v2
  clear_value v0
  have hv1 : Chg ps r v1 := by
    unfold v1
    exact (Chg.ite (h.dropPort (within hs (by decide))) (h.setPort (within hs (by decide))))
  clear_value v1
  have hv2 : Chg ps r v2 := by
    unfold v2
    exact (hv1.showPort (within hs (by decide)))
  clear_value v2
  exact (Chg.ite ((hv2.drained (within hs (by decide))).fillPorts (within hs (by decide))) hv2)

theorem Chg.sendSlot {a1 a2 a3 a4} (h : Chg ps r s) (hs : [Part.regs, .ledgers, .out, .flt, .pow, .ops, .hif, .mem, .pan, .cad] ⊆ ps) : Chg ps r (State.sendSlot s a1 a2 a3 a4) := by
  unfold State.sendSlot
  extract_lets -underBinder v0 v1 v2
  clear_value v0
  clear_value v1
  have hv2 : Chg ps r v2.1 := by
    unfold v2
    refine Chg.foldlFst ?_ (fun a3 x4 h5 => ?_)
    · exact h
    · split
      · rename_i y6 y7 y8
        exact h5
      · rename_i y9 y10
        exact (h5.sendAt (within hs (by decide)))
  clear_value v2
  split
  · rename_i y11 y12 y13 y14
    exact (((((hv2.dropPort (within hs (by decide))).showPort (within hs (by decide))).mmuFault (within hs (by decide))).opMark (within hs (by decide))).endOnPanels (within hs (by decide)))
  · rename_i y15 y16
    exact (hv2.sentUnits (within hs (by decide)))

theorem Chg.passSlot {a1 a2 a3} (h : Chg ps r s) (hs : [Part.regs, .ledgers, .out, .ops, .hif, .mem, .pan] ⊆ ps) : Chg ps r (State.passSlot s a1 a2 a3) := by
  unfold State.passSlot
  split
  · rename_i y0 y1
    exact h
  · rename_i y2 y3 y4 y5
    extract_lets -underBinder v6 v7
    clear_value v6
    have hv7 : Chg ps r v7.1 := by
      unfold v7
      exact (h.landUnits (within hs (by decide)))
    clear_value v7
    exact ((hv7.landed (within hs (by decide))).sentUnits (within hs (by decide)))

theorem Chg.execStreamSlotLand {a1 a2 a3} (h : Chg ps r s) (hs : [Part.regs, .ledgers, .out, .flt, .pow, .ops, .hif, .mem, .pan, .cad] ⊆ ps) : ∃ t, execStreamSlotLand a1 a2 a3 s = .next t ∧ Chg ps r t := by
  refine ⟨_, rfl, ?_⟩
  split
  · rename_i y0
    split
    · rename_i y1 y2 y3
      refine Chg.ite ?_ ?_
      · exact h
      · refine Chg.ite ?_ ?_
        · exact (h.passSlot (within hs (by decide)))
        · split
          · rename_i y4 y5 y6
            exact (h.landSlot (within hs (by decide)))
          · rename_i y7 y8
            exact h
    · rename_i y9 y10
      exact h
  · rename_i y11
    split
    · rename_i y12 y13 y14 y15
      refine Chg.ite ?_ ?_
      · exact h
      · split
        · rename_i y16 y17 y18
          exact (h.sendSlot (within hs (by decide)))
        · rename_i y19 y20
          exact h
    · rename_i y21 y22
      exact h
  · rename_i y23
    extract_lets -underBinder v24 v25
    clear_value v24
    clear_value v25
    exact (Chg.ite h ((h.reclaim (within hs (by decide))).setPanel (within hs (by decide))))

theorem Chg.execMeshFlitArrival {a1 a2} (h : Chg ps r s) (hs : [Part.ledgers, .reply, .pan] ⊆ ps) : ∃ t, execMeshFlitArrival a1 a2 s = .next t ∧ Chg ps r t := by
  refine ⟨_, rfl, ?_⟩
  split
  · rename_i y0 y1 y2 y3
    split
    · rename_i y4 y5 y6 y7
      split
      · rename_i y8 y9
        exact (h.answer (within hs (by decide)))
      · rename_i y10 y11 y12 y13
        have hp14 : Chg ps r y11 := Chg.flitOn h (within hs (by decide)) y13
        exact ((Chg.ite hp14 (hp14.move (within hs (by decide)))).answer (within hs (by decide)))
  · rename_i y15 y16 y17 y18
    extract_lets -underBinder v19
    clear_value v19
    refine Chg.ite ?_ ?_
    · exact h
    · split
      · rename_i y20 y21 y22 y23
        exact (((h.setCanvas (within hs (by decide))).move (within hs (by decide))).answer (within hs (by decide)))
  · rename_i y24 y25 y26 y27
    extract_lets -underBinder v28
    clear_value v28
    split
    · rename_i y29 y30
      exact h
    · rename_i y31 y32 y33 y34
      split
      · rename_i y35 y36
        exact (h.answer (within hs (by decide)))
      · rename_i y37 y38 y39 y40
        have hp41 : Chg ps r y38 := Chg.flitOn h (within hs (by decide)) y40
        exact ((Chg.ite (hp41.move (within hs (by decide))) hp41).answer (within hs (by decide)))
  · rename_i y42 y43 y44
    extract_lets -underBinder v45 v46
    clear_value v45
    clear_value v46
    split
    · rename_i y47 y48
      exact h
    · rename_i y49 y50 y51 y52
      split
      · rename_i y53 y54
        exact (h.answer (within hs (by decide)))
      · rename_i y55 y56 y57 y58
        have hp59 : Chg ps r y56 := Chg.flitOn h (within hs (by decide)) y58
        extract_lets -underBinder v60
        have hv60 : Chg ps r v60 := by
          unfold v60
          exact (hp59.move (within hs (by decide)))
        clear_value v60
        exact ((Chg.ite hv60 (hv60.move (within hs (by decide)))).answer (within hs (by decide)))

theorem Chg.flitUe {a1 a2 a3} (h : Chg ps r s) (hs : [Part.pan] ⊆ ps) : Chg ps r (State.flitUe s a1 a2 a3) := by
  unfold State.flitUe
  extract_lets -underBinder v0 v1 v2
  clear_value v0
  clear_value v1
  split
  · rename_i y3 y4
    exact h
  · rename_i y5 y6 y7
    split
    · rename_i y8 y9
      exact h
    · rename_i y10 y11 y12 y13
      extract_lets -underBinder v14
      clear_value v14
      exact (h.setCanvas (within hs (by decide)))

theorem Chg.execGrantWithdrawTimeout {a1} (h : Chg ps r s) (hs : [Part.regs, .ledgers, .pan] ⊆ ps) : ∃ t, execGrantWithdrawTimeout a1 s = .next t ∧ Chg ps r t := by
  refine ⟨_, rfl, ?_⟩
  exact ((h.reclaim (within hs (by decide))).setPanel (within hs (by decide)))

theorem Chg.execCoreSubstitution {a1 a2} (h : Chg ps r s) (hs : [Part.regs, .ledgers, .out, .flt, .pow, .hif, .pan, .cad] ⊆ ps) : ∃ t, execCoreSubstitution a1 a2 s = .next t ∧ Chg ps r t := by
  refine ⟨_, rfl, ?_⟩
  exact (Chg.ite h (h.substCore (within hs (by decide))))

theorem Chg.pnlRetire {a1 a2} (h : Chg ps r s) (hs : [Part.regs, .out, .hif, .pan] ⊆ ps) : Chg ps r (State.pnlRetire s a1 a2) := by
  unfold State.pnlRetire
  extract_lets -underBinder v0 v1
  clear_value v0
  clear_value v1
  exact (Chg.ite (h.retireCore (within hs (by decide))) (h.discard (within hs (by decide))))

theorem Chg.execPnlRetire {a1 a2} (h : Chg ps r s) (hs : [Part.regs, .rsv, .out, .hif, .pan] ⊆ ps) : ∃ t, execPnlRetire a1 a2 s = .next t ∧ Chg ps r t := by
  refine ⟨_, rfl, ?_⟩
  exact (h.via (fun _ h0 => ((h0.noteRsv (within hs (by decide))).pnlRetire (within hs (by decide)))) (within hs (by decide)))

theorem Chg.readmitCheck {a1} (h : Chg ps r s) (hs : [Part.regs, .out, .hif] ⊆ ps) : Chg ps r (State.readmitCheck s a1) :=
  (Chg.ite (((h.setFld (within hs (by decide))).setFld (within hs (by decide))).setSt (within hs (by decide))) h)

theorem Chg.execPanelSubstitution {a1 a2 a3} (h : Chg ps r s) (hs : [Part.regs, .out, .flt, .ops, .hif, .mem, .pan] ⊆ ps) : ∃ t, execPanelSubstitution a1 a2 a3 s = .next t ∧ Chg ps r t := by
  refine ⟨_, rfl, ?_⟩
  refine Chg.ite ?_ ?_
  · exact h
  · extract_lets -underBinder v0 v1
    have hv0 : Chg ps r v0 := by
      unfold v0
      exact ((h.setPanel (within hs (by decide))).sweepPanel (within hs (by decide)))
    clear_value v0
    have hv1 : Chg ps r v1 := by
      unfold v1
      exact (Chg.foldl (hv0.substPanel (within hs (by decide))) (fun _ _ h2 => (h2.markStale (within hs (by decide)))))
    clear_value v1
    exact (hv1.readmitCheck (within hs (by decide)))

theorem Chg.cnvRetire {a1 a2} (h : Chg ps r s) (hs : [Part.regs, .out, .hif, .pan] ⊆ ps) : Chg ps r (State.cnvRetire s a1 a2) := by
  unfold State.cnvRetire
  extract_lets -underBinder v0 v1
  clear_value v1
  exact (Chg.ite (h.setCanvas (within hs (by decide))) (h.discard (within hs (by decide))))

theorem Chg.execCnvRetire {a1 a2} (h : Chg ps r s) (hs : [Part.regs, .rsv, .out, .hif, .pan] ⊆ ps) : ∃ t, execCnvRetire a1 a2 s = .next t ∧ Chg ps r t := by
  refine ⟨_, rfl, ?_⟩
  exact (h.via (fun _ h0 => ((h0.noteRsv (within hs (by decide))).cnvRetire (within hs (by decide)))) (within hs (by decide)))

theorem Chg.execPnlCyclesRead {a1} (h : Chg ps r s) (hs : [Part.regs, .reply] ⊆ ps) : ∃ t, execPnlCyclesRead a1 s = .next t ∧ Chg ps r t := by
  refine ⟨_, rfl, ?_⟩
  exact (h.via (fun _ h0 => (h0.readWide (within hs (by decide)))) (within hs (by decide)))

theorem Chg.execQuantumExpiry {a1} (h : Chg ps r s) (hs : [Part.pan] ⊆ ps) : ∃ t, execQuantumExpiry a1 s = .next t ∧ Chg ps r t := by
  refine ⟨_, rfl, ?_⟩
  exact (Chg.ite (h.setPanel (within hs (by decide))) h)

theorem Chg.restoreFail {a1 a2} (h : Chg ps r s) (hs : [Part.regs, .ledgers, .out, .flt, .pow, .ops, .hif, .mem, .pan, .cad] ⊆ ps) : Chg ps r (State.restoreFail s a1 a2) := by
  unfold State.restoreFail
  extract_lets -underBinder v0 v1
  have hv0 : Chg ps r v0 := by
    unfold v0
    exact (((h.palZero (within hs (by decide))).storesZero (within hs (by decide))).setSaved (fun _ => ⟨rfl, rfl⟩) (within hs (by decide)))
  clear_value v0
  have hv1 : Chg ps r v1 := by
    unfold v1
    exact (Chg.foldl hv0 (fun _ _ h2 => (Chg.ite ((h2.opMark (within hs (by decide))).endOnPanels (within hs (by decide))) h2)))
  clear_value v1
  exact ((hv1.capture (within hs (by decide))).collect (within hs (by decide)))

theorem Chg.switchStart {a1 a2} (h : Chg ps r s) (hs : [Part.pan] ⊆ ps) : Chg ps r (State.switchStart s a1 a2) := by
  unfold State.switchStart
  extract_lets -underBinder v0 v1
  clear_value v0
  clear_value v1
  exact ((h.setPanel (within hs (by decide))).setCanvas (within hs (by decide)))

theorem Chg.switchEnd {a1 a2 a3} (h : Chg ps r s) (hs : [Part.regs, .ledgers, .out, .flt, .pow, .ops, .hif, .mem, .pan, .cad] ⊆ ps) : Chg ps r (State.switchEnd s a1 a2 a3) := by
  unfold State.switchEnd
  extract_lets -underBinder v0 v1 v2 v3 v4 v5 v6 v7
  clear_value v0
  clear_value v1
  have hv2 : Chg ps r v2 := by
    unfold v2
    exact (h.ungrantAll (within hs (by decide)))
  clear_value v2
  have hv3 : Chg ps r v3 := by
    unfold v3
    exact (Chg.ite ((hv2.palZero (within hs (by decide))).storesZero (within hs (by decide))) (hv2.savePanel (within hs (by decide))))
  clear_value v3
  have hv4 : Chg ps r v4 := by
    unfold v4
    exact ((hv3.restorePanel (within hs (by decide))).setFld (within hs (by decide)))
  clear_value v4
  clear_value v5
  clear_value v6
  have hv7 : Chg ps r v7 := by
    unfold v7
    exact ((hv4.setPanel (within hs (by decide))).setCanvas (within hs (by decide)))
  clear_value v7
  exact ((Chg.ite (hv7.portsBack (within hs (by decide))) (hv7.restoreFail (within hs (by decide)))).fillPorts (within hs (by decide)))

theorem Chg.execTenantSwitch {a1 a2} (h : Chg ps r s) (hs : [Part.regs, .ledgers, .out, .flt, .pow, .ops, .hif, .mem, .pan, .cad] ⊆ ps) : ∃ t, execTenantSwitch a1 a2 s = .next t ∧ Chg ps r t := by
  refine ⟨_, rfl, ?_⟩
  split
  · rename_i y0 y1 y2
    exact (Chg.ite (h.switchEnd (within hs (by decide))) h)
  · rename_i y3 y4
    split
    · rename_i y5 y6 y7
      exact (Chg.ite (h.switchStart (within hs (by decide))) h)
    · rename_i y8 y9
      exact h

end Sys2Proof.Machine
end

