-- ==== Sys2Proof/Laws/Opcodes.lean ====
section
/-! SUPPORT. What each operation of Machine/Opcodes.lean touches at most, and that it keeps the ledgers and the byte stores in form (Chg). -/

namespace Sys2Proof.Machine

open Sys2Proof

variable {ps : List Part} {r s t : State}



theorem Chg.queueWork {a1 a2 a3} (h : Chg ps r s) (hs : [Part.regs, .ledgers, .ops, .pan] ⊆ ps) : Chg ps r (State.queueWork s a1 a2 a3) := by
  unfold State.queueWork
  extract_lets -underBinder v0 v1
  have hv0 : Chg ps r v0 := by
    unfold v0
    exact (h.setOp (within hs (by decide)))
  clear_value v0
  have hv1 : Chg ps r v1 := by
    unfold v1
    refine Chg.foldl ?_ (fun a3 x4 h5 => ?_)
    · exact hv0
    · extract_lets -underBinder v6
      clear_value v6
      exact (h5.setPanel (within hs (by decide)))
  clear_value v1
  exact (Chg.foldl hv1 (fun _ _ h7 => (h7.fillPorts (within hs (by decide)))))

theorem Chg.runStart {a1 a2} (h : Chg ps r s) (hs : [Part.regs, .ledgers, .out, .flt, .pow, .ops, .hif, .mem, .pan, .cad] ⊆ ps) : Chg ps r (State.runStart s a1 a2) := by
  unfold State.runStart
  refine Chg.withArg ?_ (fun x0 => ?_) (within hs (by decide))
  · exact h
  · extract_lets -underBinder v1 v2 v3 v4
    clear_value v1
    clear_value v2
    clear_value v3
    clear_value v4
    split
    · rename_i y5 y6 y7
      exact (h.opEnd (within hs (by decide)))
    · rename_i y8 y9
      split
      · rename_i y10 y11 y12
        exact (h.opEnd (within hs (by decide)))
      · rename_i y13 y14
        split
        · rename_i y15 y16 y17
          exact (h.opEnd (within hs (by decide)))
        · rename_i y18 y19
          extract_lets -underBinder v20
          clear_value v20
          split
          · rename_i y21 y22 y23
            exact (h.opEnd (within hs (by decide)))
          · rename_i y24 y25
            split
            · rename_i y26 y27 y28 y29 y30 y31
              exact (h.opFault (within hs (by decide)))
            · rename_i y32 y33
              extract_lets -underBinder v34 v35
              clear_value v34
              clear_value v35
              split
              · rename_i y36 y37 y38
                exact (h.opFault (within hs (by decide)))
              · rename_i y39 y40 y41
                exact (Chg.ite (h.opEnd (within hs (by decide))) (h.queueWork (within hs (by decide))))

theorem Chg.copyRow {a1 a2 a3 a4} (h : Chg ps r s) (hs : [Part.mem, .pan] ⊆ ps) : Chg ps r (State.copyRow s a1 a2 a3 a4).1 := by
  unfold State.copyRow
  generalize State.readDva _ _ _ _ = o0
  split
  · rename_i y1 y2 y3
    dsimp only
    exact h
  · rename_i y4 y5 y6
    generalize State.writeFault _ _ _ _ = o7
    split
    · rename_i y8 y9 y10
      dsimp only
      exact h
    · rename_i y11
      extract_lets -underBinder v12
      have hv12 : Chg ps r v12 := by
        unfold v12
        exact (h.writeDva (within hs (by decide)))
      clear_value v12
      split
      · rename_i y13
        dsimp only
        refine Chg.foldl ?_ (fun a15 x16 h17 => ?_)
        · exact hv12
        · generalize State.readDva _ _ _ _ = o18
          split
          · rename_i y19 y20
            exact (h17.poisonDva (within hs (by decide)))
          · rename_i y21 y22
            exact h17
      · rename_i y23
        dsimp only
        exact hv12

theorem Chg.copyRows {a1 a2 a3 a4 a5 a6 a7} (h : Chg ps r s) (hs : [Part.mem, .pan] ⊆ ps) : Chg ps r (State.copyRows s a1 a2 a3 a4 a5 a6 a7).1 := by
  induction a7 generalizing s a2 a3 with
  | zero => exact h
  | succ n ih =>
    unfold State.copyRows
    split
    · next s1 f p e1 => exact Chg.fst (h.copyRow (within hs (by decide))) e1
    · next s1 p e1 => exact ih (Chg.fst (h.copyRow (within hs (by decide))) e1)

theorem Chg.copyLocal {a1 a2 a3} (h : Chg ps r s) (hs : [Part.regs, .ledgers, .out, .flt, .pow, .ops, .hif, .mem, .pan, .cad] ⊆ ps) : Chg ps r (State.copyLocal s a1 a2 a3) := by
  unfold State.copyLocal
  extract_lets -underBinder v0 v1
  clear_value v0
  have hv1 : Chg ps r v1 := by
    unfold v1
    exact ((h.useWindow (within hs (by decide))).useWindow (within hs (by decide)))
  clear_value v1
  split
  · rename_i y2 y3 y4 y5 y6 y7 y8
    refine Chg.opFault ?_ (within hs (by decide))
    exact Chg.fst (hv1.copyRows (within hs (by decide))) y8
  · rename_i y9 y10 y11 y12
    refine Chg.opEnd ?_ (within hs (by decide))
    exact Chg.fst (hv1.copyRows (within hs (by decide))) y12

theorem Chg.fillRows {a1 a2 a3 a4 a5 a6 a7} (h : Chg ps r s) (hs : [Part.mem, .pan] ⊆ ps) : Chg ps r (State.fillRows s a1 a2 a3 a4 a5 a6 a7).1 := by
  induction a7 generalizing s a3 a6 with
  | zero => exact h
  | succ n ih =>
    unfold State.fillRows
    split
    · exact h
    · exact ih (h.writeDva (within hs (by decide)))

theorem Chg.fillStart {a1 a2} (h : Chg ps r s) (hs : [Part.regs, .ledgers, .out, .flt, .pow, .ops, .hif, .mem, .pan, .cad] ⊆ ps) : Chg ps r (State.fillStart s a1 a2) := by
  unfold State.fillStart
  refine Chg.withArg ?_ (fun x0  => ?_) (within hs (by decide))
  · exact h
  · extract_lets -underBinder v1
    split
    · rename_i y2 y3 y4
      exact (h.opEnd (within hs (by decide)))
    · rename_i y5 y6
      split
      · rename_i y7 y8 y9
        exact (h.opEnd (within hs (by decide)))
      · rename_i y10 y11
        split
        · rename_i y12 y13 y14 y15 y16
          refine Chg.opFault ?_ (within hs (by decide))
          exact Chg.fst ((h.useWindow (within hs (by decide))).fillRows (within hs (by decide))) y16
        · rename_i y17 y18 y19
          refine Chg.opEnd ?_ (within hs (by decide))
          exact Chg.fst ((h.useWindow (within hs (by decide))).fillRows (within hs (by decide))) y19

theorem Chg.execOpFill {a1 a2} (h : Chg ps r s) (hs : [Part.time, .regs, .ledgers, .out, .flt, .pow, .ops, .hif, .mem, .pan, .cad] ⊆ ps) : ∃ t, execOpFill a1 a2 s = .next t ∧ Chg ps r t := by
  refine ⟨_, rfl, ?_⟩
  exact (h.issue (fun _ _ h0 => (h0.fillStart (within hs (by decide)))) (within hs (by decide)))

theorem Chg.signalStart {a1 a2} (h : Chg ps r s) (hs : [Part.regs, .ledgers, .out, .flt, .pow, .ops, .hif, .mem, .pan, .cad] ⊆ ps) : Chg ps r (State.signalStart s a1 a2) := by
  unfold State.signalStart
  refine Chg.ite ?_ ?_
  · exact (h.opEnd (within hs (by decide)))
  · refine Chg.withArg ?_ (fun x0  => ?_) (within hs (by decide))
    · exact h
    · split
      · rename_i y1 y2 y3
        exact (h.opEnd (within hs (by decide)))
      · rename_i y4 y5
        exact ((h.setOp (within hs (by decide))).opEnd (within hs (by decide)))

theorem Chg.execOpSignal {a1 a2} (h : Chg ps r s) (hs : [Part.time, .regs, .ledgers, .out, .flt, .pow, .ops, .hif, .mem, .pan, .cad] ⊆ ps) : ∃ t, execOpSignal a1 a2 s = .next t ∧ Chg ps r t := by
  refine ⟨_, rfl, ?_⟩
  exact (h.issue (fun _ _ h0 => (h0.signalStart (within hs (by decide)))) (within hs (by decide)))

theorem Chg.waitGo {a1 a2} (h : Chg ps r s) (hs : [Part.ledgers, .ops] ⊆ ps) : Chg ps r (State.waitGo s a1 a2) := by
  induction a2 generalizing s a1 with
  | zero =>
    exact h
  | succ n ih =>
    unfold State.waitGo
    split
    · rename_i y0 y1
      exact h
    · rename_i y2 y3 y4
      refine Chg.ite ?_ ?_
      · exact ((h.slotsMet (within hs (by decide))).opEnd (within hs (by decide)))
      · refine Chg.ite ?_ ?_
        · exact (h.letSlots (within hs (by decide)))
        · refine Chg.ite ?_ ?_
          · exact ((h.slotsMet (within hs (by decide))).opEnd (within hs (by decide)))
          · extract_lets -underBinder v5
            clear_value v5
            exact (ih (((h.slotsMet (within hs (by decide))).setOp (within hs (by decide))).takeSlots (within hs (by decide))))

theorem Chg.waitStart {a1 a2} (h : Chg ps r s) (hs : [Part.regs, .ledgers, .out, .flt, .pow, .ops, .hif, .mem, .pan, .cad] ⊆ ps) : Chg ps r (State.waitStart s a1 a2) := by
  unfold State.waitStart
  refine Chg.ite ?_ ?_
  · exact (h.opEnd (within hs (by decide)))
  · refine Chg.withArg ?_ (fun x0  => ?_) (within hs (by decide))
    · exact h
    · split
      · rename_i y1 y2 y3
        exact (h.opEnd (within hs (by decide)))
      · rename_i y4 y5
        exact ((h.setOp (within hs (by decide))).waitGo (within hs (by decide)))

theorem Chg.execOpWait {a1 a2} (h : Chg ps r s) (hs : [Part.time, .regs, .ledgers, .out, .flt, .pow, .ops, .hif, .mem, .pan, .cad] ⊆ ps) : ∃ t, execOpWait a1 a2 s = .next t ∧ Chg ps r t := by
  refine ⟨_, rfl, ?_⟩
  split
  · rename_i y0 y1 y2
    exact (Chg.ite ((h.at (within hs (by decide))).waitGo (within hs (by decide))) (h.issue (fun _ _ h3 => (h3.waitStart (within hs (by decide)))) (within hs (by decide))))
  · rename_i y4 y5
    exact h

theorem Chg.placeCart {a1 a2 a3 a4} (h : Chg ps r s) (hs : [Part.mem, .pan] ⊆ ps) : Chg ps r (State.placeCart s a1 a2 a3 a4) :=
  ((Chg.foldl h (fun _ _ h0 => (h0.storeWrite (within hs (by decide))))).setCarts (within hs (by decide)))

theorem Chg.unplaceCart {a1 a2 a3 a4} (h : Chg ps r s) (hs : [Part.mem, .pan] ⊆ ps) : Chg ps r (State.unplaceCart s a1 a2 a3 a4) :=
  ((Chg.foldl h (fun _ _ h0 => (h0.storeWrite (within hs (by decide))))).setCarts (within hs (by decide)))

theorem Chg.loadStart {a1 a2} (h : Chg ps r s) (hs : [Part.regs, .ledgers, .out, .flt, .pow, .ops, .hif, .mem, .pan, .cad] ⊆ ps) : Chg ps r (State.loadStart s a1 a2) := by
  unfold State.loadStart
  refine Chg.withArg ?_ (fun x0 => ?_) (within hs (by decide))
  · exact h
  · extract_lets -underBinder v1 v2 v3
    clear_value v1
    clear_value v2
    clear_value v3
    split
    · rename_i y4 y5 y6
      exact (h.opEnd (within hs (by decide)))
    · rename_i y7 y8
      split
      · rename_i y9 y10 y11 y12
        exact (h.opFault (within hs (by decide)))
      · rename_i y13 y14 y15 y16
        refine Chg.ite ?_ ?_
        · exact (h.opEnd (within hs (by decide)))
        · split
          · rename_i y17 y18 y19
            exact (h.opEnd (within hs (by decide)))
          · rename_i y20 y21
            extract_lets -underBinder v22
            clear_value v22
            split
            · rename_i y23 y24 y25
              exact (h.opEnd (within hs (by decide)))
            · rename_i y26 y27
              extract_lets -underBinder v28 v29 v30
              clear_value v28
              clear_value v29
              clear_value v30
              exact (Chg.ite ((Chg.foldl h (fun _ _ h31 => (h31.placeCart (within hs (by decide))))).opEnd (within hs (by decide))) ((Chg.foldl h (fun _ _ h32 => (h32.unplaceCart (within hs (by decide))))).opEnd (within hs (by decide))))

theorem Chg.execCartoonLoad {a1 a2} (h : Chg ps r s) (hs : [Part.time, .regs, .ledgers, .out, .flt, .pow, .ops, .hif, .mem, .pan, .cad] ⊆ ps) : ∃ t, execCartoonLoad a1 a2 s = .next t ∧ Chg ps r t := by
  refine ⟨_, rfl, ?_⟩
  split
  · rename_i y0 y1
    exact h
  · rename_i y2 y3 y4
    exact (Chg.ite h (h.issue (fun _ _ h5 => (h5.loadStart (within hs (by decide)))) (within hs (by decide))))

theorem Chg.execCompletionPost {a1 a2} (h : Chg ps r s) (hs : [Part.regs, .ledgers, .out, .flt, .pow, .ops, .hif, .mem, .pan, .cad] ⊆ ps) : ∃ t, execCompletionPost a1 a2 s = .next t ∧ Chg ps r t := by
  refine ⟨_, rfl, ?_⟩
  exact (Chg.ite h (h.postHead (within hs (by decide))))

theorem Chg.dropParts {a1} (h : Chg ps r s) (hs : [Part.regs, .ops, .pan] ⊆ ps) : Chg ps r (State.dropParts s a1) := by
  unfold State.dropParts
  split
  · rename_i y0 y1
    exact h
  · rename_i y2 y3 y4
    extract_lets -underBinder v5
    have hv5 : Chg ps r v5 := by
      unfold v5
      exact (Chg.foldl h (fun _ _ h6 => (h6.dropPorts (within hs (by decide)))))
    clear_value v5
    exact (hv5.endOnPanels (within hs (by decide)))

theorem Chg.addLoWrite {a1 a2} (h : Chg ps r s) (hs : [Part.ops] ⊆ ps) : Chg ps r (State.addLoWrite s a1 a2) :=
  (Chg.putOps h (within hs (by decide)))

theorem Chg.addHiWrite {a1 a2} (h : Chg ps r s) (hs : [Part.regs, .out, .ops, .hif] ⊆ ps) : Chg ps r (State.addHiWrite s a1 a2) := by
  unfold State.addHiWrite
  extract_lets -underBinder v0 v1 v2
  have hv2 : Chg ps r v2 := by
    unfold v2
    exact (Chg.putOps h (within hs (by decide)))
  clear_value v2
  split
  · rename_i y3 y4 y5
    exact (Chg.ite (hv2.synAdd (within hs (by decide))) (hv2.discard (within hs (by decide))))
  · rename_i y6 y7
    exact (hv2.discard (within hs (by decide)))

theorem Chg.execSynAdd {a1} (h : Chg ps r s) (hs : [Part.regs, .out, .ops, .hif] ⊆ ps) : ∃ t, execSynAdd a1 s = .next t ∧ Chg ps r t := by
  refine ⟨_, rfl, ?_⟩
  exact (h.via (fun _ h0 => (h0.addHiWrite (within hs (by decide)))) (within hs (by decide)))

theorem Chg.execSynTAdd {a1 a2} (h : Chg ps r s) (hs : [Part.regs, .out, .ops, .hif] ⊆ ps) : ∃ t, execSynTAdd a1 a2 s = .next t ∧ Chg ps r t := by
  refine ⟨_, rfl, ?_⟩
  exact (h.via (fun _ h0 => (h0.addHiWrite (within hs (by decide)))) (within hs (by decide)))

theorem Chg.synRead {a1} (h : Chg ps r s) (hs : [Part.regs, .reply] ⊆ ps) : Chg ps r (State.synRead s a1) := by
  unfold State.synRead
  extract_lets -underBinder v0 v1
  exact ((h.setWord (within hs (by decide))).answer (within hs (by decide)))

theorem Chg.execSynValueRead {a1} (h : Chg ps r s) (hs : [Part.regs, .reply] ⊆ ps) : ∃ t, execSynValueRead a1 s = .next t ∧ Chg ps r t := by
  refine ⟨_, rfl, ?_⟩
  split
  · rename_i y0 y1
    exact (h.via (fun _ h2 => (h2.synRead (within hs (by decide)))) (within hs (by decide)))
  · rename_i y3
    exact (h.via (fun _ h4 => (h4.synRead (within hs (by decide)))) (within hs (by decide)))

end Sys2Proof.Machine
end

