-- ==== Sys2Proof/Laws/Vote.lean ====
section
/-! SUPPORT. What each operation of Machine/Vote.lean touches at most, and that it keeps the ledgers and the byte stores in form (Chg). -/

namespace Sys2Proof.Machine

open Sys2Proof

variable {ps : List Part} {r s t : State}



theorem Chg.setChState {a1 a2 a3} (h : Chg ps r s) (hs : [Part.regs] ⊆ ps) : Chg ps r (State.setChState s a1 a2 a3) := by
  unfold State.setChState
  extract_lets -underBinder v0
  exact (h.setFld (within hs (by decide)))

theorem Chg.outCheck {a1} (h : Chg ps r s) (hs : [Part.regs, .ledgers, .out, .flt, .pow, .hif, .pan, .cad] ⊆ ps) : Chg ps r (State.outCheck s a1) :=
  (Chg.ite ((h.report (within hs (by decide))).domFault (within hs (by decide))) h)

theorem Chg.lostChannels {a1} (h : Chg ps r s) (hs : [Part.regs, .ledgers, .out, .flt, .pow, .hif, .pan, .cad] ⊆ ps) : Chg ps r (State.lostChannels s a1) := by
  unfold State.lostChannels
  refine Chg.ite ?_ ?_
  · exact h
  · refine Chg.outCheck ?_ (within hs (by decide))
    refine Chg.foldl ?_ (fun a4 x5 h6 => ?_)
    · exact h
    · refine Chg.ite ?_ ?_
      · exact h6
      · extract_lets -underBinder v7
        clear_value v7
        exact (((h6.setDom (within hs (by decide))).setChState (within hs (by decide))).event (within hs (by decide)))

theorem Chg.voteNone {a1 a2} (h : Chg ps r s) (hs : [Part.regs, .ledgers, .out, .ops, .hif, .cad] ⊆ ps) : Chg ps r (State.voteNone s a1 a2) := by
  unfold State.voteNone
  extract_lets -underBinder v0 v1
  clear_value v0
  have hv1 : Chg ps r v1 := by
    unfold v1
    exact (((h.event (within hs (by decide))).countUp (within hs (by decide))).event (within hs (by decide)))
  clear_value v1
  exact ((hv1.opEnd (within hs (by decide))).domFault (within hs (by decide)))

theorem Chg.triStart {a1 a2} (h : Chg ps r s) (hs : [Part.regs, .ledgers, .out, .flt, .pow, .ops, .hif, .mem, .pan, .cad] ⊆ ps) : Chg ps r (State.triStart s a1 a2) := by
  unfold State.triStart
  extract_lets -underBinder v0
  clear_value v0
  refine Chg.withArg ?_ (fun x1 => ?_) (within hs (by decide))
  · exact h
  · split
    · rename_i y2 y3 y4
      exact (h.opEnd (within hs (by decide)))
    · rename_i y5 y6
      extract_lets -underBinder v7 v8 v9
      clear_value v7
      clear_value v8
      have hv9 : Chg ps r v9 := by
        unfold v9
        exact (h.setOp (within hs (by decide)))
      clear_value v9
      refine Chg.ite ?_ ?_
      · exact (h.opEnd (within hs (by decide)))
      · refine Chg.ite ?_ ?_
        · exact (h.voteNone (within hs (by decide)))
        · refine Chg.foldl ?_ (fun a13 x14 h15 => ?_)
          · exact hv9
          · extract_lets -underBinder v16
            clear_value v16
            exact ((h15.setOp (within hs (by decide))).runStart (within hs (by decide)))

theorem Chg.execOpRun {a1 a2} (h : Chg ps r s) (hs : [Part.time, .regs, .ledgers, .out, .flt, .pow, .ops, .hif, .mem, .pan, .cad] ⊆ ps) : ∃ t, execOpRun a1 a2 s = .next t ∧ Chg ps r t := by
  refine ⟨_, rfl, ?_⟩
  exact (Chg.ite h (h.issue (fun _ _ h0 => (Chg.ite ((h0.lostChannels (within hs (by decide))).triStart (within hs (by decide))) (h0.runStart (within hs (by decide))))) (within hs (by decide))))

theorem Chg.fenceChannel {a1 a2 a3 a4} (h : Chg ps r s) (hs : [Part.regs, .out, .hif, .cad] ⊆ ps) : Chg ps r (State.fenceChannel s a1 a2 a3 a4) := by
  unfold State.fenceChannel
  refine Chg.ite ?_ ?_
  · exact h
  · extract_lets -underBinder v0 v1 v2
    have hv1 : Chg ps r v1 := by
      unfold v1
      exact (h.setFld (within hs (by decide)))
    clear_value v1
    clear_value v2
    exact (Chg.ite ((hv1.setChState (within hs (by decide))).event (within hs (by decide))) (((hv1.setDom (within hs (by decide))).setChState (within hs (by decide))).event (within hs (by decide))))

theorem Chg.votedWrite {a1 a2 a3} (h : Chg ps r s) (hs : [Part.regs, .ledgers, .out, .flt, .pow, .hif, .mem, .pan, .cad] ⊆ ps) : Chg ps r (State.votedWrite s a1 a2 a3) := by
  unfold State.votedWrite
  extract_lets -underBinder v0 v1 v2
  clear_value v2
  refine Chg.ite ?_ ?_
  · exact h
  · generalize State.writeFault _ _ _ _ = o3
    split
    · rename_i y4 y5 y6
      exact ((h.mmuFault (within hs (by decide))).event (within hs (by decide)))
    · rename_i y7
      exact (h.writeDva (within hs (by decide)))

theorem Chg.decideVote {a1 a2 a3} (h : Chg ps r s) (hs : [Part.free, .regs, .ledgers, .out, .flt, .pow, .ops, .hif, .mem, .pan, .cad] ⊆ ps) : Chg ps r (State.decideVote s a1 a2 a3) := by
  unfold State.decideVote
  extract_lets -underBinder v0 v1 v2 v3 v4 v5 v6 v7 v8 v9 v10 v11 v12 v13 v14 v15 v16 v17 v18
  clear_value v0
  clear_value v1
  clear_value v2
  clear_value v3
  clear_value v5
  clear_value v6
  clear_value v7
  clear_value v8
  clear_value v9
  clear_value v10
  clear_value v11
  clear_value v12
  clear_value v13
  clear_value v14
  have hv15 : Chg ps r v15 := by
    unfold v15
    exact (Chg.ite (h.used (within hs (by decide))) h)
  clear_value v15
  have hv16 : Chg ps r v16 := by
    unfold v16
    exact (Chg.ite hv15 ((hv15.event (within hs (by decide))).countUp (within hs (by decide))))
  clear_value v16
  have hv17 : Chg ps r v17 := by
    unfold v17
    exact (Chg.ite (hv16.event (within hs (by decide))) hv16)
  clear_value v17
  clear_value v18
  split
  · rename_i y19 y20 y21 y22
    have hp23 : Chg ps r y20 := by
      refine Chg.fst ?_ y22
      split
      · rename_i y24 y25 y26 y27 y28
        exact (hv17.available (within hs (by decide)))
      · rename_i y29 y30 y31 y32
        exact hv17
    extract_lets -underBinder v33 v34 v35 v36 v37
    have hv33 : Chg ps r v33 := by
      unfold v33
      split
      · rename_i y38 y39
        exact (hp23.votedWrite (within hs (by decide)))
      · rename_i y40
        exact hp23
    clear_value v33
    have hv34 : Chg ps r v34 := by
      unfold v34
      exact (hv33.setOp (within hs (by decide)))
    clear_value v34
    clear_value v35
    have hv36 : Chg ps r v36 := by
      unfold v36
      exact (Chg.foldl hv34 (fun _ _ h41 => (h41.fenceChannel (within hs (by decide)))))
    clear_value v36
    have hv37 : Chg ps r v37 := by
      unfold v37
      exact (hv36.outCheck (within hs (by decide)))
    clear_value v37
    exact (Chg.ite (Chg.ite ((hv37.report (within hs (by decide))).domFault (within hs (by decide))) (Chg.ite (hv37.domFault (within hs (by decide))) hv37)) hv37)

theorem Chg.readRecord {a1 a2} (h : Chg ps r s) (hs : [Part.regs, .out, .ops, .hif, .cad] ⊆ ps) : Chg ps r (State.readRecord s a1 a2) := by
  unfold State.readRecord
  extract_lets -underBinder v0 v1
  split
  · rename_i y2 y3 y4 y5
    refine Chg.setOp ?_ (within hs (by decide))
    exact Chg.fst (h.available (within hs (by decide))) y5

theorem Chg.execVoteDecision {a1 a2} (h : Chg ps r s) (hs : [Part.free, .time, .regs, .ledgers, .out, .flt, .pow, .ops, .hif, .mem, .pan, .cad] ⊆ ps) : ∃ t, execVoteDecision a1 a2 s = .next t ∧ Chg ps r t := by
  refine ⟨_, rfl, ?_⟩
  split
  · rename_i y0 y1 y2
    exact (Chg.ite h (Chg.ite (Chg.ite ((h.at (within hs (by decide))).decideVote (within hs (by decide))) h) (Chg.ite ((h.at (within hs (by decide))).readRecord (within hs (by decide))) h)))
  · rename_i y3 y4
    exact h

theorem Chg.decideSkew {a1 a2 a3} (h : Chg ps r s) (hs : [Part.free, .regs, .ledgers, .out, .flt, .pow, .ops, .hif, .mem, .pan, .cad] ⊆ ps) : Chg ps r (State.decideSkew s a1 a2 a3) := by
  unfold State.decideSkew
  extract_lets -underBinder v0 v1 v2 v3
  clear_value v0
  have hv1 : Chg ps r v1 := by
    unfold v1
    refine Chg.foldl ?_ (fun a5 x6 h7 => ?_)
    · exact h
    · split
      · rename_i y8 y9 y10
        exact ((h7.setOp (within hs (by decide))).dropParts (within hs (by decide)))
      · rename_i y11 y12
        exact h7
  clear_value v1
  have hv2 : Chg ps r v2 := by
    unfold v2
    refine Chg.foldl ?_ (fun a14 x15 h16 => ?_)
    · exact hv1
    · split
      · rename_i y17 y18 y19
        exact (h16.setOp (within hs (by decide)))
      · rename_i y20 y21
        exact h16
  clear_value v2
  have hv3 : Chg ps r v3 := by
    unfold v3
    exact (hv2.decideVote (within hs (by decide)))
  clear_value v3
  refine Chg.foldl ?_ (fun a23 x24 h25 => ?_)
  · exact hv3
  · split
    · rename_i y26 y27 y28
      exact (Chg.ite (h25.setOp (within hs (by decide))) h25)
    · rename_i y29 y30
      exact h25

theorem Chg.execSkewTimeout {a1 a2} (h : Chg ps r s) (hs : [Part.free, .time, .regs, .ledgers, .out, .flt, .pow, .ops, .hif, .mem, .pan, .cad] ⊆ ps) : ∃ t, execSkewTimeout a1 a2 s = .next t ∧ Chg ps r t := by
  refine ⟨_, rfl, ?_⟩
  split
  · rename_i y0 y1 y2
    exact (Chg.ite h ((h.at (within hs (by decide))).decideSkew (within hs (by decide))))
  · rename_i y3 y4
    exact h

theorem Chg.execChannelRecovery {a1 a2} (h : Chg ps r s) (hs : [Part.regs, .out, .hif, .mem, .cad] ⊆ ps) : ∃ t, execChannelRecovery a1 a2 s = .next t ∧ Chg ps r t := by
  refine ⟨_, rfl, ?_⟩
  split
  · rename_i y0 y1 y2 y3 y4 y5
    extract_lets -underBinder v6 v7 v8 v9 v10 v11 v12 v13
    clear_value v7
    clear_value v9
    clear_value v10
    clear_value v11
    have hv12 : Chg ps r v12 := by
      unfold v12
      refine Chg.foldl ?_ (fun a15 x16 h17 => ?_)
      · exact h
      · extract_lets -underBinder v18 v19 v20
        clear_value v18
        clear_value v19
        have hv20 : Chg ps r v20 := by
          unfold v20
          exact (h17.palWrite (within hs (by decide)))
        clear_value v20
        exact (Chg.foldl hv20 (fun _ _ h21 => (h21.palPoison (within hs (by decide)))))
    clear_value v12
    clear_value v13
    exact (Chg.ite h (((hv12.setDom (within hs (by decide))).setChState (within hs (by decide))).event (within hs (by decide))))
  · rename_i y22 y23 y24
    exact h

theorem Chg.execRecoveryWindowClear {a1} (h : Chg ps r s) (hs : [Part.regs] ⊆ ps) : ∃ t, execRecoveryWindowClear a1 s = .next t ∧ Chg ps r t := by
  refine ⟨_, rfl, ?_⟩
  exact (h.setFld (within hs (by decide)))

theorem Chg.voterFail {a1} (h : Chg ps r s) (hs : [Part.regs, .ledgers, .out, .flt, .pow, .hif, .pan, .cad] ⊆ ps) : Chg ps r (State.voterFail s a1) := by
  unfold State.voterFail
  refine Chg.ite ?_ ?_
  · exact h
  · extract_lets -underBinder v0 v1
    have hv0 : Chg ps r v0 := by
      unfold v0
      exact (h.setFld (within hs (by decide)))
    clear_value v0
    have hv1 : Chg ps r v1 := by
      unfold v1
      exact (hv0.journal (within hs (by decide)))
    clear_value v1
    exact (Chg.ite (Chg.foldl hv1 (fun _ _ h2 => (Chg.ite ((h2.report (within hs (by decide))).domFault (within hs (by decide))) h2))) (Chg.ite (((hv1.setFld (within hs (by decide))).countFld (within hs (by decide))).event (within hs (by decide))) hv1))

theorem Chg.execVoterCheck {a1} (h : Chg ps r s) (hs : [Part.regs, .ledgers, .out, .flt, .pow, .hif, .pan, .cad] ⊆ ps) : ∃ t, execVoterCheck a1 s = .next t ∧ Chg ps r t := by
  refine ⟨_, rfl, ?_⟩
  exact (Chg.ite h ((h.voterFail (within hs (by decide))).report (within hs (by decide))))

theorem Chg.votersGone {a1} (h : Chg ps r s) (hs : [Part.regs, .ledgers, .out, .flt, .pow, .hif, .pan, .cad] ⊆ ps) : Chg ps r (State.votersGone s a1) :=
  (Chg.ite ((h.report (within hs (by decide))).domFault (within hs (by decide))) h)

theorem Chg.execVoterMismatch {a1 a2 a3} (h : Chg ps r s) (hs : [Part.free, .regs, .ledgers, .out, .flt, .pow, .ops, .hif, .mem, .pan, .cad] ⊆ ps) : ∃ t, execVoterMismatch a1 a2 a3 s = .next t ∧ Chg ps r t := by
  refine ⟨_, rfl, ?_⟩
  split
  · rename_i y0 y1 y2
    refine Chg.ite ?_ ?_
    · exact h
    · extract_lets -underBinder v3 v4
      have hv3 : Chg ps r v3 := by
        unfold v3
        exact ((Chg.ite (h.decideSkew (within hs (by decide))) (h.decideVote (within hs (by decide)))).report (within hs (by decide)))
      clear_value v3
      have hv4 : Chg ps r v4 := by
        unfold v4
        exact (Chg.ite (hv3.voterFail (within hs (by decide))) hv3)
      clear_value v4
      exact (Chg.ite (hv4.voterFail (within hs (by decide))) hv4)
  · rename_i y5 y6
    exact h

theorem Chg.dropChannels {a1} (h : Chg ps r s) (hs : [Part.ops] ⊆ ps) : Chg ps r (State.dropChannels s a1) :=
  (Chg.foldl h (fun _ _ h0 => (h0.dropOp (within hs (by decide)))))

theorem Chg.instEnded {a1} (h : Chg ps r s) (hs : [Part.cad] ⊆ ps) : Chg ps r (State.instEnded s a1) :=
  (Chg.ite (h.setInst (within hs (by decide))) h)

theorem Chg.opComplete {a1 a2} (h : Chg ps r s) (hs : [Part.time, .regs, .ledgers, .out, .ops, .hif, .cad, .srv] ⊆ ps) : Chg ps r (State.opComplete s a1 a2) := by
  unfold State.opComplete
  split
  · rename_i y0 y1 y2
    exact (Chg.ite (Chg.ite (((((h.instEnded (within hs (by decide))).dropChannels (within hs (by decide))).setOp (within hs (by decide))).at (within hs (by decide))).complete (within hs (by decide))) h) (Chg.ite (((h.instEnded (within hs (by decide))).at (within hs (by decide))).complete (within hs (by decide))) h))
  · rename_i y3 y4
    exact h

theorem Chg.opTimeout {a1 a2} (h : Chg ps r s) (hs : [Part.time, .regs, .ledgers, .out, .ops, .hif, .pan, .srv] ⊆ ps) : Chg ps r (State.opTimeout s a1 a2) := by
  unfold State.opTimeout
  split
  · rename_i y0 y1 y2
    refine Chg.ite ?_ ?_
    · extract_lets -underBinder v3 v4
      have hv3 : Chg ps r v3 := by
        unfold v3
        refine Chg.foldl ?_ (fun a6 x7 h8 => ?_)
        · exact (h.at (within hs (by decide)))
        · split
          · rename_i y9 y10 y11
            exact ((h8.setOp (within hs (by decide))).dropParts (within hs (by decide)))
          · rename_i y12 y13
            exact h8
      clear_value v3
      have hv4 : Chg ps r v4 := by
        unfold v4
        exact ((hv3.abandon (within hs (by decide))).dropParts (within hs (by decide)))
      clear_value v4
      exact (Chg.ite (hv4.opEnd (within hs (by decide))) hv4)
    · exact h
  · rename_i y14 y15
    exact h


theorem Chg.execProactivePanelRetirement {a1 a2} (h : Chg ps r s) (hs : [Part.time, .regs, .out, .flt, .hif, .mem, .pan, .cad] ⊆ ps) : ∃ t, execProactivePanelRetirement a1 a2 s = .next t ∧ Chg ps r t := by
  unfold Sys2Proof.Machine.execProactivePanelRetirement
  extract_lets v0 v1 v2
  have hv0 : Chg ps r v0 := by
    unfold v0
    exact (h.at (within hs (by decide)))
  clear_value v0
  clear_value v1
  clear_value v2
  refine ⟨_, rfl, ?_⟩
  refine Chg.ite ?_ ?_
  · split
    · rename_i y3 y4 y5
      exact ((hv0.setDom (within hs (by decide))).substPanel (within hs (by decide)))
    · rename_i y6 y7
      exact (hv0.substPanel (within hs (by decide)))
  · exact h

theorem Chg.cadAccept {a1 a2} (h : Chg ps r s) (hs : [Part.regs, .ledgers, .ops, .cad, .srv] ⊆ ps) : Chg ps r (State.cadAccept s a1 a2) := by
  unfold State.cadAccept
  extract_lets -underBinder v0 v1
  clear_value v0
  clear_value v1
  split
  · rename_i y2 y3
    exact h
  · rename_i y4 y5 y6 y7
    refine Chg.ite ?_ ?_
    · exact h
    · extract_lets -underBinder v8 v9 v10 v11 v12
      have hv8 : Chg ps r v8 := by
        unfold v8
        exact (Chg.ite h ((h.setDom (within hs (by decide))).move (within hs (by decide))))
      clear_value v8
      clear_value v9
      clear_value v10
      clear_value v11
      have hv12 : ∀ z0, Chg ps r z0 → Chg ps r (v12 z0) := by
        intro x13 h14
        unfold v12
        exact ((h14.setDom (within hs (by decide))).move (within hs (by decide)))
      split
      · rename_i y15 y16 y17 y18
        extract_lets -underBinder v19 v20 v21
        have hv19 : Chg ps r v19 := by
          unfold v19
          exact ((hv8.countUp (within hs (by decide))).countUp (within hs (by decide)))
        clear_value v19
        clear_value v20
        have hv21 : Chg ps r v21 := by
          unfold v21
          exact (Chg.ite (hv19.setInst (within hs (by decide))) hv19)
        clear_value v21
        exact (hv12 _ (hv21.recordMade (within hs (by decide))))
      · rename_i y22 y23
        split
        · rename_i y24 y25
          exact hv8
        · rename_i y26 y27 y28
          extract_lets -underBinder v29 v30
          have hv29 : Chg ps r v29 := by
            unfold v29
            exact (hv8.takeOp (within hs (by decide)))
          clear_value v29
          clear_value v30
          refine hv12 _ ?_
          split
          · rename_i y31 y32 y33
            exact (hv29.setOp (within hs (by decide)))
          · rename_i y34 y35
            exact hv29

end Sys2Proof.Machine
end

