-- ==== Sys2Proof/Laws/Glaze.lean ====
section
/-! SUPPORT. What each operation of Machine/Glaze.lean touches at most, and that it keeps the ledgers and the byte stores in form (Chg). -/

namespace Sys2Proof.Machine

open Sys2Proof

variable {ps : List Part} {r s t : State}



theorem Chg.setSeq {a1 a2} (h : Chg ps r s) (hs : [Part.srv] ⊆ ps) : Chg ps r (State.setSeq s a1 a2) :=
  (Chg.putSrv h (within hs (by decide)))

theorem Chg.setPset {a1 a2} (h : Chg ps r s) (hs : [Part.srv] ⊆ ps) : Chg ps r (State.setPset s a1 a2) :=
  (Chg.putSrv h (within hs (by decide)))

theorem Chg.settleSet {a1 a2} (h : Chg ps r s) (hs : [Part.regs, .ledgers, .srv] ⊆ ps) : Chg ps r (State.settleSet s a1 a2) := by
  unfold State.settleSet
  split
  · rename_i y0 y1
    exact h
  · rename_i y2 y3 y4
    refine Chg.ite ?_ ?_
    · exact h
    · refine Chg.ite ?_ ?_
      · exact (h.move (within hs (by decide)))
      · extract_lets -underBinder v5 v6 v7
        have hv5 : Chg ps r v5 := by
          unfold v5
          exact (Chg.ite (h.reclaim (within hs (by decide))) (h.move (within hs (by decide))))
        clear_value v5
        have hv7 : Chg ps r v7 := by
          unfold v7
          exact (Chg.putSrv hv5 (within hs (by decide)))
        clear_value v7
        exact (Chg.ite (hv7.setWord (within hs (by decide))) hv7)

theorem Chg.unlinkSet {a1 a2} (h : Chg ps r s) (hs : [Part.regs, .ledgers, .srv] ⊆ ps) : Chg ps r (State.unlinkSet s a1 a2) := by
  unfold State.unlinkSet
  split
  · rename_i y0 y1
    exact h
  · rename_i y2 y3 y4
    exact ((h.setPset (within hs (by decide))).settleSet (within hs (by decide)))

theorem Chg.endReaders {a1} (h : Chg ps r s) (hs : [Part.regs, .ledgers, .srv] ⊆ ps) : Chg ps r (State.endReaders s a1) := by
  unfold State.endReaders
  refine Chg.foldl ?_ (fun a1 x2 h3 => ?_)
  · exact h
  · extract_lets -underBinder v4 v5 v6 v7 v8 v9
    clear_value v4
    clear_value v5
    have hv6 : Chg ps r v6 := by
      unfold v6
      exact (h3.setPset (within hs (by decide)))
    clear_value v6
    have hv7 : Chg ps r v7 := by
      unfold v7
      exact (hv6.move (within hs (by decide)))
    clear_value v7
    have hv9 : Chg ps r v9 := by
      unfold v9
      exact (Chg.putSrv hv7 (within hs (by decide)))
    clear_value v9
    exact (Chg.ite (Chg.ite (hv9.setWord (within hs (by decide))) hv9) hv6)

theorem Chg.dropPrefix {a1 a2} (h : Chg ps r s) (hs : [Part.regs, .ledgers, .srv] ⊆ ps) : Chg ps r (State.dropPrefix s a1 a2) := by
  unfold State.dropPrefix
  split
  · rename_i y0 y1
    exact h
  · rename_i y2 y3 y4
    extract_lets -underBinder v5 v6 v7
    have hv6 : Chg ps r v6 := by
      unfold v6
      exact (Chg.putSrv h (within hs (by decide)))
    clear_value v6
    have hv7 : Chg ps r v7 := by
      unfold v7
      exact (Chg.ite (hv6.reclaim (within hs (by decide))) (hv6.move (within hs (by decide))))
    clear_value v7
    split
    · rename_i y8 y9 y10
      exact ((hv7.setPset (within hs (by decide))).settleSet (within hs (by decide)))
    · rename_i y11 y12
      exact hv7

theorem Chg.dropPrefixes {a1 a2} (h : Chg ps r s) (hs : [Part.regs, .ledgers, .srv] ⊆ ps) : Chg ps r (State.dropPrefixes s a1 a2) :=
  (Chg.foldl h (fun _ _ h0 => (h0.dropPrefix (within hs (by decide)))))

theorem Chg.setSdom {a1 a2} (h : Chg ps r s) (hs : [Part.srv] ⊆ ps) : Chg ps r (State.setSdom s a1 a2) :=
  (Chg.putSrv h (within hs (by decide)))

theorem Chg.glzRows {a1 a2 a3 d} (h : Chg ps r s) (hs : [Part.regs, .ledgers, .out, .flt, .pow, .hif, .mem, .pan, .cad] ⊆ ps) (e : State.glzRows s a1 a2 a3 = .error (t, d)) : Chg ps r t := by
  revert e
  rw [State.glzRows]
  generalize State.readDva _ _ _ _ = o1
  intro e
  cases o1 with
  | bad d e' =>
    obtain ⟨rfl, _⟩ := Prod.mk.inj (Except.error.inj e)
    exact h.mmuFault (within hs (by decide))
  | ok b p =>
    revert e
    dsimp only
    generalize State.readDva _ _ _ _ = o2
    intro e
    split at e
    · obtain ⟨rfl, _⟩ := Prod.mk.inj (Except.error.inj e); exact h
    · split at e
      · obtain ⟨rfl, _⟩ := Prod.mk.inj (Except.error.inj e); exact h
      · cases o2 with
        | bad d e' =>
          obtain ⟨rfl, _⟩ := Prod.mk.inj (Except.error.inj e)
          exact h.mmuFault (within hs (by decide))
        | ok r p2 =>
          dsimp only at e
          split at e
          · obtain ⟨rfl, _⟩ := Prod.mk.inj (Except.error.inj e); exact h
          · exact absurd e (by simp)

theorem Chg.evictFor {a1 a2 a3} (h : Chg ps r s) (hs : [Part.regs, .ledgers, .srv] ⊆ ps) (e : State.evictFor s a1 a2 a3 = some t) : Chg ps r t := by
  unfold State.evictFor at e
  split at e
  · exact absurd e (by simp)
  · split at e
    · obtain rfl := Option.some.inj e; exact h
    · split at e
      · exact absurd e (by simp)
      · split at e
        · exact absurd e (by simp)
        · obtain rfl := Option.some.inj e
          exact ((h.setSeq (within hs (by decide))).unlinkSet (within hs (by decide))).countUp (within hs (by decide))

theorem Chg.takeLeaf {a1 a2} (h : Chg ps r s) (hs : [Part.ledgers, .srv] ⊆ ps) (e : State.takeLeaf s a1 a2 = some t) : Chg ps r t := by
  unfold State.takeLeaf at e
  split at e
  · exact absurd e (by simp)
  · split at e
    · obtain rfl := Option.some.inj e; exact h
    · split at e
      · exact absurd e (by simp)
      · obtain rfl := Option.some.inj e
        exact (h.move (within hs (by decide))).setSeq (within hs (by decide))

theorem Chg.allocSet {a1 a2 a3 k} (h : Chg ps r s) (hs : [Part.free, .regs, .ledgers, .out, .hif, .srv] ⊆ ps) (e : State.allocSet s a1 a2 a3 = some (k, t)) : Chg ps r t := by
  unfold State.allocSet at e
  extract_lets p want k' at e
  clear_value k' 
  split at e
  · exact absurd e (by simp)
  · split at e
    · exact absurd e (by simp)
    · next k2 =>
      extract_lets s1 at e
      have h1 : Chg ps r s1 := ((h.used (within hs (by decide))).setPset (within hs (by decide))).move (within hs (by decide))
      clear_value s1
      obtain ⟨_, rfl⟩ := Prod.mk.inj (Option.some.inj e)
      exact Chg.ite (h1.event (within hs (by decide))) h1

theorem Chg.newBlock {a1 a2 a3 a4} (h : Chg ps r s) (hs : [Part.free, .regs, .ledgers, .out, .hif, .srv] ⊆ ps) (e : State.newBlock s a1 a2 a3 a4 = some t) : Chg ps r t := by
  unfold State.newBlock at e
  split at e
  · exact absurd e (by simp)
  · next s1 e1 =>
    split at e
    · exact absurd e (by simp)
    · next s2 e2 =>
      split at e
      · exact absurd e (by simp)
      · next k s3 e3 =>
        split at e
        · exact absurd e (by simp)
        · obtain rfl := Option.some.inj e
          exact (((h.evictFor (within hs (by decide)) e1).takeLeaf (within hs (by decide)) e2).allocSet (within hs (by decide)) e3).setSeq (within hs (by decide))

theorem Chg.linkBlock {a1 a2 a3 a4} (h : Chg ps r s) (hs : [Part.regs, .ledgers, .srv] ⊆ ps) (e : State.linkBlock s a1 a2 a3 a4 = some t) : Chg ps r t := by
  unfold State.linkBlock at e
  split at e
  · exact absurd e (by simp)
  · next s1 e1 =>
    split at e
    · exact absurd e (by simp)
    · next s2 e2 =>
      split at e
      · obtain rfl := Option.some.inj e
        exact (((h.evictFor (within hs (by decide)) e1).takeLeaf (within hs (by decide)) e2).setSeq (within hs (by decide))).setPset (within hs (by decide))
      · exact absurd e (by simp)

theorem Chg.touchPrefix {a1} (h : Chg ps r s) (hs : [Part.srv] ⊆ ps) : Chg ps r (State.touchPrefix s a1) := by
  unfold State.touchPrefix
  split
  · rename_i y0 y1
    exact h
  · rename_i y2 y3 y4
    exact (Chg.putSrv h (within hs (by decide)))

theorem Chg.insertPrefix {a1 a2 a3 a4} (h : Chg ps r s) (hs : [Part.regs, .ledgers, .srv] ⊆ ps) : Chg ps r (State.insertPrefix s a1 a2 a3 a4) := by
  unfold State.insertPrefix
  extract_lets -underBinder v0 v1 v2 v3
  clear_value v1
  clear_value v2
  have hv3 : Chg ps r v3 := by
    unfold v3
    split
    · rename_i y4 y5 y6 y7
      exact (h.dropPrefix (within hs (by decide)))
    · rename_i y8 y9 y10 y11
      exact h
  clear_value v3
  split
  · rename_i y12 y13
    exact hv3
  · rename_i y14 y15 y16
    extract_lets -underBinder v17 v18 v19 v20
    clear_value v17
    have hv19 : Chg ps r v19 := by
      unfold v19
      exact (Chg.putSrv hv3 (within hs (by decide)))
    clear_value v19
    have hv20 : Chg ps r v20 := by
      unfold v20
      exact (hv19.move (within hs (by decide)))
    clear_value v20
    split
    · rename_i y21 y22 y23
      exact (hv20.setPset (within hs (by decide)))
    · rename_i y24 y25
      exact hv20

theorem Chg.lookupTake {a1 a2 a3 a4} (h : Chg ps r s) (hs : [Part.regs, .ledgers, .srv] ⊆ ps) (e : State.lookupTake s a1 a2 a3 a4 = some t) : Chg ps r t := by
  unfold State.lookupTake at e
  split at e
  · split at e
    · obtain ⟨a, ha, e2⟩ := Option.map_eq_some_iff.1 e
      obtain rfl := e2
      exact ((h.linkBlock (within hs (by decide)) ha).touchPrefix (within hs (by decide))).countUp (within hs (by decide))
    · exact absurd e (by simp)
  · exact absurd e (by simp)

theorem Chg.setHash {a1 a2 a3} (h : Chg ps r s) (hs : [Part.srv] ⊆ ps) : Chg ps r (State.setHash s a1 a2 a3) := by
  unfold State.setHash
  split
  · rename_i y0 y1 y2
    exact (h.setSeq (within hs (by decide)))
  · rename_i y3 y4
    exact h

theorem Chg.lookupGo {a1 a2 a3 a4 a5 a6 a7} (h : Chg ps r s) (hs : [Part.regs, .ledgers, .srv] ⊆ ps) : Chg ps r (State.lookupGo s a1 a2 a3 a4 a5 a6 a7).1 := by
  induction a4 generalizing s a5 a6 a7 with
  | nil => exact h
  | cons ts l ih =>
    unfold State.lookupGo
    extract_lets -underBinder hc cand s1
    have h1 : Chg ps r s1 := Chg.ite (h.countUp (within hs (by decide))) h
    clear_value s1
    split
    · next s2 e =>
      obtain ⟨x, _, ex⟩ := Option.bind_eq_some_iff.1 e
      exact ih ((h1.lookupTake (within hs (by decide)) ex).setHash (within hs (by decide)))
    · exact ih (h1.setHash (within hs (by decide)))

theorem Chg.prefixLookup {a1 a2 a3} (h : Chg ps r s) (hs : [Part.regs, .ledgers, .srv] ⊆ ps) : Chg ps r (State.prefixLookup s a1 a2 a3).1 := by
  unfold State.prefixLookup
  split
  · rename_i y0 y1
    dsimp only
    exact h
  · rename_i y2 y3 y4
    extract_lets -underBinder v5
    split
    · rename_i y6 y7
      dsimp only
      exact h
    · rename_i y8 y9 y10
      split
      · rename_i y11 y12
        dsimp only
        exact h
      · rename_i y13 y14 y15
        extract_lets -underBinder v16
        exact (h.lookupGo (within hs (by decide)))

theorem Chg.publish {a1 a2 a3 a4} (h : Chg ps r s) (hs : [Part.regs, .ledgers, .srv] ⊆ ps) : Chg ps r (State.publish s a1 a2 a3 a4) := by
  unfold State.publish
  split
  · rename_i y0 y1
    exact h
  · rename_i y2 y3 y4
    split
    · rename_i y5 y6 y7 y8 y9 y10
      refine Chg.ite ?_ ?_
      · exact h
      · split
        · rename_i y11 y12
          exact h
        · rename_i y13 y14 y15 y16
          extract_lets -underBinder v17 v18
          clear_value v17
          have hv18 : Chg ps r v18 := by
            unfold v18
            exact (h.setSeq (within hs (by decide)))
          clear_value v18
          exact (Chg.ite hv18 ((hv18.setSeq (within hs (by decide))).insertPrefix (within hs (by decide))))
    · rename_i y19 y20 y21
      exact h

theorem Chg.poisonSet {a1} (h : Chg ps r s) (hs : [Part.regs, .ledgers, .out, .hif, .srv] ⊆ ps) : Chg ps r (State.poisonSet s a1) := by
  unfold State.poisonSet
  split
  · rename_i y0 y1
    exact h
  · rename_i y2 y3 y4
    refine Chg.ite ?_ ?_
    · exact h
    · extract_lets -underBinder v5
      have hv5 : Chg ps r v5 := by
        unfold v5
        exact (((h.setPset (within hs (by decide))).countUp (within hs (by decide))).event (within hs (by decide)))
      clear_value v5
      exact (hv5.dropPrefixes (within hs (by decide)))

theorem Chg.kvUe {a1} (h : Chg ps r s) (hs : [Part.regs, .ledgers, .out, .flt, .pow, .hif, .pan, .cad, .srv] ⊆ ps) : Chg ps r (State.kvUe s a1) :=
  (Chg.ite h ((h.report (within hs (by decide))).poisonSet (within hs (by decide))))

theorem Chg.holdWait {a1} (h : Chg ps r s) (hs : [Part.ledgers, .ops] ⊆ ps) : Chg ps r (State.holdWait s a1) := by
  unfold State.holdWait
  split
  · rename_i y0 y1 y2
    split
    · rename_i y3 y4 y5
      exact ((h.setOp (within hs (by decide))).takeSlots (within hs (by decide)))
    · rename_i y6 y7
      exact h
  · rename_i y8 y9
    exact h

theorem Chg.glzEnd {a1 a2 a3} (h : Chg ps r s) (hs : [Part.regs, .ledgers, .ops, .srv] ⊆ ps) : Chg ps r (State.glzEnd s a1 a2 a3) := by
  unfold State.glzEnd
  extract_lets -underBinder v0 v1
  have hv0 : Chg ps r v0 := by
    unfold v0
    exact ((h.slotsMet (within hs (by decide))).endReaders (within hs (by decide)))
  clear_value v0
  exact ((Chg.putSrv hv0 (within hs (by decide))).opEnd (within hs (by decide)))

theorem Chg.quantRow {a1 a2 a3 a4 a5 a6} (h : Chg ps r s) (hs : [Part.regs, .out, .hif, .mem] ⊆ ps) : Chg ps r (State.quantRow s a1 a2 a3 a4 a5 a6) := by
  unfold State.quantRow
  extract_lets -underBinder v0 v1 v2 v3
  clear_value v0
  clear_value v1
  clear_value v2
  have hv3 : Chg ps r v3 := by
    unfold v3
    exact (h.memWrite (within hs (by decide)))
  clear_value v3
  refine Chg.ite ?_ ?_
  · exact (Chg.ite hv3 ((hv3.countUp (within hs (by decide))).event (within hs (by decide))))
  · refine Chg.foldl ?_ (fun a6 x7 h8 => ?_)
    · exact h
    · extract_lets -underBinder v9 v10 v11 v12
      clear_value v9
      clear_value v10
      clear_value v11
      have hv12 : Chg ps r v12 := by
        unfold v12
        exact ((h8.memWrite (within hs (by decide))).memWrite (within hs (by decide)))
      clear_value v12
      exact (Chg.ite ((hv12.countUp (within hs (by decide))).event (within hs (by decide))) hv12)

theorem Chg.appendRun {a1 a2 a3 a4} (h : Chg ps r s) (hs : [Part.ledgers, .ops, .srv] ⊆ ps) : Chg ps r (State.appendRun s a1 a2 a3 a4) := by
  unfold State.appendRun
  split
  · rename_i y0 y1 y2 y3
    exact (h.opEnd (within hs (by decide)))
  · rename_i y4 y5
    extract_lets -underBinder v6 v7
    have hv6 : Chg ps r v6 := by
      unfold v6
      exact ((h.setOp (within hs (by decide))).holdWait (within hs (by decide)))
    clear_value v6
    exact (Chg.putSrv hv6 (within hs (by decide)))

theorem Chg.appendStart {a1 a2} (h : Chg ps r s) (hs : [Part.regs, .ledgers, .out, .flt, .pow, .ops, .hif, .mem, .pan, .cad, .srv] ⊆ ps) : Chg ps r (State.appendStart s a1 a2) := by
  unfold State.appendStart
  refine h.withArg (fun a => ?_) (within hs (by decide))
  generalize State.glzArgFault _ _ _ _ = o1
  generalize rsvByte _ _ = o2
  generalize e : State.glzRows _ _ _ _ = o
  cases o1 with
  | some d => exact h.opEnd (within hs (by decide))
  | none =>
    cases o2 with
    | some d => exact h.opEnd (within hs (by decide))
    | none =>
      cases o with
      | error x => exact (h.glzRows (within hs (by decide)) e).opEnd (within hs (by decide))
      | ok rows => exact h.appendRun (within hs (by decide))

theorem Chg.execGlazeAppend {a1 a2} (h : Chg ps r s) (hs : [Part.time, .regs, .ledgers, .out, .flt, .pow, .ops, .hif, .mem, .pan, .cad, .srv] ⊆ ps) : ∃ t, execGlazeAppend a1 a2 s = .next t ∧ Chg ps r t := by
  refine ⟨_, rfl, ?_⟩
  exact (h.issue (fun _ _ h0 => (Chg.ite (h0.appendStart (within hs (by decide))) h)) (within hs (by decide)))

theorem Chg.appendScale {a1 a2 a3 a4} (h : Chg ps r s) (hs : [Part.mem, .srv] ⊆ ps) : Chg ps r (State.appendScale s a1 a2 a3 a4) := by
  unfold State.appendScale
  split
  · rename_i y0 y1 y2
    exact ((h.memWrite (within hs (by decide))).setPset (within hs (by decide)))
  · rename_i y3 y4
    exact h

theorem Chg.appendHead {a1 a2 a3 a4 a5 a6 a7 a8} (h : Chg ps r s) (hs : [Part.free, .regs, .out, .hif, .mem] ⊆ ps) : Chg ps r (State.appendHead s a1 a2 a3 a4 a5 a6 a7 a8) := by
  unfold State.appendHead
  extract_lets -underBinder v0 v1 v2 v3 v4
  clear_value v1
  clear_value v3
  clear_value v4
  exact ((h.quantRow (within hs (by decide))).quantRow (within hs (by decide)))

theorem Chg.appendPut {a1 a2 a3 a4 a5 a6 a7 a8 a9 a10 a11 a12} (h : Chg ps r s) (hs : [Part.free, .regs, .out, .hif, .mem, .srv] ⊆ ps) : Chg ps r (State.appendPut s a1 a2 a3 a4 a5 a6 a7 a8 a9 a10 a11 a12) := by
  unfold State.appendPut
  extract_lets -underBinder v0 v1 v2 v3
  have hv2 : Chg ps r v2 := by
    unfold v2
    exact (Chg.ite (h.appendScale (within hs (by decide))) h)
  clear_value v2
  have hv3 : Chg ps r v3 := by
    unfold v3
    exact (Chg.foldl hv2 (fun _ _ h4 => (h4.appendHead (within hs (by decide)))))
  clear_value v3
  exact (hv3.setSeq (within hs (by decide)))

theorem Chg.appendData {a1 a2 a3 a4 a5 a6 a7 a8} (h : Chg ps r s) (hs : [Part.free, .regs, .ledgers, .out, .flt, .pow, .hif, .mem, .pan, .cad, .srv] ⊆ ps) : Chg ps r (State.appendData s a1 a2 a3 a4 a5 a6 a7 a8).1 := by
  unfold State.appendData
  extract_lets a g l w hds b32 n off sc fresh
  clear_value fresh w b32 n off
  generalize State.readDva _ _ _ _ = o1
  cases o1 with
  | bad d f => exact h.mmuFault (within hs (by decide))
  | ok kb kp =>
    dsimp only
    generalize State.readDva _ _ _ n = o2
    cases o2 with
    | bad d f => exact h.mmuFault (within hs (by decide))
    | ok vb vp =>
      dsimp only
      generalize (if sc = 0 ∨ (!fresh) = true then Rd.ok ((List.range hds).map (fun _ => 0x38#8)) false else s.readDva w (sc + hds * l) hds) = o3
      cases o3 with
      | bad d f => exact h.mmuFault (within hs (by decide))
      | ok pb pp => exact Chg.iteFst h (h.appendPut (within hs (by decide)))

theorem Chg.appendRow {a1 a2 a3 a4 a5} (h : Chg ps r s) (hs : [Part.free, .regs, .ledgers, .out, .flt, .pow, .hif, .mem, .pan, .cad, .srv] ⊆ ps) : Chg ps r (State.appendRow s a1 a2 a3 a4 a5).1 := by
  unfold State.appendRow
  extract_lets -underBinder a g l
  split
  · exact h
  · extract_lets -underBinder q b ll have0 s0
    refine Chg.iteFst h (Chg.iteFst h ?_)
    have h0 : Chg ps r s0 := h.setSeq (within hs (by decide))
    clear_value s0
    split
    · exact h
    · next s1 e1 =>
      have h1 : Chg ps r s1 := by
        split at e1
        · obtain rfl := Option.some.inj e1; exact h0
        · exact h0.newBlock (within hs (by decide)) e1
      split
      · exact h
      · exact Chg.iteFst h1 (h1.appendData (within hs (by decide)))

theorem Chg.appendRows {a1 a2 a3 a4} (h : Chg ps r s) (hs : [Part.free, .regs, .ledgers, .out, .flt, .pow, .hif, .mem, .pan, .cad, .srv] ⊆ ps) : Chg ps r (State.appendRows s a1 a2 a3 a4).1 := by
  induction a4 generalizing s with
  | nil => exact h
  | cons e l ih =>
    unfold State.appendRows
    split
    · next s1 f e1 => exact Chg.fst (h.appendRow (within hs (by decide))) e1
    · next s1 e1 => exact ih (Chg.fst (h.appendRow (within hs (by decide))) e1)

theorem Chg.layerSignal {a1} (h : Chg ps r s) (hs : [Part.regs, .out, .ops, .hif] ⊆ ps) : Chg ps r (State.layerSignal s a1) := by
  unfold State.layerSignal
  extract_lets -underBinder v0
  exact (Chg.ite (h.relAdd (within hs (by decide))) h)

theorem Chg.execAppendLayer {a1 a2} (h : Chg ps r s) (hs : [Part.free, .time, .regs, .ledgers, .out, .flt, .pow, .ops, .hif, .mem, .pan, .cad, .srv] ⊆ ps) : ∃ t, execAppendLayer a1 a2 s = .next t ∧ Chg ps r t := by
  refine ⟨_, rfl, ?_⟩
  split
  · rename_i y0 y1 y2 y3 y4 y5
    extract_lets -underBinder v6 v7
    refine Chg.ite ?_ ?_
    · exact ((h.at (within hs (by decide))).glzEnd (within hs (by decide)))
    · refine Chg.ite ?_ ?_
      · exact ((h.at (within hs (by decide))).glzEnd (within hs (by decide)))
      · refine Chg.ite ?_ ?_
        · exact h
        · split
          · rename_i y8 y9 y10 y11 y12
            refine Chg.glzEnd ?_ (within hs (by decide))
            exact Chg.fst ((h.at (within hs (by decide))).appendRows (within hs (by decide))) y12
          · rename_i y13 y14 y15
            extract_lets -underBinder v16 v17 v18
            have hv17 : Chg ps r v17 := by
              unfold v17
              refine Chg.layerSignal ?_ (within hs (by decide))
              exact Chg.fst ((h.at (within hs (by decide))).appendRows (within hs (by decide))) y15
            clear_value v17
            have hv18 : Chg ps r v18 := by
              unfold v18
              refine Chg.foldl ?_ (fun a20 x21 h22 => ?_)
              · exact hv17
              · split
                · rename_i y23 y24 y25
                  exact (h22.publish (within hs (by decide)))
                · rename_i y26 y27
                  exact h22
            clear_value v18
            refine Chg.ite ?_ ?_
            · exact (hv18.glzEnd (within hs (by decide)))
            · split
              · rename_i y28 y29 y30
                exact (hv18.setOp (within hs (by decide)))
              · rename_i y31 y32
                exact hv18
  · rename_i y33 y34 y35
    exact h

theorem Chg.copySet {a1 a2 a3} (h : Chg ps r s) (hs : [Part.mem] ⊆ ps) : Chg ps r (State.copySet s a1 a2 a3) := by
  unfold State.copySet
  extract_lets -underBinder v0
  have hv0 : Chg ps r v0 := by
    unfold v0
    exact (h.memWrite (within hs (by decide)))
  clear_value v0
  exact (Chg.foldl hv0 (fun _ _ h1 => (h1.memPoison (within hs (by decide)))))

theorem Chg.moveAlloc {a1 a2 a3 a4} (h : Chg ps r s) (hs : [Part.free, .regs, .ledgers, .out, .hif, .srv] ⊆ ps) : Chg ps r (State.moveAlloc s a1 a2 a3 a4).1 := by
  induction a4 generalizing s with
  | nil => exact h
  | cons b q ih =>
    unfold State.moveAlloc
    split
    · exact h
    · next k s1 e1 => exact ih ((h.allocSet (within hs (by decide)) e1).move (within hs (by decide)))

theorem Chg.moveOpen {a1 a2 a3 a4 t} (h : Chg ps r s) (hs : [Part.free, .regs, .ledgers, .out, .hif, .srv] ⊆ ps)
    (e : State.moveOpen s a1 a2 a3 a4 = some t) : Chg ps r t := by
  unfold State.moveOpen at e
  split at e
  · cases e
  · next q hq =>
    dsimp only at e
    split at e
    · cases e
    · obtain rfl := Option.some.inj e
      exact Chg.putSrv ((h.moveAlloc (within hs (by decide))).setSeq (within hs (by decide))) (within hs (by decide))

theorem Chg.moveSet {a1 a2 a3} (h : Chg ps r s) (hs : [Part.regs, .ledgers, .out, .flt, .pow, .hif, .mem, .pan, .cad, .srv] ⊆ ps) : Chg ps r (State.moveSet s a1 a2 a3) := by
  unfold State.moveSet
  split
  · rename_i y0 y1
    exact h
  · rename_i y2 y3 y4
    split
    · rename_i y5 y6 y7 y8 y9 y10
      extract_lets -underBinder v11 v12 v13 v14 v15 v16 v17
      have hv11 : Chg ps r v11 := by
        unfold v11
        exact (h.move (within hs (by decide)))
      clear_value v11
      clear_value v12
      clear_value v13
      have hv14 : Chg ps r v14 := by
        unfold v14
        exact (Chg.ite (hv11.kvUe (within hs (by decide))) hv11)
      clear_value v14
      have hv15 : Chg ps r v15 := by
        unfold v15
        exact (hv14.copySet (within hs (by decide)))
      clear_value v15
      have hv16 : Chg ps r v16 := by
        unfold v16
        split
        · rename_i y18 y19 y20 y21 y22 y23
          exact (hv15.setPset (within hs (by decide)))
        · rename_i y24 y25 y26
          exact hv15
      clear_value v16
      have hv17 : Chg ps r v17 := by
        unfold v17
        exact (Chg.ite (hv16.poisonSet (within hs (by decide))) hv16)
      clear_value v17
      exact ((hv17.setSeq (within hs (by decide))).unlinkSet (within hs (by decide)))
    · rename_i y27 y28 y29
      exact h

theorem Chg.moveDrop {a1} (h : Chg ps r s) (hs : [Part.regs, .ledgers, .ops, .srv] ⊆ ps) : Chg ps r (State.moveDrop s a1) := by
  unfold State.moveDrop
  split
  · rename_i y0 y1
    exact h
  · rename_i y2 y3 y4
    extract_lets -underBinder v5 v6 v7
    clear_value v5
    have hv6 : Chg ps r v6 := by
      unfold v6
      exact (Chg.putSrv h (within hs (by decide)))
    clear_value v6
    have hv7 : Chg ps r v7 := by
      unfold v7
      exact (Chg.foldl hv6 (fun _ _ h8 => ((h8.move (within hs (by decide))).unlinkSet (within hs (by decide)))))
    clear_value v7
    split
    · rename_i y9 y10 y11
      exact (hv7.opEnd (within hs (by decide)))
    · rename_i y12 y13
      exact hv7

theorem Chg.parked {a1 a2} (h : Chg ps r s) (hs : [Part.srv] ⊆ ps) : Chg ps r (State.parked s a1 a2) := by
  unfold State.parked
  split
  · rename_i y0 y1
    exact h
  · rename_i y2 y3 y4
    exact (h.setSeq (within hs (by decide)))

theorem Chg.moveStart {a1 a2} (h : Chg ps r s) (hs : [Part.free, .regs, .ledgers, .out, .flt, .pow, .ops, .hif, .mem, .pan, .cad, .srv] ⊆ ps) : Chg ps r (State.moveStart s a1 a2) := by
  unfold State.moveStart
  refine Chg.withArg ?_ (fun x0 => ?_) (within hs (by decide))
  · exact h
  · split
    · rename_i y1 y2 y3
      exact (h.opEnd (within hs (by decide)))
    · rename_i y4 y5
      extract_lets -underBinder v6 v7
      clear_value v6
      clear_value v7
      split
      · rename_i y8 y9
        exact (h.opEnd (within hs (by decide)))
      · rename_i y10 y11 y12 y13
        refine Chg.ite ?_ ?_
        · exact (h.opEnd (within hs (by decide)))
        · refine Chg.ite ?_ ?_
          · exact (h.opEnd (within hs (by decide)))
          · refine Chg.ite ?_ ?_
            · exact (h.opEnd (within hs (by decide)))
            · refine Chg.ite ?_ ?_
              · exact (h.opEnd (within hs (by decide)))
              · split
                · rename_i y14 y15
                  exact (h.opEnd (within hs (by decide)))
                · rename_i y16 y17 y18
                  have hp19 : Chg ps r y17 := Chg.moveOpen (h.setOp (within hs (by decide))) (within hs (by decide)) y18
                  exact hp19

theorem Chg.freePages {a1 a2} (h : Chg ps r s) (hs : [Part.regs, .ledgers, .srv] ⊆ ps) : Chg ps r (State.freePages s a1 a2) := by
  unfold State.freePages
  split
  · rename_i y0 y1
    exact h
  · rename_i y2 y3 y4
    extract_lets -underBinder v5 v6
    have hv5 : Chg ps r v5 := by
      unfold v5
      exact (h.setSeq (within hs (by decide)))
    clear_value v5
    have hv6 : Chg ps r v6 := by
      unfold v6
      exact (Chg.foldl hv5 (fun _ _ h7 => (h7.unlinkSet (within hs (by decide)))))
    clear_value v6
    exact (Chg.ite (hv6.reclaim (within hs (by decide))) (hv6.move (within hs (by decide))))

theorem Chg.execSeqExpired {a1 a2} (h : Chg ps r s) (hs : [Part.time, .regs, .ledgers, .out, .hif, .srv] ⊆ ps) : ∃ t, execSeqExpired a1 a2 s = .next t ∧ Chg ps r t := by
  refine ⟨_, rfl, ?_⟩
  split
  · rename_i y0 y1
    exact h
  · rename_i y2 y3 y4
    refine Chg.ite ?_ ?_
    · exact h
    · extract_lets -underBinder v5 v6 v7
      have hv5 : Chg ps r v5 := by
        unfold v5
        exact ((h.at (within hs (by decide))).freePages (within hs (by decide)))
      clear_value v5
      have hv6 : Chg ps r v6 := by
        unfold v6
        split
        · rename_i y8 y9 y10
          exact (hv5.setSeq (within hs (by decide)))
        · rename_i y11 y12
          exact hv5
      clear_value v6
      have hv7 : Chg ps r v7 := by
        unfold v7
        exact (((hv6.countUp (within hs (by decide))).event (within hs (by decide))).event (within hs (by decide)))
      clear_value v7
      exact ((hv7.event (within hs (by decide))).event (within hs (by decide)))

theorem Chg.glzStart (h : Chg ps r s) (hs : [Part.regs, .ledgers] ⊆ ps) : Chg ps r (State.glzStart s) := by
  unfold State.glzStart
  extract_lets -underBinder v0 v1 v2
  have hv1 : ∀ z0 z1 z2, Chg ps r z0 → Chg ps r (v1 z0 z1 z2) := by
    intro x3 x4 x5 h6
    unfold v1
    extract_lets -underBinder v7
    clear_value v7
    exact (h6.setLedger (fun _ => rfl) (within hs (by decide)))
  have hv2 : Chg ps r v2 := by
    unfold v2
    exact (hv1 _ _ _ (hv1 _ _ _ (hv1 _ _ _ (hv1 _ _ _ (hv1 _ _ _ h)))))
  clear_value v2
  exact (Chg.foldl hv2 (fun _ _ h8 => (Chg.ite (h8.setWord (within hs (by decide))) h8)))

end Sys2Proof.Machine
end

