-- ==== Sys2Proof/Laws/Attend.lean ====
section
/-! SUPPORT. What each operation of Machine/Attend.lean touches at most, and that it keeps the ledgers and the byte stores in form (Chg). -/

namespace Sys2Proof.Machine

open Sys2Proof

variable {ps : List Part} {r s t : State}



theorem Chg.attendRun {a1 a2 a3 a4} (h : Chg ps r s) (hs : [Part.regs, .ledgers, .ops, .pan, .srv] ⊆ ps) : Chg ps r (State.attendRun s a1 a2 a3 a4) := by
  unfold State.attendRun
  extract_lets -underBinder v0
  split
  · rename_i y1 y2 y3 y4
    exact (h.opEnd (within hs (by decide)))
  · rename_i y5 y6
    refine Chg.ite ?_ ?_
    · exact (h.opEnd (within hs (by decide)))
    · extract_lets -underBinder v7 v8 v9 v10 v11 v12 v13 v14 v15 v16 v17 v18 v19
      clear_value v8
      clear_value v9
      clear_value v14
      have hv15 : Chg ps r v15 := by
        unfold v15
        refine Chg.foldl ?_ (fun a21 x22 h23 => ?_)
        · exact h
        · split
          · rename_i y24 y25 y26
            exact (h23.setPset (within hs (by decide)))
          · rename_i y27 y28
            exact h23
      clear_value v15
      have hv17 : Chg ps r v17 := by
        unfold v17
        exact (Chg.putSrv hv15 (within hs (by decide)))
      clear_value v17
      have hv19 : Chg ps r v19 := by
        unfold v19
        exact (hv17.queueWork (within hs (by decide)))
      clear_value v19
      exact (Chg.ite (h.opEnd (within hs (by decide))) (hv19.holdWait (within hs (by decide))))

theorem Chg.attendStart {a1 a2} (h : Chg ps r s) (hs : [Part.regs, .ledgers, .out, .flt, .pow, .ops, .hif, .mem, .pan, .cad, .srv] ⊆ ps) : Chg ps r (State.attendStart s a1 a2) := by
  unfold State.attendStart
  refine h.withArg (fun a => ?_) (within hs (by decide))
  generalize State.glzArgFault _ _ _ _ = o1
  generalize State.attArgFault _ _ = o2
  generalize e : State.glzRows _ _ _ _ = o
  cases o1 with
  | some d => exact h.opEnd (within hs (by decide))
  | none =>
    cases o2 with
    | some d => exact h.opEnd (within hs (by decide))
    | none =>
      cases o with
      | error x => exact (h.glzRows (within hs (by decide)) e).opEnd (within hs (by decide))
      | ok rows => exact h.attendRun (within hs (by decide))

theorem Chg.execAttend {a1 a2} (h : Chg ps r s) (hs : [Part.time, .regs, .ledgers, .out, .flt, .pow, .ops, .hif, .mem, .pan, .cad, .srv] ⊆ ps) : ∃ t, execAttend a1 a2 s = .next t ∧ Chg ps r t := by
  refine ⟨_, rfl, ?_⟩
  exact (h.issue (fun _ _ h0 => (Chg.ite (h0.attendStart (within hs (by decide))) h)) (within hs (by decide)))

theorem Chg.setAtt {a1 a2} (h : Chg ps r s) (hs : [Part.srv] ⊆ ps) : Chg ps r (State.setAtt s a1 a2) :=
  (Chg.putSrv h (within hs (by decide)))

theorem Chg.attItem {a1 a2 a3 a4 a5} (h : Chg ps r s) (hs : [Part.regs, .ledgers, .out, .flt, .pow, .ops, .hif, .mem, .pan, .cad, .srv] ⊆ ps) : Chg ps r (State.attItem s a1 a2 a3 a4 a5).1 := by
  unfold State.attItem
  split
  · rename_i y0 y1
    exact h
  · rename_i y2 y3 y4
    extract_lets -underBinder v5 v6 v7 v8 v9 v10 v11 v12 v13 v14 v15 v16
    clear_value v5
    clear_value v6
    clear_value v7
    clear_value v8
    clear_value v9
    clear_value v10
    clear_value v11
    clear_value v12
    clear_value v13
    clear_value v14
    clear_value v15
    clear_value v16
    split
    · rename_i y17 y18 y19 y20 y21
      exact (h.mmuFault (within hs (by decide)))
    · rename_i y22 y23 y24 y25 y26 y27 y28 y29
      exact (h.mmuFault (within hs (by decide)))
    · rename_i y30 y31 y32 y33 y34 y35
      refine Chg.iteFst ?_ ?_
      · exact h
      · extract_lets -underBinder v36 v37 v38 v39 v40 v41 v42 v43 v44 v45 v46 v47 v48 v49 v50
        clear_value v36
        clear_value v37
        clear_value v38
        clear_value v40
        clear_value v41
        clear_value v42
        clear_value v43
        clear_value v44
        have hv45 : Chg ps r v45 := by
          unfold v45
          exact ((h.useWindow (within hs (by decide))).writeDva (within hs (by decide)))
        clear_value v45
        have hv46 : Chg ps r v46 := by
          unfold v46
          exact (Chg.foldl hv45 (fun _ _ h51 => (h51.kvUe (within hs (by decide)))))
        clear_value v46
        clear_value v47
        clear_value v48
        clear_value v49
        have hv50 : Chg ps r v50 := by
          unfold v50
          exact (hv46.setAtt (within hs (by decide)))
        clear_value v50
        dsimp only
        split
        · rename_i y52 y53 y54
          exact (Chg.ite (hv50.setOp (within hs (by decide))) hv50)
        · rename_i y55 y56
          exact hv50

theorem Chg.attItems {a1 a2 a3 a4} (h : Chg ps r s) (hs : [Part.free, .regs, .ledgers, .out, .flt, .pow, .ops, .hif, .mem, .pan, .cad, .srv] ⊆ ps) : Chg ps r (State.attItems s a1 a2 a3 a4).1 := by
  induction a4 generalizing s with
  | nil => exact h
  | cons e l ih =>
    unfold State.attItems
    split
    · next s1 f e1 => exact Chg.fst (h.attItem (within hs (by decide))) e1
    · next s1 e1 => exact ih (Chg.fst (h.attItem (within hs (by decide))) e1)

theorem Chg.scoreRows {a1 a2} (h : Chg ps r s) (hs : [Part.srv] ⊆ ps) : Chg ps r (State.scoreRows s a1 a2) := by
  unfold State.scoreRows
  refine Chg.ite ?_ ?_
  · exact h
  · extract_lets -underBinder v0
    refine Chg.foldl ?_ (fun a2 x3 h4 => ?_)
    · exact h
    · extract_lets -underBinder v5
      split
      · rename_i y6 y7
        exact h4
      · rename_i y8 y9 y10
        split
        · rename_i y11 y12
          exact h4
        · rename_i y13 y14 y15
          exact (Chg.ite h4 (h4.setSeq (within hs (by decide))))

theorem Chg.tellPoison {a1} (h : Chg ps r s) (hs : [Part.regs, .out, .hif, .srv] ⊆ ps) : Chg ps r (State.tellPoison s a1) := by
  unfold State.tellPoison
  extract_lets -underBinder v0
  clear_value v0
  refine Chg.foldl ?_ (fun a2 x3 h4 => ?_)
  · exact h
  · extract_lets -underBinder v5
    split
    · rename_i y6 y7
      exact h4
    · rename_i y8 y9 y10
      split
      · rename_i y11 y12
        exact h4
      · rename_i y13 y14 y15
        exact ((h4.setSeq (within hs (by decide))).event (within hs (by decide)))

theorem Chg.attEnd {a1 a2 a3 a4} (h : Chg ps r s) (hs : [Part.regs, .ledgers, .ops, .pan, .srv] ⊆ ps) : Chg ps r (State.attEnd s a1 a2 a3 a4) :=
  (Chg.foldl (h.glzEnd (within hs (by decide))) (fun _ _ h0 => (h0.workOff (within hs (by decide)))))

theorem Chg.scratchFill {a1 a2 a3 a4} (h : Chg ps r s) (hs : [Part.free, .mem] ⊆ ps) : Chg ps r (State.scratchFill s a1 a2 a3 a4) := by
  unfold State.scratchFill
  extract_lets -underBinder v0 v1 v2 v3 v4
  clear_value v3
  have hv4 : Chg ps r v4 := by
    unfold v4
    exact (h.palWrite (within hs (by decide)))
  clear_value v4
  exact (Chg.putFree hv4 (within hs (by decide)))

theorem Chg.attLayer {a1 a2 a3 a4} (h : Chg ps r s) (hs : [Part.free, .regs, .wide, .ledgers, .out, .flt, .pow, .ops, .hif, .mem, .pan, .cad, .srv] ⊆ ps) : Chg ps r (State.attLayer s a1 a2 a3 a4) := by
  unfold State.attLayer
  extract_lets -underBinder v0 v1 v2 v3 v4 v5 v6
  clear_value v2
  clear_value v6
  split
  · rename_i y7 y8
    exact (h.attEnd (within hs (by decide)))
  · rename_i y9
    extract_lets -underBinder v10 v11 v12 v13
    clear_value v12
    have hv13 : Chg ps r v13 := by
      unfold v13
      exact (Chg.ite (h.scratchFill (within hs (by decide))) h)
    clear_value v13
    split
    · rename_i y14 y15 y16 y17 y18
      refine Chg.attEnd ?_ (within hs (by decide))
      exact Chg.fst (hv13.attItems (within hs (by decide))) y18
    · rename_i y19 y20 y21
      extract_lets -underBinder v22 v23 v24
      have hv23 : Chg ps r v23 := by
        unfold v23
        refine Chg.countUp ?_ (within hs (by decide))
        refine Chg.used ?_ (within hs (by decide))
        refine Chg.setWide ?_ (within hs (by decide))
        exact Chg.fst (hv13.attItems (within hs (by decide))) y21
      clear_value v23
      have hv24 : Chg ps r v24 := by
        unfold v24
        exact (hv23.setWork (within hs (by decide)))
      clear_value v24
      split
      · rename_i y25 y26 y27 y28 y29 y30
        extract_lets -underBinder v31 v32 v33
        clear_value v31
        have hv32 : Chg ps r v32 := by
          unfold v32
          exact ((hv24.setAtt (within hs (by decide))).layerSignal (within hs (by decide)))
        clear_value v32
        have hv33 : Chg ps r v33 := by
          unfold v33
          exact ((hv32.scoreRows (within hs (by decide))).tellPoison (within hs (by decide)))
        clear_value v33
        refine Chg.ite ?_ ?_
        · exact (hv24.setAtt (within hs (by decide)))
        · refine Chg.ite ?_ ?_
          · exact hv32
          · split
            · rename_i y34 y35 y36
              exact (hv33.attEnd (within hs (by decide)))
            · rename_i y37 y38
              exact (hv33.attEnd (within hs (by decide)))
      · rename_i y39 y40 y41
        exact hv24

theorem Chg.execAttendLayerStep {a1 a2} (h : Chg ps r s) (hs : [Part.free, .time, .regs, .wide, .ledgers, .out, .flt, .pow, .ops, .hif, .mem, .pan, .cad, .srv] ⊆ ps) : ∃ t, execAttendLayerStep a1 a2 s = .next t ∧ Chg ps r t := by
  refine ⟨_, rfl, ?_⟩
  split
  · rename_i y0 y1
    exact h
  · rename_i y2 y3 y4
    split
    · rename_i y5 y6 y7 y8 y9 y10
      exact (Chg.ite h (Chg.ite h (Chg.ite ((h.at (within hs (by decide))).attEnd (within hs (by decide))) (Chg.ite h ((h.at (within hs (by decide))).attLayer (within hs (by decide)))))))
    · rename_i y11 y12 y13
      exact h

end Sys2Proof.Machine
end

