-- ==== Sys2Proof/Laws/Diptych.lean ====
section
/-! SUPPORT. What each operation of Machine/Diptych.lean touches at most, and that it keeps the ledgers and the byte stores in form (Chg). -/

namespace Sys2Proof.Machine

open Sys2Proof

variable {ps : List Part} {r s t : State}



theorem Chg.sendPairing (h : Chg ps r s) (hs : [Part.ledgers, .out, .cad] ⊆ ps) : Chg ps r (State.sendPairing s) :=
  (h.dipSend (within hs (by decide)))

theorem Chg.pairingFrame {a1 a2 a3 a4} (h : Chg ps r s) (hs : [Part.regs, .wide, .ledgers, .out, .hif, .cad] ⊆ ps) : Chg ps r (State.pairingFrame s a1 a2 a3 a4) := by
  unfold State.pairingFrame
  extract_lets -underBinder v0 v1 v2 v3
  have hv0 : Chg ps r v0 := by
    unfold v0
    exact (h.setWide (within hs (by decide)))
  clear_value v0
  have hv2 : Chg ps r v2 := by
    unfold v2
    exact ((hv0.setFld (within hs (by decide))).event (within hs (by decide)))
  clear_value v2
  have hv3 : Chg ps r v3 := by
    unfold v3
    exact (hv0.setFld (within hs (by decide)))
  clear_value v3
  exact (Chg.ite (Chg.ite hv2 (hv2.setRole (within hs (by decide)))) (Chg.ite hv3 (Chg.ite (hv3.setRole (within hs (by decide))) (Chg.ite (hv3.setRole (within hs (by decide))) (Chg.ite (hv3.setRole (within hs (by decide))) (Chg.ite (hv3.setRole (within hs (by decide))) (hv3.setRole (within hs (by decide)))))))))

theorem Chg.execPairingFrame {a1 a2 a3 a4} (h : Chg ps r s) (hs : [Part.regs, .wide, .ledgers, .out, .hif, .cad] ⊆ ps) : ∃ t, execPairingFrame a1 a2 a3 a4 s = .next t ∧ Chg ps r t := by
  refine ⟨_, rfl, ?_⟩
  exact (Chg.ite (h.pairingFrame (within hs (by decide))) h)

theorem Chg.regWrite {a1 a2 a3} (h : Chg ps r s) (hs : [Part.regs, .ledgers, .out, .flt, .pow, .hif, .mem, .pan, .cad] ⊆ ps) : Chg ps r (State.regWrite s a1 a2 a3) := by
  unfold State.regWrite
  refine Chg.ite ?_ ?_
  · extract_lets -underBinder v0
    clear_value v0
    exact (Chg.foldl h (fun _ _ h1 => (h1.palWrite (within hs (by decide)))))
  · refine Chg.ite ?_ ?_
    · extract_lets -underBinder v2
      clear_value v2
      generalize State.writeFault _ _ _ _ = o3
      split
      · rename_i y4 y5 y6
        exact (h.mmuFault (within hs (by decide)))
      · rename_i y7
        exact (h.writeDva (within hs (by decide)))
    · exact h

theorem Chg.snapDrop (h : Chg ps r s) (hs : [Part.regs, .out, .hif] ⊆ ps) : Chg ps r (State.snapDrop s) :=
  ((h.event (within hs (by decide))).countUp (within hs (by decide)))

theorem Chg.lastSnapIs {a1 a2} (h : Chg ps r s) (hs : [Part.regs, .cad] ⊆ ps) : Chg ps r (State.lastSnapIs s a1 a2) :=
  ((h.setDip (within hs (by decide))).setFld (within hs (by decide)))

theorem Chg.regsWrite {a1 a2 a3} (h : Chg ps r s) (hs : [Part.regs, .ledgers, .out, .flt, .pow, .hif, .mem, .pan, .cad] ⊆ ps) : Chg ps r (State.regsWrite s a1 a2 a3) := by
  unfold State.regsWrite
  split
  · rename_i y0 y1 y2 y3
    exact ((h.mmuFault (within hs (by decide))).snapDrop (within hs (by decide)))
  · rename_i y4 y5
    refine Chg.lastSnapIs ?_ (within hs (by decide))
    refine Chg.foldlFst ?_ (fun a6 x7 h8 => ?_)
    · exact h
    · exact (h8.regWrite (within hs (by decide)))

theorem Chg.standbyCheck (h : Chg ps r s) (hs : [Part.regs, .ledgers, .out, .hif, .cad] ⊆ ps) : Chg ps r (State.standbyCheck s) :=
  (Chg.ite (h.setRole (within hs (by decide))) h)

theorem Chg.execHeartbeatSend {a1} (h : Chg ps r s) (hs : [Part.time, .regs, .ledgers, .out, .cad] ⊆ ps) : ∃ t, execHeartbeatSend a1 s = .next t ∧ Chg ps r t := by
  refine ⟨_, rfl, ?_⟩
  exact (Chg.ite ((h.at (within hs (by decide))).heartbeat (within hs (by decide))) h)

theorem Chg.shiftDom {a1 a2} (h : Chg ps r s) (hs : [Part.cad] ⊆ ps) : Chg ps r (State.shiftDom s a1 a2) := by
  unfold State.shiftDom
  extract_lets -underBinder v0 v1 v2 v3
  clear_value v0
  clear_value v1
  clear_value v3
  exact (h.setDom (within hs (by decide)))

theorem Chg.alignTo {a1} (h : Chg ps r s) (hs : [Part.free, .regs, .ledgers, .out, .hif, .cad] ⊆ ps) : Chg ps r (State.alignTo s a1) := by
  unfold State.alignTo
  extract_lets -underBinder v0 v1 v2 v3 v4
  clear_value v0
  have hv1 : Chg ps r v1 := by
    unfold v1
    exact (Chg.foldl h (fun _ _ h5 => (((h5.shiftDom (within hs (by decide))).used (within hs (by decide))).showDom (within hs (by decide)))))
  clear_value v1
  have hv4 : Chg ps r v4 := by
    unfold v4
    exact (h.setFld (within hs (by decide)))
  clear_value v4
  exact (Chg.ite ((hv1.setDip (within hs (by decide))).setFld (within hs (by decide))) (Chg.ite (Chg.ite (hv4.setRole (within hs (by decide))) hv4) (h.setFld (within hs (by decide)))))

theorem Chg.heardRole {a1} (h : Chg ps r s) (hs : [Part.regs, .ledgers, .out, .hif, .cad] ⊆ ps) : Chg ps r (State.heardRole s a1) :=
  (Chg.ite ((h.event (within hs (by decide))).setRole (within hs (by decide))) (Chg.ite (h.setRole (within hs (by decide))) (Chg.ite (h.setRole (within hs (by decide))) h)))

theorem Chg.followWords {a1} (h : Chg ps r s) (hs : [Part.regs] ⊆ ps) : Chg ps r (State.followWords s a1) :=
  (Chg.ite h (Chg.foldl h (fun _ _ h0 => (Chg.ite (h0.resultOuts (within hs (by decide))) h0))))

theorem Chg.execHeartbeatReceive {a1 a2 a3 a4 a5 a6} (h : Chg ps r s) (hs : [Part.free, .time, .regs, .ledgers, .out, .hif, .cad] ⊆ ps) : ∃ t, execHeartbeatReceive a1 a2 a3 a4 a5 a6 s = .next t ∧ Chg ps r t := by
  refine ⟨_, rfl, ?_⟩
  refine Chg.ite ?_ ?_
  · exact h
  · extract_lets -underBinder v0 v1 v2 v3 v4 v5 v6
    have hv0 : Chg ps r v0 := by
      unfold v0
      exact (h.at (within hs (by decide)))
    clear_value v0
    clear_value v3
    have hv5 : Chg ps r v5 := by
      unfold v5
      exact ((hv0.setDip (within hs (by decide))).setFld (within hs (by decide)))
    clear_value v5
    have hv6 : Chg ps r v6 := by
      unfold v6
      exact (Chg.ite (hv5.alignTo (within hs (by decide))) hv5)
    clear_value v6
    exact (((hv6.heardRole (within hs (by decide))).standbyCheck (within hs (by decide))).followWords (within hs (by decide)))

theorem Chg.execHbMiss {a1} (h : Chg ps r s) (hs : [Part.time, .regs, .ledgers, .out, .hif, .cad] ⊆ ps) : ∃ t, execHbMiss a1 s = .next t ∧ Chg ps r t := by
  refine ⟨_, rfl, ?_⟩
  refine Chg.ite ?_ ?_
  · exact h
  · extract_lets -underBinder v0 v1 v2 v3
    have hv0 : Chg ps r v0 := by
      unfold v0
      exact (h.at (within hs (by decide)))
    clear_value v0
    have hv3 : Chg ps r v3 := by
      unfold v3
      exact (((hv0.setDip (within hs (by decide))).countUp (within hs (by decide))).event (within hs (by decide)))
    clear_value v3
    exact (Chg.ite (hv3.setRole (within hs (by decide))) (Chg.ite (hv3.setRole (within hs (by decide))) (Chg.ite (hv3.setRole (within hs (by decide))) hv3)))

theorem Chg.sendSnap {a1 a2 a3} (h : Chg ps r s) (hs : [Part.regs, .ledgers, .out, .hif, .cad] ⊆ ps) : Chg ps r (State.sendSnap s a1 a2 a3) := by
  unfold State.sendSnap
  extract_lets -underBinder v0 v1 v2 v3
  clear_value v0
  have hv1 : Chg ps r v1 := by
    unfold v1
    exact (h.setInst (within hs (by decide)))
  clear_value v1
  clear_value v2
  have hv3 : Chg ps r v3 := by
    unfold v3
    exact (hv1.setDip (within hs (by decide)))
  clear_value v3
  split
  · rename_i y4 y5
    exact (hv3.snapDrop (within hs (by decide)))
  · rename_i y6 y7 y8
    extract_lets -underBinder v9 v10 v11
    clear_value v9
    clear_value v10
    clear_value v11
    exact (((hv3.setDip (within hs (by decide))).dipSend (within hs (by decide))).lastSnapIs (within hs (by decide)))

theorem Chg.execSnapshotStart {a1 a2} (h : Chg ps r s) (hs : [Part.regs, .ledgers, .out, .hif, .cad] ⊆ ps) : ∃ t, execSnapshotStart a1 a2 s = .next t ∧ Chg ps r t := by
  refine ⟨_, rfl, ?_⟩
  split
  · rename_i y0 y1
    exact h
  · rename_i y2 y3 y4
    refine Chg.ite ?_ ?_
    · exact h
    · split
      · rename_i y5 y6 y7
        exact (h.sendSnap (within hs (by decide)))
      · rename_i y8 y9 y10 y11 y12
        exact (h.setDip (within hs (by decide)))
      · rename_i y13 y14 y15 y16 y17 y18
        refine Chg.ite ?_ ?_
        · exact h
        · extract_lets -underBinder v19 v20 v21
          clear_value v19
          have hv20 : Chg ps r v20 := by
            unfold v20
            exact ((h.setInst (within hs (by decide))).snapDrop (within hs (by decide)))
          clear_value v20
          exact (hv20.setDip (within hs (by decide)))

theorem Chg.execSnapshotReceive {a1 a2 a3 a4 a5} (h : Chg ps r s) (hs : [Part.regs, .ledgers, .out, .flt, .pow, .hif, .mem, .pan, .cad] ⊆ ps) : ∃ t, execSnapshotReceive a1 a2 a3 a4 a5 s = .next t ∧ Chg ps r t := by
  refine ⟨_, rfl, ?_⟩
  refine Chg.ite ?_ ?_
  · exact h
  · refine Chg.ite ?_ ?_
    · exact (h.snapDrop (within hs (by decide)))
    · extract_lets -underBinder v0 v1 v2
      clear_value v0
      clear_value v1
      have hv2 : Chg ps r v2 := by
        unfold v2
        exact (Chg.ite ((h.setDip (within hs (by decide))).regsWrite (within hs (by decide))) (h.setDip (within hs (by decide))))
      clear_value v2
      exact (hv2.standbyCheck (within hs (by decide)))

theorem Chg.execSnapshotCompare {a1} (h : Chg ps r s) (hs : [Part.regs, .ledgers, .out, .flt, .pow, .hif, .mem, .pan, .cad] ⊆ ps) : ∃ t, execSnapshotCompare a1 s = .next t ∧ Chg ps r t := by
  refine ⟨_, rfl, ?_⟩
  split
  · rename_i y0 y1
    exact h
  · rename_i y2 y3 y4
    extract_lets -underBinder v5 v6 v7
    clear_value v5
    clear_value v6
    have hv7 : Chg ps r v7 := by
      unfold v7
      exact (h.setDip (within hs (by decide)))
    clear_value v7
    exact (Chg.ite h (Chg.ite (hv7.lastSnapIs (within hs (by decide))) (((hv7.regsWrite (within hs (by decide))).event (within hs (by decide))).countUp (within hs (by decide)))))

theorem Chg.dipCmd {a1} (h : Chg ps r s) (hs : [Part.regs, .rsv, .ledgers, .out, .hif, .cad] ⊆ ps) : Chg ps r (State.dipCmd s a1) := by
  unfold State.dipCmd
  extract_lets -underBinder v0 v1 v2
  have hv0 : Chg ps r v0 := by
    unfold v0
    exact (h.noteRsv (within hs (by decide)))
  clear_value v0
  refine Chg.ite ?_ ?_
  · exact (hv0.discard (within hs (by decide)))
  · refine Chg.ite ?_ ?_
    · split
      · rename_i y3 y4 y5
        exact (hv0.setDip (within hs (by decide)))
      · rename_i y6 y7
        exact (hv0.discard (within hs (by decide)))
    · exact (Chg.ite (hv0.setRole (within hs (by decide))) (hv0.discard (within hs (by decide))))

theorem Chg.execHandover {a1 a2} (h : Chg ps r s) (hs : [Part.time, .regs, .rsv, .ledgers, .out, .hif, .cad] ⊆ ps) : ∃ t, execHandover a1 a2 s = .next t ∧ Chg ps r t := by
  refine ⟨_, rfl, ?_⟩
  exact (h.via (fun _ h0 => ((h0.at (within hs (by decide))).dipCmd (within hs (by decide)))) (within hs (by decide)))

theorem Chg.execTakeActive {a1 a2} (h : Chg ps r s) (hs : [Part.time, .regs, .rsv, .ledgers, .out, .hif, .cad] ⊆ ps) : ∃ t, execTakeActive a1 a2 s = .next t ∧ Chg ps r t := by
  refine ⟨_, rfl, ?_⟩
  exact (h.via (fun _ h0 => ((h0.at (within hs (by decide))).dipCmd (within hs (by decide)))) (within hs (by decide)))

theorem Chg.execVarDipPeerSerialRead (h : Chg ps r s) (hs : [Part.regs, .reply] ⊆ ps) : ∃ t, execVarDipPeerSerialRead s = .next t ∧ Chg ps r t := by
  refine ⟨_, rfl, ?_⟩
  exact (h.via (fun _ h0 => (h0.readWide (within hs (by decide)))) (within hs (by decide)))

theorem Chg.dipAcked {a1} (h : Chg ps r s) (hs : [Part.ledgers, .out, .cad] ⊆ ps) : Chg ps r (State.dipAcked s a1) := by
  unfold State.dipAcked
  extract_lets -underBinder v0 v1 v2 v3
  clear_value v0
  clear_value v1
  clear_value v2
  have hv3 : Chg ps r v3 := by
    unfold v3
    exact ((h.move (within hs (by decide))).move (within hs (by decide)))
  clear_value v3
  exact ((hv3.setDip (within hs (by decide))).dipPump (within hs (by decide)))

theorem Chg.execDiptychFrameReceive {a1 a2 a3 a4} (h : Chg ps r s) (hs : [Part.regs, .ledgers, .out, .flt, .pow, .hif, .pan, .cad] ⊆ ps) : ∃ t, execDiptychFrameReceive a1 a2 a3 a4 s = .next t ∧ Chg ps r t := by
  refine ⟨_, rfl, ?_⟩
  refine Chg.ite ?_ ?_
  · exact h
  · extract_lets -underBinder v0 v1 v2
    have hv0 : Chg ps r v0 := by
      unfold v0
      exact (h.dipAcked (within hs (by decide)))
    clear_value v0
    have hv2 : Chg ps r v2 := by
      unfold v2
      exact (hv0.setDip (within hs (by decide)))
    clear_value v2
    exact (Chg.ite hv0 (Chg.ite (hv2.report (within hs (by decide))) hv2))

theorem Chg.execDiptychRetryTimeout {a1} (h : Chg ps r s) (hs : [Part.regs, .ledgers, .out, .flt, .pow, .hif, .pan, .cad] ⊆ ps) : ∃ t, execDiptychRetryTimeout a1 s = .next t ∧ Chg ps r t := by
  refine ⟨_, rfl, ?_⟩
  split
  · rename_i y0 y1
    exact h
  · rename_i y2 y3 y4 y5
    exact (Chg.ite h (Chg.ite (((h.setDip (within hs (by decide))).setFld (within hs (by decide))).report (within hs (by decide))) ((h.setDip (within hs (by decide))).emit (within hs (by decide)))))

theorem Chg.dipLaneSwap {a1} (h : Chg ps r s) (hs : [Part.regs, .ledgers, .out, .flt, .pow, .hif, .pan, .cad] ⊆ ps) : Chg ps r (State.dipLaneSwap s a1) := by
  unfold State.dipLaneSwap
  refine Chg.ite ?_ ?_
  · exact h
  · extract_lets -underBinder v0
    have hv0 : Chg ps r v0 := by
      unfold v0
      exact ((h.setFld (within hs (by decide))).report (within hs (by decide)))
    clear_value v0
    exact (hv0.journal (within hs (by decide)))

theorem Chg.execDiptychLaneSwap {a1} (h : Chg ps r s) (hs : [Part.regs, .ledgers, .out, .flt, .pow, .hif, .pan, .cad] ⊆ ps) : ∃ t, execDiptychLaneSwap a1 s = .next t ∧ Chg ps r t := by
  refine ⟨_, rfl, ?_⟩
  exact (h.dipLaneSwap (within hs (by decide)))

theorem Chg.execDiptychLinkDown {a1} (h : Chg ps r s) (hs : [Part.regs, .out, .hif] ⊆ ps) : ∃ t, execDiptychLinkDown a1 s = .next t ∧ Chg ps r t := by
  refine ⟨_, rfl, ?_⟩
  refine Chg.ite ?_ ?_
  · exact h
  · extract_lets -underBinder v0
    have hv0 : Chg ps r v0 := by
      unfold v0
      exact ((h.setFld (within hs (by decide))).event (within hs (by decide)))
    clear_value v0
    exact (Chg.ite (hv0.snapDrop (within hs (by decide))) hv0)

theorem Chg.execDiptychLinkDownTimeout (h : Chg ps r s) (hs : [Part.regs, .ledgers, .out, .hif, .cad] ⊆ ps) : ∃ t, execDiptychLinkDownTimeout s = .next t ∧ Chg ps r t := by
  refine ⟨_, rfl, ?_⟩
  refine Chg.ite ?_ ?_
  · exact h
  · extract_lets -underBinder v0 v1 v2
    have hv0 : Chg ps r v0 := by
      unfold v0
      exact ((h.reclaim (within hs (by decide))).reclaim (within hs (by decide)))
    clear_value v0
    have hv2 : Chg ps r v2 := by
      unfold v2
      exact (hv0.setDip (within hs (by decide)))
    clear_value v2
    exact (Chg.ite (hv2.snapDrop (within hs (by decide))) hv2)

theorem Chg.execDiptychLinkUp (h : Chg ps r s) (hs : [Part.regs, .ledgers, .out, .hif, .cad] ⊆ ps) : ∃ t, execDiptychLinkUp s = .next t ∧ Chg ps r t := by
  refine ⟨_, rfl, ?_⟩
  refine Chg.ite ?_ ?_
  · exact h
  · extract_lets -underBinder v0
    have hv0 : Chg ps r v0 := by
      unfold v0
      exact ((h.setFld (within hs (by decide))).event (within hs (by decide)))
    clear_value v0
    exact (hv0.sendPairing (within hs (by decide)))

theorem Chg.dipStart (h : Chg ps r s) (hs : [Part.regs, .ledgers, .out, .hif, .cad] ⊆ ps) : Chg ps r (State.dipStart s) := by
  unfold State.dipStart
  extract_lets -underBinder v0 v1 v2
  clear_value v0
  clear_value v1
  have hv2 : Chg ps r v2 := by
    unfold v2
    exact (((h.setDip (within hs (by decide))).setRole (within hs (by decide))).roleOut (within hs (by decide)))
  clear_value v2
  exact (((hv2.setFld (within hs (by decide))).setFld (within hs (by decide))).sendPairing (within hs (by decide)))

end Sys2Proof.Machine
end

