-- ==== Sys2Proof/Laws/Memory.lean ====
section
/-! SUPPORT. What each operation of Machine/Memory.lean touches at most, and that it keeps the ledgers and the byte stores in form (Chg). -/

namespace Sys2Proof.Machine

open Sys2Proof

variable {ps : List Part} {r s t : State}



theorem Chg.handoverStart {a1 a2} (h : Chg ps r s) (hs : [Part.regs, .ledgers, .mem] ⊆ ps) : Chg ps r (State.handoverStart s a1 a2) := by
  unfold State.handoverStart
  extract_lets -underBinder v0 v1 v2 v3
  have hv1 : Chg ps r v1 := by
    unfold v1
    exact (h.setFld (within hs (by decide)))
  clear_value v1
  have hv2 : Chg ps r v2 := by
    unfold v2
    exact (hv1.move (within hs (by decide)))
  clear_value v2
  exact (Chg.putMem hv2 (within hs (by decide)) ⟨rfl, rfl, rfl, rfl, rfl⟩)

theorem Chg.stuBankWrite {a1 a2} (h : Chg ps r s) (hs : [Part.regs, .ledgers, .out, .hif, .mem] ⊆ ps) : Chg ps r (State.stuBankWrite s a1 a2) := by
  unfold State.stuBankWrite
  extract_lets -underBinder v0 v1
  exact (Chg.ite (h.discard (within hs (by decide))) (Chg.ite (h.handoverStart (within hs (by decide))) (Chg.ite (h.handoverStart (within hs (by decide))) h)))

theorem Chg.handoverEnd {a1 a2} (h : Chg ps r s) (hs : [Part.regs, .ledgers, .out, .hif, .mem] ⊆ ps) : Chg ps r (State.handoverEnd s a1 a2) := by
  unfold State.handoverEnd
  extract_lets -underBinder v0 v1 v2 v3 v4
  have hv1 : Chg ps r v1 := by
    unfold v1
    exact (Chg.ite (h.memZero (within hs (by decide))) h)
  clear_value v1
  have hv2 : Chg ps r v2 := by
    unfold v2
    exact (((hv1.setFld (within hs (by decide))).setFld (within hs (by decide))).setFld (within hs (by decide)))
  clear_value v2
  have hv3 : Chg ps r v3 := by
    unfold v3
    exact (Chg.ite (hv2.reclaim (within hs (by decide))) (hv2.move (within hs (by decide))))
  clear_value v3
  refine Chg.event ?_ (within hs (by decide))
  exact (Chg.putMem hv3 (within hs (by decide)) ⟨rfl, rfl, rfl, rfl, rfl⟩)

theorem Chg.execBankHandover {a1 a2} (h : Chg ps r s) (hs : [Part.regs, .rsv, .ledgers, .out, .hif, .mem] ⊆ ps) : ∃ t, execBankHandover a1 a2 s = .next t ∧ Chg ps r t := by
  refine ⟨_, rfl, ?_⟩
  exact (h.via (fun _ h0 => ((h0.noteRsv (within hs (by decide))).stuBankWrite (within hs (by decide)))) (within hs (by decide)))

theorem Chg.execBankGuestChange {a1 a2} (h : Chg ps r s) (hs : [Part.regs, .ledgers, .out, .hif, .mem] ⊆ ps) : ∃ t, execBankGuestChange a1 a2 s = .next t ∧ Chg ps r t := by
  refine ⟨_, rfl, ?_⟩
  exact (h.via (fun _ h0 => (h0.stuBankWrite (within hs (by decide)))) (within hs (by decide)))

theorem Chg.execHandoverDone {a1} (h : Chg ps r s) (hs : [Part.regs, .ledgers, .out, .hif, .mem] ⊆ ps) : ∃ t, execHandoverDone a1 s = .next t ∧ Chg ps r t := by
  refine ⟨_, rfl, ?_⟩
  split
  · rename_i y0 y1 y2
    exact (h.handoverEnd (within hs (by decide)))
  · rename_i y3 y4
    exact h

theorem Chg.marchGo {a1} (h : Chg ps r s) (hs : [Part.regs, .ledgers, .mem] ⊆ ps) : Chg ps r (State.marchGo s a1) := by
  unfold State.marchGo
  extract_lets pg base n destr m v mm s1
  have hv : Chg ps r v := h.setWord (within hs (by decide))
  have h1 : Chg ps r s1 := hv.putMem (within hs (by decide)) ⟨rfl, rfl, rfl, rfl, rfl⟩
  clear_value s1
  exact Chg.ite h1 (Chg.ite ((h1.setFld (within hs (by decide))).move (within hs (by decide))) (h1.setFrames (within hs (by decide))))

theorem Chg.marchCmd {a1 a2} (h : Chg ps r s) (hs : [Part.regs, .ledgers, .out, .hif, .mem] ⊆ ps) : Chg ps r (State.marchCmd s a1 a2) := by
  unfold State.marchCmd
  extract_lets -underBinder v0
  exact (Chg.ite h (Chg.ite (h.discard (within hs (by decide))) (Chg.ite ((h.setFld (within hs (by decide))).discard (within hs (by decide))) (h.marchGo (within hs (by decide))))))

theorem Chg.execMarchStart {a1 a2} (h : Chg ps r s) (hs : [Part.regs, .rsv, .ledgers, .out, .hif, .mem] ⊆ ps) : ∃ t, execMarchStart a1 a2 s = .next t ∧ Chg ps r t := by
  refine ⟨_, rfl, ?_⟩
  exact (h.via (fun _ h0 => ((h0.noteRsv (within hs (by decide))).marchCmd (within hs (by decide)))) (within hs (by decide)))

theorem Chg.retireLater {a1} (h : Chg ps r s) (hs : [Part.mem] ⊆ ps) : Chg ps r (State.retireLater s a1) := by
  unfold State.retireLater
  refine Chg.ite ?_ ?_
  · exact h
  · exact (Chg.putMem h (within hs (by decide)) ⟨rfl, rfl, rfl, rfl, rfl⟩)

theorem Chg.marchEnd {a1 a2 a3} (h : Chg ps r s) (hs : [Part.regs, .wide, .ledgers, .out, .flt, .hif, .mem] ⊆ ps) : Chg ps r (State.marchEnd s a1 a2 a3) := by
  unfold State.marchEnd
  extract_lets pg st v mm s1 s2 s3 s4
  have hv : Chg ps r v := h.setWord (within hs (by decide))
  have h1 : Chg ps r s1 := hv.putMem (within hs (by decide)) ⟨rfl, rfl, rfl, rfl, rfl⟩
  clear_value s1
  have h2 : Chg ps r s2 := by
    unfold s2
    split
    · exact h1
    · exact h1.setWide (within hs (by decide))
  clear_value s2
  have h3 : Chg ps r s3 := Chg.ite (Chg.ite (((h2.memZero (within hs (by decide))).setFld (within hs (by decide))).move (within hs (by decide)))
    ((h2.foldl (fun _ _ ha => ha.zeroFrame (within hs (by decide)))).freeFrames (within hs (by decide)))) h2
  clear_value s3
  have h4 : Chg ps r s4 := Chg.ite (h3.foldl (fun _ _ ha => ha.retireLater (within hs (by decide)))) h3
  exact h4.event (within hs (by decide))

theorem Chg.execMarchDone {a1 a2} (h : Chg ps r s) (hs : [Part.regs, .wide, .ledgers, .out, .flt, .hif, .mem] ⊆ ps) : ∃ t, execMarchDone a1 a2 s = .next t ∧ Chg ps r t := by
  refine ⟨_, rfl, ?_⟩
  split
  · rename_i y0 y1 y2
    exact (h.marchEnd (within hs (by decide)))
  · rename_i y3 y4
    exact h

theorem Chg.execMarchFailRead {a1} (h : Chg ps r s) (hs : [Part.regs, .reply] ⊆ ps) : ∃ t, execMarchFailRead a1 s = .next t ∧ Chg ps r t := by
  refine ⟨_, rfl, ?_⟩
  exact (h.via (fun _ h0 => (h0.readWide (within hs (by decide)))) (within hs (by decide)))

theorem Chg.retirePiece {a1} (h : Chg ps r s) (hs : [Part.regs, .ledgers, .out, .flt, .pow, .hif, .mem, .pan, .cad] ⊆ ps) : Chg ps r (State.retirePiece s a1) := by
  unfold State.retirePiece
  extract_lets -underBinder v0 v1 v2 v3 v4 v5 v6 v7 v8 v9 v10 v11 v12 v13 v14
  have hv5 : Chg ps r v5 := by
    unfold v5
    exact (Chg.putMem h (within hs (by decide)) ⟨rfl, rfl, rfl, rfl, rfl⟩)
  clear_value v5
  have hv9 : Chg ps r v9 := by
    unfold v9
    exact (Chg.putMem hv5 (within hs (by decide)) ⟨rfl, rfl, rfl, rfl, rfl⟩)
  clear_value v9
  have hv10 : Chg ps r v10 := by
    unfold v10
    exact (Chg.ite (hv9.freeFrame (within hs (by decide))) hv9)
  clear_value v10
  have hv11 : Chg ps r v11 := by
    unfold v11
    exact (Chg.putMem hv5 (within hs (by decide)) ⟨rfl, rfl, rfl, rfl, rfl⟩)
  clear_value v11
  have hv12 : Chg ps r v12 := by
    unfold v12
    exact ((hv11.countUp (within hs (by decide))).event (within hs (by decide)))
  clear_value v12
  have hv13 : Chg ps r v13 := by
    unfold v13
    exact (hv12.report (within hs (by decide)))
  clear_value v13
  have hv14 : Chg ps r v14 := by
    unfold v14
    exact (hv13.journal (within hs (by decide)))
  clear_value v14
  exact (Chg.ite ((hv10.event (within hs (by decide))).report (within hs (by decide))) (Chg.ite (hv14.event (within hs (by decide))) hv14))

theorem Chg.execPieceRetired {a1} (h : Chg ps r s) (hs : [Part.regs, .ledgers, .out, .flt, .pow, .hif, .mem, .pan, .cad] ⊆ ps) : ∃ t, execPieceRetired a1 s = .next t ∧ Chg ps r t := by
  refine ⟨_, rfl, ?_⟩
  exact (Chg.ite (h.retirePiece (within hs (by decide))) h)

theorem Chg.clearTier {a1} (h : Chg ps r s) (hs : [Part.mem] ⊆ ps) : Chg ps r (State.clearTier s a1) :=
  (Chg.ite (h.memZero (within hs (by decide))) (h.memZero (within hs (by decide))))

theorem Chg.execClearDone {a1} (h : Chg ps r s) (hs : [Part.regs, .out, .hif, .mem] ⊆ ps) : ∃ t, execClearDone a1 s = .next t ∧ Chg ps r t := by
  refine ⟨_, rfl, ?_⟩
  exact (Chg.ite h (((h.clearTier (within hs (by decide))).setWord (within hs (by decide))).event (within hs (by decide))))

theorem Chg.frsTail {a1} (h : Chg ps r s) (hs : [Part.regs, .out, .hif] ⊆ ps) : Chg ps r (State.frsTail s a1) := by
  unfold State.frsTail
  extract_lets -underBinder v0 v1
  exact (Chg.ite (h.discard (within hs (by decide))) (h.setFld (within hs (by decide))))

theorem Chg.execFrescoRingTail {a1} (h : Chg ps r s) (hs : [Part.regs, .rsv, .out, .hif] ⊆ ps) : ∃ t, execFrescoRingTail a1 s = .next t ∧ Chg ps r t := by
  refine ⟨_, rfl, ?_⟩
  exact (h.via (fun _ h0 => ((h0.noteRsv (within hs (by decide))).frsTail (within hs (by decide)))) (within hs (by decide)))

theorem Chg.frsTake {a1 a2} (h : Chg ps r s) (hf2 : ∀ x0 x1 x2, Chg ps r x0 → Chg ps r (a2 x0 x1 x2)) (hs : [Part.regs, .ledgers, .out, .flt, .pow, .hif, .mem, .pan, .cad] ⊆ ps) : Chg ps r (State.frsTake s a1 a2) := by
  unfold State.frsTake
  extract_lets -underBinder v0 v1
  have hv1 : ∀ z0, Chg ps r z0 → Chg ps r (v1 z0) := by
    intro x2 h3
    unfold v1
    exact (h3.setFld (within hs (by decide)))
  refine Chg.ite ?_ ?_
  · exact h
  · generalize State.readDva _ _ _ _ = o4
    split
    · rename_i y5 y6 y7
      exact (hv1 _ (h.mmuFault (within hs (by decide))))
    · rename_i y8 y9 y10
      extract_lets -underBinder v11 v12 v13
      have hv12 : Chg ps r v12 := by
        unfold v12
        exact ((hv1 _ h).move (within hs (by decide)))
      clear_value v12
      exact (Chg.ite (Chg.ite (hf2 _ _ _ hv12) (hf2 _ _ _ hv12)) h)

theorem Chg.frsFinish {a1 a2 a3} (h : Chg ps r s) (hs : [Part.ledgers, .mem] ⊆ ps) : Chg ps r (State.frsFinish s a1 a2 a3) := by
  unfold State.frsFinish
  extract_lets -underBinder v0 v1 v2
  clear_value v1
  refine Chg.move ?_ (within hs (by decide))
  exact (Chg.putMem h (within hs (by decide)) ⟨rfl, rfl, rfl, rfl, rfl⟩)

theorem Chg.spareLost (h : Chg ps r s) (hs : [Part.regs, .out, .hif] ⊆ ps) : Chg ps r (State.spareLost s) := by
  unfold State.spareLost
  extract_lets -underBinder v0 v1 v2
  clear_value v0
  have hv1 : ∀ z0 z1 z2 z3, Chg ps r z0 → Chg ps r (v1 z0 z1 z2 z3) := by
    intro x3 x4 x5 x6 h7
    unfold v1
    exact (Chg.ite ((h7.setFld (within hs (by decide))).event (within hs (by decide))) h7)
  have hv2 : Chg ps r v2 := by
    unfold v2
    exact (h.setWord (within hs (by decide)))
  clear_value v2
  exact (hv1 _ _ _ _ (hv1 _ _ _ _ hv2))

theorem Chg.mediaUe {a1 a2} (h : Chg ps r s) (hs : [Part.regs, .ledgers, .out, .flt, .pow, .hif, .mem, .pan, .cad] ⊆ ps) : Chg ps r (State.mediaUe s a1 a2) := by
  unfold State.mediaUe
  extract_lets -underBinder v0 v1
  have hv1 : Chg ps r v1 := by
    unfold v1
    exact (Chg.putMem h (within hs (by decide)) ⟨rfl, rfl, rfl, rfl, rfl⟩)
  clear_value v1
  exact (((hv1.countUp (within hs (by decide))).event (within hs (by decide))).report (within hs (by decide)))

theorem Chg.frsBlock {a1 a2 a3} (h : Chg ps r s) (hs : [Part.mem, .pan] ⊆ ps) : Chg ps r (State.frsBlock s a1 a2 a3).1 := by
  rw [State.frsBlock]
  generalize State.writeFault _ _ _ _ = o
  cases o with
  | some q => exact h
  | none => exact h.writeDva (within hs (by decide))

theorem Chg.frsRead {a1 a2} (h : Chg ps r s) (hs : [Part.regs, .ledgers, .out, .flt, .pow, .hif, .mem, .pan, .cad] ⊆ ps) : Chg ps r (State.frsRead s a1 a2) := by
  unfold State.frsRead
  extract_lets -underBinder v0 v1 v2 v3 v4 v5
  have hv4 : Chg ps r v4 := by
    unfold v4
    exact (Chg.foldl h (fun _ _ h6 => (h6.mediaUe (within hs (by decide)))))
  clear_value v4
  have hv5 : Chg ps r v5.1 := by
    unfold v5
    refine Chg.foldlFst ?_ (fun a7 x8 h9 => ?_)
    · dsimp only
      exact hv4
    · split
      · rename_i y10
        exact h9
      · rename_i y11
        exact (h9.frsBlock (within hs (by decide)))
  clear_value v5
  split
  · rename_i y12 y13 y14 y15 y16
    exact ((hv5.mmuFault (within hs (by decide))).frsFinish (within hs (by decide)))
  · rename_i y17 y18 y19 y20 y21
    exact (hv5.frsFinish (within hs (by decide)))
  · rename_i y22 y23 y24 y25
    exact (hv5.frsFinish (within hs (by decide)))

theorem Chg.execFrescoRead {a1} (h : Chg ps r s) (hs : [Part.regs, .ledgers, .out, .flt, .pow, .hif, .mem, .pan, .cad] ⊆ ps) : ∃ t, execFrescoRead a1 s = .next t ∧ Chg ps r t := by
  refine ⟨_, rfl, ?_⟩
  exact (h.frsTake (fun _ _ _ h0 => (Chg.ite (h0.frsRead (within hs (by decide))) (h0.frsFinish (within hs (by decide))))) (within hs (by decide)))

theorem Chg.flashClear {a1 a2 a3} (h : Chg ps r s) (hs : [Part.mem] ⊆ ps) : Chg ps r (State.flashClear s a1 a2 a3) := by
  exact h.putBytes (within hs (by decide)) (fun k => ⟨k.1, k.2.1, k.2.2.1, k.2.2.2.1, smWf_cClear k.2.2.2.2.1 _ _, k.2.2.2.2.2⟩)

theorem Chg.frsEnter (h : Chg ps r s) (hs : [Part.mem] ⊆ ps) : Chg ps r (State.frsEnter s) := by
  unfold State.frsEnter
  extract_lets -underBinder v0 v1 v2 v3
  have hv2 : Chg ps r v2 := by
    unfold v2
    exact (Chg.foldl h (fun _ _ h4 => (Chg.ite h4 (h4.flashClear (within hs (by decide))))))
  clear_value v2
  exact (Chg.putMem hv2 (within hs (by decide)) ⟨rfl, rfl, rfl, rfl, rfl⟩)

theorem Chg.flashWrote {a1} (h : Chg ps r s) (hs : [Part.regs, .wide] ⊆ ps) : Chg ps r (State.flashWrote s a1) := by
  unfold State.flashWrote
  extract_lets -underBinder v0
  exact ((h.setWide (within hs (by decide))).setWord (within hs (by decide)))

theorem Chg.flashPut {a1 a2 a3 a4} (h : Chg ps r s) (hs : [Part.mem] ⊆ ps) : Chg ps r (State.flashPut s a1 a2 a3 a4) := by
  unfold State.flashPut
  extract_lets s1
  have h1 : Chg ps r s1 := h.flashClear (within hs (by decide))
  clear_value s1
  exact h1.putBytes (within hs (by decide)) (fun k => ⟨k.1, k.2.1, k.2.2.1, k.2.2.2.1, smWf_cWrite k.2.2.2.2.1 _ _, k.2.2.2.2.2⟩)

theorem Chg.frsWrite {a1} (h : Chg ps r s) (hs : [Part.regs, .wide, .ledgers, .out, .flt, .pow, .hif, .mem, .pan, .cad] ⊆ ps) : Chg ps r (State.frsWrite s a1) := by
  rw [State.frsWrite]
  generalize State.readDva _ _ _ _ = o
  cases o with
  | bad d e => exact (h.mmuFault (within hs (by decide))).frsFinish (within hs (by decide))
  | ok bs => exact ((h.flashPut (within hs (by decide))).flashWrote (within hs (by decide))).frsFinish (within hs (by decide))

theorem Chg.execFrescoWrite (h : Chg ps r s) (hs : [Part.regs, .wide, .ledgers, .out, .flt, .pow, .hif, .mem, .pan, .cad] ⊆ ps) : ∃ t, execFrescoWrite s = .next t ∧ Chg ps r t := by
  refine ⟨_, rfl, ?_⟩
  exact (h.frsTake (fun _ _ _ h0 => (Chg.ite (h0.frsWrite (within hs (by decide))) (h0.frsFinish (within hs (by decide))))) (within hs (by decide)))

theorem Chg.execFrescoTrim (h : Chg ps r s) (hs : [Part.regs, .ledgers, .out, .flt, .pow, .hif, .mem, .pan, .cad] ⊆ ps) : ∃ t, execFrescoTrim s = .next t ∧ Chg ps r t := by
  refine ⟨_, rfl, ?_⟩
  exact (h.frsTake (fun _ _ _ h0 => (Chg.ite ((h0.flashClear (within hs (by decide))).frsFinish (within hs (by decide))) (h0.frsFinish (within hs (by decide))))) (within hs (by decide)))

theorem Chg.execFrescoFlush (h : Chg ps r s) (hs : [Part.regs, .ledgers, .out, .flt, .pow, .hif, .mem, .pan, .cad] ⊆ ps) : ∃ t, execFrescoFlush s = .next t ∧ Chg ps r t := by
  refine ⟨_, rfl, ?_⟩
  refine Chg.frsTake ?_ (fun x1 x2 x3 h4 => ?_) (within hs (by decide))
  · exact h
  · refine Chg.ite ?_ ?_
    · refine Chg.frsFinish ?_ (within hs (by decide))
      exact (Chg.putMem h4 (within hs (by decide)) ⟨rfl, rfl, rfl, rfl, rfl⟩)
    · exact (h4.frsFinish (within hs (by decide)))

theorem Chg.frsAnswer {a1 a2} (h : Chg ps r s) (hs : [Part.regs, .ledgers, .out, .flt, .pow, .hif, .mem, .pan, .cad] ⊆ ps) : Chg ps r (State.frsAnswer s a1 a2) := by
  rw [State.frsAnswer]
  generalize State.writeFault _ _ _ _ = o
  cases o with
  | some q => exact h.mmuFault (within hs (by decide))
  | none => exact (h.writeDva (within hs (by decide))).writeDva (within hs (by decide))

theorem Chg.frsPost {a1} (h : Chg ps r s) (hs : [Part.regs, .ledgers, .out, .flt, .pow, .hif, .mem, .pan, .cad] ⊆ ps) : Chg ps r (State.frsPost s a1) := by
  unfold State.frsPost
  extract_lets -underBinder v0 v1
  have hv1 : Chg ps r v1 := by
    unfold v1
    exact (Chg.putMem h (within hs (by decide)) ⟨rfl, rfl, rfl, rfl, rfl⟩)
  clear_value v1
  exact (((hv1.frsAnswer (within hs (by decide))).move (within hs (by decide))).event (within hs (by decide)))

theorem Chg.execCmdDone {a1} (h : Chg ps r s) (hs : [Part.regs, .ledgers, .out, .flt, .pow, .hif, .mem, .pan, .cad] ⊆ ps) : ∃ t, execCmdDone a1 s = .next t ∧ Chg ps r t := by
  refine ⟨_, rfl, ?_⟩
  split
  · rename_i y0 y1 y2
    exact (h.frsPost (within hs (by decide)))
  · rename_i y3 y4
    exact h

end Sys2Proof.Machine
end

