-- ==== Sys2Proof/Laws/Host.lean ====
section
/-! SUPPORT. What each operation of Machine/Host.lean touches at most, and that it keeps the ledgers and the byte stores in form (Chg). -/

namespace Sys2Proof.Machine

open Sys2Proof

variable {ps : List Part} {r s t : State}



theorem Chg.doorbellWrite {a1 a2 a3} (h : Chg ps r s) (hs : [Part.regs, .out, .ops, .hif] ⊆ ps) : Chg ps r (State.doorbellWrite s a1 a2 a3) := by
  unfold State.doorbellWrite
  extract_lets -underBinder v0 v1 v2 v3
  clear_value v1
  exact (Chg.ite (h.event (within hs (by decide))) (h.setRing (within hs (by decide))))

theorem Chg.execDoorbell {a1 a2 a3} (h : Chg ps r s) (hs : [Part.regs, .out, .ops, .hif] ⊆ ps) : ∃ t, execDoorbell a1 a2 a3 s = .next t ∧ Chg ps r t := by
  refine ⟨_, rfl, ?_⟩
  exact (h.via (fun _ h0 => (h0.doorbellWrite (within hs (by decide)))) (within hs (by decide)))

theorem Chg.ringOff {a1 a2} (h : Chg ps r s) (hs : [Part.regs] ⊆ ps) : Chg ps r (State.ringOff s a1 a2) := by
  unfold State.ringOff
  extract_lets -underBinder v0
  exact (((h.setFld (within hs (by decide))).setFld (within hs (by decide))).setFld (within hs (by decide)))

theorem Chg.ringCfgWrite {a1 a2 a3} (h : Chg ps r s) (hs : [Part.regs, .out, .ops, .hif] ⊆ ps) : Chg ps r (State.ringCfgWrite s a1 a2 a3) := by
  unfold State.ringCfgWrite
  extract_lets -underBinder v0 v1 v2 v3 v4 v5
  clear_value v2
  clear_value v3
  have hv4 : Chg ps r v4 := by
    unfold v4
    exact (Chg.ite h (h.discard (within hs (by decide))))
  clear_value v4
  have hv5 : Chg ps r v5 := by
    unfold v5
    exact (h.setWord (within hs (by decide)))
  clear_value v5
  refine Chg.ite ?_ ?_
  · exact (Chg.ite hv4 (hv4.ringOff (within hs (by decide))))
  · refine Chg.ite ?_ ?_
    · exact hv5
    · split
      · rename_i y6 y7 y8
        exact ((hv5.setFld (within hs (by decide))).event (within hs (by decide)))
      · rename_i y9 y10
        extract_lets -underBinder v11
        have hv11 : Chg ps r v11 := by
          unfold v11
          exact (((hv5.setFld (within hs (by decide))).setFld (within hs (by decide))).setWord (within hs (by decide)))
        clear_value v11
        exact ((hv11.setRing (within hs (by decide))).setWord (within hs (by decide)))

theorem Chg.execRingEnable {a1 a2 a3} (h : Chg ps r s) (hs : [Part.regs, .rsv, .out, .ops, .hif] ⊆ ps) : ∃ t, execRingEnable a1 a2 a3 s = .next t ∧ Chg ps r t := by
  refine ⟨_, rfl, ?_⟩
  exact (h.via (fun _ h0 => ((h0.noteRsv (within hs (by decide))).ringCfgWrite (within hs (by decide)))) (within hs (by decide)))

theorem Chg.execRingDisable {a1 a2} (h : Chg ps r s) (hs : [Part.regs, .out, .ops, .hif] ⊆ ps) : ∃ t, execRingDisable a1 a2 s = .next t ∧ Chg ps r t := by
  refine ⟨_, rfl, ?_⟩
  exact (h.via (fun _ h0 => (h0.ringCfgWrite (within hs (by decide)))) (within hs (by decide)))

theorem Chg.cqCfgWrite {a1 a2 a3} (h : Chg ps r s) (hs : [Part.regs, .out, .ops, .hif] ⊆ ps) : Chg ps r (State.cqCfgWrite s a1 a2 a3) := by
  unfold State.cqCfgWrite
  extract_lets -underBinder v0 v1 v2 v3 v4
  have hv2 : Chg ps r v2 := by
    unfold v2
    exact (Chg.ite h (h.discard (within hs (by decide))))
  clear_value v2
  have hv3 : Chg ps r v3 := by
    unfold v3
    exact (hv2.setFld (within hs (by decide)))
  clear_value v3
  have hv4 : Chg ps r v4 := by
    unfold v4
    exact (h.setWord (within hs (by decide)))
  clear_value v4
  refine Chg.ite ?_ ?_
  · exact (Chg.ite hv3 (Chg.ite (hv3.discard (within hs (by decide))) (hv3.setFld (within hs (by decide)))))
  · refine Chg.ite ?_ ?_
    · exact hv4
    · split
      · rename_i y5 y6 y7
        exact ((hv4.setWord (within hs (by decide))).event (within hs (by decide)))
      · rename_i y8 y9
        extract_lets -underBinder v10 v11
        have hv10 : Chg ps r v10 := by
          unfold v10
          exact ((hv4.setFld (within hs (by decide))).setWord (within hs (by decide)))
        clear_value v10
        clear_value v11
        exact (hv10.setCq (within hs (by decide)))

theorem Chg.execCqEnable {a1 a2 a3} (h : Chg ps r s) (hs : [Part.regs, .rsv, .out, .ops, .hif] ⊆ ps) : ∃ t, execCqEnable a1 a2 a3 s = .next t ∧ Chg ps r t := by
  refine ⟨_, rfl, ?_⟩
  exact (h.via (fun _ h0 => ((h0.noteRsv (within hs (by decide))).cqCfgWrite (within hs (by decide)))) (within hs (by decide)))

theorem Chg.execCqDisable {a1 a2} (h : Chg ps r s) (hs : [Part.regs, .out, .ops, .hif] ⊆ ps) : ∃ t, execCqDisable a1 a2 s = .next t ∧ Chg ps r t := by
  refine ⟨_, rfl, ?_⟩
  exact (h.via (fun _ h0 => (h0.cqCfgWrite (within hs (by decide)))) (within hs (by decide)))

theorem Chg.cqHead {a1 a2 a3} (h : Chg ps r s) (hs : [Part.regs, .out, .hif] ⊆ ps) : Chg ps r (State.cqHead s a1 a2 a3) := by
  unfold State.cqHead
  extract_lets -underBinder v0
  exact (Chg.ite (h.discard (within hs (by decide))) (h.setWord (within hs (by decide))))

theorem Chg.execCqHeadWrite {a1 a2 a3} (h : Chg ps r s) (hs : [Part.regs, .out, .hif] ⊆ ps) : ∃ t, execCqHeadWrite a1 a2 a3 s = .next t ∧ Chg ps r t := by
  refine ⟨_, rfl, ?_⟩
  exact (h.via (fun _ h0 => (h0.cqHead (within hs (by decide)))) (within hs (by decide)))

theorem Chg.execCqWriteRetry {a1 a2} (h : Chg ps r s) (hs : [Part.regs, .ledgers, .out, .flt, .pow, .ops, .hif, .mem, .pan, .cad] ⊆ ps) : ∃ t, execCqWriteRetry a1 a2 s = .next t ∧ Chg ps r t := by
  refine ⟨_, rfl, ?_⟩
  exact (Chg.ite (h.postHead (within hs (by decide))) h)

theorem Chg.execHoldoffEnd {a1 a2} (h : Chg ps r s) (hs : [Part.out, .ops] ⊆ ps) : ∃ t, execHoldoffEnd a1 a2 s = .next t ∧ Chg ps r t := by
  refine ⟨_, rfl, ?_⟩
  refine Chg.ite ?_ ?_
  · exact h
  · extract_lets -underBinder v0
    have hv0 : Chg ps r v0 := by
      unfold v0
      exact (h.setCq (within hs (by decide)))
    clear_value v0
    exact (Chg.ite (hv0.raise (within hs (by decide))) hv0)

theorem Chg.claimFrame {a1 a2} (h : Chg ps r s) (hs : [Part.mem] ⊆ ps) : Chg ps r (State.claimFrame s a1 a2) :=
  (Chg.ite ((h.zeroFrame (within hs (by decide))).setFrame (within hs (by decide))) h)

theorem Chg.putLeaf {a1 a2} (h : Chg ps r s) (hs : [Part.hif] ⊆ ps) : Chg ps r (State.putLeaf s a1 a2) := by
  unfold State.putLeaf
  extract_lets -underBinder v0 v1
  clear_value v0
  exact (Chg.putHif h (within hs (by decide)))

theorem Chg.mapPages {a1} (h : Chg ps r s) (hs : [Part.hif, .mem] ⊆ ps) : Chg ps r (State.mapPages s a1) := by
  unfold State.mapPages
  extract_lets -underBinder v0
  have hv0 : Chg ps r v0 := by
    unfold v0
    exact (Chg.ite h (Chg.foldl h (fun _ _ h1 => (h1.claimFrame (within hs (by decide))))))
  clear_value v0
  exact (Chg.foldl hv0 (fun _ _ h2 => (h2.putLeaf (within hs (by decide)))))

theorem Chg.releaseFrame {a1 a2} (h : Chg ps r s) (hs : [Part.regs, .out, .flt, .hif, .mem] ⊆ ps) : Chg ps r (State.releaseFrame s a1 a2) :=
  (Chg.ite (h.freeFrame (within hs (by decide))) h)

theorem Chg.unmapPages {a1} (h : Chg ps r s) (hs : [Part.regs, .out, .flt, .hif, .mem] ⊆ ps) : Chg ps r (State.unmapPages s a1) := by
  unfold State.unmapPages
  extract_lets -underBinder v0 v1 v2
  clear_value v0
  have hv2 : Chg ps r v2 := by
    unfold v2
    exact (Chg.putHif h (within hs (by decide)))
  clear_value v2
  exact (Chg.foldl hv2 (fun _ _ h3 => (Chg.foldl h3 (fun _ _ h4 => (h4.releaseFrame (within hs (by decide)))))))

theorem Chg.retryQueues {a1} (h : Chg ps r s) (hs : [Part.regs, .ledgers, .out, .flt, .pow, .ops, .hif, .mem, .pan, .cad] ⊆ ps) : Chg ps r (State.retryQueues s a1) :=
  (Chg.foldl h (fun _ _ h0 => (Chg.ite (h0.postHead (within hs (by decide))) h0)))

theorem Chg.mmuEnd {a1 a2} (h : Chg ps r s) (hs : [Part.regs, .ledgers, .out, .flt, .pow, .ops, .hif, .mem, .pan, .cad] ⊆ ps) : Chg ps r (State.mmuEnd s a1 a2) :=
  (((h.setWord (within hs (by decide))).event (within hs (by decide))).retryQueues (within hs (by decide)))

theorem Chg.mmuCmd {a1} (h : Chg ps r s) (hs : [Part.regs, .ledgers, .out, .flt, .pow, .ops, .hif, .mem, .pan, .cad] ⊆ ps) : Chg ps r (State.mmuCmd s a1) := by
  unfold State.mmuCmd
  extract_lets -underBinder v0 v1 v2 v3
  clear_value v0
  have hv3 : Chg ps r v3 := by
    unfold v3
    exact (h.setWord (within hs (by decide)))
  clear_value v3
  exact (Chg.ite (h.discard (within hs (by decide))) (Chg.ite (Chg.ite ((h.mapPages (within hs (by decide))).mmuEnd (within hs (by decide))) (h.mmuEnd (within hs (by decide)))) (Chg.ite (Chg.ite ((h.unmapPages (within hs (by decide))).mmuEnd (within hs (by decide))) (h.mmuEnd (within hs (by decide)))) (Chg.ite (Chg.ite ((Chg.putHif h (within hs (by decide))).mmuEnd (within hs (by decide))) (h.mmuEnd (within hs (by decide)))) (Chg.ite (h.mmuEnd (within hs (by decide))) (Chg.ite (h.mmuEnd (within hs (by decide))) (Chg.putHif hv3 (within hs (by decide)))))))))

theorem Chg.execMmuMap (h : Chg ps r s) (hs : [Part.regs, .ledgers, .out, .flt, .pow, .ops, .hif, .mem, .pan, .cad] ⊆ ps) : ∃ t, execMmuMap s = .next t ∧ Chg ps r t := by
  refine ⟨_, rfl, ?_⟩
  exact (h.via (fun _ h0 => (h0.mmuCmd (within hs (by decide)))) (within hs (by decide)))

theorem Chg.execMmuUnmap (h : Chg ps r s) (hs : [Part.regs, .ledgers, .out, .flt, .pow, .ops, .hif, .mem, .pan, .cad] ⊆ ps) : ∃ t, execMmuUnmap s = .next t ∧ Chg ps r t := by
  refine ⟨_, rfl, ?_⟩
  exact (h.via (fun _ h0 => (h0.mmuCmd (within hs (by decide)))) (within hs (by decide)))

theorem Chg.execSetWindow (h : Chg ps r s) (hs : [Part.regs, .ledgers, .out, .flt, .pow, .ops, .hif, .mem, .pan, .cad] ⊆ ps) : ∃ t, execSetWindow s = .next t ∧ Chg ps r t := by
  refine ⟨_, rfl, ?_⟩
  exact (h.via (fun _ h0 => (h0.mmuCmd (within hs (by decide)))) (within hs (by decide)))

theorem Chg.execClearWindow (h : Chg ps r s) (hs : [Part.regs, .ledgers, .out, .flt, .pow, .ops, .hif, .mem, .pan, .cad] ⊆ ps) : ∃ t, execClearWindow s = .next t ∧ Chg ps r t := by
  refine ⟨_, rfl, ?_⟩
  exact (h.via (fun _ h0 => (h0.mmuCmd (within hs (by decide)))) (within hs (by decide)))

theorem Chg.execClearWindowRemove (h : Chg ps r s) (hs : [Part.regs, .ledgers, .out, .flt, .pow, .ops, .hif, .mem, .pan, .cad] ⊆ ps) : ∃ t, execClearWindowRemove s = .next t ∧ Chg ps r t := by
  refine ⟨_, rfl, ?_⟩
  split
  · rename_i y0 y1
    exact h
  · rename_i y2 y3 y4
    exact (Chg.ite h ((Chg.putHif h (within hs (by decide))).mmuEnd (within hs (by decide))))

theorem Chg.execMmuFaultPop {a1} (h : Chg ps r s) (hs : [Part.reply, .hif] ⊆ ps) : ∃ t, execMmuFaultPop a1 s = .next t ∧ Chg ps r t := by
  refine ⟨_, rfl, ?_⟩
  refine Chg.via ?_ (fun x1 h2 => ?_) (within hs (by decide))
  · exact h
  · extract_lets -underBinder v3 v4
    clear_value v3
    exact ((Chg.putHif h2 (within hs (by decide))).answer (within hs (by decide)))

theorem Chg.execMmuFaultDvaRead {a1} (h : Chg ps r s) (hs : [Part.regs, .reply] ⊆ ps) : ∃ t, execMmuFaultDvaRead a1 s = .next t ∧ Chg ps r t := by
  refine ⟨_, rfl, ?_⟩
  refine Chg.via ?_ (fun x1 h2 => ?_) (within hs (by decide))
  · exact h
  · extract_lets -underBinder v3
    exact ((h2.setWord (within hs (by decide))).answer (within hs (by decide)))

theorem Chg.execHostCompletion {a1 a2 a3} (h : Chg ps r s) (hs : [Part.regs, .ledgers, .out, .flt, .pow, .hif, .mem, .pan, .cad] ⊆ ps) : ∃ t, execHostCompletion a1 a2 a3 s = .next t ∧ Chg ps r t := by
  have hp : ∀ (b : List Byte) (e p : Bool), Chg ps r { s with mem := { s.mem with
      host := cWrite s.mem.host (a2 * 64) (sub b 0 64), hostErr := smSet false s.mem.hostErr a2 e,
      hostPoison := smSet false s.mem.hostPoison a2 p } } := fun b e p =>
    h.putBytes (within hs (by decide)) (fun k => ⟨k.1, k.2.1, k.2.2.1, smWf_cWrite k.2.2.2.1 _ _, k.2.2.2.2⟩)
  refine ⟨_, rfl, ?_⟩
  cases a3 with
  | data b => exact hp _ _ _
  | poisoned b => exact (hp _ _ _).report (within hs (by decide))
  | error => exact h.putMem (within hs (by decide)) ⟨rfl, rfl, rfl, rfl, rfl⟩

theorem Chg.execHostCompletionTimeout {a1} (h : Chg ps r s) (hs : [Part.mem] ⊆ ps) : ∃ t, execHostCompletionTimeout a1 s = .next t ∧ Chg ps r t := by
  refine ⟨_, rfl, ?_⟩
  exact (Chg.putMem h (within hs (by decide)) ⟨rfl, rfl, rfl, rfl, rfl⟩)

end Sys2Proof.Machine
end

