-- ==== Sys2Proof/Laws/PalImage.lean ====
section
/-! SUPPORT. What each operation of Machine/PalImage.lean touches at most, and that it keeps the ledgers and the byte stores in form (Chg). -/

namespace Sys2Proof.Machine

open Sys2Proof

variable {ps : List Part} {r s t : State}



theorem Chg.palImage {a1 a2 a3 a4 a5 a6 a7} (h : Chg ps r s) (hs : [Part.mem] ⊆ ps) : Chg ps r (State.palImage s a1 a2 a3 a4 a5 a6 a7) := by
  unfold State.palImage
  refine Chg.foldl ?_ (fun a1 x2 h3 => ?_)
  · exact h
  · extract_lets -underBinder v4
    exact (Chg.ite (Chg.foldl h3 (fun _ _ h5 => (h5.palWrite (within hs (by decide))))) h3)

end Sys2Proof.Machine
end

