-- ==== Sys2Proof/Laws/Sampler.lean ====
section
/-! SUPPORT. What each operation of Machine/Sampler.lean touches at most, and that it keeps the ledgers and the byte stores in form (Chg). -/

namespace Sys2Proof.Machine

open Sys2Proof

variable {ps : List Part} {r s t : State}



theorem Chg.holdSlots {a1 a2 a3} (h : Chg ps r s) (hs : [Part.ledgers, .srv] ⊆ ps) : Chg ps r (State.holdSlots s a1 a2 a3) := by
  unfold State.holdSlots
  extract_lets -underBinder v0 v1
  clear_value v0
  exact ((Chg.putSrv h (within hs (by decide))).move (within hs (by decide)))

theorem Chg.dropSlots {a1 a2 a3} (h : Chg ps r s) (hs : [Part.regs, .ledgers, .srv] ⊆ ps) : Chg ps r (State.dropSlots s a1 a2 a3) := by
  unfold State.dropSlots
  extract_lets -underBinder v0 v1
  clear_value v0
  exact ((Chg.putSrv h (within hs (by decide))).reclaim (within hs (by decide)))

theorem Chg.putEntry {a1 a2 a3 a4 a5 a6 a7} (h : Chg ps r s) (hs : [Part.regs, .ledgers, .out, .flt, .pow, .hif, .mem, .pan, .cad, .srv] ⊆ ps) : Chg ps r (State.putEntry s a1 a2 a3 a4 a5 a6 a7) := by
  unfold State.putEntry
  extract_lets -underBinder v0 v1 v2 v3 v4 v5 v6 v7 v8 v9 v10 v11 v12 v13
  clear_value v7
  have hv9 : Chg ps r v9 := by
    unfold v9
    split
    · rename_i y14 y15 y16 y17
      exact (h.mmuFault (within hs (by decide)))
    · rename_i y18 y19
      exact (h.writeDva (within hs (by decide)))
  clear_value v9
  have hv10 : Chg ps r v10 := by
    unfold v10
    exact ((hv9.setFld (within hs (by decide))).move (within hs (by decide)))
  clear_value v10
  have hv13 : Chg ps r v13 := by
    unfold v13
    exact (Chg.putSrv hv10 (within hs (by decide)))
  clear_value v13
  exact (Chg.ite (hv13.event (within hs (by decide))) hv13)

theorem Chg.tokenHead {a1 a2 a3} (h : Chg ps r s) (hs : [Part.regs, .ledgers, .out, .hif, .srv] ⊆ ps) : Chg ps r (State.tokenHead s a1 a2 a3) := by
  unfold State.tokenHead
  extract_lets -underBinder v0 v1 v2 v3 v4 v5 v6
  have hv5 : Chg ps r v5 := by
    unfold v5
    exact ((h.setFld (within hs (by decide))).move (within hs (by decide)))
  clear_value v5
  exact (Chg.ite (h.discard (within hs (by decide))) (Chg.putSrv hv5 (within hs (by decide))))

theorem Chg.execTokenRingHead {a1 a2 a3} (h : Chg ps r s) (hs : [Part.regs, .ledgers, .out, .hif, .srv] ⊆ ps) : ∃ t, execTokenRingHead a1 a2 a3 s = .next t ∧ Chg ps r t := by
  refine ⟨_, rfl, ?_⟩
  exact (h.via (fun _ h0 => (h0.tokenHead (within hs (by decide)))) (within hs (by decide)))

theorem Chg.postReq {a1 a2 a3 a4} (h : Chg ps r s) (hs : [Part.ops, .srv] ⊆ ps) : Chg ps r (State.postReq s a1 a2 a3 a4) :=
  (Chg.ite (h.recordMade (within hs (by decide))) (h.recordMade (within hs (by decide))))

theorem Chg.genEnd {a1 a2 a3 a4} (h : Chg ps r s) (hs : [Part.ops, .srv] ⊆ ps) : Chg ps r (State.genEnd s a1 a2 a3 a4) := by
  unfold State.genEnd
  split
  · rename_i y0 y1
    exact h
  · rename_i y2 y3 y4
    split
    · rename_i y5 y6
      exact h
    · rename_i y7 y8 y9
      extract_lets -underBinder v10 v11 v12
      have hv10 : Chg ps r v10 := by
        unfold v10
        exact (h.postReq (within hs (by decide)))
      clear_value v10
      clear_value v12
      split
      · rename_i y13 y14
        exact (hv10.setSeq (within hs (by decide)))
      · rename_i y15 y16 y17
        exact (Chg.ite ((hv10.setSeq (within hs (by decide))).postReq (within hs (by decide))) (Chg.ite ((hv10.setSeq (within hs (by decide))).postReq (within hs (by decide))) (hv10.setSeq (within hs (by decide)))))

theorem Chg.decideFault {a1 a2} (h : Chg ps r s) (hs : [Part.regs, .ledgers, .out, .flt, .pow, .hif, .mem, .pan, .cad] ⊆ ps) : Chg ps r (State.decideFault s a1 a2) := by
  unfold State.decideFault
  extract_lets w0 w b mask f
  have hf : ∀ x a, f x s = some a → Chg ps r a := by
    intro x a e
    unfold f at e
    split at e
    · obtain rfl := Option.some.inj e; exact h.mmuFault (within hs (by decide))
    · exact absurd e (by simp)
  clear_value f
  generalize State.readDva _ _ _ _ = o1
  split
  · next e => exact hf _ _ e
  · generalize State.readDva _ _ _ _ = o2
    split
    · next e => exact hf _ _ e
    · refine Chg.ite h ?_
      generalize State.readDva _ _ _ _ = o3
      cases e : f o3 s with
      | none => exact h
      | some a => exact hf _ _ e

theorem Chg.setJob {a1 a2} (h : Chg ps r s) (hs : [Part.srv] ⊆ ps) : Chg ps r (State.setJob s a1 a2) :=
  (Chg.putSrv h (within hs (by decide)))

theorem Chg.execSamplerDecision {a1 a2} (h : Chg ps r s) (hs : [Part.time, .regs, .wide, .ledgers, .out, .flt, .pow, .hif, .mem, .pan, .cad, .srv] ⊆ ps) : ∃ t, execSamplerDecision a1 a2 s = .next t ∧ Chg ps r t := by
  refine ⟨_, rfl, ?_⟩
  split
  · rename_i y0 y1
    exact h
  · rename_i y2 y3 y4
    split
    · rename_i y5 y6
      exact h
    · rename_i y7 y8 y9
      refine Chg.ite ?_ ?_
      · exact h
      · extract_lets -underBinder v10 v11 v12
        have hv10 : Chg ps r v10 := by
          unfold v10
          exact (h.at (within hs (by decide)))
        clear_value v10
        clear_value v11
        have hv12 : Chg ps r v12 := by
          unfold v12
          split
          · rename_i y13 y14 y15
            exact (hv10.decideFault (within hs (by decide)))
          · rename_i y16 y17
            exact hv10
        clear_value v12
        exact ((hv12.setWide (within hs (by decide))).setJob (within hs (by decide)))

theorem Chg.commitTok {a1 a2 a3 a4} (h : Chg ps r s) (hs : [Part.regs, .ledgers, .out, .flt, .pow, .ops, .hif, .mem, .pan, .cad, .srv] ⊆ ps) : Chg ps r (State.commitTok s a1 a2 a3 a4) := by
  unfold State.commitTok
  split
  · rename_i y0 y1
    exact h
  · rename_i y2 y3 y4
    extract_lets -underBinder v5 v6 v7 v8 v9
    clear_value v6
    clear_value v7
    clear_value v8
    have hv9 : Chg ps r v9 := by
      unfold v9
      exact (h.putEntry (within hs (by decide)))
    clear_value v9
    split
    · rename_i y10 y11
      exact (hv9.setSeq (within hs (by decide)))
    · rename_i y12 y13 y14
      extract_lets -underBinder v15 v16
      clear_value v15
      have hv16 : Chg ps r v16 := by
        unfold v16
        exact (hv9.setSeq (within hs (by decide)))
      clear_value v16
      split
      · rename_i y17 y18
        exact (hv16.genEnd (within hs (by decide)))
      · rename_i y19
        exact hv16

theorem Chg.dropRow {a1 a2 a3 a4 a5} (h : Chg ps r s) (hs : [Part.regs, .ledgers, .ops, .srv] ⊆ ps) : Chg ps r (State.dropRow s a1 a2 a3 a4 a5) := by
  unfold State.dropRow
  extract_lets -underBinder v0
  have hv0 : Chg ps r v0 := by
    unfold v0
    exact (h.dropSlots (within hs (by decide)))
  clear_value v0
  split
  · rename_i y1 y2
    exact hv0
  · rename_i y3 y4 y5
    split
    · rename_i y6 y7
      exact (hv0.setSeq (within hs (by decide)))
    · rename_i y8 y9 y10
      exact ((hv0.setSeq (within hs (by decide))).genEnd (within hs (by decide)))

theorem Chg.commitRow {a1 a2 a3} (h : Chg ps r s) (hs : [Part.free, .regs, .ledgers, .out, .flt, .pow, .ops, .hif, .mem, .pan, .cad, .srv] ⊆ ps) : Chg ps r (State.commitRow s a1 a2 a3).1 := by
  unfold State.commitRow
  extract_lets -underBinder v0
  clear_value v0
  split
  · rename_i y1 y2
    dsimp only
    exact (h.dropSlots (within hs (by decide)))
  · rename_i y3 y4 y5
    extract_lets -underBinder v6
    split
    · rename_i y7
      dsimp only
      exact ((h.dropRow (within hs (by decide))).countUp (within hs (by decide)))
    · rename_i y8
      split
      · rename_i y9 y10 y11
        dsimp only
        exact (h.commitTok (within hs (by decide)))
      · rename_i y12
        extract_lets -underBinder v13 v14 v15
        have hv14 : Chg ps r v14 := by
          unfold v14
          exact ((h.putEntry (within hs (by decide))).used (within hs (by decide)))
        clear_value v14
        have hv15 : Chg ps r v15 := by
          unfold v15
          exact (hv14.setSeq (within hs (by decide)))
        clear_value v15
        dsimp only
        exact (hv15.genEnd (within hs (by decide)))
      · rename_i y16 y17 y18
        extract_lets -underBinder v19
        have hv19 : Chg ps r v19 := by
          unfold v19
          exact (h.dropRow (within hs (by decide)))
        clear_value v19
        split
        · rename_i y20
          dsimp only
          exact hv19
        · rename_i y21
          dsimp only
          exact hv19

theorem Chg.clearMarks {a1} (h : Chg ps r s) (hs : [Part.srv] ⊆ ps) : Chg ps r (State.clearMarks s a1) := by
  unfold State.clearMarks
  refine Chg.foldl ?_ (fun a1 x2 h3 => ?_)
  · exact h
  · split
    · rename_i y4 y5 y6
      exact (Chg.ite (h3.setSeq (within hs (by decide))) h3)
    · rename_i y7 y8
      exact h3

theorem Chg.dropRest {a1 a2} (h : Chg ps r s) (hs : [Part.regs, .ledgers, .srv] ⊆ ps) : Chg ps r (State.dropRest s a1 a2) := by
  unfold State.dropRest
  extract_lets -underBinder v0 v1 v2 v3
  clear_value v0
  have hv1 : Chg ps r v1 := by
    unfold v1
    exact (Chg.foldl h (fun _ _ h4 => (h4.dropSlots (within hs (by decide)))))
  clear_value v1
  have hv2 : Chg ps r v2 := by
    unfold v2
    exact (hv1.clearMarks (within hs (by decide)))
  clear_value v2
  exact (Chg.putSrv hv2 (within hs (by decide)))

theorem Chg.jobEnd {a1 a2} (h : Chg ps r s) (hs : [Part.regs, .ledgers, .ops, .srv] ⊆ ps) : Chg ps r (State.jobEnd s a1 a2) := by
  unfold State.jobEnd
  split
  · rename_i y0 y1 y2 y3
    split
    · rename_i y4 y5 y6
      exact ((h.dropRest (within hs (by decide))).opEnd (within hs (by decide)))
    · rename_i y7 y8
      exact (h.dropRest (within hs (by decide)))
  · rename_i y9 y10
    refine Chg.ite ?_ ?_
    · exact (h.setJob (within hs (by decide)))
    · extract_lets -underBinder v11 v12 v13
      have hv11 : Chg ps r v11 := by
        unfold v11
        exact (h.clearMarks (within hs (by decide)))
      clear_value v11
      have hv13 : Chg ps r v13 := by
        unfold v13
        exact (Chg.putSrv hv11 (within hs (by decide)))
      clear_value v13
      split
      · rename_i y14 y15 y16
        exact (hv13.opEnd (within hs (by decide)))
      · rename_i y17 y18
        exact hv13

theorem Chg.sampleStart {a1 a2 a3} (h : Chg ps r s) (h0 : Chg ps r a1) (hs : [Part.regs, .ledgers, .out, .flt, .pow, .ops, .hif, .mem, .pan, .cad, .srv] ⊆ ps) : Chg ps r (State.sampleStart s a1 a2 a3) := by
  unfold State.sampleStart
  extract_lets t w
  refine h.withArg (fun a => ?_) (within hs (by decide))
  split
  · exact h.opEnd (within hs (by decide))
  · dsimp only
    refine Chg.ite (h.opEnd (within hs (by decide))) ?_
    split
    · exact h.opFault (within hs (by decide))
    · refine Chg.ite (h.opEnd (within hs (by decide))) ?_
      split
      · exact h.opEnd (within hs (by decide))
      · split
        · exact h.opFault (within hs (by decide))
        · refine Chg.ite (h.opEnd (within hs (by decide))) ?_
          split
          · exact h.opEnd (within hs (by decide))
          · refine Chg.ite (h0.event (within hs (by decide))) (Chg.setJob (Chg.foldl (Chg.holdSlots (Chg.setOp h (within hs (by decide))) (within hs (by decide))) (fun c x hc => ?_)) (within hs (by decide)))
            split
            · exact hc.setSeq (within hs (by decide))
            · exact hc

theorem Chg.execSample {a1 a2} (h : Chg ps r s) (hs : [Part.time, .regs, .ledgers, .out, .flt, .pow, .ops, .hif, .mem, .pan, .cad, .srv] ⊆ ps) : ∃ t, execSample a1 a2 s = .next t ∧ Chg ps r t := by
  refine ⟨_, rfl, ?_⟩
  exact h.issue (fun _ _ h0 => Chg.ite (h0.sampleStart (h.at (within hs (by decide))) (within hs (by decide))) h) (within hs (by decide))

theorem Chg.lookupStart {a1 a2} (h : Chg ps r s) (hs : [Part.regs, .ledgers, .out, .flt, .pow, .ops, .hif, .mem, .pan, .cad, .srv] ⊆ ps) : Chg ps r (State.lookupStart s a1 a2) := by
  unfold State.lookupStart
  extract_lets -underBinder v0
  clear_value v0
  refine Chg.withArg ?_ (fun x1  => ?_) (within hs (by decide))
  · exact h
  · split
    · rename_i y2 y3 y4
      exact (h.opEnd (within hs (by decide)))
    · rename_i y5 y6
      extract_lets -underBinder v7 v8
      split
      · rename_i y9 y10
        exact (h.opEnd (within hs (by decide)))
      · rename_i y11 y12 y13 y14
        refine Chg.ite ?_ ?_
        · exact (h.opEnd (within hs (by decide)))
        · refine Chg.ite ?_ ?_
          · exact (h.opEnd (within hs (by decide)))
          · refine Chg.ite ?_ ?_
            · exact (h.opEnd (within hs (by decide)))
            · generalize State.readDva _ _ _ _ = o15
              split
              · rename_i y16 y17 y18
                exact (h.opFault (within hs (by decide)))
              · rename_i y19 y20 y21
                refine Chg.ite ?_ ?_
                · exact (h.opEnd (within hs (by decide)))
                · extract_lets -underBinder v22
                  split
                  · rename_i y23 y24 y25 y26
                    exact (h.opFault (within hs (by decide)))
                  · rename_i y27 y28
                    split
                    · rename_i y29 y30 y31 y32
                      extract_lets -underBinder v33 v34
                      clear_value v33
                      have hv34 : Chg ps r v34 := by
                        unfold v34
                        refine Chg.ite ?_ ?_
                        · exact Chg.fst (h.prefixLookup (within hs (by decide))) y32
                        · refine Chg.writeDva ?_ (within hs (by decide))
                          exact Chg.fst (h.prefixLookup (within hs (by decide))) y32
                      clear_value v34
                      exact (hv34.opEnd (within hs (by decide)))

theorem Chg.execPrefixLookup {a1 a2} (h : Chg ps r s) (hs : [Part.time, .regs, .ledgers, .out, .flt, .pow, .ops, .hif, .mem, .pan, .cad, .srv] ⊆ ps) : ∃ t, execPrefixLookup a1 a2 s = .next t ∧ Chg ps r t := by
  refine ⟨_, rfl, ?_⟩
  exact (h.issue (fun _ _ h0 => (Chg.ite (h0.lookupStart (within hs (by decide))) h)) (within hs (by decide)))

theorem Chg.installDomKey {a1 a2} (h : Chg ps r s) (hs : [Part.regs, .ledgers, .out, .hif, .srv] ⊆ ps) : Chg ps r (State.installDomKey s a1 a2) := by
  unfold State.installDomKey
  extract_lets -underBinder v0 v1
  clear_value v0
  have hv1 : Chg ps r v1 := by
    unfold v1
    exact (h.setSdom (within hs (by decide)))
  clear_value v1
  exact ((hv1.dropPrefixes (within hs (by decide))).event (within hs (by decide)))

theorem Chg.domKey3 {a1} (h : Chg ps r s) (hs : [Part.regs, .ledgers, .out, .hif, .srv] ⊆ ps) : Chg ps r (State.domKey3 s a1) := by
  unfold State.domKey3
  split
  · rename_i y0 y1
    exact (h.discard (within hs (by decide)))
  · rename_i y2 y3 y4
    extract_lets -underBinder v5
    exact (h.installDomKey (within hs (by decide)))

theorem Chg.domCtrl {a1} (h : Chg ps r s) (hs : [Part.free, .regs, .rsv, .ledgers, .out, .hif, .srv] ⊆ ps) : Chg ps r (State.domCtrl s a1) := by
  unfold State.domCtrl
  extract_lets -underBinder v0
  have hv0 : Chg ps r v0 := by
    unfold v0
    exact (h.noteRsv (within hs (by decide)))
  clear_value v0
  split
  · rename_i y1 y2
    exact (hv0.discard (within hs (by decide)))
  · rename_i y3 y4 y5
    extract_lets -underBinder v6 v7 v8 v9
    clear_value v6
    have hv8 : Chg ps r v8 := by
      unfold v8
      exact (hv0.setSdom (within hs (by decide)))
    clear_value v8
    have hv9 : Chg ps r v9 := by
      unfold v9
      exact (Chg.ite (hv8.dropPrefixes (within hs (by decide))) hv8)
    clear_value v9
    exact (Chg.ite ((hv9.installDomKey (within hs (by decide))).used (within hs (by decide))) hv9)

theorem Chg.execDomainKeyInstall {a1} (h : Chg ps r s) (hs : [Part.regs, .ledgers, .out, .hif, .srv] ⊆ ps) : ∃ t, execDomainKeyInstall a1 s = .next t ∧ Chg ps r t := by
  refine ⟨_, rfl, ?_⟩
  exact (h.via (fun _ h0 => (h0.domKey3 (within hs (by decide)))) (within hs (by decide)))

theorem Chg.execGenKey {a1} (h : Chg ps r s) (hs : [Part.free, .regs, .rsv, .ledgers, .out, .hif, .srv] ⊆ ps) : ∃ t, execGenKey a1 s = .next t ∧ Chg ps r t := by
  refine ⟨_, rfl, ?_⟩
  exact (h.via (fun _ h0 => (h0.domCtrl (within hs (by decide)))) (within hs (by decide)))

theorem Chg.execSharedDomainValid {a1} (h : Chg ps r s) (hs : [Part.free, .regs, .rsv, .ledgers, .out, .hif, .srv] ⊆ ps) : ∃ t, execSharedDomainValid a1 s = .next t ∧ Chg ps r t := by
  refine ⟨_, rfl, ?_⟩
  exact (h.via (fun _ h0 => (h0.domCtrl (within hs (by decide)))) (within hs (by decide)))

theorem Chg.execSmpDecisionsRead (h : Chg ps r s) (hs : [Part.regs, .reply] ⊆ ps) : ∃ t, execSmpDecisionsRead s = .next t ∧ Chg ps r t := by
  refine ⟨_, rfl, ?_⟩
  exact (h.via (fun _ h0 => (h0.readWide (within hs (by decide)))) (within hs (by decide)))

end Sys2Proof.Machine
end

