-- ==== Sys2Proof/Laws/Serving.lean ====
section
/-! SUPPORT. What each operation of Machine/Serving.lean touches at most, and that it keeps the ledgers and the byte stores in form (Chg). -/

namespace Sys2Proof.Machine

open Sys2Proof

variable {ps : List Part} {r s t : State}



theorem Chg.freeSeq {a1 a2} (h : Chg ps r s) (hs : [Part.regs, .ledgers, .ops, .srv] ⊆ ps) : Chg ps r (State.freeSeq s a1 a2) := by
  unfold State.freeSeq
  split
  · rename_i y0 y1
    exact h
  · rename_i y2 y3 y4
    extract_lets -underBinder v5 v6 v7 v8 v9
    have hv5 : Chg ps r v5 := by
      unfold v5
      exact ((h.moveDrop (within hs (by decide))).freePages (within hs (by decide)))
    clear_value v5
    clear_value v6
    have hv7 : Chg ps r v7 := by
      unfold v7
      exact (Chg.putSrv hv5 (within hs (by decide)))
    clear_value v7
    clear_value v8
    have hv9 : Chg ps r v9 := by
      unfold v9
      exact (Chg.ite (hv7.reclaim (within hs (by decide))) (hv7.move (within hs (by decide))))
    clear_value v9
    split
    · rename_i y10 y11 y12
      exact (hv9.postReq (within hs (by decide)))
    · rename_i y13 y14
      exact hv9

theorem Chg.closeIdle (h : Chg ps r s) (hs : [Part.regs, .ledgers, .ops, .srv] ⊆ ps) : Chg ps r (State.closeIdle s) := by
  unfold State.closeIdle
  refine Chg.foldl ?_ (fun a1 x2 h3 => ?_)
  · exact h
  · split
    · rename_i y4 y5 y6
      exact (Chg.ite h3 (h3.freeSeq (within hs (by decide))))
    · rename_i y7 y8
      exact h3

theorem Chg.setStep {a1 a2} (h : Chg ps r s) (hs : [Part.srv] ⊆ ps) : Chg ps r (State.setStep s a1 a2) :=
  (Chg.putSrv h (within hs (by decide)))

theorem Chg.dropStep {a1} (h : Chg ps r s) (hs : [Part.srv] ⊆ ps) : Chg ps r (State.dropStep s a1) :=
  (Chg.putSrv h (within hs (by decide)))

theorem Chg.stepFail {a1 a2 a3 a4} (h : Chg ps r s) (hs : [Part.regs, .ledgers, .ops, .srv] ⊆ ps) : Chg ps r (State.stepFail s a1 a2 a3 a4) := by
  unfold State.stepFail
  extract_lets -underBinder v0 v1 v2
  have hv1 : Chg ps r v1 := by
    unfold v1
    exact (Chg.putSrv h (within hs (by decide)))
  clear_value v1
  have hv2 : Chg ps r v2 := by
    unfold v2
    refine Chg.foldl ?_ (fun a4 x5 h6 => ?_)
    · exact hv1
    · split
      · rename_i y7 y8
        exact h6
      · rename_i y9 y10 y11
        split
        · rename_i y12 y13
          exact h6
        · rename_i y14 y15 y16
          refine Chg.ite ?_ ?_
          · exact h6
          · extract_lets -underBinder v17
            have hv17 : Chg ps r v17 := by
              unfold v17
              exact (Chg.ite (h6.dropSlots (within hs (by decide))) h6)
            clear_value v17
            exact ((hv17.setSeq (within hs (by decide))).genEnd (within hs (by decide)))
  clear_value v2
  exact (hv2.dropStep (within hs (by decide)))

theorem Chg.stepAdvance {a1 a2} (h : Chg ps r s) (hs : [Part.ops, .srv] ⊆ ps) : Chg ps r (State.stepAdvance s a1 a2) := by
  unfold State.stepAdvance
  refine Chg.foldl ?_ (fun a1 x2 h3 => ?_)
  · exact h
  · split
    · rename_i y4 y5
      exact h3
    · rename_i y6 y7 y8
      split
      · rename_i y9 y10
        exact h3
      · rename_i y11 y12 y13
        refine Chg.ite ?_ ?_
        · exact h3
        · extract_lets -underBinder v14 v15
          clear_value v14
          have hv15 : Chg ps r v15 := by
            unfold v15
            exact (h3.setSeq (within hs (by decide)))
          clear_value v15
          exact (Chg.ite (hv15.genEnd (within hs (by decide))) (Chg.ite (hv15.genEnd (within hs (by decide))) (Chg.ite (hv15.genEnd (within hs (by decide))) (Chg.ite (hv15.genEnd (within hs (by decide))) hv15))))

theorem Chg.stepSettle {a1} (h : Chg ps r s) (hs : [Part.regs, .ledgers, .ops, .srv] ⊆ ps) : Chg ps r (State.stepSettle s a1) := by
  unfold State.stepSettle
  split
  · rename_i y0 y1
    exact h
  · rename_i y2 y3 y4
    refine Chg.ite ?_ ?_
    · exact h
    · split
      · rename_i y5 y6 y7 y8
        exact (Chg.ite h (h.stepFail (within hs (by decide))))
      · rename_i y9 y10
        extract_lets -underBinder v11
        have hv11 : Chg ps r v11 := by
          unfold v11
          exact (Chg.ite h ((h.stepAdvance (within hs (by decide))).setStep (within hs (by decide))))
        clear_value v11
        exact (Chg.ite (hv11.dropStep (within hs (by decide))) hv11)

theorem Chg.easelDrain (h : Chg ps r s) (hs : [Part.regs, .ledgers, .ops, .srv] ⊆ ps) : Chg ps r (State.easelDrain s) := by
  unfold State.easelDrain
  extract_lets -underBinder v0 v1 v2 v3
  clear_value v0
  clear_value v1
  have hv2 : Chg ps r v2 := by
    unfold v2
    exact (Chg.putSrv h (within hs (by decide)))
  clear_value v2
  have hv3 : Chg ps r v3 := by
    unfold v3
    refine Chg.foldl ?_ (fun a5 x6 h7 => ?_)
    · exact hv2
    · split
      · rename_i y8 y9 y10
        extract_lets -underBinder v11
        have hv11 : Chg ps r v11 := by
          unfold v11
          split
          · rename_i y12 y13 y14
            exact (Chg.ite (h7.returnTag (within hs (by decide))) h7)
          · rename_i y15 y16
            exact h7
        clear_value v11
        split
        · rename_i y17 y18
          exact hv11
        · rename_i y19 y20 y21
          extract_lets -underBinder v22 v23
          clear_value v22
          have hv23 : Chg ps r v23 := by
            unfold v23
            exact (Chg.ite (hv11.setStep (within hs (by decide))) hv11)
          clear_value v23
          refine Chg.ite ?_ ?_
          · refine Chg.foldl ?_ (fun a26 x27 h28 => ?_)
            · exact hv23
            · split
              · rename_i y29 y30 y31
                exact (h28.setSeq (within hs (by decide)))
              · rename_i y32 y33
                exact h28
          · exact hv23
  clear_value v3
  exact (Chg.foldl hv3 (fun _ _ h34 => (h34.stepSettle (within hs (by decide)))))

theorem Chg.srvSweep (h : Chg ps r s) (hs : [Part.regs, .ledgers, .ops, .srv] ⊆ ps) : Chg ps r (State.srvSweep s) := by
  unfold State.srvSweep
  extract_lets -underBinder v0 v1 v2
  have hv1 : Chg ps r v1 := by
    unfold v1
    exact (Chg.foldl h (fun _ _ h3 => (Chg.ite h3 (h3.glzEnd (within hs (by decide))))))
  clear_value v1
  have hv2 : Chg ps r v2 := by
    unfold v2
    refine Chg.foldl ?_ (fun a5 x6 h7 => ?_)
    · exact hv1
    · split
      · rename_i y8 y9 y10
        exact (Chg.ite h7 (((h7.dropRest (within hs (by decide))).countUp (within hs (by decide))).opEnd (within hs (by decide))))
      · rename_i y11 y12
        exact h7
  clear_value v2
  exact ((hv2.easelDrain (within hs (by decide))).closeIdle (within hs (by decide)))

theorem Chg.execTokenCommit {a1 a2} (h : Chg ps r s) (hs : [Part.free, .time, .regs, .ledgers, .out, .flt, .pow, .ops, .hif, .mem, .pan, .cad, .srv] ⊆ ps) : ∃ t, execTokenCommit a1 a2 s = .next t ∧ Chg ps r t := by
  refine ⟨_, rfl, ?_⟩
  split
  · rename_i y0 y1
    exact h
  · rename_i y2 y3 y4
    split
    · rename_i y5 y6 y7 y8 y9 y10
      split
      · rename_i y11 y12 y13 y14
        extract_lets -underBinder v15
        have hv15 : Chg ps r v15 := by
          unfold v15
          refine Chg.jobEnd ?_ (within hs (by decide))
          exact Chg.fst ((h.at (within hs (by decide))).commitRow (within hs (by decide))) y14
        clear_value v15
        refine Chg.closeIdle ?_ (within hs (by decide))
        split
        · rename_i y16 y17 y18
          exact (hv15.stepSettle (within hs (by decide)))
        · rename_i y19 y20
          exact hv15
    · rename_i y21 y22 y23
      exact h

theorem Chg.takeReq {a1 a2 a3 a4} (h : Chg ps r s) (hf4 : ∀ x0 x1, Chg ps r x0 → Chg ps r (a4 x0 x1)) (hs : [Part.time, .srv] ⊆ ps) : Chg ps r (State.takeReq s a1 a2 a3 a4) := by
  unfold State.takeReq
  split
  · rename_i y0 y1
    exact h
  · rename_i y2 y3 y4
    exact (Chg.ite h (hf4 _ _ ((Chg.putSrv h (within hs (by decide))).at (within hs (by decide)))))

theorem Chg.reqBlock {a1 a2 a3} (h : Chg ps r s) (hf3 : ∀ x0, Chg ps r (a3 x0)) (hs : [Part.regs, .ledgers, .out, .flt, .pow, .ops, .hif, .mem, .pan, .cad, .srv] ⊆ ps) : Chg ps r (State.reqBlock s a1 a2 a3) := by
  unfold State.reqBlock
  extract_lets -underBinder v0 v1
  clear_value v0
  clear_value v1
  generalize State.readDva _ _ _ _ = o2
  split
  · rename_i y3 y4 y5
    exact ((h.mmuFault (within hs (by decide))).postReq (within hs (by decide)))
  · rename_i y6 y7 y8
    exact (Chg.ite (h.postReq (within hs (by decide))) (hf3 _ ))

theorem Chg.planLoad {a1} (h : Chg ps r s) (hs : [Part.regs, .ledgers, .out, .flt, .pow, .ops, .hif, .mem, .pan, .cad, .srv] ⊆ ps) : Chg ps r (State.planLoad s a1) := by
  unfold State.planLoad
  refine Chg.reqBlock ?_ (fun x0  => ?_) (within hs (by decide))
  · exact h
  · extract_lets -underBinder v1 v2 v3 v4
    clear_value v3
    clear_value v4
    refine Chg.ite ?_ ?_
    · exact (h.postReq (within hs (by decide)))
    · refine Chg.ite ?_ ?_
      · exact (h.postReq (within hs (by decide)))
      · generalize State.readDva _ _ _ _ = o5
        split
        · rename_i y6 y7 y8
          exact ((h.mmuFault (within hs (by decide))).postReq (within hs (by decide)))
        · rename_i y9 y10 y11
          refine Chg.ite ?_ ?_
          · exact (h.postReq (within hs (by decide)))
          · split
            · rename_i y12 y13 y14
              exact (h.postReq (within hs (by decide)))
            · rename_i y15 y16
              extract_lets -underBinder v17 v18
              have hv18 : Chg ps r v18 := by
                unfold v18
                exact (Chg.putSrv h (within hs (by decide)))
              clear_value v18
              exact (hv18.postReq (within hs (by decide)))

theorem Chg.execPlanLoad {a1 a2} (h : Chg ps r s) (hs : [Part.time, .regs, .ledgers, .out, .flt, .pow, .ops, .hif, .mem, .pan, .cad, .srv] ⊆ ps) : ∃ t, execPlanLoad a1 a2 s = .next t ∧ Chg ps r t := by
  refine ⟨_, rfl, ?_⟩
  exact (h.takeReq (fun _ _ h0 => (Chg.ite (h0.planLoad (within hs (by decide))) h)) (within hs (by decide)))

theorem Chg.seqOpen {a1 a2} (h : Chg ps r s) (hs : [Part.ledgers, .ops, .srv] ⊆ ps) : Chg ps r (State.seqOpen s a1 a2) := by
  unfold State.seqOpen
  extract_lets -underBinder v0 v1
  clear_value v1
  refine Chg.ite ?_ ?_
  · exact (h.postReq (within hs (by decide)))
  · refine Chg.ite ?_ ?_
    · exact (h.postReq (within hs (by decide)))
    · split
      · rename_i y2
        exact (h.postReq (within hs (by decide)))
      · rename_i y3 y4
        extract_lets -underBinder v5
        have hv5 : Chg ps r v5 := by
          unfold v5
          exact ((h.setSeq (within hs (by decide))).move (within hs (by decide)))
        clear_value v5
        exact (hv5.postReq (within hs (by decide)))

theorem Chg.execSeqOpen {a1 a2 a3} (h : Chg ps r s) (hs : [Part.time, .ledgers, .ops, .srv] ⊆ ps) : ∃ t, execSeqOpen a1 a2 a3 s = .next t ∧ Chg ps r t := by
  refine ⟨_, rfl, ?_⟩
  exact (h.takeReq (fun _ _ h0 => (h0.seqOpen (within hs (by decide)))) (within hs (by decide)))

theorem Chg.withSeq {a1 a2} (h : Chg ps r s) (hf2 : ∀ x0 x1, Chg ps r (a2 x0 x1)) (hs : [Part.ops, .srv] ⊆ ps) : Chg ps r (State.withSeq s a1 a2) := by
  unfold State.withSeq
  split
  · rename_i y0 y1
    exact (h.postReq (within hs (by decide)))
  · rename_i y2 y3 y4 y5
    exact (Chg.ite (h.postReq (within hs (by decide))) (hf2 _ _ ))

theorem Chg.seqPause {a1} (h : Chg ps r s) (hs : [Part.ops, .srv] ⊆ ps) : Chg ps r (State.seqPause s a1) := by
  unfold State.seqPause
  refine Chg.withSeq ?_ (fun x0 x1  => ?_) (within hs (by decide))
  · exact h
  · extract_lets -underBinder v2 v3
    clear_value v3
    refine Chg.ite ?_ ?_
    · exact (h.postReq (within hs (by decide)))
    · refine Chg.ite ?_ ?_
      · exact (h.postReq (within hs (by decide)))
      · refine Chg.ite ?_ ?_
        · exact (Chg.ite (h.postReq (within hs (by decide))) (h.postReq (within hs (by decide))))
        · split
          · rename_i y4 y5
            exact (Chg.ite (h.setSeq (within hs (by decide))) (h.postReq (within hs (by decide))))
          · rename_i y6 y7 y8
            extract_lets -underBinder v9
            have hv9 : Chg ps r v9 := by
              unfold v9
              exact (h.setSeq (within hs (by decide)))
            clear_value v9
            exact (Chg.ite (hv9.genEnd (within hs (by decide))) hv9)

theorem Chg.execSeqPause {a1 a2} (h : Chg ps r s) (hs : [Part.time, .ops, .srv] ⊆ ps) : ∃ t, execSeqPause a1 a2 s = .next t ∧ Chg ps r t := by
  refine ⟨_, rfl, ?_⟩
  exact (h.takeReq (fun _ _ h0 => (h0.seqPause (within hs (by decide)))) (within hs (by decide)))

theorem Chg.lateMark {a1} (h : Chg ps r s) (hs : [Part.ops] ⊆ ps) : Chg ps r (State.lateMark s a1).1 := by
  unfold State.lateMark
  split
  · rename_i y0 y1
    dsimp only
    exact h
  · rename_i y2 y3 y4 y5 y6
    extract_lets -underBinder v7 v8
    clear_value v7
    split
    · rename_i y9
      dsimp only
      exact (h.setCq (within hs (by decide)))
    · rename_i y10
      dsimp only
      exact h

theorem Chg.cancelSeq {a1 a2 a3} (h : Chg ps r s) (hs : [Part.ops, .srv] ⊆ ps) : Chg ps r (State.cancelSeq s a1 a2 a3).1 := by
  unfold State.cancelSeq
  split
  · rename_i y0
    split
    · rename_i y1
      dsimp only
      exact (h.setSeq (within hs (by decide)))
    · rename_i y2
      dsimp only
      exact h
  · rename_i y3
    split
    · rename_i y4 y5
      extract_lets -underBinder v6
      have hv6 : Chg ps r v6.1 := by
        unfold v6
        exact (h.lateMark (within hs (by decide)))
      clear_value v6
      dsimp only
      exact hv6
    · rename_i y7 y8 y9
      extract_lets -underBinder v10
      have hv10 : Chg ps r v10 := by
        unfold v10
        exact (h.setSeq (within hs (by decide)))
      clear_value v10
      split
      · rename_i y11
        dsimp only
        exact hv10
      · rename_i y12
        dsimp only
        exact (hv10.genEnd (within hs (by decide)))

theorem Chg.execSeqCancel {a1 a2} (h : Chg ps r s) (hs : [Part.time, .ops, .srv] ⊆ ps) : ∃ t, execSeqCancel a1 a2 s = .next t ∧ Chg ps r t := by
  refine ⟨_, rfl, ?_⟩
  refine Chg.takeReq ?_ (fun x1 x2 h3 => ?_) (within hs (by decide))
  · exact h
  · refine Chg.withSeq ?_ (fun x4 x5  => ?_) (within hs (by decide))
    · exact h3
    · extract_lets -underBinder v6
      have hv6 : Chg ps r v6.1 := by
        unfold v6
        exact (h3.cancelSeq (within hs (by decide)))
      clear_value v6
      exact (hv6.postReq (within hs (by decide)))

theorem Chg.execGenerateTimeout {a1 a2} (h : Chg ps r s) (hs : [Part.time, .regs, .ledgers, .ops, .srv] ⊆ ps) : ∃ t, execGenerateTimeout a1 a2 s = .next t ∧ Chg ps r t := by
  refine ⟨_, rfl, ?_⟩
  split
  · rename_i y0 y1
    exact h
  · rename_i y2 y3 y4
    exact (Chg.ite (((h.at (within hs (by decide))).cancelSeq (within hs (by decide))).closeIdle (within hs (by decide))) h)

theorem Chg.seqClose {a1} (h : Chg ps r s) (hs : [Part.regs, .ledgers, .ops, .srv] ⊆ ps) : Chg ps r (State.seqClose s a1) := by
  unfold State.seqClose
  refine Chg.withSeq ?_ (fun x0 x1  => ?_) (within hs (by decide))
  · exact h
  · refine Chg.ite ?_ ?_
    · exact (h.postReq (within hs (by decide)))
    · extract_lets -underBinder v2
      have hv2 : Chg ps r v2 := by
        unfold v2
        exact (h.cancelSeq (within hs (by decide)))
      clear_value v2
      split
      · rename_i y3 y4
        exact hv2
      · rename_i y5 y6 y7
        extract_lets -underBinder v8
        have hv8 : Chg ps r v8 := by
          unfold v8
          split
          · rename_i y9 y10 y11
            exact (hv2.postReq (within hs (by decide)))
          · rename_i y12 y13
            exact hv2
        clear_value v8
        exact (((hv8.setSeq (within hs (by decide))).move (within hs (by decide))).closeIdle (within hs (by decide)))

theorem Chg.execSeqClose {a1 a2} (h : Chg ps r s) (hs : [Part.time, .regs, .ledgers, .ops, .srv] ⊆ ps) : ∃ t, execSeqClose a1 a2 s = .next t ∧ Chg ps r t := by
  refine ⟨_, rfl, ?_⟩
  exact (h.takeReq (fun _ _ h0 => (h0.seqClose (within hs (by decide)))) (within hs (by decide)))

theorem Chg.genBegin {a1} (h : Chg ps r s) (hs : [Part.regs, .ledgers, .ops, .srv] ⊆ ps) : Chg ps r (State.genBegin s a1) := by
  unfold State.genBegin
  split
  · rename_i y0 y1
    exact h
  · rename_i y2 y3 y4
    split
    · rename_i y5 y6
      exact h
    · rename_i y7 y8 y9
      extract_lets -underBinder v10 v11 v12 v13 v14
      clear_value v11
      clear_value v12
      clear_value v13
      have hv14 : Chg ps r v14 := by
        unfold v14
        exact (h.setSeq (within hs (by decide)))
      clear_value v14
      split
      · rename_i y15 y16 y17 y18
        extract_lets -underBinder v19
        split
        · rename_i y20 y21
          refine Chg.fst ?_ y18
          split
          · rename_i y22
            exact (hv14.prefixLookup (within hs (by decide)))
          · rename_i y23
            dsimp only
            exact hv14
        · rename_i y24 y25 y26
          extract_lets -underBinder v27 v28
          clear_value v27
          have hv28 : Chg ps r v28 := by
            unfold v28
            refine Chg.setSeq ?_ (within hs (by decide))
            refine Chg.fst ?_ y18
            split
            · rename_i y29
              exact (hv14.prefixLookup (within hs (by decide)))
            · rename_i y30
              dsimp only
              exact hv14
          clear_value v28
          exact (Chg.ite (hv28.genEnd (within hs (by decide))) hv28)

theorem Chg.seqGenerate {a1 a2} (h : Chg ps r s) (hs : [Part.regs, .ledgers, .out, .flt, .pow, .ops, .hif, .mem, .pan, .cad, .srv] ⊆ ps) : Chg ps r (State.seqGenerate s a1 a2) := by
  unfold State.seqGenerate
  refine Chg.withSeq ?_ (fun x0 x1  => ?_) (within hs (by decide))
  · exact h
  · refine Chg.ite ?_ ?_
    · exact (h.postReq (within hs (by decide)))
    · refine Chg.ite ?_ ?_
      · exact (h.postReq (within hs (by decide)))
      · refine Chg.ite ?_ ?_
        · exact (h.postReq (within hs (by decide)))
        · refine Chg.ite ?_ ?_
          · exact (h.postReq (within hs (by decide)))
          · refine Chg.reqBlock ?_ (fun x2  => ?_) (within hs (by decide))
            · exact h
            · split
              · rename_i y3 y4 y5
                exact (h.postReq (within hs (by decide)))
              · rename_i y6 y7
                extract_lets -underBinder v8 v9 v10 v11 v12 v13
                clear_value v9
                clear_value v11
                clear_value v12
                refine Chg.ite ?_ ?_
                · exact (h.postReq (within hs (by decide)))
                · refine Chg.ite ?_ ?_
                  · exact (h.postReq (within hs (by decide)))
                  · generalize State.readDva _ _ _ _ = o14
                    split
                    · rename_i y15 y16 y17
                      exact ((h.mmuFault (within hs (by decide))).postReq (within hs (by decide)))
                    · rename_i y18 y19 y20
                      refine Chg.ite ?_ ?_
                      · exact (h.postReq (within hs (by decide)))
                      · extract_lets -underBinder v21 v22
                        clear_value v21
                        have hv22 : Chg ps r v22 := by
                          unfold v22
                          exact (h.setSeq (within hs (by decide)))
                        clear_value v22
                        exact (Chg.ite hv22 (hv22.genBegin (within hs (by decide))))

theorem Chg.execSeqGenerate {a1 a2} (h : Chg ps r s) (hs : [Part.time, .regs, .ledgers, .out, .flt, .pow, .ops, .hif, .mem, .pan, .cad, .srv] ⊆ ps) : ∃ t, execSeqGenerate a1 a2 s = .next t ∧ Chg ps r t := by
  refine ⟨_, rfl, ?_⟩
  exact (h.takeReq (fun _ _ h0 => (Chg.ite (h0.seqGenerate (within hs (by decide))) h)) (within hs (by decide)))

theorem Chg.easelMove {a1} (h : Chg ps r s) (hs : [Part.free, .regs, .ledgers, .out, .ops, .hif, .srv] ⊆ ps) : Chg ps r (State.easelMove s a1) := by
  unfold State.easelMove
  split
  · rename_i y0 y1
    exact h
  · rename_i y2 y3 y4
    refine Chg.ite ?_ ?_
    · refine Chg.ite ?_ ?_
      · exact h
      · split
        · rename_i y5 y6 y7
          have hp8 : Chg ps r y6 := Chg.moveOpen h (within hs (by decide)) y7
          exact hp8
        · rename_i y9 y10
          extract_lets -underBinder v11
          have hv11 : Chg ps r v11 := by
            unfold v11
            exact (h.setSeq (within hs (by decide)))
          clear_value v11
          split
          · rename_i y12 y13 y14
            exact (hv11.postReq (within hs (by decide)))
          · rename_i y15 y16
            exact hv11
    · refine Chg.ite ?_ ?_
      · split
        · rename_i y17 y18 y19
          have hp20 : Chg ps r y18 := Chg.moveOpen h (within hs (by decide)) y19
          exact hp20
        · rename_i y21 y22
          exact (h.genEnd (within hs (by decide)))
      · exact h

theorem Chg.moveClose {a1 a2} (h : Chg ps r s) (hs : [Part.regs, .ledgers, .out, .flt, .pow, .ops, .hif, .mem, .pan, .cad, .srv] ⊆ ps) : Chg ps r (State.moveClose s a1 a2) := by
  unfold State.moveClose
  extract_lets -underBinder v0 v1 v2 v3
  have hv0 : Chg ps r v0 := by
    unfold v0
    exact (Chg.foldl h (fun _ _ h4 => (h4.moveSet (within hs (by decide)))))
  clear_value v0
  clear_value v1
  have hv2 : Chg ps r v2 := by
    unfold v2
    exact (Chg.putSrv hv0 (within hs (by decide)))
  clear_value v2
  have hv3 : Chg ps r v3 := by
    unfold v3
    split
    · rename_i y5 y6
      exact hv2
    · rename_i y7 y8 y9
      refine Chg.ite ?_ ?_
      · exact hv2
      · refine Chg.ite ?_ ?_
        · split
          · rename_i y10 y11 y12
            exact (((hv2.setSeq (within hs (by decide))).parked (within hs (by decide))).postReq (within hs (by decide)))
          · rename_i y13 y14
            exact (hv2.parked (within hs (by decide)))
        · extract_lets -underBinder v15
          have hv15 : Chg ps r v15 := by
            unfold v15
            exact (hv2.setSeq (within hs (by decide)))
          clear_value v15
          exact (Chg.ite (hv15.genBegin (within hs (by decide))) hv15)
  clear_value v3
  split
  · rename_i y16 y17 y18
    exact (hv3.opEnd (within hs (by decide)))
  · rename_i y19 y20
    exact hv3

theorem Chg.execGlazeMove {a1 a2 a3} (h : Chg ps r s) (hs : [Part.free, .time, .regs, .ledgers, .out, .flt, .pow, .ops, .hif, .mem, .pan, .cad, .srv] ⊆ ps) : ∃ t, execGlazeMove a1 a2 a3 s = .next t ∧ Chg ps r t := by
  refine ⟨_, rfl, ?_⟩
  split
  · rename_i y0 y1 y2 y3
    exact (Chg.ite (((h.at (within hs (by decide))).moveClose (within hs (by decide))).closeIdle (within hs (by decide))) h)
  · rename_i y4 y5
    split
    · rename_i y6 y7
      exact (h.issue (fun _ _ h8 => (Chg.ite (h8.moveStart (within hs (by decide))) h)) (within hs (by decide)))
    · rename_i y9
      exact (Chg.ite (((h.at (within hs (by decide))).easelMove (within hs (by decide))).closeIdle (within hs (by decide))) h)

theorem Chg.issueTemplates {a1 a2 a3 a4 a5} (h : Chg ps r s) (hs : [Part.ledgers, .ops] ⊆ ps) : Chg ps r (State.issueTemplates s a1 a2 a3 a4 a5) := by
  unfold State.issueTemplates
  refine Chg.foldl ?_ (fun a1 x2 h3 => ?_)
  · exact h
  · extract_lets -underBinder v4 v5 v6
    clear_value v4
    clear_value v5
    clear_value v6
    split
    · rename_i y7 y8 y9
      exact (h3.takeOp (within hs (by decide)))
    · rename_i y10 y11
      exact h3

theorem Chg.batchPut {a1 a2 a3 a4 a5 a6 a7 a8 a9 a10} (h : Chg ps r s) (hs : [Part.regs, .ledgers, .out, .flt, .pow, .ops, .hif, .mem, .pan, .cad, .srv] ⊆ ps) : Chg ps r (State.batchPut s a1 a2 a3 a4 a5 a6 a7 a8 a9 a10) := by
  rw [State.batchPut]
  generalize State.writeFault _ _ _ _ = o0
  cases o0 with
  | some d => exact (h.mmuFault (within hs (by decide))).stepFail (within hs (by decide))
  | none => exact ((h.writeDva (within hs (by decide))).relAdd (within hs (by decide))).issueTemplates (within hs (by decide))

theorem Chg.batchStep {a1 a2 a3} (h : Chg ps r s) (hs : [Part.regs, .ledgers, .out, .flt, .pow, .ops, .hif, .mem, .pan, .cad, .srv] ⊆ ps) : Chg ps r (State.batchStep s a1 a2 a3) := by
  unfold State.batchStep
  extract_lets -underBinder v0 v1 v2 v3 v4 v5 v6 v7 v8 v9 v10 v11 v12 v13 v14 v15
  clear_value v0
  clear_value v4
  have hv5 : Chg ps r v5 := by
    unfold v5
    exact (Chg.ite (h.event (within hs (by decide))) h)
  clear_value v5
  have hv7 : Chg ps r v7 := by
    unfold v7
    exact (Chg.foldl hv5 (fun _ _ h16 => (h16.holdSlots (within hs (by decide)))))
  clear_value v7
  have hv8 : Chg ps r v8 := by
    unfold v8
    refine Chg.foldl ?_ (fun a18 x19 h20 => ?_)
    · exact hv7
    · split
      · rename_i y21 y22 y23
        extract_lets -underBinder v24
        clear_value v24
        exact (h20.setSeq (within hs (by decide)))
      · rename_i y25 y26
        exact h20
  clear_value v8
  clear_value v9
  clear_value v10
  have hv12 : Chg ps r v12 := by
    unfold v12
    exact ((Chg.putSrv hv8 (within hs (by decide))).setStep (within hs (by decide)))
  clear_value v12
  clear_value v13
  clear_value v15
  exact (Chg.ite hv5 (hv12.batchPut (within hs (by decide))))

theorem Chg.execBatchStep {a1 a2 a3 a4} (h : Chg ps r s) (hs : [Part.time, .regs, .ledgers, .out, .flt, .pow, .ops, .hif, .mem, .pan, .cad, .srv] ⊆ ps) : ∃ t, execBatchStep a1 a2 a3 a4 s = .next t ∧ Chg ps r t := by
  refine ⟨_, rfl, ?_⟩
  exact (Chg.ite ((h.at (within hs (by decide))).batchStep (within hs (by decide))) h)

theorem Chg.execStepReissue {a1 a2 a3 a4} (h : Chg ps r s) (hs : [Part.time, .ledgers, .ops, .srv] ⊆ ps) : ∃ t, execStepReissue a1 a2 a3 a4 s = .next t ∧ Chg ps r t := by
  refine ⟨_, rfl, ?_⟩
  split
  · rename_i y0 y1
    exact h
  · rename_i y2 y3 y4
    extract_lets -underBinder v5 v6
    clear_value v5
    exact (Chg.ite h (((h.at (within hs (by decide))).setStep (within hs (by decide))).issueTemplates (within hs (by decide))))

theorem Chg.execEaselSampleIssue {a1 a2 a3 a4} (h : Chg ps r s) (hs : [Part.time, .regs, .ledgers, .ops, .srv] ⊆ ps) : ∃ t, execEaselSampleIssue a1 a2 a3 a4 s = .next t ∧ Chg ps r t := by
  refine ⟨_, rfl, ?_⟩
  split
  · rename_i y0 y1
    exact h
  · rename_i y2 y3 y4
    extract_lets -underBinder v5 v6 v7 v8 v9 v10
    clear_value v5
    clear_value v6
    clear_value v8
    have hv9 : Chg ps r v9 := by
      unfold v9
      exact ((h.at (within hs (by decide))).setStep (within hs (by decide)))
    clear_value v9
    have hv10 : Chg ps r v10 := by
      unfold v10
      refine Chg.foldl ?_ (fun a12 x13 h14 => ?_)
      · exact hv9
      · split
        · rename_i y15 y16 y17
          exact (h14.setSeq (within hs (by decide)))
        · rename_i y18 y19
          exact h14
    clear_value v10
    exact (Chg.ite h (Chg.ite (hv10.stepSettle (within hs (by decide))) (hv10.setJob (within hs (by decide)))))

end Sys2Proof.Machine
end

