-- ==== Sys2Proof/Laws/Vce.lean ====
section
/-! SUPPORT. What each operation of Machine/Vce.lean touches at most, and that it keeps the ledgers and the byte stores in form (Chg). -/

namespace Sys2Proof.Machine

open Sys2Proof

variable {ps : List Part} {r s t : State}



theorem Chg.setVctx {a1 a2 a3} (h : Chg ps r s) (hs : [Part.vce] ⊆ ps) : Chg ps r (State.setVctx s a1 a2 a3) :=
  (Chg.putVce h (within hs (by decide)))

theorem Chg.setDec {a1 a2} (h : Chg ps r s) (hs : [Part.vce] ⊆ ps) : Chg ps r (State.setDec s a1 a2) :=
  (Chg.putVce h (within hs (by decide)))

theorem Chg.setEnc {a1 a2} (h : Chg ps r s) (hs : [Part.vce] ⊆ ps) : Chg ps r (State.setEnc s a1 a2) :=
  (Chg.putVce h (within hs (by decide)))

theorem Chg.setBit {a1 a2 a3 a4} (h : Chg ps r s) (hs : [Part.regs] ⊆ ps) : Chg ps r (State.setBit s a1 a2 a3 a4) := by
  unfold State.setBit
  extract_lets -underBinder v0 v1
  exact (h.setFld (within hs (by decide)))

theorem Chg.vEnd {a1 a2 a3 a4} (h : Chg ps r s) (hs : [Part.ops] ⊆ ps) : Chg ps r (State.vEnd s a1 a2 a3 a4) := by
  unfold State.vEnd
  split
  · rename_i y0 y1 y2
    exact (h.opEnd (within hs (by decide)))
  · rename_i y3 y4
    exact h

theorem Chg.vFree {a1 a2 a3} (h : Chg ps r s) (hs : [Part.regs, .ledgers, .ops, .vce] ⊆ ps) : Chg ps r (State.vFree s a1 a2 a3) := by
  unfold State.vFree
  extract_lets -underBinder v0 v1 v2 v3 v4
  have hv2 : Chg ps r v2 := by
    unfold v2
    exact (Chg.putVce h (within hs (by decide)))
  clear_value v2
  have hv3 : Chg ps r v3 := by
    unfold v3
    exact (Chg.ite (hv2.reclaim (within hs (by decide))) (hv2.move (within hs (by decide))))
  clear_value v3
  have hv4 : Chg ps r v4 := by
    unfold v4
    exact (Chg.ite (hv3.setBit (within hs (by decide))) hv3)
  clear_value v4
  split
  · rename_i y5 y6 y7
    exact (hv4.opEnd (within hs (by decide)))
  · rename_i y8 y9
    exact hv4

theorem Chg.vClose {a1 a2 a3 a4} (h : Chg ps r s) (hs : [Part.regs, .ledgers, .ops, .vce] ⊆ ps) : Chg ps r (State.vClose s a1 a2 a3 a4) := by
  unfold State.vClose
  split
  · rename_i y0 y1
    exact h
  · rename_i y2 y3 y4
    refine Chg.ite ?_ ?_
    · exact h
    · extract_lets -underBinder v5 v6 v7
      have hv5 : Chg ps r v5 := by
        unfold v5
        exact (Chg.foldl h (fun _ _ h8 => (h8.vEnd (within hs (by decide)))))
      clear_value v5
      clear_value v6
      have hv7 : Chg ps r v7 := by
        unfold v7
        exact ((hv5.setVctx (within hs (by decide))).move (within hs (by decide)))
      clear_value v7
      exact (Chg.ite hv7 (hv7.vFree (within hs (by decide))))

theorem Chg.vCloseAll {a1} (h : Chg ps r s) (hs : [Part.regs, .ledgers, .ops, .vce] ⊆ ps) : Chg ps r (State.vCloseAll s a1) :=
  (Chg.foldl h (fun _ _ h0 => (Chg.foldl h0 (fun _ _ h1 => (h1.vClose (within hs (by decide)))))))

theorem Chg.vOrder (h : Chg ps r s) (hs : [Part.vce] ⊆ ps) : Chg ps r (State.vOrder s) :=
  (Chg.putVce h (within hs (by decide)))

theorem Chg.vPop {a1 a2} (h : Chg ps r s) (hs : [Part.vce] ⊆ ps) : Chg ps r (State.vPop s a1 a2) := by
  unfold State.vPop
  split
  · rename_i y0 y1
    exact h
  · rename_i y2 y3 y4
    exact ((h.setVctx (within hs (by decide))).vOrder (within hs (by decide)))

theorem Chg.vPush {a1 a2 a3 a4} (h : Chg ps r s) (hs : [Part.vce] ⊆ ps) : Chg ps r (State.vPush s a1 a2 a3 a4) :=
  ((h.setVctx (within hs (by decide))).vOrder (within hs (by decide)))

theorem Chg.vDeliver {a1 a2 a3 a4 a5} (h : Chg ps r s) (hs : [Part.vce] ⊆ ps) : Chg ps r (State.vDeliver s a1 a2 a3 a4 a5) := by
  unfold State.vDeliver
  split
  · rename_i y0 y1 y2
    exact (Chg.ite h (h.vPush (within hs (by decide))))
  · rename_i y3 y4
    exact h

theorem Chg.vTakeAus {a1 a2 a3} (h : Chg ps r s) (hs : [Part.vce, .ing] ⊆ ps) : Chg ps r (State.vTakeAus s a1 a2 a3) := by
  unfold State.vTakeAus
  split
  · rename_i y0 y1
    exact h
  · rename_i y2 y3 y4
    extract_lets -underBinder v5 v6
    have hv5 : Chg ps r v5 := by
      unfold v5
      exact (Chg.foldl h (fun _ _ h7 => (h7.vDeliver (within hs (by decide)))))
    clear_value v5
    exact (Chg.putIng hv5 (within hs (by decide)))

theorem Chg.vFlushes {a1 a2 a3} (h : Chg ps r s) (hs : [Part.ops, .vce] ⊆ ps) : Chg ps r (State.vFlushes s a1 a2 a3) := by
  induction a3 generalizing s with
  | zero => exact h
  | succ n ih =>
    unfold State.vFlushes
    split
    · split
      · exact Chg.ite (ih ((h.vEnd (within hs (by decide))).setVctx (within hs (by decide)))) h
      · exact h
    · exact h

theorem Chg.vSweep (h : Chg ps r s) (hs : [Part.ops, .vce] ⊆ ps) : Chg ps r (State.vSweep s) := by
  unfold State.vSweep
  extract_lets -underBinder v0
  refine Chg.foldl ?_ (fun a2 x3 h4 => ?_)
  · exact h
  · split
    · rename_i y5 y6
      exact h4
    · rename_i y7 y8 y9
      extract_lets -underBinder v10 v11
      clear_value v10
      have hv11 : Chg ps r v11 := by
        unfold v11
        exact (Chg.foldl h4 (fun _ _ h12 => (h12.vEnd (within hs (by decide)))))
      clear_value v11
      exact (Chg.ite h4 ((hv11.setVctx (within hs (by decide))).vFlushes (within hs (by decide))))

theorem Chg.vIssue {a1 a2 a3 a4 a5 a6} (h : Chg ps r s) (hf6 : ∀ x0 x1 x2, Chg ps r x0 → Chg ps r (a6 x0 x1 x2)) (hs : [Part.time, .regs, .ledgers, .out, .flt, .pow, .ops, .hif, .mem, .pan, .cad] ⊆ ps) : Chg ps r (State.vIssue s a1 a2 a3 a4 a5 a6) := by
  unfold State.vIssue
  split
  · rename_i y0 y1
    exact h
  · rename_i y2 y3 y4
    extract_lets -underBinder v5 v6 v7
    refine Chg.ite ?_ ?_
    · exact h
    · refine Chg.issue ?_ (fun x10 x11 h12 => ?_) (within hs (by decide))
      · exact h
      · extract_lets -underBinder v13
        clear_value v13
        exact (((h12.setOp (within hs (by decide))).move (within hs (by decide))).withArg (fun _ => (hf6 _ _ _ ((h12.setOp (within hs (by decide))).move (within hs (by decide))))) (within hs (by decide)))

theorem Chg.vParams {a1 a2 a3 a4} (h : Chg ps r s) (hf4 : ∀ x0, Chg ps r (a4 x0)) (hs : [Part.regs, .ledgers, .out, .flt, .pow, .ops, .hif, .mem, .pan, .cad] ⊆ ps) : Chg ps r (State.vParams s a1 a2 a3 a4) := by
  rw [State.vParams]
  generalize State.readDva _ _ _ _ = o0
  cases o0 with
  | bad d e => exact (h.opFault (within hs (by decide)))
  | ok b p => exact (Chg.ite (h.opEnd (within hs (by decide))) (hf4 _ ))

theorem Chg.vClaim {a1 a2 a3 a4 a5 a6} (h : Chg ps r s) (hs : [Part.regs, .ledgers, .ops, .vce, .ing] ⊆ ps) : Chg ps r (State.vClaim s a1 a2 a3 a4 a5 a6) := by
  unfold State.vClaim
  extract_lets -underBinder v0 v1 v2
  clear_value v2
  split
  · rename_i y3 y4
    refine Chg.ite ?_ ?_
    · exact (h.opEnd (within hs (by decide)))
    · extract_lets -underBinder v5 v6 v7
      have hv5 : Chg ps r v5 := by
        unfold v5
        exact (((h.setVctx (within hs (by decide))).vOrder (within hs (by decide))).move (within hs (by decide)))
      clear_value v5
      have hv6 : Chg ps r v6 := by
        unfold v6
        exact (Chg.ite (hv5.setBit (within hs (by decide))) hv5)
      clear_value v6
      have hv7 : Chg ps r v7 := by
        unfold v7
        exact (Chg.ite (hv6.vTakeAus (within hs (by decide))) hv6)
      clear_value v7
      exact (hv7.opEnd (within hs (by decide)))
  · rename_i y8
    exact (h.opEnd (within hs (by decide)))

theorem Chg.execVdecOpen {a1 a2 a3 a4} (h : Chg ps r s) (hs : [Part.time, .regs, .ledgers, .out, .flt, .pow, .ops, .hif, .mem, .pan, .cad, .vce, .ing] ⊆ ps) : ∃ t, execVdecOpen a1 a2 a3 a4 s = .next t ∧ Chg ps r t := by
  refine ⟨_, rfl, ?_⟩
  refine Chg.vIssue ?_ (fun x1 x2 x3 h4 => ?_) (within hs (by decide))
  · exact h
  · split
    · rename_i y5 y6 y7
      exact (h4.opEnd (within hs (by decide)))
    · rename_i y8 y9
      refine Chg.vParams ?_ (fun x10  => ?_) (within hs (by decide))
      · exact h4
      · split
        · rename_i y11 y12 y13
          exact (h4.opEnd (within hs (by decide)))
        · rename_i y14 y15
          exact (Chg.ite (h4.opEnd (within hs (by decide))) (h4.vClaim (within hs (by decide))))

theorem Chg.execVencOpen {a1 a2 a3 a4} (h : Chg ps r s) (hs : [Part.time, .regs, .ledgers, .out, .flt, .pow, .ops, .hif, .mem, .pan, .cad, .vce, .ing] ⊆ ps) : ∃ t, execVencOpen a1 a2 a3 a4 s = .next t ∧ Chg ps r t := by
  refine ⟨_, rfl, ?_⟩
  refine Chg.vIssue ?_ (fun x1 x2 x3 h4 => ?_) (within hs (by decide))
  · exact h
  · split
    · rename_i y5 y6 y7
      exact (h4.opEnd (within hs (by decide)))
    · rename_i y8 y9
      refine Chg.vParams ?_ (fun x10  => ?_) (within hs (by decide))
      · exact h4
      · split
        · rename_i y11 y12 y13
          exact (h4.opEnd (within hs (by decide)))
        · rename_i y14 y15
          exact (h4.vClaim (within hs (by decide)))

theorem Chg.vNamed {a1 a2 a3 a4 a5 a6 a7} (h : Chg ps r s) (hf7 : ∀ x0 x1, Chg ps r (a7 x0 x1)) (hs : [Part.ops] ⊆ ps) : Chg ps r (State.vNamed s a1 a2 a3 a4 a5 a6 a7) := by
  unfold State.vNamed
  split
  · rename_i y0 y1 y2
    exact (h.opEnd (within hs (by decide)))
  · rename_i y3 y4
    extract_lets -underBinder v5
    split
    · rename_i y6 y7
      exact (h.opEnd (within hs (by decide)))
    · rename_i y8 y9 y10
      exact (Chg.ite (h.opEnd (within hs (by decide))) (Chg.ite (h.opEnd (within hs (by decide))) (hf7 _ _ )))

theorem Chg.vQueue {a1 a2 a3 a4 a5 a6} (h : Chg ps r s) (hs : [Part.ops, .vce] ⊆ ps) : Chg ps r (State.vQueue s a1 a2 a3 a4 a5 a6) :=
  ((h.vPush (within hs (by decide))).vFlushes (within hs (by decide)))

theorem Chg.execVdecDecode {a1 a2 a3} (h : Chg ps r s) (hs : [Part.time, .regs, .ledgers, .out, .flt, .pow, .ops, .hif, .mem, .pan, .cad, .vce] ⊆ ps) : ∃ t, execVdecDecode a1 a2 a3 s = .next t ∧ Chg ps r t := by
  refine ⟨_, rfl, ?_⟩
  exact (h.vIssue (fun _ _ _ h0 => (h0.vNamed (fun _ _ => (h0.vQueue (within hs (by decide)))) (within hs (by decide)))) (within hs (by decide)))

theorem Chg.execVdecFlush {a1 a2 a3} (h : Chg ps r s) (hs : [Part.time, .regs, .ledgers, .out, .flt, .pow, .ops, .hif, .mem, .pan, .cad, .vce] ⊆ ps) : ∃ t, execVdecFlush a1 a2 a3 s = .next t ∧ Chg ps r t := by
  refine ⟨_, rfl, ?_⟩
  exact (h.vIssue (fun _ _ _ h0 => (h0.vNamed (fun _ _ => (h0.vQueue (within hs (by decide)))) (within hs (by decide)))) (within hs (by decide)))

theorem Chg.execVdecClose {a1 a2 a3} (h : Chg ps r s) (hs : [Part.time, .regs, .ledgers, .out, .flt, .pow, .ops, .hif, .mem, .pan, .cad, .vce] ⊆ ps) : ∃ t, execVdecClose a1 a2 a3 s = .next t ∧ Chg ps r t := by
  refine ⟨_, rfl, ?_⟩
  exact (h.vIssue (fun _ _ _ h0 => (h0.vNamed (fun _ _ => (h0.vClose (within hs (by decide)))) (within hs (by decide)))) (within hs (by decide)))

theorem Chg.execVencEncode {a1 a2 a3} (h : Chg ps r s) (hs : [Part.time, .regs, .ledgers, .out, .flt, .pow, .ops, .hif, .mem, .pan, .cad, .vce] ⊆ ps) : ∃ t, execVencEncode a1 a2 a3 s = .next t ∧ Chg ps r t := by
  refine ⟨_, rfl, ?_⟩
  exact (h.vIssue (fun _ _ _ h0 => (h0.vNamed (fun _ _ => (h0.vQueue (within hs (by decide)))) (within hs (by decide)))) (within hs (by decide)))

theorem Chg.execVencFlush {a1 a2 a3} (h : Chg ps r s) (hs : [Part.time, .regs, .ledgers, .out, .flt, .pow, .ops, .hif, .mem, .pan, .cad, .vce] ⊆ ps) : ∃ t, execVencFlush a1 a2 a3 s = .next t ∧ Chg ps r t := by
  refine ⟨_, rfl, ?_⟩
  exact (h.vIssue (fun _ _ _ h0 => (h0.vNamed (fun _ _ => (h0.vQueue (within hs (by decide)))) (within hs (by decide)))) (within hs (by decide)))

theorem Chg.execVencClose {a1 a2 a3} (h : Chg ps r s) (hs : [Part.time, .regs, .ledgers, .out, .flt, .pow, .ops, .hif, .mem, .pan, .cad, .vce] ⊆ ps) : ∃ t, execVencClose a1 a2 a3 s = .next t ∧ Chg ps r t := by
  refine ⟨_, rfl, ?_⟩
  exact (h.vIssue (fun _ _ _ h0 => (h0.vNamed (fun _ _ => (h0.vClose (within hs (by decide)))) (within hs (by decide)))) (within hs (by decide)))

theorem Chg.execVencReconfigure {a1 a2 a3} (h : Chg ps r s) (hs : [Part.time, .regs, .ledgers, .out, .flt, .pow, .ops, .hif, .mem, .pan, .cad, .vce] ⊆ ps) : ∃ t, execVencReconfigure a1 a2 a3 s = .next t ∧ Chg ps r t := by
  refine ⟨_, rfl, ?_⟩
  refine Chg.vIssue ?_ (fun x1 x2 x3 h4 => ?_) (within hs (by decide))
  · exact h
  · refine Chg.vNamed ?_ (fun x5 x6  => ?_) (within hs (by decide))
    · exact h4
    · refine Chg.vParams ?_ (fun x7  => ?_) (within hs (by decide))
      · exact h4
      · split
        · rename_i y8 y9 y10
          exact (h4.opEnd (within hs (by decide)))
        · rename_i y11 y12
          split
          · rename_i y13 y14 y15
            exact (h4.opEnd (within hs (by decide)))
          · rename_i y16 y17
            exact ((h4.setVctx (within hs (by decide))).opEnd (within hs (by decide)))

theorem Chg.vRows {a1 a2} (h : Chg ps r s) (hs : [Part.mem, .pan] ⊆ ps) : Chg ps r (State.vRows s a1 a2).1 := by
  induction a2 generalizing s with
  | nil => exact h
  | cons e l ih =>
    unfold State.vRows
    split
    · exact h
    · exact ih (h.writeDva (within hs (by decide)))

theorem Chg.vRecord {a1 a2 a3 a4} (h : Chg ps r s) (hs : [Part.regs, .ledgers, .out, .flt, .pow, .ops, .hif, .mem, .pan, .cad] ⊆ ps) : Chg ps r (State.vRecord s a1 a2 a3 a4) := by
  rw [State.vRecord]
  generalize hw : State.vRows _ _ _ = w
  have h1 : Chg ps r w.1 := hw ▸ h.vRows (within hs (by decide))
  obtain ⟨s4, o⟩ := w
  cases o with
  | some d => exact (Chg.mmuFault h1 (within hs (by decide))).vEnd (within hs (by decide))
  | none => exact h1

theorem Chg.vOutput {a1 a2 a3 a4 a5} (h : Chg ps r s) (hs : [Part.regs, .ledgers, .out, .flt, .pow, .ops, .hif, .mem, .pan, .cad, .vce] ⊆ ps) : Chg ps r (State.vOutput s a1 a2 a3 a4 a5) := by
  unfold State.vOutput
  split
  · rename_i y0 y1
    exact h
  · rename_i y2 y3 y4
    split
    · rename_i y5 y6
      exact h
    · rename_i y7 y8 y9 y10
      extract_lets -underBinder v11 v12 v13 v14 v15 v16 v17 v18 v19 v20 v21 v22
      clear_value v19
      clear_value v20
      have hv21 : Chg ps r v21.1 := by
        unfold v21
        split
        · rename_i y23
          dsimp only
          exact (Chg.ite h (h.palImage (within hs (by decide))))
        · rename_i y24
          exact (h.vRows (within hs (by decide)))
      clear_value v21
      have hv22 : Chg ps r v22 := by
        unfold v22
        exact (hv21.setVctx (within hs (by decide)))
      clear_value v22
      split
      · rename_i y25 y26 y27 y28
        exact ((hv22.mmuFault (within hs (by decide))).vEnd (within hs (by decide)))
      · rename_i y29 y30
        extract_lets -underBinder v31 v32 v33 v34
        have hv32 : Chg ps r v32 := by
          unfold v32
          exact (Chg.ite (Chg.ite hv22 (hv22.synAdd (within hs (by decide)))) (Chg.ite (hv22.relAdd (within hs (by decide))) hv22))
        clear_value v32
        have hv34 : Chg ps r v34 := by
          unfold v34
          exact (Chg.ite ((hv32.countUp (within hs (by decide))).event (within hs (by decide))) hv32)
        clear_value v34
        exact (hv34.vRecord (within hs (by decide)))

theorem Chg.execDecodeFrameStart {a1 a2 a3} (h : Chg ps r s) (hs : [Part.time, .regs, .ledgers, .out, .flt, .pow, .ops, .hif, .mem, .pan, .cad, .vce] ⊆ ps) : ∃ t, execDecodeFrameStart a1 a2 a3 s = .next t ∧ Chg ps r t := by
  refine ⟨_, rfl, ?_⟩
  split
  · rename_i y0 y1
    exact h
  · rename_i y2 y3 y4
    refine Chg.ite ?_ ?_
    · exact h
    · split
      · rename_i y5 y6
        exact h
      · rename_i y7 y8 y9 y10
        extract_lets -underBinder v11 v12
        have hv11 : Chg ps r v11 := by
          unfold v11
          exact ((h.at (within hs (by decide))).vPop (within hs (by decide)))
        clear_value v11
        have hv12 : ∀ z0 z1, Chg ps r z0 → Chg ps r (v12 z0 z1) := by
          intro x13 x14 h15
          unfold v12
          exact (h15.setDec (within hs (by decide)))
        split
        · rename_i y16 y17
          exact (hv12 _ _ hv11)
        · rename_i y18 y19 y20
          refine Chg.ite ?_ ?_
          · exact (hv12 _ _ hv11)
          · generalize State.readDva _ _ _ _ = o21
            split
            · rename_i y22 y23 y24
              split
              · rename_i y25 y26 y27
                exact (hv11.opFault (within hs (by decide)))
              · rename_i y28 y29
                exact hv11
            · rename_i y30 y31 y32
              exact (Chg.ite (hv11.opEnd (within hs (by decide))) (hv12 _ _ hv11))

theorem Chg.vDrop {a1 a2 a3} (h : Chg ps r s) (hs : [Part.regs, .vce] ⊆ ps) : Chg ps r (State.vDrop s a1 a2 a3) := by
  unfold State.vDrop
  split
  · rename_i y0 y1 y2
    exact ((h.setVctx (within hs (by decide))).countUp (within hs (by decide)))
  · rename_i y3 y4
    exact h

theorem Chg.vOutputs {a1 a2 a3 a4 a5} (h : Chg ps r s) (hs : [Part.regs, .ledgers, .out, .flt, .pow, .ops, .hif, .mem, .pan, .cad, .vce] ⊆ ps) : Chg ps r (State.vOutputs s a1 a2 a3 a4 a5) := by
  unfold State.vOutputs
  split
  · rename_i y0 y1
    exact h
  · rename_i y2 y3 y4
    extract_lets -underBinder v5 v6 v7 v8
    clear_value v5
    clear_value v6
    have hv7 : Chg ps r v7 := by
      unfold v7
      exact (Chg.foldl h (fun _ _ h9 => (h9.vOutput (within hs (by decide)))))
    clear_value v7
    exact (hv7.vEnd (within hs (by decide)))

theorem Chg.vDecode {a1 a2 a3 a4} (h : Chg ps r s) (hs : [Part.regs, .ledgers, .out, .flt, .pow, .ops, .hif, .mem, .pan, .cad, .vce] ⊆ ps) : Chg ps r (State.vDecode s a1 a2 a3 a4) := by
  unfold State.vDecode
  extract_lets -underBinder v0 v1 v2 v3 v4 v5 v6 v7 v8 v9 v10
  clear_value v0
  clear_value v1
  clear_value v2
  have hv6 : Chg ps r v6 := by
    unfold v6
    exact ((h.setVctx (within hs (by decide))).vDrop (within hs (by decide)))
  clear_value v6
  have hv7 : Chg ps r v7 := by
    unfold v7
    exact (Chg.ite hv6 (hv6.event (within hs (by decide))))
  clear_value v7
  have hv8 : Chg ps r v8 := by
    unfold v8
    exact (Chg.ite (hv7.event (within hs (by decide))) hv7)
  clear_value v8
  clear_value v9
  clear_value v10
  refine Chg.ite ?_ ?_
  · exact (hv8.vEnd (within hs (by decide)))
  · refine Chg.ite ?_ ?_
    · exact ((h.vDrop (within hs (by decide))).vEnd (within hs (by decide)))
    · split
      · rename_i y11 y12 y13 y14 y15
        extract_lets -underBinder v16 v17
        have hv16 : Chg ps r v16 := by
          unfold v16
          exact ((h.setVctx (within hs (by decide))).vDrop (within hs (by decide)))
        clear_value v16
        have hv17 : Chg ps r v17 := by
          unfold v17
          exact (Chg.ite (hv16.event (within hs (by decide))) hv16)
        clear_value v17
        exact (hv17.vOutputs (within hs (by decide)))

theorem Chg.vLoad {a1 a2 a3} (h : Chg ps r s) (hs : [Part.vce] ⊆ ps) : Chg ps r (State.vLoad s a1 a2 a3) := by
  unfold State.vLoad
  extract_lets -underBinder v0 v1
  exact (Chg.putVce h (within hs (by decide)))

theorem Chg.vWork {a1 a2 a3 a4} (h : Chg ps r s) (hs : [Part.free, .mem, .pan] ⊆ ps) : Chg ps r (State.vWork s a1 a2 a3 a4).1 := by
  unfold State.vWork
  split
  · rename_i y0 y1
    dsimp only
    exact h
  · rename_i y2 y3 y4
    extract_lets -underBinder v5
    split
    · rename_i y6 y7 y8 y9
      dsimp only
      refine (Chg.putFree ?_ (within hs (by decide)))
      exact Chg.fst (h.vRows (within hs (by decide))) y9

theorem Chg.execDecodeFrameEnd {a1 a2} (h : Chg ps r s) (hs : [Part.free, .time, .regs, .ledgers, .out, .flt, .pow, .ops, .hif, .mem, .pan, .cad, .vce] ⊆ ps) : ∃ t, execDecodeFrameEnd a1 a2 s = .next t ∧ Chg ps r t := by
  refine ⟨_, rfl, ?_⟩
  split
  · rename_i y0 y1
    exact h
  · rename_i y2 y3 y4
    extract_lets -underBinder v5
    have hv5 : Chg ps r v5 := by
      unfold v5
      exact ((h.at (within hs (by decide))).setDec (within hs (by decide)))
    clear_value v5
    split
    · rename_i y6 y7
      exact hv5
    · rename_i y8 y9 y10
      extract_lets -underBinder v11
      refine Chg.ite ?_ ?_
      · exact ((hv5.vEnd (within hs (by decide))).vFree (within hs (by decide)))
      · refine Chg.ite ?_ ?_
        · exact (hv5.vEnd (within hs (by decide)))
        · refine Chg.ite ?_ ?_
          · exact ((hv5.setVctx (within hs (by decide))).vOutputs (within hs (by decide)))
          · split
            · rename_i y12 y13 y14 y15 y16
              refine Chg.vEnd ?_ (within hs (by decide))
              refine Chg.mmuFault ?_ (within hs (by decide))
              exact Chg.fst (hv5.vWork (within hs (by decide))) y16
            · rename_i y17 y18 y19
              extract_lets -underBinder v20
              have hv20 : Chg ps r v20 := by
                unfold v20
                refine Chg.vDecode ?_ (within hs (by decide))
                exact Chg.fst (hv5.vWork (within hs (by decide))) y19
              clear_value v20
              split
              · rename_i y21 y22 y23
                exact (hv20.vLoad (within hs (by decide)))
              · rename_i y24 y25
                exact hv20

theorem Chg.execEncodeFrameStart {a1 a2 a3} (h : Chg ps r s) (hs : [Part.time, .regs, .ledgers, .out, .flt, .pow, .ops, .hif, .mem, .pan, .cad, .vce] ⊆ ps) : ∃ t, execEncodeFrameStart a1 a2 a3 s = .next t ∧ Chg ps r t := by
  refine ⟨_, rfl, ?_⟩
  split
  · rename_i y0 y1
    exact h
  · rename_i y2 y3 y4
    refine Chg.ite ?_ ?_
    · exact h
    · split
      · rename_i y5 y6
        exact h
      · rename_i y7 y8 y9 y10
        extract_lets -underBinder v11 v12 v13 v14
        have hv11 : Chg ps r v11 := by
          unfold v11
          exact ((h.at (within hs (by decide))).vPop (within hs (by decide)))
        clear_value v11
        clear_value v12
        clear_value v13
        have hv14 : ∀ z0 z1 z2, Chg ps r z0 → Chg ps r (v14 z0 z1 z2) := by
          intro x15 x16 x17 h18
          unfold v14
          exact ((h18.vEnd (within hs (by decide))).vFlushes (within hs (by decide)))
        refine Chg.ite ?_ ?_
        · exact (hv14 _ _ _ hv11)
        · split
          · rename_i y19 y20 y21 y22 y23
            exact (hv14 _ _ _ (hv11.mmuFault (within hs (by decide))))
          · rename_i y24 y25 y26 y27 y28 y29
            exact (hv14 _ _ _ (hv11.mmuFault (within hs (by decide))))
          · rename_i y30 y31 y32 y33 y34 y35 y36 y37
            refine Chg.ite ?_ ?_
            · split
              · rename_i y38 y39 y40
                exact (hv14 _ _ _ (hv11.setVctx (within hs (by decide))))
              · rename_i y41 y42
                exact hv11
            · split
              · rename_i y43 y44
                exact hv11
              · rename_i y45 y46 y47
                extract_lets -underBinder v48 v49 v50
                clear_value v49
                clear_value v50
                exact ((hv11.setVctx (within hs (by decide))).setEnc (within hs (by decide)))

theorem Chg.vencDone {a1 a2 a3 a4} (h : Chg ps r s) (hs : [Part.regs, .ledgers, .ops, .vce] ⊆ ps) : Chg ps r (State.vencDone s a1 a2 a3 a4) := by
  unfold State.vencDone
  extract_lets -underBinder v0
  have hv0 : Chg ps r v0 := by
    unfold v0
    exact (h.setEnc (within hs (by decide)))
  clear_value v0
  split
  · rename_i y1 y2
    exact hv0
  · rename_i y3 y4 y5
    extract_lets -underBinder v6 v7 v8 v9 v10
    clear_value v8
    clear_value v10
    exact (Chg.ite ((hv0.vEnd (within hs (by decide))).vFree (within hs (by decide))) (Chg.ite (hv0.vEnd (within hs (by decide))) ((((hv0.setVctx (within hs (by decide))).vLoad (within hs (by decide))).vEnd (within hs (by decide))).vFlushes (within hs (by decide)))))

theorem Chg.execSliceEmit {a1 a2} (h : Chg ps r s) (hs : [Part.free, .time, .regs, .ledgers, .out, .flt, .pow, .ops, .hif, .mem, .pan, .cad, .vce] ⊆ ps) : ∃ t, execSliceEmit a1 a2 s = .next t ∧ Chg ps r t := by
  refine ⟨_, rfl, ?_⟩
  split
  · rename_i y0 y1
    exact h
  · rename_i y2 y3 y4
    extract_lets -underBinder v5
    have hv5 : Chg ps r v5 := by
      unfold v5
      exact (h.at (within hs (by decide)))
    clear_value v5
    split
    · rename_i y6 y7
      exact (hv5.setEnc (within hs (by decide)))
    · rename_i y8 y9 y10
      refine Chg.ite ?_ ?_
      · exact (hv5.vencDone (within hs (by decide)))
      · refine Chg.ite ?_ ?_
        · exact (hv5.vencDone (within hs (by decide)))
        · extract_lets -underBinder v11 v12 v13 v14 v15 v16 v17 v18 v19 v20 v21 v22 v23 v24 v25 v26 v27
          clear_value v11
          clear_value v12
          clear_value v19
          clear_value v24
          clear_value v26
          clear_value v27
          split
          · rename_i y28 y29 y30 y31 y32
            refine Chg.vencDone ?_ (within hs (by decide))
            refine Chg.mmuFault ?_ (within hs (by decide))
            exact Chg.fst (hv5.vRows (within hs (by decide))) y32
          · rename_i y33 y34 y35
            extract_lets -underBinder v36 v37 v38 v39 v40
            have hv36 : Chg ps r v36 := by
              unfold v36
              refine Chg.setVctx ?_ (within hs (by decide))
              exact Chg.fst (hv5.vRows (within hs (by decide))) y35
            clear_value v36
            have hv38 : Chg ps r v38 := by
              unfold v38
              exact (Chg.ite (hv36.relAdd (within hs (by decide))) hv36)
            clear_value v38
            clear_value v39
            refine Chg.ite ?_ ?_
            · exact (hv38.setEnc (within hs (by decide)))
            · split
              · rename_i y41 y42 y43 y44 y45
                refine Chg.vencDone ?_ (within hs (by decide))
                refine Chg.mmuFault ?_ (within hs (by decide))
                exact Chg.fst (hv38.vWork (within hs (by decide))) y45
              · rename_i y46 y47 y48
                refine Chg.vencDone ?_ (within hs (by decide))
                exact Chg.fst (hv38.vWork (within hs (by decide))) y48

theorem Chg.pdCommit {a1 a2} (h : Chg ps r s) (hs : [Part.regs, .rsv, .out, .hif] ⊆ ps) : Chg ps r (State.pdCommit s a1 a2) := by
  unfold State.pdCommit
  extract_lets -underBinder v0 v1 v2
  have hv2 : Chg ps r v2 := by
    unfold v2
    exact (h.noteRsv (within hs (by decide)))
  clear_value v2
  refine Chg.ite ?_ ?_
  · exact hv2
  · refine Chg.ite ?_ ?_
    · exact (hv2.discard (within hs (by decide)))
    · split
      · rename_i y3 y4 y5 y6 y7
        extract_lets -underBinder v8 v9
        have hv8 : Chg ps r v8 := by
          unfold v8
          exact (hv2.setBit (within hs (by decide)))
        clear_value v8
        have hv9 : Chg ps r v9 := by
          unfold v9
          exact ((((hv8.setFld (within hs (by decide))).setFld (within hs (by decide))).setFld (within hs (by decide))).setFld (within hs (by decide)))
        clear_value v9
        exact (hv9.event (within hs (by decide)))

theorem Chg.execPdestCommit {a1 a2} (h : Chg ps r s) (hs : [Part.regs, .rsv, .out, .hif] ⊆ ps) : ∃ t, execPdestCommit a1 a2 s = .next t ∧ Chg ps r t := by
  refine ⟨_, rfl, ?_⟩
  exact (h.via (fun _ h0 => (h0.pdCommit (within hs (by decide)))) (within hs (by decide)))

theorem Chg.pdWrite {a1 a2 a3 a4} (h : Chg ps r s) (hs : [Part.regs, .rsv, .out, .hif] ⊆ ps) : Chg ps r (State.pdWrite s a1 a2 a3 a4) := by
  unfold State.pdWrite
  extract_lets -underBinder v0
  exact (Chg.ite ((h.noteRsv (within hs (by decide))).discard (within hs (by decide))) ((h.setBit (within hs (by decide))).storeReg (within hs (by decide))))

theorem Chg.vFail {a1 a2} (h : Chg ps r s) (hs : [Part.regs, .out, .ops, .hif, .vce] ⊆ ps) : Chg ps r (State.vFail s a1 a2) := by
  unfold State.vFail
  split
  · rename_i y0 y1
    exact h
  · rename_i y2 y3 y4
    refine Chg.ite ?_ ?_
    · exact h
    · extract_lets -underBinder v5
      have hv5 : Chg ps r v5 := by
        unfold v5
        exact (Chg.foldl (h.setVctx (within hs (by decide))) (fun _ _ h6 => (h6.vEnd (within hs (by decide)))))
      clear_value v5
      exact ((hv5.event (within hs (by decide))).event (within hs (by decide)))

theorem Chg.vHurt {a1 a2} (h : Chg ps r s) (hs : [Part.vce] ⊆ ps) : Chg ps r (State.vHurt s a1 a2) := by
  unfold State.vHurt
  extract_lets -underBinder v0
  have hv0 : Chg ps r v0 := by
    unfold v0
    split
    · rename_i y1 y2 y3
      exact (Chg.ite (h.setDec (within hs (by decide))) h)
    · rename_i y4 y5
      exact h
  clear_value v0
  split
  · rename_i y6 y7 y8
    exact (Chg.ite (hv0.setEnc (within hs (by decide))) hv0)
  · rename_i y9 y10
    exact hv0

theorem Chg.execOperationComplete {a1 a2} (h : Chg ps r s) (hs : [Part.time, .regs, .ledgers, .out, .ops, .hif, .cad, .srv, .vce] ⊆ ps) : ∃ t, execOperationComplete a1 a2 s = .next t ∧ Chg ps r t := by
  refine ⟨_, rfl, ?_⟩
  exact (((h.opComplete (within hs (by decide))).srvSweep (within hs (by decide))).vSweep (within hs (by decide)))

theorem Chg.execOperationTimeout {a1 a2} (h : Chg ps r s) (hs : [Part.time, .regs, .ledgers, .out, .ops, .hif, .pan, .srv, .vce] ⊆ ps) : ∃ t, execOperationTimeout a1 a2 s = .next t ∧ Chg ps r t := by
  refine ⟨_, rfl, ?_⟩
  exact (((h.opTimeout (within hs (by decide))).srvSweep (within hs (by decide))).vSweep (within hs (by decide)))

end Sys2Proof.Machine
end

