-- ==== Sys2Proof/Laws/Ingest.lean ====
section
/-! SUPPORT. What each operation of Machine/Ingest.lean touches at most, and that it keeps the ledgers and the byte stores in form (Chg). -/

namespace Sys2Proof.Machine

open Sys2Proof

variable {ps : List Part} {r s t : State}



theorem Chg.putStream {a1 a2} (h : Chg ps r s) (hs : [Part.ing] ⊆ ps) : Chg ps r (State.putStream s a1 a2) :=
  (Chg.putIng h (within hs (by decide)))

theorem Chg.showStr {a1} (h : Chg ps r s) (hs : [Part.regs] ⊆ ps) : Chg ps r (State.showStr s a1) := by
  unfold State.showStr
  extract_lets -underBinder v0
  clear_value v0
  exact ((h.setFld (within hs (by decide))).setFld (within hs (by decide)))

theorem Chg.setStream {a1 a2} (h : Chg ps r s) (hs : [Part.regs, .ing] ⊆ ps) : Chg ps r (State.setStream s a1 a2) :=
  ((h.putStream (within hs (by decide))).showStr (within hs (by decide)))

theorem Chg.ifDrop {a1} (h : Chg ps r s) (hs : [Part.regs] ⊆ ps) : Chg ps r (State.ifDrop s a1) :=
  (h.countUp (within hs (by decide)))

theorem Chg.igmp {a1 a2 a3} (h : Chg ps r s) (hs : [Part.out] ⊆ ps) : Chg ps r (State.igmp s a1 a2 a3) :=
  (h.emit (within hs (by decide)))

theorem Chg.strForce {a1 a2} (h : Chg ps r s) (hs : [Part.regs, .out, .ing] ⊆ ps) : Chg ps r (State.strForce s a1 a2) := by
  unfold State.strForce
  extract_lets -underBinder v0 v1 v2
  clear_value v0
  have hv1 : Chg ps r v1 := by
    unfold v1
    exact (h.setStream (within hs (by decide)))
  clear_value v1
  have hv2 : Chg ps r v2 := by
    unfold v2
    split
    · rename_i y3 y4
      exact (Chg.foldl hv1 (fun _ _ h5 => (Chg.ite h5 (h5.igmp (within hs (by decide))))))
    · rename_i y6
      exact hv1
  clear_value v2
  split
  · rename_i y7 y8 y9
    exact (Chg.foldl hv2 (fun _ _ h10 => (Chg.ite h10 (h10.igmp (within hs (by decide))))))
  · rename_i y11 y12
    exact hv2

theorem Chg.strBoundary {a1} (h : Chg ps r s) (hs : [Part.regs, .out, .ing] ⊆ ps) : Chg ps r (State.strBoundary s a1) := by
  unfold State.strBoundary
  split
  · rename_i y0 y1 y2
    exact (h.strForce (within hs (by decide)))
  · rename_i y3 y4
    exact h

theorem Chg.strIdle {a1} (h : Chg ps r s) (hs : [Part.regs, .out, .ing] ⊆ ps) : Chg ps r (State.strIdle s a1) :=
  (Chg.ite h (h.strBoundary (within hs (by decide))))

theorem Chg.strCount {a1 a2} (h : Chg ps r s) (hs : [Part.regs, .out, .ops, .hif] ⊆ ps) : Chg ps r (State.strCount s a1 a2) := by
  unfold State.strCount
  refine Chg.ite ?_ ?_
  · exact (h.synAdd (within hs (by decide)))
  · split
    · rename_i y0 y1
      exact (Chg.ite (h.synAdd (within hs (by decide))) h)
    · rename_i y2
      exact h

theorem Chg.pixWrite {a1 a2 a3 a4 a5 a6 a7} (h : Chg ps r s) (hs : [Part.mem] ⊆ ps) : Chg ps r (State.pixWrite s a1 a2 a3 a4 a5 a6 a7) := by
  unfold State.pixWrite
  extract_lets -underBinder v0
  refine Chg.foldl ?_ (fun a3 x4 h5 => ?_)
  · exact h
  · refine Chg.ite ?_ ?_
    · refine Chg.foldl ?_ (fun a8 x9 h10 => ?_)
      · exact h5
      · extract_lets -underBinder v11 v12
        have hv12 : Chg ps r v12 := by
          unfold v12
          exact (h10.palWrite (within hs (by decide)))
        clear_value v12
        exact (Chg.ite (hv12.palPoison (within hs (by decide))) hv12)
    · exact h5

theorem Chg.ingWrite {a1 a2 a3} (h : Chg ps r s) (hs : [Part.regs, .ledgers, .out, .flt, .pow, .hif, .mem, .pan, .cad] ⊆ ps) : Chg ps r (State.ingWrite s a1 a2 a3).1 := by
  unfold State.ingWrite
  extract_lets w cs
  clear_value w cs
  generalize State.writeFault _ _ _ _ = o0
  cases o0 with
  | some f => exact h.mmuFault (within hs (by decide))
  | none => exact Chg.ite h (h.writeCuts (within hs (by decide)))

theorem Chg.strFault {a1 a2} (h : Chg ps r s) (hs : [Part.regs] ⊆ ps) : Chg ps r (State.strFault s a1 a2) :=
  (Chg.ite (h.countFld (within hs (by decide))) h)

theorem Chg.slotWrite {a1 a2 a3 a4 a5 a6} (h : Chg ps r s) (hs : [Part.regs, .ledgers, .out, .flt, .pow, .hif, .mem, .pan, .cad] ⊆ ps) : Chg ps r (State.slotWrite s a1 a2 a3 a4 a5 a6) := by
  unfold State.slotWrite
  extract_lets +onlyGivenNames b
  clear_value b
  refine Chg.ite h ?_
  generalize hw : State.ingWrite _ _ _ _ = w
  have h1 : Chg ps r w.1 := hw ▸ h.ingWrite (within hs (by decide))
  exact Chg.ite (Chg.foldl (h1.strFault (within hs (by decide))) (fun _ _ k => k.poisonDva (within hs (by decide)))) (h1.strFault (within hs (by decide)))

theorem Chg.frameWrite {a1 a2 a3 a4 a5} (h : Chg ps r s) (hs : [Part.regs, .ledgers, .out, .flt, .pow, .hif, .mem, .pan, .cad] ⊆ ps) : Chg ps r (State.frameWrite s a1 a2 a3 a4 a5) := by
  unfold State.frameWrite
  extract_lets -underBinder v0 v1 v2
  clear_value v0
  refine Chg.ite ?_ ?_
  · exact (h.slotWrite (within hs (by decide)))
  · refine Chg.ite ?_ ?_
    · refine Chg.foldl ?_ (fun a9 x10 h11 => ?_)
      · exact h
      · refine Chg.foldl ?_ (fun a13 x14 h15 => ?_)
        · exact h11
        · extract_lets -underBinder v16
          exact (h15.pixWrite (within hs (by decide)))
    · exact h

theorem Chg.frameFill {a1 a2 a3 a4} (h : Chg ps r s) (hs : [Part.regs, .ledgers, .out, .flt, .pow, .hif, .mem, .pan, .cad] ⊆ ps) : Chg ps r (State.frameFill s a1 a2 a3 a4) := by
  unfold State.frameFill
  extract_lets -underBinder v0 v1 v2 v3 v4 v5 v6 v7 v8 v9
  clear_value v0
  clear_value v1
  clear_value v4
  clear_value v7
  have hv8 : Chg ps r v8 := by
    unfold v8
    exact (h.slotWrite (within hs (by decide)))
  clear_value v8
  have hv9 : Chg ps r v9 := by
    unfold v9
    exact (Chg.foldl hv8 (fun _ _ h10 => (h10.slotWrite (within hs (by decide)))))
  clear_value v9
  refine Chg.ite ?_ ?_
  · refine Chg.foldl ?_ (fun a13 x14 h15 => ?_)
    · exact h
    · extract_lets -underBinder v16
      have hv16 : Chg ps r v16 := by
        unfold v16
        exact (h15.palImage (within hs (by decide)))
      clear_value v16
      exact (Chg.foldl hv16 (fun _ _ h17 => (h17.pixWrite (within hs (by decide)))))
  · exact (Chg.ite (hv9.slotWrite (within hs (by decide))) h)

theorem Chg.frameLose {a1 a2} (h : Chg ps r s) (hs : [Part.free, .mem] ⊆ ps) : Chg ps r (State.frameLose s a1 a2) := by
  unfold State.frameLose
  extract_lets -underBinder v0 v1 v2
  clear_value v0
  refine Chg.foldl ?_ (fun a5 x6 h7 => ?_)
  · exact h
  · refine Chg.foldl ?_ (fun a9 x10 h11 => ?_)
    · exact h7
    · extract_lets -underBinder v12
      have hv12 : Chg ps r v12 := by
        unfold v12
        exact (h11.palWrite (within hs (by decide)))
      clear_value v12
      exact (Chg.putFree hv12 (within hs (by decide)))

theorem Chg.markRun {a1 a2 a3} (h : Chg ps r s) (hs : [Part.ing] ⊆ ps) : Chg ps r (State.markRun s a1 a2 a3) := by
  unfold State.markRun
  split
  · rename_i y0 y1
    extract_lets -underBinder v2 v3
    exact (Chg.putIng h (within hs (by decide)))
  · rename_i y4
    exact h

theorem Chg.frameEnd {a1 a2 a3} (h : Chg ps r s) (hs : [Part.free, .regs, .ledgers, .out, .flt, .pow, .ops, .hif, .mem, .pan, .cad, .ing] ⊆ ps) : Chg ps r (State.frameEnd s a1 a2 a3) := by
  unfold State.frameEnd
  extract_lets -underBinder v0 v1 v2 v3 v4 v5 v6 v7 v8 v9 v10
  clear_value v1
  clear_value v2
  have hv3 : Chg ps r v3 := by
    unfold v3
    exact (h.putStream (within hs (by decide)))
  clear_value v3
  have hv6 : Chg ps r v6 := by
    unfold v6
    exact (Chg.ite (((hv3.countUp (within hs (by decide))).event (within hs (by decide))).markRun (within hs (by decide))) hv3)
  clear_value v6
  have hv7 : Chg ps r v7 := by
    unfold v7
    exact (Chg.ite (((hv6.countUp (within hs (by decide))).event (within hs (by decide))).markRun (within hs (by decide))) hv6)
  clear_value v7
  have hv8 : Chg ps r v8 := by
    unfold v8
    exact (hv7.frameFill (within hs (by decide)))
  clear_value v8
  clear_value v9
  have hv10 : Chg ps r v10 := by
    unfold v10
    exact (hv8.putStream (within hs (by decide)))
  clear_value v10
  exact (Chg.ite ((hv7.countUp (within hs (by decide))).frameLose (within hs (by decide))) ((hv10.countUp (within hs (by decide))).strCount (within hs (by decide))))

theorem Chg.endFrame {a1 a2} (h : Chg ps r s) (hs : [Part.free, .regs, .ledgers, .out, .flt, .pow, .ops, .hif, .mem, .pan, .cad, .ing] ⊆ ps) : Chg ps r (State.endFrame s a1 a2) := by
  unfold State.endFrame
  split
  · rename_i y0 y1 y2
    exact ((h.frameEnd (within hs (by decide))).strIdle (within hs (by decide)))
  · rename_i y3 y4
    exact h

theorem Chg.endEarlier {a1 a2 a3} (h : Chg ps r s) (hs : [Part.free, .regs, .ledgers, .out, .flt, .pow, .ops, .hif, .mem, .pan, .cad, .ing] ⊆ ps) : Chg ps r (State.endEarlier s a1 a2 a3) :=
  (Chg.foldl h (fun _ _ h0 => (h0.endFrame (within hs (by decide)))))

theorem Chg.setFrameRec {a1 a2} (h : Chg ps r s) (hs : [Part.ing] ⊆ ps) : Chg ps r (State.setFrameRec s a1 a2) := by
  unfold State.setFrameRec
  extract_lets -underBinder v0
  clear_value v0
  exact (h.putStream (within hs (by decide)))

theorem Chg.openFrame {a1 a2 a3} (h : Chg ps r s) (hs : [Part.regs, .out, .ing] ⊆ ps) : Chg ps r (State.openFrame s a1 a2 a3).1 := by
  unfold State.openFrame
  extract_lets -underBinder v0
  clear_value v0
  split
  · rename_i y1 y2 y3
    extract_lets -underBinder v4
    clear_value v4
    exact (h.setFrameRec (within hs (by decide)))
  · rename_i y5 y6
    refine Chg.iteFst ?_ ?_
    · dsimp only
      split
      · rename_i y7 y8 y9
        exact (h.ifDrop (within hs (by decide)))
      · rename_i y10 y11
        exact h
    · refine Chg.iteFst ?_ ?_
      · exact (h.countFld (within hs (by decide)))
      · extract_lets -underBinder v12
        have hv12 : Chg ps r v12 := by
          unfold v12
          exact (h.strBoundary (within hs (by decide)))
        clear_value v12
        split
        · rename_i y13 y14
          exact hv12
        · rename_i y15 y16 y17
          extract_lets -underBinder v18 v19
          clear_value v18
          clear_value v19
          exact (hv12.putStream (within hs (by decide)))

theorem Chg.frameLine {a1 a2 a3 a4 a5 a6} (h : Chg ps r s) (hs : [Part.regs, .ledgers, .out, .flt, .pow, .hif, .mem, .pan, .cad, .ing] ⊆ ps) : Chg ps r (State.frameLine s a1 a2 a3 a4 a5 a6) := by
  unfold State.frameLine
  split
  · rename_i y0 y1
    exact h
  · rename_i y2 y3 y4
    extract_lets -underBinder v5 v6 v7 v8 v9
    clear_value v5
    clear_value v6
    clear_value v8
    clear_value v9
    exact (Chg.ite (h.setFrameRec (within hs (by decide))) ((h.setFrameRec (within hs (by decide))).frameWrite (within hs (by decide))))

theorem Chg.frameBytes {a1 a2 a3 a4 a5 a6} (h : Chg ps r s) (hs : [Part.regs, .ledgers, .out, .flt, .pow, .hif, .mem, .pan, .cad, .ing] ⊆ ps) : Chg ps r (State.frameBytes s a1 a2 a3 a4 a5 a6) := by
  unfold State.frameBytes
  extract_lets -underBinder v0
  refine Chg.foldl ?_ (fun a2 x3 h4 => ?_)
  · exact h
  · extract_lets -underBinder v5 v6 v7
    exact (h4.frameLine (within hs (by decide)))

theorem Chg.rxPass {a1 a2 a3} (h : Chg ps r s) (hf3 : ∀ x0, Chg ps r x0 → Chg ps r (a3 x0)) (hs : [Part.regs, .ledgers] ⊆ ps) : Chg ps r (State.rxPass s a1 a2 a3) := by
  unfold State.rxPass
  extract_lets -underBinder v0
  exact (Chg.ite (h.ifDrop (within hs (by decide))) (((hf3 _ (h.move (within hs (by decide)))).move (within hs (by decide))).move (within hs (by decide))))

theorem Chg.strBad {a1} (h : Chg ps r s) (hs : [Part.regs] ⊆ ps) : Chg ps r (State.strBad s a1) :=
  (h.countFld (within hs (by decide)))

theorem Chg.takeHurt {a1} (h : Chg ps r s) (hs : [Part.ing] ⊆ ps) : Chg ps r (State.takeHurt s a1).1 := by
  unfold State.takeHurt
  extract_lets -underBinder v0
  clear_value v0
  dsimp only
  exact (h.putStream (within hs (by decide)))

theorem Chg.gvspIn {a1 a2 a3 a4 a5} (h : Chg ps r s) (hs : [Part.free, .regs, .ledgers, .out, .flt, .pow, .ops, .hif, .mem, .pan, .cad, .ing] ⊆ ps) : Chg ps r (State.gvspIn s a1 a2 a3 a4 a5) := by
  unfold State.gvspIn
  split
  · rename_i y0 y1
    exact (h.ifDrop (within hs (by decide)))
  · rename_i y2 y3 y4 y5
    extract_lets -underBinder v6
    refine Chg.ite ?_ ?_
    · exact (h.strBad (within hs (by decide)))
    · split
      · rename_i y7
        exact (h.strBad (within hs (by decide)))
      · rename_i y8 y9 y10 y11 y12
        refine Chg.ite ?_ ?_
        · exact (h.strBad (within hs (by decide)))
        · refine Chg.rxPass ?_ (fun x15 h16 => ?_) (within hs (by decide))
          · exact h
          · extract_lets -underBinder v17
            have hv17 : Chg ps r v17 := by
              unfold v17
              exact (h16.endEarlier (within hs (by decide)))
            clear_value v17
            split
            · rename_i y18 y19 y20 y21
              refine Chg.setFrameRec ?_ (within hs (by decide))
              exact Chg.fst (hv17.openFrame (within hs (by decide))) y21
            · rename_i y22 y23 y24
              exact Chg.fst (hv17.openFrame (within hs (by decide))) y24
      · rename_i y25 y26 y27 y28
        refine Chg.rxPass ?_ (fun x30 h31 => ?_) (within hs (by decide))
        · exact h
        · split
          · rename_i y32 y33 y34 y35
            extract_lets -underBinder v36
            have hv36 : Chg ps r v36.1 := by
              unfold v36
              refine Chg.takeHurt ?_ (within hs (by decide))
              exact Chg.fst (h31.openFrame (within hs (by decide))) y35
            clear_value v36
            exact (hv36.frameBytes (within hs (by decide)))
          · rename_i y37 y38 y39
            exact Chg.fst (h31.openFrame (within hs (by decide))) y39
      · rename_i y40 y41
        refine Chg.rxPass ?_ (fun x43 h44 => ?_) (within hs (by decide))
        · exact h
        · split
          · rename_i y45 y46 y47 y48
            refine Chg.endFrame ?_ (within hs (by decide))
            exact Chg.fst (h44.openFrame (within hs (by decide))) y48
          · rename_i y49 y50 y51
            exact Chg.fst (h44.openFrame (within hs (by decide))) y51

theorem Chg.rawIn {a1 a2} (h : Chg ps r s) (hs : [Part.free, .regs, .ledgers, .out, .flt, .pow, .ops, .hif, .mem, .pan, .cad, .ing] ⊆ ps) : Chg ps r (State.rawIn s a1 a2) := by
  unfold State.rawIn
  split
  · rename_i y0 y1
    exact (h.ifDrop (within hs (by decide)))
  · rename_i y2 y3 y4 y5
    refine Chg.ite ?_ ?_
    · exact (h.strBad (within hs (by decide)))
    · extract_lets -underBinder v6 v7
      refine Chg.rxPass ?_ (fun x9 h10 => ?_) (within hs (by decide))
      · exact h
      · extract_lets -underBinder v11
        have hv11 : Chg ps r v11 := by
          unfold v11
          exact (Chg.ite (h10.endEarlier (within hs (by decide))) h10)
        clear_value v11
        split
        · rename_i y12 y13 y14
          exact Chg.fst (hv11.openFrame (within hs (by decide))) y14
        · rename_i y15 y16 y17 y18
          refine Chg.ite ?_ ?_
          · extract_lets -underBinder v19
            have hv19 : Chg ps r v19.1 := by
              unfold v19
              refine Chg.takeHurt ?_ (within hs (by decide))
              exact Chg.fst (hv11.openFrame (within hs (by decide))) y18
            clear_value v19
            exact (hv19.frameLine (within hs (by decide)))
          · refine Chg.ite ?_ ?_
            · refine Chg.endFrame ?_ (within hs (by decide))
              exact Chg.fst (hv11.openFrame (within hs (by decide))) y18
            · exact Chg.fst (hv11.openFrame (within hs (by decide))) y18

theorem Chg.auEnd {a1 a2 a3} (h : Chg ps r s) (hs : [Part.regs, .ledgers, .out, .flt, .pow, .ops, .hif, .mem, .pan, .cad, .vce, .ing] ⊆ ps) : Chg ps r (State.auEnd s a1 a2 a3) := by
  unfold State.auEnd
  extract_lets -underBinder v0 v1 v2 v3 v4 v5 v6 v7 v8 v9
  clear_value v0
  have hv2 : Chg ps r v2 := by
    unfold v2
    exact (((h.putStream (within hs (by decide))).move (within hs (by decide))).move (within hs (by decide)))
  clear_value v2
  have hv5 : Chg ps r v5.1 := by
    unfold v5
    exact (hv2.ingWrite (within hs (by decide)))
  clear_value v5
  have hv6 : Chg ps r v6.1 := by
    unfold v6
    split
    · rename_i y10
      exact hv5
    · rename_i y11
      exact (hv5.ingWrite (within hs (by decide)))
  clear_value v6
  clear_value v7
  have hv8 : Chg ps r v8 := by
    unfold v8
    exact ((hv6.putStream (within hs (by decide))).countUp (within hs (by decide)))
  clear_value v8
  have hv9 : Chg ps r v9 := by
    unfold v9
    split
    · rename_i y12 y13 y14 y15
      exact (hv8.vDeliver (within hs (by decide)))
    · rename_i y16 y17
      extract_lets -underBinder v18
      clear_value v18
      exact (hv8.putStream (within hs (by decide)))
  clear_value v9
  exact (Chg.ite (hv2.countUp (within hs (by decide))) (Chg.ite (hv6.strFault (within hs (by decide))) (hv9.strCount (within hs (by decide)))))

theorem Chg.rtpTake {a1 a2} (h : Chg ps r s) (hs : [Part.regs, .ledgers, .out, .flt, .pow, .ops, .hif, .mem, .pan, .cad, .vce, .ing] ⊆ ps) : Chg ps r (State.rtpTake s a1 a2) := by
  unfold State.rtpTake
  split
  · rename_i y0 y1
    exact (h.reclaim (within hs (by decide)))
  · rename_i y2 y3 y4
    extract_lets -underBinder v5 v6
    have hv5 : Chg ps r v5 := by
      unfold v5
      split
      · rename_i y7 y8 y9
        exact (Chg.ite (h.auEnd (within hs (by decide))) h)
      · rename_i y10 y11
        exact h
    have hv6 : Chg ps r v6 := by
      unfold v6
      exact (Chg.ite (hv5.strBoundary (within hs (by decide))) hv5)
    refine Chg.ite ?_ ?_
    · exact (((hv6.ifDrop (within hs (by decide))).move (within hs (by decide))).move (within hs (by decide)))
    · split
      · rename_i y12 y13
        exact (hv6.reclaim (within hs (by decide)))
      · rename_i y14 y15 y16
        extract_lets -underBinder v17 v18
        clear_value v17
        clear_value v18
        split
        · rename_i y19 y20
          exact (((hv6.strBad (within hs (by decide))).move (within hs (by decide))).move (within hs (by decide)))
        · rename_i y21 y22 y23
          extract_lets -underBinder v24 v25
          clear_value v24
          have hv25 : Chg ps r v25 := by
            unfold v25
            exact (hv6.putStream (within hs (by decide)))
          clear_value v25
          exact (Chg.ite (hv25.auEnd (within hs (by decide))) hv25)

theorem Chg.rtpDrain {a1 a2} (h : Chg ps r s) (hs : [Part.regs, .ledgers, .out, .flt, .pow, .ops, .hif, .mem, .pan, .cad, .vce, .ing] ⊆ ps) : Chg ps r (State.rtpDrain s a1 a2) := by
  induction a2 generalizing s with
  | zero => exact h
  | succ n ih =>
    unfold State.rtpDrain
    extract_lets x
    split
    · exact h
    · split
      · exact h
      · exact ih ((h.putStream (within hs (by decide))).rtpTake (within hs (by decide)))

theorem Chg.rtpLoss {a1} (h : Chg ps r s) (hs : [Part.ing] ⊆ ps) : Chg ps r (State.rtpLoss s a1) := by
  unfold State.rtpLoss
  extract_lets -underBinder v0
  clear_value v0
  split
  · rename_i y1 y2 y3
    exact (h.putStream (within hs (by decide)))
  · rename_i y4 y5
    exact (h.putStream (within hs (by decide)))

theorem Chg.rtpReach {a1 a2 a3} (h : Chg ps r s) (hs : [Part.regs, .ledgers, .out, .flt, .pow, .ops, .hif, .mem, .pan, .cad, .vce, .ing] ⊆ ps) : Chg ps r (State.rtpReach s a1 a2 a3) := by
  induction a3 generalizing s with
  | zero => exact h
  | succ n ih =>
    unfold State.rtpReach
    extract_lets x
    split
    · exact h
    · exact Chg.ite h (ih (((h.putStream (within hs (by decide))).rtpLoss (within hs (by decide))).rtpDrain (within hs (by decide))))

theorem Chg.rtpIn {a1 a2 a3 a4} (h : Chg ps r s) (hs : [Part.regs, .ledgers, .out, .flt, .pow, .ops, .hif, .mem, .pan, .cad, .vce, .ing] ⊆ ps) : Chg ps r (State.rtpIn s a1 a2 a3 a4) := by
  unfold State.rtpIn
  split
  · rename_i y0 y1
    exact (h.ifDrop (within hs (by decide)))
  · rename_i y2 y3 y4 y5
    extract_lets -underBinder v6 v7 v8 v9 v10 v11 v12 v13
    clear_value v10
    have hv11 : Chg ps r v11 := by
      unfold v11
      exact ((h.putStream (within hs (by decide))).rtpReach (within hs (by decide)))
    clear_value v11
    clear_value v12
    clear_value v13
    exact (Chg.ite (h.strBad (within hs (by decide))) (Chg.ite (h.countFld (within hs (by decide))) (Chg.ite (h.ifDrop (within hs (by decide))) (Chg.ite h ((((hv11.putStream (within hs (by decide))).move (within hs (by decide))).rtpDrain (within hs (by decide))).strIdle (within hs (by decide)))))))

theorem Chg.ptpState {a1} (h : Chg ps r s) (hs : [Part.regs, .out, .hif] ⊆ ps) : Chg ps r (State.ptpState s a1) :=
  (Chg.ite h ((h.setFld (within hs (by decide))).event (within hs (by decide))))

theorem Chg.setPtp {a1} (h : Chg ps r s) (hs : [Part.ing] ⊆ ps) : Chg ps r (State.setPtp s a1) :=
  (Chg.putIng h (within hs (by decide)))

theorem Chg.ptpOffset {a1 a2 a3 a4} (h : Chg ps r s) (hs : [Part.regs, .wide, .out, .hif] ⊆ ps) : Chg ps r (State.ptpOffset s a1 a2 a3 a4) := by
  unfold State.ptpOffset
  extract_lets -underBinder v0 v1 v2
  clear_value v0
  clear_value v1
  exact (((h.setWide (within hs (by decide))).setFld (within hs (by decide))).ptpState (within hs (by decide)))

theorem Chg.ptpDelay {a1} (h : Chg ps r s) (hs : [Part.out, .ing] ⊆ ps) : Chg ps r (State.ptpDelay s a1) :=
  ((h.setPtp (within hs (by decide))).emit (within hs (by decide)))

theorem Chg.ptpIn {a1 a2 a3 a4} (h : Chg ps r s) (hs : [Part.regs, .wide, .out, .hif, .ing] ⊆ ps) : Chg ps r (State.ptpIn s a1 a2 a3 a4) := by
  unfold State.ptpIn
  extract_lets -underBinder v0 v1
  clear_value v0
  refine Chg.ite ?_ ?_
  · exact (h.ifDrop (within hs (by decide)))
  · split
    · rename_i y2
      exact (h.ifDrop (within hs (by decide)))
    · rename_i y3 y4 y5
      split
      · rename_i y6 y7
        exact ((h.setPtp (within hs (by decide))).ptpState (within hs (by decide)))
      · rename_i y8 y9 y10 y11
        exact (Chg.ite (h.setPtp (within hs (by decide))) (Chg.ite ((h.setPtp (within hs (by decide))).ptpState (within hs (by decide))) h))
    · rename_i y12 y13 y14 y15
      exact (Chg.ite (Chg.ite (h.setPtp (within hs (by decide))) ((h.setPtp (within hs (by decide))).ptpDelay (within hs (by decide)))) h)
    · rename_i y16 y17 y18
      exact (Chg.ite ((h.setPtp (within hs (by decide))).ptpDelay (within hs (by decide))) h)
    · rename_i y19 y20 y21
      refine Chg.ite ?_ ?_
      · split
        · rename_i y22 y23 y24 y25 y26 y27
          exact ((h.setPtp (within hs (by decide))).ptpOffset (within hs (by decide)))
        · rename_i y28 y29 y30
          exact h
      · exact h

theorem Chg.arpIn {a1 a2} (h : Chg ps r s) (hs : [Part.regs, .out] ⊆ ps) : Chg ps r (State.arpIn s a1 a2) :=
  (Chg.ite (h.emit (within hs (by decide))) (h.ifDrop (within hs (by decide))))

theorem Chg.execEthernetFrame {a1 a2 a3 a4 a5 a6} (h : Chg ps r s) (hs : [Part.free, .time, .regs, .wide, .ledgers, .out, .flt, .pow, .ops, .hif, .mem, .pan, .cad, .vce, .ing] ⊆ ps) : ∃ t, execEthernetFrame a1 a2 a3 a4 a5 a6 s = .next t ∧ Chg ps r t := by
  refine ⟨_, rfl, ?_⟩
  refine Chg.ite ?_ ?_
  · exact h
  · refine Chg.ite ?_ ?_
    · exact ((h.at (within hs (by decide))).ifDrop (within hs (by decide)))
    · split
      · rename_i y0 y1 y2 y3 y4
        exact ((h.at (within hs (by decide))).gvspIn (within hs (by decide)))
      · rename_i y5 y6 y7 y8
        exact ((h.at (within hs (by decide))).rtpIn (within hs (by decide)))
      · rename_i y9 y10
        exact ((h.at (within hs (by decide))).rawIn (within hs (by decide)))
      · rename_i y11 y12
        exact ((h.at (within hs (by decide))).arpIn (within hs (by decide)))
      · rename_i y13 y14 y15 y16
        exact ((h.at (within hs (by decide))).ptpIn (within hs (by decide)))
      · rename_i y17
        exact (Chg.foldl (h.at (within hs (by decide))) (fun _ _ h18 => (Chg.ite (Chg.foldl h18 (fun _ _ h19 => (h19.igmp (within hs (by decide))))) h18)))
      · rename_i y20
        exact ((h.at (within hs (by decide))).ifDrop (within hs (by decide)))

theorem Chg.execGvspPacket {a1 a2 a3 a4 a5 a6} (h : Chg ps r s) (hs : [Part.free, .time, .regs, .ledgers, .out, .flt, .pow, .ops, .hif, .mem, .pan, .cad, .ing] ⊆ ps) : ∃ t, execGvspPacket a1 a2 a3 a4 a5 a6 s = .next t ∧ Chg ps r t := by
  refine ⟨_, rfl, ?_⟩
  exact (Chg.ite h ((h.at (within hs (by decide))).gvspIn (within hs (by decide))))

theorem Chg.execRtpPacket {a1 a2 a3 a4 a5} (h : Chg ps r s) (hs : [Part.time, .regs, .ledgers, .out, .flt, .pow, .ops, .hif, .mem, .pan, .cad, .vce, .ing] ⊆ ps) : ∃ t, execRtpPacket a1 a2 a3 a4 a5 s = .next t ∧ Chg ps r t := by
  refine ⟨_, rfl, ?_⟩
  exact (Chg.ite h ((h.at (within hs (by decide))).rtpIn (within hs (by decide))))

theorem Chg.execRtpReorderTimeout {a1 a2} (h : Chg ps r s) (hs : [Part.time, .regs, .ledgers, .out, .flt, .pow, .ops, .hif, .mem, .pan, .cad, .vce, .ing] ⊆ ps) : ∃ t, execRtpReorderTimeout a1 a2 s = .next t ∧ Chg ps r t := by
  refine ⟨_, rfl, ?_⟩
  split
  · rename_i y0 y1 y2 y3 y4 y5 y6
    extract_lets -underBinder v7
    exact (((((h.at (within hs (by decide))).putStream (within hs (by decide))).rtpLoss (within hs (by decide))).rtpDrain (within hs (by decide))).strIdle (within hs (by decide)))
  · rename_i y8 y9 y10
    exact h

theorem Chg.execRawPacket {a1 a2 a3} (h : Chg ps r s) (hs : [Part.free, .time, .regs, .ledgers, .out, .flt, .pow, .ops, .hif, .mem, .pan, .cad, .ing] ⊆ ps) : ∃ t, execRawPacket a1 a2 a3 s = .next t ∧ Chg ps r t := by
  refine ⟨_, rfl, ?_⟩
  exact (Chg.ite h ((h.at (within hs (by decide))).rawIn (within hs (by decide))))

theorem Chg.execFrameTimeout {a1 a2} (h : Chg ps r s) (hs : [Part.free, .time, .regs, .ledgers, .out, .flt, .pow, .ops, .hif, .mem, .pan, .cad, .ing] ⊆ ps) : ∃ t, execFrameTimeout a1 a2 s = .next t ∧ Chg ps r t := by
  refine ⟨_, rfl, ?_⟩
  split
  · rename_i y0 y1 y2
    exact ((h.at (within hs (by decide))).endFrame (within hs (by decide)))
  · rename_i y3 y4
    exact h

theorem Chg.execArpRequest {a1 a2} (h : Chg ps r s) (hs : [Part.regs, .out] ⊆ ps) : ∃ t, execArpRequest a1 a2 s = .next t ∧ Chg ps r t := by
  refine ⟨_, rfl, ?_⟩
  exact (Chg.ite h (h.arpIn (within hs (by decide))))

theorem Chg.execPtpMessage {a1 a2 a3 a4 a5} (h : Chg ps r s) (hs : [Part.time, .regs, .wide, .out, .hif, .ing] ⊆ ps) : ∃ t, execPtpMessage a1 a2 a3 a4 a5 s = .next t ∧ Chg ps r t := by
  refine ⟨_, rfl, ?_⟩
  exact (Chg.ite h ((h.at (within hs (by decide))).ptpIn (within hs (by decide))))

theorem Chg.execPtpAnnounceTimeout (h : Chg ps r s) (hs : [Part.regs, .out, .hif, .ing] ⊆ ps) : ∃ t, execPtpAnnounceTimeout s = .next t ∧ Chg ps r t := by
  refine ⟨_, rfl, ?_⟩
  exact (Chg.ite (((h.setPtp (within hs (by decide))).ptpState (within hs (by decide))).setFld (within hs (by decide))) h)

theorem Chg.execLinkChange {a1 a2} (h : Chg ps r s) (hs : [Part.regs, .out, .hif] ⊆ ps) : ∃ t, execLinkChange a1 a2 s = .next t ∧ Chg ps r t := by
  refine ⟨_, rfl, ?_⟩
  exact (Chg.ite h ((h.setFld (within hs (by decide))).event (within hs (by decide))))

theorem Chg.strCmd {a1} (h : Chg ps r s) (hf1 : ∀ x0 x1, Chg ps r x1 → Chg ps r (a1 x0 x1)) (hs : [Part.regs, .out, .hif] ⊆ ps) : Chg ps r (State.strCmd s a1) :=
  (Chg.ite (h.discard (within hs (by decide))) (hf1 _ _ h))

theorem Chg.strCommit {a1} (h : Chg ps r s) (hs : [Part.regs, .out, .hif, .ing] ⊆ ps) : Chg ps r (State.strCommit s a1) := by
  unfold State.strCommit
  extract_lets -underBinder v0
  split
  · rename_i y1 y2 y3 y4
    exact ((((h.setFld (within hs (by decide))).setFld (within hs (by decide))).setFld (within hs (by decide))).event (within hs (by decide)))
  · rename_i y5 y6
    extract_lets -underBinder v7
    clear_value v7
    exact ((((h.setStream (within hs (by decide))).setFld (within hs (by decide))).strIdle (within hs (by decide))).event (within hs (by decide)))

theorem Chg.execStreamCommit (h : Chg ps r s) (hs : [Part.regs, .out, .hif, .ing] ⊆ ps) : ∃ t, execStreamCommit s = .next t ∧ Chg ps r t := by
  refine ⟨_, rfl, ?_⟩
  exact (h.via (fun _ h0 => (h0.strCmd (fun _ _ h1 => (h1.strCommit (within hs (by decide)))) (within hs (by decide)))) (within hs (by decide)))

theorem Chg.strDisable {a1} (h : Chg ps r s) (hs : [Part.regs, .out, .hif, .ing] ⊆ ps) : Chg ps r (State.strDisable s a1) := by
  unfold State.strDisable
  extract_lets -underBinder v0
  clear_value v0
  exact ((Chg.ite h ((h.setStream (within hs (by decide))).strIdle (within hs (by decide)))).event (within hs (by decide)))

theorem Chg.execStreamDisable (h : Chg ps r s) (hs : [Part.regs, .out, .hif, .ing] ⊆ ps) : ∃ t, execStreamDisable s = .next t ∧ Chg ps r t := by
  refine ⟨_, rfl, ?_⟩
  exact (h.via (fun _ h0 => (h0.strCmd (fun _ _ h1 => (h1.strDisable (within hs (by decide)))) (within hs (by decide)))) (within hs (by decide)))

theorem Chg.strStop {a1} (h : Chg ps r s) (hs : [Part.free, .regs, .ledgers, .out, .flt, .pow, .ops, .hif, .mem, .pan, .cad, .ing] ⊆ ps) : Chg ps r (State.strStop s a1) := by
  unfold State.strStop
  extract_lets -underBinder v0 v1 v2 v3 v4 v5
  clear_value v0
  have hv1 : Chg ps r v1 := by
    unfold v1
    exact (Chg.foldl h (fun _ _ h6 => (h6.frameEnd (within hs (by decide)))))
  clear_value v1
  have hv3 : Chg ps r v3 := by
    unfold v3
    split
    · rename_i y7 y8 y9
      exact ((((hv1.reclaim (within hs (by decide))).countUp (within hs (by decide))).countUp (within hs (by decide))).event (within hs (by decide)))
    · rename_i y10 y11
      exact hv1
  clear_value v3
  have hv4 : Chg ps r v4 := by
    unfold v4
    exact (Chg.foldl hv3 (fun _ _ h12 => (h12.reclaim (within hs (by decide)))))
  clear_value v4
  clear_value v5
  exact (Chg.ite h ((hv4.putStream (within hs (by decide))).strForce (within hs (by decide))))

theorem Chg.strStopAll {a1} (h : Chg ps r s) (hs : [Part.free, .regs, .ledgers, .out, .flt, .pow, .ops, .hif, .mem, .pan, .cad, .ing] ⊆ ps) : Chg ps r (State.strStopAll s a1) := by
  unfold State.strStopAll
  refine Chg.foldl ?_ (fun a1 x2 h3 => ?_)
  · exact h
  · extract_lets -underBinder v4
    have hv4 : Chg ps r v4 := by
      unfold v4
      exact (Chg.ite (h3.strStop (within hs (by decide))) h3)
    clear_value v4
    split
    · rename_i y5 y6 y7
      exact (Chg.ite (hv4.setStream (within hs (by decide))) hv4)
    · rename_i y8 y9
      exact hv4

theorem Chg.strPageOff {a1} (h : Chg ps r s) (hs : [Part.free, .regs, .ledgers, .out, .flt, .pow, .ops, .hif, .mem, .pan, .cad, .ing] ⊆ ps) : Chg ps r (State.strPageOff s a1) := by
  unfold State.strPageOff
  refine Chg.ite ?_ ?_
  · extract_lets -underBinder v0 v1
    have hv0 : Chg ps r v0 := by
      unfold v0
      exact (h.strStopAll (within hs (by decide)))
    clear_value v0
    have hv1 : Chg ps r v1 := by
      unfold v1
      exact (Chg.foldl hv0 (fun _ _ h2 => (h2.setFld (within hs (by decide)))))
    clear_value v1
    exact (((hv1.setPtp (within hs (by decide))).setFld (within hs (by decide))).setFld (within hs (by decide)))
  · exact (Chg.ite (h.strStopAll (within hs (by decide))) (Chg.ite (h.strStopAll (within hs (by decide))) h))

theorem Chg.strTenantOff {a1} (h : Chg ps r s) (hs : [Part.free, .regs, .ledgers, .out, .flt, .pow, .ops, .hif, .mem, .pan, .cad, .ing] ⊆ ps) : Chg ps r (State.strTenantOff s a1) :=
  (h.strStopAll (within hs (by decide)))

end Sys2Proof.Machine
end

