-- ==== Sys2Proof/Laws/MuralLink.lean ====
section
/-! SUPPORT. What each operation of Machine/MuralLink.lean touches at most, and that it keeps the ledgers and the byte stores in form (Chg). -/

namespace Sys2Proof.Machine

open Sys2Proof

variable {ps : List Part} {r s t : State}



theorem Chg.setMport {a1 a2} (h : Chg ps r s) (hs : [Part.mur] ⊆ ps) : Chg ps r (State.setMport s a1 a2) :=
  (Chg.putMur h (within hs (by decide)))

theorem Chg.setMjob {a1 a2} (h : Chg ps r s) (hs : [Part.mur] ⊆ ps) : Chg ps r (State.setMjob s a1 a2) :=
  (Chg.putMur h (within hs (by decide)))

theorem Chg.setMop {a1 a2} (h : Chg ps r s) (hs : [Part.mur] ⊆ ps) : Chg ps r (State.setMop s a1 a2) :=
  (Chg.putMur h (within hs (by decide)))

theorem Chg.setLink {a1 a2} (h : Chg ps r s) (hs : [Part.regs] ⊆ ps) : Chg ps r (State.setLink s a1 a2) :=
  (h.setFld (within hs (by decide)))

theorem Chg.putFlit {a1 a2 a3} (h : Chg ps r s) (hs : [Part.out, .mur] ⊆ ps) : Chg ps r (State.putFlit s a1 a2 a3) := by
  unfold State.putFlit
  extract_lets -underBinder v0 v1
  clear_value v0
  clear_value v1
  exact ((h.setMport (within hs (by decide))).emit (within hs (by decide)))

theorem Chg.takeFlit {a1 a2} (h : Chg ps r s) (hs : [Part.mur] ⊆ ps) : Chg ps r (State.takeFlit s a1 a2).1 := by
  unfold State.takeFlit
  extract_lets -underBinder v0 v1
  clear_value v0
  clear_value v1
  exact (h.setMport (within hs (by decide)))

theorem Chg.mRelease {a1} (h : Chg ps r s) (hs : [Part.ledgers, .mur] ⊆ ps) : Chg ps r (State.mRelease s a1) := by
  unfold State.mRelease
  split
  · rename_i y0 y1
    exact h
  · rename_i y2 y3 y4
    extract_lets -underBinder v5 v6
    clear_value v5
    exact ((h.move (within hs (by decide))).setMport (within hs (by decide)))

theorem Chg.epochLeave {a1} (h : Chg ps r s) (hs : [Part.regs] ⊆ ps) : Chg ps r (State.epochLeave s a1) := by
  unfold State.epochLeave
  refine Chg.ite ?_ ?_
  · exact h
  · extract_lets -underBinder v0
    clear_value v0
    exact (h.setFld (within hs (by decide)))

theorem Chg.sendFlit {a1 a2} (h : Chg ps r s) (hs : [Part.regs, .ledgers, .out, .mur] ⊆ ps) : Chg ps r (State.sendFlit s a1 a2) := by
  unfold State.sendFlit
  extract_lets -underBinder v0 v1 v2
  clear_value v0
  have hv1 : Chg ps r v1 := by
    unfold v1
    exact ((h.setMport (within hs (by decide))).putFlit (within hs (by decide)))
  clear_value v1
  have hv2 : Chg ps r v2 := by
    unfold v2
    exact ((hv1.move (within hs (by decide))).move (within hs (by decide)))
  clear_value v2
  split
  · rename_i y3 y4 y5
    exact ((hv2.epochLeave (within hs (by decide))).mRelease (within hs (by decide)))
  · rename_i y6 y7
    exact hv2

theorem Chg.pumpGo {a1 a2 a3} (h : Chg ps r s) (hs : [Part.regs, .ledgers, .out, .mur] ⊆ ps) : Chg ps r (State.pumpGo s a1 a2 a3).1 := by
  induction a3 generalizing s a2 with
  | nil => exact h
  | cons f l ih =>
    unfold State.pumpGo
    extract_lets x q
    split
    · exact ih h
    · exact ih (h.sendFlit (within hs (by decide)))

theorem Chg.pump {a1} (h : Chg ps r s) (hs : [Part.regs, .ledgers, .out, .mur] ⊆ ps) : Chg ps r (State.pump s a1) := by
  unfold State.pump
  refine Chg.ite ?_ ?_
  · exact h
  · extract_lets -underBinder v0 v1
    have hv0 : Chg ps r v0.1 := by
      unfold v0
      exact (h.pumpGo (within hs (by decide)))
    clear_value v0
    clear_value v1
    exact (hv0.setMport (within hs (by decide)))

theorem Chg.controlFlit {a1 a2 a3} (h : Chg ps r s) (hs : [Part.ledgers, .out, .mur] ⊆ ps) : Chg ps r (State.controlFlit s a1 a2 a3) := by
  unfold State.controlFlit
  extract_lets -underBinder v0 v1
  clear_value v0
  clear_value v1
  exact ((h.putFlit (within hs (by decide))).move (within hs (by decide)))

theorem Chg.reqFail {a1 a2 a3} (h : Chg ps r s) (hs : [Part.regs, .ledgers, .mur] ⊆ ps) : Chg ps r (State.reqFail s a1 a2 a3) := by
  unfold State.reqFail
  split
  · rename_i y0 y1
    exact h
  · rename_i y2 y3 y4
    extract_lets -underBinder v5 v6 v7
    have hv6 : Chg ps r v6 := by
      unfold v6
      exact (Chg.putMur h (within hs (by decide)))
    clear_value v6
    have hv7 : Chg ps r v7 := by
      unfold v7
      exact (hv6.reclaim (within hs (by decide)))
    clear_value v7
    split
    · rename_i y8 y9 y10
      exact (hv7.setMop (within hs (by decide)))
    · rename_i y11 y12
      exact hv7

theorem Chg.mSweep (h : Chg ps r s) (hs : [Part.ops, .mur] ⊆ ps) : Chg ps r (State.mSweep s) := by
  unfold State.mSweep
  refine Chg.foldl ?_ (fun a1 x2 h3 => ?_)
  · exact h
  · split
    · rename_i y4 y5 y6
      split
      · rename_i y7 y8 y9 y10
        exact (Chg.ite ((Chg.putMur h3 (within hs (by decide))).opEnd (within hs (by decide))) h3)
      · rename_i y11 y12
        exact h3
    · rename_i y13 y14
      exact h3

theorem Chg.portDown {a1} (h : Chg ps r s) (hs : [Part.regs, .ledgers, .out, .ops, .hif, .mur] ⊆ ps) : Chg ps r (State.portDown s a1) := by
  unfold State.portDown
  extract_lets -underBinder v0 v1 v2 v3 v4 v5 v6 v7 v8 v9
  clear_value v0
  clear_value v1
  clear_value v2
  have hv3 : Chg ps r v3 := by
    unfold v3
    exact (Chg.foldl h (fun _ _ h10 => (h10.reqFail (within hs (by decide)))))
  clear_value v3
  have hv4 : Chg ps r v4 := by
    unfold v4
    exact (Chg.foldl hv3 (fun _ _ h11 => ((h11.epochLeave (within hs (by decide))).mRelease (within hs (by decide)))))
  clear_value v4
  have hv5 : Chg ps r v5 := by
    unfold v5
    exact ((hv4.reclaim (within hs (by decide))).reclaim (within hs (by decide)))
  clear_value v5
  clear_value v6
  have hv7 : Chg ps r v7 := by
    unfold v7
    exact ((hv5.reclaim (within hs (by decide))).reclaim (within hs (by decide)))
  clear_value v7
  clear_value v8
  have hv9 : Chg ps r v9 := by
    unfold v9
    exact (hv7.setMport (within hs (by decide)))
  clear_value v9
  exact (((((hv9.setFld (within hs (by decide))).setLink (within hs (by decide))).countUp (within hs (by decide))).event (within hs (by decide))).mSweep (within hs (by decide)))

theorem Chg.creditsBack {a1} (h : Chg ps r s) (hs : [Part.regs, .ledgers] ⊆ ps) : Chg ps r (State.creditsBack s a1) :=
  ((h.reclaim (within hs (by decide))).reclaim (within hs (by decide)))

theorem Chg.portGo {a1 a2} (h : Chg ps r s) (hs : [Part.regs, .mur] ⊆ ps) : Chg ps r (State.portGo s a1 a2) :=
  ((h.setFld (within hs (by decide))).setMport (within hs (by decide)))

theorem Chg.portAim {a1 a2} (h : Chg ps r s) (hs : [Part.regs, .mur] ⊆ ps) : Chg ps r (State.portAim s a1 a2) := by
  unfold State.portAim
  extract_lets -underBinder v0
  clear_value v0
  exact (Chg.ite (h.setMport (within hs (by decide))) (Chg.ite h (h.portGo (within hs (by decide)))))

theorem Chg.portStart {a1} (h : Chg ps r s) (hs : [Part.regs, .mur] ⊆ ps) : Chg ps r (State.portStart s a1) :=
  (h.portAim (within hs (by decide)))

theorem Chg.portStop {a1} (h : Chg ps r s) (hs : [Part.regs, .mur] ⊆ ps) : Chg ps r (State.portStop s a1) :=
  (h.portAim (within hs (by decide)))

theorem Chg.portCtrl {a1 a2} (h : Chg ps r s) (hs : [Part.regs, .rsv, .out, .hif, .mur] ⊆ ps) : Chg ps r (State.portCtrl s a1 a2) := by
  unfold State.portCtrl
  extract_lets -underBinder v0 v1 v2 v3 v4 v5 v6
  have hv1 : Chg ps r v1 := by
    unfold v1
    exact (h.noteRsv (within hs (by decide)))
  clear_value v1
  have hv3 : Chg ps r v3 := by
    unfold v3
    exact (Chg.ite (hv1.setFld (within hs (by decide))) (Chg.ite hv1 (hv1.discard (within hs (by decide)))))
  clear_value v3
  have hv4 : Chg ps r v4 := by
    unfold v4
    exact (hv3.setFld (within hs (by decide)))
  clear_value v4
  have hv6 : Chg ps r v6 := by
    unfold v6
    exact (hv4.setFld (within hs (by decide)))
  clear_value v6
  exact (Chg.ite (hv4.discard (within hs (by decide))) (Chg.ite (hv6.portAim (within hs (by decide))) hv6))

theorem Chg.execPortPowerWrite {a1 a2} (h : Chg ps r s) (hs : [Part.regs, .rsv, .out, .hif, .mur] ⊆ ps) : ∃ t, execPortPowerWrite a1 a2 s = .next t ∧ Chg ps r t := by
  refine ⟨_, rfl, ?_⟩
  exact (h.via (fun _ h0 => (h0.portCtrl (within hs (by decide)))) (within hs (by decide)))

theorem Chg.portFresh {a1} (h : Chg ps r s) (hs : [Part.ledgers, .mur] ⊆ ps) : Chg ps r (State.portFresh s a1) := by
  unfold State.portFresh
  extract_lets -underBinder v0 v1 v2 v3 v4
  clear_value v1
  have hv4 : Chg ps r v4 := by
    unfold v4
    exact (h.setMport (within hs (by decide)))
  clear_value v4
  exact ((hv4.move (within hs (by decide))).move (within hs (by decide)))

theorem Chg.powerDone {a1} (h : Chg ps r s) (hs : [Part.regs, .ledgers, .out, .ops, .hif, .mur] ⊆ ps) : Chg ps r (State.powerDone s a1) := by
  unfold State.powerDone
  extract_lets -underBinder v0 v1
  clear_value v0
  clear_value v1
  split
  · rename_i y2 y3
    exact h
  · rename_i y4 y5 y6
    refine Chg.ite ?_ ?_
    · exact h
    · extract_lets -underBinder v7 v8 v9 v10 v11 v12 v13
      have hv7 : Chg ps r v7 := by
        unfold v7
        exact (Chg.ite (h.controlFlit (within hs (by decide))) h)
      clear_value v7
      clear_value v8
      have hv9 : Chg ps r v9 := by
        unfold v9
        exact (hv7.setMport (within hs (by decide)))
      clear_value v9
      have hv10 : Chg ps r v10 := by
        unfold v10
        exact ((hv9.setFld (within hs (by decide))).setFld (within hs (by decide)))
      clear_value v10
      have hv11 : Chg ps r v11 := by
        unfold v11
        exact (Chg.ite (hv10.setLink (within hs (by decide))) (Chg.ite (hv10.setLink (within hs (by decide))) (Chg.ite hv10 (((hv10.setLink (within hs (by decide))).countUp (within hs (by decide))).event (within hs (by decide))))))
      clear_value v11
      have hv12 : Chg ps r v12 := by
        unfold v12
        exact (hv11.event (within hs (by decide)))
      clear_value v12
      have hv13 : Chg ps r v13 := by
        unfold v13
        exact (Chg.ite (hv12.portDown (within hs (by decide))) hv12)
      clear_value v13
      split
      · rename_i y14 y15 y16
        exact ((hv13.setMport (within hs (by decide))).portAim (within hs (by decide)))
      · rename_i y17 y18
        exact hv13

theorem Chg.execPowerDone {a1 a2} (h : Chg ps r s) (hs : [Part.time, .regs, .ledgers, .out, .ops, .hif, .mur] ⊆ ps) : ∃ t, execPowerDone a1 a2 s = .next t ∧ Chg ps r t := by
  refine ⟨_, rfl, ?_⟩
  exact ((h.at (within hs (by decide))).powerDone (within hs (by decide)))

theorem Chg.execMuralLinkUp {a1 a2 a3 a4 a5 a6 a7} (h : Chg ps r s) (hs : [Part.time, .regs, .ledgers, .out, .hif, .mur] ⊆ ps) : ∃ t, execMuralLinkUp a1 a2 a3 a4 a5 a6 a7 s = .next t ∧ Chg ps r t := by
  refine ⟨_, rfl, ?_⟩
  refine Chg.ite ?_ ?_
  · exact h
  · extract_lets -underBinder v0 v1
    have hv0 : Chg ps r v0 := by
      unfold v0
      exact ((((h.at (within hs (by decide))).portFresh (within hs (by decide))).setLink (within hs (by decide))).setWord (within hs (by decide)))
    clear_value v0
    have hv1 : Chg ps r v1 := by
      unfold v1
      exact (((hv0.setFld (within hs (by decide))).setFld (within hs (by decide))).setFld (within hs (by decide)))
    clear_value v1
    exact (hv1.event (within hs (by decide)))

theorem Chg.execMuralLinkDown {a1 a2 a3} (h : Chg ps r s) (hs : [Part.time, .regs, .ledgers, .out, .ops, .hif, .mur] ⊆ ps) : ∃ t, execMuralLinkDown a1 a2 a3 s = .next t ∧ Chg ps r t := by
  refine ⟨_, rfl, ?_⟩
  exact (Chg.ite (Chg.ite ((h.at (within hs (by decide))).setFld (within hs (by decide))) (h.at (within hs (by decide)))) ((Chg.ite ((h.at (within hs (by decide))).setFld (within hs (by decide))) (h.at (within hs (by decide)))).portDown (within hs (by decide))))

theorem Chg.execLinkDownTimeout {a1 a2} (h : Chg ps r s) (hs : [Part.time, .regs, .ledgers, .mur] ⊆ ps) : ∃ t, execLinkDownTimeout a1 a2 s = .next t ∧ Chg ps r t := by
  refine ⟨_, rfl, ?_⟩
  refine Chg.ite ?_ ?_
  · exact h
  · extract_lets -underBinder v0 v1
    have hv0 : Chg ps r v0 := by
      unfold v0
      exact (((h.at (within hs (by decide))).setMport (within hs (by decide))).creditsBack (within hs (by decide)))
    clear_value v0
    exact (Chg.ite (Chg.ite (hv0.setLink (within hs (by decide))) hv0) (hv0.portGo (within hs (by decide))))

theorem Chg.laneSwap {a1 a2} (h : Chg ps r s) (hs : [Part.regs, .ledgers, .out, .flt, .pow, .hif, .pan, .cad] ⊆ ps) : Chg ps r (State.laneSwap s a1 a2) := by
  unfold State.laneSwap
  extract_lets -underBinder v0 v1 v2
  have hv1 : Chg ps r v1 := by
    unfold v1
    exact ((h.setFld (within hs (by decide))).setFld (within hs (by decide)))
  clear_value v1
  have hv2 : Chg ps r v2 := by
    unfold v2
    exact ((hv1.report (within hs (by decide))).event (within hs (by decide)))
  clear_value v2
  exact (hv2.journal (within hs (by decide)))

theorem Chg.execLaneSwapped {a1 a2 a3} (h : Chg ps r s) (hs : [Part.time, .regs, .ledgers, .out, .flt, .pow, .ops, .hif, .pan, .cad, .mur] ⊆ ps) : ∃ t, execLaneSwapped a1 a2 a3 s = .next t ∧ Chg ps r t := by
  refine ⟨_, rfl, ?_⟩
  refine Chg.ite ?_ ?_
  · exact h
  · extract_lets -underBinder v0
    have hv0 : Chg ps r v0 := by
      unfold v0
      exact (h.at (within hs (by decide)))
    clear_value v0
    exact (Chg.ite (hv0.portDown (within hs (by decide))) (Chg.ite hv0 (hv0.laneSwap (within hs (by decide)))))

theorem Chg.nakOnce {a1} (h : Chg ps r s) (hs : [Part.ledgers, .out, .mur] ⊆ ps) : Chg ps r (State.nakOnce s a1) := by
  unfold State.nakOnce
  extract_lets -underBinder v0
  clear_value v0
  exact (Chg.ite h ((h.setMport (within hs (by decide))).controlFlit (within hs (by decide))))

theorem Chg.deliverFlit {a1 a2 a3} (h : Chg ps r s) (hs : [Part.ledgers, .mur] ⊆ ps) : Chg ps r (State.deliverFlit s a1 a2 a3) := by
  unfold State.deliverFlit
  extract_lets -underBinder v0 v1 v2 v3 v4 v5 v6
  clear_value v0
  clear_value v1
  clear_value v3
  have hv4 : Chg ps r v4 := by
    unfold v4
    exact (h.move (within hs (by decide)))
  clear_value v4
  have hv5 : Chg ps r v5 := by
    unfold v5
    exact (hv4.setMport (within hs (by decide)))
  clear_value v5
  exact (Chg.ite (Chg.putMur hv5 (within hs (by decide))) (hv4.setMport (within hs (by decide))))

theorem Chg.crcFail {a1} (h : Chg ps r s) (hs : [Part.regs, .ledgers, .out, .mur] ⊆ ps) : Chg ps r (State.crcFail s a1) := by
  unfold State.crcFail
  extract_lets -underBinder v0 v1
  clear_value v0
  have hv1 : Chg ps r v1 := by
    unfold v1
    exact ((h.countUp (within hs (by decide))).nakOnce (within hs (by decide)))
  clear_value v1
  exact (Chg.ite (hv1.countUp (within hs (by decide))) hv1)

theorem Chg.dataTake {a1 a2} (h : Chg ps r s) (hs : [Part.regs, .ledgers, .out, .flt, .pow, .hif, .pan, .cad, .mur] ⊆ ps) : Chg ps r (State.dataTake s a1 a2) := by
  unfold State.dataTake
  extract_lets -underBinder v0 v1 v2
  clear_value v0
  clear_value v1
  clear_value v2
  exact (Chg.ite (h.crcFail (within hs (by decide))) (Chg.ite h (Chg.ite ((Chg.ite (h.report (within hs (by decide))) h).deliverFlit (within hs (by decide))) (Chg.ite (h.nakOnce (within hs (by decide))) (h.countUp (within hs (by decide)))))))

theorem Chg.execNakRepeat {a1 a2} (h : Chg ps r s) (hs : [Part.time, .ledgers, .out, .mur] ⊆ ps) : ∃ t, execNakRepeat a1 a2 s = .next t ∧ Chg ps r t := by
  refine ⟨_, rfl, ?_⟩
  exact (Chg.ite ((h.at (within hs (by decide))).controlFlit (within hs (by decide))) h)

theorem Chg.execControlFlitSend {a1 a2} (h : Chg ps r s) (hs : [Part.time, .ledgers, .out, .mur] ⊆ ps) : ∃ t, execControlFlitSend a1 a2 s = .next t ∧ Chg ps r t := by
  refine ⟨_, rfl, ?_⟩
  exact (Chg.ite ((h.at (within hs (by decide))).controlFlit (within hs (by decide))) h)

theorem Chg.resend {a1 a2 a3} (h : Chg ps r s) (hs : [Part.regs, .ledgers, .out, .flt, .pow, .ops, .hif, .pan, .cad, .mur] ⊆ ps) : Chg ps r (State.resend s a1 a2 a3) := by
  unfold State.resend
  extract_lets -underBinder v0
  clear_value v0
  split
  · rename_i y1
    exact h
  · rename_i y2 y3 y4
    refine Chg.ite ?_ ?_
    · exact ((h.report (within hs (by decide))).portDown (within hs (by decide)))
    · extract_lets -underBinder v5 v6 v7
      have hv5 : Chg ps r v5 := by
        unfold v5
        exact (h.countUp (within hs (by decide)))
      clear_value v5
      clear_value v6
      have hv7 : Chg ps r v7 := by
        unfold v7
        exact (hv5.setMport (within hs (by decide)))
      clear_value v7
      exact (Chg.foldl hv7 (fun _ _ h8 => (((h8.move (within hs (by decide))).putFlit (within hs (by decide))).move (within hs (by decide)))))

theorem Chg.execReplayTimeout {a1 a2} (h : Chg ps r s) (hs : [Part.time, .regs, .ledgers, .out, .flt, .pow, .ops, .hif, .pan, .cad, .mur] ⊆ ps) : ∃ t, execReplayTimeout a1 a2 s = .next t ∧ Chg ps r t := by
  refine ⟨_, rfl, ?_⟩
  exact (Chg.ite ((h.at (within hs (by decide))).resend (within hs (by decide))) h)

theorem Chg.takeCredits {a1 a2 a3} (h : Chg ps r s) (hs : [Part.ledgers, .mur] ⊆ ps) : Chg ps r (State.takeCredits s a1 a2 a3) := by
  unfold State.takeCredits
  extract_lets -underBinder v0 v1 v2 v3
  clear_value v0
  have hv2 : Chg ps r v2 := by
    unfold v2
    exact (h.setMport (within hs (by decide)))
  clear_value v2
  exact ((hv2.move (within hs (by decide))).move (within hs (by decide)))

theorem Chg.controlTake {a1 a2 a3} (h : Chg ps r s) (hs : [Part.regs, .ledgers, .out, .flt, .pow, .ops, .hif, .pan, .cad, .mur] ⊆ ps) : Chg ps r (State.controlTake s a1 a2 a3) := by
  unfold State.controlTake
  extract_lets -underBinder v0 v1 v2 v3 v4 v5 v6
  clear_value v0
  clear_value v1
  clear_value v2
  clear_value v3
  have hv4 : Chg ps r v4 := by
    unfold v4
    exact (((h.setMport (within hs (by decide))).move (within hs (by decide))).move (within hs (by decide)))
  clear_value v4
  have hv5 : Chg ps r v5 := by
    unfold v5
    exact (((hv4.takeCredits (within hs (by decide))).takeCredits (within hs (by decide))).takeCredits (within hs (by decide)))
  clear_value v5
  have hv6 : Chg ps r v6 := by
    unfold v6
    split
    · rename_i y7 y8 y9
      exact (hv5.resend (within hs (by decide)))
    · rename_i y10 y11
      exact hv5
  clear_value v6
  exact (Chg.ite (h.crcFail (within hs (by decide))) (hv6.pump (within hs (by decide))))

theorem Chg.takeRx {a1 a2} (h : Chg ps r s) (hs : [Part.regs, .ledgers, .out, .flt, .pow, .ops, .hif, .pan, .cad, .mur] ⊆ ps) : Chg ps r (State.takeRx s a1 a2) := by
  unfold State.takeRx
  split
  · rename_i y0 y1
    exact (h.dataTake (within hs (by decide)))
  · rename_i y2 y3 y4
    exact (h.controlTake (within hs (by decide)))

theorem Chg.rxFlit {a1 a2 a3} (h : Chg ps r s) (hs : [Part.regs, .ledgers, .out, .flt, .pow, .ops, .hif, .pan, .cad, .mur] ⊆ ps) : Chg ps r (State.rxFlit s a1 a2 a3) := by
  unfold State.rxFlit
  refine Chg.ite ?_ ?_
  · exact h
  · extract_lets -underBinder v0 v1
    have hv0 : Chg ps r v0.1 := by
      unfold v0
      exact (h.takeFlit (within hs (by decide)))
    clear_value v0
    clear_value v1
    exact (Chg.ite (hv0.setMport (within hs (by decide))) (hv0.takeRx (within hs (by decide))))

theorem Chg.execDataFlitReceive {a1 a2 a3} (h : Chg ps r s) (hs : [Part.time, .regs, .ledgers, .out, .flt, .pow, .ops, .hif, .pan, .cad, .mur] ⊆ ps) : ∃ t, execDataFlitReceive a1 a2 a3 s = .next t ∧ Chg ps r t := by
  refine ⟨_, rfl, ?_⟩
  exact ((h.at (within hs (by decide))).rxFlit (within hs (by decide)))

theorem Chg.execControlFlitReceive {a1 a2 a3 a4 a5 a6 a7 a8 a9 a10} (h : Chg ps r s) (hs : [Part.time, .regs, .ledgers, .out, .flt, .pow, .ops, .hif, .pan, .cad, .mur] ⊆ ps) : ∃ t, execControlFlitReceive a1 a2 a3 a4 a5 a6 a7 a8 a9 a10 s = .next t ∧ Chg ps r t := by
  refine ⟨_, rfl, ?_⟩
  exact ((h.at (within hs (by decide))).rxFlit (within hs (by decide)))

theorem Chg.gatePass {a1 a2} (h : Chg ps r s) (hs : [Part.regs, .ledgers, .out, .flt, .pow, .ops, .hif, .pan, .cad, .mur] ⊆ ps) : Chg ps r (State.gatePass s a1 a2) :=
  (Chg.foldl (h.setMport (within hs (by decide))) (fun _ _ h0 => (h0.takeRx (within hs (by decide)))))

theorem Chg.execMuralFrameReceive {a1 a2 a3 a4 a5 a6} (h : Chg ps r s) (hs : [Part.regs, .ledgers, .out, .flt, .pow, .ops, .hif, .pan, .cad, .mur] ⊆ ps) : ∃ t, execMuralFrameReceive a1 a2 a3 a4 a5 a6 s = .next t ∧ Chg ps r t := by
  unfold Sys2Proof.Machine.execMuralFrameReceive
  extract_lets v0 v1 v2 v3 v4 v5 v6
  clear_value v0
  clear_value v1
  clear_value v2
  clear_value v3
  clear_value v4
  have hv5 : Chg ps r v5 := by
    unfold v5
    exact (h.countUp (within hs (by decide)))
  clear_value v5
  clear_value v6
  refine ⟨_, rfl, ?_⟩
  exact (Chg.ite h (Chg.ite (hv5.setMport (within hs (by decide))) (Chg.ite hv5 (Chg.ite (Chg.ite (((hv5.setMport (within hs (by decide))).countUp (within hs (by decide))).report (within hs (by decide))) (Chg.ite (hv5.gatePass (within hs (by decide))) (hv5.setMport (within hs (by decide))))) (Chg.ite (hv5.setMport (within hs (by decide))) (Chg.ite ((hv5.setMport (within hs (by decide))).countUp (within hs (by decide))) (hv5.setMport (within hs (by decide)))))))))

theorem Chg.execRouteStall {a1 a2} (h : Chg ps r s) (hs : [Part.regs, .out, .hif] ⊆ ps) : ∃ t, execRouteStall a1 a2 s = .next t ∧ Chg ps r t := by
  refine ⟨_, rfl, ?_⟩
  exact (Chg.ite (h.event (within hs (by decide))) h)

theorem Chg.portTest {a1 a2} (h : Chg ps r s) (hs : [Part.regs, .rsv, .out, .hif] ⊆ ps) : Chg ps r (State.portTest s a1 a2) := by
  unfold State.portTest
  extract_lets -underBinder v0 v1
  have hv1 : Chg ps r v1 := by
    unfold v1
    exact ((h.noteRsv (within hs (by decide))).setFld (within hs (by decide)))
  clear_value v1
  exact (Chg.ite (hv1.setFld (within hs (by decide))) (Chg.ite (hv1.discard (within hs (by decide))) ((((hv1.setFld (within hs (by decide))).setFld (within hs (by decide))).setFld (within hs (by decide))).setWord (within hs (by decide)))))

theorem Chg.execPortTest {a1 a2} (h : Chg ps r s) (hs : [Part.regs, .rsv, .out, .hif] ⊆ ps) : ∃ t, execPortTest a1 a2 s = .next t ∧ Chg ps r t := by
  refine ⟨_, rfl, ?_⟩
  exact (h.via (fun _ h0 => (h0.portTest (within hs (by decide)))) (within hs (by decide)))

theorem Chg.execTestDone {a1 a2} (h : Chg ps r s) (hs : [Part.regs, .out, .hif] ⊆ ps) : ∃ t, execTestDone a1 a2 s = .next t ∧ Chg ps r t := by
  refine ⟨_, rfl, ?_⟩
  refine Chg.ite ?_ ?_
  · exact h
  · extract_lets -underBinder v0
    have hv0 : Chg ps r v0 := by
      unfold v0
      exact ((h.setFld (within hs (by decide))).setFld (within hs (by decide)))
    clear_value v0
    exact (((hv0.setWord (within hs (by decide))).setFld (within hs (by decide))).event (within hs (by decide)))

end Sys2Proof.Machine
end

