-- ==== Sys2Proof/Laws/Mural.lean ====
section
/-! SUPPORT. What each operation of Machine/Mural.lean touches at most, and that it keeps the ledgers and the byte stores in form (Chg). -/

namespace Sys2Proof.Machine

open Sys2Proof

variable {ps : List Part} {r s t : State}



theorem Chg.mOut {a1} (h : Chg ps r s) (hs : [Part.mur] ⊆ ps) : Chg ps r (State.mOut s a1) :=
  (Chg.putMur h (within hs (by decide)))

theorem Chg.mSend {a1 a2 a3 a4 a5 a6 a7 a8 a9 a10} (h : Chg ps r s) (hs : [Part.free, .mur] ⊆ ps) : Chg ps r (State.mSend s a1 a2 a3 a4 a5 a6 a7 a8 a9 a10) := by
  unfold State.mSend
  extract_lets -underBinder v0 v1 v2 v3
  clear_value v0
  clear_value v3
  split
  · rename_i y4 y5 y6
    exact ((h.setMjob (within hs (by decide))).mOut (within hs (by decide)))
  · rename_i y7 y8
    extract_lets -underBinder v9
    have hv9 : Chg ps r v9 := by
      unfold v9
      exact (h.mOut (within hs (by decide)))
    clear_value v9
    exact (Chg.putFree hv9 (within hs (by decide)))

theorem Chg.mBare {a1 a2} (h : Chg ps r s) (hs : [Part.free, .mur] ⊆ ps) : Chg ps r (State.mBare s a1 a2) := by
  unfold State.mBare
  extract_lets -underBinder v0 v1 v2
  clear_value v1
  have hv2 : Chg ps r v2 := by
    unfold v2
    exact (h.mOut (within hs (by decide)))
  clear_value v2
  exact (Chg.putFree hv2 (within hs (by decide)))

theorem Chg.mOpen {a1 a2} (h : Chg ps r s) (hs : [Part.regs, .out, .hif, .mur] ⊆ ps) : Chg ps r (State.mOpen s a1 a2).1 := by
  unfold State.mOpen
  extract_lets -underBinder v0 v1 v2 v3
  clear_value v0
  clear_value v2
  split
  · rename_i y4
    dsimp only
    exact (h.countUp (within hs (by decide)))
  · rename_i y5
    split
    · rename_i y6 y7
      dsimp only
      exact ((h.countUp (within hs (by decide))).event (within hs (by decide)))
    · rename_i y8 y9 y10
      extract_lets -underBinder v11
      dsimp only
      exact (h.setMjob (within hs (by decide)))

theorem Chg.poisonVia {a1 a2 a3} (h : Chg ps r s) (hs : [Part.mem] ⊆ ps) : Chg ps r (State.poisonVia s a1 a2 a3) := by
  unfold State.poisonVia
  split
  · rename_i y0 y1 y2
    exact (h.memPoison (within hs (by decide)))
  · rename_i y3 y4 y5 y6
    exact (h.palPoison (within hs (by decide)))
  · rename_i y7 y8 y9
    exact h

theorem Chg.writeLines {a1 a2 a3 a4 a5} (h : Chg ps r s) (hs : [Part.mem, .pan] ⊆ ps) : Chg ps r (State.writeLines s a1 a2 a3 a4 a5).1 := by
  unfold State.writeLines
  generalize State.writeFault _ _ _ _ = o0
  split
  · rename_i y1 y2
    dsimp only
    exact h
  · rename_i y3
    split
    · rename_i y4
      dsimp only
      exact h
    · rename_i y5
      extract_lets -underBinder v6
      have hv6 : Chg ps r v6 := by
        unfold v6
        exact (h.writeCuts (within hs (by decide)))
      clear_value v6
      dsimp only
      exact (Chg.foldl hv6 (fun _ _ h7 => (Chg.ite (h7.poisonVia (within hs (by decide))) h7)))

theorem Chg.mRequest {a1 a2 a3 a4 a5 a6 a7 a8 a9 a10 a11} (h : Chg ps r s) (hs : [Part.free, .ledgers, .mur] ⊆ ps) : Chg ps r (State.mRequest s a1 a2 a3 a4 a5 a6 a7 a8 a9 a10 a11) := by
  unfold State.mRequest
  split
  · rename_i y0 y1 y2 y3 y4 y5
    extract_lets -underBinder v6 v7 v8 v9
    have hv8 : Chg ps r v8 := by
      unfold v8
      exact (Chg.putMur h (within hs (by decide)))
    clear_value v8
    have hv9 : Chg ps r v9 := by
      unfold v9
      exact ((hv8.setMop (within hs (by decide))).move (within hs (by decide)))
    clear_value v9
    exact (hv9.mSend (within hs (by decide)))
  · rename_i y10 y11 y12
    exact h

theorem Chg.mFail {a1 a2 a3} (h : Chg ps r s) (hs : [Part.mur] ⊆ ps) : Chg ps r (State.mFail s a1 a2 a3) := by
  unfold State.mFail
  split
  · rename_i y0 y1 y2
    exact (Chg.ite (h.setMop (within hs (by decide))) h)
  · rename_i y3 y4
    exact h

theorem Chg.rbGot {a1 a2 a3} (h : Chg ps r s) (hs : [Part.mur] ⊆ ps) : Chg ps r (State.rbGot s a1 a2 a3) := by
  unfold State.rbGot
  split
  · rename_i y0 y1 y2
    exact (h.setMop (within hs (by decide)))
  · rename_i y3 y4
    exact h

theorem Chg.mPiece {a1 a2 a3} (h : Chg ps r s) (hs : [Part.free, .regs, .ledgers, .out, .flt, .pow, .hif, .mem, .pan, .cad, .mur] ⊆ ps) : Chg ps r (State.mPiece s a1 a2 a3) := by
  unfold State.mPiece
  extract_lets -underBinder v0 v1 v2 v3 v4 v5 v6 v7 v8 v9 v10 v11 v12
  clear_value v0
  clear_value v1
  have hv3 : Chg ps r v3 := by
    unfold v3
    exact (h.setMop (within hs (by decide)))
  clear_value v3
  refine Chg.ite ?_ ?_
  · split
    · rename_i y13 y14 y15 y16 y17
      split
      · rename_i y18 y19 y20 y21
        exact ((hv3.mmuFault (within hs (by decide))).mFail (within hs (by decide)))
      · rename_i y22 y23 y24 y25
        extract_lets -underBinder v26
        have hv26 : Chg ps r v26 := by
          unfold v26
          exact (Chg.ite hv3 (hv3.setMop (within hs (by decide))))
        clear_value v26
        exact (hv26.mRequest (within hs (by decide)))
  · refine Chg.ite ?_ ?_
    · split
      · rename_i y27 y28 y29 y30 y31
        exact (hv3.mRequest (within hs (by decide)))
    · refine Chg.ite ?_ ?_
      · split
        · rename_i y32 y33 y34 y35
          exact ((hv3.mmuFault (within hs (by decide))).mFail (within hs (by decide)))
        · rename_i y36 y37 y38 y39
          extract_lets -underBinder v40
          have hv40 : Chg ps r v40 := by
            unfold v40
            exact (Chg.ite hv3 (hv3.setMop (within hs (by decide))))
          clear_value v40
          exact (hv40.mRequest (within hs (by decide)))
      · split
        · rename_i y41 y42
          exact h
        · rename_i y43 y44 y45 y46
          refine Chg.ite ?_ ?_
          · split
            · rename_i y47 y48 y49 y50
              exact ((hv3.mmuFault (within hs (by decide))).mFail (within hs (by decide)))
            · rename_i y51 y52 y53 y54
              exact (Chg.ite (hv3.rbGot (within hs (by decide))) (hv3.mFail (within hs (by decide))))
          · exact (hv3.mRequest (within hs (by decide)))

theorem Chg.mPump {a1 a2} (h : Chg ps r s) (hs : [Part.free, .regs, .ledgers, .out, .flt, .pow, .hif, .mem, .pan, .cad, .mur] ⊆ ps) : Chg ps r (State.mPump s a1 a2) := by
  induction a2 generalizing s with
  | zero => exact h
  | succ n ih =>
    unfold State.mPump
    split
    · refine Chg.ite h (Chg.ite (h.mFail (within hs (by decide))) (ih (h.mPiece (within hs (by decide)))))
    · exact h

theorem Chg.mEnd {a1 a2 a3} (h : Chg ps r s) (hs : [Part.ops, .mur] ⊆ ps) : Chg ps r (State.mEnd s a1 a2 a3) :=
  ((Chg.putMur h (within hs (by decide))).opEnd (within hs (by decide)))

theorem Chg.rbStage {a1 a2 a3} (h : Chg ps r s) (hs : [Part.regs, .ledgers, .out, .flt, .pow, .hif, .mem, .pan, .cad, .mur] ⊆ ps) : Chg ps r (State.rbStage s a1 a2 a3) := by
  unfold State.rbStage
  extract_lets -underBinder v0 v1 v2 v3 v4 v5 v6 v7 v8 v9
  clear_value v0
  clear_value v7
  clear_value v8
  clear_value v9
  refine Chg.ite ?_ ?_
  · exact (Chg.ite (h.setMop (within hs (by decide))) (h.mFail (within hs (by decide))))
  · split
    · rename_i y10 y11 y12 y13 y14
      refine Chg.mFail ?_ (within hs (by decide))
      refine Chg.mmuFault ?_ (within hs (by decide))
      exact Chg.fst ((h.setMop (within hs (by decide))).writeLines (within hs (by decide))) y14
    · rename_i y15 y16 y17
      exact Chg.fst ((h.setMop (within hs (by decide))).writeLines (within hs (by decide))) y17

theorem Chg.mGo {a1 a2} (h : Chg ps r s) (hs : [Part.free, .regs, .ledgers, .out, .flt, .pow, .ops, .hif, .mem, .pan, .cad, .mur] ⊆ ps) : Chg ps r (State.mGo s a1 a2) := by
  induction a2 generalizing s with
  | zero => exact h
  | succ n ih =>
    unfold State.mGo
    extract_lets s1
    have h1 : Chg ps r s1 := h.mPump (within hs (by decide))
    clear_value s1
    split
    · refine Chg.ite h1 ?_
      split
      · exact h1.mEnd (within hs (by decide))
      · refine Chg.ite (h1.mEnd (within hs (by decide))) (Chg.ite (ih (h1.rbStage (within hs (by decide)))) (Chg.ite h1 (Chg.ite (Chg.ite (h1.mEnd (within hs (by decide))) (Chg.ite (h1.mEnd (within hs (by decide))) (Chg.ite h1 ?_))) (h1.mEnd (within hs (by decide))))))
        exact (h1.setMop (within hs (by decide))).mRequest (within hs (by decide))
    · exact h1

theorem Chg.mStart {a1 a2 a3 a4 a5 a6} (h : Chg ps r s) (hs : [Part.free, .regs, .ledgers, .out, .flt, .pow, .ops, .hif, .mem, .pan, .cad, .mur] ⊆ ps) : Chg ps r (State.mStart s a1 a2 a3 a4 a5 a6) :=
  (((h.setOp (within hs (by decide))).setMop (within hs (by decide))).mGo (within hs (by decide)))

theorem Chg.copyMural {a1 a2 a3} (h : Chg ps r s) (hs : [Part.free, .regs, .ledgers, .out, .flt, .pow, .ops, .hif, .mem, .pan, .cad, .mur] ⊆ ps) : Chg ps r (State.copyMural s a1 a2 a3) := by
  unfold State.copyMural
  extract_lets -underBinder v0 v1 v2 v3
  exact (Chg.ite (h.opEnd (within hs (by decide))) (Chg.ite (h.opEnd (within hs (by decide))) (Chg.ite (h.opEnd (within hs (by decide))) ((h.useWindow (within hs (by decide))).mStart (within hs (by decide))))))

theorem Chg.execOpCopy {a1 a2} (h : Chg ps r s) (hs : [Part.free, .time, .regs, .ledgers, .out, .flt, .pow, .ops, .hif, .mem, .pan, .cad, .mur] ⊆ ps) : ∃ t, execOpCopy a1 a2 s = .next t ∧ Chg ps r t := by
  refine ⟨_, rfl, ?_⟩
  split
  · rename_i y0 y1
    exact h
  · rename_i y2 y3 y4
    extract_lets -underBinder v5 v6
    refine Chg.ite ?_ ?_
    · exact h
    · refine Chg.issue ?_ (fun x9 x10 h11 => ?_) (within hs (by decide))
      · exact h
      · refine Chg.withArg ?_ (fun x12  => ?_) (within hs (by decide))
        · exact h11
        · split
          · rename_i y13 y14 y15
            exact (h11.opEnd (within hs (by decide)))
          · rename_i y16 y17
            split
            · rename_i y18 y19 y20
              exact (h11.opEnd (within hs (by decide)))
            · rename_i y21 y22
              exact (Chg.ite (h11.copyMural (within hs (by decide))) (h11.copyLocal (within hs (by decide))))

theorem Chg.ecStart {a1 a2 a3 a4} (h : Chg ps r s) (hf4 : ∀ x0, Chg ps r (a4 x0)) (hs : [Part.ops] ⊆ ps) : Chg ps r (State.ecStart s a1 a2 a3 a4) := by
  unfold State.ecStart
  extract_lets -underBinder v0
  exact (Chg.ite (h.opEnd (within hs (by decide))) (Chg.ite (h.opEnd (within hs (by decide))) (Chg.ite (h.opEnd (within hs (by decide))) (hf4 _ ))))

theorem Chg.execEcEncode {a1 a2} (h : Chg ps r s) (hs : [Part.free, .time, .regs, .ledgers, .out, .flt, .pow, .ops, .hif, .mem, .pan, .cad, .mur] ⊆ ps) : ∃ t, execEcEncode a1 a2 s = .next t ∧ Chg ps r t := by
  refine ⟨_, rfl, ?_⟩
  refine Chg.ite ?_ ?_
  · exact h
  · refine Chg.issue ?_ (fun x2 x3 h4 => ?_) (within hs (by decide))
    · exact h
    · refine Chg.withArg ?_ (fun x5  => ?_) (within hs (by decide))
      · exact h4
      · split
        · rename_i y6 y7 y8
          exact (h4.opEnd (within hs (by decide)))
        · rename_i y9 y10
          refine Chg.ecStart ?_ (fun x11  => ?_) (within hs (by decide))
          · exact h4
          · extract_lets -underBinder v12 v13
            clear_value v12
            refine Chg.ite ?_ ?_
            · exact (h4.opEnd (within hs (by decide)))
            · split
              · rename_i y14 y15 y16
                exact (h4.opEnd (within hs (by decide)))
              · rename_i y17 y18
                exact ((h4.setMjob (within hs (by decide))).mStart (within hs (by decide)))

theorem Chg.execEcRebuild {a1 a2} (h : Chg ps r s) (hs : [Part.free, .time, .regs, .ledgers, .out, .flt, .pow, .ops, .hif, .mem, .pan, .cad, .mur] ⊆ ps) : ∃ t, execEcRebuild a1 a2 s = .next t ∧ Chg ps r t := by
  refine ⟨_, rfl, ?_⟩
  refine Chg.ite ?_ ?_
  · exact h
  · refine Chg.issue ?_ (fun x2 x3 h4 => ?_) (within hs (by decide))
    · exact h
    · refine Chg.withArg ?_ (fun x5  => ?_) (within hs (by decide))
      · exact h4
      · split
        · rename_i y6 y7 y8
          exact (h4.opEnd (within hs (by decide)))
        · rename_i y9 y10
          refine Chg.ecStart ?_ (fun x11  => ?_) (within hs (by decide))
          · exact h4
          · extract_lets -underBinder v12 v13 v14 v15 v16
            split
            · rename_i y17 y18 y19
              exact (h4.opEnd (within hs (by decide)))
            · rename_i y20 y21
              split
              · rename_i y22 y23 y24
                exact (h4.opEnd (within hs (by decide)))
              · rename_i y25 y26
                exact (h4.mStart (within hs (by decide)))

theorem Chg.inboxTake {a1} (h : Chg ps r s) (hs : [Part.ledgers, .mur] ⊆ ps) : Chg ps r (State.inboxTake s a1) := by
  unfold State.inboxTake
  split
  · rename_i y0 y1
    exact h
  · rename_i y2 y3 y4
    exact ((Chg.putMur h (within hs (by decide))).mRelease (within hs (by decide)))

theorem Chg.mReply {a1 a2 a3 a4 a5 a6} (h : Chg ps r s) (hs : [Part.free, .mur] ⊆ ps) : Chg ps r (State.mReply s a1 a2 a3 a4 a5 a6) := by
  unfold State.mReply
  extract_lets -underBinder v0
  exact (h.mSend (within hs (by decide)))

theorem Chg.mRefuse {a1 a2 a3} (h : Chg ps r s) (hs : [Part.free, .regs, .mur] ⊆ ps) : Chg ps r (State.mRefuse s a1 a2 a3) :=
  ((h.countUp (within hs (by decide))).mReply (within hs (by decide)))

theorem Chg.mIncoming {a1 a2} (h : Chg ps r s) (hf2 : ∀ x0 x1 x2 x3 x4, Chg ps r x0 → Chg ps r (a2 x0 x1 x2 x3 x4)) (hs : [Part.free, .regs, .ledgers, .out, .hif, .mur] ⊆ ps) : Chg ps r (State.mIncoming s a1 a2) := by
  unfold State.mIncoming
  split
  · rename_i y0 y1
    exact h
  · rename_i y2 y3 y4
    extract_lets -underBinder v5 v6
    clear_value v5
    have hv6 : Chg ps r v6 := by
      unfold v6
      exact (h.inboxTake (within hs (by decide)))
    clear_value v6
    split
    · rename_i y7 y8
      exact ((hv6.countUp (within hs (by decide))).mBare (within hs (by decide)))
    · rename_i y9 y10 y11
      split
      · rename_i y12 y13
        exact (hv6.mRefuse (within hs (by decide)))
      · rename_i y14 y15 y16
        split
        · rename_i y17 y18 y19
          exact Chg.fst (hv6.mOpen (within hs (by decide))) y19
        · rename_i y20 y21 y22
          refine Chg.mReply ?_ (within hs (by decide))
          exact Chg.fst (hv6.mOpen (within hs (by decide))) y22
        · rename_i y23 y24 y25 y26
          refine Chg.ite ?_ ?_
          · refine Chg.mRefuse ?_ (within hs (by decide))
            exact Chg.fst (hv6.mOpen (within hs (by decide))) y26
          · refine hf2 _ _ _ _ _ ?_
            exact Chg.fst (hv6.mOpen (within hs (by decide))) y26

theorem Chg.execMuralWrite {a1} (h : Chg ps r s) (hs : [Part.free, .time, .regs, .ledgers, .out, .flt, .pow, .hif, .mem, .pan, .cad, .mur] ⊆ ps) : ∃ t, execMuralWrite a1 s = .next t ∧ Chg ps r t := by
  refine ⟨_, rfl, ?_⟩
  refine Chg.mIncoming ?_ (fun x1 x2 x3 x4 x5 h6 => ?_) (within hs (by decide))
  · exact (h.at (within hs (by decide)))
  · extract_lets -underBinder v7 v8
    clear_value v8
    split
    · rename_i y9 y10
      exact (h6.mRefuse (within hs (by decide)))
    · rename_i y11 y12 y13
      extract_lets -underBinder v14
      clear_value v14
      split
      · rename_i y15 y16 y17 y18 y19
        refine Chg.mRefuse ?_ (within hs (by decide))
        refine Chg.mmuFault ?_ (within hs (by decide))
        exact Chg.fst (h6.writeLines (within hs (by decide))) y19
      · rename_i y20 y21 y22
        refine Chg.mReply ?_ (within hs (by decide))
        exact Chg.fst (h6.writeLines (within hs (by decide))) y22
    · rename_i y23 y24 y25 y26
      extract_lets -underBinder v27
      have hv27 : Chg ps r v27 := by
        unfold v27
        exact (h6.palWrite (within hs (by decide)))
      clear_value v27
      exact ((Chg.foldl hv27 (fun _ _ h28 => (Chg.ite (h28.palPoison (within hs (by decide))) h28))).mReply (within hs (by decide)))

theorem Chg.execMuralReadReq {a1} (h : Chg ps r s) (hs : [Part.free, .time, .regs, .ledgers, .out, .flt, .pow, .hif, .mem, .pan, .cad, .mur] ⊆ ps) : ∃ t, execMuralReadReq a1 s = .next t ∧ Chg ps r t := by
  refine ⟨_, rfl, ?_⟩
  refine Chg.mIncoming ?_ (fun x1 x2 x3 x4 x5 h6 => ?_) (within hs (by decide))
  · exact (h.at (within hs (by decide)))
  · extract_lets -underBinder v7
    split
    · rename_i y8 y9
      exact (h6.mRefuse (within hs (by decide)))
    · rename_i y10 y11 y12
      extract_lets -underBinder v13
      clear_value v13
      split
      · rename_i y14 y15 y16 y17
        exact ((h6.mmuFault (within hs (by decide))).mRefuse (within hs (by decide)))
      · rename_i y18 y19 y20 y21
        exact (h6.mReply (within hs (by decide)))
    · rename_i y22 y23 y24 y25
      extract_lets -underBinder v26 v27 v28
      clear_value v28
      exact (h6.mReply (within hs (by decide)))

theorem Chg.execMuralSignal {a1} (h : Chg ps r s) (hs : [Part.free, .time, .regs, .ledgers, .out, .ops, .hif, .mur] ⊆ ps) : ∃ t, execMuralSignal a1 s = .next t ∧ Chg ps r t := by
  refine ⟨_, rfl, ?_⟩
  split
  · rename_i y0 y1
    exact h
  · rename_i y2 y3 y4
    refine Chg.ite ?_ ?_
    · exact h
    · refine Chg.mIncoming ?_ (fun x7 x8 x9 x10 x11 h12 => ?_) (within hs (by decide))
      · exact (h.at (within hs (by decide)))
      · extract_lets -underBinder v13
        have hv13 : Chg ps r v13 := by
          unfold v13
          exact (Chg.ite (h12.synAdd (within hs (by decide))) h12)
        clear_value v13
        exact (hv13.mReply (within hs (by decide)))

theorem Chg.ecTake {a1 a2 a3 a4 a5 a6} (h : Chg ps r s) (hs : [Part.free, .regs, .ledgers, .out, .flt, .pow, .ops, .hif, .mem, .pan, .cad, .mur] ⊆ ps) : Chg ps r (State.ecTake s a1 a2 a3 a4 a5 a6) := by
  unfold State.ecTake
  extract_lets -underBinder v0 v1 v2 v3 v4 v5 v6 v7 v8 v9
  clear_value v0
  have hv8 : ∀ z0 z1 z2 z3, Chg ps r z0 → Chg ps r (v8 z0 z1 z2 z3) := by
    intro x10 x11 x12 x13 h14
    unfold v8
    split
    · rename_i y15 y16 y17 y18 y19
      refine Chg.mRefuse ?_ (within hs (by decide))
      refine Chg.mmuFault ?_ (within hs (by decide))
      exact Chg.fst (h14.writeLines (within hs (by decide))) y19
    · rename_i y20 y21 y22
      split
      · rename_i y23 y24 y25 y26 y27
        refine Chg.mRefuse ?_ (within hs (by decide))
        refine Chg.mmuFault ?_ (within hs (by decide))
        refine Chg.fst ?_ y27
        refine Chg.writeLines ?_ (within hs (by decide))
        exact Chg.fst (h14.writeLines (within hs (by decide))) y22
      · rename_i y28 y29 y30
        extract_lets -underBinder v31 v32
        have hv32 : Chg ps r v32 := by
          unfold v32
          refine Chg.ite ?_ ?_
          · refine Chg.synAdd ?_ (within hs (by decide))
            refine Chg.fst ?_ y30
            refine Chg.writeLines ?_ (within hs (by decide))
            exact Chg.fst (h14.writeLines (within hs (by decide))) y22
          · refine Chg.fst ?_ y30
            refine Chg.writeLines ?_ (within hs (by decide))
            exact Chg.fst (h14.writeLines (within hs (by decide))) y22
        clear_value v32
        exact (hv32.mReply (within hs (by decide)))
  refine Chg.ite ?_ ?_
  · exact h
  · refine Chg.ite ?_ ?_
    · split
      · rename_i y33 y34 y35 y36
        exact ((h.mmuFault (within hs (by decide))).mRefuse (within hs (by decide)))
      · rename_i y37 y38 y39 y40
        exact (hv8 _ _ _ _ h)
    · exact (Chg.ite (hv8 _ _ _ _ h) (h.mReply (within hs (by decide))))

theorem Chg.execEcContrib {a1} (h : Chg ps r s) (hs : [Part.free, .time, .regs, .ledgers, .out, .flt, .pow, .ops, .hif, .mem, .pan, .cad, .mur] ⊆ ps) : ∃ t, execEcContrib a1 s = .next t ∧ Chg ps r t := by
  refine ⟨_, rfl, ?_⟩
  refine Chg.mIncoming ?_ (fun x1 x2 x3 x4 x5 h6 => ?_) (within hs (by decide))
  · exact (h.at (within hs (by decide)))
  · extract_lets -underBinder v7 v8 v9 v10 v11 v12 v13
    clear_value v13
    refine Chg.ite ?_ ?_
    · exact (h6.mRefuse (within hs (by decide)))
    · split
      · rename_i y14 y15 y16 y17
        exact ((h6.mmuFault (within hs (by decide))).mRefuse (within hs (by decide)))
      · rename_i y18 y19 y20 y21
        exact (h6.ecTake (within hs (by decide)))

theorem Chg.mResponse {a1 a2} (h : Chg ps r s) (hf2 : ∀ x0 x1 x2 x3, Chg ps r x0 → Chg ps r (a2 x0 x1 x2 x3)) (hs : [Part.free, .regs, .ledgers, .out, .flt, .pow, .ops, .hif, .mem, .pan, .cad, .mur] ⊆ ps) : Chg ps r (State.mResponse s a1 a2) := by
  unfold State.mResponse
  split
  · exact h
  · extract_lets b s0 e kind
    have h0 : Chg ps r s0 := h.inboxTake (within hs (by decide))
    clear_value s0
    split
    · exact h0
    · refine Chg.ite h0 ?_
      extract_lets back
      have hb : ∀ a st, Chg ps r a → Chg ps r (back a st) := by
        intro a st ha
        unfold back
        extract_lets v a1 a2 a3
        have h1 : Chg ps r a1 := ha.putMur (within hs (by decide))
        clear_value a1
        have h2 : Chg ps r a2 := (h1.move (within hs (by decide))).move (within hs (by decide))
        clear_value a2
        have h3 : Chg ps r a3 := by
          unfold a3
          split
          · exact h2.setMop (within hs (by decide))
          · exact h2
        clear_value a3
        split
        · exact (h3.mFail (within hs (by decide))).mGo (within hs (by decide))
        · exact h3
      clear_value back
      refine Chg.ite (hb _ _ h0) ?_
      split
      · next e1 => exact Chg.fst (h0.mOpen (within hs (by decide))) e1
      · next e1 => exact hb _ _ (Chg.fst (h0.mOpen (within hs (by decide))) e1)
      · next e1 => exact (hf2 _ _ _ _ (hb _ _ (Chg.fst (h0.mOpen (within hs (by decide))) e1))).mGo (within hs (by decide))

theorem Chg.execReadResp {a1} (h : Chg ps r s) (hs : [Part.free, .time, .regs, .ledgers, .out, .flt, .pow, .ops, .hif, .mem, .pan, .cad, .mur] ⊆ ps) : ∃ t, execReadResp a1 s = .next t ∧ Chg ps r t := by
  refine ⟨_, rfl, ?_⟩
  refine Chg.mResponse ?_ (fun x1 x2 x3 x4 h5 => ?_) (within hs (by decide))
  · exact (h.at (within hs (by decide)))
  · split
    · rename_i y6 y7 y8 y9 y10 y11
      refine Chg.ite ?_ ?_
      · exact h5
      · refine Chg.ite ?_ ?_
        · exact (Chg.ite (h5.rbGot (within hs (by decide))) (h5.mFail (within hs (by decide))))
        · extract_lets -underBinder v12
          clear_value v12
          split
          · rename_i y13 y14 y15 y16 y17
            have hp18 : Chg ps r y14 := Chg.fst (h5.writeLines (within hs (by decide))) y17
            exact ((hp18.mmuFault (within hs (by decide))).mFail (within hs (by decide)))
          · rename_i y19 y20 y21
            have hp22 : Chg ps r y20 := Chg.fst (h5.writeLines (within hs (by decide))) y21
            exact (Chg.ite hp22 (hp22.setMop (within hs (by decide))))
    · rename_i y23 y24 y25
      exact h5

theorem Chg.execWriteAck {a1} (h : Chg ps r s) (hs : [Part.free, .time, .regs, .ledgers, .out, .flt, .pow, .ops, .hif, .mem, .pan, .cad, .mur] ⊆ ps) : ∃ t, execWriteAck a1 s = .next t ∧ Chg ps r t := by
  refine ⟨_, rfl, ?_⟩
  exact ((h.at (within hs (by decide))).mResponse (fun _ _ _ _ h0 => h0) (within hs (by decide)))

theorem Chg.execSignalAck {a1} (h : Chg ps r s) (hs : [Part.free, .time, .regs, .ledgers, .out, .flt, .pow, .ops, .hif, .mem, .pan, .cad, .mur] ⊆ ps) : ∃ t, execSignalAck a1 s = .next t ∧ Chg ps r t := by
  refine ⟨_, rfl, ?_⟩
  refine Chg.mResponse ?_ (fun x1 x2 x3 x4 h5 => ?_) (within hs (by decide))
  · exact (h.at (within hs (by decide)))
  · split
    · rename_i y6 y7 y8
      exact (h5.setMop (within hs (by decide)))
    · rename_i y9 y10
      exact h5

theorem Chg.execEcAck {a1} (h : Chg ps r s) (hs : [Part.free, .time, .regs, .ledgers, .out, .flt, .pow, .ops, .hif, .mem, .pan, .cad, .mur] ⊆ ps) : ∃ t, execEcAck a1 s = .next t ∧ Chg ps r t := by
  refine ⟨_, rfl, ?_⟩
  exact ((h.at (within hs (by decide))).mResponse (fun _ _ _ _ h0 => h0) (within hs (by decide)))

theorem Chg.reqTimeout {a1} (h : Chg ps r s) (hs : [Part.free, .regs, .ledgers, .out, .flt, .pow, .ops, .hif, .mem, .pan, .cad, .mur] ⊆ ps) : Chg ps r (State.reqTimeout s a1) := by
  unfold State.reqTimeout
  split
  · rename_i y0 y1
    exact h
  · rename_i y2 y3 y4
    exact ((h.reqFail (within hs (by decide))).mGo (within hs (by decide)))

theorem Chg.execRequestTimeout {a1 a2} (h : Chg ps r s) (hs : [Part.free, .time, .regs, .ledgers, .out, .flt, .pow, .ops, .hif, .mem, .pan, .cad, .mur] ⊆ ps) : ∃ t, execRequestTimeout a1 a2 s = .next t ∧ Chg ps r t := by
  refine ⟨_, rfl, ?_⟩
  exact ((h.at (within hs (by decide))).reqTimeout (within hs (by decide)))

theorem Chg.arrTake {a1} (h : Chg ps r s) (hs : [Part.mur] ⊆ ps) : Chg ps r (State.arrTake s a1) :=
  (Chg.putMur h (within hs (by decide)))

theorem Chg.toPort {a1 a2} (h : Chg ps r s) (hs : [Part.regs, .ledgers, .out, .mur] ⊆ ps) : Chg ps r (State.toPort s a1 a2) := by
  unfold State.toPort
  extract_lets -underBinder v0 v1
  have hv0 : Chg ps r v0 := by
    unfold v0
    split
    · rename_i y2 y3 y4
      exact (Chg.putMur h (within hs (by decide)))
    · rename_i y5 y6
      exact h
  clear_value v0
  clear_value v1
  exact ((hv0.setMport (within hs (by decide))).pump (within hs (by decide)))

theorem Chg.localFail {a1 a2 a3} (h : Chg ps r s) (hs : [Part.free, .regs, .ledgers, .out, .flt, .pow, .ops, .hif, .mem, .pan, .cad, .mur] ⊆ ps) : Chg ps r (State.localFail s a1 a2 a3) := by
  unfold State.localFail
  split
  · rename_i y0 y1 y2
    split
    · rename_i y3 y4 y5
      exact ((h.reqFail (within hs (by decide))).mGo (within hs (by decide)))
    · rename_i y6 y7
      exact h
  · rename_i y8 y9
    exact h

theorem Chg.lookup {a1} (h : Chg ps r s) (hs : [Part.regs, .mur] ⊆ ps) : Chg ps r (State.lookup s a1).1 := by
  unfold State.lookup
  split
  · rename_i y0 y1 y2
    dsimp only
    exact h
  · rename_i y3 y4
    extract_lets -underBinder v5 v6 v7
    have hv5 : Chg ps r v5 := by
      unfold v5
      exact (h.setFld (within hs (by decide)))
    clear_value v5
    have hv7 : Chg ps r v7 := by
      unfold v7
      split
      · rename_i y8 y9 y10
        exact (Chg.putMur hv5 (within hs (by decide)))
      · rename_i y11 y12
        exact hv5
    clear_value v7
    dsimp only
    exact hv7

theorem Chg.routePkt {a1} (h : Chg ps r s) (hs : [Part.free, .regs, .ledgers, .out, .flt, .pow, .ops, .hif, .mem, .pan, .cad, .mur] ⊆ ps) : Chg ps r (State.routePkt s a1) := by
  unfold State.routePkt
  split
  · rename_i y0 y1
    exact h
  · rename_i y2 y3 y4
    refine Chg.ite ?_ ?_
    · extract_lets -underBinder v5
      have hv5 : Chg ps r v5 := by
        unfold v5
        exact (h.arrTake (within hs (by decide)))
      clear_value v5
      exact (Chg.ite ((hv5.countUp (within hs (by decide))).mRelease (within hs (by decide))) (hv5.localFail (within hs (by decide))))
    · split
      · rename_i y6 y7 y8 y9
        extract_lets -underBinder v10 v11 v12 v13
        have hv11 : Chg ps r v11 := by
          unfold v11
          refine Chg.epochLeave ?_ (within hs (by decide))
          refine Chg.arrTake ?_ (within hs (by decide))
          exact Chg.fst (h.lookup (within hs (by decide))) y9
        clear_value v11
        refine Chg.ite ?_ ?_
        · exact (Chg.putMur hv11 (within hs (by decide)))
        · refine Chg.ite ?_ ?_
          · refine Chg.toPort ?_ (within hs (by decide))
            refine Chg.arrTake ?_ (within hs (by decide))
            exact Chg.fst (h.lookup (within hs (by decide))) y9
          · refine Chg.ite ?_ ?_
            · refine Chg.toPort ?_ (within hs (by decide))
              refine Chg.arrTake ?_ (within hs (by decide))
              exact Chg.fst (h.lookup (within hs (by decide))) y9
            · refine (Chg.putMur ?_ (within hs (by decide)))
              exact Chg.fst (h.lookup (within hs (by decide))) y9

theorem Chg.execPacketRoute {a1 a2} (h : Chg ps r s) (hs : [Part.free, .time, .regs, .ledgers, .out, .flt, .pow, .ops, .hif, .mem, .pan, .cad, .mur] ⊆ ps) : ∃ t, execPacketRoute a1 a2 s = .next t ∧ Chg ps r t := by
  refine ⟨_, rfl, ?_⟩
  exact (Chg.ite ((h.at (within hs (by decide))).routePkt (within hs (by decide))) h)

theorem Chg.execRouteWaitTimeout {a1 a2} (h : Chg ps r s) (hs : [Part.free, .time, .regs, .ledgers, .out, .flt, .pow, .ops, .hif, .mem, .pan, .cad, .mur] ⊆ ps) : ∃ t, execRouteWaitTimeout a1 a2 s = .next t ∧ Chg ps r t := by
  refine ⟨_, rfl, ?_⟩
  split
  · rename_i y0 y1
    exact h
  · rename_i y2 y3 y4
    split
    · rename_i y5 y6
      exact h
    · rename_i y7 y8 y9
      refine Chg.ite ?_ ?_
      · exact h
      · extract_lets -underBinder v10
        have hv10 : Chg ps r v10 := by
          unfold v10
          exact ((((h.at (within hs (by decide))).arrTake (within hs (by decide))).epochLeave (within hs (by decide))).mRelease (within hs (by decide)))
        clear_value v10
        exact (Chg.ite (hv10.localFail (within hs (by decide))) (Chg.ite (hv10.mBare (within hs (by decide))) hv10))

theorem Chg.routeEnd {a1} (h : Chg ps r s) (hs : [Part.regs, .out, .hif] ⊆ ps) : Chg ps r (State.routeEnd s a1) :=
  (((h.setFld (within hs (by decide))).setFld (within hs (by decide))).event (within hs (by decide)))

theorem Chg.routeCommit {a1} (h : Chg ps r s) (hs : [Part.regs, .rsv, .out, .hif, .mur] ⊆ ps) : Chg ps r (State.routeCommit s a1) := by
  unfold State.routeCommit
  extract_lets -underBinder v0
  have hv0 : Chg ps r v0 := by
    unfold v0
    exact (h.noteRsv (within hs (by decide)))
  clear_value v0
  refine Chg.ite ?_ ?_
  · exact hv0
  · refine Chg.ite ?_ ?_
    · exact (hv0.discard (within hs (by decide)))
    · refine Chg.ite ?_ ?_
      · exact (hv0.routeEnd (within hs (by decide)))
      · refine Chg.ite ?_ ?_
        · exact (hv0.routeEnd (within hs (by decide)))
        · split
          · rename_i y1 y2 y3
            exact (hv0.routeEnd (within hs (by decide)))
          · rename_i y4 y5
            extract_lets -underBinder v6 v7 v8 v9
            clear_value v6
            clear_value v7
            have hv8 : Chg ps r v8 := by
              unfold v8
              exact (Chg.putMur hv0 (within hs (by decide)))
            clear_value v8
            have hv9 : Chg ps r v9 := by
              unfold v9
              exact ((hv8.setFld (within hs (by decide))).setFld (within hs (by decide)))
            clear_value v9
            exact (((hv9.setFld (within hs (by decide))).setFld (within hs (by decide))).routeEnd (within hs (by decide)))

theorem Chg.execRouteCommit {a1} (h : Chg ps r s) (hs : [Part.regs, .rsv, .out, .hif, .mur] ⊆ ps) : ∃ t, execRouteCommit a1 s = .next t ∧ Chg ps r t := by
  refine ⟨_, rfl, ?_⟩
  exact (h.via (fun _ h0 => (h0.routeCommit (within hs (by decide)))) (within hs (by decide)))

theorem Chg.execRouteEpochRetire (h : Chg ps r s) (hs : [Part.regs] ⊆ ps) : ∃ t, execRouteEpochRetire s = .next t ∧ Chg ps r t := by
  refine ⟨_, rfl, ?_⟩
  exact (Chg.ite (h.setFld (within hs (by decide))) h)

theorem Chg.routeStart (h : Chg ps r s) (hs : [Part.regs, .mur] ⊆ ps) : Chg ps r (State.routeStart s) := by
  unfold State.routeStart
  extract_lets -underBinder v0 v1
  have hv1 : Chg ps r v1 := by
    unfold v1
    exact (Chg.putMur h (within hs (by decide)))
  clear_value v1
  exact ((hv1.setFld (within hs (by decide))).setFld (within hs (by decide)))

theorem Chg.routeData {a1} (h : Chg ps r s) (hs : [Part.regs, .rsv, .out, .hif, .mur] ⊆ ps) : Chg ps r (State.routeData s a1) := by
  unfold State.routeData
  extract_lets -underBinder v0 v1
  have hv0 : Chg ps r v0 := by
    unfold v0
    exact (h.noteRsv (within hs (by decide)))
  clear_value v0
  exact (Chg.putMur hv0 (within hs (by decide)))

theorem Chg.jobOpen {a1} (h : Chg ps r s) (hs : [Part.regs, .out, .hif, .mur] ⊆ ps) : Chg ps r (State.jobOpen s a1) := by
  unfold State.jobOpen
  refine Chg.ite ?_ ?_
  · exact (h.discard (within hs (by decide)))
  · split
    · rename_i y0 y1 y2 y3
      extract_lets -underBinder v4 v5
      clear_value v4
      have hv5 : Chg ps r v5 := by
        unfold v5
        exact (Chg.ite (h.setMjob (within hs (by decide))) h)
      clear_value v5
      exact (((hv5.setFld (within hs (by decide))).setFld (within hs (by decide))).event (within hs (by decide)))

theorem Chg.jobShut {a1} (h : Chg ps r s) (hs : [Part.free, .regs, .ledgers, .out, .flt, .pow, .ops, .hif, .mem, .pan, .cad, .mur] ⊆ ps) : Chg ps r (State.jobShut s a1) := by
  unfold State.jobShut
  extract_lets -underBinder v0 v1 v2 v3
  clear_value v0
  have hv1 : Chg ps r v1 := by
    unfold v1
    exact (h.setMjob (within hs (by decide)))
  clear_value v1
  clear_value v2
  have hv3 : Chg ps r v3 := by
    unfold v3
    exact (Chg.foldl hv1 (fun _ _ h4 => (h4.reqFail (within hs (by decide)))))
  clear_value v3
  exact (Chg.foldl hv3 (fun _ _ h5 => (h5.mGo (within hs (by decide)))))

theorem Chg.jobClose {a1} (h : Chg ps r s) (hs : [Part.free, .regs, .ledgers, .out, .flt, .pow, .ops, .hif, .mem, .pan, .cad, .mur] ⊆ ps) : Chg ps r (State.jobClose s a1) :=
  (Chg.ite ((h.jobShut (within hs (by decide))).event (within hs (by decide))) (h.discard (within hs (by decide))))

theorem Chg.jobCmd {a1} (h : Chg ps r s) (hs : [Part.free, .regs, .rsv, .ledgers, .out, .flt, .pow, .ops, .hif, .mem, .pan, .cad, .mur] ⊆ ps) : Chg ps r (State.jobCmd s a1) := by
  unfold State.jobCmd
  extract_lets -underBinder v0 v1 v2
  have hv0 : Chg ps r v0 := by
    unfold v0
    exact (h.noteRsv (within hs (by decide)))
  clear_value v0
  exact (Chg.ite (Chg.ite (hv0.jobOpen (within hs (by decide))) (hv0.discard (within hs (by decide)))) (Chg.ite (hv0.jobClose (within hs (by decide))) (Chg.ite hv0 (hv0.discard (within hs (by decide))))))

theorem Chg.execJobOpen {a1} (h : Chg ps r s) (hs : [Part.free, .regs, .rsv, .ledgers, .out, .flt, .pow, .ops, .hif, .mem, .pan, .cad, .mur] ⊆ ps) : ∃ t, execJobOpen a1 s = .next t ∧ Chg ps r t := by
  refine ⟨_, rfl, ?_⟩
  exact (h.via (fun _ h0 => (h0.jobCmd (within hs (by decide)))) (within hs (by decide)))

theorem Chg.execJobClose {a1} (h : Chg ps r s) (hs : [Part.free, .regs, .rsv, .ledgers, .out, .flt, .pow, .ops, .hif, .mem, .pan, .cad, .mur] ⊆ ps) : ∃ t, execJobClose a1 s = .next t ∧ Chg ps r t := by
  refine ⟨_, rfl, ?_⟩
  exact (h.via (fun _ h0 => (h0.jobCmd (within hs (by decide)))) (within hs (by decide)))

theorem Chg.jobsShut {a1} (h : Chg ps r s) (hs : [Part.free, .regs, .ledgers, .out, .flt, .pow, .ops, .hif, .mem, .pan, .cad, .mur] ⊆ ps) : Chg ps r (State.jobsShut s a1) :=
  (Chg.foldl h (fun _ _ h0 => (Chg.ite (h0.jobShut (within hs (by decide))) h0)))

theorem Chg.memberWrite {a1} (h : Chg ps r s) (hs : [Part.regs, .rsv, .out, .hif, .mur] ⊆ ps) : Chg ps r (State.memberWrite s a1) := by
  unfold State.memberWrite
  extract_lets -underBinder v0 v1 v2 v3 v4 v5 v6 v7 v8
  have hv0 : Chg ps r v0 := by
    unfold v0
    exact (h.noteRsv (within hs (by decide)))
  clear_value v0
  clear_value v3
  have hv8 : Chg ps r v8 := by
    unfold v8
    exact (Chg.ite (hv0.discard (within hs (by decide))) hv0)
  clear_value v8
  exact (hv8.setMjob (within hs (by decide)))

theorem Chg.execMemberStateWrite {a1} (h : Chg ps r s) (hs : [Part.regs, .rsv, .out, .hif, .mur] ⊆ ps) : ∃ t, execMemberStateWrite a1 s = .next t ∧ Chg ps r t := by
  refine ⟨_, rfl, ?_⟩
  exact (h.via (fun _ h0 => (h0.memberWrite (within hs (by decide)))) (within hs (by decide)))

theorem Chg.jobWrite {a1 a2} (h : Chg ps r s) (hs : [Part.regs, .rsv, .out, .hif] ⊆ ps) : Chg ps r (State.jobWrite s a1 a2) := by
  unfold State.jobWrite
  extract_lets -underBinder v0
  exact (Chg.ite (h.discard (within hs (by decide))) (h.storeAt (within hs (by decide))))

end Sys2Proof.Machine
end

