-- ==== Sys2Proof/Laws/Power.lean ====
section
/-! SUPPORT. What each operation of Machine/Power.lean touches at most, and that it keeps the ledgers and the byte stores in form (Chg). -/

namespace Sys2Proof.Machine

open Sys2Proof

variable {ps : List Part} {r s t : State}



theorem Chg.outsReset (h : Chg ps r s) (hs : [Part.regs] ⊆ ps) : Chg ps r (State.outsReset s) :=
  ((h.setFld (within hs (by decide))).driveOuts (within hs (by decide)))

theorem Chg.coreReset (h : Chg ps r s) (hs : [Part.regs, .wide, .rsv, .ledgers, .flt, .pow, .ops, .hif, .mem, .pan, .cad, .srv, .vce, .mur, .ing, .sec] ⊆ ps) : Chg ps r (State.coreReset s) := by
  unfold State.coreReset
  extract_lets -underBinder load z fot
  refine Chg.foldl ?_ (fun _ _ ha => ha.setWord (within hs (by decide)))
  refine h.trans ⟨rfl, .inl (Nat.le_refl _), fun _ p i => ledgerReset_sum p i, fun k => ?_, fun p hp => ?_⟩
  · exact ⟨rfl, rfl, rfl, k.2.2.2.1, k.2.2.2.2.1, fun e he => absurd he List.not_mem_nil⟩
  · cases p <;> first | rfl | trivial | exact absurd (hs (by decide)) hp

theorem Chg.tidyKept (h : Chg ps r s) (hs : [Part.regs] ⊆ ps) : Chg ps r (State.tidyKept s) := by
  unfold State.tidyKept
  extract_lets -underBinder v0 v1 v2 v3 v4 v5 v6 v7 v8 v9 v10 v11 v12
  have hv0 : Chg ps r v0 := by
    unfold v0
    exact (Chg.foldl h (fun _ _ h13 => ((h13.setFld (within hs (by decide))).setFld (within hs (by decide)))))
  clear_value v0
  have hv1 : Chg ps r v1 := by
    unfold v1
    refine Chg.foldl ?_ (fun a15 x16 h17 => ?_)
    · exact hv0
    · extract_lets -underBinder v18 v19
      exact (((h17.setWord (within hs (by decide))).setFld (within hs (by decide))).setFld (within hs (by decide)))
  clear_value v1
  have hv3 : Chg ps r v3 := by
    unfold v3
    exact ((hv1.setWord (within hs (by decide))).setFld (within hs (by decide)))
  clear_value v3
  have hv6 : Chg ps r v6 := by
    unfold v6
    exact (((hv3.setWord (within hs (by decide))).setFld (within hs (by decide))).setFld (within hs (by decide)))
  clear_value v6
  have hv10 : Chg ps r v10 := by
    unfold v10
    exact (((hv6.setWord (within hs (by decide))).setFld (within hs (by decide))).setFld (within hs (by decide)))
  clear_value v10
  have hv11 : Chg ps r v11 := by
    unfold v11
    exact ((hv10.setFld (within hs (by decide))).setFld (within hs (by decide)))
  clear_value v11
  exact ((hv11.setFld (within hs (by decide))).setFld (within hs (by decide)))

theorem Chg.moduleReset {a1} (h : Chg ps r s) (hs : [Part.regs, .wide, .rsv, .ledgers, .flt, .pow, .ops, .hif, .mem, .pan, .cad, .srv, .vce, .mur, .ing, .sec] ⊆ ps) : Chg ps r (State.moduleReset s a1) := by
  unfold State.moduleReset
  extract_lets -underBinder v0
  have hv0 : Chg ps r v0 := by
    unfold v0
    exact (((h.outsReset (within hs (by decide))).coreReset (within hs (by decide))).tidyKept (within hs (by decide)))
  clear_value v0
  exact ((hv0.setWord (within hs (by decide))).setFld (within hs (by decide)))

theorem Chg.modResetWrite {a1} (h : Chg ps r s) (hs : [Part.regs, .wide, .rsv, .ledgers, .out, .flt, .pow, .ops, .hif, .mem, .pan, .cad, .srv, .vce, .mur, .ing, .sec] ⊆ ps) : Chg ps r (State.modResetWrite s a1) := by
  unfold State.modResetWrite
  extract_lets -underBinder v0
  have hv0 : Chg ps r v0 := by
    unfold v0
    exact (h.noteRsv (within hs (by decide)))
  clear_value v0
  exact (Chg.ite (hv0.moduleReset (within hs (by decide))) (hv0.discard (within hs (by decide))))

theorem Chg.execModuleReset {a1 a2} (h : Chg ps r s) (hs : [Part.time, .regs, .wide, .rsv, .ledgers, .out, .flt, .pow, .ops, .hif, .mem, .pan, .cad, .srv, .vce, .mur, .ing, .sec] ⊆ ps) : ∃ t, execModuleReset a1 a2 s = .next t ∧ Chg ps r t := by
  refine ⟨_, rfl, ?_⟩
  exact (h.via (fun _ h0 => ((h0.at (within hs (by decide))).modResetWrite (within hs (by decide)))) (within hs (by decide)))

theorem Chg.execFatalReset {a1} (h : Chg ps r s) (hs : [Part.time, .regs, .wide, .rsv, .ledgers, .flt, .pow, .ops, .hif, .mem, .pan, .cad, .srv, .vce, .mur, .ing, .sec] ⊆ ps) : ∃ t, execFatalReset a1 s = .next t ∧ Chg ps r t := by
  refine ⟨_, rfl, ?_⟩
  exact (Chg.ite ((h.at (within hs (by decide))).moduleReset (within hs (by decide))) h)

theorem Chg.execPerstAssert {a1} (h : Chg ps r s) (hs : [Part.time, .regs, .wide, .rsv, .ledgers, .flt, .pow, .ops, .hif, .mem, .pan, .cad, .srv, .vce, .mur, .ing, .sec] ⊆ ps) : ∃ t, execPerstAssert a1 s = .next t ∧ Chg ps r t := by
  refine ⟨_, rfl, ?_⟩
  refine Chg.ite ?_ ?_
  · exact h
  · refine Chg.ite ?_ ?_
    · extract_lets -underBinder v0 v1
      have hv0 : Chg ps r v0 := by
        unfold v0
        exact ((h.at (within hs (by decide))).moduleReset (within hs (by decide)))
      clear_value v0
      exact (Chg.putPow hv0 (within hs (by decide)))
    · exact (Chg.putPow (h.at (within hs (by decide))) (within hs (by decide)))

theorem Chg.execPerstDeassert {a1} (h : Chg ps r s) (hs : [Part.time, .pow] ⊆ ps) : ∃ t, execPerstDeassert a1 s = .next t ∧ Chg ps r t := by
  refine ⟨_, rfl, ?_⟩
  exact (Chg.putPow (h.at (within hs (by decide))) (within hs (by decide)))

theorem Chg.powerOff (h : Chg ps r s) (hs : [Part.regs, .wide, .rsv, .ledgers, .flt, .pow, .ops, .hif, .mem, .pan, .cad, .srv, .vce, .mur, .ing, .mgt, .sec] ⊆ ps) : Chg ps r (State.powerOff s) := by
  unfold State.powerOff
  extract_lets s0 s1 z v w s2
  have h0 : Chg ps r s0 := Chg.ite (h.setFld (within hs (by decide))) h
  have h1 : Chg ps r s1 := (h0.coreReset (within hs (by decide))).tidyKept (within hs (by decide))
  clear_value z s1
  have h2 : Chg ps r s2 := Chg.putMgt (x := z.mgt) (Chg.putPow (x := { s1.pow with phase := .off }) (Chg.putFlt
    (x := { s1.flt with queue := s1.flt.queue.filter (fun r => decide (0x20 ≤ r.typ)), beside := [], ce := [], ceOver := 0, lostDue := 0 })
    (Chg.putWide (x := s1.wide.filter (fun e => e.1 / 1024 != pgMGT)) (Chg.putRegs
      (x := s1.regs.filter (fun e => e.1 / 1024 != pgMGT && !(e.1 / 1024 == pgMOD && e.1 % 1024 == r_MOD_RESET_COUNT)))
      h1 (within hs (by decide))) (within hs (by decide))) (within hs (by decide))) (within hs (by decide))) (within hs (by decide))
  exact h2.setFld (within hs (by decide))

theorem Chg.blockLost {a1 a2} (h : Chg ps r s) (hs : [Part.free, .mem] ⊆ ps) : Chg ps r (State.blockLost s a1 a2) := by
  unfold State.blockLost
  generalize s.freeBytes _ = bs
  have h1 : Chg ps r { s with mem := { s.mem with flash := cWrite s.mem.flash a1 bs } } :=
    h.putBytes (within hs (by decide)) (fun k => ⟨k.1, k.2.1, k.2.2.1, k.2.2.2.1, smWf_cWrite k.2.2.2.2.1 _ _, k.2.2.2.2.2⟩)
  exact h1.putFree (within hs (by decide))

theorem Chg.bufferLost (h : Chg ps r s) (hs : [Part.free, .mem] ⊆ ps) : Chg ps r (State.bufferLost s) := by
  unfold State.bufferLost
  extract_lets -underBinder v0 v1
  have hv0 : Chg ps r v0 := by
    unfold v0
    exact (Chg.foldl h (fun _ _ h2 => (h2.blockLost (within hs (by decide)))))
  clear_value v0
  exact (Chg.putMem hv0 (within hs (by decide)) ⟨rfl, rfl, rfl, rfl, rfl⟩)

theorem Chg.aonOn (h : Chg ps r s) (hs : [Part.time, .flt, .pow, .restart] ⊆ ps) : Chg ps r (State.aonOn s) := by
  refine h.trans ⟨rfl, .inr (hs (by decide)), id, id, fun p hp => ?_⟩
  cases p <;> first | rfl | trivial | exact absurd (hs (by decide)) hp

theorem Chg.execAonPowerOn (h : Chg ps r s) (hs : [Part.time, .flt, .pow, .restart] ⊆ ps) : ∃ t, execAonPowerOn s = .next t ∧ Chg ps r t := by
  refine ⟨_, rfl, ?_⟩
  exact (Chg.ite (h.aonOn (within hs (by decide))) h)

theorem Chg.execOverVoltage {a1} (h : Chg ps r s) (hs : [Part.free, .time, .regs, .wide, .rsv, .ledgers, .flt, .pow, .ops, .hif, .mem, .pan, .cad, .srv, .vce, .mur, .ing, .mgt, .sec] ⊆ ps) : ∃ t, execOverVoltage a1 s = .next t ∧ Chg ps r t := by
  refine ⟨_, rfl, ?_⟩
  refine Chg.ite ?_ ?_
  · exact h
  · extract_lets -underBinder v0 v1
    have hv0 : Chg ps r v0 := by
      unfold v0
      exact (((h.at (within hs (by decide))).bufferLost (within hs (by decide))).powerOff (within hs (by decide)))
    clear_value v0
    exact (Chg.putPow hv0 (within hs (by decide)))

theorem Chg.execOverVoltageRecovery (h : Chg ps r s) (hs : [Part.time, .flt, .pow, .restart] ⊆ ps) : ∃ t, execOverVoltageRecovery s = .next t ∧ Chg ps r t := by
  refine ⟨_, rfl, ?_⟩
  exact (Chg.ite (h.aonOn (within hs (by decide))) h)

theorem Chg.powerFail (h : Chg ps r s) (hs : [Part.regs, .wide, .rsv, .ledgers, .flt, .pow, .ops, .hif, .mem, .pan, .cad, .srv, .vce, .mur, .ing, .sec] ⊆ ps) : Chg ps r (State.powerFail s) := by
  unfold State.powerFail
  extract_lets -underBinder v0 v1
  have hv0 : Chg ps r v0 := by
    unfold v0
    exact (((h.outsReset (within hs (by decide))).coreReset (within hs (by decide))).tidyKept (within hs (by decide)))
  clear_value v0
  exact (Chg.putPow hv0 (within hs (by decide)))

theorem Chg.execPowerFail {a1} (h : Chg ps r s) (hs : [Part.time, .regs, .wide, .rsv, .ledgers, .flt, .pow, .ops, .hif, .mem, .pan, .cad, .srv, .vce, .mur, .ing, .sec] ⊆ ps) : ∃ t, execPowerFail a1 s = .next t ∧ Chg ps r t := by
  refine ⟨_, rfl, ?_⟩
  exact (Chg.ite h ((h.at (within hs (by decide))).powerFail (within hs (by decide))))

theorem Chg.flushJournals (h : Chg ps r s) (hs : [Part.regs, .flt, .mem] ⊆ ps) : Chg ps r (State.flushJournals s) := by
  unfold State.flushJournals
  extract_lets -underBinder v0 v1
  clear_value v0
  exact (Chg.foldl (Chg.putFlt h (within hs (by decide))) (fun _ _ h2 => (h2.durable (within hs (by decide)))))

theorem Chg.execPowerFailEnd {a1 a2} (h : Chg ps r s) (hs : [Part.time, .regs, .wide, .rsv, .ledgers, .flt, .pow, .ops, .hif, .mem, .pan, .cad, .srv, .vce, .mur, .ing, .mgt, .sec] ⊆ ps) : ∃ t, execPowerFailEnd a1 a2 s = .next t ∧ Chg ps r t := by
  refine ⟨_, rfl, ?_⟩
  refine Chg.ite h ?_
  extract_lets s1 v w s2
  have h1 : Chg ps r s1 := (h.at (within hs (by decide))).flushJournals (within hs (by decide))
  have h2 : Chg ps r s2 := Chg.putMem (x := { s1.mem with buffered := [] }) (Chg.putPow (x := { s1.pow with failing := false }) h1 (within hs (by decide)))
    (within hs (by decide)) ⟨rfl, rfl, rfl, rfl, rfl⟩
  exact Chg.ite (h2.moduleReset (within hs (by decide))) (h2.powerOff (within hs (by decide)))

theorem Chg.boot {a1 a2} (h : Chg ps r s) (hs : [Part.regs, .ledgers, .out, .flt, .pow, .hif, .pan, .cad, .sec] ⊆ ps) : Chg ps r (State.boot s a1 a2) := by
  unfold State.boot
  extract_lets -underBinder v0 v1 v2 v3 v4 v5 v6 v7
  clear_value v4
  have hv7 : Chg ps r v7 := by
    unfold v7
    exact (Chg.putSec h (within hs (by decide)))
  clear_value v7
  split
  · rename_i y8
    exact (Chg.putPow hv7 (within hs (by decide)))
  · rename_i y9 y10
    extract_lets -underBinder v11 v12 v13 v14 v15 v16 v17 v18 v19
    have hv11 : Chg ps r v11 := by
      unfold v11
      exact (((((hv7.setFld (within hs (by decide))).setFld (within hs (by decide))).setFld (within hs (by decide))).setFld (within hs (by decide))).setFld (within hs (by decide)))
    clear_value v11
    have hv12 : Chg ps r v12 := by
      unfold v12
      exact (Chg.ite hv11 (hv11.report (within hs (by decide))))
    clear_value v12
    have hv13 : Chg ps r v13 := by
      unfold v13
      exact (hv12.report (within hs (by decide)))
    clear_value v13
    have hv16 : Chg ps r v16 := by
      unfold v16
      exact (((hv12.setFld (within hs (by decide))).setFld (within hs (by decide))).setFld (within hs (by decide)))
    clear_value v16
    have hv17 : Chg ps r v17 := by
      unfold v17
      exact (Chg.ite hv16 (hv16.setFld (within hs (by decide))))
    clear_value v17
    have hv18 : Chg ps r v18 := by
      unfold v18
      exact ((hv17.setFld (within hs (by decide))).setFld (within hs (by decide)))
    clear_value v18
    exact (Chg.ite (Chg.putPow hv13 (within hs (by decide))) (Chg.putPow hv18 (within hs (by decide))))

theorem Chg.execResetRelease {a1 a2 a3 a4 a5} (h : Chg ps r s) (hs : [Part.time, .regs, .ledgers, .out, .flt, .pow, .hif, .pan, .cad, .sec] ⊆ ps) : ∃ t, execResetRelease a1 a2 a3 a4 a5 s = .next t ∧ Chg ps r t := by
  refine ⟨_, rfl, ?_⟩
  refine Chg.ite ?_ ?_
  · extract_lets -underBinder v0 v1
    have hv0 : Chg ps r v0 := by
      unfold v0
      exact ((h.at (within hs (by decide))).boot (within hs (by decide)))
    clear_value v0
    exact (Chg.putPow hv0 (within hs (by decide)))
  · exact h

theorem Chg.marchCore {a1 a2} (h : Chg ps r s) (hs : [Part.regs, .ledgers, .out, .flt, .pow, .hif, .pan, .cad] ⊆ ps) : Chg ps r (State.marchCore s a1 a2) := by
  unfold State.marchCore
  extract_lets -underBinder v0 v1 v2
  clear_value v0
  clear_value v1
  have hv2 : Chg ps r v2 := by
    unfold v2
    exact ((h.setPanel (within hs (by decide))).setFld (within hs (by decide)))
  clear_value v2
  exact (Chg.ite (Chg.ite h ((h.setPanel (within hs (by decide))).substCore (within hs (by decide)))) (Chg.ite (hv2.journal (within hs (by decide))) h))

theorem Chg.marchPanel {a1 a2 a3 a4} (h : Chg ps r s) (hs : [Part.regs, .ledgers, .out, .flt, .pow, .hif, .mem, .pan, .cad] ⊆ ps) : Chg ps r (State.marchPanel s a1 a2 a3 a4) := by
  unfold State.marchPanel
  split
  · rename_i y0 y1
    refine Chg.ite ?_ ?_
    · extract_lets -underBinder v2 v3
      clear_value v2
      have hv3 : Chg ps r v3 := by
        unfold v3
        exact (h.setCanvas (within hs (by decide)))
      clear_value v3
      exact (hv3.journal (within hs (by decide)))
    · exact h
  · rename_i y4 y5 y6
    extract_lets -underBinder v7 v8 v9 v10
    clear_value v7
    clear_value v8
    clear_value v9
    have hv10 : Chg ps r v10 := by
      unfold v10
      exact ((h.setPanel (within hs (by decide))).setWord (within hs (by decide)))
    clear_value v10
    exact (Chg.ite (Chg.foldl (Chg.foldl h (fun _ _ h11 => (h11.marchCore (within hs (by decide))))) (fun _ _ h12 => (h12.marchCore (within hs (by decide))))) (Chg.ite ((h.setPanel (within hs (by decide))).substPanel (within hs (by decide))) (hv10.journal (within hs (by decide)))))

theorem Chg.paletteMarch {a1} (h : Chg ps r s) (hs : [Part.regs, .ledgers, .out, .flt, .pow, .hif, .mem, .pan, .cad] ⊆ ps) : Chg ps r (State.paletteMarch s a1) := by
  unfold State.paletteMarch
  extract_lets -underBinder v0 v1
  have hv1 : Chg ps r v1 := by
    unfold v1
    refine Chg.foldl ?_ (fun a3 x4 h5 => ?_)
    · exact h
    · extract_lets -underBinder v6
      clear_value v6
      exact (Chg.foldl h5 (fun _ _ h7 => (Chg.ite h7 (h7.marchPanel (within hs (by decide))))))
  clear_value v1
  exact (Chg.putRegs hv1 (within hs (by decide)))

theorem Chg.repairRows (h : Chg ps r s) (hs : [Part.regs, .out, .flt, .hif, .mem] ⊆ ps) : Chg ps r (State.repairRows s) := by
  unfold State.repairRows
  refine Chg.foldl ?_ (fun a1 x2 h3 => ?_)
  · exact h
  · extract_lets -underBinder v4 v5 v6 v7
    have hv7 : Chg ps r v7 := by
      unfold v7
      exact (Chg.putMem h3 (within hs (by decide)) ⟨rfl, rfl, rfl, rfl, rfl⟩)
    clear_value v7
    exact (Chg.ite (hv7.journal (within hs (by decide))) h3)

theorem Chg.execConfigReady {a1 a2 a3 a4 a5} (h : Chg ps r s) (hs : [Part.time, .regs, .ledgers, .out, .flt, .pow, .hif, .mem, .pan, .cad] ⊆ ps) : ∃ t, execConfigReady a1 a2 a3 a4 a5 s = .next t ∧ Chg ps r t := by
  refine ⟨_, rfl, ?_⟩
  refine Chg.ite h ?_
  extract_lets s1 s2 s3 s4
  have h1 : Chg ps r s1 := h.at (within hs (by decide))
  have h2 : Chg ps r s2 := Chg.ite h1 (h1.paletteMarch (within hs (by decide)))
  have h4 : Chg ps r s4 := (h2.repairRows (within hs (by decide))).setWord (within hs (by decide))
  exact Chg.putHif (x := { s4.hif with linkUp := true }) (Chg.putPow (x := { s4.pow with phase := .ready }) h4 (within hs (by decide))) (within hs (by decide))

theorem Chg.execConfigRequest {a1} (h : Chg ps r s) (hs : [Part.out] ⊆ ps) : ∃ t, execConfigRequest a1 s = .next t ∧ Chg ps r t := by
  refine ⟨_, rfl, ?_⟩
  exact (Chg.ite (h.emit (within hs (by decide))) (Chg.ite (h.emit (within hs (by decide))) h))

theorem Chg.pdRefuse {a1 a2} (h : Chg ps r s) (hs : [Part.regs, .out, .hif] ⊆ ps) : Chg ps r (State.pdRefuse s a1 a2) :=
  (((h.setFld (within hs (by decide))).setFld (within hs (by decide))).discard (within hs (by decide)))

theorem Chg.pdRequest {a1 a2 a3} (h : Chg ps r s) (hs : [Part.regs, .out, .pow, .hif] ⊆ ps) : Chg ps r (State.pdRequest s a1 a2 a3) := by
  unfold State.pdRequest
  extract_lets -underBinder v0 v1 v2 v3
  clear_value v0
  clear_value v1
  clear_value v2
  refine Chg.ite ?_ ?_
  · exact (h.pdRefuse (within hs (by decide)))
  · refine Chg.ite ?_ ?_
    · exact h
    · refine Chg.ite ?_ ?_
      · exact (h.pdRefuse (within hs (by decide)))
      · split
        · rename_i y4 y5 y6
          exact (h.pdRefuse (within hs (by decide)))
        · rename_i y7 y8
          split
          · rename_i y9 y10 y11
            exact (h.pdRefuse (within hs (by decide)))
          · rename_i y12 y13
            extract_lets -underBinder v14 v15 v16 v17
            have hv14 : Chg ps r v14 := by
              unfold v14
              exact ((h.setWord (within hs (by decide))).setWord (within hs (by decide)))
            clear_value v14
            have hv15 : Chg ps r v15 := by
              unfold v15
              exact (hv14.setFld (within hs (by decide)))
            clear_value v15
            have hv16 : Chg ps r v16 := by
              unfold v16
              exact ((hv15.setWord (within hs (by decide))).setWord (within hs (by decide)))
            clear_value v16
            clear_value v17
            exact (Chg.putPow hv16 (within hs (by decide)))

theorem Chg.pdReq0 {a1} (h : Chg ps r s) (hs : [Part.regs, .rsv, .out, .pow, .hif] ⊆ ps) : Chg ps r (State.pdReq0 s a1) :=
  ((h.noteRsv (within hs (by decide))).pdRequest (within hs (by decide)))

theorem Chg.execModPdReq0Write {a1} (h : Chg ps r s) (hs : [Part.regs, .rsv, .out, .pow, .hif] ⊆ ps) : ∃ t, execModPdReq0Write a1 s = .next t ∧ Chg ps r t := by
  refine ⟨_, rfl, ?_⟩
  exact (h.via (fun _ h0 => (h0.pdReq0 (within hs (by decide)))) (within hs (by decide)))

theorem Chg.pdReq1 {a1} (h : Chg ps r s) (hs : [Part.regs, .out, .pow, .hif] ⊆ ps) : Chg ps r (State.pdReq1 s a1) :=
  (h.pdRequest (within hs (by decide)))

theorem Chg.execModPdReq1Write {a1} (h : Chg ps r s) (hs : [Part.regs, .out, .pow, .hif] ⊆ ps) : ∃ t, execModPdReq1Write a1 s = .next t ∧ Chg ps r t := by
  refine ⟨_, rfl, ?_⟩
  exact (h.via (fun _ h0 => (h0.pdReq1 (within hs (by decide)))) (within hs (by decide)))

theorem Chg.showBypass {a1} (h : Chg ps r s) (hs : [Part.regs, .out, .hif] ⊆ ps) : Chg ps r (State.showBypass s a1) := by
  unfold State.showBypass
  extract_lets -underBinder v0
  exact (Chg.ite h ((h.setFld (within hs (by decide))).event (within hs (by decide))))

theorem Chg.quadZero {a1 a2} (h : Chg ps r s) (hs : [Part.mem] ⊆ ps) : Chg ps r (State.quadZero s a1 a2) :=
  (Chg.foldl h (fun _ _ h0 => ((h0.palZero (within hs (by decide))).storesZero (within hs (by decide)))))

theorem Chg.pdDone {a1} (h : Chg ps r s) (hs : [Part.regs, .out, .pow, .hif, .mem] ⊆ ps) : Chg ps r (State.pdDone s a1) := by
  unfold State.pdDone
  extract_lets -underBinder v0 v1 v2 v3 v4 v5 v6
  have hv2 : Chg ps r v2 := by
    unfold v2
    exact (((h.setWord (within hs (by decide))).setWord (within hs (by decide))).setFld (within hs (by decide)))
  clear_value v2
  have hv4 : Chg ps r v4 := by
    unfold v4
    exact (Chg.putPow hv2 (within hs (by decide)))
  clear_value v4
  have hv5 : Chg ps r v5 := by
    unfold v5
    exact (Chg.foldl hv4 (fun _ _ h7 => (Chg.ite (h7.memZero (within hs (by decide))) h7)))
  clear_value v5
  have hv6 : Chg ps r v6 := by
    unfold v6
    exact (Chg.foldl hv5 (fun _ _ h8 => (Chg.ite (Chg.putPow h8 (within hs (by decide))) h8)))
  clear_value v6
  exact ((Chg.foldl hv6 (fun _ _ h9 => (h9.showBypass (within hs (by decide))))).event (within hs (by decide)))

theorem Chg.execPdTransitionDone (h : Chg ps r s) (hs : [Part.regs, .out, .pow, .hif, .mem] ⊆ ps) : ∃ t, execPdTransitionDone s = .next t ∧ Chg ps r t := by
  refine ⟨_, rfl, ?_⟩
  split
  · rename_i y0 y1 y2
    exact (h.pdDone (within hs (by decide)))
  · rename_i y3 y4
    exact h

theorem Chg.execQuadClearDone {a1 a2} (h : Chg ps r s) (hs : [Part.pow, .mem] ⊆ ps) : ∃ t, execQuadClearDone a1 a2 s = .next t ∧ Chg ps r t := by
  refine ⟨_, rfl, ?_⟩
  extract_lets -underBinder v0 v1 v2
  have hv1 : Chg ps r v1 := by
    unfold v1
    exact (h.quadZero (within hs (by decide)))
  clear_value v1
  exact (Chg.ite (Chg.putPow hv1 (within hs (by decide))) h)

theorem Chg.slowPanels {a1 a2} (h : Chg ps r s) (hs : [Part.regs, .pan] ⊆ ps) : Chg ps r (State.slowPanels s a1 a2) := by
  unfold State.slowPanels
  refine Chg.foldl ?_ (fun a1 x2 h3 => ?_)
  · exact h
  · refine Chg.ite ?_ ?_
    · extract_lets -underBinder v4
      clear_value v4
      exact ((h3.setPanel (within hs (by decide))).reclock (within hs (by decide)))
    · exact h3

theorem Chg.throttle {a1} (h : Chg ps r s) (hs : [Part.regs, .pow, .pan] ⊆ ps) : Chg ps r (State.throttle s a1) := by
  unfold State.throttle
  extract_lets -underBinder v0 v1 v2 v3 v4 v5 v6 v7 v8
  have hv2 : Chg ps r v2 := by
    unfold v2
    exact (Chg.putPow h (within hs (by decide)))
  clear_value v2
  have hv3 : Chg ps r v3 := by
    unfold v3
    exact (hv2.slowPanels (within hs (by decide)))
  clear_value v3
  have hv5 : Chg ps r v5 := by
    unfold v5
    exact (hv2.slowPanels (within hs (by decide)))
  clear_value v5
  refine Chg.ite ?_ ?_
  · exact (Chg.ite (Chg.putPow hv3 (within hs (by decide))) (Chg.ite (Chg.putPow hv5 (within hs (by decide))) (Chg.putPow hv2 (within hs (by decide)))))
  · refine Chg.ite ?_ ?_
    · split
      · rename_i y9 y10
        exact (Chg.putPow h (within hs (by decide)))
      · rename_i y11 y12 y13
        refine Chg.ite ?_ ?_
        · exact h
        · extract_lets -underBinder v14 v15 v16 v17 v18 v19
          have hv14 : Chg ps r v14 := by
            unfold v14
            exact (Chg.putPow h (within hs (by decide)))
          clear_value v14
          have hv15 : Chg ps r v15 := by
            unfold v15
            exact (hv14.slowPanels (within hs (by decide)))
          clear_value v15
          have hv17 : Chg ps r v17 := by
            unfold v17
            exact (hv14.slowPanels (within hs (by decide)))
          clear_value v17
          exact (Chg.ite (Chg.putPow hv15 (within hs (by decide))) (Chg.ite (Chg.putPow hv17 (within hs (by decide))) (Chg.putPow hv14 (within hs (by decide)))))
    · exact (Chg.putPow h (within hs (by decide)))

theorem Chg.reading {a1 a2} (h : Chg ps r s) (hs : [Part.mgt] ⊆ ps) : Chg ps r (State.reading s a1 a2) :=
  (Chg.putMgt h (within hs (by decide)))

theorem Chg.envDrop (h : Chg ps r s) (hs : [Part.pow] ⊆ ps) : Chg ps r (State.envDrop s) :=
  (Chg.putPow h (within hs (by decide)))

theorem Chg.voltage {a1} (h : Chg ps r s) (hs : [Part.pow] ⊆ ps) : Chg ps r (State.voltage s a1) := by
  unfold State.voltage
  refine Chg.ite ?_ ?_
  · exact (Chg.putPow h (within hs (by decide)))
  · split
    · rename_i y0 y1
      exact (Chg.putPow h (within hs (by decide)))
    · rename_i y2 y3 y4
      exact (Chg.ite (h.envDrop (within hs (by decide))) h)

theorem Chg.flowTrack (h : Chg ps r s) (hs : [Part.pow] ⊆ ps) : Chg ps r (State.flowTrack s) := by
  unfold State.flowTrack
  extract_lets -underBinder v0 v1
  clear_value v0
  clear_value v1
  exact (Chg.ite (Chg.putPow h (within hs (by decide))) (Chg.putPow h (within hs (by decide))))

theorem Chg.execPowerSample {a1 a2 a3 a4 a5} (h : Chg ps r s) (hs : [Part.time, .regs, .pow, .pan, .mgt] ⊆ ps) : ∃ t, execPowerSample a1 a2 a3 a4 a5 s = .next t ∧ Chg ps r t := by
  refine ⟨_, rfl, ?_⟩
  refine Chg.ite ?_ ?_
  · exact h
  · extract_lets -underBinder v0
    have hv0 : Chg ps r v0 := by
      unfold v0
      exact ((((h.at (within hs (by decide))).reading (within hs (by decide))).reading (within hs (by decide))).reading (within hs (by decide)))
    clear_value v0
    exact ((((hv0.setFld (within hs (by decide))).flowTrack (within hs (by decide))).voltage (within hs (by decide))).throttle (within hs (by decide)))

theorem Chg.pldmEvent {a1 a2} (h : Chg ps r s) (hs : [Part.out] ⊆ ps) : Chg ps r (State.pldmEvent s a1 a2) := by
  unfold State.pldmEvent
  split
  · rename_i y0 y1 y2
    exact (h.emit (within hs (by decide)))
  · rename_i y3 y4
    exact h

theorem Chg.temperature {a1 a2} (h : Chg ps r s) (hs : [Part.regs, .out, .pow, .hif, .mgt] ⊆ ps) : Chg ps r (State.temperature s a1 a2) := by
  unfold State.temperature
  extract_lets -underBinder v0 v1 v2 v3 v4 v5 v6
  clear_value v0
  clear_value v1
  have hv2 : Chg ps r v2 := by
    unfold v2
    exact ((h.reading (within hs (by decide))).flowTrack (within hs (by decide)))
  clear_value v2
  clear_value v3
  clear_value v4
  have hv5 : Chg ps r v5 := by
    unfold v5
    exact (Chg.ite (Chg.putPow hv2 (within hs (by decide))) hv2)
  clear_value v5
  have hv6 : Chg ps r v6 := by
    unfold v6
    exact (Chg.ite hv5 (hv5.envDrop (within hs (by decide))))
  clear_value v6
  exact (Chg.ite hv6 ((hv6.event (within hs (by decide))).pldmEvent (within hs (by decide))))

theorem Chg.execTemperatureThreshold {a1 a2 a3} (h : Chg ps r s) (hs : [Part.time, .regs, .out, .pow, .hif, .mgt] ⊆ ps) : ∃ t, execTemperatureThreshold a1 a2 a3 s = .next t ∧ Chg ps r t := by
  refine ⟨_, rfl, ?_⟩
  exact (Chg.ite h ((h.at (within hs (by decide))).temperature (within hs (by decide))))

theorem Chg.execFlowLow {a1} (h : Chg ps r s) (hs : [Part.time, .pow] ⊆ ps) : ∃ t, execFlowLow a1 s = .next t ∧ Chg ps r t := by
  unfold Sys2Proof.Machine.execFlowLow
  extract_lets v0 v1
  have hv0 : Chg ps r v0 := by
    unfold v0
    exact (h.at (within hs (by decide)))
  clear_value v0
  clear_value v1
  refine ⟨_, rfl, ?_⟩
  exact (Chg.ite (Chg.putPow hv0 (within hs (by decide))) h)

theorem Chg.execMoistureChange {a1} (h : Chg ps r s) (hs : [Part.regs, .out, .pow, .hif, .mgt] ⊆ ps) : ∃ t, execMoistureChange a1 s = .next t ∧ Chg ps r t := by
  refine ⟨_, rfl, ?_⟩
  refine Chg.ite ?_ ?_
  · exact h
  · extract_lets -underBinder v0 v1
    have hv0 : Chg ps r v0 := by
      unfold v0
      exact (h.reading (within hs (by decide)))
    clear_value v0
    exact (((Chg.putPow hv0 (within hs (by decide))).event (within hs (by decide))).pldmEvent (within hs (by decide)))

end Sys2Proof.Machine
end

