-- ==== Sys2Proof/Laws/Mgt.lean ====
section
/-! SUPPORT. What each operation of Machine/Mgt.lean touches at most, and that it keeps the ledgers and the byte stores in form (Chg). -/

namespace Sys2Proof.Machine

open Sys2Proof

variable {ps : List Part} {r s t : State}



theorem Chg.inputEdge {a1 a2 a3 a4} (h : Chg ps r s) (hs : [Part.time, .regs, .wide, .out, .hif] ⊆ ps) : Chg ps r (State.inputEdge s a1 a2 a3 a4) := by
  unfold State.inputEdge
  extract_lets -underBinder v0 v1
  clear_value v0
  have hv1 : Chg ps r v1 := by
    unfold v1
    exact ((h.at (within hs (by decide))).setFld (within hs (by decide)))
  clear_value v1
  exact (Chg.ite h ((hv1.setWide (within hs (by decide))).event (within hs (by decide))))

theorem Chg.execInputEdge {a1 a2 a3 a4} (h : Chg ps r s) (hs : [Part.time, .regs, .wide, .out, .hif] ⊆ ps) : ∃ t, execInputEdge a1 a2 a3 a4 s = .next t ∧ Chg ps r t := by
  refine ⟨_, rfl, ?_⟩
  exact (h.inputEdge (within hs (by decide)))

theorem Chg.execMgtInEdgeRead {a1} (h : Chg ps r s) (hs : [Part.regs, .reply] ⊆ ps) : ∃ t, execMgtInEdgeRead a1 s = .next t ∧ Chg ps r t := by
  refine ⟨_, rfl, ?_⟩
  exact (h.via (fun _ h0 => (h0.readWide (within hs (by decide)))) (within hs (by decide)))

theorem Chg.outLevelWrite {a1} (h : Chg ps r s) (hs : [Part.regs] ⊆ ps) : Chg ps r (State.outLevelWrite s a1) := by
  unfold State.outLevelWrite
  extract_lets -underBinder v0
  have hv0 : Chg ps r v0 := by
    unfold v0
    exact (h.setFld (within hs (by decide)))
  clear_value v0
  exact (hv0.driveOuts (within hs (by decide)))

theorem Chg.execMgtOutLevelWrite {a1} (h : Chg ps r s) (hs : [Part.regs, .rsv, .out, .hif] ⊆ ps) : ∃ t, execMgtOutLevelWrite a1 s = .next t ∧ Chg ps r t := by
  refine ⟨_, rfl, ?_⟩
  exact (h.via (fun _ h0 => ((h0.noteRsv (within hs (by decide))).outLevelWrite (within hs (by decide)))) (within hs (by decide)))

theorem Chg.capSet {a1 a2} (h : Chg ps r s) (hs : [Part.regs, .out, .hif] ⊆ ps) : Chg ps r (State.capSet s a1 a2) := by
  unfold State.capSet
  extract_lets -underBinder v0
  have hv0 : Chg ps r v0 := by
    unfold v0
    exact (h.setFld (within hs (by decide)))
  clear_value v0
  exact (Chg.ite hv0 (hv0.event (within hs (by decide))))

theorem Chg.capWrite {a1} (h : Chg ps r s) (hs : [Part.regs, .out, .hif] ⊆ ps) : Chg ps r (State.capWrite s a1) := by
  unfold State.capWrite
  extract_lets -underBinder v0
  exact (Chg.ite (h.discard (within hs (by decide))) (h.capSet (within hs (by decide))))

theorem Chg.execMgtPowerCapWrite {a1} (h : Chg ps r s) (hs : [Part.regs, .rsv, .out, .hif] ⊆ ps) : ∃ t, execMgtPowerCapWrite a1 s = .next t ∧ Chg ps r t := by
  refine ⟨_, rfl, ?_⟩
  exact (h.via (fun _ h0 => ((h0.noteRsv (within hs (by decide))).capWrite (within hs (by decide)))) (within hs (by decide)))

theorem Chg.busRecovery {a1} (h : Chg ps r s) (hs : [Part.regs] ⊆ ps) : Chg ps r (State.busRecovery s a1) :=
  (h.countFld (within hs (by decide)))

theorem Chg.busRefuse {a1} (h : Chg ps r s) (hs : [Part.regs, .out, .hif] ⊆ ps) : Chg ps r (State.busRefuse s a1) :=
  (((h.setFld (within hs (by decide))).setFld (within hs (by decide))).event (within hs (by decide)))

theorem Chg.busEnable {a1 a2} (h : Chg ps r s) (hs : [Part.regs, .ledgers, .out, .flt, .pow, .hif, .pan, .cad] ⊆ ps) : Chg ps r (State.busEnable s a1 a2) := by
  unfold State.busEnable
  refine Chg.ite ?_ ?_
  · exact ((h.busRecovery (within hs (by decide))).busRefuse (within hs (by decide)))
  · extract_lets -underBinder v0
    have hv0 : Chg ps r v0 := by
      unfold v0
      exact ((h.setFld (within hs (by decide))).setFld (within hs (by decide)))
    clear_value v0
    exact (Chg.ite ((hv0.busRecovery (within hs (by decide))).report (within hs (by decide))) hv0)

theorem Chg.busCtrl {a1 a2 a3} (h : Chg ps r s) (hs : [Part.regs, .ledgers, .out, .flt, .pow, .hif, .pan, .cad] ⊆ ps) : Chg ps r (State.busCtrl s a1 a2 a3) := by
  unfold State.busCtrl
  extract_lets -underBinder v0 v1 v2 v3 v4
  have hv3 : Chg ps r v3 := by
    unfold v3
    exact (Chg.ite (h.discard (within hs (by decide))) (h.setFld (within hs (by decide))))
  clear_value v3
  have hv4 : Chg ps r v4 := by
    unfold v4
    exact (hv3.setFld (within hs (by decide)))
  clear_value v4
  exact (Chg.ite hv4 (Chg.ite (hv4.busEnable (within hs (by decide))) ((hv4.setFld (within hs (by decide))).setFld (within hs (by decide)))))

theorem Chg.execI2cEnable {a1 a2 a3 a4 a5} (h : Chg ps r s) (hs : [Part.regs, .rsv, .ledgers, .out, .flt, .pow, .hif, .pan, .cad] ⊆ ps) : ∃ t, execI2cEnable a1 a2 a3 a4 a5 s = .next t ∧ Chg ps r t := by
  refine ⟨_, rfl, ?_⟩
  exact (h.via (fun _ h0 => ((h0.noteRsv (within hs (by decide))).busCtrl (within hs (by decide)))) (within hs (by decide)))

theorem Chg.execI2cDisable {a1 a2} (h : Chg ps r s) (hs : [Part.regs, .rsv, .ledgers, .out, .flt, .pow, .hif, .pan, .cad] ⊆ ps) : ∃ t, execI2cDisable a1 a2 s = .next t ∧ Chg ps r t := by
  refine ⟨_, rfl, ?_⟩
  exact (h.via (fun _ h0 => ((h0.noteRsv (within hs (by decide))).busCtrl (within hs (by decide)))) (within hs (by decide)))

theorem Chg.busStretch {a1 a2} (h : Chg ps r s) (hs : [Part.regs, .ledgers, .out, .flt, .pow, .hif, .pan, .cad] ⊆ ps) : Chg ps r (State.busStretch s a1 a2) :=
  (Chg.ite h (Chg.ite (((h.busRecovery (within hs (by decide))).setFld (within hs (by decide))).report (within hs (by decide))) (((h.busRecovery (within hs (by decide))).busRefuse (within hs (by decide))).report (within hs (by decide)))))

theorem Chg.execI2cStretchTimeout {a1 a2} (h : Chg ps r s) (hs : [Part.regs, .ledgers, .out, .flt, .pow, .hif, .pan, .cad] ⊆ ps) : ∃ t, execI2cStretchTimeout a1 a2 s = .next t ∧ Chg ps r t := by
  refine ⟨_, rfl, ?_⟩
  exact (h.busStretch (within hs (by decide)))

theorem Chg.sideband {a1 a2 a3} (h : Chg ps r s) (hs : [Part.out] ⊆ ps) : Chg ps r (State.sideband s a1 a2 a3) :=
  (Chg.ite h (h.emit (within hs (by decide))))

theorem Chg.setEid {a1 a2} (h : Chg ps r s) (hs : [Part.regs, .out] ⊆ ps) : Chg ps r (State.setEid s a1 a2) :=
  (Chg.ite h (Chg.ite (h.sideband (within hs (by decide))) ((h.setFld (within hs (by decide))).sideband (within hs (by decide)))))

theorem Chg.execSetEndpointId {a1 a2} (h : Chg ps r s) (hs : [Part.regs, .out] ⊆ ps) : ∃ t, execSetEndpointId a1 a2 s = .next t ∧ Chg ps r t := by
  refine ⟨_, rfl, ?_⟩
  exact (h.setEid (within hs (by decide)))

theorem Chg.execGetEndpointId (h : Chg ps r s) (hs : [Part.out] ⊆ ps) : ∃ t, execGetEndpointId s = .next t ∧ Chg ps r t := by
  refine ⟨_, rfl, ?_⟩
  exact (h.sideband (within hs (by decide)))

theorem Chg.execGetMctpVersionSupport {a1} (h : Chg ps r s) (hs : [Part.out] ⊆ ps) : ∃ t, execGetMctpVersionSupport a1 s = .next t ∧ Chg ps r t := by
  refine ⟨_, rfl, ?_⟩
  exact (h.sideband (within hs (by decide)))

theorem Chg.execGetMessageTypeSupport (h : Chg ps r s) (hs : [Part.out] ⊆ ps) : ∃ t, execGetMessageTypeSupport s = .next t ∧ Chg ps r t := by
  refine ⟨_, rfl, ?_⟩
  exact (h.sideband (within hs (by decide)))

theorem Chg.execGetEndpointUuid (h : Chg ps r s) (hs : [Part.out] ⊆ ps) : ∃ t, execGetEndpointUuid s = .next t ∧ Chg ps r t := by
  refine ⟨_, rfl, ?_⟩
  exact (h.sideband (within hs (by decide)))

theorem Chg.execGetTid (h : Chg ps r s) (hs : [Part.out] ⊆ ps) : ∃ t, execGetTid s = .next t ∧ Chg ps r t := by
  refine ⟨_, rfl, ?_⟩
  exact (h.sideband (within hs (by decide)))

theorem Chg.execGetPldmVersion {a1} (h : Chg ps r s) (hs : [Part.out] ⊆ ps) : ∃ t, execGetPldmVersion a1 s = .next t ∧ Chg ps r t := by
  refine ⟨_, rfl, ?_⟩
  exact (h.sideband (within hs (by decide)))

theorem Chg.execGetPldmTypes (h : Chg ps r s) (hs : [Part.out] ⊆ ps) : ∃ t, execGetPldmTypes s = .next t ∧ Chg ps r t := by
  refine ⟨_, rfl, ?_⟩
  exact (h.sideband (within hs (by decide)))

theorem Chg.execGetPldmCommands {a1} (h : Chg ps r s) (hs : [Part.out] ⊆ ps) : ∃ t, execGetPldmCommands a1 s = .next t ∧ Chg ps r t := by
  refine ⟨_, rfl, ?_⟩
  exact (h.sideband (within hs (by decide)))

theorem Chg.sensorAnswer {a1} (h : Chg ps r s) (hs : [Part.out] ⊆ ps) : Chg ps r (State.sensorAnswer s a1) := by
  unfold State.sensorAnswer
  extract_lets -underBinder v0
  clear_value v0
  exact (Chg.ite (h.sideband (within hs (by decide))) (h.sideband (within hs (by decide))))

theorem Chg.execGetSensorReading {a1} (h : Chg ps r s) (hs : [Part.out] ⊆ ps) : ∃ t, execGetSensorReading a1 s = .next t ∧ Chg ps r t := by
  refine ⟨_, rfl, ?_⟩
  exact (h.sensorAnswer (within hs (by decide)))

theorem Chg.setReceiver {a1} (h : Chg ps r s) (hs : [Part.regs, .out, .mgt] ⊆ ps) : Chg ps r (State.setReceiver s a1) := by
  unfold State.setReceiver
  refine Chg.ite ?_ ?_
  · exact h
  · extract_lets -underBinder v0 v1
    have hv1 : Chg ps r v1 := by
      unfold v1
      exact (Chg.putMgt h (within hs (by decide)))
    clear_value v1
    exact ((hv1.setFld (within hs (by decide))).sideband (within hs (by decide)))

theorem Chg.execSetEventReceiver {a1 a2} (h : Chg ps r s) (hs : [Part.regs, .out, .mgt] ⊆ ps) : ∃ t, execSetEventReceiver a1 a2 s = .next t ∧ Chg ps r t := by
  refine ⟨_, rfl, ?_⟩
  exact (h.setReceiver (within hs (by decide)))

theorem Chg.execResetStateEffecter {a1} (h : Chg ps r s) (hs : [Part.time, .regs, .wide, .rsv, .ledgers, .out, .flt, .pow, .ops, .hif, .mem, .pan, .cad, .srv, .vce, .mur, .ing, .sec] ⊆ ps) : ∃ t, execResetStateEffecter a1 s = .next t ∧ Chg ps r t := by
  refine ⟨_, rfl, ?_⟩
  exact (Chg.ite h (((h.at (within hs (by decide))).sideband (within hs (by decide))).moduleReset (within hs (by decide))))

theorem Chg.capEffecter {a1} (h : Chg ps r s) (hs : [Part.regs, .out, .hif] ⊆ ps) : Chg ps r (State.capEffecter s a1) :=
  (Chg.ite h (Chg.ite (h.sideband (within hs (by decide))) ((h.capSet (within hs (by decide))).sideband (within hs (by decide)))))

theorem Chg.execPowerCapEffecter {a1} (h : Chg ps r s) (hs : [Part.regs, .out, .hif] ⊆ ps) : ∃ t, execPowerCapEffecter a1 s = .next t ∧ Chg ps r t := by
  refine ⟨_, rfl, ?_⟩
  exact (h.capEffecter (within hs (by decide)))

theorem Chg.setUpdate {a1} (h : Chg ps r s) (hs : [Part.mgt] ⊆ ps) : Chg ps r (State.setUpdate s a1) :=
  (Chg.putMgt h (within hs (by decide)))

theorem Chg.updateBegin (h : Chg ps r s) (hs : [Part.out, .mgt] ⊆ ps) : Chg ps r (State.updateBegin s) :=
  (Chg.ite h (Chg.ite (h.sideband (within hs (by decide))) (Chg.ite (h.sideband (within hs (by decide))) ((h.setUpdate (within hs (by decide))).sideband (within hs (by decide))))))

theorem Chg.execRequestUpdate (h : Chg ps r s) (hs : [Part.out, .mgt] ⊆ ps) : ∃ t, execRequestUpdate s = .next t ∧ Chg ps r t := by
  refine ⟨_, rfl, ?_⟩
  exact (h.updateBegin (within hs (by decide)))

theorem Chg.updateTransfer {a1 a2} (h : Chg ps r s) (hs : [Part.regs, .wide, .out, .mem, .mgt, .sec] ⊆ ps) : Chg ps r (State.updateTransfer s a1 a2) := by
  unfold State.updateTransfer
  split
  · exact h.sideband (within hs (by decide))
  · refine Chg.ite (h.sideband (within hs (by decide))) ?_
    extract_lets s1 p s2 v s3 w s4
    have h1 : Chg ps r s1 := (h.setFld (within hs (by decide))).setFld (within hs (by decide))
    have h3 : Chg ps r s3 := (h1.flashClear (a1 := p) (a2 := 0) (a3 := (a1.length + 4095) / 4096) (within hs (by decide))).putBytes (within hs (by decide))
      (fun k => ⟨k.1, k.2.1, k.2.2.1, k.2.2.2.1, smWf_cWrite k.2.2.2.2.1 _ _, k.2.2.2.2.2⟩)
    have h4 : Chg ps r s4 := Chg.putSec h3 (within hs (by decide))
    exact Chg.ite (((h4.flashWrote (within hs (by decide))).setUpdate (within hs (by decide))).sideband (within hs (by decide)))
      (((Chg.putSec h1 (within hs (by decide))).setUpdate (within hs (by decide))).sideband (within hs (by decide)))

theorem Chg.execTransferComplete {a1 a2} (h : Chg ps r s) (hs : [Part.regs, .wide, .out, .mem, .mgt, .sec] ⊆ ps) : ∃ t, execTransferComplete a1 a2 s = .next t ∧ Chg ps r t := by
  refine ⟨_, rfl, ?_⟩
  exact (Chg.ite h (h.updateTransfer (within hs (by decide))))

theorem Chg.updateApply (h : Chg ps r s) (hs : [Part.regs, .out, .mgt] ⊆ ps) : Chg ps r (State.updateApply s) := by
  unfold State.updateApply
  split
  · rename_i y0 y1
    exact (h.sideband (within hs (by decide)))
  · rename_i y2 y3 y4
    refine Chg.ite ?_ ?_
    · exact (h.sideband (within hs (by decide)))
    · extract_lets -underBinder v5 v6
      have hv5 : Chg ps r v5 := by
        unfold v5
        exact (h.setUpdate (within hs (by decide)))
      clear_value v5
      exact (Chg.ite (((hv5.setFld (within hs (by decide))).setFld (within hs (by decide))).sideband (within hs (by decide))) (hv5.sideband (within hs (by decide))))

theorem Chg.execApplyComplete (h : Chg ps r s) (hs : [Part.regs, .out, .mgt] ⊆ ps) : ∃ t, execApplyComplete s = .next t ∧ Chg ps r t := by
  refine ⟨_, rfl, ?_⟩
  exact (Chg.ite h (h.updateApply (within hs (by decide))))

theorem Chg.execFruRead {a1 a2 a3} (h : Chg ps r s) (hs : [Part.out] ⊆ ps) : ∃ t, execFruRead a1 a2 a3 s = .next t ∧ Chg ps r t := by
  refine ⟨_, rfl, ?_⟩
  exact (Chg.ite h (Chg.ite (h.emit (within hs (by decide))) (h.emit (within hs (by decide)))))

end Sys2Proof.Machine
end

