-- ==== Sys2Proof/Laws/Ctrl.lean ====
section
/-! SUPPORT. What each operation of Machine/Ctrl.lean touches at most, and that it keeps the ledgers and the byte stores in form (Chg). -/

namespace Sys2Proof.Machine

open Sys2Proof

variable {ps : List Part} {r s t : State}



theorem Chg.claimsShow (h : Chg ps r s) (hs : [Part.regs, .cad] ⊆ ps) : Chg ps r (State.claimsShow s) := by
  unfold State.claimsShow
  extract_lets -underBinder v0 v1 v2
  clear_value v0
  clear_value v1
  clear_value v2
  exact (Chg.ite h (((h.claimOuts (within hs (by decide))).claimOuts (within hs (by decide))).driveOuts (within hs (by decide))))

theorem Chg.releaseFrames {a1 a2} (h : Chg ps r s) (hs : [Part.regs, .out, .flt, .hif, .mem] ⊆ ps) : Chg ps r (State.releaseFrames s a1 a2) :=
  (Chg.foldl h (fun _ _ h0 => ((Chg.ite (h0.zeroFrame (within hs (by decide))) h0).freeFrame (within hs (by decide)))))

theorem Chg.glzEnter (h : Chg ps r s) (hs : [Part.regs, .ledgers, .mem] ⊆ ps) : Chg ps r (State.glzEnter s) := by
  unfold State.glzEnter
  refine Chg.ite ?_ ?_
  · exact h
  · extract_lets -underBinder v0 v1
    have hv0 : ∀ z0 z1 z2, Chg ps r z0 → Chg ps r (v0 z0 z1 z2) := by
      intro x2 x3 x4 h5
      unfold v0
      exact (h5.setFrames (within hs (by decide)))
    have hv1 : Chg ps r v1 := by
      unfold v1
      exact (hv0 _ _ _ h)
    clear_value v1
    exact ((Chg.foldl hv1 (fun _ _ h6 => (hv0 _ _ _ (hv0 _ _ _ h6)))).glzStart (within hs (by decide)))

theorem Chg.glzLeave (h : Chg ps r s) (hs : [Part.regs, .ledgers, .out, .flt, .ops, .hif, .mem, .srv] ⊆ ps) : Chg ps r (State.glzLeave s) := by
  unfold State.glzLeave
  extract_lets -underBinder v0
  have hv0 : Chg ps r v0 := by
    unfold v0
    exact (Chg.foldl h (fun _ _ h1 => (h1.freeSeq (within hs (by decide)))))
  clear_value v0
  exact ((hv0.dropPrefixes (within hs (by decide))).releaseFrames (within hs (by decide)))

theorem Chg.smpView {a1 a2} (h : Chg ps r s) (hs : [Part.regs, .ledgers, .srv] ⊆ ps) : Chg ps r (State.smpView s a1 a2) := by
  unfold State.smpView
  extract_lets -underBinder v0 v1 v2 v3 v4 v5
  have hv2 : Chg ps r v2 := by
    unfold v2
    exact ((h.move (within hs (by decide))).move (within hs (by decide)))
  clear_value v2
  have hv5 : Chg ps r v5 := by
    unfold v5
    exact (Chg.putSrv hv2 (within hs (by decide)))
  clear_value v5
  exact (Chg.foldl hv5 (fun _ _ h6 => (h6.setWord (within hs (by decide)))))

theorem Chg.pageEnter {a1} (h : Chg ps r s) (hs : [Part.regs, .ledgers, .out, .flt, .pow, .hif, .mem, .pan, .cad, .srv, .mur, .ing] ⊆ ps) : Chg ps r (State.pageEnter s a1) := by
  unfold State.pageEnter
  split
  · rename_i y0 y1
    exact (h.setFrames (within hs (by decide)))
  · rename_i y2 y3
    exact (h.glzEnter (within hs (by decide)))
  · rename_i y4 y5
    exact (h.frsEnter (within hs (by decide)))
  · rename_i y6 y7
    exact (((h.domStart (within hs (by decide))).votersGone (within hs (by decide))).showTrk (within hs (by decide)))
  · rename_i y8 y9
    exact (h.refStart (within hs (by decide)))
  · rename_i y10 y11
    exact (h.dipStart (within hs (by decide)))
  · rename_i y12 y13
    exact (h.portStart (within hs (by decide)))
  · rename_i y14 y15
    exact (h.routeStart (within hs (by decide)))
  · rename_i y16 y17
    split
    · rename_i y18 y19 y20 y21
      exact (h.smpView (within hs (by decide)))
    · rename_i y22 y23
      exact h
  · rename_i y24 y25 y26 y27 y28 y29 y30 y31 y32 y33
    exact h

theorem Chg.pagePause {a1} (h : Chg ps r s) (hs : [Part.regs, .ledgers, .out, .hif, .cad, .mur] ⊆ ps) : Chg ps r (State.pagePause s a1) := by
  unfold State.pagePause
  split
  · rename_i y0 y1
    exact (h.domLeave (within hs (by decide)))
  · rename_i y2 y3
    exact (Chg.ite (h.portStop (within hs (by decide))) h)
  · rename_i y4 y5 y6
    exact h

theorem Chg.ringsOff {a1 a2} (h : Chg ps r s) (hs : [Part.regs] ⊆ ps) : Chg ps r (State.ringsOff s a1 a2) :=
  (Chg.foldl h (fun _ _ h0 => (h0.ringOff (within hs (by decide)))))

theorem Chg.vCloseEngine {a1} (h : Chg ps r s) (hs : [Part.regs, .ledgers, .ops, .vce] ⊆ ps) : Chg ps r (State.vCloseEngine s a1) :=
  (Chg.foldl h (fun _ _ h0 => (h0.vClose (within hs (by decide)))))

theorem Chg.pageLeave {a1} (h : Chg ps r s) (hs : [Part.free, .regs, .ledgers, .out, .flt, .pow, .ops, .hif, .mem, .pan, .cad, .srv, .vce, .mur, .ing] ⊆ ps) : Chg ps r (State.pageLeave s a1) := by
  unfold State.pageLeave
  split
  · rename_i y0 y1
    exact (h.releaseFrames (within hs (by decide)))
  · rename_i y2 y3
    exact (h.glzLeave (within hs (by decide)))
  · rename_i y4 y5
    exact ((h.showTrk (within hs (by decide))).claimsShow (within hs (by decide)))
  · rename_i y6 y7
    exact (h.claimsShow (within hs (by decide)))
  · rename_i y8 y9
    exact (h.strPageOff (within hs (by decide)))
  · rename_i y10 y11
    exact (h.strPageOff (within hs (by decide)))
  · rename_i y12 y13
    exact ((h.vCloseEngine (within hs (by decide))).strPageOff (within hs (by decide)))
  · rename_i y14 y15
    exact (h.portStop (within hs (by decide)))
  · rename_i y16 y17
    split
    · rename_i y18 y19 y20 y21
      exact (h.smpView (within hs (by decide)))
    · rename_i y22 y23
      exact h
  · rename_i y24 y25
    split
    · rename_i y26 y27 y28 y29
      exact (h.ringsOff (within hs (by decide)))
    · rename_i y30 y31
      exact h
  · rename_i y32 y33 y34 y35 y36 y37 y38 y39 y40 y41 y42
    exact h

theorem Chg.mirrorTen {a1} (h : Chg ps r s) (hs : [Part.regs] ⊆ ps) : Chg ps r (State.mirrorTen s a1) :=
  (Chg.ite ((h.setWord (within hs (by decide))).setWord (within hs (by decide))) h)

theorem Chg.checkStart {a1} (h : Chg ps r s) (hs : [Part.regs, .out, .hif, .cad] ⊆ ps) : Chg ps r (State.checkStart s a1) := by
  unfold State.checkStart
  extract_lets -underBinder v0 v1 v2
  have hv0 : Chg ps r v0 := by
    unfold v0
    exact (((h.setFld (within hs (by decide))).setFld (within hs (by decide))).setSt (within hs (by decide)))
  clear_value v0
  clear_value v1
  have hv2 : Chg ps r v2 := by
    unfold v2
    exact (Chg.putHif hv0 (within hs (by decide)))
  clear_value v2
  exact ((hv2.claimsShow (within hs (by decide))).mirrorTen (within hs (by decide)))

theorem Chg.triRecord {a1 a2 a3} (h : Chg ps r s) (hs : [Part.regs] ⊆ ps) : Chg ps r (State.triRecord s a1 a2 a3) := by
  unfold State.triRecord
  refine Chg.ite ?_ ?_
  · split
    · rename_i y0 y1 y2
      exact (((h.setFld (within hs (by decide))).setFld (within hs (by decide))).setFld (within hs (by decide)))
    · rename_i y3 y4
      exact h
  · exact h

theorem Chg.readmitClose {a1 a2} (h : Chg ps r s) (hs : [Part.regs, .out, .flt, .hif] ⊆ ps) : Chg ps r (State.readmitClose s a1 a2) := by
  unfold State.readmitClose
  split
  · rename_i y0 y1 y2 y3
    refine Chg.ite ?_ ?_
    · extract_lets -underBinder v4
      have hv4 : Chg ps r v4 := by
        unfold v4
        exact (h.closeRec (within hs (by decide)))
      clear_value v4
      exact (hv4.journal (within hs (by decide)))
    · exact h
  · rename_i y5 y6
    exact h

theorem Chg.checkEnd {a1} (h : Chg ps r s) (hs : [Part.free, .regs, .ledgers, .out, .flt, .pow, .ops, .hif, .mem, .pan, .cad, .srv, .vce, .mur, .ing] ⊆ ps) : Chg ps r (State.checkEnd s a1) := by
  unfold State.checkEnd
  refine Chg.ite ?_ ?_
  · exact h
  · split
    · rename_i y0 y1
      exact ((((h.setSt (within hs (by decide))).pageEnter (within hs (by decide))).readmitClose (within hs (by decide))).mirrorTen (within hs (by decide)))
    · rename_i y2 y3 y4 y5
      extract_lets -underBinder v6
      have hv6 : Chg ps r v6 := by
        unfold v6
        exact (((h.setFld (within hs (by decide))).setFld (within hs (by decide))).setFld (within hs (by decide)))
      clear_value v6
      exact ((((((hv6.setSt (within hs (by decide))).triRecord (within hs (by decide))).pageLeave (within hs (by decide))).claimsShow (within hs (by decide))).readmitClose (within hs (by decide))).mirrorTen (within hs (by decide)))

theorem Chg.quiesceStart {a1} (h : Chg ps r s) (hs : [Part.regs, .ledgers, .out, .hif, .cad, .mur] ⊆ ps) : Chg ps r (State.quiesceStart s a1) := by
  unfold State.quiesceStart
  extract_lets -underBinder v0 v1
  have hv0 : Chg ps r v0 := by
    unfold v0
    exact (h.setSt (within hs (by decide)))
  clear_value v0
  exact (((Chg.putHif hv0 (within hs (by decide))).pagePause (within hs (by decide))).mirrorTen (within hs (by decide)))

theorem Chg.enableWrite {a1 a2 a3} (h : Chg ps r s) (hs : [Part.free, .regs, .ledgers, .out, .flt, .pow, .ops, .hif, .mem, .pan, .cad, .srv, .vce, .mur, .ing] ⊆ ps) : Chg ps r (State.enableWrite s a1 a2 a3) := by
  unfold State.enableWrite
  extract_lets -underBinder v0 v1
  have hv1 : ∀ z0, Chg ps r z0 → Chg ps r (v1 z0) := by
    intro x2 h3
    unfold v1
    exact ((h3.setFld (within hs (by decide))).setFld (within hs (by decide)))
  exact (Chg.ite (Chg.ite ((hv1 _ h).checkStart (within hs (by decide))) (h.discard (within hs (by decide)))) (Chg.ite (((((hv1 _ h).setSt (within hs (by decide))).pageLeave (within hs (by decide))).claimsShow (within hs (by decide))).mirrorTen (within hs (by decide))) (Chg.ite ((hv1 _ h).quiesceStart (within hs (by decide))) (h.discard (within hs (by decide))))))

theorem Chg.pageResume {a1} (h : Chg ps r s) (hs : [Part.regs, .ledgers, .out, .flt, .pow, .hif, .mem, .pan, .cad, .srv, .mur, .ing] ⊆ ps) : Chg ps r (State.pageResume s a1) := by
  unfold State.pageResume
  split
  · rename_i y0 y1
    exact (h.pageEnter (within hs (by decide)))
  · rename_i y2 y3
    exact (h.pageEnter (within hs (by decide)))
  · rename_i y4 y5 y6
    exact h

theorem Chg.quiesceWrite {a1 a2} (h : Chg ps r s) (hs : [Part.regs, .ledgers, .out, .flt, .pow, .hif, .mem, .pan, .cad, .srv, .mur, .ing] ⊆ ps) : Chg ps r (State.quiesceWrite s a1 a2) :=
  (Chg.ite (h.discard (within hs (by decide))) (Chg.ite ((h.setFld (within hs (by decide))).quiesceStart (within hs (by decide))) ((((h.setFld (within hs (by decide))).setSt (within hs (by decide))).pageResume (within hs (by decide))).mirrorTen (within hs (by decide)))))

theorem Chg.regsReset {a1} (h : Chg ps r s) (hs : [Part.regs, .wide, .rsv] ⊆ ps) : Chg ps r (State.regsReset s a1) := by
  unfold State.regsReset
  extract_lets lock keep mine s1
  have h1 : Chg ps r s1 := Chg.putRsv (x := s.rsv.filter _) (Chg.putWide (x := s.wide.filter _) (Chg.putRegs (x := s.regs.filter _)
    h (within hs (by decide))) (within hs (by decide))) (within hs (by decide))
  exact Chg.ite (h1.setFld (within hs (by decide))) h1

theorem Chg.blockReset {a1} (h : Chg ps r s) (hs : [Part.free, .regs, .ledgers, .out, .flt, .pow, .ops, .hif, .mem, .pan, .cad, .srv, .vce, .mur, .ing] ⊆ ps) : Chg ps r (State.blockReset s a1) := by
  unfold State.blockReset
  extract_lets -underBinder v0
  have hv0 : Chg ps r v0 := by
    unfold v0
    exact (h.pageLeave (within hs (by decide)))
  clear_value v0
  split
  · rename_i y1 y2
    exact (hv0.setDom (within hs (by decide)))
  · rename_i y3 y4
    exact (hv0.setRef (within hs (by decide)))
  · rename_i y5 y6
    exact (Chg.foldl hv0 (fun _ _ h7 => (h7.jobsShut (within hs (by decide)))))
  · rename_i y8 y9
    exact (Chg.putMur hv0 (within hs (by decide)))
  · rename_i y10 y11
    exact (Chg.foldl hv0 (fun _ _ h12 => (Chg.ite h12 ((h12.memZero (within hs (by decide))).move (within hs (by decide))))))
  · rename_i y13 y14 y15 y16 y17 y18
    exact hv0

theorem Chg.softReset {a1} (h : Chg ps r s) (hs : [Part.free, .regs, .wide, .rsv, .ledgers, .out, .flt, .pow, .ops, .hif, .mem, .pan, .cad, .srv, .vce, .mur, .ing] ⊆ ps) : Chg ps r (State.softReset s a1) := by
  unfold State.softReset
  extract_lets -underBinder v0 v1 v2 v3 v4 v5
  have hv2 : Chg ps r v2 := by
    unfold v2
    exact (Chg.foldl ((h.blockReset (within hs (by decide))).regsReset (within hs (by decide))) (fun _ _ h6 => (h6.regsReset (within hs (by decide)))))
  clear_value v2
  have hv3 : Chg ps r v3 := by
    unfold v3
    exact (Chg.ite hv2 (hv2.event (within hs (by decide))))
  clear_value v3
  have hv4 : Chg ps r v4 := by
    unfold v4
    exact (Chg.ite ((hv3.setFld (within hs (by decide))).setFld (within hs (by decide))) hv3)
  clear_value v4
  clear_value v5
  exact (Chg.ite (((hv4.setRcv (within hs (by decide))).claimsShow (within hs (by decide))).mirrorTen (within hs (by decide))) (h.discard (within hs (by decide))))

theorem Chg.ctrlWrite {a1 a2} (h : Chg ps r s) (hs : [Part.free, .regs, .wide, .rsv, .ledgers, .out, .flt, .pow, .ops, .hif, .mem, .pan, .cad, .srv, .vce, .mur, .ing] ⊆ ps) : Chg ps r (State.ctrlWrite s a1 a2) := by
  unfold State.ctrlWrite
  extract_lets -underBinder v0 v1 v2 v3 v4 v5 v6 v7
  have hv0 : Chg ps r v0 := by
    unfold v0
    exact (h.noteRsv (within hs (by decide)))
  clear_value v0
  clear_value v1
  clear_value v2
  clear_value v3
  clear_value v5
  have hv6 : Chg ps r v6 := by
    unfold v6
    exact (Chg.ite (hv0.setFld (within hs (by decide))) hv0)
  clear_value v6
  clear_value v7
  exact (Chg.ite hv0 (Chg.ite (hv0.softReset (within hs (by decide))) (Chg.ite hv6 (Chg.ite (hv6.discard (within hs (by decide))) (Chg.ite (hv6.quiesceWrite (within hs (by decide))) (hv6.enableWrite (within hs (by decide))))))))

theorem Chg.ctrlBit {a1 a2} (h : Chg ps r s) (hs : [Part.free, .regs, .wide, .rsv, .ledgers, .out, .flt, .pow, .ops, .hif, .mem, .pan, .cad, .srv, .vce, .mur, .ing] ⊆ ps) : Chg ps r (State.ctrlBit s a1 a2) :=
  (h.access (fun _ _ h0 => (h0.ctrlWrite (within hs (by decide)))) (within hs (by decide)))

theorem Chg.execEnable {a1} (h : Chg ps r s) (hs : [Part.free, .regs, .wide, .rsv, .ledgers, .out, .flt, .pow, .ops, .hif, .mem, .pan, .cad, .srv, .vce, .mur, .ing] ⊆ ps) : ∃ t, execEnable a1 s = .next t ∧ Chg ps r t := by
  refine ⟨_, rfl, ?_⟩
  exact (h.ctrlBit (within hs (by decide)))

theorem Chg.execDisable {a1} (h : Chg ps r s) (hs : [Part.free, .regs, .wide, .rsv, .ledgers, .out, .flt, .pow, .ops, .hif, .mem, .pan, .cad, .srv, .vce, .mur, .ing] ⊆ ps) : ∃ t, execDisable a1 s = .next t ∧ Chg ps r t := by
  refine ⟨_, rfl, ?_⟩
  exact (h.ctrlBit (within hs (by decide)))

theorem Chg.execQuiesce {a1} (h : Chg ps r s) (hs : [Part.free, .regs, .wide, .rsv, .ledgers, .out, .flt, .pow, .ops, .hif, .mem, .pan, .cad, .srv, .vce, .mur, .ing] ⊆ ps) : ∃ t, execQuiesce a1 s = .next t ∧ Chg ps r t := by
  refine ⟨_, rfl, ?_⟩
  exact (h.ctrlBit (within hs (by decide)))

theorem Chg.execQuiesceClear {a1} (h : Chg ps r s) (hs : [Part.free, .regs, .wide, .rsv, .ledgers, .out, .flt, .pow, .ops, .hif, .mem, .pan, .cad, .srv, .vce, .mur, .ing] ⊆ ps) : ∃ t, execQuiesceClear a1 s = .next t ∧ Chg ps r t := by
  refine ⟨_, rfl, ?_⟩
  exact (h.ctrlBit (within hs (by decide)))

theorem Chg.execSoftReset {a1} (h : Chg ps r s) (hs : [Part.free, .regs, .wide, .rsv, .ledgers, .out, .flt, .pow, .ops, .hif, .mem, .pan, .cad, .srv, .vce, .mur, .ing] ⊆ ps) : ∃ t, execSoftReset a1 s = .next t ∧ Chg ps r t := by
  refine ⟨_, rfl, ?_⟩
  exact (h.ctrlBit (within hs (by decide)))

theorem Chg.execLockPage {a1} (h : Chg ps r s) (hs : [Part.free, .regs, .wide, .rsv, .ledgers, .out, .flt, .pow, .ops, .hif, .mem, .pan, .cad, .srv, .vce, .mur, .ing] ⊆ ps) : ∃ t, execLockPage a1 s = .next t ∧ Chg ps r t := by
  refine ⟨_, rfl, ?_⟩
  exact (h.ctrlBit (within hs (by decide)))

theorem Chg.forceOut {a1} (h : Chg ps r s) (hs : [Part.free, .regs, .ledgers, .out, .flt, .pow, .ops, .hif, .mem, .pan, .cad, .srv, .vce, .mur, .ing] ⊆ ps) : Chg ps r (State.forceOut s a1) := by
  unfold State.forceOut
  extract_lets -underBinder v0
  have hv0 : ∀ z0, Chg ps r z0 → Chg ps r (v0 z0) := by
    intro x1 h2
    unfold v0
    exact (h2.setFld (within hs (by decide)))
  exact (Chg.ite (((((hv0 _ h).setSt (within hs (by decide))).pageLeave (within hs (by decide))).claimsShow (within hs (by decide))).mirrorTen (within hs (by decide))) (Chg.ite ((hv0 _ h).quiesceStart (within hs (by decide))) (Chg.ite (hv0 _ h) h)))

theorem Chg.pnlFollow {a1} (h : Chg ps r s) (hs : [Part.free, .regs, .ledgers, .out, .flt, .pow, .ops, .hif, .mem, .pan, .cad, .srv, .vce, .mur, .ing] ⊆ ps) : Chg ps r (State.pnlFollow s a1) := by
  unfold State.pnlFollow
  extract_lets -underBinder v0
  exact (Chg.ite (Chg.foldl h (fun _ _ h1 => (h1.forceOut (within hs (by decide))))) h)

theorem Chg.drainEnd {a1} (h : Chg ps r s) (hs : [Part.free, .regs, .ledgers, .out, .flt, .pow, .ops, .hif, .mem, .pan, .cad, .srv, .vce, .mur, .ing] ⊆ ps) : Chg ps r (State.drainEnd s a1) := by
  unfold State.drainEnd
  refine Chg.ite ?_ ?_
  · exact h
  · extract_lets -underBinder v0 v1 v2 v3
    have hv1 : Chg ps r v1 := by
      unfold v1
      exact (Chg.ite h ((Chg.putHif h (within hs (by decide))).event (within hs (by decide))))
    clear_value v1
    have hv3 : Chg ps r v3 := by
      unfold v3
      exact (Chg.putHif hv1 (within hs (by decide)))
    clear_value v3
    exact (Chg.ite hv1 ((((((hv3.setFld (within hs (by decide))).setSt (within hs (by decide))).pageLeave (within hs (by decide))).claimsShow (within hs (by decide))).mirrorTen (within hs (by decide))).pnlFollow (within hs (by decide))))

theorem Chg.execQuiesced {a1 a2} (h : Chg ps r s) (hs : [Part.free, .time, .regs, .ledgers, .out, .flt, .pow, .ops, .hif, .mem, .pan, .cad, .srv, .vce, .mur, .ing] ⊆ ps) : ∃ t, execQuiesced a1 a2 s = .next t ∧ Chg ps r t := by
  refine ⟨_, rfl, ?_⟩
  exact (Chg.ite h ((h.at (within hs (by decide))).drainEnd (within hs (by decide))))

theorem Chg.execReadmitted {a1 a2} (h : Chg ps r s) (hs : [Part.time, .regs, .out, .flt, .hif, .cad] ⊆ ps) : ∃ t, execReadmitted a1 a2 s = .next t ∧ Chg ps r t := by
  unfold Sys2Proof.Machine.execReadmitted
  extract_lets v0 v1 v2 v3
  clear_value v0
  have hv1 : Chg ps r v1 := by
    unfold v1
    exact (h.at (within hs (by decide)))
  clear_value v1
  clear_value v2
  have hv3 : Chg ps r v3 := by
    unfold v3
    exact ((hv1.setRcv (within hs (by decide))).event (within hs (by decide)))
  clear_value v3
  refine ⟨_, rfl, ?_⟩
  exact (Chg.ite h (hv3.checkStart (within hs (by decide))))

end Sys2Proof.Machine
end

