-- ==== Sys2Proof/Laws/Tenant.lean ====
section
/-! SUPPORT. What each operation of Machine/Tenant.lean touches at most, and that it keeps the ledgers and the byte stores in form (Chg). -/

namespace Sys2Proof.Machine

open Sys2Proof

variable {ps : List Part} {r s t : State}



theorem Chg.tenState {a1 a2} (h : Chg ps r s) (hs : [Part.regs, .out, .hif] ⊆ ps) : Chg ps r (State.tenState s a1 a2) := by
  unfold State.tenState
  extract_lets -underBinder v0 v1 v2 v3
  clear_value v1
  have hv2 : Chg ps r v2 := by
    unfold v2
    exact (h.setTenant (within hs (by decide)))
  clear_value v2
  have hv3 : Chg ps r v3 := by
    unfold v3
    exact (((hv2.setFld (within hs (by decide))).setFld (within hs (by decide))).setFld (within hs (by decide)))
  clear_value v3
  exact (Chg.ite h ((hv3.setSt (within hs (by decide))).event (within hs (by decide))))

theorem Chg.tdisp {a1 a2 a3} (h : Chg ps r s) (hs : [Part.out] ⊆ ps) : Chg ps r (State.tdisp s a1 a2 a3) :=
  (h.emit (within hs (by decide)))

theorem Chg.tdiDrop {a1} (h : Chg ps r s) (hs : [Part.sec] ⊆ ps) : Chg ps r (State.tdiDrop s a1) :=
  (Chg.putSec h (within hs (by decide)))

theorem Chg.setTdi {a1 a2} (h : Chg ps r s) (hs : [Part.hif] ⊆ ps) : Chg ps r (State.setTdi s a1 a2) :=
  (h.setTenant (within hs (by decide)))

theorem Chg.stopAnswer {a1} (h : Chg ps r s) (hs : [Part.out, .hif, .sec] ⊆ ps) : Chg ps r (State.stopAnswer s a1) :=
  (Chg.ite (((Chg.putSec h (within hs (by decide))).setTdi (within hs (by decide))).tdisp (within hs (by decide))) h)

theorem Chg.tenOff {a1} (h : Chg ps r s) (hs : [Part.regs, .out, .hif, .sec] ⊆ ps) : Chg ps r (State.tenOff s a1) :=
  ((h.tenState (within hs (by decide))).stopAnswer (within hs (by decide)))

theorem Chg.depsOut {a1} (h : Chg ps r s) (hs : [Part.free, .regs, .ledgers, .out, .flt, .pow, .ops, .hif, .mem, .pan, .cad, .srv, .vce, .mur, .ing] ⊆ ps) : Chg ps r (State.depsOut s a1) := by
  unfold State.depsOut
  extract_lets -underBinder v0
  have hv0 : Chg ps r v0 := by
    unfold v0
    exact (Chg.foldl h (fun _ _ h1 => (h1.forceOut (within hs (by decide)))))
  clear_value v0
  exact (Chg.foldl hv0 (fun _ _ h2 => (h2.forceOut (within hs (by decide)))))

theorem Chg.redirect {a1} (h : Chg ps r s) (hs : [Part.ops] ⊆ ps) : Chg ps r (State.redirect s a1) := by
  unfold State.redirect
  refine Chg.foldl ?_ (fun a1 x2 h3 => ?_)
  · exact h
  · refine Chg.ite ?_ ?_
    · exact h3
    · extract_lets -underBinder v4 v5 v6
      clear_value v4
      clear_value v5
      have hv6 : Chg ps r v6 := by
        unfold v6
        exact (h3.setCq (within hs (by decide)))
      clear_value v6
      exact (Chg.foldl hv6 (fun _ _ h7 => (h7.postDue (within hs (by decide)))))

theorem Chg.opStop {a1 a2} (h : Chg ps r s) (hs : [Part.regs, .ledgers, .ops, .pan] ⊆ ps) : Chg ps r (State.opStop s a1 a2) := by
  unfold State.opStop
  split
  · rename_i y0 y1
    exact (((h.reclaimSlots (within hs (by decide))).setOp (within hs (by decide))).opEnd (within hs (by decide)))
  · rename_i y2 y3
    extract_lets -underBinder v4 v5 v6 v7
    clear_value v4
    have hv5 : Chg ps r v5 := by
      unfold v5
      exact ((h.reclaimSlots (within hs (by decide))).setOp (within hs (by decide)))
    clear_value v5
    have hv6 : Chg ps r v6 := by
      unfold v6
      exact (Chg.ite (hv5.setOp (within hs (by decide))) hv5)
    clear_value v6
    have hv7 : Chg ps r v7 := by
      unfold v7
      exact (hv6.dropParts (within hs (by decide)))
    clear_value v7
    exact (Chg.ite hv7 (hv7.opEnd (within hs (by decide))))
  · rename_i y8 y9 y10
    exact h

theorem Chg.seqStop {a1} (h : Chg ps r s) (hs : [Part.ledgers, .ops, .srv] ⊆ ps) : Chg ps r (State.seqStop s a1) := by
  unfold State.seqStop
  split
  · rename_i y0 y1
    exact h
  · rename_i y2 y3 y4
    extract_lets -underBinder v5 v6 v7 v8
    have hv5 : Chg ps r v5 := by
      unfold v5
      split
      · rename_i y9 y10 y11
        exact (h.postReq (within hs (by decide)))
      · rename_i y12 y13
        exact h
    clear_value v5
    have hv6 : Chg ps r v6 := by
      unfold v6
      split
      · rename_i y14 y15 y16
        exact (hv5.postReq (within hs (by decide)))
      · rename_i y17 y18
        exact hv5
    clear_value v6
    have hv7 : Chg ps r v7 := by
      unfold v7
      exact (Chg.ite hv6 (hv6.move (within hs (by decide))))
    clear_value v7
    have hv8 : Chg ps r v8 := by
      unfold v8
      exact (hv7.setSeq (within hs (by decide)))
    clear_value v8
    exact (Chg.ite (hv8.genEnd (within hs (by decide))) hv8)

theorem Chg.reqsStop {a1} (h : Chg ps r s) (hs : [Part.ops, .srv] ⊆ ps) : Chg ps r (State.reqsStop s a1) := by
  unfold State.reqsStop
  extract_lets -underBinder v0 v1 v2
  clear_value v0
  have hv2 : Chg ps r v2 := by
    unfold v2
    exact (Chg.putSrv h (within hs (by decide)))
  clear_value v2
  exact (Chg.foldl hv2 (fun _ _ h3 => (h3.postReq (within hs (by decide)))))

theorem Chg.tenQuiesce {a1} (h : Chg ps r s) (hs : [Part.free, .regs, .ledgers, .out, .flt, .pow, .ops, .hif, .mem, .pan, .cad, .srv, .vce, .mur, .ing] ⊆ ps) : Chg ps r (State.tenQuiesce s a1) := by
  unfold State.tenQuiesce
  extract_lets -underBinder v0 v1 v2 v3 v4 v5 v6 v7
  clear_value v0
  have hv1 : Chg ps r v1 := by
    unfold v1
    exact ((h.setTenant (within hs (by decide))).tenState (within hs (by decide)))
  clear_value v1
  have hv2 : Chg ps r v2 := by
    unfold v2
    exact (hv1.redirect (within hs (by decide)))
  clear_value v2
  have hv3 : Chg ps r v3 := by
    unfold v3
    split
    · rename_i y8 y9 y10
      exact (Chg.ite ((Chg.putHif hv2 (within hs (by decide))).mmuEnd (within hs (by decide))) hv2)
    · rename_i y11 y12
      exact hv2
  clear_value v3
  have hv4 : Chg ps r v4 := by
    unfold v4
    exact ((hv3.jobsShut (within hs (by decide))).vCloseAll (within hs (by decide)))
  clear_value v4
  have hv5 : Chg ps r v5 := by
    unfold v5
    refine Chg.foldl ?_ (fun a14 x15 h16 => ?_)
    · exact hv4
    · split
      · rename_i y17 y18 y19
        exact (h16.opStop (within hs (by decide)))
      · rename_i y20 y21
        exact h16
  clear_value v5
  have hv6 : Chg ps r v6 := by
    unfold v6
    exact (hv5.reqsStop (within hs (by decide)))
  clear_value v6
  have hv7 : Chg ps r v7 := by
    unfold v7
    exact (Chg.foldl hv6 (fun _ _ h22 => (h22.seqStop (within hs (by decide)))))
  clear_value v7
  exact (((hv7.strTenantOff (within hs (by decide))).srvSweep (within hs (by decide))).vSweep (within hs (by decide)))

theorem Chg.tenStop {a1 a2} (h : Chg ps r s) (hs : [Part.free, .regs, .ledgers, .out, .flt, .pow, .ops, .hif, .mem, .pan, .cad, .srv, .vce, .mur, .ing, .sec] ⊆ ps) : Chg ps r (State.tenStop s a1 a2) := by
  unfold State.tenStop
  extract_lets -underBinder v0
  exact (Chg.ite (h.tenOff (within hs (by decide))) (Chg.ite ((Chg.ite (h.depsOut (within hs (by decide))) h).tenQuiesce (within hs (by decide))) h))

theorem Chg.tdiError {a1} (h : Chg ps r s) (hs : [Part.free, .regs, .ledgers, .out, .flt, .pow, .ops, .hif, .mem, .pan, .cad, .srv, .vce, .mur, .ing, .sec] ⊆ ps) : Chg ps r (State.tdiError s a1) :=
  (Chg.ite (((h.setTdi (within hs (by decide))).tdiDrop (within hs (by decide))).tenStop (within hs (by decide))) h)

theorem Chg.tdiErrors (h : Chg ps r s) (hs : [Part.free, .regs, .ledgers, .out, .flt, .pow, .ops, .hif, .mem, .pan, .cad, .srv, .vce, .mur, .ing, .sec] ⊆ ps) : Chg ps r (State.tdiErrors s) :=
  (Chg.foldl h (fun _ _ h0 => (h0.tdiError (within hs (by decide)))))

theorem Chg.tenCmd {a1} (h : Chg ps r s) (hs : [Part.free, .regs, .rsv, .ledgers, .out, .flt, .pow, .ops, .hif, .mem, .pan, .cad, .srv, .vce, .mur, .ing, .sec] ⊆ ps) : Chg ps r (State.tenCmd s a1) := by
  unfold State.tenCmd
  extract_lets -underBinder v0 v1 v2 v3 v4 v5
  have hv2 : Chg ps r v2 := by
    unfold v2
    exact (h.noteRsv (within hs (by decide)))
  clear_value v2
  clear_value v3
  have hv5 : Chg ps r v5 := by
    unfold v5
    exact (Chg.putHif hv2 (within hs (by decide)))
  clear_value v5
  exact (Chg.ite hv2 (Chg.ite (hv2.discard (within hs (by decide))) (Chg.ite ((hv5.setTenant (within hs (by decide))).tenState (within hs (by decide))) (Chg.ite (Chg.ite (((hv2.setTdi (within hs (by decide))).tdiDrop (within hs (by decide))).tenStop (within hs (by decide))) (hv2.tenStop (within hs (by decide)))) (hv2.discard (within hs (by decide)))))))

theorem Chg.execTenantEnable {a1 a2} (h : Chg ps r s) (hs : [Part.free, .time, .regs, .rsv, .ledgers, .out, .flt, .pow, .ops, .hif, .mem, .pan, .cad, .srv, .vce, .mur, .ing, .sec] ⊆ ps) : ∃ t, execTenantEnable a1 a2 s = .next t ∧ Chg ps r t := by
  refine ⟨_, rfl, ?_⟩
  exact (h.via (fun _ h0 => ((h0.at (within hs (by decide))).tenCmd (within hs (by decide)))) (within hs (by decide)))

theorem Chg.execTenantDisable {a1 a2} (h : Chg ps r s) (hs : [Part.free, .time, .regs, .rsv, .ledgers, .out, .flt, .pow, .ops, .hif, .mem, .pan, .cad, .srv, .vce, .mur, .ing, .sec] ⊆ ps) : ∃ t, execTenantDisable a1 a2 s = .next t ∧ Chg ps r t := by
  refine ⟨_, rfl, ?_⟩
  exact (h.via (fun _ h0 => ((h0.at (within hs (by decide))).tenCmd (within hs (by decide)))) (within hs (by decide)))

theorem Chg.zeroArea {a1} (h : Chg ps r s) (hs : [Part.mem] ⊆ ps) : Chg ps r (State.zeroArea s a1) :=
  (Chg.foldl h (fun _ _ h0 => (h0.zeroFrame (within hs (by decide)))))

theorem Chg.tenStart {a1} (h : Chg ps r s) (hs : [Part.free, .ledgers, .ops, .hif, .mem, .srv] ⊆ ps) : Chg ps r (State.tenStart s a1) := by
  unfold State.tenStart
  extract_lets -underBinder v0 v1 v2 v3 v4 v5 v6
  clear_value v1
  have hv2 : Chg ps r v2 := by
    unfold v2
    exact ((h.move (within hs (by decide))).setTenant (within hs (by decide)))
  clear_value v2
  have hv4 : Chg ps r v4 := by
    unfold v4
    exact (hv2.used (within hs (by decide)))
  clear_value v4
  have hv6 : Chg ps r v6 := by
    unfold v6
    exact (Chg.ite hv2 (Chg.putSrv hv4 (within hs (by decide))))
  clear_value v6
  exact (((hv6.zeroCounters (within hs (by decide))).zeroArea (within hs (by decide))).zeroArea (within hs (by decide)))

theorem Chg.tenCheckEnd {a1} (h : Chg ps r s) (hs : [Part.free, .regs, .ledgers, .out, .ops, .hif, .mem, .srv] ⊆ ps) : Chg ps r (State.tenCheckEnd s a1) := by
  unfold State.tenCheckEnd
  refine Chg.ite ?_ ?_
  · exact h
  · split
    · rename_i y0 y1
      exact ((h.tenStart (within hs (by decide))).tenState (within hs (by decide)))
    · rename_i y2 y3 y4 y5
      exact ((h.setTenant (within hs (by decide))).tenState (within hs (by decide)))

theorem Chg.execEnableCheckEnd {a1 a2} (h : Chg ps r s) (hs : [Part.free, .time, .regs, .ledgers, .out, .flt, .pow, .ops, .hif, .mem, .pan, .cad, .srv, .vce, .mur, .ing] ⊆ ps) : ∃ t, execEnableCheckEnd a1 a2 s = .next t ∧ Chg ps r t := by
  refine ⟨_, rfl, ?_⟩
  split
  · rename_i y0 y1
    exact (Chg.ite h ((h.at (within hs (by decide))).checkEnd (within hs (by decide))))
  · rename_i y2 y3
    exact ((h.at (within hs (by decide))).tenCheckEnd (within hs (by decide)))

theorem Chg.tenServeOut {a1} (h : Chg ps r s) (hs : [Part.regs, .ledgers, .ops, .srv] ⊆ ps) : Chg ps r (State.tenServeOut s a1) := by
  unfold State.tenServeOut
  extract_lets -underBinder v0 v1 v2 v3 v4 v5 v6 v7 v8 v9 v10 v11
  have hv0 : Chg ps r v0 := by
    unfold v0
    exact (Chg.foldl h (fun _ _ h12 => (Chg.ite (h12.stepFail (within hs (by decide))) h12)))
  clear_value v0
  have hv1 : Chg ps r v1 := by
    unfold v1
    exact (Chg.foldl hv0 (fun _ _ h13 => (Chg.ite (h13.dropRest (within hs (by decide))) h13)))
  clear_value v1
  have hv2 : Chg ps r v2 := by
    unfold v2
    exact (Chg.foldl hv1 (fun _ _ h14 => (h14.freeSeq (within hs (by decide)))))
  clear_value v2
  have hv3 : Chg ps r v3 := by
    unfold v3
    exact (hv2.dropPrefixes (within hs (by decide)))
  clear_value v3
  clear_value v4
  clear_value v5
  have hv7 : Chg ps r v7 := by
    unfold v7
    exact (Chg.putSrv hv3 (within hs (by decide)))
  clear_value v7
  have hv9 : Chg ps r v9 := by
    unfold v9
    exact ((hv7.reclaim (within hs (by decide))).reclaim (within hs (by decide)))
  clear_value v9
  exact (Chg.putSrv hv9 (within hs (by decide)))

theorem Chg.tenPanelsOut {a1} (h : Chg ps r s) (hs : [Part.regs, .mem, .pan] ⊆ ps) : Chg ps r (State.tenPanelsOut s a1) := by
  unfold State.tenPanelsOut
  extract_lets s1
  have h1 : Chg ps r s1 := h.foldl (fun _ _ ha => Chg.ite ((ha.palZero (within hs (by decide))).storesZero (within hs (by decide)))
    (Chg.ite (((ha.palZero (within hs (by decide))).storesZero (within hs (by decide))).setFld (within hs (by decide))) ha))
  exact h1.putSaved (within hs (by decide)) (fun k e he => k.2.2.2.2.2 e (List.mem_of_mem_filter he))

theorem Chg.tenBanksOut {a1} (h : Chg ps r s) (hs : [Part.regs, .ledgers, .out, .hif, .mem] ⊆ ps) : Chg ps r (State.tenBanksOut s a1) := by
  unfold State.tenBanksOut
  refine Chg.foldl ?_ (fun a1 x2 h3 => ?_)
  · exact h
  · refine Chg.ite ?_ ?_
    · exact ((Chg.ite h3 (h3.handoverStart (within hs (by decide)))).handoverEnd (within hs (by decide)))
    · split
      · rename_i y4 y5 y6
        refine Chg.ite ?_ ?_
        · exact (Chg.putMem h3 (within hs (by decide)) ⟨rfl, rfl, rfl, rfl, rfl⟩)
        · exact h3
      · rename_i y7 y8
        exact h3

theorem Chg.tenMemoryOut {a1} (h : Chg ps r s) (hs : [Part.regs, .out, .flt, .hif, .mem] ⊆ ps) : Chg ps r (State.tenMemoryOut s a1) := by
  unfold State.tenMemoryOut
  extract_lets -underBinder v0 v1 v2
  have hv2 : Chg ps r v2 := by
    unfold v2
    exact (Chg.putHif h (within hs (by decide)))
  clear_value v2
  exact (Chg.foldl hv2 (fun _ _ h3 => ((Chg.ite (h3.zeroFrame (within hs (by decide))) h3).freeFrame (within hs (by decide)))))

theorem Chg.tenTagsOut {a1} (h : Chg ps r s) (hs : [Part.regs, .ledgers, .ops] ⊆ ps) : Chg ps r (State.tenTagsOut s a1) := by
  unfold State.tenTagsOut
  refine Chg.foldl ?_ (fun a1 x2 h3 => ?_)
  · exact h
  · extract_lets -underBinder v4 v5 v6
    have hv4 : Chg ps r v4 := by
      unfold v4
      split
      · rename_i y7 y8 y9 y10 y11 y12
        exact (h3.reclaim (within hs (by decide)))
      · rename_i y13 y14 y15 y16 y17 y18
        exact (h3.reclaim (within hs (by decide)))
      · rename_i y19 y20 y21 y22
        exact h3
    clear_value v4
    have hv5 : Chg ps r v5 := by
      unfold v5
      exact ((hv4.dropOp (within hs (by decide))).reclaim (within hs (by decide)))
    clear_value v5
    exact (Chg.putOps hv5 (within hs (by decide)))

theorem Chg.tenRingsOut {a1} (h : Chg ps r s) (hs : [Part.regs, .ops] ⊆ ps) : Chg ps r (State.tenRingsOut s a1) := by
  unfold State.tenRingsOut
  extract_lets -underBinder v0
  have hv0 : Chg ps r v0 := by
    unfold v0
    exact (Chg.foldl h (fun _ _ h1 => ((h1.ringOff (within hs (by decide))).setRing (within hs (by decide)))))
  clear_value v0
  exact (Chg.foldl hv0 (fun _ _ h2 => ((h2.setFld (within hs (by decide))).setCq (within hs (by decide)))))

theorem Chg.tenQuiet {a1} (h : Chg ps r s) (hs : [Part.regs, .ledgers, .out, .flt, .ops, .hif, .mem, .pan, .srv, .sec] ⊆ ps) : Chg ps r (State.tenQuiet s a1) := by
  unfold State.tenQuiet
  refine Chg.ite ?_ ?_
  · exact h
  · extract_lets -underBinder v0 v1 v2
    have hv0 : Chg ps r v0 := by
      unfold v0
      exact ((((h.tenServeOut (within hs (by decide))).tenPanelsOut (within hs (by decide))).tenBanksOut (within hs (by decide))).tenMemoryOut (within hs (by decide)))
    clear_value v0
    clear_value v1
    have hv2 : Chg ps r v2 := by
      unfold v2
      exact (((hv0.reclaim (within hs (by decide))).tenTagsOut (within hs (by decide))).tenRingsOut (within hs (by decide)))
    clear_value v2
    exact ((hv2.setTenant (within hs (by decide))).tenOff (within hs (by decide)))

theorem Chg.execTenantQuiet {a1 a2} (h : Chg ps r s) (hs : [Part.time, .regs, .ledgers, .out, .flt, .ops, .hif, .mem, .pan, .srv, .sec] ⊆ ps) : ∃ t, execTenantQuiet a1 a2 s = .next t ∧ Chg ps r t := by
  refine ⟨_, rfl, ?_⟩
  exact ((h.at (within hs (by decide))).tenQuiet (within hs (by decide)))

theorem Chg.viaCfg {a1} (h : Chg ps r s) (hf1 : ∀ x0, Chg ps r x0 → Chg ps r (a1 x0)) (_hs : ([] : List Part) ⊆ ps) : Chg ps r (State.viaCfg s a1) :=
  (Chg.ite (hf1 _ h) h)

theorem Chg.vfReset {a1} (h : Chg ps r s) (hs : [Part.free, .regs, .wide, .rsv, .ledgers, .out, .flt, .pow, .ops, .hif, .mem, .pan, .cad, .srv, .vce, .mur, .ing] ⊆ ps) : Chg ps r (State.vfReset s a1) := by
  unfold State.vfReset
  extract_lets pg s1 mine keep s2 rings asserted v w
  have h1 : Chg ps r s1 := h.foldl (fun _ _ ha => ha.blockReset (within hs (by decide)))
  have h2 : Chg ps r s2 := Chg.putRsv (x := s1.rsv.filter _) (Chg.putWide (x := s1.wide.filter _) (Chg.putRegs (x := s1.regs.filter _)
    h1 (within hs (by decide))) (within hs (by decide))) (within hs (by decide))
  exact Chg.putHif (x := { s2.hif with faults := smSet [] s2.hif.faults a1 [], asserted := asserted }) (Chg.putOps
    (x := { s2.ops with rings := rings }) h2 (within hs (by decide))) (within hs (by decide))

theorem Chg.flr {a1} (h : Chg ps r s) (hs : [Part.free, .regs, .wide, .rsv, .ledgers, .out, .flt, .pow, .ops, .hif, .mem, .pan, .cad, .srv, .vce, .mur, .ing, .sec] ⊆ ps) : Chg ps r (State.flr s a1) := by
  unfold State.flr
  extract_lets -underBinder v0 v1 v2 v3 v4 v5
  have hv0 : Chg ps r v0 := by
    unfold v0
    exact (h.countUp (within hs (by decide)))
  clear_value v0
  have hv2 : Chg ps r v2 := by
    unfold v2
    exact (Chg.ite (hv0.tdiError (within hs (by decide))) (hv0.tenStop (within hs (by decide))))
  clear_value v2
  have hv3 : Chg ps r v3 := by
    unfold v3
    exact (Chg.ite (hv2.event (within hs (by decide))) hv2)
  clear_value v3
  have hv4 : Chg ps r v4 := by
    unfold v4
    exact (hv3.vfReset (within hs (by decide)))
  clear_value v4
  exact (Chg.putHif hv4 (within hs (by decide)))

theorem Chg.execFlr {a1 a2} (h : Chg ps r s) (hs : [Part.free, .time, .regs, .wide, .rsv, .ledgers, .out, .flt, .pow, .ops, .hif, .mem, .pan, .cad, .srv, .vce, .mur, .ing, .sec] ⊆ ps) : ∃ t, execFlr a1 a2 s = .next t ∧ Chg ps r t := by
  refine ⟨_, rfl, ?_⟩
  exact ((h.at (within hs (by decide))).viaCfg (fun _ h0 => (Chg.ite (h0.flr (within hs (by decide))) h0)) (within hs (by decide)))

theorem Chg.vfClear (h : Chg ps r s) (hs : [Part.free, .regs, .ledgers, .out, .flt, .pow, .ops, .hif, .mem, .pan, .cad, .srv, .vce, .mur, .ing, .sec] ⊆ ps) : Chg ps r (State.vfClear s) := by
  unfold State.vfClear
  extract_lets -underBinder v0 v1
  have hv1 : Chg ps r v1 := by
    unfold v1
    exact (Chg.putHif h (within hs (by decide)))
  clear_value v1
  exact (Chg.foldl hv1 (fun _ _ h2 => ((h2.tdiError (within hs (by decide))).tenStop (within hs (by decide)))))

theorem Chg.execVfEnableClear {a1} (h : Chg ps r s) (hs : [Part.free, .time, .regs, .ledgers, .out, .flt, .pow, .ops, .hif, .mem, .pan, .cad, .srv, .vce, .mur, .ing, .sec] ⊆ ps) : ∃ t, execVfEnableClear a1 s = .next t ∧ Chg ps r t := by
  refine ⟨_, rfl, ?_⟩
  exact ((h.at (within hs (by decide))).viaCfg (fun _ h0 => (h0.vfClear (within hs (by decide)))) (within hs (by decide)))

theorem Chg.setPower {a1 a2} (h : Chg ps r s) (hs : [Part.hif] ⊆ ps) : Chg ps r (State.setPower s a1 a2) :=
  (Chg.putHif h (within hs (by decide)))

theorem Chg.execD3hotEntry {a1} (h : Chg ps r s) (hs : [Part.hif] ⊆ ps) : ∃ t, execD3hotEntry a1 s = .next t ∧ Chg ps r t := by
  refine ⟨_, rfl, ?_⟩
  exact (h.viaCfg (fun _ h0 => (h0.setPower (within hs (by decide)))) (within hs (by decide)))

theorem Chg.cfgWrite {a1} (h : Chg ps r s) (hs : [Part.free, .regs, .ledgers, .out, .flt, .pow, .ops, .hif, .mem, .pan, .cad, .srv, .vce, .mur, .ing, .sec] ⊆ ps) : Chg ps r (State.cfgWrite s a1) := by
  unfold State.cfgWrite
  split
  · rename_i y0 y1 y2 y3
    extract_lets -underBinder v4 v5 v6
    have hv6 : Chg ps r v6 := by
      unfold v6
      exact (Chg.putHif h (within hs (by decide)))
    clear_value v6
    exact (Chg.ite (hv6.tdiError (within hs (by decide))) hv6)
  · rename_i y7 y8 y9 y10
    extract_lets -underBinder v11 v12 v13 v14 v15 v16
    have hv14 : Chg ps r v14 := by
      unfold v14
      exact (Chg.putHif h (within hs (by decide)))
    clear_value v14
    have hv15 : Chg ps r v15 := by
      unfold v15
      exact (Chg.ite (hv14.tdiErrors (within hs (by decide))) hv14)
    clear_value v15
    exact (Chg.ite (hv15.vfClear (within hs (by decide))) (Chg.putHif hv15 (within hs (by decide))))
  · rename_i y17 y18 y19 y20
    exact (Chg.putHif h (within hs (by decide)))
  · rename_i y21 y22 y23
    extract_lets -underBinder v24 v25
    have hv25 : Chg ps r v25 := by
      unfold v25
      exact (Chg.putHif h (within hs (by decide)))
    clear_value v25
    exact (Chg.ite hv25 (hv25.tdiErrors (within hs (by decide))))
  · rename_i y26 y27 y28
    exact (h.setPower (within hs (by decide)))
  · rename_i y29 y30 y31 y32
    exact (Chg.putHif h (within hs (by decide)))

theorem Chg.execPciConfigWrite {a1 a2} (h : Chg ps r s) (hs : [Part.free, .time, .regs, .ledgers, .out, .flt, .pow, .ops, .hif, .mem, .pan, .cad, .srv, .vce, .mur, .ing, .sec] ⊆ ps) : ∃ t, execPciConfigWrite a1 a2 s = .next t ∧ Chg ps r t := by
  refine ⟨_, rfl, ?_⟩
  exact ((h.at (within hs (by decide))).viaCfg (fun _ h0 => (h0.cfgWrite (within hs (by decide)))) (within hs (by decide)))

theorem Chg.ideDown {a1} (h : Chg ps r s) (hs : [Part.free, .regs, .ledgers, .out, .flt, .pow, .ops, .hif, .mem, .pan, .cad, .srv, .vce, .mur, .ing, .sec] ⊆ ps) : Chg ps r (State.ideDown s a1) := by
  unfold State.ideDown
  refine Chg.ite ?_ ?_
  · exact h
  · extract_lets -underBinder v0 v1
    have hv1 : Chg ps r v1 := by
      unfold v1
      exact (Chg.putHif h (within hs (by decide)))
    clear_value v1
    exact (Chg.foldl hv1 (fun _ _ h2 => (h2.tdiError (within hs (by decide)))))

theorem Chg.execIdeFail {a1 a2} (h : Chg ps r s) (hs : [Part.free, .time, .regs, .ledgers, .out, .flt, .pow, .ops, .hif, .mem, .pan, .cad, .srv, .vce, .mur, .ing, .sec] ⊆ ps) : ∃ t, execIdeFail a1 a2 s = .next t ∧ Chg ps r t := by
  refine ⟨_, rfl, ?_⟩
  exact (((h.at (within hs (by decide))).ideDown (within hs (by decide))).report (within hs (by decide)))

end Sys2Proof.Machine
end

