-- ==== Sys2Proof/Laws/Security.lean ====
section
/-! SUPPORT. What each operation of Machine/Security.lean touches at most, and that it keeps the ledgers and the byte stores in form (Chg). -/

namespace Sys2Proof.Machine

open Sys2Proof

variable {ps : List Part} {r s t : State}



theorem Chg.wrRelease {a1} (h : Chg ps r s) (hs : [Part.regs, .out, .flt, .hif, .mem, .sec] ⊆ ps) : Chg ps r (State.wrRelease s a1) := by
  unfold State.wrRelease
  extract_lets -underBinder v0 v1 v2 v3 v4 v5
  clear_value v0
  have hv1 : Chg ps r v1 := by
    unfold v1
    exact ((Chg.foldl h (fun _ _ h6 => (h6.zeroFrame (within hs (by decide))))).freeFrames (within hs (by decide)))
  clear_value v1
  clear_value v3
  have hv4 : Chg ps r v4 := by
    unfold v4
    exact (hv1.setFld (within hs (by decide)))
  clear_value v4
  exact (Chg.putSec hv4 (within hs (by decide)))

theorem Chg.wrEnd {a1 a2 a3} (h : Chg ps r s) (hs : [Part.regs, .out, .hif] ⊆ ps) : Chg ps r (State.wrEnd s a1 a2 a3) :=
  ((((h.setFld (within hs (by decide))).setFld (within hs (by decide))).setFld (within hs (by decide))).event (within hs (by decide)))

theorem Chg.loadFail {a1 a2} (h : Chg ps r s) (hs : [Part.regs, .out, .flt, .hif, .mem, .sec] ⊆ ps) : Chg ps r (State.loadFail s a1 a2) :=
  (((Chg.putSec h (within hs (by decide))).wrRelease (within hs (by decide))).wrEnd (within hs (by decide)))

theorem Chg.solventWipe {a1} (h : Chg ps r s) (hs : [Part.free, .regs, .ledgers, .out, .flt, .pow, .ops, .hif, .mem, .pan, .cad, .srv, .vce, .mur, .ing, .sec] ⊆ ps) : Chg ps r (State.solventWipe s a1) := by
  unfold State.solventWipe
  extract_lets s0 s1 jobs v1 v2 v3 v4 v5 s2 s3 s4 s5
  have h0 : Chg ps r s0 := by
    unfold s0
    split
    · exact h.loadFail (within hs (by decide))
    · exact h
  have h1 : Chg ps r s1 := h0.foldl (fun _ _ ha => Chg.ite ha (ha.setFld (within hs (by decide))))
  have h2 : Chg ps r s2 := Chg.putHif (x := { s1.hif with ideKeys := [] }) (Chg.putCad (x := { s1.cad with dip := { s1.cad.dip with keyed := false } })
    (Chg.putMur (x := { s1.mur with jobs := jobs.filter (fun e => decide (e.2 ≠ mjobReset)) }) (Chg.putSec
      (x := { s1.sec with wiped := true, keys := [], sessions := [] }) h1 (within hs (by decide))) (within hs (by decide))) (within hs (by decide))) (within hs (by decide))
  clear_value s2
  have h3 : Chg ps r s3 := h2.setFld (within hs (by decide))
  clear_value s3
  have h4 : Chg ps r s4 := h3.foldl (fun _ _ ha => ha.ideDown (within hs (by decide)))
  clear_value s4
  have h5 : Chg ps r s5 := (h4.tdiErrors (within hs (by decide))).countFld (within hs (by decide))
  exact h5.journal (within hs (by decide))

theorem Chg.trimOwner (h : Chg ps r s) (hs : [Part.mem] ⊆ ps) : Chg ps r (State.trimOwner s) := by
  unfold State.trimOwner
  extract_lets -underBinder v0 v1
  have hv0 : Chg ps r v0 := by
    unfold v0
    exact (Chg.foldl h (fun _ _ h2 => (h2.flashClear (within hs (by decide)))))
  clear_value v0
  exact (Chg.putMem hv0 (within hs (by decide)) ⟨rfl, rfl, rfl, rfl, rfl⟩)

theorem Chg.lcGo {a1} (h : Chg ps r s) (hs : [Part.free, .regs, .wide, .rsv, .ledgers, .out, .flt, .pow, .ops, .hif, .mem, .pan, .cad, .srv, .vce, .mur, .ing, .sec] ⊆ ps) : Chg ps r (State.lcGo s a1) := by
  unfold State.lcGo
  extract_lets -underBinder v0
  have hv0 : Chg ps r v0 := by
    unfold v0
    exact ((h.setFld (within hs (by decide))).solventWipe (within hs (by decide)))
  clear_value v0
  exact ((Chg.ite (hv0.trimOwner (within hs (by decide))) hv0).moduleReset (within hs (by decide)))

theorem Chg.lcEnd {a1} (h : Chg ps r s) (hs : [Part.regs, .out, .hif] ⊆ ps) : Chg ps r (State.lcEnd s a1) :=
  ((h.setFld (within hs (by decide))).event (within hs (by decide)))

theorem Chg.lcCmd {a1} (h : Chg ps r s) (hs : [Part.free, .regs, .wide, .rsv, .ledgers, .out, .flt, .pow, .ops, .hif, .mem, .pan, .cad, .srv, .vce, .mur, .ing, .sec] ⊆ ps) : Chg ps r (State.lcCmd s a1) := by
  unfold State.lcCmd
  extract_lets -underBinder v0 v1 v2
  have hv0 : Chg ps r v0 := by
    unfold v0
    exact (h.noteRsv (within hs (by decide)))
  clear_value v0
  exact (Chg.ite (hv0.discard (within hs (by decide))) (Chg.ite (hv0.lcGo (within hs (by decide))) (Chg.ite ((((hv0.solventWipe (within hs (by decide))).setFld (within hs (by decide))).report (within hs (by decide))).lcEnd (within hs (by decide))) (Chg.ite (Chg.ite ((hv0.setFld (within hs (by decide))).lcEnd (within hs (by decide))) (hv0.lcEnd (within hs (by decide)))) (Chg.ite ((hv0.setFld (within hs (by decide))).lcEnd (within hs (by decide))) (Chg.ite (Chg.ite (hv0.lcEnd (within hs (by decide))) (Chg.ite (hv0.lcEnd (within hs (by decide))) ((((hv0.solventWipe (within hs (by decide))).setFld (within hs (by decide))).setFld (within hs (by decide))).lcEnd (within hs (by decide))))) (hv0.discard (within hs (by decide)))))))))

theorem Chg.lcWrite {a1 a2} (h : Chg ps r s) (hs : [Part.free, .time, .regs, .wide, .rsv, .ledgers, .out, .flt, .pow, .ops, .hif, .mem, .pan, .cad, .srv, .vce, .mur, .ing, .sec] ⊆ ps) : Chg ps r (State.lcWrite s a1 a2) :=
  (h.via (fun _ h0 => ((h0.at (within hs (by decide))).lcCmd (within hs (by decide)))) (within hs (by decide)))

theorem Chg.execLcDeploy {a1} (h : Chg ps r s) (hs : [Part.free, .time, .regs, .wide, .rsv, .ledgers, .out, .flt, .pow, .ops, .hif, .mem, .pan, .cad, .srv, .vce, .mur, .ing, .sec] ⊆ ps) : ∃ t, execLcDeploy a1 s = .next t ∧ Chg ps r t := by
  refine ⟨_, rfl, ?_⟩
  exact (h.lcWrite (within hs (by decide)))

theorem Chg.execLcReturn {a1} (h : Chg ps r s) (hs : [Part.free, .time, .regs, .wide, .rsv, .ledgers, .out, .flt, .pow, .ops, .hif, .mem, .pan, .cad, .srv, .vce, .mur, .ing, .sec] ⊆ ps) : ∃ t, execLcReturn a1 s = .next t ∧ Chg ps r t := by
  refine ⟨_, rfl, ?_⟩
  exact (h.lcWrite (within hs (by decide)))

theorem Chg.execLcEnd {a1} (h : Chg ps r s) (hs : [Part.free, .time, .regs, .wide, .rsv, .ledgers, .out, .flt, .pow, .ops, .hif, .mem, .pan, .cad, .srv, .vce, .mur, .ing, .sec] ⊆ ps) : ∃ t, execLcEnd a1 s = .next t ∧ Chg ps r t := by
  refine ⟨_, rfl, ?_⟩
  exact (h.lcWrite (within hs (by decide)))

theorem Chg.execLcWipe {a1} (h : Chg ps r s) (hs : [Part.free, .time, .regs, .wide, .rsv, .ledgers, .out, .flt, .pow, .ops, .hif, .mem, .pan, .cad, .srv, .vce, .mur, .ing, .sec] ⊆ ps) : ∃ t, execLcWipe a1 s = .next t ∧ Chg ps r t := by
  refine ⟨_, rfl, ?_⟩
  exact (h.lcWrite (within hs (by decide)))

theorem Chg.execDebugField (h : Chg ps r s) (hs : [Part.free, .time, .regs, .wide, .rsv, .ledgers, .out, .flt, .pow, .ops, .hif, .mem, .pan, .cad, .srv, .vce, .mur, .ing, .sec] ⊆ ps) : ∃ t, execDebugField s = .next t ∧ Chg ps r t := by
  refine ⟨_, rfl, ?_⟩
  exact (h.lcWrite (within hs (by decide)))

theorem Chg.execDebugClose (h : Chg ps r s) (hs : [Part.free, .time, .regs, .wide, .rsv, .ledgers, .out, .flt, .pow, .ops, .hif, .mem, .pan, .cad, .srv, .vce, .mur, .ing, .sec] ⊆ ps) : ∃ t, execDebugClose s = .next t ∧ Chg ps r t := by
  refine ⟨_, rfl, ?_⟩
  exact (h.lcWrite (within hs (by decide)))

theorem Chg.execDebugOpen {a1} (h : Chg ps r s) (hs : [Part.free, .time, .regs, .wide, .rsv, .ledgers, .out, .flt, .pow, .ops, .hif, .mem, .pan, .cad, .srv, .vce, .mur, .ing, .sec] ⊆ ps) : ∃ t, execDebugOpen a1 s = .next t ∧ Chg ps r t := by
  refine ⟨_, rfl, ?_⟩
  exact (h.lcWrite (within hs (by decide)))

theorem Chg.nonceRead (h : Chg ps r s) (hs : [Part.free, .regs, .wide, .reply] ⊆ ps) : Chg ps r (State.nonceRead s) :=
  (((h.used (within hs (by decide))).setWide (within hs (by decide))).readWide (within hs (by decide)))

theorem Chg.execNonceRead (h : Chg ps r s) (hs : [Part.free, .regs, .wide, .reply] ⊆ ps) : ∃ t, execNonceRead s = .next t ∧ Chg ps r t := by
  refine ⟨_, rfl, ?_⟩
  exact (h.via (fun _ h0 => (h0.nonceRead (within hs (by decide)))) (within hs (by decide)))

theorem Chg.tamper {a1 a2 a3} (h : Chg ps r s) (hs : [Part.free, .regs, .ledgers, .out, .flt, .pow, .ops, .hif, .mem, .pan, .cad, .srv, .vce, .mur, .ing, .sec] ⊆ ps) : Chg ps r (State.tamper s a1 a2 a3) := by
  unfold State.tamper
  extract_lets -underBinder v0 v1 v2 v3 v4 v5
  clear_value v0
  have hv1 : Chg ps r v1 := by
    unfold v1
    exact (h.setFld (within hs (by decide)))
  clear_value v1
  have hv2 : Chg ps r v2 := by
    unfold v2
    exact (hv1.setWord (within hs (by decide)))
  clear_value v2
  have hv3 : Chg ps r v3 := by
    unfold v3
    exact ((hv2.solventWipe (within hs (by decide))).countFld (within hs (by decide)))
  clear_value v3
  clear_value v4
  have hv5 : Chg ps r v5 := by
    unfold v5
    exact (Chg.putPow hv3 (within hs (by decide)))
  clear_value v5
  exact (Chg.ite h (Chg.ite hv1 (((hv5.setFld (within hs (by decide))).event (within hs (by decide))).report (within hs (by decide)))))

theorem Chg.execTamper {a1 a2 a3 a4} (h : Chg ps r s) (hs : [Part.free, .time, .regs, .ledgers, .out, .flt, .pow, .ops, .hif, .mem, .pan, .cad, .srv, .vce, .mur, .ing, .sec] ⊆ ps) : ∃ t, execTamper a1 a2 a3 a4 s = .next t ∧ Chg ps r t := by
  refine ⟨_, rfl, ?_⟩
  exact ((h.at (within hs (by decide))).tamper (within hs (by decide)))

theorem Chg.execTrngHealthRestored (h : Chg ps r s) (hs : [Part.sec] ⊆ ps) : ∃ t, execTrngHealthRestored s = .next t ∧ Chg ps r t := by
  refine ⟨_, rfl, ?_⟩
  exact (Chg.putSec h (within hs (by decide)))

theorem Chg.arbCmd {a1} (h : Chg ps r s) (hs : [Part.regs, .rsv, .out, .hif, .sec] ⊆ ps) : Chg ps r (State.arbCmd s a1) := by
  unfold State.arbCmd
  extract_lets -underBinder v0 v1 v2 v3
  have hv0 : Chg ps r v0 := by
    unfold v0
    exact (h.noteRsv (within hs (by decide)))
  clear_value v0
  exact (Chg.ite (Chg.putSec hv0 (within hs (by decide))) (hv0.discard (within hs (by decide))))

theorem Chg.execArbAdvance {a1} (h : Chg ps r s) (hs : [Part.regs, .rsv, .out, .hif, .sec] ⊆ ps) : ∃ t, execArbAdvance a1 s = .next t ∧ Chg ps r t := by
  refine ⟨_, rfl, ?_⟩
  exact (h.via (fun _ h0 => (h0.arbCmd (within hs (by decide)))) (within hs (by decide)))

theorem Chg.wrLoad {a1} (h : Chg ps r s) (hs : [Part.regs, .wide, .out, .hif, .mem, .sec] ⊆ ps) : Chg ps r (State.wrLoad s a1) := by
  unfold State.wrLoad
  refine Chg.ite ?_ ?_
  · exact (h.discard (within hs (by decide)))
  · split
    · rename_i y0 y1 y2
      exact (h.wrEnd (within hs (by decide)))
    · rename_i y3 y4 y5 y6
      extract_lets -underBinder v7 v8 v9 v10 v11 v12
      have hv9 : Chg ps r v9 := by
        unfold v9
        exact ((((h.setWide (within hs (by decide))).setFld (within hs (by decide))).setFld (within hs (by decide))).setWord (within hs (by decide)))
      clear_value v9
      have hv10 : Chg ps r v10 := by
        unfold v10
        exact ((hv9.setFrames (within hs (by decide))).setFld (within hs (by decide)))
      clear_value v10
      have hv11 : Chg ps r v11 := by
        unfold v11
        exact ((hv10.setFld (within hs (by decide))).setFld (within hs (by decide)))
      clear_value v11
      exact (Chg.ite (hv9.wrEnd (within hs (by decide))) (Chg.putSec hv11 (within hs (by decide))))

theorem Chg.wrUnload {a1} (h : Chg ps r s) (hs : [Part.regs, .out, .flt, .hif, .mem, .sec] ⊆ ps) : Chg ps r (State.wrUnload s a1) :=
  (Chg.ite (h.discard (within hs (by decide))) (Chg.ite (h.wrEnd (within hs (by decide))) ((h.wrRelease (within hs (by decide))).wrEnd (within hs (by decide)))))

theorem Chg.wrCmd {a1} (h : Chg ps r s) (hs : [Part.regs, .wide, .rsv, .out, .flt, .hif, .mem, .sec] ⊆ ps) : Chg ps r (State.wrCmd s a1) := by
  unfold State.wrCmd
  extract_lets -underBinder v0 v1 v2
  have hv0 : Chg ps r v0 := by
    unfold v0
    exact (h.noteRsv (within hs (by decide)))
  clear_value v0
  exact (Chg.ite (hv0.wrLoad (within hs (by decide))) (Chg.ite (hv0.wrUnload (within hs (by decide))) (hv0.discard (within hs (by decide)))))

theorem Chg.execWrLoad {a1} (h : Chg ps r s) (hs : [Part.time, .regs, .wide, .rsv, .out, .flt, .hif, .mem, .sec] ⊆ ps) : ∃ t, execWrLoad a1 s = .next t ∧ Chg ps r t := by
  refine ⟨_, rfl, ?_⟩
  exact (h.via (fun _ h0 => ((h0.at (within hs (by decide))).wrCmd (within hs (by decide)))) (within hs (by decide)))

theorem Chg.execWrUnload (h : Chg ps r s) (hs : [Part.regs, .wide, .rsv, .out, .flt, .hif, .mem, .sec] ⊆ ps) : ∃ t, execWrUnload s = .next t ∧ Chg ps r t := by
  refine ⟨_, rfl, ?_⟩
  exact (h.via (fun _ h0 => (h0.wrCmd (within hs (by decide)))) (within hs (by decide)))

theorem Chg.loadBlocks {a1 a2 a3 a4 a5} (h : Chg ps r s) (hs : [Part.mem] ⊆ ps) : Chg ps r (State.loadBlocks s a1 a2 a3 a4 a5).1 := by
  induction a5 generalizing s a4 with
  | zero => exact h
  | succ n ih =>
    unfold State.loadBlocks
    split
    · exact h
    · exact ih (h.memWrite (within hs (by decide)))

theorem Chg.loadComplete {a1} (h : Chg ps r s) (hs : [Part.free, .regs, .ledgers, .out, .flt, .pow, .hif, .mem, .pan, .cad, .sec] ⊆ ps) : Chg ps r (State.loadComplete s a1) := by
  unfold State.loadComplete
  split
  · rename_i y0 y1
    exact h
  · rename_i y2 y3 y4
    extract_lets -underBinder v5
    have hv5 : Chg ps r v5 := by
      unfold v5
      exact (Chg.foldl h (fun _ _ h6 => (h6.mediaUe (within hs (by decide)))))
    clear_value v5
    split
    · rename_i y7 y8
      exact (hv5.loadFail (within hs (by decide)))
    · rename_i y9 y10 y11
      extract_lets -underBinder v12 v13 v14 v15 v16
      clear_value v14
      have hv15 : Chg ps r v15 := by
        unfold v15
        exact (hv5.memWrite (within hs (by decide)))
      clear_value v15
      have hv16 : Chg ps r v16 := by
        unfold v16
        exact (Chg.putFree hv15 (within hs (by decide)))
      clear_value v16
      split
      · rename_i y17 y18 y19 y20
        refine Chg.ite ?_ ?_
        · refine Chg.loadFail ?_ (within hs (by decide))
          exact Chg.fst (hv16.loadBlocks (within hs (by decide))) y20
        · extract_lets -underBinder v21 v22 v23
          clear_value v22
          refine Chg.wrEnd ?_ (within hs (by decide))
          refine (Chg.putSec ?_ (within hs (by decide)))
          exact Chg.fst (hv16.loadBlocks (within hs (by decide))) y20

theorem Chg.execWeightLoadComplete {a1 a2} (h : Chg ps r s) (hs : [Part.free, .time, .regs, .ledgers, .out, .flt, .pow, .hif, .mem, .pan, .cad, .sec] ⊆ ps) : ∃ t, execWeightLoadComplete a1 a2 s = .next t ∧ Chg ps r t := by
  refine ⟨_, rfl, ?_⟩
  exact ((h.at (within hs (by decide))).loadComplete (within hs (by decide)))

theorem Chg.keyEnd {a1} (h : Chg ps r s) (hs : [Part.regs, .out, .hif] ⊆ ps) : Chg ps r (State.keyEnd s a1) :=
  ((h.setFld (within hs (by decide))).event (within hs (by decide)))

theorem Chg.setJobKey {a1 a2} (h : Chg ps r s) (hs : [Part.mur] ⊆ ps) : Chg ps r (State.setJobKey s a1 a2) :=
  (h.setMjob (within hs (by decide)))

theorem Chg.setPairKey {a1} (h : Chg ps r s) (hs : [Part.regs, .cad] ⊆ ps) : Chg ps r (State.setPairKey s a1) :=
  ((Chg.putCad h (within hs (by decide))).setFld (within hs (by decide)))

theorem Chg.keyTake {a1 a2 a3} (h : Chg ps r s) (hs : [Part.regs, .out, .hif, .cad, .mur] ⊆ ps) : Chg ps r (State.keyTake s a1 a2 a3) := by
  unfold State.keyTake
  split
  · rename_i y0 y1 y2
    exact (h.keyEnd (within hs (by decide)))
  · rename_i y3 y4 y5
    exact ((Chg.ite (h.setJobKey (within hs (by decide))) (h.setPairKey (within hs (by decide)))).keyEnd (within hs (by decide)))

theorem Chg.keyGot {a1 a2 a3} (h : Chg ps r s) (hs : [Part.regs, .ledgers, .out, .flt, .pow, .hif, .mem, .pan, .cad, .mur] ⊆ ps) : Chg ps r (State.keyGot s a1 a2 a3) := by
  unfold State.keyGot
  split
  · rename_i y0 y1 y2
    exact ((h.mmuFault (within hs (by decide))).keyEnd (within hs (by decide)))
  · rename_i y3 y4 y5
    exact (Chg.ite (h.keyEnd (within hs (by decide))) (h.keyTake (within hs (by decide))))

theorem Chg.keyInstall {a1 a2} (h : Chg ps r s) (hs : [Part.regs, .ledgers, .out, .flt, .pow, .hif, .mem, .pan, .cad, .mur] ⊆ ps) : Chg ps r (State.keyInstall s a1 a2) :=
  (h.keyGot (within hs (by decide)))

theorem Chg.keyCmd {a1} (h : Chg ps r s) (hs : [Part.regs, .rsv, .ledgers, .out, .flt, .pow, .hif, .mem, .pan, .cad, .mur] ⊆ ps) : Chg ps r (State.keyCmd s a1) := by
  unfold State.keyCmd
  extract_lets -underBinder v0 v1 v2
  have hv0 : Chg ps r v0 := by
    unfold v0
    exact (h.noteRsv (within hs (by decide)))
  clear_value v0
  exact (Chg.ite (hv0.discard (within hs (by decide))) (Chg.ite (hv0.keyEnd (within hs (by decide))) (Chg.ite (hv0.keyEnd (within hs (by decide))) (Chg.ite (hv0.keyEnd (within hs (by decide))) (Chg.ite ((hv0.setJobKey (within hs (by decide))).keyEnd (within hs (by decide))) (Chg.ite ((hv0.setPairKey (within hs (by decide))).keyEnd (within hs (by decide))) (hv0.keyInstall (within hs (by decide)))))))))

theorem Chg.execInstallJob {a1} (h : Chg ps r s) (hs : [Part.regs, .rsv, .ledgers, .out, .flt, .pow, .hif, .mem, .pan, .cad, .mur] ⊆ ps) : ∃ t, execInstallJob a1 s = .next t ∧ Chg ps r t := by
  refine ⟨_, rfl, ?_⟩
  exact (h.via (fun _ h0 => (h0.keyCmd (within hs (by decide)))) (within hs (by decide)))

theorem Chg.execInstallPair (h : Chg ps r s) (hs : [Part.regs, .rsv, .ledgers, .out, .flt, .pow, .hif, .mem, .pan, .cad, .mur] ⊆ ps) : ∃ t, execInstallPair s = .next t ∧ Chg ps r t := by
  refine ⟨_, rfl, ?_⟩
  exact (h.via (fun _ h0 => (h0.keyCmd (within hs (by decide)))) (within hs (by decide)))

theorem Chg.execClearJob {a1} (h : Chg ps r s) (hs : [Part.regs, .rsv, .ledgers, .out, .flt, .pow, .hif, .mem, .pan, .cad, .mur] ⊆ ps) : ∃ t, execClearJob a1 s = .next t ∧ Chg ps r t := by
  refine ⟨_, rfl, ?_⟩
  exact (h.via (fun _ h0 => (h0.keyCmd (within hs (by decide)))) (within hs (by decide)))

theorem Chg.execClearPair (h : Chg ps r s) (hs : [Part.regs, .rsv, .ledgers, .out, .flt, .pow, .hif, .mem, .pan, .cad, .mur] ⊆ ps) : ∃ t, execClearPair s = .next t ∧ Chg ps r t := by
  refine ⟨_, rfl, ?_⟩
  exact (h.via (fun _ h0 => (h0.keyCmd (within hs (by decide)))) (within hs (by decide)))

theorem Chg.gessoPanel {a1 a2 a3} (h : Chg ps r s) (hs : [Part.mem, .pan] ⊆ ps) : Chg ps r (State.gessoPanel s a1 a2 a3) := by
  unfold State.gessoPanel
  extract_lets s1
  have h1 : Chg ps r s1 := Chg.ite h (h.setCarts (within hs (by decide)))
  clear_value s1
  refine Chg.ite (Chg.ite (h1.palZero (within hs (by decide))) ((h1.palZero (within hs (by decide))).storesZero (within hs (by decide)))) (h1.setSaved (fun k => ?_) (within hs (by decide)))
  split
  · exact ⟨rfl, (k.savedOf _ _).2⟩
  · exact ⟨rfl, rfl⟩

theorem Chg.gessoGo {a1 a2 a3} (h : Chg ps r s) (hs : [Part.ops, .mem, .pan] ⊆ ps) : Chg ps r (State.gessoGo s a1 a2 a3) := by
  unfold State.gessoGo
  split
  · rename_i y0 y1 y2
    exact (h.opEnd (within hs (by decide)))
  · rename_i y3 y4
    exact ((Chg.foldl h (fun _ _ h5 => (h5.gessoPanel (within hs (by decide))))).opEnd (within hs (by decide)))

theorem Chg.gessoStart {a1 a2} (h : Chg ps r s) (hs : [Part.regs, .ledgers, .out, .flt, .pow, .ops, .hif, .mem, .pan, .cad] ⊆ ps) : Chg ps r (State.gessoStart s a1 a2) := by
  unfold State.gessoStart
  refine Chg.ite ?_ ?_
  · exact (h.gessoGo (within hs (by decide)))
  · refine Chg.withArg ?_ (fun x0  => ?_) (within hs (by decide))
    · exact h
    · split
      · rename_i y1 y2 y3
        exact (h.opEnd (within hs (by decide)))
      · rename_i y4 y5
        exact (h.gessoGo (within hs (by decide)))

theorem Chg.execGesso {a1 a2} (h : Chg ps r s) (hs : [Part.time, .regs, .ledgers, .out, .flt, .pow, .ops, .hif, .mem, .pan, .cad] ⊆ ps) : ∃ t, execGesso a1 a2 s = .next t ∧ Chg ps r t := by
  refine ⟨_, rfl, ?_⟩
  split
  · rename_i y0 y1 y2
    exact (Chg.ite h (h.issue (fun _ _ h3 => (h3.gessoStart (within hs (by decide)))) (within hs (by decide))))
  · rename_i y4 y5
    exact h

end Sys2Proof.Machine
end

