-- ==== Sys2Proof/Laws/Spdm.lean ====
section
/-! SUPPORT. What each operation of Machine/Spdm.lean touches at most, and that it keeps the ledgers and the byte stores in form (Chg). -/

namespace Sys2Proof.Machine

open Sys2Proof

variable {ps : List Part} {r s t : State}



theorem Chg.spdm {a1 a2} (h : Chg ps r s) (hs : [Part.out] ⊆ ps) : Chg ps r (State.spdm s a1 a2) :=
  (h.emit (within hs (by decide)))

theorem Chg.spdmError {a1} (h : Chg ps r s) (hs : [Part.out] ⊆ ps) : Chg ps r (State.spdmError s a1) :=
  (h.spdm (within hs (by decide)))

theorem Chg.spdmReq {a1 a2} (h : Chg ps r s) (hf2 : ∀ x0, Chg ps r x0 → Chg ps r (a2 x0)) (hs : [Part.out] ⊆ ps) : Chg ps r (State.spdmReq s a1 a2) :=
  (h.viaCfg (fun _ h0 => (Chg.ite (Chg.ite (hf2 _ h0) (h0.spdmError (within hs (by decide)))) (Chg.ite (h0.spdmError (within hs (by decide))) (hf2 _ h0)))) (within hs (by decide)))

theorem Chg.execGetVersion (h : Chg ps r s) (hs : [Part.out] ⊆ ps) : ∃ t, execGetVersion s = .next t ∧ Chg ps r t := by
  refine ⟨_, rfl, ?_⟩
  exact (h.spdmReq (fun _ h0 => (h0.spdm (within hs (by decide)))) (within hs (by decide)))

theorem Chg.execGetCapabilities (h : Chg ps r s) (hs : [Part.out] ⊆ ps) : ∃ t, execGetCapabilities s = .next t ∧ Chg ps r t := by
  refine ⟨_, rfl, ?_⟩
  exact (h.spdmReq (fun _ h0 => (h0.spdm (within hs (by decide)))) (within hs (by decide)))

theorem Chg.execNegotiateAlgorithms {a1} (h : Chg ps r s) (hs : [Part.out] ⊆ ps) : ∃ t, execNegotiateAlgorithms a1 s = .next t ∧ Chg ps r t := by
  refine ⟨_, rfl, ?_⟩
  exact (h.spdmReq (fun _ h0 => (h0.spdm (within hs (by decide)))) (within hs (by decide)))

theorem Chg.execGetCertificate {a1 a2 a3} (h : Chg ps r s) (hs : [Part.out] ⊆ ps) : ∃ t, execGetCertificate a1 a2 a3 s = .next t ∧ Chg ps r t := by
  refine ⟨_, rfl, ?_⟩
  exact (h.spdmReq (fun _ h0 => (Chg.ite (h0.spdm (within hs (by decide))) (h0.spdmError (within hs (by decide))))) (within hs (by decide)))

theorem Chg.execChallenge {a1 a2} (h : Chg ps r s) (hs : [Part.free, .out] ⊆ ps) : ∃ t, execChallenge a1 a2 s = .next t ∧ Chg ps r t := by
  refine ⟨_, rfl, ?_⟩
  refine Chg.spdmReq ?_ (fun x1 h2 => ?_) (within hs (by decide))
  · exact h
  · refine Chg.ite ?_ ?_
    · extract_lets -underBinder v3 v4
      clear_value v3
      clear_value v4
      exact ((h2.used (within hs (by decide))).spdm (within hs (by decide)))
    · exact (h2.spdmError (within hs (by decide)))

theorem Chg.measure' {a1 a2 a3} (h : Chg ps r s) (hs : [Part.free, .out] ⊆ ps) : Chg ps r (State.measure' s a1 a2 a3) := by
  unfold State.measure'
  refine Chg.ite ?_ ?_
  · exact (h.spdmError (within hs (by decide)))
  · extract_lets -underBinder v0 v1 v2
    clear_value v0
    clear_value v1
    clear_value v2
    exact ((h.used (within hs (by decide))).spdm (within hs (by decide)))

theorem Chg.execGetMeasurements {a1 a2 a3 a4} (h : Chg ps r s) (hs : [Part.free, .time, .out] ⊆ ps) : ∃ t, execGetMeasurements a1 a2 a3 a4 s = .next t ∧ Chg ps r t := by
  refine ⟨_, rfl, ?_⟩
  exact ((h.at (within hs (by decide))).spdmReq (fun _ h0 => (h0.measure' (within hs (by decide)))) (within hs (by decide)))

theorem Chg.setSession {a1 a2} (h : Chg ps r s) (hs : [Part.sec] ⊆ ps) : Chg ps r (State.setSession s a1 a2) :=
  (Chg.putSec h (within hs (by decide)))

theorem Chg.dropSession {a1} (h : Chg ps r s) (hs : [Part.sec] ⊆ ps) : Chg ps r (State.dropSession s a1) :=
  (Chg.putSec h (within hs (by decide)))

theorem Chg.execKeyExchange {a1 a2} (h : Chg ps r s) (hs : [Part.free, .time, .out, .sec] ⊆ ps) : ∃ t, execKeyExchange a1 a2 s = .next t ∧ Chg ps r t := by
  refine ⟨_, rfl, ?_⟩
  refine Chg.spdmReq ?_ (fun x1 h2 => ?_) (within hs (by decide))
  · exact (h.at (within hs (by decide)))
  · refine Chg.ite ?_ ?_
    · exact (h2.spdmError (within hs (by decide)))
    · split
      · rename_i y3 y4
        exact (h2.spdmError (within hs (by decide)))
      · rename_i y5 y6 y7
        extract_lets -underBinder v8
        clear_value v8
        exact (((h2.used (within hs (by decide))).setSession (within hs (by decide))).spdm (within hs (by decide)))

theorem Chg.execSpdmFinish {a1 a2} (h : Chg ps r s) (hs : [Part.out, .sec] ⊆ ps) : ∃ t, execSpdmFinish a1 a2 s = .next t ∧ Chg ps r t := by
  refine ⟨_, rfl, ?_⟩
  refine Chg.spdmReq ?_ (fun x1 h2 => ?_) (within hs (by decide))
  · exact h
  · split
    · rename_i y3 y4 y5
      exact (Chg.ite (h2.spdmError (within hs (by decide))) (Chg.ite ((h2.setSession (within hs (by decide))).spdm (within hs (by decide))) ((h2.dropSession (within hs (by decide))).spdmError (within hs (by decide)))))
    · rename_i y6 y7
      exact (h2.spdmError (within hs (by decide)))

theorem Chg.secured {a1 a2} (h : Chg ps r s) (hf2 : ∀ x0 x1, Chg ps r x0 → Chg ps r (a2 x0 x1)) (hs : [Part.out] ⊆ ps) : Chg ps r (State.secured s a1 a2) := by
  unfold State.secured
  refine Chg.spdmReq ?_ (fun x1 h2 => ?_) (within hs (by decide))
  · exact h
  · split
    · rename_i y3 y4 y5
      exact (Chg.ite (hf2 _ _ h2) (h2.spdmError (within hs (by decide))))
    · rename_i y6 y7
      exact (h2.spdmError (within hs (by decide)))

theorem Chg.execEndSession {a1} (h : Chg ps r s) (hs : [Part.out, .sec] ⊆ ps) : ∃ t, execEndSession a1 s = .next t ∧ Chg ps r t := by
  refine ⟨_, rfl, ?_⟩
  exact (h.secured (fun _ _ h0 => ((h0.dropSession (within hs (by decide))).spdm (within hs (by decide)))) (within hs (by decide)))

theorem Chg.execSpdmHeartbeat {a1 a2} (h : Chg ps r s) (hs : [Part.time, .out, .sec] ⊆ ps) : ∃ t, execSpdmHeartbeat a1 a2 s = .next t ∧ Chg ps r t := by
  refine ⟨_, rfl, ?_⟩
  exact ((h.at (within hs (by decide))).secured (fun _ _ h0 => ((h0.setSession (within hs (by decide))).spdm (within hs (by decide)))) (within hs (by decide)))

theorem Chg.execKeyUpdate {a1} (h : Chg ps r s) (hs : [Part.out, .sec] ⊆ ps) : ∃ t, execKeyUpdate a1 s = .next t ∧ Chg ps r t := by
  refine ⟨_, rfl, ?_⟩
  exact (h.secured (fun _ _ h0 => ((h0.setSession (within hs (by decide))).spdm (within hs (by decide)))) (within hs (by decide)))

theorem Chg.ideKm {a1} (h : Chg ps r s) (hs : [Part.free, .regs, .ledgers, .out, .flt, .pow, .ops, .hif, .mem, .pan, .cad, .srv, .vce, .mur, .ing, .sec] ⊆ ps) : Chg ps r (State.ideKm s a1) := by
  unfold State.ideKm
  split
  · rename_i y0 y1
    exact (h.tdisp (within hs (by decide)))
  · rename_i y2 y3
    exact ((Chg.putHif h (within hs (by decide))).tdisp (within hs (by decide)))
  · rename_i y4 y5
    exact (Chg.ite ((Chg.putHif h (within hs (by decide))).tdisp (within hs (by decide))) (h.tdisp (within hs (by decide))))
  · rename_i y6 y7
    exact ((h.ideDown (within hs (by decide))).tdisp (within hs (by decide)))

theorem Chg.execIdeKm {a1 a2 a3} (h : Chg ps r s) (hs : [Part.free, .time, .regs, .ledgers, .out, .flt, .pow, .ops, .hif, .mem, .pan, .cad, .srv, .vce, .mur, .ing, .sec] ⊆ ps) : ∃ t, execIdeKm a1 a2 a3 s = .next t ∧ Chg ps r t := by
  refine ⟨_, rfl, ?_⟩
  exact ((h.at (within hs (by decide))).secured (fun _ _ h0 => (h0.ideKm (within hs (by decide)))) (within hs (by decide)))

theorem Chg.tdispReq {a1 a2 a3} (h : Chg ps r s) (hf3 : ∀ x0, Chg ps r x0 → Chg ps r (a3 x0)) (hs : [Part.out] ⊆ ps) : Chg ps r (State.tdispReq s a1 a2 a3) :=
  (h.secured (fun _ _ h0 => (Chg.ite (hf3 _ h0) (h0.tdisp (within hs (by decide))))) (within hs (by decide)))

theorem Chg.execGetTdispVersion {a1 a2} (h : Chg ps r s) (hs : [Part.out] ⊆ ps) : ∃ t, execGetTdispVersion a1 a2 s = .next t ∧ Chg ps r t := by
  refine ⟨_, rfl, ?_⟩
  exact (h.tdispReq (fun _ h0 => (h0.tdisp (within hs (by decide)))) (within hs (by decide)))

theorem Chg.execGetTdispCapabilities {a1 a2} (h : Chg ps r s) (hs : [Part.out] ⊆ ps) : ∃ t, execGetTdispCapabilities a1 a2 s = .next t ∧ Chg ps r t := by
  refine ⟨_, rfl, ?_⟩
  exact (h.tdispReq (fun _ h0 => (h0.tdisp (within hs (by decide)))) (within hs (by decide)))

theorem Chg.execLockInterfaceRequest {a1 a2 a3 a4} (h : Chg ps r s) (hs : [Part.free, .out, .hif, .sec] ⊆ ps) : ∃ t, execLockInterfaceRequest a1 a2 a3 a4 s = .next t ∧ Chg ps r t := by
  refine ⟨_, rfl, ?_⟩
  refine Chg.tdispReq ?_ (fun x1 h2 => ?_) (within hs (by decide))
  · exact h
  · refine Chg.ite ?_ ?_
    · extract_lets -underBinder v3 v4 v5 v6
      have hv4 : Chg ps r v4 := by
        unfold v4
        exact (h2.used (within hs (by decide)))
      clear_value v4
      have hv6 : Chg ps r v6 := by
        unfold v6
        exact (Chg.putSec hv4 (within hs (by decide)))
      clear_value v6
      exact ((hv6.setTdi (within hs (by decide))).tdisp (within hs (by decide)))
    · exact (h2.tdisp (within hs (by decide)))

theorem Chg.execGetDeviceInterfaceReport {a1 a2} (h : Chg ps r s) (hs : [Part.out] ⊆ ps) : ∃ t, execGetDeviceInterfaceReport a1 a2 s = .next t ∧ Chg ps r t := by
  refine ⟨_, rfl, ?_⟩
  exact (h.tdispReq (fun _ h0 => (Chg.ite (h0.tdisp (within hs (by decide))) (h0.tdisp (within hs (by decide))))) (within hs (by decide)))

theorem Chg.execGetDeviceInterfaceState {a1 a2} (h : Chg ps r s) (hs : [Part.out] ⊆ ps) : ∃ t, execGetDeviceInterfaceState a1 a2 s = .next t ∧ Chg ps r t := by
  refine ⟨_, rfl, ?_⟩
  exact (h.tdispReq (fun _ h0 => (h0.tdisp (within hs (by decide)))) (within hs (by decide)))

theorem Chg.execStartInterfaceRequest {a1 a2 a3} (h : Chg ps r s) (hs : [Part.out, .hif] ⊆ ps) : ∃ t, execStartInterfaceRequest a1 a2 a3 s = .next t ∧ Chg ps r t := by
  refine ⟨_, rfl, ?_⟩
  exact (h.tdispReq (fun _ h0 => (Chg.ite ((h0.setTdi (within hs (by decide))).tdisp (within hs (by decide))) (h0.tdisp (within hs (by decide))))) (within hs (by decide)))

theorem Chg.tdiStop {a1} (h : Chg ps r s) (hs : [Part.free, .regs, .ledgers, .out, .flt, .pow, .ops, .hif, .mem, .pan, .cad, .srv, .vce, .mur, .ing, .sec] ⊆ ps) : Chg ps r (State.tdiStop s a1) := by
  unfold State.tdiStop
  extract_lets -underBinder v0 v1 v2 v3
  have hv0 : Chg ps r v0 := by
    unfold v0
    exact (h.tdiDrop (within hs (by decide)))
  clear_value v0
  have hv2 : Chg ps r v2 := by
    unfold v2
    exact (Chg.putSec hv0 (within hs (by decide)))
  clear_value v2
  exact (Chg.ite (hv2.tenStop (within hs (by decide))) (Chg.ite hv2 (hv2.tenOff (within hs (by decide)))))

theorem Chg.execStopInterfaceRequest {a1 a2 a3} (h : Chg ps r s) (hs : [Part.free, .time, .regs, .ledgers, .out, .flt, .pow, .ops, .hif, .mem, .pan, .cad, .srv, .vce, .mur, .ing, .sec] ⊆ ps) : ∃ t, execStopInterfaceRequest a1 a2 a3 s = .next t ∧ Chg ps r t := by
  refine ⟨_, rfl, ?_⟩
  exact ((h.at (within hs (by decide))).tdispReq (fun _ h0 => (h0.tdiStop (within hs (by decide)))) (within hs (by decide)))

end Sys2Proof.Machine
end

