-- ==== Sys2Proof/Laws/Errors.lean ====
section
/-! SUPPORT. What each operation of Machine/Errors.lean touches at most, and that it keeps the ledgers and the byte stores in form (Chg). -/

namespace Sys2Proof.Machine

open Sys2Proof

variable {ps : List Part} {r s t : State}



theorem Chg.strFenced (h : Chg ps r s) (hs : [Part.free, .regs, .ledgers, .out, .flt, .pow, .ops, .hif, .mem, .pan, .cad, .ing] ⊆ ps) : Chg ps r (State.strFenced s) := by
  unfold State.strFenced
  extract_lets -underBinder v0 v1
  have hv0 : Chg ps r v0 := by
    unfold v0
    exact (Chg.foldl h (fun _ _ h2 => (Chg.ite (h2.sweepPanel (within hs (by decide))) h2)))
  clear_value v0
  have hv1 : Chg ps r v1 := by
    unfold v1
    exact (Chg.foldl hv0 (fun _ _ h3 => (h3.lostChannels (within hs (by decide)))))
  clear_value v1
  exact (Chg.ite (hv1.strPageOff (within hs (by decide))) (hv1.strStopAll (within hs (by decide))))

theorem Chg.rolesSince {a1} (h : Chg ps r s) (hs : [Part.regs, .ledgers, .out, .hif, .cad] ⊆ ps) : Chg ps r (State.rolesSince s a1) :=
  (Chg.ite (h.heartbeat (within hs (by decide))) (Chg.foldl h (fun _ _ h0 => (Chg.ite (h0.roleFault (within hs (by decide))) h0))))

theorem Chg.fenceNow {a1} (h : Chg ps r s) (hs : [Part.regs, .ledgers, .out, .flt, .hif, .pan, .cad] ⊆ ps) : Chg ps r (State.fenceNow s a1) := by
  unfold State.fenceNow
  refine Chg.ite ?_ ?_
  · exact h
  · extract_lets -underBinder v0
    have hv0 : Chg ps r v0 := by
      unfold v0
      exact (h.fence (within hs (by decide)))
    clear_value v0
    split
    · rename_i y1 y2
      exact hv0
    · rename_i y3 y4 y5 y6
      exact (Chg.ite (hv0.closeRec (within hs (by decide))) (Chg.putFlt hv0 (within hs (by decide))))

theorem Chg.execEscalated {a1 a2} (h : Chg ps r s) (hs : [Part.free, .time, .regs, .ledgers, .out, .flt, .pow, .ops, .hif, .mem, .pan, .cad, .ing] ⊆ ps) : ∃ t, execEscalated a1 a2 s = .next t ∧ Chg ps r t := by
  unfold Sys2Proof.Machine.execEscalated
  extract_lets v0
  have hv0 : Chg ps r v0 := by
    unfold v0
    exact (h.at (within hs (by decide)))
  clear_value v0
  refine ⟨_, rfl, ?_⟩
  split
  · rename_i y1 y2 y3
    exact (Chg.ite (((hv0.escalate (within hs (by decide))).rolesSince (within hs (by decide))).strFenced (within hs (by decide))) h)
  · rename_i y4 y5
    exact h

theorem Chg.retireAt {a1} (h : Chg ps r s) (hs : [Part.mem] ⊆ ps) : Chg ps r (State.retireAt s a1) :=
  (Chg.ite (h.retireLater (within hs (by decide))) h)

theorem Chg.memCe {a1 a2 a3 a4} (h : Chg ps r s) (hs : [Part.regs, .ledgers, .out, .flt, .pow, .hif, .mem, .pan, .cad] ⊆ ps) : Chg ps r (State.memCe s a1 a2 a3 a4) := by
  unfold State.memCe
  extract_lets -underBinder v0 v1 v2 v3 v4
  have hv0 : Chg ps r v0 := by
    unfold v0
    exact (h.report (within hs (by decide)))
  clear_value v0
  have hv4 : Chg ps r v4 := by
    unfold v4
    exact (Chg.putMem hv0 (within hs (by decide)) ⟨rfl, rfl, rfl, rfl, rfl⟩)
  clear_value v4
  exact (Chg.ite hv0 (Chg.ite (hv4.retireAt (within hs (by decide))) hv4))

theorem Chg.repairStart {a1} (h : Chg ps r s) (hs : [Part.mem] ⊆ ps) : Chg ps r (State.repairStart s a1) :=
  (Chg.putMem h (within hs (by decide)) ⟨rfl, rfl, rfl, rfl, rfl⟩)

theorem Chg.replayLost {a1 a2 a3} (h : Chg ps r s) (hs : [Part.free, .ops] ⊆ ps) : Chg ps r (State.replayLost s a1 a2 a3) := by
  unfold State.replayLost
  extract_lets -underBinder v0 v1
  clear_value v0
  split
  · rename_i y2 y3 y4
    extract_lets -underBinder v5 v6
    clear_value v5
    clear_value v6
    exact ((Chg.putFree h (within hs (by decide))).setRing (within hs (by decide)))
  · rename_i y7 y8
    exact h

theorem Chg.moduleUe {a1 a2 a3} (h : Chg ps r s) (hs : [Part.free, .regs, .ledgers, .out, .flt, .pow, .ops, .hif, .mem, .pan, .cad] ⊆ ps) : Chg ps r (State.moduleUe s a1 a2 a3) := by
  unfold State.moduleUe
  extract_lets -underBinder v0 v1 v2 v3
  clear_value v0
  clear_value v1
  clear_value v3
  refine Chg.ite ?_ ?_
  · exact ((h.memZero (within hs (by decide))).report (within hs (by decide)))
  · split
    · rename_i y4 y5 y6 y7
      extract_lets -underBinder v8
      clear_value v8
      exact ((h.memZero (within hs (by decide))).replayLost (within hs (by decide)))
    · rename_i y9 y10 y11 y12 y13
      split
      · rename_i y14 y15 y16
        exact (h.setSaved (fun k => ⟨(k.savedOf _ _).1, (k.savedOf _ _).2⟩) (within hs (by decide)))
      · rename_i y17 y18
        exact h
    · rename_i y19 y20 y21 y22
      exact h

theorem Chg.demandUe {a1 a2 a3} (h : Chg ps r s) (hs : [Part.free, .regs, .ledgers, .out, .flt, .pow, .ops, .hif, .mem, .pan, .cad, .srv] ⊆ ps) : Chg ps r (State.demandUe s a1 a2 a3) := by
  unfold State.demandUe
  extract_lets -underBinder v0 v1
  have hv0 : Chg ps r v0 := by
    unfold v0
    exact (((h.report (within hs (by decide))).memPoison (within hs (by decide))).retireAt (within hs (by decide)))
  clear_value v0
  clear_value v1
  refine Chg.ite ?_ ?_
  · exact (hv0.repairStart (within hs (by decide)))
  · refine Chg.ite ?_ ?_
    · split
      · rename_i y2 y3 y4
        exact (hv0.kvUe (within hs (by decide)))
      · rename_i y5 y6
        exact hv0
    · exact (Chg.ite (hv0.moduleUe (within hs (by decide))) hv0)

theorem Chg.seqFail {a1} (h : Chg ps r s) (hs : [Part.ops, .srv] ⊆ ps) : Chg ps r (State.seqFail s a1) := by
  unfold State.seqFail
  split
  · rename_i y0 y1
    exact h
  · rename_i y2 y3 y4
    refine Chg.ite ?_ ?_
    · exact h
    · extract_lets -underBinder v5
      have hv5 : Chg ps r v5 := by
        unfold v5
        exact (h.setSeq (within hs (by decide)))
      clear_value v5
      split
      · rename_i y6 y7 y8
        exact (Chg.ite hv5 (hv5.genEnd (within hs (by decide))))
      · rename_i y9 y10
        split
        · rename_i y11 y12 y13
          exact ((hv5.setSeq (within hs (by decide))).postReq (within hs (by decide)))
        · rename_i y14 y15
          exact hv5

theorem Chg.metaUe (h : Chg ps r s) (hs : [Part.free, .regs, .ledgers, .out, .flt, .pow, .ops, .hif, .pan, .cad, .srv] ⊆ ps) : Chg ps r (State.metaUe s) := by
  unfold State.metaUe
  extract_lets -underBinder v0 v1
  split
  · rename_i y2 y3 y4 y5 y6
    exact (((h.used (within hs (by decide))).report (within hs (by decide))).seqFail (within hs (by decide)))
  · rename_i y7 y8 y9 y10 y11 y12
    exact (((h.used (within hs (by decide))).report (within hs (by decide))).dropPrefix (within hs (by decide)))
  · rename_i y13 y14 y15 y16
    exact (h.used (within hs (by decide)))

theorem Chg.patrolUe {a1 a2} (h : Chg ps r s) (hs : [Part.free, .regs, .ledgers, .out, .flt, .pow, .ops, .hif, .mem, .pan, .cad, .srv] ⊆ ps) : Chg ps r (State.patrolUe s a1 a2) := by
  unfold State.patrolUe
  extract_lets -underBinder v0 v1 v2 v3 v4 v5 v6
  clear_value v0
  clear_value v1
  have hv2 : Chg ps r v2 := by
    unfold v2
    exact ((h.memPoison (within hs (by decide))).report (within hs (by decide)))
  clear_value v2
  have hv3 : Chg ps r v3 := by
    unfold v3
    exact ((hv2.countUp (within hs (by decide))).event (within hs (by decide)))
  clear_value v3
  have hv4 : ∀ z0, Chg ps r z0 → Chg ps r (v4 z0) := by
    intro x7 h8
    unfold v4
    exact (h8.memZero (within hs (by decide)))
  clear_value v5
  have hv6 : Chg ps r v6 := by
    unfold v6
    exact (hv3.retireAt (within hs (by decide)))
  clear_value v6
  refine Chg.ite ?_ ?_
  · exact (Chg.ite (hv4 _ hv3) hv3)
  · refine Chg.ite ?_ ?_
    · exact (hv4 _ hv6)
    · refine Chg.ite ?_ ?_
      · exact (hv6.repairStart (within hs (by decide)))
      · refine Chg.ite ?_ ?_
        · split
          · rename_i y9 y10 y11
            exact (hv6.poisonSet (within hs (by decide)))
          · rename_i y12 y13
            exact (hv4 _ hv6)
        · exact (Chg.ite (hv6.metaUe (within hs (by decide))) (Chg.ite (hv6.moduleUe (within hs (by decide))) hv6))

theorem Chg.passEnd {a1} (h : Chg ps r s) (hs : [Part.regs, .mem] ⊆ ps) : Chg ps r (State.passEnd s a1) := by
  unfold State.passEnd
  extract_lets -underBinder v0 v1 v2 v3 v4
  have hv2 : Chg ps r v2 := by
    unfold v2
    exact (h.countUp (within hs (by decide)))
  clear_value v2
  exact (Chg.putMem hv2 (within hs (by decide)) ⟨rfl, rfl, rfl, rfl, rfl⟩)

theorem Chg.scrub {a1 a2 a3} (h : Chg ps r s) (hs : [Part.free, .regs, .ledgers, .out, .flt, .pow, .ops, .hif, .mem, .pan, .cad, .srv] ⊆ ps) : Chg ps r (State.scrub s a1 a2 a3) := by
  unfold State.scrub
  extract_lets -underBinder v0 v1
  split
  · rename_i y2 y3
    exact (h.passEnd (within hs (by decide)))
  · rename_i y4 y5 y6
    extract_lets -underBinder v7 v8 v9 v10
    have hv9 : Chg ps r v9 := by
      unfold v9
      exact (Chg.ite (h.memCe (within hs (by decide))) (Chg.ite (h.patrolUe (within hs (by decide))) h))
    clear_value v9
    refine Chg.ite ?_ ?_
    · exact (hv9.passEnd (within hs (by decide)))
    · exact (Chg.putMem hv9 (within hs (by decide)) ⟨rfl, rfl, rfl, rfl, rfl⟩)

theorem Chg.execPatrolScrub {a1 a2 a3 a4} (h : Chg ps r s) (hs : [Part.free, .time, .regs, .ledgers, .out, .flt, .pow, .ops, .hif, .mem, .pan, .cad, .srv] ⊆ ps) : ∃ t, execPatrolScrub a1 a2 a3 a4 s = .next t ∧ Chg ps r t := by
  refine ⟨_, rfl, ?_⟩
  exact (Chg.ite ((h.at (within hs (by decide))).scrub (within hs (by decide))) h)

theorem Chg.execWeightRepair {a1 a2 a3} (h : Chg ps r s) (hs : [Part.free, .time, .regs, .ledgers, .out, .flt, .pow, .ops, .hif, .mem, .pan, .cad, .srv] ⊆ ps) : ∃ t, execWeightRepair a1 a2 a3 s = .next t ∧ Chg ps r t := by
  refine ⟨_, rfl, ?_⟩
  exact (Chg.ite ((h.at (within hs (by decide))).demandUe (within hs (by decide))) h)

theorem Chg.execWeightRepaired {a1 a2 a3} (h : Chg ps r s) (hs : [Part.free, .time, .regs, .ledgers, .out, .flt, .pow, .hif, .mem, .pan, .cad, .sec] ⊆ ps) : ∃ t, execWeightRepaired a1 a2 a3 s = .next t ∧ Chg ps r t := by
  refine ⟨_, rfl, ?_⟩
  refine Chg.ite ?_ ?_
  · exact h
  · extract_lets -underBinder v0 v1 v2
    have hv0 : Chg ps r v0 := by
      unfold v0
      exact (h.at (within hs (by decide)))
    clear_value v0
    have hv2 : Chg ps r v2 := by
      unfold v2
      exact (Chg.putMem hv0 (within hs (by decide)) ⟨rfl, rfl, rfl, rfl, rfl⟩)
    clear_value v2
    split
    · rename_i y3 y4
      exact (hv2.report (within hs (by decide)))
    · rename_i y5 y6 y7
      extract_lets -underBinder v8 v9 v10 v11
      have hv8 : Chg ps r v8 := by
        unfold v8
        exact (hv2.memWrite (within hs (by decide)))
      clear_value v8
      have hv9 : Chg ps r v9 := by
        unfold v9
        exact (Chg.putFree hv8 (within hs (by decide)))
      clear_value v9
      have hv11 : Chg ps r v11 := by
        unfold v11
        exact (Chg.putSec hv9 (within hs (by decide)))
      clear_value v11
      exact ((hv11.countUp (within hs (by decide))).event (within hs (by decide)))

theorem Chg.wearRecord {a1 a2} (h : Chg ps r s) (hs : [Part.regs, .out, .flt, .hif] ⊆ ps) : Chg ps r (State.wearRecord s a1 a2) :=
  (h.journal (within hs (by decide)))

theorem Chg.wearOut {a1} (h : Chg ps r s) (hs : [Part.regs, .ledgers, .out, .flt, .pow, .hif, .pan, .cad] ⊆ ps) : Chg ps r (State.wearOut s a1) := by
  unfold State.wearOut
  split
  · rename_i y0 y1 y2
    exact (Chg.ite h (h.retireCore (within hs (by decide))))
  · rename_i y3 y4
    extract_lets -underBinder v5 v6
    clear_value v5
    clear_value v6
    exact (Chg.ite (h.setCanvas (within hs (by decide))) h)
  · rename_i y7 y8 y9
    exact (Chg.ite (h.laneSwap (within hs (by decide))) h)
  · rename_i y10 y11
    exact (h.dipLaneSwap (within hs (by decide)))
  · rename_i y12 y13
    exact (h.discardPair (within hs (by decide)))

theorem Chg.wearReport {a1} (h : Chg ps r s) (hs : [Part.regs, .ledgers, .out, .flt, .pow, .hif, .pan, .cad] ⊆ ps) : Chg ps r (State.wearReport s a1) := by
  unfold State.wearReport
  split
  · rename_i y0 y1 y2
    exact (h.report (within hs (by decide)))
  · rename_i y3 y4
    exact h

theorem Chg.wear {a1 a2 a3 a4} (h : Chg ps r s) (hs : [Part.regs, .ledgers, .out, .flt, .pow, .hif, .pan, .cad] ⊆ ps) : Chg ps r (State.wear s a1 a2 a3 a4) := by
  unfold State.wear
  extract_lets -underBinder v0 v1 v2 v3 v4
  have hv3 : Chg ps r v3 := by
    unfold v3
    exact (Chg.ite (h.wearRecord (within hs (by decide))) h)
  clear_value v3
  have hv4 : Chg ps r v4 := by
    unfold v4
    exact (hv3.wearReport (within hs (by decide)))
  clear_value v4
  exact (Chg.ite (Chg.ite (hv4.wearOut (within hs (by decide))) hv4) hv3)

theorem Chg.execWearMeasurement {a1 a2 a3 a4 a5} (h : Chg ps r s) (hs : [Part.time, .regs, .ledgers, .out, .flt, .pow, .hif, .pan, .cad] ⊆ ps) : ∃ t, execWearMeasurement a1 a2 a3 a4 a5 s = .next t ∧ Chg ps r t := by
  refine ⟨_, rfl, ?_⟩
  exact (Chg.ite ((h.at (within hs (by decide))).wear (within hs (by decide))) h)

theorem Chg.pnlError {a1 a2 a3} (h : Chg ps r s) (hs : [Part.regs, .ledgers, .out, .flt, .pow, .hif, .mem, .pan, .cad] ⊆ ps) : Chg ps r (State.pnlError s a1 a2 a3) := by
  unfold State.pnlError
  extract_lets -underBinder v0
  split
  · rename_i y1
    exact (h.palPoison (within hs (by decide)))
  · rename_i y2
    split
    · rename_i y3 y4 y5
      exact (h.markStale (within hs (by decide)))
    · rename_i y6 y7
      exact h
  · rename_i y8
    exact (h.fenceCore (within hs (by decide)))
  · rename_i y9
    exact (h.fenceCore (within hs (by decide)))
  · rename_i y10
    exact (h.fenceNow (within hs (by decide)))
  · rename_i y11
    exact (h.fenceNow (within hs (by decide)))
  · rename_i y12
    exact (h.fenceNow (within hs (by decide)))
  · rename_i y13
    exact (h.wearOut (within hs (by decide)))
  · rename_i y14 y15 y16 y17 y18 y19 y20 y21 y22
    exact h

theorem Chg.cadError {a1 a2} (h : Chg ps r s) (hs : [Part.regs, .ledgers, .out, .flt, .hif, .pan, .cad] ⊆ ps) : Chg ps r (State.cadError s a1 a2) := by
  unfold State.cadError
  extract_lets -underBinder v0
  split
  · rename_i y1
    exact (h.fenceNow (within hs (by decide)))
  · rename_i y2
    exact (((h.setDom (within hs (by decide))).slip (within hs (by decide))).showDom (within hs (by decide)))
  · rename_i y3 y4 y5
    exact h

theorem Chg.countError {a1} (h : Chg ps r s) (hs : [Part.regs, .out, .hif, .cad] ⊆ ps) : Chg ps r (State.countError s a1) :=
  ((h.setRef (within hs (by decide))).slipAll (within hs (by decide)))

theorem Chg.smpError {a1 a2} (h : Chg ps r s) (hs : [Part.regs, .ledgers, .ops, .srv] ⊆ ps) : Chg ps r (State.smpError s a1 a2) := by
  unfold State.smpError
  split
  · rename_i y0
    split
    · rename_i y1 y2 y3
      exact (h.setJob (within hs (by decide)))
    · rename_i y4 y5
      exact h
  · rename_i y6
    exact (h.seqFail (within hs (by decide)))
  · rename_i y7
    exact (h.dropPrefix (within hs (by decide)))
  · rename_i y8 y9 y10 y11
    exact h

theorem Chg.vceError {a1 a2 a3} (h : Chg ps r s) (hs : [Part.regs, .out, .ops, .hif, .vce] ⊆ ps) : Chg ps r (State.vceError s a1 a2 a3) := by
  unfold State.vceError
  extract_lets -underBinder v0
  split
  · rename_i y1
    exact (h.vHurt (within hs (by decide)))
  · rename_i y2
    exact (h.vFail (within hs (by decide)))
  · rename_i y3 y4 y5
    exact h

theorem Chg.leafBad {a1 a2} (h : Chg ps r s) (hs : [Part.hif] ⊆ ps) : Chg ps r (State.leafBad s a1 a2) := by
  unfold State.leafBad
  split
  · rename_i y0 y1 y2 y3
    exact (Chg.putHif h (within hs (by decide)))
  · rename_i y4 y5
    exact h

theorem Chg.murError {a1 a2} (h : Chg ps r s) (hs : [Part.free, .regs, .ledgers, .out, .flt, .pow, .ops, .hif, .mem, .pan, .cad, .mur] ⊆ ps) : Chg ps r (State.murError s a1 a2) := by
  unfold State.murError
  split
  · rename_i y0
    exact ((h.mFail (within hs (by decide))).mGo (within hs (by decide)))
  · rename_i y1
    split
    · rename_i y2 y3 y4
      exact (((h.epochLeave (within hs (by decide))).mRelease (within hs (by decide))).arrTake (within hs (by decide)))
    · rename_i y5 y6
      exact h
  · rename_i y7 y8 y9
    exact h

theorem Chg.reserveUe (h : Chg ps r s) (hs : [Part.free, .regs, .out, .flt, .hif, .mem, .cad, .mur, .sec] ⊆ ps) : Chg ps r (State.reserveUe s) := by
  unfold State.reserveUe
  extract_lets -underBinder v0 v1 v2 v3 v4
  clear_value v0
  have hv1 : Chg ps r v1 := by
    unfold v1
    exact (h.used (within hs (by decide)))
  clear_value v1
  clear_value v2
  have hv3 : Chg ps r v3 := by
    unfold v3
    exact (hv1.setJobKey (within hs (by decide)))
  clear_value v3
  clear_value v4
  exact (Chg.ite hv1 (Chg.ite (Chg.ite (hv1.loadFail (within hs (by decide))) (Chg.ite ((Chg.putSec hv1 (within hs (by decide))).setFld (within hs (by decide))) hv1)) (Chg.ite (Chg.putMur hv3 (within hs (by decide))) (hv1.setPairKey (within hs (by decide))))))

theorem Chg.secError {a1 a2} (h : Chg ps r s) (hs : [Part.free, .regs, .out, .flt, .hif, .mem, .cad, .mur, .sec] ⊆ ps) : Chg ps r (State.secError s a1 a2) := by
  unfold State.secError
  split
  · rename_i y0
    exact (h.reserveUe (within hs (by decide)))
  · rename_i y1
    exact (Chg.putSec h (within hs (by decide)))
  · rename_i y2
    extract_lets -underBinder v3 v4 v5
    have hv3 : Chg ps r v3 := by
      unfold v3
      exact ((h.countUp (within hs (by decide))).event (within hs (by decide)))
    clear_value v3
    have hv4 : Chg ps r v4 := by
      unfold v4
      exact (hv3.repairStart (within hs (by decide)))
    clear_value v4
    clear_value v5
    exact (Chg.putSec hv4 (within hs (by decide)))
  · rename_i y6 y7 y8 y9
    exact h

theorem Chg.wireError {a1} (h : Chg ps r s) (hs : [Part.regs, .out, .flt, .hif] ⊆ ps) : Chg ps r (State.wireError s a1) := by
  unfold State.wireError
  split
  · rename_i y0 y1 y2
    exact (Chg.ite (h.wireBroken (within hs (by decide))) h)
  · rename_i y3 y4
    exact h

theorem Chg.easUe (h : Chg ps r s) (hs : [Part.free, .ops, .srv] ⊆ ps) : Chg ps r (State.easUe s) := by
  unfold State.easUe
  split
  · rename_i y0 y1 y2 y3
    exact ((h.used (within hs (by decide))).seqFail (within hs (by decide)))
  · rename_i y4 y5
    exact (h.used (within hs (by decide)))

theorem Chg.errorEffect {a1 a2 a3} (h : Chg ps r s) (hs : [Part.free, .regs, .ledgers, .out, .flt, .pow, .ops, .hif, .mem, .pan, .cad, .srv, .vce, .mur, .ing, .mgt, .sec] ⊆ ps) : Chg ps r (State.errorEffect s a1 a2 a3) := by
  unfold State.errorEffect
  split
  · rename_i y0 y1
    exact (h.pnlError (within hs (by decide)))
  · rename_i y2 y3
    exact (Chg.ite (h.flitUe (within hs (by decide))) (Chg.ite (h.flitUe (within hs (by decide))) h))
  · rename_i y4 y5
    exact (h.cadError (within hs (by decide)))
  · rename_i y6 y7
    exact (h.countError (within hs (by decide)))
  · rename_i y8 y9
    exact (Chg.ite ((Chg.putOps h (within hs (by decide))).event (within hs (by decide))) h)
  · rename_i y10 y11
    exact (h.smpError (within hs (by decide)))
  · rename_i y12 y13
    exact (Chg.ite (h.seqFail (within hs (by decide))) h)
  · rename_i y14 y15
    exact (h.vceError (within hs (by decide)))
  · rename_i y16 y17
    exact (Chg.ite (h.countUp (within hs (by decide))) (Chg.ite (h.spareLost (within hs (by decide))) h))
  · rename_i y18 y19
    exact (Chg.ite (h.leafBad (within hs (by decide))) h)
  · rename_i y20 y21
    exact (h.murError (within hs (by decide)))
  · rename_i y22 y23
    exact (Chg.ite (h.portDown (within hs (by decide))) h)
  · rename_i y24 y25
    exact (Chg.ite (h.putStream (within hs (by decide))) h)
  · rename_i y26 y27
    exact (Chg.ite (Chg.putMgt h (within hs (by decide))) h)
  · rename_i y28 y29
    exact (h.secError (within hs (by decide)))
  · rename_i y30 y31
    exact (Chg.ite (h.wireError (within hs (by decide))) h)
  · rename_i y32 y33
    exact (Chg.ite (h.easUe (within hs (by decide))) h)
  · rename_i y34 y35 y36 y37 y38 y39 y40 y41 y42 y43 y44 y45 y46 y47 y48 y49 y50 y51
    exact h

theorem Chg.signalError {a1 a2 a3 a4} (h : Chg ps r s) (hs : [Part.free, .regs, .ledgers, .out, .flt, .pow, .ops, .hif, .mem, .pan, .cad, .srv, .vce, .mur, .ing, .mgt, .sec] ⊆ ps) : Chg ps r (State.signalError s a1 a2 a3 a4) := by
  unfold State.signalError
  extract_lets -underBinder v0
  clear_value v0
  exact (Chg.ite (Chg.ite (h.report (within hs (by decide))) (Chg.ite (h.memCe (within hs (by decide))) (Chg.ite (h.demandUe (within hs (by decide))) (Chg.ite (h.patrolUe (within hs (by decide))) (h.report (within hs (by decide))))))) (Chg.ite (h.mediaUe (within hs (by decide))) (Chg.ite (h.kvUe (within hs (by decide))) ((h.report (within hs (by decide))).errorEffect (within hs (by decide))))))

theorem Chg.execErrorSignal {a1 a2 a3 a4 a5} (h : Chg ps r s) (hs : [Part.free, .time, .regs, .ledgers, .out, .flt, .pow, .ops, .hif, .mem, .pan, .cad, .srv, .vce, .mur, .ing, .mgt, .sec] ⊆ ps) : ∃ t, execErrorSignal a1 a2 a3 a4 a5 s = .next t ∧ Chg ps r t := by
  refine ⟨_, rfl, ?_⟩
  exact (Chg.ite h ((((h.at (within hs (by decide))).signalError (within hs (by decide))).rolesSince (within hs (by decide))).strFenced (within hs (by decide))))

theorem Chg.execWirePoll {a1 a2} (h : Chg ps r s) (hs : [Part.free, .regs, .ledgers, .out, .flt, .pow, .ops, .hif, .mem, .pan, .cad, .ing] ⊆ ps) : ∃ t, execWirePoll a1 a2 s = .next t ∧ Chg ps r t := by
  refine ⟨_, rfl, ?_⟩
  refine Chg.ite ?_ ?_
  · exact h
  · extract_lets -underBinder v0 v1 v2
    clear_value v0
    clear_value v1
    have hv2 : Chg ps r v2 := by
      unfold v2
      exact (h.rebase (within hs (by decide)))
    clear_value v2
    exact (((Chg.foldl hv2 (fun _ _ h3 => (h3.collect (within hs (by decide))))).rolesSince (within hs (by decide))).strFenced (within hs (by decide)))

theorem Chg.execAggregatorCheckFail {a1} (h : Chg ps r s) (hs : [Part.free, .regs, .ledgers, .out, .flt, .pow, .ops, .hif, .mem, .pan, .cad, .ing] ⊆ ps) : ∃ t, execAggregatorCheckFail a1 s = .next t ∧ Chg ps r t := by
  refine ⟨_, rfl, ?_⟩
  refine Chg.ite ?_ ?_
  · exact h
  · extract_lets -underBinder v0 v1 v2
    clear_value v0
    have hv1 : Chg ps r v1 := by
      unfold v1
      exact (h.setFld (within hs (by decide)))
    clear_value v1
    have hv2 : Chg ps r v2 := by
      unfold v2
      exact (hv1.journal (within hs (by decide)))
    clear_value v2
    exact (Chg.ite (((Chg.foldl (hv2.report (within hs (by decide))) (fun _ _ h3 => (h3.faultFatal (within hs (by decide))))).rolesSince (within hs (by decide))).strFenced (within hs (by decide))) (Chg.ite (((hv2.setFld (within hs (by decide))).event (within hs (by decide))).report (within hs (by decide))) (hv2.report (within hs (by decide)))))

theorem Chg.fltInject {a1} (h : Chg ps r s) (hs : [Part.free, .regs, .rsv, .ledgers, .out, .flt, .pow, .ops, .hif, .mem, .pan, .cad, .ing] ⊆ ps) : Chg ps r (State.fltInject s a1) := by
  unfold State.fltInject
  extract_lets -underBinder v0 v1 v2 v3
  have hv0 : Chg ps r v0 := by
    unfold v0
    exact (h.noteRsv (within hs (by decide)))
  clear_value v0
  clear_value v1
  clear_value v2
  clear_value v3
  split
  · rename_i y4 y5 y6
    exact (Chg.ite (hv0.discard (within hs (by decide))) (((hv0.report (within hs (by decide))).rolesSince (within hs (by decide))).strFenced (within hs (by decide))))
  · rename_i y7 y8
    exact (hv0.discard (within hs (by decide)))

theorem Chg.execFltInject {a1} (h : Chg ps r s) (hs : [Part.free, .regs, .rsv, .ledgers, .out, .flt, .pow, .ops, .hif, .mem, .pan, .cad, .ing] ⊆ ps) : ∃ t, execFltInject a1 s = .next t ∧ Chg ps r t := by
  refine ⟨_, rfl, ?_⟩
  exact (h.via (fun _ h0 => (h0.fltInject (within hs (by decide)))) (within hs (by decide)))

theorem Chg.execLockstep {a1} (h : Chg ps r s) (hs : [Part.regs, .ledgers, .out, .flt, .pow, .hif, .pan, .cad] ⊆ ps) : ∃ t, execLockstep a1 s = .next t ∧ Chg ps r t := by
  refine ⟨_, rfl, ?_⟩
  exact ((h.discardPair (within hs (by decide))).rolesSince (within hs (by decide)))

theorem Chg.execPairLost (h : Chg ps r s) (hs : [Part.regs, .ledgers, .out, .flt, .pow, .hif, .pan, .cad] ⊆ ps) : ∃ t, execPairLost s = .next t ∧ Chg ps r t := by
  refine ⟨_, rfl, ?_⟩
  exact ((h.report (within hs (by decide))).rolesSince (within hs (by decide)))

theorem Chg.execWatchdog (h : Chg ps r s) (hs : [Part.regs, .ledgers, .out, .flt, .pow, .hif, .pan, .cad] ⊆ ps) : ∃ t, execWatchdog s = .next t ∧ Chg ps r t := by
  refine ⟨_, rfl, ?_⟩
  exact ((h.report (within hs (by decide))).rolesSince (within hs (by decide)))

theorem Chg.execClockSwitch (h : Chg ps r s) (hs : [Part.regs, .ledgers, .out, .flt, .pow, .hif, .pan, .cad] ⊆ ps) : ∃ t, execClockSwitch s = .next t ∧ Chg ps r t := by
  refine ⟨_, rfl, ?_⟩
  refine Chg.ite ?_ ?_
  · refine Chg.ite ?_ ?_
    · exact h
    · extract_lets -underBinder v0 v1
      clear_value v0
      have hv1 : Chg ps r v1 := by
        unfold v1
        exact (Chg.putFlt h (within hs (by decide)))
      clear_value v1
      exact (((hv1.journal (within hs (by decide))).report (within hs (by decide))).rolesSince (within hs (by decide)))
  · extract_lets -underBinder v2 v3 v4
    clear_value v2
    have hv3 : Chg ps r v3 := by
      unfold v3
      exact (Chg.putFlt h (within hs (by decide)))
    clear_value v3
    have hv4 : Chg ps r v4 := by
      unfold v4
      exact (hv3.journal (within hs (by decide)))
    clear_value v4
    exact ((hv4.setFld (within hs (by decide))).report (within hs (by decide)))

theorem Chg.execLedgerCheck {a1 a2} (h : Chg ps r s) (hs : [Part.free, .regs, .ledgers, .out, .flt, .pow, .ops, .hif, .mem, .pan, .cad, .ing] ⊆ ps) : ∃ t, execLedgerCheck a1 a2 s = .next t ∧ Chg ps r t := by
  refine ⟨_, rfl, ?_⟩
  refine Chg.ite ?_ ?_
  · exact h
  · extract_lets -underBinder v0 v1
    have hv0 : Chg ps r v0 := by
      unfold v0
      exact (Chg.ite (h.setWord (within hs (by decide))) h)
    clear_value v0
    have hv1 : Chg ps r v1 := by
      unfold v1
      exact (hv0.journal (within hs (by decide)))
    clear_value v1
    exact (((hv1.report (within hs (by decide))).rolesSince (within hs (by decide))).strFenced (within hs (by decide)))

end Sys2Proof.Machine
end

