-- ==== Sys2Proof/Laws/Fetch.lean ====
section
/-! SUPPORT. What each operation of Machine/Fetch.lean touches at most, and that it keeps the ledgers and the byte stores in form (Chg). -/

namespace Sys2Proof.Machine

open Sys2Proof

variable {ps : List Part} {r s t : State}



theorem Chg.acceptReq {a1 a2 a3} (h : Chg ps r s) (hs : [Part.regs, .ledgers, .out, .ops, .hif, .srv] ⊆ ps) : Chg ps r (State.acceptReq s a1 a2 a3) := by
  unfold State.acceptReq
  extract_lets -underBinder v0
  clear_value v0
  split
  · rename_i y1 y2
    split
    · rename_i y3 y4
      extract_lets -underBinder v5 v6
      have hv5 : Chg ps r v5 := by
        unfold v5
        exact ((h.enterSeq (within hs (by decide))).headUp (within hs (by decide)))
      clear_value v5
      exact (Chg.putSrv hv5 (within hs (by decide)))
    · rename_i y7 y8 y9 y10
      exact (((h.enterSeq (within hs (by decide))).refuse (within hs (by decide))).headUp (within hs (by decide)))
  · rename_i y11 y12
    exact (h.accept (within hs (by decide)))

theorem Chg.fetchRing {a1 a2 a3} (h : Chg ps r s) (hs : [Part.regs, .ledgers, .out, .flt, .pow, .ops, .hif, .mem, .pan, .cad, .srv] ⊆ ps) : Chg ps r (State.fetchRing s a1 a2 a3) := by
  unfold State.fetchRing
  refine Chg.ite ?_ ?_
  · exact h
  · extract_lets -underBinder v0
    generalize State.readDva _ _ _ _ = o1
    split
    · rename_i y2 y3 y4
      exact (h.slotFault (within hs (by decide)))
    · rename_i y5 y6 y7
      exact (Chg.ite (h.slotFault (within hs (by decide))) (Chg.ite (h.acceptReq (within hs (by decide))) (h.accept (within hs (by decide)))))

theorem Chg.execDescriptorFetch {a1 a2 a3} (h : Chg ps r s) (hs : [Part.time, .regs, .ledgers, .out, .flt, .pow, .ops, .hif, .mem, .pan, .cad, .srv] ⊆ ps) : ∃ t, execDescriptorFetch a1 a2 a3 s = .next t ∧ Chg ps r t := by
  refine ⟨_, rfl, ?_⟩
  split
  · rename_i y0 y1 y2
    exact ((h.at (within hs (by decide))).fetchRing (within hs (by decide)))
  · rename_i y3 y4
    exact ((h.at (within hs (by decide))).cadAccept (within hs (by decide)))

end Sys2Proof.Machine
end

