-- ==== Sys2Proof/Laws/State.lean ====
section
/-! SUPPORT. One lemma per field per update of the state, true by rfl: what an update leaves alone. -/

namespace Sys2Proof.Machine.State

open Sys2Proof

variable (s : State)

@[simp] theorem setWord_pending {p} {w} {v} : (s.setWord p w v).pending = s.pending := rfl
@[simp] theorem setWord_free {p} {w} {v} : (s.setWord p w v).free = s.free := rfl
@[simp] theorem setWord_time {p} {w} {v} : (s.setWord p w v).time = s.time := rfl
@[simp] theorem setWord_wide {p} {w} {v} : (s.setWord p w v).wide = s.wide := rfl
@[simp] theorem setWord_rsv {p} {w} {v} : (s.setWord p w v).rsv = s.rsv := rfl
@[simp] theorem setWord_ledgers {p} {w} {v} : (s.setWord p w v).ledgers = s.ledgers := rfl
@[simp] theorem setWord_out {p} {w} {v} : (s.setWord p w v).out = s.out := rfl
@[simp] theorem setWord_reply {p} {w} {v} : (s.setWord p w v).reply = s.reply := rfl
@[simp] theorem setWord_flt {p} {w} {v} : (s.setWord p w v).flt = s.flt := rfl
@[simp] theorem setWord_pow {p} {w} {v} : (s.setWord p w v).pow = s.pow := rfl
@[simp] theorem setWord_ops {p} {w} {v} : (s.setWord p w v).ops = s.ops := rfl
@[simp] theorem setWord_hif {p} {w} {v} : (s.setWord p w v).hif = s.hif := rfl
@[simp] theorem setWord_mem {p} {w} {v} : (s.setWord p w v).mem = s.mem := rfl
@[simp] theorem setWord_pan {p} {w} {v} : (s.setWord p w v).pan = s.pan := rfl
@[simp] theorem setWord_cad {p} {w} {v} : (s.setWord p w v).cad = s.cad := rfl
@[simp] theorem setWord_srv {p} {w} {v} : (s.setWord p w v).srv = s.srv := rfl
@[simp] theorem setWord_vce {p} {w} {v} : (s.setWord p w v).vce = s.vce := rfl
@[simp] theorem setWord_mur {p} {w} {v} : (s.setWord p w v).mur = s.mur := rfl
@[simp] theorem setWord_ing {p} {w} {v} : (s.setWord p w v).ing = s.ing := rfl
@[simp] theorem setWord_mgt {p} {w} {v} : (s.setWord p w v).mgt = s.mgt := rfl
@[simp] theorem setWord_sec {p} {w} {v} : (s.setWord p w v).sec = s.sec := rfl

@[simp] theorem setWide_pending {p} {w} {v} : (s.setWide p w v).pending = s.pending := rfl
@[simp] theorem setWide_free {p} {w} {v} : (s.setWide p w v).free = s.free := rfl
@[simp] theorem setWide_time {p} {w} {v} : (s.setWide p w v).time = s.time := rfl
@[simp] theorem setWide_regs {p} {w} {v} : (s.setWide p w v).regs = s.regs := rfl
@[simp] theorem setWide_rsv {p} {w} {v} : (s.setWide p w v).rsv = s.rsv := rfl
@[simp] theorem setWide_ledgers {p} {w} {v} : (s.setWide p w v).ledgers = s.ledgers := rfl
@[simp] theorem setWide_out {p} {w} {v} : (s.setWide p w v).out = s.out := rfl
@[simp] theorem setWide_reply {p} {w} {v} : (s.setWide p w v).reply = s.reply := rfl
@[simp] theorem setWide_flt {p} {w} {v} : (s.setWide p w v).flt = s.flt := rfl
@[simp] theorem setWide_pow {p} {w} {v} : (s.setWide p w v).pow = s.pow := rfl
@[simp] theorem setWide_ops {p} {w} {v} : (s.setWide p w v).ops = s.ops := rfl
@[simp] theorem setWide_hif {p} {w} {v} : (s.setWide p w v).hif = s.hif := rfl
@[simp] theorem setWide_mem {p} {w} {v} : (s.setWide p w v).mem = s.mem := rfl
@[simp] theorem setWide_pan {p} {w} {v} : (s.setWide p w v).pan = s.pan := rfl
@[simp] theorem setWide_cad {p} {w} {v} : (s.setWide p w v).cad = s.cad := rfl
@[simp] theorem setWide_srv {p} {w} {v} : (s.setWide p w v).srv = s.srv := rfl
@[simp] theorem setWide_vce {p} {w} {v} : (s.setWide p w v).vce = s.vce := rfl
@[simp] theorem setWide_mur {p} {w} {v} : (s.setWide p w v).mur = s.mur := rfl
@[simp] theorem setWide_ing {p} {w} {v} : (s.setWide p w v).ing = s.ing := rfl
@[simp] theorem setWide_mgt {p} {w} {v} : (s.setWide p w v).mgt = s.mgt := rfl
@[simp] theorem setWide_sec {p} {w} {v} : (s.setWide p w v).sec = s.sec := rfl

@[simp] theorem emit_pending {o} : (s.emit o).pending = s.pending := rfl
@[simp] theorem emit_free {o} : (s.emit o).free = s.free := rfl
@[simp] theorem emit_time {o} : (s.emit o).time = s.time := rfl
@[simp] theorem emit_regs {o} : (s.emit o).regs = s.regs := rfl
@[simp] theorem emit_wide {o} : (s.emit o).wide = s.wide := rfl
@[simp] theorem emit_rsv {o} : (s.emit o).rsv = s.rsv := rfl
@[simp] theorem emit_ledgers {o} : (s.emit o).ledgers = s.ledgers := rfl
@[simp] theorem emit_reply {o} : (s.emit o).reply = s.reply := rfl
@[simp] theorem emit_flt {o} : (s.emit o).flt = s.flt := rfl
@[simp] theorem emit_pow {o} : (s.emit o).pow = s.pow := rfl
@[simp] theorem emit_ops {o} : (s.emit o).ops = s.ops := rfl
@[simp] theorem emit_hif {o} : (s.emit o).hif = s.hif := rfl
@[simp] theorem emit_mem {o} : (s.emit o).mem = s.mem := rfl
@[simp] theorem emit_pan {o} : (s.emit o).pan = s.pan := rfl
@[simp] theorem emit_cad {o} : (s.emit o).cad = s.cad := rfl
@[simp] theorem emit_srv {o} : (s.emit o).srv = s.srv := rfl
@[simp] theorem emit_vce {o} : (s.emit o).vce = s.vce := rfl
@[simp] theorem emit_mur {o} : (s.emit o).mur = s.mur := rfl
@[simp] theorem emit_ing {o} : (s.emit o).ing = s.ing := rfl
@[simp] theorem emit_mgt {o} : (s.emit o).mgt = s.mgt := rfl
@[simp] theorem emit_sec {o} : (s.emit o).sec = s.sec := rfl

@[simp] theorem answer_pending {v} : (s.answer v).pending = s.pending := rfl
@[simp] theorem answer_free {v} : (s.answer v).free = s.free := rfl
@[simp] theorem answer_time {v} : (s.answer v).time = s.time := rfl
@[simp] theorem answer_regs {v} : (s.answer v).regs = s.regs := rfl
@[simp] theorem answer_wide {v} : (s.answer v).wide = s.wide := rfl
@[simp] theorem answer_rsv {v} : (s.answer v).rsv = s.rsv := rfl
@[simp] theorem answer_ledgers {v} : (s.answer v).ledgers = s.ledgers := rfl
@[simp] theorem answer_out {v} : (s.answer v).out = s.out := rfl
@[simp] theorem answer_flt {v} : (s.answer v).flt = s.flt := rfl
@[simp] theorem answer_pow {v} : (s.answer v).pow = s.pow := rfl
@[simp] theorem answer_ops {v} : (s.answer v).ops = s.ops := rfl
@[simp] theorem answer_hif {v} : (s.answer v).hif = s.hif := rfl
@[simp] theorem answer_mem {v} : (s.answer v).mem = s.mem := rfl
@[simp] theorem answer_pan {v} : (s.answer v).pan = s.pan := rfl
@[simp] theorem answer_cad {v} : (s.answer v).cad = s.cad := rfl
@[simp] theorem answer_srv {v} : (s.answer v).srv = s.srv := rfl
@[simp] theorem answer_vce {v} : (s.answer v).vce = s.vce := rfl
@[simp] theorem answer_mur {v} : (s.answer v).mur = s.mur := rfl
@[simp] theorem answer_ing {v} : (s.answer v).ing = s.ing := rfl
@[simp] theorem answer_mgt {v} : (s.answer v).mgt = s.mgt := rfl
@[simp] theorem answer_sec {v} : (s.answer v).sec = s.sec := rfl

@[simp] theorem used_pending  : (s.used).pending = s.pending := rfl
@[simp] theorem used_time  : (s.used).time = s.time := rfl
@[simp] theorem used_regs  : (s.used).regs = s.regs := rfl
@[simp] theorem used_wide  : (s.used).wide = s.wide := rfl
@[simp] theorem used_rsv  : (s.used).rsv = s.rsv := rfl
@[simp] theorem used_ledgers  : (s.used).ledgers = s.ledgers := rfl
@[simp] theorem used_out  : (s.used).out = s.out := rfl
@[simp] theorem used_reply  : (s.used).reply = s.reply := rfl
@[simp] theorem used_flt  : (s.used).flt = s.flt := rfl
@[simp] theorem used_pow  : (s.used).pow = s.pow := rfl
@[simp] theorem used_ops  : (s.used).ops = s.ops := rfl
@[simp] theorem used_hif  : (s.used).hif = s.hif := rfl
@[simp] theorem used_mem  : (s.used).mem = s.mem := rfl
@[simp] theorem used_pan  : (s.used).pan = s.pan := rfl
@[simp] theorem used_cad  : (s.used).cad = s.cad := rfl
@[simp] theorem used_srv  : (s.used).srv = s.srv := rfl
@[simp] theorem used_vce  : (s.used).vce = s.vce := rfl
@[simp] theorem used_mur  : (s.used).mur = s.mur := rfl
@[simp] theorem used_ing  : (s.used).ing = s.ing := rfl
@[simp] theorem used_mgt  : (s.used).mgt = s.mgt := rfl
@[simp] theorem used_sec  : (s.used).sec = s.sec := rfl

@[simp] theorem at_pending {t} : (s.at t).pending = s.pending := rfl
@[simp] theorem at_free {t} : (s.at t).free = s.free := rfl
@[simp] theorem at_regs {t} : (s.at t).regs = s.regs := rfl
@[simp] theorem at_wide {t} : (s.at t).wide = s.wide := rfl
@[simp] theorem at_rsv {t} : (s.at t).rsv = s.rsv := rfl
@[simp] theorem at_ledgers {t} : (s.at t).ledgers = s.ledgers := rfl
@[simp] theorem at_out {t} : (s.at t).out = s.out := rfl
@[simp] theorem at_reply {t} : (s.at t).reply = s.reply := rfl
@[simp] theorem at_flt {t} : (s.at t).flt = s.flt := rfl
@[simp] theorem at_pow {t} : (s.at t).pow = s.pow := rfl
@[simp] theorem at_ops {t} : (s.at t).ops = s.ops := rfl
@[simp] theorem at_hif {t} : (s.at t).hif = s.hif := rfl
@[simp] theorem at_mem {t} : (s.at t).mem = s.mem := rfl
@[simp] theorem at_pan {t} : (s.at t).pan = s.pan := rfl
@[simp] theorem at_cad {t} : (s.at t).cad = s.cad := rfl
@[simp] theorem at_srv {t} : (s.at t).srv = s.srv := rfl
@[simp] theorem at_vce {t} : (s.at t).vce = s.vce := rfl
@[simp] theorem at_mur {t} : (s.at t).mur = s.mur := rfl
@[simp] theorem at_ing {t} : (s.at t).ing = s.ing := rfl
@[simp] theorem at_mgt {t} : (s.at t).mgt = s.mgt := rfl
@[simp] theorem at_sec {t} : (s.at t).sec = s.sec := rfl

@[simp] theorem setLedger_pending {p} {i} {l} : (s.setLedger p i l).pending = s.pending := rfl
@[simp] theorem setLedger_free {p} {i} {l} : (s.setLedger p i l).free = s.free := rfl
@[simp] theorem setLedger_time {p} {i} {l} : (s.setLedger p i l).time = s.time := rfl
@[simp] theorem setLedger_regs {p} {i} {l} : (s.setLedger p i l).regs = s.regs := rfl
@[simp] theorem setLedger_wide {p} {i} {l} : (s.setLedger p i l).wide = s.wide := rfl
@[simp] theorem setLedger_rsv {p} {i} {l} : (s.setLedger p i l).rsv = s.rsv := rfl
@[simp] theorem setLedger_out {p} {i} {l} : (s.setLedger p i l).out = s.out := rfl
@[simp] theorem setLedger_reply {p} {i} {l} : (s.setLedger p i l).reply = s.reply := rfl
@[simp] theorem setLedger_flt {p} {i} {l} : (s.setLedger p i l).flt = s.flt := rfl
@[simp] theorem setLedger_pow {p} {i} {l} : (s.setLedger p i l).pow = s.pow := rfl
@[simp] theorem setLedger_ops {p} {i} {l} : (s.setLedger p i l).ops = s.ops := rfl
@[simp] theorem setLedger_hif {p} {i} {l} : (s.setLedger p i l).hif = s.hif := rfl
@[simp] theorem setLedger_mem {p} {i} {l} : (s.setLedger p i l).mem = s.mem := rfl
@[simp] theorem setLedger_pan {p} {i} {l} : (s.setLedger p i l).pan = s.pan := rfl
@[simp] theorem setLedger_cad {p} {i} {l} : (s.setLedger p i l).cad = s.cad := rfl
@[simp] theorem setLedger_srv {p} {i} {l} : (s.setLedger p i l).srv = s.srv := rfl
@[simp] theorem setLedger_vce {p} {i} {l} : (s.setLedger p i l).vce = s.vce := rfl
@[simp] theorem setLedger_mur {p} {i} {l} : (s.setLedger p i l).mur = s.mur := rfl
@[simp] theorem setLedger_ing {p} {i} {l} : (s.setLedger p i l).ing = s.ing := rfl
@[simp] theorem setLedger_mgt {p} {i} {l} : (s.setLedger p i l).mgt = s.mgt := rfl
@[simp] theorem setLedger_sec {p} {i} {l} : (s.setLedger p i l).sec = s.sec := rfl

@[simp] theorem setPanel_pending {p} {x} : (s.setPanel p x).pending = s.pending := rfl
@[simp] theorem setPanel_free {p} {x} : (s.setPanel p x).free = s.free := rfl
@[simp] theorem setPanel_time {p} {x} : (s.setPanel p x).time = s.time := rfl
@[simp] theorem setPanel_regs {p} {x} : (s.setPanel p x).regs = s.regs := rfl
@[simp] theorem setPanel_wide {p} {x} : (s.setPanel p x).wide = s.wide := rfl
@[simp] theorem setPanel_rsv {p} {x} : (s.setPanel p x).rsv = s.rsv := rfl
@[simp] theorem setPanel_ledgers {p} {x} : (s.setPanel p x).ledgers = s.ledgers := rfl
@[simp] theorem setPanel_out {p} {x} : (s.setPanel p x).out = s.out := rfl
@[simp] theorem setPanel_reply {p} {x} : (s.setPanel p x).reply = s.reply := rfl
@[simp] theorem setPanel_flt {p} {x} : (s.setPanel p x).flt = s.flt := rfl
@[simp] theorem setPanel_pow {p} {x} : (s.setPanel p x).pow = s.pow := rfl
@[simp] theorem setPanel_ops {p} {x} : (s.setPanel p x).ops = s.ops := rfl
@[simp] theorem setPanel_hif {p} {x} : (s.setPanel p x).hif = s.hif := rfl
@[simp] theorem setPanel_mem {p} {x} : (s.setPanel p x).mem = s.mem := rfl
@[simp] theorem setPanel_cad {p} {x} : (s.setPanel p x).cad = s.cad := rfl
@[simp] theorem setPanel_srv {p} {x} : (s.setPanel p x).srv = s.srv := rfl
@[simp] theorem setPanel_vce {p} {x} : (s.setPanel p x).vce = s.vce := rfl
@[simp] theorem setPanel_mur {p} {x} : (s.setPanel p x).mur = s.mur := rfl
@[simp] theorem setPanel_ing {p} {x} : (s.setPanel p x).ing = s.ing := rfl
@[simp] theorem setPanel_mgt {p} {x} : (s.setPanel p x).mgt = s.mgt := rfl
@[simp] theorem setPanel_sec {p} {x} : (s.setPanel p x).sec = s.sec := rfl

@[simp] theorem setCanvas_pending {c} {x} : (s.setCanvas c x).pending = s.pending := rfl
@[simp] theorem setCanvas_free {c} {x} : (s.setCanvas c x).free = s.free := rfl
@[simp] theorem setCanvas_time {c} {x} : (s.setCanvas c x).time = s.time := rfl
@[simp] theorem setCanvas_regs {c} {x} : (s.setCanvas c x).regs = s.regs := rfl
@[simp] theorem setCanvas_wide {c} {x} : (s.setCanvas c x).wide = s.wide := rfl
@[simp] theorem setCanvas_rsv {c} {x} : (s.setCanvas c x).rsv = s.rsv := rfl
@[simp] theorem setCanvas_ledgers {c} {x} : (s.setCanvas c x).ledgers = s.ledgers := rfl
@[simp] theorem setCanvas_out {c} {x} : (s.setCanvas c x).out = s.out := rfl
@[simp] theorem setCanvas_reply {c} {x} : (s.setCanvas c x).reply = s.reply := rfl
@[simp] theorem setCanvas_flt {c} {x} : (s.setCanvas c x).flt = s.flt := rfl
@[simp] theorem setCanvas_pow {c} {x} : (s.setCanvas c x).pow = s.pow := rfl
@[simp] theorem setCanvas_ops {c} {x} : (s.setCanvas c x).ops = s.ops := rfl
@[simp] theorem setCanvas_hif {c} {x} : (s.setCanvas c x).hif = s.hif := rfl
@[simp] theorem setCanvas_mem {c} {x} : (s.setCanvas c x).mem = s.mem := rfl
@[simp] theorem setCanvas_cad {c} {x} : (s.setCanvas c x).cad = s.cad := rfl
@[simp] theorem setCanvas_srv {c} {x} : (s.setCanvas c x).srv = s.srv := rfl
@[simp] theorem setCanvas_vce {c} {x} : (s.setCanvas c x).vce = s.vce := rfl
@[simp] theorem setCanvas_mur {c} {x} : (s.setCanvas c x).mur = s.mur := rfl
@[simp] theorem setCanvas_ing {c} {x} : (s.setCanvas c x).ing = s.ing := rfl
@[simp] theorem setCanvas_mgt {c} {x} : (s.setCanvas c x).mgt = s.mgt := rfl
@[simp] theorem setCanvas_sec {c} {x} : (s.setCanvas c x).sec = s.sec := rfl

@[simp] theorem setTenant_pending {t} {x} : (s.setTenant t x).pending = s.pending := rfl
@[simp] theorem setTenant_free {t} {x} : (s.setTenant t x).free = s.free := rfl
@[simp] theorem setTenant_time {t} {x} : (s.setTenant t x).time = s.time := rfl
@[simp] theorem setTenant_regs {t} {x} : (s.setTenant t x).regs = s.regs := rfl
@[simp] theorem setTenant_wide {t} {x} : (s.setTenant t x).wide = s.wide := rfl
@[simp] theorem setTenant_rsv {t} {x} : (s.setTenant t x).rsv = s.rsv := rfl
@[simp] theorem setTenant_ledgers {t} {x} : (s.setTenant t x).ledgers = s.ledgers := rfl
@[simp] theorem setTenant_out {t} {x} : (s.setTenant t x).out = s.out := rfl
@[simp] theorem setTenant_reply {t} {x} : (s.setTenant t x).reply = s.reply := rfl
@[simp] theorem setTenant_flt {t} {x} : (s.setTenant t x).flt = s.flt := rfl
@[simp] theorem setTenant_pow {t} {x} : (s.setTenant t x).pow = s.pow := rfl
@[simp] theorem setTenant_ops {t} {x} : (s.setTenant t x).ops = s.ops := rfl
@[simp] theorem setTenant_mem {t} {x} : (s.setTenant t x).mem = s.mem := rfl
@[simp] theorem setTenant_pan {t} {x} : (s.setTenant t x).pan = s.pan := rfl
@[simp] theorem setTenant_cad {t} {x} : (s.setTenant t x).cad = s.cad := rfl
@[simp] theorem setTenant_srv {t} {x} : (s.setTenant t x).srv = s.srv := rfl
@[simp] theorem setTenant_vce {t} {x} : (s.setTenant t x).vce = s.vce := rfl
@[simp] theorem setTenant_mur {t} {x} : (s.setTenant t x).mur = s.mur := rfl
@[simp] theorem setTenant_ing {t} {x} : (s.setTenant t x).ing = s.ing := rfl
@[simp] theorem setTenant_mgt {t} {x} : (s.setTenant t x).mgt = s.mgt := rfl
@[simp] theorem setTenant_sec {t} {x} : (s.setTenant t x).sec = s.sec := rfl

@[simp] theorem setRef_pending {i} {x} : (s.setRef i x).pending = s.pending := rfl
@[simp] theorem setRef_free {i} {x} : (s.setRef i x).free = s.free := rfl
@[simp] theorem setRef_time {i} {x} : (s.setRef i x).time = s.time := rfl
@[simp] theorem setRef_regs {i} {x} : (s.setRef i x).regs = s.regs := rfl
@[simp] theorem setRef_wide {i} {x} : (s.setRef i x).wide = s.wide := rfl
@[simp] theorem setRef_rsv {i} {x} : (s.setRef i x).rsv = s.rsv := rfl
@[simp] theorem setRef_ledgers {i} {x} : (s.setRef i x).ledgers = s.ledgers := rfl
@[simp] theorem setRef_out {i} {x} : (s.setRef i x).out = s.out := rfl
@[simp] theorem setRef_reply {i} {x} : (s.setRef i x).reply = s.reply := rfl
@[simp] theorem setRef_flt {i} {x} : (s.setRef i x).flt = s.flt := rfl
@[simp] theorem setRef_pow {i} {x} : (s.setRef i x).pow = s.pow := rfl
@[simp] theorem setRef_ops {i} {x} : (s.setRef i x).ops = s.ops := rfl
@[simp] theorem setRef_hif {i} {x} : (s.setRef i x).hif = s.hif := rfl
@[simp] theorem setRef_mem {i} {x} : (s.setRef i x).mem = s.mem := rfl
@[simp] theorem setRef_pan {i} {x} : (s.setRef i x).pan = s.pan := rfl
@[simp] theorem setRef_srv {i} {x} : (s.setRef i x).srv = s.srv := rfl
@[simp] theorem setRef_vce {i} {x} : (s.setRef i x).vce = s.vce := rfl
@[simp] theorem setRef_mur {i} {x} : (s.setRef i x).mur = s.mur := rfl
@[simp] theorem setRef_ing {i} {x} : (s.setRef i x).ing = s.ing := rfl
@[simp] theorem setRef_mgt {i} {x} : (s.setRef i x).mgt = s.mgt := rfl
@[simp] theorem setRef_sec {i} {x} : (s.setRef i x).sec = s.sec := rfl

@[simp] theorem setDom_pending {d} {x} : (s.setDom d x).pending = s.pending := rfl
@[simp] theorem setDom_free {d} {x} : (s.setDom d x).free = s.free := rfl
@[simp] theorem setDom_time {d} {x} : (s.setDom d x).time = s.time := rfl
@[simp] theorem setDom_regs {d} {x} : (s.setDom d x).regs = s.regs := rfl
@[simp] theorem setDom_wide {d} {x} : (s.setDom d x).wide = s.wide := rfl
@[simp] theorem setDom_rsv {d} {x} : (s.setDom d x).rsv = s.rsv := rfl
@[simp] theorem setDom_ledgers {d} {x} : (s.setDom d x).ledgers = s.ledgers := rfl
@[simp] theorem setDom_out {d} {x} : (s.setDom d x).out = s.out := rfl
@[simp] theorem setDom_reply {d} {x} : (s.setDom d x).reply = s.reply := rfl
@[simp] theorem setDom_flt {d} {x} : (s.setDom d x).flt = s.flt := rfl
@[simp] theorem setDom_pow {d} {x} : (s.setDom d x).pow = s.pow := rfl
@[simp] theorem setDom_ops {d} {x} : (s.setDom d x).ops = s.ops := rfl
@[simp] theorem setDom_hif {d} {x} : (s.setDom d x).hif = s.hif := rfl
@[simp] theorem setDom_mem {d} {x} : (s.setDom d x).mem = s.mem := rfl
@[simp] theorem setDom_pan {d} {x} : (s.setDom d x).pan = s.pan := rfl
@[simp] theorem setDom_srv {d} {x} : (s.setDom d x).srv = s.srv := rfl
@[simp] theorem setDom_vce {d} {x} : (s.setDom d x).vce = s.vce := rfl
@[simp] theorem setDom_mur {d} {x} : (s.setDom d x).mur = s.mur := rfl
@[simp] theorem setDom_ing {d} {x} : (s.setDom d x).ing = s.ing := rfl
@[simp] theorem setDom_mgt {d} {x} : (s.setDom d x).mgt = s.mgt := rfl
@[simp] theorem setDom_sec {d} {x} : (s.setDom d x).sec = s.sec := rfl

@[simp] theorem setDip_pending {x} : (s.setDip x).pending = s.pending := rfl
@[simp] theorem setDip_free {x} : (s.setDip x).free = s.free := rfl
@[simp] theorem setDip_time {x} : (s.setDip x).time = s.time := rfl
@[simp] theorem setDip_regs {x} : (s.setDip x).regs = s.regs := rfl
@[simp] theorem setDip_wide {x} : (s.setDip x).wide = s.wide := rfl
@[simp] theorem setDip_rsv {x} : (s.setDip x).rsv = s.rsv := rfl
@[simp] theorem setDip_ledgers {x} : (s.setDip x).ledgers = s.ledgers := rfl
@[simp] theorem setDip_out {x} : (s.setDip x).out = s.out := rfl
@[simp] theorem setDip_reply {x} : (s.setDip x).reply = s.reply := rfl
@[simp] theorem setDip_flt {x} : (s.setDip x).flt = s.flt := rfl
@[simp] theorem setDip_pow {x} : (s.setDip x).pow = s.pow := rfl
@[simp] theorem setDip_ops {x} : (s.setDip x).ops = s.ops := rfl
@[simp] theorem setDip_hif {x} : (s.setDip x).hif = s.hif := rfl
@[simp] theorem setDip_mem {x} : (s.setDip x).mem = s.mem := rfl
@[simp] theorem setDip_pan {x} : (s.setDip x).pan = s.pan := rfl
@[simp] theorem setDip_srv {x} : (s.setDip x).srv = s.srv := rfl
@[simp] theorem setDip_vce {x} : (s.setDip x).vce = s.vce := rfl
@[simp] theorem setDip_mur {x} : (s.setDip x).mur = s.mur := rfl
@[simp] theorem setDip_ing {x} : (s.setDip x).ing = s.ing := rfl
@[simp] theorem setDip_mgt {x} : (s.setDip x).mgt = s.mgt := rfl
@[simp] theorem setDip_sec {x} : (s.setDip x).sec = s.sec := rfl

@[simp] theorem setOp_pending {t} {o} : (s.setOp t o).pending = s.pending := rfl
@[simp] theorem setOp_free {t} {o} : (s.setOp t o).free = s.free := rfl
@[simp] theorem setOp_time {t} {o} : (s.setOp t o).time = s.time := rfl
@[simp] theorem setOp_regs {t} {o} : (s.setOp t o).regs = s.regs := rfl
@[simp] theorem setOp_wide {t} {o} : (s.setOp t o).wide = s.wide := rfl
@[simp] theorem setOp_rsv {t} {o} : (s.setOp t o).rsv = s.rsv := rfl
@[simp] theorem setOp_ledgers {t} {o} : (s.setOp t o).ledgers = s.ledgers := rfl
@[simp] theorem setOp_out {t} {o} : (s.setOp t o).out = s.out := rfl
@[simp] theorem setOp_reply {t} {o} : (s.setOp t o).reply = s.reply := rfl
@[simp] theorem setOp_flt {t} {o} : (s.setOp t o).flt = s.flt := rfl
@[simp] theorem setOp_pow {t} {o} : (s.setOp t o).pow = s.pow := rfl
@[simp] theorem setOp_hif {t} {o} : (s.setOp t o).hif = s.hif := rfl
@[simp] theorem setOp_mem {t} {o} : (s.setOp t o).mem = s.mem := rfl
@[simp] theorem setOp_pan {t} {o} : (s.setOp t o).pan = s.pan := rfl
@[simp] theorem setOp_cad {t} {o} : (s.setOp t o).cad = s.cad := rfl
@[simp] theorem setOp_srv {t} {o} : (s.setOp t o).srv = s.srv := rfl
@[simp] theorem setOp_vce {t} {o} : (s.setOp t o).vce = s.vce := rfl
@[simp] theorem setOp_mur {t} {o} : (s.setOp t o).mur = s.mur := rfl
@[simp] theorem setOp_ing {t} {o} : (s.setOp t o).ing = s.ing := rfl
@[simp] theorem setOp_mgt {t} {o} : (s.setOp t o).mgt = s.mgt := rfl
@[simp] theorem setOp_sec {t} {o} : (s.setOp t o).sec = s.sec := rfl

@[simp] theorem dropOp_pending {t} : (s.dropOp t).pending = s.pending := rfl
@[simp] theorem dropOp_free {t} : (s.dropOp t).free = s.free := rfl
@[simp] theorem dropOp_time {t} : (s.dropOp t).time = s.time := rfl
@[simp] theorem dropOp_regs {t} : (s.dropOp t).regs = s.regs := rfl
@[simp] theorem dropOp_wide {t} : (s.dropOp t).wide = s.wide := rfl
@[simp] theorem dropOp_rsv {t} : (s.dropOp t).rsv = s.rsv := rfl
@[simp] theorem dropOp_ledgers {t} : (s.dropOp t).ledgers = s.ledgers := rfl
@[simp] theorem dropOp_out {t} : (s.dropOp t).out = s.out := rfl
@[simp] theorem dropOp_reply {t} : (s.dropOp t).reply = s.reply := rfl
@[simp] theorem dropOp_flt {t} : (s.dropOp t).flt = s.flt := rfl
@[simp] theorem dropOp_pow {t} : (s.dropOp t).pow = s.pow := rfl
@[simp] theorem dropOp_hif {t} : (s.dropOp t).hif = s.hif := rfl
@[simp] theorem dropOp_mem {t} : (s.dropOp t).mem = s.mem := rfl
@[simp] theorem dropOp_pan {t} : (s.dropOp t).pan = s.pan := rfl
@[simp] theorem dropOp_cad {t} : (s.dropOp t).cad = s.cad := rfl
@[simp] theorem dropOp_srv {t} : (s.dropOp t).srv = s.srv := rfl
@[simp] theorem dropOp_vce {t} : (s.dropOp t).vce = s.vce := rfl
@[simp] theorem dropOp_mur {t} : (s.dropOp t).mur = s.mur := rfl
@[simp] theorem dropOp_ing {t} : (s.dropOp t).ing = s.ing := rfl
@[simp] theorem dropOp_mgt {t} : (s.dropOp t).mgt = s.mgt := rfl
@[simp] theorem dropOp_sec {t} : (s.dropOp t).sec = s.sec := rfl

@[simp] theorem setRing_pending {t} {r} {x} : (s.setRing t r x).pending = s.pending := rfl
@[simp] theorem setRing_free {t} {r} {x} : (s.setRing t r x).free = s.free := rfl
@[simp] theorem setRing_time {t} {r} {x} : (s.setRing t r x).time = s.time := rfl
@[simp] theorem setRing_regs {t} {r} {x} : (s.setRing t r x).regs = s.regs := rfl
@[simp] theorem setRing_wide {t} {r} {x} : (s.setRing t r x).wide = s.wide := rfl
@[simp] theorem setRing_rsv {t} {r} {x} : (s.setRing t r x).rsv = s.rsv := rfl
@[simp] theorem setRing_ledgers {t} {r} {x} : (s.setRing t r x).ledgers = s.ledgers := rfl
@[simp] theorem setRing_out {t} {r} {x} : (s.setRing t r x).out = s.out := rfl
@[simp] theorem setRing_reply {t} {r} {x} : (s.setRing t r x).reply = s.reply := rfl
@[simp] theorem setRing_flt {t} {r} {x} : (s.setRing t r x).flt = s.flt := rfl
@[simp] theorem setRing_pow {t} {r} {x} : (s.setRing t r x).pow = s.pow := rfl
@[simp] theorem setRing_hif {t} {r} {x} : (s.setRing t r x).hif = s.hif := rfl
@[simp] theorem setRing_mem {t} {r} {x} : (s.setRing t r x).mem = s.mem := rfl
@[simp] theorem setRing_pan {t} {r} {x} : (s.setRing t r x).pan = s.pan := rfl
@[simp] theorem setRing_cad {t} {r} {x} : (s.setRing t r x).cad = s.cad := rfl
@[simp] theorem setRing_srv {t} {r} {x} : (s.setRing t r x).srv = s.srv := rfl
@[simp] theorem setRing_vce {t} {r} {x} : (s.setRing t r x).vce = s.vce := rfl
@[simp] theorem setRing_mur {t} {r} {x} : (s.setRing t r x).mur = s.mur := rfl
@[simp] theorem setRing_ing {t} {r} {x} : (s.setRing t r x).ing = s.ing := rfl
@[simp] theorem setRing_mgt {t} {r} {x} : (s.setRing t r x).mgt = s.mgt := rfl
@[simp] theorem setRing_sec {t} {r} {x} : (s.setRing t r x).sec = s.sec := rfl

@[simp] theorem setCq_pending {t} {q} {x} : (s.setCq t q x).pending = s.pending := rfl
@[simp] theorem setCq_free {t} {q} {x} : (s.setCq t q x).free = s.free := rfl
@[simp] theorem setCq_time {t} {q} {x} : (s.setCq t q x).time = s.time := rfl
@[simp] theorem setCq_regs {t} {q} {x} : (s.setCq t q x).regs = s.regs := rfl
@[simp] theorem setCq_wide {t} {q} {x} : (s.setCq t q x).wide = s.wide := rfl
@[simp] theorem setCq_rsv {t} {q} {x} : (s.setCq t q x).rsv = s.rsv := rfl
@[simp] theorem setCq_ledgers {t} {q} {x} : (s.setCq t q x).ledgers = s.ledgers := rfl
@[simp] theorem setCq_out {t} {q} {x} : (s.setCq t q x).out = s.out := rfl
@[simp] theorem setCq_reply {t} {q} {x} : (s.setCq t q x).reply = s.reply := rfl
@[simp] theorem setCq_flt {t} {q} {x} : (s.setCq t q x).flt = s.flt := rfl
@[simp] theorem setCq_pow {t} {q} {x} : (s.setCq t q x).pow = s.pow := rfl
@[simp] theorem setCq_hif {t} {q} {x} : (s.setCq t q x).hif = s.hif := rfl
@[simp] theorem setCq_mem {t} {q} {x} : (s.setCq t q x).mem = s.mem := rfl
@[simp] theorem setCq_pan {t} {q} {x} : (s.setCq t q x).pan = s.pan := rfl
@[simp] theorem setCq_cad {t} {q} {x} : (s.setCq t q x).cad = s.cad := rfl
@[simp] theorem setCq_srv {t} {q} {x} : (s.setCq t q x).srv = s.srv := rfl
@[simp] theorem setCq_vce {t} {q} {x} : (s.setCq t q x).vce = s.vce := rfl
@[simp] theorem setCq_mur {t} {q} {x} : (s.setCq t q x).mur = s.mur := rfl
@[simp] theorem setCq_ing {t} {q} {x} : (s.setCq t q x).ing = s.ing := rfl
@[simp] theorem setCq_mgt {t} {q} {x} : (s.setCq t q x).mgt = s.mgt := rfl
@[simp] theorem setCq_sec {t} {q} {x} : (s.setCq t q x).sec = s.sec := rfl

@[simp] theorem setCounter_pending {n} {v} : (s.setCounter n v).pending = s.pending := rfl
@[simp] theorem setCounter_free {n} {v} : (s.setCounter n v).free = s.free := rfl
@[simp] theorem setCounter_time {n} {v} : (s.setCounter n v).time = s.time := rfl
@[simp] theorem setCounter_regs {n} {v} : (s.setCounter n v).regs = s.regs := rfl
@[simp] theorem setCounter_wide {n} {v} : (s.setCounter n v).wide = s.wide := rfl
@[simp] theorem setCounter_rsv {n} {v} : (s.setCounter n v).rsv = s.rsv := rfl
@[simp] theorem setCounter_ledgers {n} {v} : (s.setCounter n v).ledgers = s.ledgers := rfl
@[simp] theorem setCounter_out {n} {v} : (s.setCounter n v).out = s.out := rfl
@[simp] theorem setCounter_reply {n} {v} : (s.setCounter n v).reply = s.reply := rfl
@[simp] theorem setCounter_flt {n} {v} : (s.setCounter n v).flt = s.flt := rfl
@[simp] theorem setCounter_pow {n} {v} : (s.setCounter n v).pow = s.pow := rfl
@[simp] theorem setCounter_hif {n} {v} : (s.setCounter n v).hif = s.hif := rfl
@[simp] theorem setCounter_mem {n} {v} : (s.setCounter n v).mem = s.mem := rfl
@[simp] theorem setCounter_pan {n} {v} : (s.setCounter n v).pan = s.pan := rfl
@[simp] theorem setCounter_cad {n} {v} : (s.setCounter n v).cad = s.cad := rfl
@[simp] theorem setCounter_srv {n} {v} : (s.setCounter n v).srv = s.srv := rfl
@[simp] theorem setCounter_vce {n} {v} : (s.setCounter n v).vce = s.vce := rfl
@[simp] theorem setCounter_mur {n} {v} : (s.setCounter n v).mur = s.mur := rfl
@[simp] theorem setCounter_ing {n} {v} : (s.setCounter n v).ing = s.ing := rfl
@[simp] theorem setCounter_mgt {n} {v} : (s.setCounter n v).mgt = s.mgt := rfl
@[simp] theorem setCounter_sec {n} {v} : (s.setCounter n v).sec = s.sec := rfl

@[simp] theorem setSeq_pending {k} {q} : (s.setSeq k q).pending = s.pending := rfl
@[simp] theorem setSeq_free {k} {q} : (s.setSeq k q).free = s.free := rfl
@[simp] theorem setSeq_time {k} {q} : (s.setSeq k q).time = s.time := rfl
@[simp] theorem setSeq_regs {k} {q} : (s.setSeq k q).regs = s.regs := rfl
@[simp] theorem setSeq_wide {k} {q} : (s.setSeq k q).wide = s.wide := rfl
@[simp] theorem setSeq_rsv {k} {q} : (s.setSeq k q).rsv = s.rsv := rfl
@[simp] theorem setSeq_ledgers {k} {q} : (s.setSeq k q).ledgers = s.ledgers := rfl
@[simp] theorem setSeq_out {k} {q} : (s.setSeq k q).out = s.out := rfl
@[simp] theorem setSeq_reply {k} {q} : (s.setSeq k q).reply = s.reply := rfl
@[simp] theorem setSeq_flt {k} {q} : (s.setSeq k q).flt = s.flt := rfl
@[simp] theorem setSeq_pow {k} {q} : (s.setSeq k q).pow = s.pow := rfl
@[simp] theorem setSeq_ops {k} {q} : (s.setSeq k q).ops = s.ops := rfl
@[simp] theorem setSeq_hif {k} {q} : (s.setSeq k q).hif = s.hif := rfl
@[simp] theorem setSeq_mem {k} {q} : (s.setSeq k q).mem = s.mem := rfl
@[simp] theorem setSeq_pan {k} {q} : (s.setSeq k q).pan = s.pan := rfl
@[simp] theorem setSeq_cad {k} {q} : (s.setSeq k q).cad = s.cad := rfl
@[simp] theorem setSeq_vce {k} {q} : (s.setSeq k q).vce = s.vce := rfl
@[simp] theorem setSeq_mur {k} {q} : (s.setSeq k q).mur = s.mur := rfl
@[simp] theorem setSeq_ing {k} {q} : (s.setSeq k q).ing = s.ing := rfl
@[simp] theorem setSeq_mgt {k} {q} : (s.setSeq k q).mgt = s.mgt := rfl
@[simp] theorem setSeq_sec {k} {q} : (s.setSeq k q).sec = s.sec := rfl

@[simp] theorem setPset_pending {k} {x} : (s.setPset k x).pending = s.pending := rfl
@[simp] theorem setPset_free {k} {x} : (s.setPset k x).free = s.free := rfl
@[simp] theorem setPset_time {k} {x} : (s.setPset k x).time = s.time := rfl
@[simp] theorem setPset_regs {k} {x} : (s.setPset k x).regs = s.regs := rfl
@[simp] theorem setPset_wide {k} {x} : (s.setPset k x).wide = s.wide := rfl
@[simp] theorem setPset_rsv {k} {x} : (s.setPset k x).rsv = s.rsv := rfl
@[simp] theorem setPset_ledgers {k} {x} : (s.setPset k x).ledgers = s.ledgers := rfl
@[simp] theorem setPset_out {k} {x} : (s.setPset k x).out = s.out := rfl
@[simp] theorem setPset_reply {k} {x} : (s.setPset k x).reply = s.reply := rfl
@[simp] theorem setPset_flt {k} {x} : (s.setPset k x).flt = s.flt := rfl
@[simp] theorem setPset_pow {k} {x} : (s.setPset k x).pow = s.pow := rfl
@[simp] theorem setPset_ops {k} {x} : (s.setPset k x).ops = s.ops := rfl
@[simp] theorem setPset_hif {k} {x} : (s.setPset k x).hif = s.hif := rfl
@[simp] theorem setPset_mem {k} {x} : (s.setPset k x).mem = s.mem := rfl
@[simp] theorem setPset_pan {k} {x} : (s.setPset k x).pan = s.pan := rfl
@[simp] theorem setPset_cad {k} {x} : (s.setPset k x).cad = s.cad := rfl
@[simp] theorem setPset_vce {k} {x} : (s.setPset k x).vce = s.vce := rfl
@[simp] theorem setPset_mur {k} {x} : (s.setPset k x).mur = s.mur := rfl
@[simp] theorem setPset_ing {k} {x} : (s.setPset k x).ing = s.ing := rfl
@[simp] theorem setPset_mgt {k} {x} : (s.setPset k x).mgt = s.mgt := rfl
@[simp] theorem setPset_sec {k} {x} : (s.setPset k x).sec = s.sec := rfl

@[simp] theorem setJob_pending {k} {j} : (s.setJob k j).pending = s.pending := rfl
@[simp] theorem setJob_free {k} {j} : (s.setJob k j).free = s.free := rfl
@[simp] theorem setJob_time {k} {j} : (s.setJob k j).time = s.time := rfl
@[simp] theorem setJob_regs {k} {j} : (s.setJob k j).regs = s.regs := rfl
@[simp] theorem setJob_wide {k} {j} : (s.setJob k j).wide = s.wide := rfl
@[simp] theorem setJob_rsv {k} {j} : (s.setJob k j).rsv = s.rsv := rfl
@[simp] theorem setJob_ledgers {k} {j} : (s.setJob k j).ledgers = s.ledgers := rfl
@[simp] theorem setJob_out {k} {j} : (s.setJob k j).out = s.out := rfl
@[simp] theorem setJob_reply {k} {j} : (s.setJob k j).reply = s.reply := rfl
@[simp] theorem setJob_flt {k} {j} : (s.setJob k j).flt = s.flt := rfl
@[simp] theorem setJob_pow {k} {j} : (s.setJob k j).pow = s.pow := rfl
@[simp] theorem setJob_ops {k} {j} : (s.setJob k j).ops = s.ops := rfl
@[simp] theorem setJob_hif {k} {j} : (s.setJob k j).hif = s.hif := rfl
@[simp] theorem setJob_mem {k} {j} : (s.setJob k j).mem = s.mem := rfl
@[simp] theorem setJob_pan {k} {j} : (s.setJob k j).pan = s.pan := rfl
@[simp] theorem setJob_cad {k} {j} : (s.setJob k j).cad = s.cad := rfl
@[simp] theorem setJob_vce {k} {j} : (s.setJob k j).vce = s.vce := rfl
@[simp] theorem setJob_mur {k} {j} : (s.setJob k j).mur = s.mur := rfl
@[simp] theorem setJob_ing {k} {j} : (s.setJob k j).ing = s.ing := rfl
@[simp] theorem setJob_mgt {k} {j} : (s.setJob k j).mgt = s.mgt := rfl
@[simp] theorem setJob_sec {k} {j} : (s.setJob k j).sec = s.sec := rfl

@[simp] theorem setStep_pending {k} {x} : (s.setStep k x).pending = s.pending := rfl
@[simp] theorem setStep_free {k} {x} : (s.setStep k x).free = s.free := rfl
@[simp] theorem setStep_time {k} {x} : (s.setStep k x).time = s.time := rfl
@[simp] theorem setStep_regs {k} {x} : (s.setStep k x).regs = s.regs := rfl
@[simp] theorem setStep_wide {k} {x} : (s.setStep k x).wide = s.wide := rfl
@[simp] theorem setStep_rsv {k} {x} : (s.setStep k x).rsv = s.rsv := rfl
@[simp] theorem setStep_ledgers {k} {x} : (s.setStep k x).ledgers = s.ledgers := rfl
@[simp] theorem setStep_out {k} {x} : (s.setStep k x).out = s.out := rfl
@[simp] theorem setStep_reply {k} {x} : (s.setStep k x).reply = s.reply := rfl
@[simp] theorem setStep_flt {k} {x} : (s.setStep k x).flt = s.flt := rfl
@[simp] theorem setStep_pow {k} {x} : (s.setStep k x).pow = s.pow := rfl
@[simp] theorem setStep_ops {k} {x} : (s.setStep k x).ops = s.ops := rfl
@[simp] theorem setStep_hif {k} {x} : (s.setStep k x).hif = s.hif := rfl
@[simp] theorem setStep_mem {k} {x} : (s.setStep k x).mem = s.mem := rfl
@[simp] theorem setStep_pan {k} {x} : (s.setStep k x).pan = s.pan := rfl
@[simp] theorem setStep_cad {k} {x} : (s.setStep k x).cad = s.cad := rfl
@[simp] theorem setStep_vce {k} {x} : (s.setStep k x).vce = s.vce := rfl
@[simp] theorem setStep_mur {k} {x} : (s.setStep k x).mur = s.mur := rfl
@[simp] theorem setStep_ing {k} {x} : (s.setStep k x).ing = s.ing := rfl
@[simp] theorem setStep_mgt {k} {x} : (s.setStep k x).mgt = s.mgt := rfl
@[simp] theorem setStep_sec {k} {x} : (s.setStep k x).sec = s.sec := rfl

@[simp] theorem setRcv_pending {p} {r} : (s.setRcv p r).pending = s.pending := rfl
@[simp] theorem setRcv_free {p} {r} : (s.setRcv p r).free = s.free := rfl
@[simp] theorem setRcv_time {p} {r} : (s.setRcv p r).time = s.time := rfl
@[simp] theorem setRcv_regs {p} {r} : (s.setRcv p r).regs = s.regs := rfl
@[simp] theorem setRcv_wide {p} {r} : (s.setRcv p r).wide = s.wide := rfl
@[simp] theorem setRcv_rsv {p} {r} : (s.setRcv p r).rsv = s.rsv := rfl
@[simp] theorem setRcv_ledgers {p} {r} : (s.setRcv p r).ledgers = s.ledgers := rfl
@[simp] theorem setRcv_out {p} {r} : (s.setRcv p r).out = s.out := rfl
@[simp] theorem setRcv_reply {p} {r} : (s.setRcv p r).reply = s.reply := rfl
@[simp] theorem setRcv_pow {p} {r} : (s.setRcv p r).pow = s.pow := rfl
@[simp] theorem setRcv_ops {p} {r} : (s.setRcv p r).ops = s.ops := rfl
@[simp] theorem setRcv_hif {p} {r} : (s.setRcv p r).hif = s.hif := rfl
@[simp] theorem setRcv_mem {p} {r} : (s.setRcv p r).mem = s.mem := rfl
@[simp] theorem setRcv_pan {p} {r} : (s.setRcv p r).pan = s.pan := rfl
@[simp] theorem setRcv_cad {p} {r} : (s.setRcv p r).cad = s.cad := rfl
@[simp] theorem setRcv_srv {p} {r} : (s.setRcv p r).srv = s.srv := rfl
@[simp] theorem setRcv_vce {p} {r} : (s.setRcv p r).vce = s.vce := rfl
@[simp] theorem setRcv_mur {p} {r} : (s.setRcv p r).mur = s.mur := rfl
@[simp] theorem setRcv_ing {p} {r} : (s.setRcv p r).ing = s.ing := rfl
@[simp] theorem setRcv_mgt {p} {r} : (s.setRcv p r).mgt = s.mgt := rfl
@[simp] theorem setRcv_sec {p} {r} : (s.setRcv p r).sec = s.sec := rfl

@[simp] theorem setFrame_pending {f} {k} {t} : (s.setFrame f k t).pending = s.pending := rfl
@[simp] theorem setFrame_free {f} {k} {t} : (s.setFrame f k t).free = s.free := rfl
@[simp] theorem setFrame_time {f} {k} {t} : (s.setFrame f k t).time = s.time := rfl
@[simp] theorem setFrame_regs {f} {k} {t} : (s.setFrame f k t).regs = s.regs := rfl
@[simp] theorem setFrame_wide {f} {k} {t} : (s.setFrame f k t).wide = s.wide := rfl
@[simp] theorem setFrame_rsv {f} {k} {t} : (s.setFrame f k t).rsv = s.rsv := rfl
@[simp] theorem setFrame_ledgers {f} {k} {t} : (s.setFrame f k t).ledgers = s.ledgers := rfl
@[simp] theorem setFrame_out {f} {k} {t} : (s.setFrame f k t).out = s.out := rfl
@[simp] theorem setFrame_reply {f} {k} {t} : (s.setFrame f k t).reply = s.reply := rfl
@[simp] theorem setFrame_flt {f} {k} {t} : (s.setFrame f k t).flt = s.flt := rfl
@[simp] theorem setFrame_pow {f} {k} {t} : (s.setFrame f k t).pow = s.pow := rfl
@[simp] theorem setFrame_ops {f} {k} {t} : (s.setFrame f k t).ops = s.ops := rfl
@[simp] theorem setFrame_hif {f} {k} {t} : (s.setFrame f k t).hif = s.hif := rfl
@[simp] theorem setFrame_pan {f} {k} {t} : (s.setFrame f k t).pan = s.pan := rfl
@[simp] theorem setFrame_cad {f} {k} {t} : (s.setFrame f k t).cad = s.cad := rfl
@[simp] theorem setFrame_srv {f} {k} {t} : (s.setFrame f k t).srv = s.srv := rfl
@[simp] theorem setFrame_vce {f} {k} {t} : (s.setFrame f k t).vce = s.vce := rfl
@[simp] theorem setFrame_mur {f} {k} {t} : (s.setFrame f k t).mur = s.mur := rfl
@[simp] theorem setFrame_ing {f} {k} {t} : (s.setFrame f k t).ing = s.ing := rfl
@[simp] theorem setFrame_mgt {f} {k} {t} : (s.setFrame f k t).mgt = s.mgt := rfl
@[simp] theorem setFrame_sec {f} {k} {t} : (s.setFrame f k t).sec = s.sec := rfl

@[simp] theorem setSaved_pending {p} {t} {x} : (s.setSaved p t x).pending = s.pending := rfl
@[simp] theorem setSaved_free {p} {t} {x} : (s.setSaved p t x).free = s.free := rfl
@[simp] theorem setSaved_time {p} {t} {x} : (s.setSaved p t x).time = s.time := rfl
@[simp] theorem setSaved_regs {p} {t} {x} : (s.setSaved p t x).regs = s.regs := rfl
@[simp] theorem setSaved_wide {p} {t} {x} : (s.setSaved p t x).wide = s.wide := rfl
@[simp] theorem setSaved_rsv {p} {t} {x} : (s.setSaved p t x).rsv = s.rsv := rfl
@[simp] theorem setSaved_ledgers {p} {t} {x} : (s.setSaved p t x).ledgers = s.ledgers := rfl
@[simp] theorem setSaved_out {p} {t} {x} : (s.setSaved p t x).out = s.out := rfl
@[simp] theorem setSaved_reply {p} {t} {x} : (s.setSaved p t x).reply = s.reply := rfl
@[simp] theorem setSaved_flt {p} {t} {x} : (s.setSaved p t x).flt = s.flt := rfl
@[simp] theorem setSaved_pow {p} {t} {x} : (s.setSaved p t x).pow = s.pow := rfl
@[simp] theorem setSaved_ops {p} {t} {x} : (s.setSaved p t x).ops = s.ops := rfl
@[simp] theorem setSaved_hif {p} {t} {x} : (s.setSaved p t x).hif = s.hif := rfl
@[simp] theorem setSaved_mem {p} {t} {x} : (s.setSaved p t x).mem = s.mem := rfl
@[simp] theorem setSaved_cad {p} {t} {x} : (s.setSaved p t x).cad = s.cad := rfl
@[simp] theorem setSaved_srv {p} {t} {x} : (s.setSaved p t x).srv = s.srv := rfl
@[simp] theorem setSaved_vce {p} {t} {x} : (s.setSaved p t x).vce = s.vce := rfl
@[simp] theorem setSaved_mur {p} {t} {x} : (s.setSaved p t x).mur = s.mur := rfl
@[simp] theorem setSaved_ing {p} {t} {x} : (s.setSaved p t x).ing = s.ing := rfl
@[simp] theorem setSaved_mgt {p} {t} {x} : (s.setSaved p t x).mgt = s.mgt := rfl
@[simp] theorem setSaved_sec {p} {t} {x} : (s.setSaved p t x).sec = s.sec := rfl

@[simp] theorem putStream_pending {n} {x} : (s.putStream n x).pending = s.pending := rfl
@[simp] theorem putStream_free {n} {x} : (s.putStream n x).free = s.free := rfl
@[simp] theorem putStream_time {n} {x} : (s.putStream n x).time = s.time := rfl
@[simp] theorem putStream_regs {n} {x} : (s.putStream n x).regs = s.regs := rfl
@[simp] theorem putStream_wide {n} {x} : (s.putStream n x).wide = s.wide := rfl
@[simp] theorem putStream_rsv {n} {x} : (s.putStream n x).rsv = s.rsv := rfl
@[simp] theorem putStream_ledgers {n} {x} : (s.putStream n x).ledgers = s.ledgers := rfl
@[simp] theorem putStream_out {n} {x} : (s.putStream n x).out = s.out := rfl
@[simp] theorem putStream_reply {n} {x} : (s.putStream n x).reply = s.reply := rfl
@[simp] theorem putStream_flt {n} {x} : (s.putStream n x).flt = s.flt := rfl
@[simp] theorem putStream_pow {n} {x} : (s.putStream n x).pow = s.pow := rfl
@[simp] theorem putStream_ops {n} {x} : (s.putStream n x).ops = s.ops := rfl
@[simp] theorem putStream_hif {n} {x} : (s.putStream n x).hif = s.hif := rfl
@[simp] theorem putStream_mem {n} {x} : (s.putStream n x).mem = s.mem := rfl
@[simp] theorem putStream_pan {n} {x} : (s.putStream n x).pan = s.pan := rfl
@[simp] theorem putStream_cad {n} {x} : (s.putStream n x).cad = s.cad := rfl
@[simp] theorem putStream_srv {n} {x} : (s.putStream n x).srv = s.srv := rfl
@[simp] theorem putStream_vce {n} {x} : (s.putStream n x).vce = s.vce := rfl
@[simp] theorem putStream_mur {n} {x} : (s.putStream n x).mur = s.mur := rfl
@[simp] theorem putStream_mgt {n} {x} : (s.putStream n x).mgt = s.mgt := rfl
@[simp] theorem putStream_sec {n} {x} : (s.putStream n x).sec = s.sec := rfl

@[simp] theorem setPtp_pending {x} : (s.setPtp x).pending = s.pending := rfl
@[simp] theorem setPtp_free {x} : (s.setPtp x).free = s.free := rfl
@[simp] theorem setPtp_time {x} : (s.setPtp x).time = s.time := rfl
@[simp] theorem setPtp_regs {x} : (s.setPtp x).regs = s.regs := rfl
@[simp] theorem setPtp_wide {x} : (s.setPtp x).wide = s.wide := rfl
@[simp] theorem setPtp_rsv {x} : (s.setPtp x).rsv = s.rsv := rfl
@[simp] theorem setPtp_ledgers {x} : (s.setPtp x).ledgers = s.ledgers := rfl
@[simp] theorem setPtp_out {x} : (s.setPtp x).out = s.out := rfl
@[simp] theorem setPtp_reply {x} : (s.setPtp x).reply = s.reply := rfl
@[simp] theorem setPtp_flt {x} : (s.setPtp x).flt = s.flt := rfl
@[simp] theorem setPtp_pow {x} : (s.setPtp x).pow = s.pow := rfl
@[simp] theorem setPtp_ops {x} : (s.setPtp x).ops = s.ops := rfl
@[simp] theorem setPtp_hif {x} : (s.setPtp x).hif = s.hif := rfl
@[simp] theorem setPtp_mem {x} : (s.setPtp x).mem = s.mem := rfl
@[simp] theorem setPtp_pan {x} : (s.setPtp x).pan = s.pan := rfl
@[simp] theorem setPtp_cad {x} : (s.setPtp x).cad = s.cad := rfl
@[simp] theorem setPtp_srv {x} : (s.setPtp x).srv = s.srv := rfl
@[simp] theorem setPtp_vce {x} : (s.setPtp x).vce = s.vce := rfl
@[simp] theorem setPtp_mur {x} : (s.setPtp x).mur = s.mur := rfl
@[simp] theorem setPtp_mgt {x} : (s.setPtp x).mgt = s.mgt := rfl
@[simp] theorem setPtp_sec {x} : (s.setPtp x).sec = s.sec := rfl

@[simp] theorem setMport_pending {p} {x} : (s.setMport p x).pending = s.pending := rfl
@[simp] theorem setMport_free {p} {x} : (s.setMport p x).free = s.free := rfl
@[simp] theorem setMport_time {p} {x} : (s.setMport p x).time = s.time := rfl
@[simp] theorem setMport_regs {p} {x} : (s.setMport p x).regs = s.regs := rfl
@[simp] theorem setMport_wide {p} {x} : (s.setMport p x).wide = s.wide := rfl
@[simp] theorem setMport_rsv {p} {x} : (s.setMport p x).rsv = s.rsv := rfl
@[simp] theorem setMport_ledgers {p} {x} : (s.setMport p x).ledgers = s.ledgers := rfl
@[simp] theorem setMport_out {p} {x} : (s.setMport p x).out = s.out := rfl
@[simp] theorem setMport_reply {p} {x} : (s.setMport p x).reply = s.reply := rfl
@[simp] theorem setMport_flt {p} {x} : (s.setMport p x).flt = s.flt := rfl
@[simp] theorem setMport_pow {p} {x} : (s.setMport p x).pow = s.pow := rfl
@[simp] theorem setMport_ops {p} {x} : (s.setMport p x).ops = s.ops := rfl
@[simp] theorem setMport_hif {p} {x} : (s.setMport p x).hif = s.hif := rfl
@[simp] theorem setMport_mem {p} {x} : (s.setMport p x).mem = s.mem := rfl
@[simp] theorem setMport_pan {p} {x} : (s.setMport p x).pan = s.pan := rfl
@[simp] theorem setMport_cad {p} {x} : (s.setMport p x).cad = s.cad := rfl
@[simp] theorem setMport_srv {p} {x} : (s.setMport p x).srv = s.srv := rfl
@[simp] theorem setMport_vce {p} {x} : (s.setMport p x).vce = s.vce := rfl
@[simp] theorem setMport_ing {p} {x} : (s.setMport p x).ing = s.ing := rfl
@[simp] theorem setMport_mgt {p} {x} : (s.setMport p x).mgt = s.mgt := rfl
@[simp] theorem setMport_sec {p} {x} : (s.setMport p x).sec = s.sec := rfl

@[simp] theorem setMjob_pending {j} {x} : (s.setMjob j x).pending = s.pending := rfl
@[simp] theorem setMjob_free {j} {x} : (s.setMjob j x).free = s.free := rfl
@[simp] theorem setMjob_time {j} {x} : (s.setMjob j x).time = s.time := rfl
@[simp] theorem setMjob_regs {j} {x} : (s.setMjob j x).regs = s.regs := rfl
@[simp] theorem setMjob_wide {j} {x} : (s.setMjob j x).wide = s.wide := rfl
@[simp] theorem setMjob_rsv {j} {x} : (s.setMjob j x).rsv = s.rsv := rfl
@[simp] theorem setMjob_ledgers {j} {x} : (s.setMjob j x).ledgers = s.ledgers := rfl
@[simp] theorem setMjob_out {j} {x} : (s.setMjob j x).out = s.out := rfl
@[simp] theorem setMjob_reply {j} {x} : (s.setMjob j x).reply = s.reply := rfl
@[simp] theorem setMjob_flt {j} {x} : (s.setMjob j x).flt = s.flt := rfl
@[simp] theorem setMjob_pow {j} {x} : (s.setMjob j x).pow = s.pow := rfl
@[simp] theorem setMjob_ops {j} {x} : (s.setMjob j x).ops = s.ops := rfl
@[simp] theorem setMjob_hif {j} {x} : (s.setMjob j x).hif = s.hif := rfl
@[simp] theorem setMjob_mem {j} {x} : (s.setMjob j x).mem = s.mem := rfl
@[simp] theorem setMjob_pan {j} {x} : (s.setMjob j x).pan = s.pan := rfl
@[simp] theorem setMjob_cad {j} {x} : (s.setMjob j x).cad = s.cad := rfl
@[simp] theorem setMjob_srv {j} {x} : (s.setMjob j x).srv = s.srv := rfl
@[simp] theorem setMjob_vce {j} {x} : (s.setMjob j x).vce = s.vce := rfl
@[simp] theorem setMjob_ing {j} {x} : (s.setMjob j x).ing = s.ing := rfl
@[simp] theorem setMjob_mgt {j} {x} : (s.setMjob j x).mgt = s.mgt := rfl
@[simp] theorem setMjob_sec {j} {x} : (s.setMjob j x).sec = s.sec := rfl

@[simp] theorem setMop_pending {t} {x} : (s.setMop t x).pending = s.pending := rfl
@[simp] theorem setMop_free {t} {x} : (s.setMop t x).free = s.free := rfl
@[simp] theorem setMop_time {t} {x} : (s.setMop t x).time = s.time := rfl
@[simp] theorem setMop_regs {t} {x} : (s.setMop t x).regs = s.regs := rfl
@[simp] theorem setMop_wide {t} {x} : (s.setMop t x).wide = s.wide := rfl
@[simp] theorem setMop_rsv {t} {x} : (s.setMop t x).rsv = s.rsv := rfl
@[simp] theorem setMop_ledgers {t} {x} : (s.setMop t x).ledgers = s.ledgers := rfl
@[simp] theorem setMop_out {t} {x} : (s.setMop t x).out = s.out := rfl
@[simp] theorem setMop_reply {t} {x} : (s.setMop t x).reply = s.reply := rfl
@[simp] theorem setMop_flt {t} {x} : (s.setMop t x).flt = s.flt := rfl
@[simp] theorem setMop_pow {t} {x} : (s.setMop t x).pow = s.pow := rfl
@[simp] theorem setMop_ops {t} {x} : (s.setMop t x).ops = s.ops := rfl
@[simp] theorem setMop_hif {t} {x} : (s.setMop t x).hif = s.hif := rfl
@[simp] theorem setMop_mem {t} {x} : (s.setMop t x).mem = s.mem := rfl
@[simp] theorem setMop_pan {t} {x} : (s.setMop t x).pan = s.pan := rfl
@[simp] theorem setMop_cad {t} {x} : (s.setMop t x).cad = s.cad := rfl
@[simp] theorem setMop_srv {t} {x} : (s.setMop t x).srv = s.srv := rfl
@[simp] theorem setMop_vce {t} {x} : (s.setMop t x).vce = s.vce := rfl
@[simp] theorem setMop_ing {t} {x} : (s.setMop t x).ing = s.ing := rfl
@[simp] theorem setMop_mgt {t} {x} : (s.setMop t x).mgt = s.mgt := rfl
@[simp] theorem setMop_sec {t} {x} : (s.setMop t x).sec = s.sec := rfl

@[simp] theorem setVctx_pending {e} {c} {x} : (s.setVctx e c x).pending = s.pending := rfl
@[simp] theorem setVctx_free {e} {c} {x} : (s.setVctx e c x).free = s.free := rfl
@[simp] theorem setVctx_time {e} {c} {x} : (s.setVctx e c x).time = s.time := rfl
@[simp] theorem setVctx_regs {e} {c} {x} : (s.setVctx e c x).regs = s.regs := rfl
@[simp] theorem setVctx_wide {e} {c} {x} : (s.setVctx e c x).wide = s.wide := rfl
@[simp] theorem setVctx_rsv {e} {c} {x} : (s.setVctx e c x).rsv = s.rsv := rfl
@[simp] theorem setVctx_ledgers {e} {c} {x} : (s.setVctx e c x).ledgers = s.ledgers := rfl
@[simp] theorem setVctx_out {e} {c} {x} : (s.setVctx e c x).out = s.out := rfl
@[simp] theorem setVctx_reply {e} {c} {x} : (s.setVctx e c x).reply = s.reply := rfl
@[simp] theorem setVctx_flt {e} {c} {x} : (s.setVctx e c x).flt = s.flt := rfl
@[simp] theorem setVctx_pow {e} {c} {x} : (s.setVctx e c x).pow = s.pow := rfl
@[simp] theorem setVctx_ops {e} {c} {x} : (s.setVctx e c x).ops = s.ops := rfl
@[simp] theorem setVctx_hif {e} {c} {x} : (s.setVctx e c x).hif = s.hif := rfl
@[simp] theorem setVctx_mem {e} {c} {x} : (s.setVctx e c x).mem = s.mem := rfl
@[simp] theorem setVctx_pan {e} {c} {x} : (s.setVctx e c x).pan = s.pan := rfl
@[simp] theorem setVctx_cad {e} {c} {x} : (s.setVctx e c x).cad = s.cad := rfl
@[simp] theorem setVctx_srv {e} {c} {x} : (s.setVctx e c x).srv = s.srv := rfl
@[simp] theorem setVctx_mur {e} {c} {x} : (s.setVctx e c x).mur = s.mur := rfl
@[simp] theorem setVctx_ing {e} {c} {x} : (s.setVctx e c x).ing = s.ing := rfl
@[simp] theorem setVctx_mgt {e} {c} {x} : (s.setVctx e c x).mgt = s.mgt := rfl
@[simp] theorem setVctx_sec {e} {c} {x} : (s.setVctx e c x).sec = s.sec := rfl

@[simp] theorem setDec_pending {e} {r} : (s.setDec e r).pending = s.pending := rfl
@[simp] theorem setDec_free {e} {r} : (s.setDec e r).free = s.free := rfl
@[simp] theorem setDec_time {e} {r} : (s.setDec e r).time = s.time := rfl
@[simp] theorem setDec_regs {e} {r} : (s.setDec e r).regs = s.regs := rfl
@[simp] theorem setDec_wide {e} {r} : (s.setDec e r).wide = s.wide := rfl
@[simp] theorem setDec_rsv {e} {r} : (s.setDec e r).rsv = s.rsv := rfl
@[simp] theorem setDec_ledgers {e} {r} : (s.setDec e r).ledgers = s.ledgers := rfl
@[simp] theorem setDec_out {e} {r} : (s.setDec e r).out = s.out := rfl
@[simp] theorem setDec_reply {e} {r} : (s.setDec e r).reply = s.reply := rfl
@[simp] theorem setDec_flt {e} {r} : (s.setDec e r).flt = s.flt := rfl
@[simp] theorem setDec_pow {e} {r} : (s.setDec e r).pow = s.pow := rfl
@[simp] theorem setDec_ops {e} {r} : (s.setDec e r).ops = s.ops := rfl
@[simp] theorem setDec_hif {e} {r} : (s.setDec e r).hif = s.hif := rfl
@[simp] theorem setDec_mem {e} {r} : (s.setDec e r).mem = s.mem := rfl
@[simp] theorem setDec_pan {e} {r} : (s.setDec e r).pan = s.pan := rfl
@[simp] theorem setDec_cad {e} {r} : (s.setDec e r).cad = s.cad := rfl
@[simp] theorem setDec_srv {e} {r} : (s.setDec e r).srv = s.srv := rfl
@[simp] theorem setDec_mur {e} {r} : (s.setDec e r).mur = s.mur := rfl
@[simp] theorem setDec_ing {e} {r} : (s.setDec e r).ing = s.ing := rfl
@[simp] theorem setDec_mgt {e} {r} : (s.setDec e r).mgt = s.mgt := rfl
@[simp] theorem setDec_sec {e} {r} : (s.setDec e r).sec = s.sec := rfl

@[simp] theorem setEnc_pending {e} {r} : (s.setEnc e r).pending = s.pending := rfl
@[simp] theorem setEnc_free {e} {r} : (s.setEnc e r).free = s.free := rfl
@[simp] theorem setEnc_time {e} {r} : (s.setEnc e r).time = s.time := rfl
@[simp] theorem setEnc_regs {e} {r} : (s.setEnc e r).regs = s.regs := rfl
@[simp] theorem setEnc_wide {e} {r} : (s.setEnc e r).wide = s.wide := rfl
@[simp] theorem setEnc_rsv {e} {r} : (s.setEnc e r).rsv = s.rsv := rfl
@[simp] theorem setEnc_ledgers {e} {r} : (s.setEnc e r).ledgers = s.ledgers := rfl
@[simp] theorem setEnc_out {e} {r} : (s.setEnc e r).out = s.out := rfl
@[simp] theorem setEnc_reply {e} {r} : (s.setEnc e r).reply = s.reply := rfl
@[simp] theorem setEnc_flt {e} {r} : (s.setEnc e r).flt = s.flt := rfl
@[simp] theorem setEnc_pow {e} {r} : (s.setEnc e r).pow = s.pow := rfl
@[simp] theorem setEnc_ops {e} {r} : (s.setEnc e r).ops = s.ops := rfl
@[simp] theorem setEnc_hif {e} {r} : (s.setEnc e r).hif = s.hif := rfl
@[simp] theorem setEnc_mem {e} {r} : (s.setEnc e r).mem = s.mem := rfl
@[simp] theorem setEnc_pan {e} {r} : (s.setEnc e r).pan = s.pan := rfl
@[simp] theorem setEnc_cad {e} {r} : (s.setEnc e r).cad = s.cad := rfl
@[simp] theorem setEnc_srv {e} {r} : (s.setEnc e r).srv = s.srv := rfl
@[simp] theorem setEnc_mur {e} {r} : (s.setEnc e r).mur = s.mur := rfl
@[simp] theorem setEnc_ing {e} {r} : (s.setEnc e r).ing = s.ing := rfl
@[simp] theorem setEnc_mgt {e} {r} : (s.setEnc e r).mgt = s.mgt := rfl
@[simp] theorem setEnc_sec {e} {r} : (s.setEnc e r).sec = s.sec := rfl

@[simp] theorem setSession_pending {k} {x} : (s.setSession k x).pending = s.pending := rfl
@[simp] theorem setSession_free {k} {x} : (s.setSession k x).free = s.free := rfl
@[simp] theorem setSession_time {k} {x} : (s.setSession k x).time = s.time := rfl
@[simp] theorem setSession_regs {k} {x} : (s.setSession k x).regs = s.regs := rfl
@[simp] theorem setSession_wide {k} {x} : (s.setSession k x).wide = s.wide := rfl
@[simp] theorem setSession_rsv {k} {x} : (s.setSession k x).rsv = s.rsv := rfl
@[simp] theorem setSession_ledgers {k} {x} : (s.setSession k x).ledgers = s.ledgers := rfl
@[simp] theorem setSession_out {k} {x} : (s.setSession k x).out = s.out := rfl
@[simp] theorem setSession_reply {k} {x} : (s.setSession k x).reply = s.reply := rfl
@[simp] theorem setSession_flt {k} {x} : (s.setSession k x).flt = s.flt := rfl
@[simp] theorem setSession_pow {k} {x} : (s.setSession k x).pow = s.pow := rfl
@[simp] theorem setSession_ops {k} {x} : (s.setSession k x).ops = s.ops := rfl
@[simp] theorem setSession_hif {k} {x} : (s.setSession k x).hif = s.hif := rfl
@[simp] theorem setSession_mem {k} {x} : (s.setSession k x).mem = s.mem := rfl
@[simp] theorem setSession_pan {k} {x} : (s.setSession k x).pan = s.pan := rfl
@[simp] theorem setSession_cad {k} {x} : (s.setSession k x).cad = s.cad := rfl
@[simp] theorem setSession_srv {k} {x} : (s.setSession k x).srv = s.srv := rfl
@[simp] theorem setSession_vce {k} {x} : (s.setSession k x).vce = s.vce := rfl
@[simp] theorem setSession_mur {k} {x} : (s.setSession k x).mur = s.mur := rfl
@[simp] theorem setSession_ing {k} {x} : (s.setSession k x).ing = s.ing := rfl
@[simp] theorem setSession_mgt {k} {x} : (s.setSession k x).mgt = s.mgt := rfl

@[simp] theorem setAtt_pending {tag} {x} : (s.setAtt tag x).pending = s.pending := rfl
@[simp] theorem setAtt_free {tag} {x} : (s.setAtt tag x).free = s.free := rfl
@[simp] theorem setAtt_time {tag} {x} : (s.setAtt tag x).time = s.time := rfl
@[simp] theorem setAtt_regs {tag} {x} : (s.setAtt tag x).regs = s.regs := rfl
@[simp] theorem setAtt_wide {tag} {x} : (s.setAtt tag x).wide = s.wide := rfl
@[simp] theorem setAtt_rsv {tag} {x} : (s.setAtt tag x).rsv = s.rsv := rfl
@[simp] theorem setAtt_ledgers {tag} {x} : (s.setAtt tag x).ledgers = s.ledgers := rfl
@[simp] theorem setAtt_out {tag} {x} : (s.setAtt tag x).out = s.out := rfl
@[simp] theorem setAtt_reply {tag} {x} : (s.setAtt tag x).reply = s.reply := rfl
@[simp] theorem setAtt_flt {tag} {x} : (s.setAtt tag x).flt = s.flt := rfl
@[simp] theorem setAtt_pow {tag} {x} : (s.setAtt tag x).pow = s.pow := rfl
@[simp] theorem setAtt_ops {tag} {x} : (s.setAtt tag x).ops = s.ops := rfl
@[simp] theorem setAtt_hif {tag} {x} : (s.setAtt tag x).hif = s.hif := rfl
@[simp] theorem setAtt_mem {tag} {x} : (s.setAtt tag x).mem = s.mem := rfl
@[simp] theorem setAtt_pan {tag} {x} : (s.setAtt tag x).pan = s.pan := rfl
@[simp] theorem setAtt_cad {tag} {x} : (s.setAtt tag x).cad = s.cad := rfl
@[simp] theorem setAtt_vce {tag} {x} : (s.setAtt tag x).vce = s.vce := rfl
@[simp] theorem setAtt_mur {tag} {x} : (s.setAtt tag x).mur = s.mur := rfl
@[simp] theorem setAtt_ing {tag} {x} : (s.setAtt tag x).ing = s.ing := rfl
@[simp] theorem setAtt_mgt {tag} {x} : (s.setAtt tag x).mgt = s.mgt := rfl
@[simp] theorem setAtt_sec {tag} {x} : (s.setAtt tag x).sec = s.sec := rfl

@[simp] theorem setPulses_pending {m} : (s.setPulses m).pending = s.pending := rfl
@[simp] theorem setPulses_free {m} : (s.setPulses m).free = s.free := rfl
@[simp] theorem setPulses_time {m} : (s.setPulses m).time = s.time := rfl
@[simp] theorem setPulses_regs {m} : (s.setPulses m).regs = s.regs := rfl
@[simp] theorem setPulses_wide {m} : (s.setPulses m).wide = s.wide := rfl
@[simp] theorem setPulses_rsv {m} : (s.setPulses m).rsv = s.rsv := rfl
@[simp] theorem setPulses_ledgers {m} : (s.setPulses m).ledgers = s.ledgers := rfl
@[simp] theorem setPulses_out {m} : (s.setPulses m).out = s.out := rfl
@[simp] theorem setPulses_reply {m} : (s.setPulses m).reply = s.reply := rfl
@[simp] theorem setPulses_flt {m} : (s.setPulses m).flt = s.flt := rfl
@[simp] theorem setPulses_pow {m} : (s.setPulses m).pow = s.pow := rfl
@[simp] theorem setPulses_ops {m} : (s.setPulses m).ops = s.ops := rfl
@[simp] theorem setPulses_hif {m} : (s.setPulses m).hif = s.hif := rfl
@[simp] theorem setPulses_mem {m} : (s.setPulses m).mem = s.mem := rfl
@[simp] theorem setPulses_pan {m} : (s.setPulses m).pan = s.pan := rfl
@[simp] theorem setPulses_srv {m} : (s.setPulses m).srv = s.srv := rfl
@[simp] theorem setPulses_vce {m} : (s.setPulses m).vce = s.vce := rfl
@[simp] theorem setPulses_mur {m} : (s.setPulses m).mur = s.mur := rfl
@[simp] theorem setPulses_ing {m} : (s.setPulses m).ing = s.ing := rfl
@[simp] theorem setPulses_mgt {m} : (s.setPulses m).mgt = s.mgt := rfl
@[simp] theorem setPulses_sec {m} : (s.setPulses m).sec = s.sec := rfl

@[simp] theorem trigFired_pending {d} {j} {n} : (s.trigFired d j n).pending = s.pending := rfl
@[simp] theorem trigFired_free {d} {j} {n} : (s.trigFired d j n).free = s.free := rfl
@[simp] theorem trigFired_time {d} {j} {n} : (s.trigFired d j n).time = s.time := rfl
@[simp] theorem trigFired_regs {d} {j} {n} : (s.trigFired d j n).regs = s.regs := rfl
@[simp] theorem trigFired_wide {d} {j} {n} : (s.trigFired d j n).wide = s.wide := rfl
@[simp] theorem trigFired_rsv {d} {j} {n} : (s.trigFired d j n).rsv = s.rsv := rfl
@[simp] theorem trigFired_ledgers {d} {j} {n} : (s.trigFired d j n).ledgers = s.ledgers := rfl
@[simp] theorem trigFired_out {d} {j} {n} : (s.trigFired d j n).out = s.out := rfl
@[simp] theorem trigFired_reply {d} {j} {n} : (s.trigFired d j n).reply = s.reply := rfl
@[simp] theorem trigFired_flt {d} {j} {n} : (s.trigFired d j n).flt = s.flt := rfl
@[simp] theorem trigFired_pow {d} {j} {n} : (s.trigFired d j n).pow = s.pow := rfl
@[simp] theorem trigFired_ops {d} {j} {n} : (s.trigFired d j n).ops = s.ops := rfl
@[simp] theorem trigFired_hif {d} {j} {n} : (s.trigFired d j n).hif = s.hif := rfl
@[simp] theorem trigFired_mem {d} {j} {n} : (s.trigFired d j n).mem = s.mem := rfl
@[simp] theorem trigFired_pan {d} {j} {n} : (s.trigFired d j n).pan = s.pan := rfl
@[simp] theorem trigFired_cad {d} {j} {n} : (s.trigFired d j n).cad = s.cad := rfl
@[simp] theorem trigFired_srv {d} {j} {n} : (s.trigFired d j n).srv = s.srv := rfl
@[simp] theorem trigFired_vce {d} {j} {n} : (s.trigFired d j n).vce = s.vce := rfl
@[simp] theorem trigFired_mur {d} {j} {n} : (s.trigFired d j n).mur = s.mur := rfl
@[simp] theorem trigFired_mgt {d} {j} {n} : (s.trigFired d j n).mgt = s.mgt := rfl
@[simp] theorem trigFired_sec {d} {j} {n} : (s.trigFired d j n).sec = s.sec := rfl

@[simp] theorem repairStart_pending {a} : (s.repairStart a).pending = s.pending := rfl
@[simp] theorem repairStart_free {a} : (s.repairStart a).free = s.free := rfl
@[simp] theorem repairStart_time {a} : (s.repairStart a).time = s.time := rfl
@[simp] theorem repairStart_regs {a} : (s.repairStart a).regs = s.regs := rfl
@[simp] theorem repairStart_wide {a} : (s.repairStart a).wide = s.wide := rfl
@[simp] theorem repairStart_rsv {a} : (s.repairStart a).rsv = s.rsv := rfl
@[simp] theorem repairStart_ledgers {a} : (s.repairStart a).ledgers = s.ledgers := rfl
@[simp] theorem repairStart_out {a} : (s.repairStart a).out = s.out := rfl
@[simp] theorem repairStart_reply {a} : (s.repairStart a).reply = s.reply := rfl
@[simp] theorem repairStart_flt {a} : (s.repairStart a).flt = s.flt := rfl
@[simp] theorem repairStart_pow {a} : (s.repairStart a).pow = s.pow := rfl
@[simp] theorem repairStart_ops {a} : (s.repairStart a).ops = s.ops := rfl
@[simp] theorem repairStart_hif {a} : (s.repairStart a).hif = s.hif := rfl
@[simp] theorem repairStart_pan {a} : (s.repairStart a).pan = s.pan := rfl
@[simp] theorem repairStart_cad {a} : (s.repairStart a).cad = s.cad := rfl
@[simp] theorem repairStart_srv {a} : (s.repairStart a).srv = s.srv := rfl
@[simp] theorem repairStart_vce {a} : (s.repairStart a).vce = s.vce := rfl
@[simp] theorem repairStart_mur {a} : (s.repairStart a).mur = s.mur := rfl
@[simp] theorem repairStart_ing {a} : (s.repairStart a).ing = s.ing := rfl
@[simp] theorem repairStart_mgt {a} : (s.repairStart a).mgt = s.mgt := rfl
@[simp] theorem repairStart_sec {a} : (s.repairStart a).sec = s.sec := rfl

@[simp] theorem enqueue_pending {r} : (s.enqueue r).pending = s.pending := rfl
@[simp] theorem enqueue_free {r} : (s.enqueue r).free = s.free := rfl
@[simp] theorem enqueue_time {r} : (s.enqueue r).time = s.time := rfl
@[simp] theorem enqueue_regs {r} : (s.enqueue r).regs = s.regs := rfl
@[simp] theorem enqueue_wide {r} : (s.enqueue r).wide = s.wide := rfl
@[simp] theorem enqueue_rsv {r} : (s.enqueue r).rsv = s.rsv := rfl
@[simp] theorem enqueue_ledgers {r} : (s.enqueue r).ledgers = s.ledgers := rfl
@[simp] theorem enqueue_out {r} : (s.enqueue r).out = s.out := rfl
@[simp] theorem enqueue_reply {r} : (s.enqueue r).reply = s.reply := rfl
@[simp] theorem enqueue_pow {r} : (s.enqueue r).pow = s.pow := rfl
@[simp] theorem enqueue_ops {r} : (s.enqueue r).ops = s.ops := rfl
@[simp] theorem enqueue_hif {r} : (s.enqueue r).hif = s.hif := rfl
@[simp] theorem enqueue_mem {r} : (s.enqueue r).mem = s.mem := rfl
@[simp] theorem enqueue_pan {r} : (s.enqueue r).pan = s.pan := rfl
@[simp] theorem enqueue_cad {r} : (s.enqueue r).cad = s.cad := rfl
@[simp] theorem enqueue_srv {r} : (s.enqueue r).srv = s.srv := rfl
@[simp] theorem enqueue_vce {r} : (s.enqueue r).vce = s.vce := rfl
@[simp] theorem enqueue_mur {r} : (s.enqueue r).mur = s.mur := rfl
@[simp] theorem enqueue_ing {r} : (s.enqueue r).ing = s.ing := rfl
@[simp] theorem enqueue_mgt {r} : (s.enqueue r).mgt = s.mgt := rfl
@[simp] theorem enqueue_sec {r} : (s.enqueue r).sec = s.sec := rfl

@[simp] theorem closeRec_pending {i} : (s.closeRec i).pending = s.pending := rfl
@[simp] theorem closeRec_free {i} : (s.closeRec i).free = s.free := rfl
@[simp] theorem closeRec_time {i} : (s.closeRec i).time = s.time := rfl
@[simp] theorem closeRec_regs {i} : (s.closeRec i).regs = s.regs := rfl
@[simp] theorem closeRec_wide {i} : (s.closeRec i).wide = s.wide := rfl
@[simp] theorem closeRec_rsv {i} : (s.closeRec i).rsv = s.rsv := rfl
@[simp] theorem closeRec_ledgers {i} : (s.closeRec i).ledgers = s.ledgers := rfl
@[simp] theorem closeRec_out {i} : (s.closeRec i).out = s.out := rfl
@[simp] theorem closeRec_reply {i} : (s.closeRec i).reply = s.reply := rfl
@[simp] theorem closeRec_pow {i} : (s.closeRec i).pow = s.pow := rfl
@[simp] theorem closeRec_ops {i} : (s.closeRec i).ops = s.ops := rfl
@[simp] theorem closeRec_hif {i} : (s.closeRec i).hif = s.hif := rfl
@[simp] theorem closeRec_mem {i} : (s.closeRec i).mem = s.mem := rfl
@[simp] theorem closeRec_pan {i} : (s.closeRec i).pan = s.pan := rfl
@[simp] theorem closeRec_cad {i} : (s.closeRec i).cad = s.cad := rfl
@[simp] theorem closeRec_srv {i} : (s.closeRec i).srv = s.srv := rfl
@[simp] theorem closeRec_vce {i} : (s.closeRec i).vce = s.vce := rfl
@[simp] theorem closeRec_mur {i} : (s.closeRec i).mur = s.mur := rfl
@[simp] theorem closeRec_ing {i} : (s.closeRec i).ing = s.ing := rfl
@[simp] theorem closeRec_mgt {i} : (s.closeRec i).mgt = s.mgt := rfl
@[simp] theorem closeRec_sec {i} : (s.closeRec i).sec = s.sec := rfl

@[simp] theorem errSeen_pending {page} : (s.errSeen page).pending = s.pending := rfl
@[simp] theorem errSeen_free {page} : (s.errSeen page).free = s.free := rfl
@[simp] theorem errSeen_time {page} : (s.errSeen page).time = s.time := rfl
@[simp] theorem errSeen_regs {page} : (s.errSeen page).regs = s.regs := rfl
@[simp] theorem errSeen_wide {page} : (s.errSeen page).wide = s.wide := rfl
@[simp] theorem errSeen_rsv {page} : (s.errSeen page).rsv = s.rsv := rfl
@[simp] theorem errSeen_ledgers {page} : (s.errSeen page).ledgers = s.ledgers := rfl
@[simp] theorem errSeen_out {page} : (s.errSeen page).out = s.out := rfl
@[simp] theorem errSeen_reply {page} : (s.errSeen page).reply = s.reply := rfl
@[simp] theorem errSeen_pow {page} : (s.errSeen page).pow = s.pow := rfl
@[simp] theorem errSeen_ops {page} : (s.errSeen page).ops = s.ops := rfl
@[simp] theorem errSeen_hif {page} : (s.errSeen page).hif = s.hif := rfl
@[simp] theorem errSeen_mem {page} : (s.errSeen page).mem = s.mem := rfl
@[simp] theorem errSeen_pan {page} : (s.errSeen page).pan = s.pan := rfl
@[simp] theorem errSeen_cad {page} : (s.errSeen page).cad = s.cad := rfl
@[simp] theorem errSeen_srv {page} : (s.errSeen page).srv = s.srv := rfl
@[simp] theorem errSeen_vce {page} : (s.errSeen page).vce = s.vce := rfl
@[simp] theorem errSeen_mur {page} : (s.errSeen page).mur = s.mur := rfl
@[simp] theorem errSeen_ing {page} : (s.errSeen page).ing = s.ing := rfl
@[simp] theorem errSeen_mgt {page} : (s.errSeen page).mgt = s.mgt := rfl
@[simp] theorem errSeen_sec {page} : (s.errSeen page).sec = s.sec := rfl

@[simp] theorem memZero_pending {a} {n} : (s.memZero a n).pending = s.pending := rfl
@[simp] theorem memZero_free {a} {n} : (s.memZero a n).free = s.free := rfl
@[simp] theorem memZero_time {a} {n} : (s.memZero a n).time = s.time := rfl
@[simp] theorem memZero_regs {a} {n} : (s.memZero a n).regs = s.regs := rfl
@[simp] theorem memZero_wide {a} {n} : (s.memZero a n).wide = s.wide := rfl
@[simp] theorem memZero_rsv {a} {n} : (s.memZero a n).rsv = s.rsv := rfl
@[simp] theorem memZero_ledgers {a} {n} : (s.memZero a n).ledgers = s.ledgers := rfl
@[simp] theorem memZero_out {a} {n} : (s.memZero a n).out = s.out := rfl
@[simp] theorem memZero_reply {a} {n} : (s.memZero a n).reply = s.reply := rfl
@[simp] theorem memZero_flt {a} {n} : (s.memZero a n).flt = s.flt := rfl
@[simp] theorem memZero_pow {a} {n} : (s.memZero a n).pow = s.pow := rfl
@[simp] theorem memZero_ops {a} {n} : (s.memZero a n).ops = s.ops := rfl
@[simp] theorem memZero_hif {a} {n} : (s.memZero a n).hif = s.hif := rfl
@[simp] theorem memZero_pan {a} {n} : (s.memZero a n).pan = s.pan := rfl
@[simp] theorem memZero_cad {a} {n} : (s.memZero a n).cad = s.cad := rfl
@[simp] theorem memZero_srv {a} {n} : (s.memZero a n).srv = s.srv := rfl
@[simp] theorem memZero_vce {a} {n} : (s.memZero a n).vce = s.vce := rfl
@[simp] theorem memZero_mur {a} {n} : (s.memZero a n).mur = s.mur := rfl
@[simp] theorem memZero_ing {a} {n} : (s.memZero a n).ing = s.ing := rfl
@[simp] theorem memZero_mgt {a} {n} : (s.memZero a n).mgt = s.mgt := rfl
@[simp] theorem memZero_sec {a} {n} : (s.memZero a n).sec = s.sec := rfl

@[simp] theorem memWrite_pending {a} {bs} : (s.memWrite a bs).pending = s.pending := rfl
@[simp] theorem memWrite_free {a} {bs} : (s.memWrite a bs).free = s.free := rfl
@[simp] theorem memWrite_time {a} {bs} : (s.memWrite a bs).time = s.time := rfl
@[simp] theorem memWrite_regs {a} {bs} : (s.memWrite a bs).regs = s.regs := rfl
@[simp] theorem memWrite_wide {a} {bs} : (s.memWrite a bs).wide = s.wide := rfl
@[simp] theorem memWrite_rsv {a} {bs} : (s.memWrite a bs).rsv = s.rsv := rfl
@[simp] theorem memWrite_ledgers {a} {bs} : (s.memWrite a bs).ledgers = s.ledgers := rfl
@[simp] theorem memWrite_out {a} {bs} : (s.memWrite a bs).out = s.out := rfl
@[simp] theorem memWrite_reply {a} {bs} : (s.memWrite a bs).reply = s.reply := rfl
@[simp] theorem memWrite_flt {a} {bs} : (s.memWrite a bs).flt = s.flt := rfl
@[simp] theorem memWrite_pow {a} {bs} : (s.memWrite a bs).pow = s.pow := rfl
@[simp] theorem memWrite_ops {a} {bs} : (s.memWrite a bs).ops = s.ops := rfl
@[simp] theorem memWrite_hif {a} {bs} : (s.memWrite a bs).hif = s.hif := rfl
@[simp] theorem memWrite_pan {a} {bs} : (s.memWrite a bs).pan = s.pan := rfl
@[simp] theorem memWrite_cad {a} {bs} : (s.memWrite a bs).cad = s.cad := rfl
@[simp] theorem memWrite_srv {a} {bs} : (s.memWrite a bs).srv = s.srv := rfl
@[simp] theorem memWrite_vce {a} {bs} : (s.memWrite a bs).vce = s.vce := rfl
@[simp] theorem memWrite_mur {a} {bs} : (s.memWrite a bs).mur = s.mur := rfl
@[simp] theorem memWrite_ing {a} {bs} : (s.memWrite a bs).ing = s.ing := rfl
@[simp] theorem memWrite_mgt {a} {bs} : (s.memWrite a bs).mgt = s.mgt := rfl
@[simp] theorem memWrite_sec {a} {bs} : (s.memWrite a bs).sec = s.sec := rfl

@[simp] theorem memPoison_pending {a} : (s.memPoison a).pending = s.pending := rfl
@[simp] theorem memPoison_free {a} : (s.memPoison a).free = s.free := rfl
@[simp] theorem memPoison_time {a} : (s.memPoison a).time = s.time := rfl
@[simp] theorem memPoison_regs {a} : (s.memPoison a).regs = s.regs := rfl
@[simp] theorem memPoison_wide {a} : (s.memPoison a).wide = s.wide := rfl
@[simp] theorem memPoison_rsv {a} : (s.memPoison a).rsv = s.rsv := rfl
@[simp] theorem memPoison_ledgers {a} : (s.memPoison a).ledgers = s.ledgers := rfl
@[simp] theorem memPoison_out {a} : (s.memPoison a).out = s.out := rfl
@[simp] theorem memPoison_reply {a} : (s.memPoison a).reply = s.reply := rfl
@[simp] theorem memPoison_flt {a} : (s.memPoison a).flt = s.flt := rfl
@[simp] theorem memPoison_pow {a} : (s.memPoison a).pow = s.pow := rfl
@[simp] theorem memPoison_ops {a} : (s.memPoison a).ops = s.ops := rfl
@[simp] theorem memPoison_hif {a} : (s.memPoison a).hif = s.hif := rfl
@[simp] theorem memPoison_pan {a} : (s.memPoison a).pan = s.pan := rfl
@[simp] theorem memPoison_cad {a} : (s.memPoison a).cad = s.cad := rfl
@[simp] theorem memPoison_srv {a} : (s.memPoison a).srv = s.srv := rfl
@[simp] theorem memPoison_vce {a} : (s.memPoison a).vce = s.vce := rfl
@[simp] theorem memPoison_mur {a} : (s.memPoison a).mur = s.mur := rfl
@[simp] theorem memPoison_ing {a} : (s.memPoison a).ing = s.ing := rfl
@[simp] theorem memPoison_mgt {a} : (s.memPoison a).mgt = s.mgt := rfl
@[simp] theorem memPoison_sec {a} : (s.memPoison a).sec = s.sec := rfl

@[simp] theorem palStore_pending {p} {o} {bs} : (s.palStore p o bs).pending = s.pending := rfl
@[simp] theorem palStore_free {p} {o} {bs} : (s.palStore p o bs).free = s.free := rfl
@[simp] theorem palStore_time {p} {o} {bs} : (s.palStore p o bs).time = s.time := rfl
@[simp] theorem palStore_regs {p} {o} {bs} : (s.palStore p o bs).regs = s.regs := rfl
@[simp] theorem palStore_wide {p} {o} {bs} : (s.palStore p o bs).wide = s.wide := rfl
@[simp] theorem palStore_rsv {p} {o} {bs} : (s.palStore p o bs).rsv = s.rsv := rfl
@[simp] theorem palStore_ledgers {p} {o} {bs} : (s.palStore p o bs).ledgers = s.ledgers := rfl
@[simp] theorem palStore_out {p} {o} {bs} : (s.palStore p o bs).out = s.out := rfl
@[simp] theorem palStore_reply {p} {o} {bs} : (s.palStore p o bs).reply = s.reply := rfl
@[simp] theorem palStore_flt {p} {o} {bs} : (s.palStore p o bs).flt = s.flt := rfl
@[simp] theorem palStore_pow {p} {o} {bs} : (s.palStore p o bs).pow = s.pow := rfl
@[simp] theorem palStore_ops {p} {o} {bs} : (s.palStore p o bs).ops = s.ops := rfl
@[simp] theorem palStore_hif {p} {o} {bs} : (s.palStore p o bs).hif = s.hif := rfl
@[simp] theorem palStore_pan {p} {o} {bs} : (s.palStore p o bs).pan = s.pan := rfl
@[simp] theorem palStore_cad {p} {o} {bs} : (s.palStore p o bs).cad = s.cad := rfl
@[simp] theorem palStore_srv {p} {o} {bs} : (s.palStore p o bs).srv = s.srv := rfl
@[simp] theorem palStore_vce {p} {o} {bs} : (s.palStore p o bs).vce = s.vce := rfl
@[simp] theorem palStore_mur {p} {o} {bs} : (s.palStore p o bs).mur = s.mur := rfl
@[simp] theorem palStore_ing {p} {o} {bs} : (s.palStore p o bs).ing = s.ing := rfl
@[simp] theorem palStore_mgt {p} {o} {bs} : (s.palStore p o bs).mgt = s.mgt := rfl
@[simp] theorem palStore_sec {p} {o} {bs} : (s.palStore p o bs).sec = s.sec := rfl

@[simp] theorem palPoison_pending {p} {o} : (s.palPoison p o).pending = s.pending := rfl
@[simp] theorem palPoison_free {p} {o} : (s.palPoison p o).free = s.free := rfl
@[simp] theorem palPoison_time {p} {o} : (s.palPoison p o).time = s.time := rfl
@[simp] theorem palPoison_regs {p} {o} : (s.palPoison p o).regs = s.regs := rfl
@[simp] theorem palPoison_wide {p} {o} : (s.palPoison p o).wide = s.wide := rfl
@[simp] theorem palPoison_rsv {p} {o} : (s.palPoison p o).rsv = s.rsv := rfl
@[simp] theorem palPoison_ledgers {p} {o} : (s.palPoison p o).ledgers = s.ledgers := rfl
@[simp] theorem palPoison_out {p} {o} : (s.palPoison p o).out = s.out := rfl
@[simp] theorem palPoison_reply {p} {o} : (s.palPoison p o).reply = s.reply := rfl
@[simp] theorem palPoison_flt {p} {o} : (s.palPoison p o).flt = s.flt := rfl
@[simp] theorem palPoison_pow {p} {o} : (s.palPoison p o).pow = s.pow := rfl
@[simp] theorem palPoison_ops {p} {o} : (s.palPoison p o).ops = s.ops := rfl
@[simp] theorem palPoison_hif {p} {o} : (s.palPoison p o).hif = s.hif := rfl
@[simp] theorem palPoison_pan {p} {o} : (s.palPoison p o).pan = s.pan := rfl
@[simp] theorem palPoison_cad {p} {o} : (s.palPoison p o).cad = s.cad := rfl
@[simp] theorem palPoison_srv {p} {o} : (s.palPoison p o).srv = s.srv := rfl
@[simp] theorem palPoison_vce {p} {o} : (s.palPoison p o).vce = s.vce := rfl
@[simp] theorem palPoison_mur {p} {o} : (s.palPoison p o).mur = s.mur := rfl
@[simp] theorem palPoison_ing {p} {o} : (s.palPoison p o).ing = s.ing := rfl
@[simp] theorem palPoison_mgt {p} {o} : (s.palPoison p o).mgt = s.mgt := rfl
@[simp] theorem palPoison_sec {p} {o} : (s.palPoison p o).sec = s.sec := rfl

@[simp] theorem palZero_pending {p} : (s.palZero p).pending = s.pending := rfl
@[simp] theorem palZero_free {p} : (s.palZero p).free = s.free := rfl
@[simp] theorem palZero_time {p} : (s.palZero p).time = s.time := rfl
@[simp] theorem palZero_regs {p} : (s.palZero p).regs = s.regs := rfl
@[simp] theorem palZero_wide {p} : (s.palZero p).wide = s.wide := rfl
@[simp] theorem palZero_rsv {p} : (s.palZero p).rsv = s.rsv := rfl
@[simp] theorem palZero_ledgers {p} : (s.palZero p).ledgers = s.ledgers := rfl
@[simp] theorem palZero_out {p} : (s.palZero p).out = s.out := rfl
@[simp] theorem palZero_reply {p} : (s.palZero p).reply = s.reply := rfl
@[simp] theorem palZero_flt {p} : (s.palZero p).flt = s.flt := rfl
@[simp] theorem palZero_pow {p} : (s.palZero p).pow = s.pow := rfl
@[simp] theorem palZero_ops {p} : (s.palZero p).ops = s.ops := rfl
@[simp] theorem palZero_hif {p} : (s.palZero p).hif = s.hif := rfl
@[simp] theorem palZero_pan {p} : (s.palZero p).pan = s.pan := rfl
@[simp] theorem palZero_cad {p} : (s.palZero p).cad = s.cad := rfl
@[simp] theorem palZero_srv {p} : (s.palZero p).srv = s.srv := rfl
@[simp] theorem palZero_vce {p} : (s.palZero p).vce = s.vce := rfl
@[simp] theorem palZero_mur {p} : (s.palZero p).mur = s.mur := rfl
@[simp] theorem palZero_ing {p} : (s.palZero p).ing = s.ing := rfl
@[simp] theorem palZero_mgt {p} : (s.palZero p).mgt = s.mgt := rfl
@[simp] theorem palZero_sec {p} : (s.palZero p).sec = s.sec := rfl

@[simp] theorem storesZero_pending {p} : (s.storesZero p).pending = s.pending := rfl
@[simp] theorem storesZero_free {p} : (s.storesZero p).free = s.free := rfl
@[simp] theorem storesZero_time {p} : (s.storesZero p).time = s.time := rfl
@[simp] theorem storesZero_regs {p} : (s.storesZero p).regs = s.regs := rfl
@[simp] theorem storesZero_wide {p} : (s.storesZero p).wide = s.wide := rfl
@[simp] theorem storesZero_rsv {p} : (s.storesZero p).rsv = s.rsv := rfl
@[simp] theorem storesZero_ledgers {p} : (s.storesZero p).ledgers = s.ledgers := rfl
@[simp] theorem storesZero_out {p} : (s.storesZero p).out = s.out := rfl
@[simp] theorem storesZero_reply {p} : (s.storesZero p).reply = s.reply := rfl
@[simp] theorem storesZero_flt {p} : (s.storesZero p).flt = s.flt := rfl
@[simp] theorem storesZero_pow {p} : (s.storesZero p).pow = s.pow := rfl
@[simp] theorem storesZero_ops {p} : (s.storesZero p).ops = s.ops := rfl
@[simp] theorem storesZero_hif {p} : (s.storesZero p).hif = s.hif := rfl
@[simp] theorem storesZero_pan {p} : (s.storesZero p).pan = s.pan := rfl
@[simp] theorem storesZero_cad {p} : (s.storesZero p).cad = s.cad := rfl
@[simp] theorem storesZero_srv {p} : (s.storesZero p).srv = s.srv := rfl
@[simp] theorem storesZero_vce {p} : (s.storesZero p).vce = s.vce := rfl
@[simp] theorem storesZero_mur {p} : (s.storesZero p).mur = s.mur := rfl
@[simp] theorem storesZero_ing {p} : (s.storesZero p).ing = s.ing := rfl
@[simp] theorem storesZero_mgt {p} : (s.storesZero p).mgt = s.mgt := rfl
@[simp] theorem storesZero_sec {p} : (s.storesZero p).sec = s.sec := rfl

@[simp] theorem flashClear_pending {p} {lba} {n} : (s.flashClear p lba n).pending = s.pending := rfl
@[simp] theorem flashClear_free {p} {lba} {n} : (s.flashClear p lba n).free = s.free := rfl
@[simp] theorem flashClear_time {p} {lba} {n} : (s.flashClear p lba n).time = s.time := rfl
@[simp] theorem flashClear_regs {p} {lba} {n} : (s.flashClear p lba n).regs = s.regs := rfl
@[simp] theorem flashClear_wide {p} {lba} {n} : (s.flashClear p lba n).wide = s.wide := rfl
@[simp] theorem flashClear_rsv {p} {lba} {n} : (s.flashClear p lba n).rsv = s.rsv := rfl
@[simp] theorem flashClear_ledgers {p} {lba} {n} : (s.flashClear p lba n).ledgers = s.ledgers := rfl
@[simp] theorem flashClear_out {p} {lba} {n} : (s.flashClear p lba n).out = s.out := rfl
@[simp] theorem flashClear_reply {p} {lba} {n} : (s.flashClear p lba n).reply = s.reply := rfl
@[simp] theorem flashClear_flt {p} {lba} {n} : (s.flashClear p lba n).flt = s.flt := rfl
@[simp] theorem flashClear_pow {p} {lba} {n} : (s.flashClear p lba n).pow = s.pow := rfl
@[simp] theorem flashClear_ops {p} {lba} {n} : (s.flashClear p lba n).ops = s.ops := rfl
@[simp] theorem flashClear_hif {p} {lba} {n} : (s.flashClear p lba n).hif = s.hif := rfl
@[simp] theorem flashClear_pan {p} {lba} {n} : (s.flashClear p lba n).pan = s.pan := rfl
@[simp] theorem flashClear_cad {p} {lba} {n} : (s.flashClear p lba n).cad = s.cad := rfl
@[simp] theorem flashClear_srv {p} {lba} {n} : (s.flashClear p lba n).srv = s.srv := rfl
@[simp] theorem flashClear_vce {p} {lba} {n} : (s.flashClear p lba n).vce = s.vce := rfl
@[simp] theorem flashClear_mur {p} {lba} {n} : (s.flashClear p lba n).mur = s.mur := rfl
@[simp] theorem flashClear_ing {p} {lba} {n} : (s.flashClear p lba n).ing = s.ing := rfl
@[simp] theorem flashClear_mgt {p} {lba} {n} : (s.flashClear p lba n).mgt = s.mgt := rfl
@[simp] theorem flashClear_sec {p} {lba} {n} : (s.flashClear p lba n).sec = s.sec := rfl

@[simp] theorem setUpdate_pending {u} : (s.setUpdate u).pending = s.pending := rfl
@[simp] theorem setUpdate_free {u} : (s.setUpdate u).free = s.free := rfl
@[simp] theorem setUpdate_time {u} : (s.setUpdate u).time = s.time := rfl
@[simp] theorem setUpdate_regs {u} : (s.setUpdate u).regs = s.regs := rfl
@[simp] theorem setUpdate_wide {u} : (s.setUpdate u).wide = s.wide := rfl
@[simp] theorem setUpdate_rsv {u} : (s.setUpdate u).rsv = s.rsv := rfl
@[simp] theorem setUpdate_ledgers {u} : (s.setUpdate u).ledgers = s.ledgers := rfl
@[simp] theorem setUpdate_out {u} : (s.setUpdate u).out = s.out := rfl
@[simp] theorem setUpdate_reply {u} : (s.setUpdate u).reply = s.reply := rfl
@[simp] theorem setUpdate_flt {u} : (s.setUpdate u).flt = s.flt := rfl
@[simp] theorem setUpdate_pow {u} : (s.setUpdate u).pow = s.pow := rfl
@[simp] theorem setUpdate_ops {u} : (s.setUpdate u).ops = s.ops := rfl
@[simp] theorem setUpdate_hif {u} : (s.setUpdate u).hif = s.hif := rfl
@[simp] theorem setUpdate_mem {u} : (s.setUpdate u).mem = s.mem := rfl
@[simp] theorem setUpdate_pan {u} : (s.setUpdate u).pan = s.pan := rfl
@[simp] theorem setUpdate_cad {u} : (s.setUpdate u).cad = s.cad := rfl
@[simp] theorem setUpdate_srv {u} : (s.setUpdate u).srv = s.srv := rfl
@[simp] theorem setUpdate_vce {u} : (s.setUpdate u).vce = s.vce := rfl
@[simp] theorem setUpdate_mur {u} : (s.setUpdate u).mur = s.mur := rfl
@[simp] theorem setUpdate_ing {u} : (s.setUpdate u).ing = s.ing := rfl
@[simp] theorem setUpdate_sec {u} : (s.setUpdate u).sec = s.sec := rfl

@[simp] theorem mOut_pending {bytes} : (s.mOut bytes).pending = s.pending := rfl
@[simp] theorem mOut_free {bytes} : (s.mOut bytes).free = s.free := rfl
@[simp] theorem mOut_time {bytes} : (s.mOut bytes).time = s.time := rfl
@[simp] theorem mOut_regs {bytes} : (s.mOut bytes).regs = s.regs := rfl
@[simp] theorem mOut_wide {bytes} : (s.mOut bytes).wide = s.wide := rfl
@[simp] theorem mOut_rsv {bytes} : (s.mOut bytes).rsv = s.rsv := rfl
@[simp] theorem mOut_ledgers {bytes} : (s.mOut bytes).ledgers = s.ledgers := rfl
@[simp] theorem mOut_out {bytes} : (s.mOut bytes).out = s.out := rfl
@[simp] theorem mOut_reply {bytes} : (s.mOut bytes).reply = s.reply := rfl
@[simp] theorem mOut_flt {bytes} : (s.mOut bytes).flt = s.flt := rfl
@[simp] theorem mOut_pow {bytes} : (s.mOut bytes).pow = s.pow := rfl
@[simp] theorem mOut_ops {bytes} : (s.mOut bytes).ops = s.ops := rfl
@[simp] theorem mOut_hif {bytes} : (s.mOut bytes).hif = s.hif := rfl
@[simp] theorem mOut_mem {bytes} : (s.mOut bytes).mem = s.mem := rfl
@[simp] theorem mOut_pan {bytes} : (s.mOut bytes).pan = s.pan := rfl
@[simp] theorem mOut_cad {bytes} : (s.mOut bytes).cad = s.cad := rfl
@[simp] theorem mOut_srv {bytes} : (s.mOut bytes).srv = s.srv := rfl
@[simp] theorem mOut_vce {bytes} : (s.mOut bytes).vce = s.vce := rfl
@[simp] theorem mOut_ing {bytes} : (s.mOut bytes).ing = s.ing := rfl
@[simp] theorem mOut_mgt {bytes} : (s.mOut bytes).mgt = s.mgt := rfl
@[simp] theorem mOut_sec {bytes} : (s.mOut bytes).sec = s.sec := rfl

@[simp] theorem arrTake_pending {n} : (s.arrTake n).pending = s.pending := rfl
@[simp] theorem arrTake_free {n} : (s.arrTake n).free = s.free := rfl
@[simp] theorem arrTake_time {n} : (s.arrTake n).time = s.time := rfl
@[simp] theorem arrTake_regs {n} : (s.arrTake n).regs = s.regs := rfl
@[simp] theorem arrTake_wide {n} : (s.arrTake n).wide = s.wide := rfl
@[simp] theorem arrTake_rsv {n} : (s.arrTake n).rsv = s.rsv := rfl
@[simp] theorem arrTake_ledgers {n} : (s.arrTake n).ledgers = s.ledgers := rfl
@[simp] theorem arrTake_out {n} : (s.arrTake n).out = s.out := rfl
@[simp] theorem arrTake_reply {n} : (s.arrTake n).reply = s.reply := rfl
@[simp] theorem arrTake_flt {n} : (s.arrTake n).flt = s.flt := rfl
@[simp] theorem arrTake_pow {n} : (s.arrTake n).pow = s.pow := rfl
@[simp] theorem arrTake_ops {n} : (s.arrTake n).ops = s.ops := rfl
@[simp] theorem arrTake_hif {n} : (s.arrTake n).hif = s.hif := rfl
@[simp] theorem arrTake_mem {n} : (s.arrTake n).mem = s.mem := rfl
@[simp] theorem arrTake_pan {n} : (s.arrTake n).pan = s.pan := rfl
@[simp] theorem arrTake_cad {n} : (s.arrTake n).cad = s.cad := rfl
@[simp] theorem arrTake_srv {n} : (s.arrTake n).srv = s.srv := rfl
@[simp] theorem arrTake_vce {n} : (s.arrTake n).vce = s.vce := rfl
@[simp] theorem arrTake_ing {n} : (s.arrTake n).ing = s.ing := rfl
@[simp] theorem arrTake_mgt {n} : (s.arrTake n).mgt = s.mgt := rfl
@[simp] theorem arrTake_sec {n} : (s.arrTake n).sec = s.sec := rfl

@[simp] theorem addLoWrite_pending {page} {v} : (s.addLoWrite page v).pending = s.pending := rfl
@[simp] theorem addLoWrite_free {page} {v} : (s.addLoWrite page v).free = s.free := rfl
@[simp] theorem addLoWrite_time {page} {v} : (s.addLoWrite page v).time = s.time := rfl
@[simp] theorem addLoWrite_regs {page} {v} : (s.addLoWrite page v).regs = s.regs := rfl
@[simp] theorem addLoWrite_wide {page} {v} : (s.addLoWrite page v).wide = s.wide := rfl
@[simp] theorem addLoWrite_rsv {page} {v} : (s.addLoWrite page v).rsv = s.rsv := rfl
@[simp] theorem addLoWrite_ledgers {page} {v} : (s.addLoWrite page v).ledgers = s.ledgers := rfl
@[simp] theorem addLoWrite_out {page} {v} : (s.addLoWrite page v).out = s.out := rfl
@[simp] theorem addLoWrite_reply {page} {v} : (s.addLoWrite page v).reply = s.reply := rfl
@[simp] theorem addLoWrite_flt {page} {v} : (s.addLoWrite page v).flt = s.flt := rfl
@[simp] theorem addLoWrite_pow {page} {v} : (s.addLoWrite page v).pow = s.pow := rfl
@[simp] theorem addLoWrite_hif {page} {v} : (s.addLoWrite page v).hif = s.hif := rfl
@[simp] theorem addLoWrite_mem {page} {v} : (s.addLoWrite page v).mem = s.mem := rfl
@[simp] theorem addLoWrite_pan {page} {v} : (s.addLoWrite page v).pan = s.pan := rfl
@[simp] theorem addLoWrite_cad {page} {v} : (s.addLoWrite page v).cad = s.cad := rfl
@[simp] theorem addLoWrite_srv {page} {v} : (s.addLoWrite page v).srv = s.srv := rfl
@[simp] theorem addLoWrite_vce {page} {v} : (s.addLoWrite page v).vce = s.vce := rfl
@[simp] theorem addLoWrite_mur {page} {v} : (s.addLoWrite page v).mur = s.mur := rfl
@[simp] theorem addLoWrite_ing {page} {v} : (s.addLoWrite page v).ing = s.ing := rfl
@[simp] theorem addLoWrite_mgt {page} {v} : (s.addLoWrite page v).mgt = s.mgt := rfl
@[simp] theorem addLoWrite_sec {page} {v} : (s.addLoWrite page v).sec = s.sec := rfl

@[simp] theorem setCarts_pending {m} : (s.setCarts m).pending = s.pending := rfl
@[simp] theorem setCarts_free {m} : (s.setCarts m).free = s.free := rfl
@[simp] theorem setCarts_time {m} : (s.setCarts m).time = s.time := rfl
@[simp] theorem setCarts_regs {m} : (s.setCarts m).regs = s.regs := rfl
@[simp] theorem setCarts_wide {m} : (s.setCarts m).wide = s.wide := rfl
@[simp] theorem setCarts_rsv {m} : (s.setCarts m).rsv = s.rsv := rfl
@[simp] theorem setCarts_ledgers {m} : (s.setCarts m).ledgers = s.ledgers := rfl
@[simp] theorem setCarts_out {m} : (s.setCarts m).out = s.out := rfl
@[simp] theorem setCarts_reply {m} : (s.setCarts m).reply = s.reply := rfl
@[simp] theorem setCarts_flt {m} : (s.setCarts m).flt = s.flt := rfl
@[simp] theorem setCarts_pow {m} : (s.setCarts m).pow = s.pow := rfl
@[simp] theorem setCarts_ops {m} : (s.setCarts m).ops = s.ops := rfl
@[simp] theorem setCarts_hif {m} : (s.setCarts m).hif = s.hif := rfl
@[simp] theorem setCarts_mem {m} : (s.setCarts m).mem = s.mem := rfl
@[simp] theorem setCarts_cad {m} : (s.setCarts m).cad = s.cad := rfl
@[simp] theorem setCarts_srv {m} : (s.setCarts m).srv = s.srv := rfl
@[simp] theorem setCarts_vce {m} : (s.setCarts m).vce = s.vce := rfl
@[simp] theorem setCarts_mur {m} : (s.setCarts m).mur = s.mur := rfl
@[simp] theorem setCarts_ing {m} : (s.setCarts m).ing = s.ing := rfl
@[simp] theorem setCarts_mgt {m} : (s.setCarts m).mgt = s.mgt := rfl
@[simp] theorem setCarts_sec {m} : (s.setCarts m).sec = s.sec := rfl

@[simp] theorem blockLost_pending {a} {n} : (s.blockLost a n).pending = s.pending := rfl
@[simp] theorem blockLost_time {a} {n} : (s.blockLost a n).time = s.time := rfl
@[simp] theorem blockLost_regs {a} {n} : (s.blockLost a n).regs = s.regs := rfl
@[simp] theorem blockLost_wide {a} {n} : (s.blockLost a n).wide = s.wide := rfl
@[simp] theorem blockLost_rsv {a} {n} : (s.blockLost a n).rsv = s.rsv := rfl
@[simp] theorem blockLost_ledgers {a} {n} : (s.blockLost a n).ledgers = s.ledgers := rfl
@[simp] theorem blockLost_out {a} {n} : (s.blockLost a n).out = s.out := rfl
@[simp] theorem blockLost_reply {a} {n} : (s.blockLost a n).reply = s.reply := rfl
@[simp] theorem blockLost_flt {a} {n} : (s.blockLost a n).flt = s.flt := rfl
@[simp] theorem blockLost_pow {a} {n} : (s.blockLost a n).pow = s.pow := rfl
@[simp] theorem blockLost_ops {a} {n} : (s.blockLost a n).ops = s.ops := rfl
@[simp] theorem blockLost_hif {a} {n} : (s.blockLost a n).hif = s.hif := rfl
@[simp] theorem blockLost_pan {a} {n} : (s.blockLost a n).pan = s.pan := rfl
@[simp] theorem blockLost_cad {a} {n} : (s.blockLost a n).cad = s.cad := rfl
@[simp] theorem blockLost_srv {a} {n} : (s.blockLost a n).srv = s.srv := rfl
@[simp] theorem blockLost_vce {a} {n} : (s.blockLost a n).vce = s.vce := rfl
@[simp] theorem blockLost_mur {a} {n} : (s.blockLost a n).mur = s.mur := rfl
@[simp] theorem blockLost_ing {a} {n} : (s.blockLost a n).ing = s.ing := rfl
@[simp] theorem blockLost_mgt {a} {n} : (s.blockLost a n).mgt = s.mgt := rfl
@[simp] theorem blockLost_sec {a} {n} : (s.blockLost a n).sec = s.sec := rfl

@[simp] theorem aonOn_pending : (s.aonOn).pending = s.pending := rfl
@[simp] theorem aonOn_free : (s.aonOn).free = s.free := rfl
@[simp] theorem aonOn_regs : (s.aonOn).regs = s.regs := rfl
@[simp] theorem aonOn_wide : (s.aonOn).wide = s.wide := rfl
@[simp] theorem aonOn_rsv : (s.aonOn).rsv = s.rsv := rfl
@[simp] theorem aonOn_ledgers : (s.aonOn).ledgers = s.ledgers := rfl
@[simp] theorem aonOn_out : (s.aonOn).out = s.out := rfl
@[simp] theorem aonOn_reply : (s.aonOn).reply = s.reply := rfl
@[simp] theorem aonOn_ops : (s.aonOn).ops = s.ops := rfl
@[simp] theorem aonOn_hif : (s.aonOn).hif = s.hif := rfl
@[simp] theorem aonOn_mem : (s.aonOn).mem = s.mem := rfl
@[simp] theorem aonOn_pan : (s.aonOn).pan = s.pan := rfl
@[simp] theorem aonOn_cad : (s.aonOn).cad = s.cad := rfl
@[simp] theorem aonOn_srv : (s.aonOn).srv = s.srv := rfl
@[simp] theorem aonOn_vce : (s.aonOn).vce = s.vce := rfl
@[simp] theorem aonOn_mur : (s.aonOn).mur = s.mur := rfl
@[simp] theorem aonOn_ing : (s.aonOn).ing = s.ing := rfl
@[simp] theorem aonOn_mgt : (s.aonOn).mgt = s.mgt := rfl
@[simp] theorem aonOn_sec : (s.aonOn).sec = s.sec := rfl

@[simp] theorem reading_pending {i} {v} : (s.reading i v).pending = s.pending := rfl
@[simp] theorem reading_free {i} {v} : (s.reading i v).free = s.free := rfl
@[simp] theorem reading_time {i} {v} : (s.reading i v).time = s.time := rfl
@[simp] theorem reading_regs {i} {v} : (s.reading i v).regs = s.regs := rfl
@[simp] theorem reading_wide {i} {v} : (s.reading i v).wide = s.wide := rfl
@[simp] theorem reading_rsv {i} {v} : (s.reading i v).rsv = s.rsv := rfl
@[simp] theorem reading_ledgers {i} {v} : (s.reading i v).ledgers = s.ledgers := rfl
@[simp] theorem reading_out {i} {v} : (s.reading i v).out = s.out := rfl
@[simp] theorem reading_reply {i} {v} : (s.reading i v).reply = s.reply := rfl
@[simp] theorem reading_flt {i} {v} : (s.reading i v).flt = s.flt := rfl
@[simp] theorem reading_pow {i} {v} : (s.reading i v).pow = s.pow := rfl
@[simp] theorem reading_ops {i} {v} : (s.reading i v).ops = s.ops := rfl
@[simp] theorem reading_hif {i} {v} : (s.reading i v).hif = s.hif := rfl
@[simp] theorem reading_mem {i} {v} : (s.reading i v).mem = s.mem := rfl
@[simp] theorem reading_pan {i} {v} : (s.reading i v).pan = s.pan := rfl
@[simp] theorem reading_cad {i} {v} : (s.reading i v).cad = s.cad := rfl
@[simp] theorem reading_srv {i} {v} : (s.reading i v).srv = s.srv := rfl
@[simp] theorem reading_vce {i} {v} : (s.reading i v).vce = s.vce := rfl
@[simp] theorem reading_mur {i} {v} : (s.reading i v).mur = s.mur := rfl
@[simp] theorem reading_ing {i} {v} : (s.reading i v).ing = s.ing := rfl
@[simp] theorem reading_sec {i} {v} : (s.reading i v).sec = s.sec := rfl

@[simp] theorem envDrop_pending : (s.envDrop).pending = s.pending := rfl
@[simp] theorem envDrop_free : (s.envDrop).free = s.free := rfl
@[simp] theorem envDrop_time : (s.envDrop).time = s.time := rfl
@[simp] theorem envDrop_regs : (s.envDrop).regs = s.regs := rfl
@[simp] theorem envDrop_wide : (s.envDrop).wide = s.wide := rfl
@[simp] theorem envDrop_rsv : (s.envDrop).rsv = s.rsv := rfl
@[simp] theorem envDrop_ledgers : (s.envDrop).ledgers = s.ledgers := rfl
@[simp] theorem envDrop_out : (s.envDrop).out = s.out := rfl
@[simp] theorem envDrop_reply : (s.envDrop).reply = s.reply := rfl
@[simp] theorem envDrop_flt : (s.envDrop).flt = s.flt := rfl
@[simp] theorem envDrop_ops : (s.envDrop).ops = s.ops := rfl
@[simp] theorem envDrop_hif : (s.envDrop).hif = s.hif := rfl
@[simp] theorem envDrop_mem : (s.envDrop).mem = s.mem := rfl
@[simp] theorem envDrop_pan : (s.envDrop).pan = s.pan := rfl
@[simp] theorem envDrop_cad : (s.envDrop).cad = s.cad := rfl
@[simp] theorem envDrop_srv : (s.envDrop).srv = s.srv := rfl
@[simp] theorem envDrop_vce : (s.envDrop).vce = s.vce := rfl
@[simp] theorem envDrop_mur : (s.envDrop).mur = s.mur := rfl
@[simp] theorem envDrop_ing : (s.envDrop).ing = s.ing := rfl
@[simp] theorem envDrop_mgt : (s.envDrop).mgt = s.mgt := rfl
@[simp] theorem envDrop_sec : (s.envDrop).sec = s.sec := rfl

@[simp] theorem tdiDrop_pending {t} : (s.tdiDrop t).pending = s.pending := rfl
@[simp] theorem tdiDrop_free {t} : (s.tdiDrop t).free = s.free := rfl
@[simp] theorem tdiDrop_time {t} : (s.tdiDrop t).time = s.time := rfl
@[simp] theorem tdiDrop_regs {t} : (s.tdiDrop t).regs = s.regs := rfl
@[simp] theorem tdiDrop_wide {t} : (s.tdiDrop t).wide = s.wide := rfl
@[simp] theorem tdiDrop_rsv {t} : (s.tdiDrop t).rsv = s.rsv := rfl
@[simp] theorem tdiDrop_ledgers {t} : (s.tdiDrop t).ledgers = s.ledgers := rfl
@[simp] theorem tdiDrop_out {t} : (s.tdiDrop t).out = s.out := rfl
@[simp] theorem tdiDrop_reply {t} : (s.tdiDrop t).reply = s.reply := rfl
@[simp] theorem tdiDrop_flt {t} : (s.tdiDrop t).flt = s.flt := rfl
@[simp] theorem tdiDrop_pow {t} : (s.tdiDrop t).pow = s.pow := rfl
@[simp] theorem tdiDrop_ops {t} : (s.tdiDrop t).ops = s.ops := rfl
@[simp] theorem tdiDrop_hif {t} : (s.tdiDrop t).hif = s.hif := rfl
@[simp] theorem tdiDrop_mem {t} : (s.tdiDrop t).mem = s.mem := rfl
@[simp] theorem tdiDrop_pan {t} : (s.tdiDrop t).pan = s.pan := rfl
@[simp] theorem tdiDrop_cad {t} : (s.tdiDrop t).cad = s.cad := rfl
@[simp] theorem tdiDrop_srv {t} : (s.tdiDrop t).srv = s.srv := rfl
@[simp] theorem tdiDrop_vce {t} : (s.tdiDrop t).vce = s.vce := rfl
@[simp] theorem tdiDrop_mur {t} : (s.tdiDrop t).mur = s.mur := rfl
@[simp] theorem tdiDrop_ing {t} : (s.tdiDrop t).ing = s.ing := rfl
@[simp] theorem tdiDrop_mgt {t} : (s.tdiDrop t).mgt = s.mgt := rfl

@[simp] theorem setPower_pending {fn} {d3} : (s.setPower fn d3).pending = s.pending := rfl
@[simp] theorem setPower_free {fn} {d3} : (s.setPower fn d3).free = s.free := rfl
@[simp] theorem setPower_time {fn} {d3} : (s.setPower fn d3).time = s.time := rfl
@[simp] theorem setPower_regs {fn} {d3} : (s.setPower fn d3).regs = s.regs := rfl
@[simp] theorem setPower_wide {fn} {d3} : (s.setPower fn d3).wide = s.wide := rfl
@[simp] theorem setPower_rsv {fn} {d3} : (s.setPower fn d3).rsv = s.rsv := rfl
@[simp] theorem setPower_ledgers {fn} {d3} : (s.setPower fn d3).ledgers = s.ledgers := rfl
@[simp] theorem setPower_out {fn} {d3} : (s.setPower fn d3).out = s.out := rfl
@[simp] theorem setPower_reply {fn} {d3} : (s.setPower fn d3).reply = s.reply := rfl
@[simp] theorem setPower_flt {fn} {d3} : (s.setPower fn d3).flt = s.flt := rfl
@[simp] theorem setPower_pow {fn} {d3} : (s.setPower fn d3).pow = s.pow := rfl
@[simp] theorem setPower_ops {fn} {d3} : (s.setPower fn d3).ops = s.ops := rfl
@[simp] theorem setPower_mem {fn} {d3} : (s.setPower fn d3).mem = s.mem := rfl
@[simp] theorem setPower_pan {fn} {d3} : (s.setPower fn d3).pan = s.pan := rfl
@[simp] theorem setPower_cad {fn} {d3} : (s.setPower fn d3).cad = s.cad := rfl
@[simp] theorem setPower_srv {fn} {d3} : (s.setPower fn d3).srv = s.srv := rfl
@[simp] theorem setPower_vce {fn} {d3} : (s.setPower fn d3).vce = s.vce := rfl
@[simp] theorem setPower_mur {fn} {d3} : (s.setPower fn d3).mur = s.mur := rfl
@[simp] theorem setPower_ing {fn} {d3} : (s.setPower fn d3).ing = s.ing := rfl
@[simp] theorem setPower_mgt {fn} {d3} : (s.setPower fn d3).mgt = s.mgt := rfl
@[simp] theorem setPower_sec {fn} {d3} : (s.setPower fn d3).sec = s.sec := rfl

@[simp] theorem vOrder_pending : (s.vOrder).pending = s.pending := rfl
@[simp] theorem vOrder_free : (s.vOrder).free = s.free := rfl
@[simp] theorem vOrder_time : (s.vOrder).time = s.time := rfl
@[simp] theorem vOrder_regs : (s.vOrder).regs = s.regs := rfl
@[simp] theorem vOrder_wide : (s.vOrder).wide = s.wide := rfl
@[simp] theorem vOrder_rsv : (s.vOrder).rsv = s.rsv := rfl
@[simp] theorem vOrder_ledgers : (s.vOrder).ledgers = s.ledgers := rfl
@[simp] theorem vOrder_out : (s.vOrder).out = s.out := rfl
@[simp] theorem vOrder_reply : (s.vOrder).reply = s.reply := rfl
@[simp] theorem vOrder_flt : (s.vOrder).flt = s.flt := rfl
@[simp] theorem vOrder_pow : (s.vOrder).pow = s.pow := rfl
@[simp] theorem vOrder_ops : (s.vOrder).ops = s.ops := rfl
@[simp] theorem vOrder_hif : (s.vOrder).hif = s.hif := rfl
@[simp] theorem vOrder_mem : (s.vOrder).mem = s.mem := rfl
@[simp] theorem vOrder_pan : (s.vOrder).pan = s.pan := rfl
@[simp] theorem vOrder_cad : (s.vOrder).cad = s.cad := rfl
@[simp] theorem vOrder_srv : (s.vOrder).srv = s.srv := rfl
@[simp] theorem vOrder_mur : (s.vOrder).mur = s.mur := rfl
@[simp] theorem vOrder_ing : (s.vOrder).ing = s.ing := rfl
@[simp] theorem vOrder_mgt : (s.vOrder).mgt = s.mgt := rfl
@[simp] theorem vOrder_sec : (s.vOrder).sec = s.sec := rfl

end Sys2Proof.Machine.State
end

