-- ==== Sys2Proof/Laws/Regs.lean ====
section
/-! SUPPORT. Reading a register, a field, a pair, a ledger or a table entry after it, or another, was written. -/

namespace Sys2Proof.Machine

open Sys2Proof

variable {s : State}

/-! ### Words -/

@[simp] theorem word_setWord_self (p w : Nat) (v : Word) : (s.setWord p w v).word p w = v := smGet_smSet_self _ _ _ _

theorem word_setWord_ne {p w p' w' : Nat} (v : Word) (h : p' * 1024 + w' ≠ p * 1024 + w) : (s.setWord p w v).word p' w' = s.word p' w' :=
  smGet_smSet_ne _ _ _ _ h

/-- Two words of one page. -/
@[simp] theorem word_setWord_other {p w w' : Nat} (v : Word) (h : w' ≠ w) : (s.setWord p w v).word p w' = s.word p w' :=
  word_setWord_ne v (by omega)

/-- A word of another page, by the words' places in their pages. -/
theorem word_setWord_far {p w p' w' : Nat} (v : Word) (h : w' ≠ w) (hw : w < 1024) (hw' : w' < 1024) :
    (s.setWord p w v).word p' w' = s.word p' w' :=
  word_setWord_ne v (by omega)

theorem word_of_regs {t : State} (h : t.regs = s.regs) (p w : Nat) : t.word p w = s.word p w := by
  unfold State.word; rw [h]

theorem fld_of_regs {t : State} (h : t.regs = s.regs) (p : Nat) (f : Fld) : t.fld p f = s.fld p f := by
  unfold State.fld; rw [word_of_regs h]

theorem st_of_regs {t : State} (h : t.regs = s.regs) (p : Nat) : t.st p = s.st p := fld_of_regs h p _

theorem wideOf_of_wide {t : State} (h : t.wide = s.wide) (p w : Nat) : t.wideOf p w = s.wideOf p w := by
  unfold State.wideOf; rw [h]

theorem ledger_of_ledgers {t : State} (h : t.ledgers = s.ledgers) (p i : Nat) : t.ledger p i = s.ledger p i := by
  unfold State.ledger; rw [h]

/-! ### Fields -/

theorem part_lt {x w y l : Nat} (hx : x < w) (hy : y < l) : x * l + y < w * l := by
  have := Nat.mul_le_mul_right l (Nat.succ_le_of_lt hx)
  rw [Nat.succ_mul] at this
  omega

theorem word_split (v : Word) (f : Fld) (h1 : f.lsb ≤ f.msb) :
    v.toNat = v.toNat / 2 ^ (f.msb + 1) * 2 ^ (f.msb + 1) + fldGet v f * 2 ^ f.lsb + v.toNat % 2 ^ f.lsb := by
  unfold fldGet
  have e : 2 ^ (f.msb + 1) = 2 ^ f.lsb * 2 ^ (f.msb + 1 - f.lsb) := by rw [← Nat.pow_add]; congr 1; omega
  rw [e, ← Nat.div_div_eq_div_mul]
  generalize v.toNat = x
  generalize 2 ^ (f.msb + 1 - f.lsb) = W
  have a := Nat.div_add_mod x (2 ^ f.lsb)
  have b := Nat.div_add_mod (x / 2 ^ f.lsb) W
  generalize x / 2 ^ f.lsb = y at *
  generalize 2 ^ f.lsb = L at *
  calc x = L * y + x % L := a.symm
    _ = L * (W * (y / W) + y % W) + x % L := by rw [b]
    _ = _ := by ring

theorem fldPut_toNat (v : Word) (f : Fld) (x : Nat) (h1 : f.lsb ≤ f.msb) (h2 : f.msb ≤ 31) :
    (fldPut v f x).toNat = v.toNat / 2 ^ (f.msb + 1) * 2 ^ (f.msb + 1) + x % 2 ^ (f.msb + 1 - f.lsb) * 2 ^ f.lsb + v.toNat % 2 ^ f.lsb := by
  unfold fldPut
  have hs := word_split v f h1
  have hv := v.isLt
  have e : 2 ^ (f.msb + 1) = 2 ^ (f.msb + 1 - f.lsb) * 2 ^ f.lsb := by rw [← Nat.pow_add]; congr 1; omega
  have lo := Nat.mod_lt v.toNat (Nat.two_pow_pos f.lsb)
  have hx := Nat.mod_lt x (Nat.two_pow_pos (f.msb + 1 - f.lsb))
  have mid : x % 2 ^ (f.msb + 1 - f.lsb) * 2 ^ f.lsb + v.toNat % 2 ^ f.lsb < 2 ^ (f.msb + 1) := by
    rw [e]; exact part_lt hx lo
  have hi : v.toNat / 2 ^ (f.msb + 1) * 2 ^ (f.msb + 1) + 2 ^ (f.msb + 1) ≤ 2 ^ 32 := by
    have d : 2 ^ 32 = 2 ^ (31 - f.msb) * 2 ^ (f.msb + 1) := by rw [← Nat.pow_add]; congr 1; omega
    have q : v.toNat / 2 ^ (f.msb + 1) < 2 ^ (31 - f.msb) := by
      rw [Nat.div_lt_iff_lt_mul (Nat.two_pow_pos _), ← d]; exact hv
    rw [d]; nlinarith [Nat.two_pow_pos (f.msb + 1)]
  rw [BitVec.toNat_ofNat, Nat.mod_eq_of_lt]
  · omega
  · omega

/-- A field just written. -/
theorem fldGet_fldPut_self (v : Word) (f : Fld) (x : Nat) (h1 : f.lsb ≤ f.msb) (h2 : f.msb ≤ 31) :
    fldGet (fldPut v f x) f = x % 2 ^ (f.msb + 1 - f.lsb) := by
  have e : 2 ^ (f.msb + 1) = 2 ^ (f.msb + 1 - f.lsb) * 2 ^ f.lsb := by rw [← Nat.pow_add]; congr 1; omega
  have lo := Nat.mod_lt v.toNat (Nat.two_pow_pos f.lsb)
  unfold fldGet
  rw [fldPut_toNat v f x h1 h2]
  have a : (v.toNat / 2 ^ (f.msb + 1) * 2 ^ (f.msb + 1) + x % 2 ^ (f.msb + 1 - f.lsb) * 2 ^ f.lsb + v.toNat % 2 ^ f.lsb) / 2 ^ f.lsb =
      v.toNat / 2 ^ (f.msb + 1) * 2 ^ (f.msb + 1 - f.lsb) + x % 2 ^ (f.msb + 1 - f.lsb) := by
    rw [e]
    generalize v.toNat / (2 ^ (f.msb + 1 - f.lsb) * 2 ^ f.lsb) = A
    generalize x % 2 ^ (f.msb + 1 - f.lsb) = X
    rw [show A * (2 ^ (f.msb + 1 - f.lsb) * 2 ^ f.lsb) + X * 2 ^ f.lsb + v.toNat % 2 ^ f.lsb =
      v.toNat % 2 ^ f.lsb + (A * 2 ^ (f.msb + 1 - f.lsb) + X) * 2 ^ f.lsb by ring]
    rw [Nat.add_mul_div_right _ _ (Nat.two_pow_pos _), Nat.div_eq_of_lt lo, Nat.zero_add]
  rw [a, Nat.mul_comm, Nat.mul_add_mod, Nat.mod_mod]

/-- A field below one just written. -/
theorem fldGet_fldPut_below (v : Word) (f g : Fld) (x : Nat) (h1 : f.lsb ≤ f.msb) (h2 : f.msb ≤ 31) (hg : g.lsb ≤ g.msb)
    (h : g.msb < f.lsb) : fldGet (fldPut v f x) g = fldGet v g := by
  have key : (fldPut v f x).toNat % 2 ^ f.lsb = v.toNat % 2 ^ f.lsb := by
    have e : 2 ^ (f.msb + 1) = 2 ^ (f.msb + 1 - f.lsb) * 2 ^ f.lsb := by rw [← Nat.pow_add]; congr 1; omega
    rw [fldPut_toNat v f x h1 h2, e, ← Nat.mul_assoc, ← Nat.add_mul, Nat.mul_comm, Nat.mul_add_mod, Nat.mod_mod]
  have red : ∀ y : Nat, y / 2 ^ g.lsb % 2 ^ (g.msb + 1 - g.lsb) = (y % 2 ^ f.lsb) / 2 ^ g.lsb % 2 ^ (g.msb + 1 - g.lsb) := by
    intro y
    have e : 2 ^ f.lsb = 2 ^ g.lsb * 2 ^ (f.lsb - g.lsb) := by rw [← Nat.pow_add]; congr 1; omega
    rw [e, Nat.mod_mul_right_div_self, Nat.mod_mod_of_dvd]
    exact Nat.pow_dvd_pow 2 (by omega)
  unfold fldGet
  rw [red, key, ← red]

/-- A field above one just written. -/
theorem fldGet_fldPut_above (v : Word) (f g : Fld) (x : Nat) (h1 : f.lsb ≤ f.msb) (h2 : f.msb ≤ 31)
    (h : f.msb < g.lsb) : fldGet (fldPut v f x) g = fldGet v g := by
  have key : (fldPut v f x).toNat / 2 ^ (f.msb + 1) = v.toNat / 2 ^ (f.msb + 1) := by
    have lo := Nat.mod_lt v.toNat (Nat.two_pow_pos f.lsb)
    have hx := Nat.mod_lt x (Nat.two_pow_pos (f.msb + 1 - f.lsb))
    have e : 2 ^ (f.msb + 1) = 2 ^ (f.msb + 1 - f.lsb) * 2 ^ f.lsb := by rw [← Nat.pow_add]; congr 1; omega
    rw [fldPut_toNat v f x h1 h2]
    generalize v.toNat / 2 ^ (f.msb + 1) = A
    rw [show A * 2 ^ (f.msb + 1) + x % 2 ^ (f.msb + 1 - f.lsb) * 2 ^ f.lsb + v.toNat % 2 ^ f.lsb =
      (x % 2 ^ (f.msb + 1 - f.lsb) * 2 ^ f.lsb + v.toNat % 2 ^ f.lsb) + A * 2 ^ (f.msb + 1) by ring]
    rw [Nat.add_mul_div_right _ _ (Nat.two_pow_pos _), Nat.div_eq_of_lt, Nat.zero_add]
    rw [e]; exact part_lt hx lo
  have red : ∀ y : Nat, y / 2 ^ g.lsb = y / 2 ^ (f.msb + 1) / 2 ^ (g.lsb - (f.msb + 1)) := by
    intro y
    rw [Nat.div_div_eq_div_mul, ← Nat.pow_add]; congr 2; omega
  unfold fldGet
  rw [red, key, ← red]

@[simp] theorem fld_setFld_self (p : Nat) (f : Fld) (x : Nat) (h1 : f.lsb ≤ f.msb) (h2 : f.msb ≤ 31) :
    (s.setFld p f x).fld p f = x % 2 ^ (f.msb + 1 - f.lsb) := by
  unfold State.fld State.setFld
  rw [word_setWord_self, fldGet_fldPut_self _ f x h1 h2]

theorem fld_setWord_self (p : Nat) (f : Fld) (v : Word) : (s.setWord p f.word v).fld p f = fldGet v f := by
  unfold State.fld; rw [word_setWord_self]

theorem fld_setWord_ne {p w p' : Nat} {f : Fld} (v : Word) (h : p' * 1024 + f.word ≠ p * 1024 + w) :
    (s.setWord p w v).fld p' f = s.fld p' f := by
  unfold State.fld; rw [word_setWord_ne v h]

theorem word_setFld_ne {p p' w' : Nat} {f : Fld} (x : Nat) (h : p' * 1024 + w' ≠ p * 1024 + f.word) :
    (s.setFld p f x).word p' w' = s.word p' w' := word_setWord_ne _ h

theorem fld_setFld_ne {p p' : Nat} {f g : Fld} (x : Nat) (h : p' * 1024 + g.word ≠ p * 1024 + f.word) :
    (s.setFld p f x).fld p' g = s.fld p' g := fld_setWord_ne _ h

/-- Another field of the same word. -/
theorem fld_setFld_apart {p : Nat} {f g : Fld} (x : Nat) (hw : g.word = f.word) (h1 : f.lsb ≤ f.msb) (h2 : f.msb ≤ 31)
    (hg : g.lsb ≤ g.msb) (h : g.msb < f.lsb ∨ f.msb < g.lsb) : (s.setFld p f x).fld p g = s.fld p g := by
  unfold State.fld State.setFld
  rw [hw, word_setWord_self]
  rcases h with h | h
  · exact fldGet_fldPut_below _ f g x h1 h2 hg h
  · exact fldGet_fldPut_above _ f g x h1 h2 h

/-! ### Pairs, ledgers and tables -/

@[simp] theorem wideOf_setWide_self (p w v : Nat) : (s.setWide p w v).wideOf p w = v % 2 ^ 64 := smGet_smSet_self _ _ _ _

theorem wideOf_setWide_ne {p w p' w' : Nat} (v : Nat) (h : p' * 1024 + w' ≠ p * 1024 + w) : (s.setWide p w v).wideOf p' w' = s.wideOf p' w' :=
  smGet_smSet_ne _ _ _ _ h

@[simp] theorem panel_setPanel_self (p : Nat) (x : Panel) : (s.setPanel p x).panel p = x := smGet_smSet_self _ _ _ _

theorem panel_setPanel_ne {p q : Nat} (x : Panel) (h : q ≠ p) : (s.setPanel p x).panel q = s.panel q := smGet_smSet_ne _ _ _ _ h

theorem panel_of_pan {t : State} (h : t.pan = s.pan) (p : Nat) : t.panel p = s.panel p := by unfold State.panel; rw [h]

@[simp] theorem canvas_setCanvas_self (c : Nat) (x : Canvas) : (s.setCanvas c x).canvas c = x := smGet_smSet_self _ _ _ _

@[simp] theorem dom_setDom_self (d : Nat) (x : Dom) : (s.setDom d x).dom d = x := smGet_smSet_self _ _ _ _

theorem dom_setDom_ne {d e : Nat} (x : Dom) (h : e ≠ d) : (s.setDom d x).dom e = s.dom e := smGet_smSet_ne _ _ _ _ h

theorem dom_of_cad {t : State} (h : t.cad = s.cad) (d : Nat) : t.dom d = s.dom d := by unfold State.dom; rw [h]

@[simp] theorem refCh_setRef_self (i : Nat) (x : RefCh) : (s.setRef i x).refCh i = x := smGet_smSet_self _ _ _ _

theorem refCh_of_cad {t : State} (h : t.cad = s.cad) (i : Nat) : t.refCh i = s.refCh i := by unfold State.refCh; rw [h]

@[simp] theorem op_setOp_self (t : Nat) (o : Op) : (s.setOp t o).op t = some o := smFind_smPut_self _ _ _

theorem op_setOp_ne {t u : Nat} (o : Op) (h : u ≠ t) : (s.setOp t o).op u = s.op u := smFind_smPut_ne _ _ h

theorem op_of_ops {t : State} (h : t.ops = s.ops) (tag : Nat) : t.op tag = s.op tag := by unfold State.op; rw [h]

@[simp] theorem seq_setSeq_self (k : Nat) (q : Seq) : (s.setSeq k q).seq k = some q := smFind_smPut_self _ _ _

@[simp] theorem tenant_setTenant_self (t : Nat) (x : Tenant) : (s.setTenant t x).tenant t = x := smGet_smSet_self _ _ _ _

@[simp] theorem mport_setMport_self (p : Nat) (x : MPort) : (s.setMport p x).mport p = x := smGet_smSet_self _ _ _ _

theorem mport_of_mur {t : State} (h : t.mur = s.mur) (p : Nat) : t.mport p = s.mport p := by unfold State.mport; rw [h]

/-! ### Access -/

@[simp] theorem via_of {fn : Nat} {f : State → State} (h : s.reaches fn = true) : s.via fn f = f s := by simp [State.via, h]

theorem via_not {fn : Nat} {f : State → State} (h : s.reaches fn = false) : s.via fn f = s := by simp [State.via, h]

/-- The events and interrupts of a page touch only its EVT_RAW and EVT_SETCOUNT words. -/
theorem word_event_ne {p b p' w' : Nat} (h1 : p' * 1024 + w' ≠ p * 1024 + 4) (h2 : p' * 1024 + w' ≠ p * 1024 + 8) :
    (s.event p b).word p' w' = s.word p' w' := by
  have hi : ∀ t : State, (t.irq p).regs = t.regs := by
    intro t; unfold State.irq
    split
    · rfl
    · split <;> rfl
  have e : (s.event p b).word p' w' =
      ((s.setWord p hRAW (s.word p hRAW ||| BitVec.ofNat 32 (2 ^ b))).setFld p fSETCOUNT
        ((s.setWord p hRAW (s.word p hRAW ||| BitVec.ofNat 32 (2 ^ b))).fld p fSETCOUNT + 1)).word p' w' := word_of_regs (hi _) _ _
  exact e.trans ((word_setFld_ne _ h2).trans (word_setWord_ne _ h1))

/-- A register beyond the header is unchanged by an event of any page. -/
@[simp] theorem word_event {p b p' w' : Nat} (h : 9 ≤ w') (hw : w' < 1024) : (s.event p b).word p' w' = s.word p' w' :=
  word_event_ne (by omega) (by omega)

theorem fld_event {p b p' : Nat} {f : Fld} (h : 9 ≤ f.word) (hw : f.word < 1024) : (s.event p b).fld p' f = s.fld p' f := by
  unfold State.fld; rw [word_event h hw]

/-- BLK_STATE is unchanged by an event. -/
theorem st_event {p b p' : Nat} : (s.event p b).st p' = s.st p' := by
  unfold State.st State.fld fSTATE
  rw [word_event_ne] <;> dsimp only <;> omega

end Sys2Proof.Machine
end

