-- ==== Sys2Proof/Laws/Router.lean ====
section
/-! SUPPORT. What each operation of Machine/Router.lean touches at most, and that it keeps the ledgers and the byte stores in form (Chg). -/

namespace Sys2Proof.Machine

open Sys2Proof

variable {ps : List Part} {r s t : State}



theorem Chg.storeRanged {a1 a2 a3 a4 a5 a6} (h : Chg ps r s) (hs : [Part.regs, .rsv, .out, .hif] ⊆ ps) : Chg ps r (State.storeRanged s a1 a2 a3 a4 a5 a6) :=
  (Chg.ite (h.storeReg (within hs (by decide))) (h.discard (within hs (by decide))))

theorem Chg.storeTen {a1 a2 a3 a4} (h : Chg ps r s) (hs : [Part.regs, .rsv, .out, .hif] ⊆ ps) : Chg ps r (State.storeTen s a1 a2 a3 a4) :=
  (Chg.ite (h.storeReg (within hs (by decide))) (h.discard (within hs (by decide))))

theorem Chg.headerWrite {a1 a2 a3} (h : Chg ps r s) (hs : [Part.free, .regs, .wide, .rsv, .ledgers, .out, .flt, .pow, .ops, .hif, .mem, .pan, .cad, .srv, .vce, .mur, .ing] ⊆ ps) : Chg ps r (State.headerWrite s a1 a2 a3) := by
  unfold State.headerWrite
  refine Chg.ite ?_ ?_
  · exact (h.ctrlWrite (within hs (by decide)))
  · refine Chg.ite ?_ ?_
    · exact (h.evtClear (within hs (by decide)))
    · refine Chg.ite ?_ ?_
      · exact (h.evtEnable (within hs (by decide)))
      · refine Chg.ite ?_ ?_
        · exact (h.evtForceW (within hs (by decide)))
        · refine Chg.ite ?_ ?_
          · exact (h.errWrite (within hs (by decide)))
          · refine Chg.ite ?_ ?_
            · exact (h.ledgerSel (within hs (by decide)))
            · refine Chg.ite ?_ ?_
              · exact (h.pwrWrite (within hs (by decide)))
              · refine Chg.ite ?_ ?_
                · exact (h.clkWrite (within hs (by decide)))
                · split
                  · rename_i y0 y1 y2
                    exact (h.noteRsv (within hs (by decide)))
                  · rename_i y3 y4
                    exact (Chg.ite h (h.discard (within hs (by decide))))

theorem Chg.modWrite {a1 a2} (h : Chg ps r s) (hs : [Part.regs, .wide, .rsv, .ledgers, .out, .flt, .pow, .ops, .hif, .mem, .pan, .cad, .srv, .vce, .mur, .ing, .sec] ⊆ ps) : Chg ps r (State.modWrite s a1 a2) :=
  (Chg.ite (h.pdReq0 (within hs (by decide))) (Chg.ite (h.pdReq1 (within hs (by decide))) (Chg.ite (h.modResetWrite (within hs (by decide))) (h.storeReg (within hs (by decide))))))

theorem Chg.fltWrite {a1 a2} (h : Chg ps r s) (hs : [Part.free, .regs, .rsv, .ledgers, .out, .flt, .pow, .ops, .hif, .mem, .pan, .cad, .ing] ⊆ ps) : Chg ps r (State.fltWrite s a1 a2) :=
  (Chg.ite (h.storeRanged (within hs (by decide))) (Chg.ite (h.storeRanged (within hs (by decide))) (Chg.ite (h.fltAck (within hs (by decide))) (Chg.ite (h.fltInject (within hs (by decide))) (h.storeReg (within hs (by decide)))))))

theorem Chg.cadWrite {a1 a2 a3} (h : Chg ps r s) (hs : [Part.regs, .rsv, .out, .hif, .cad] ⊆ ps) : Chg ps r (State.cadWrite s a1 a2 a3) := by
  unfold State.cadWrite
  extract_lets -underBinder v0
  split
  · rename_i y1 y2 y3
    exact (h.eptData (within hs (by decide)))
  · rename_i y4 y5
    exact (Chg.ite (h.eptCommit (within hs (by decide))) (h.storeReg (within hs (by decide))))

theorem Chg.varWrite {a1 a2} (h : Chg ps r s) (hs : [Part.regs, .rsv, .out, .hif] ⊆ ps) : Chg ps r (State.varWrite s a1 a2) :=
  (Chg.ite (Chg.ite (h.storeReg (within hs (by decide))) (h.discard (within hs (by decide)))) (h.storeReg (within hs (by decide))))

theorem Chg.tenWrite {a1 a2} (h : Chg ps r s) (hs : [Part.free, .regs, .rsv, .ledgers, .out, .flt, .pow, .ops, .hif, .mem, .pan, .cad, .srv, .vce, .mur, .ing, .sec] ⊆ ps) : Chg ps r (State.tenWrite s a1 a2) := by
  unfold State.tenWrite
  extract_lets -underBinder v0
  exact (Chg.ite (h.tenCmd (within hs (by decide))) (Chg.ite (Chg.ite (h.discard (within hs (by decide))) (h.storeAt (within hs (by decide)))) (h.storeReg (within hs (by decide)))))

theorem Chg.setWrite {a1 a2} (h : Chg ps r s) (hs : [Part.regs, .rsv, .out, .hif] ⊆ ps) : Chg ps r (State.setWrite s a1 a2) := by
  unfold State.setWrite
  extract_lets -underBinder v0
  exact (Chg.ite (h.storeReg (within hs (by decide))) (Chg.ite (h.discard (within hs (by decide))) (h.storeAt (within hs (by decide)))))

theorem Chg.secWrite {a1 a2} (h : Chg ps r s) (hs : [Part.free, .regs, .wide, .rsv, .ledgers, .out, .flt, .pow, .ops, .hif, .mem, .pan, .cad, .srv, .vce, .mur, .ing, .sec] ⊆ ps) : Chg ps r (State.secWrite s a1 a2) := by
  unfold State.secWrite
  extract_lets -underBinder v0
  exact (Chg.ite (h.lcCmd (within hs (by decide))) (Chg.ite (h.arbCmd (within hs (by decide))) (Chg.ite (h.keyCmd (within hs (by decide))) (Chg.ite (h.wrCmd (within hs (by decide))) (Chg.ite (Chg.ite (h.storeAt (within hs (by decide))) (h.discard (within hs (by decide)))) (Chg.ite (h.setWord (within hs (by decide))) (h.storeReg (within hs (by decide)))))))))

theorem Chg.mmuWrite {a1 a2} (h : Chg ps r s) (hs : [Part.regs, .rsv, .ledgers, .out, .flt, .pow, .ops, .hif, .mem, .pan, .cad] ⊆ ps) : Chg ps r (State.mmuWrite s a1 a2) :=
  (Chg.ite ((h.noteRsv (within hs (by decide))).mmuCmd (within hs (by decide))) (h.storeReg (within hs (by decide))))

theorem Chg.synWrite {a1 a2 a3} (h : Chg ps r s) (hs : [Part.regs, .rsv, .out, .ops, .hif] ⊆ ps) : Chg ps r (State.synWrite s a1 a2 a3) := by
  unfold State.synWrite
  extract_lets -underBinder v0
  refine Chg.ite ?_ ?_
  · exact (h.addLoWrite (within hs (by decide)))
  · refine Chg.ite ?_ ?_
    · exact (h.addHiWrite (within hs (by decide)))
    · refine Chg.ite ?_ ?_
      · exact ((h.storeReg (within hs (by decide))).addLoWrite (within hs (by decide)))
      · refine Chg.ite ?_ ?_
        · split
          · rename_i y1 y2 y3
            exact (h.storeTen (within hs (by decide)))
          · rename_i y4 y5
            exact (h.storeReg (within hs (by decide)))
        · exact (h.storeReg (within hs (by decide)))

theorem Chg.tierWrite {a1 a2 a3} (h : Chg ps r s) (hs : [Part.regs, .rsv, .ledgers, .out, .hif, .mem] ⊆ ps) : Chg ps r (State.tierWrite s a1 a2 a3) := by
  unfold State.tierWrite
  extract_lets -underBinder v0
  refine Chg.ite ?_ ?_
  · exact ((h.noteRsv (within hs (by decide))).marchCmd (within hs (by decide)))
  · refine Chg.ite ?_ ?_
    · split
      · rename_i y1 y2 y3
        exact ((h.noteRsv (within hs (by decide))).stuBankWrite (within hs (by decide)))
      · rename_i y4 y5
        exact (Chg.ite (h.storeRanged (within hs (by decide))) (h.storeReg (within hs (by decide))))
    · exact (Chg.ite (h.storeRanged (within hs (by decide))) (Chg.ite (h.storeRanged (within hs (by decide))) (h.storeReg (within hs (by decide)))))

theorem Chg.frsWriteReg {a1 a2} (h : Chg ps r s) (hs : [Part.regs, .rsv, .out, .hif] ⊆ ps) : Chg ps r (State.frsWriteReg s a1 a2) :=
  (Chg.ite ((h.noteRsv (within hs (by decide))).frsTail (within hs (by decide))) (Chg.ite (h.noteRsv (within hs (by decide))) (h.storeReg (within hs (by decide)))))

theorem Chg.glzWrite {a1 a2} (h : Chg ps r s) (hs : [Part.regs, .rsv, .out, .hif] ⊆ ps) : Chg ps r (State.glzWrite s a1 a2) := by
  unfold State.glzWrite
  split
  · rename_i y0 y1 y2
    exact (h.storeTen (within hs (by decide)))
  · rename_i y3 y4
    exact (h.storeReg (within hs (by decide)))

theorem Chg.domMembers {a1 a2} (h : Chg ps r s) (hs : [Part.regs, .rsv, .out, .hif, .srv] ⊆ ps) : Chg ps r (State.domMembers s a1 a2) := by
  unfold State.domMembers
  extract_lets -underBinder v0
  have hv0 : Chg ps r v0 := by
    unfold v0
    exact (h.noteRsv (within hs (by decide)))
  clear_value v0
  split
  · rename_i y1 y2
    exact (hv0.discard (within hs (by decide)))
  · rename_i y3 y4 y5
    extract_lets -underBinder v6 v7
    clear_value v6
    exact (hv0.setSdom (within hs (by decide)))

theorem Chg.smpWrite {a1 a2} (h : Chg ps r s) (hs : [Part.free, .regs, .rsv, .ledgers, .out, .hif, .srv] ⊆ ps) : Chg ps r (State.smpWrite s a1 a2) := by
  unfold State.smpWrite
  split
  · rename_i y0 y1 y2 y3
    exact (h.storeTen (within hs (by decide)))
  · rename_i y4 y5 y6 y7 y8
    exact (Chg.ite (h.discard (within hs (by decide))) (h.setWord (within hs (by decide))))
  · rename_i y9 y10 y11 y12
    exact (Chg.ite (h.domKey3 (within hs (by decide))) (Chg.ite (h.domCtrl (within hs (by decide))) (Chg.ite (h.domMembers (within hs (by decide))) (h.storeReg (within hs (by decide))))))

theorem Chg.vceWrite {a1 a2 a3} (h : Chg ps r s) (hs : [Part.regs, .rsv, .out, .hif] ⊆ ps) : Chg ps r (State.vceWrite s a1 a2 a3) := by
  unfold State.vceWrite
  extract_lets -underBinder v0
  split
  · rename_i y1 y2 y3 y4
    exact (h.storeTen (within hs (by decide)))
  · rename_i y5 y6 y7 y8 y9
    exact (h.pdWrite (within hs (by decide)))
  · rename_i y10 y11 y12 y13
    exact (Chg.ite (h.pdCommit (within hs (by decide))) (h.storeReg (within hs (by decide))))

theorem Chg.ingWriteReg {a1 a2} (h : Chg ps r s) (hs : [Part.regs, .rsv, .out, .hif, .ing] ⊆ ps) : Chg ps r (State.ingWriteReg s a1 a2) := by
  unfold State.ingWriteReg
  refine Chg.ite ?_ ?_
  · extract_lets -underBinder v0 v1
    have hv0 : Chg ps r v0 := by
      unfold v0
      exact (h.noteRsv (within hs (by decide)))
    clear_value v0
    exact (Chg.ite (hv0.strCmd (fun _ _ h2 => (h2.strCommit (within hs (by decide)))) (within hs (by decide))) (Chg.ite (hv0.strCmd (fun _ _ h3 => (h3.strDisable (within hs (by decide)))) (within hs (by decide))) (Chg.ite hv0 (hv0.discard (within hs (by decide))))))
  · exact (Chg.ite (h.storeAt (within hs (by decide))) (h.storeReg (within hs (by decide))))

theorem Chg.portWrite {a1 a2 a3} (h : Chg ps r s) (hs : [Part.regs, .rsv, .out, .hif, .mur] ⊆ ps) : Chg ps r (State.portWrite s a1 a2 a3) := by
  unfold State.portWrite
  extract_lets -underBinder v0
  exact (Chg.ite (h.portCtrl (within hs (by decide))) (Chg.ite (h.portTest (within hs (by decide))) (h.storeReg (within hs (by decide)))))

theorem Chg.rtWrite {a1 a2} (h : Chg ps r s) (hs : [Part.regs, .rsv, .out, .hif, .mur] ⊆ ps) : Chg ps r (State.rtWrite s a1 a2) :=
  (Chg.ite (h.routeData (within hs (by decide))) (Chg.ite (h.routeCommit (within hs (by decide))) (h.storeReg (within hs (by decide)))))

theorem Chg.jobWriteReg {a1 a2} (h : Chg ps r s) (hs : [Part.free, .regs, .rsv, .ledgers, .out, .flt, .pow, .ops, .hif, .mem, .pan, .cad, .mur] ⊆ ps) : Chg ps r (State.jobWriteReg s a1 a2) :=
  (Chg.ite (h.jobWrite (within hs (by decide))) (Chg.ite (h.memberWrite (within hs (by decide))) (Chg.ite (h.jobCmd (within hs (by decide))) (h.storeReg (within hs (by decide))))))

theorem Chg.mgtWrite {a1 a2} (h : Chg ps r s) (hs : [Part.free, .regs, .rsv, .ledgers, .out, .flt, .pow, .hif, .pan, .cad] ⊆ ps) : Chg ps r (State.mgtWrite s a1 a2) := by
  unfold State.mgtWrite
  split
  · rename_i y0 y1 y2
    extract_lets -underBinder v3
    exact (((h.used (within hs (by decide))).noteRsv (within hs (by decide))).busCtrl (within hs (by decide)))
  · rename_i y4 y5
    exact (Chg.ite ((h.noteRsv (within hs (by decide))).capWrite (within hs (by decide))) (Chg.ite ((h.noteRsv (within hs (by decide))).outLevelWrite (within hs (by decide))) (h.storeReg (within hs (by decide)))))

theorem Chg.ringWrite {a1 a2 a3 a4} (h : Chg ps r s) (hs : [Part.regs, .rsv, .out, .ops, .hif] ⊆ ps) : Chg ps r (State.ringWrite s a1 a2 a3 a4) := by
  unfold State.ringWrite
  extract_lets -underBinder v0 v1
  exact (Chg.ite (h.storeReg (within hs (by decide))) (Chg.ite ((h.noteRsv (within hs (by decide))).ringCfgWrite (within hs (by decide))) (Chg.ite (h.discard (within hs (by decide))) (Chg.ite (h.discard (within hs (by decide))) (h.storeReg (within hs (by decide)))))))

theorem Chg.cqWrite {a1 a2 a3 a4} (h : Chg ps r s) (hs : [Part.regs, .rsv, .out, .ops, .hif] ⊆ ps) : Chg ps r (State.cqWrite s a1 a2 a3 a4) := by
  unfold State.cqWrite
  extract_lets -underBinder v0
  exact (Chg.ite (h.storeReg (within hs (by decide))) (Chg.ite ((h.noteRsv (within hs (by decide))).cqCfgWrite (within hs (by decide))) (Chg.ite (h.cqHead (within hs (by decide))) (Chg.ite (h.discard (within hs (by decide))) (h.storeReg (within hs (by decide)))))))

theorem Chg.smpTWrite {a1 a2 a3 a4} (h : Chg ps r s) (hs : [Part.regs, .rsv, .ledgers, .out, .hif, .srv] ⊆ ps) : Chg ps r (State.smpTWrite s a1 a2 a3 a4) := by
  unfold State.smpTWrite
  split
  · rename_i y0 y1 y2
    exact (h.tokenHead (within hs (by decide)))
  · rename_i y3 y4
    exact (h.storeReg (within hs (by decide)))

theorem Chg.tntWrite {a1 a2 a3 a4} (h : Chg ps r s) (hs : [Part.regs, .rsv, .out, .hif] ⊆ ps) : Chg ps r (State.tntWrite s a1 a2 a3 a4) :=
  (Chg.ite (h.discard (within hs (by decide))) (h.storeReg (within hs (by decide))))

theorem Chg.blockWrite {a1 a2 a3} (h : Chg ps r s) (hs : [Part.free, .regs, .wide, .rsv, .ledgers, .out, .flt, .pow, .ops, .hif, .mem, .pan, .cad, .srv, .vce, .mur, .ing, .sec] ⊆ ps) : Chg ps r (State.blockWrite s a1 a2 a3) := by
  unfold State.blockWrite
  extract_lets -underBinder v0
  split
  · rename_i y1 y2
    exact (h.modWrite (within hs (by decide)))
  · rename_i y3 y4
    exact (h.fltWrite (within hs (by decide)))
  · rename_i y5 y6
    exact (h.cadWrite (within hs (by decide)))
  · rename_i y7 y8
    exact (h.varWrite (within hs (by decide)))
  · rename_i y9 y10
    exact (Chg.ite (h.dipCmd (within hs (by decide))) (h.storeReg (within hs (by decide))))
  · rename_i y11 y12
    exact (h.tenWrite (within hs (by decide)))
  · rename_i y13 y14
    exact (h.setWrite (within hs (by decide)))
  · rename_i y15 y16
    exact (h.secWrite (within hs (by decide)))
  · rename_i y17 y18
    exact (h.mmuWrite (within hs (by decide)))
  · rename_i y19 y20
    exact (h.synWrite (within hs (by decide)))
  · rename_i y21 y22
    exact (h.synWrite (within hs (by decide)))
  · rename_i y23 y24
    exact (h.tierWrite (within hs (by decide)))
  · rename_i y25 y26
    exact (h.tierWrite (within hs (by decide)))
  · rename_i y27 y28
    exact (h.tierWrite (within hs (by decide)))
  · rename_i y29 y30
    exact (h.frsWriteReg (within hs (by decide)))
  · rename_i y31 y32
    exact (h.glzWrite (within hs (by decide)))
  · rename_i y33 y34
    exact (h.smpWrite (within hs (by decide)))
  · rename_i y35 y36
    exact (h.vceWrite (within hs (by decide)))
  · rename_i y37 y38
    exact (h.ingWriteReg (within hs (by decide)))
  · rename_i y39 y40
    exact (h.portWrite (within hs (by decide)))
  · rename_i y41 y42
    exact (h.rtWrite (within hs (by decide)))
  · rename_i y43 y44
    exact (h.jobWriteReg (within hs (by decide)))
  · rename_i y45 y46
    exact (h.mgtWrite (within hs (by decide)))
  · rename_i y47 y48
    exact (Chg.ite ((h.noteRsv (within hs (by decide))).cnvRetire (within hs (by decide))) (h.storeReg (within hs (by decide))))
  · rename_i y49 y50
    exact (Chg.ite ((h.noteRsv (within hs (by decide))).pnlRetire (within hs (by decide))) (h.storeReg (within hs (by decide))))
  · rename_i y51 y52
    exact (h.tntWrite (within hs (by decide)))
  · rename_i y53 y54
    exact (h.ringWrite (within hs (by decide)))
  · rename_i y55 y56
    exact (Chg.ite (h.doorbellWrite (within hs (by decide))) (h.storeReg (within hs (by decide))))
  · rename_i y57 y58
    exact (h.cqWrite (within hs (by decide)))
  · rename_i y59 y60
    exact (h.smpTWrite (within hs (by decide)))
  · rename_i y61 y62 y63 y64 y65 y66 y67 y68 y69 y70 y71 y72 y73 y74 y75 y76 y77 y78 y79 y80 y81 y82 y83 y84 y85 y86 y87 y88 y89 y90 y91
    exact (h.storeReg (within hs (by decide)))

theorem Chg.pageWrite {a1 a2 a3} (h : Chg ps r s) (hs : [Part.free, .regs, .wide, .rsv, .ledgers, .out, .flt, .pow, .ops, .hif, .mem, .pan, .cad, .srv, .vce, .mur, .ing, .sec] ⊆ ps) : Chg ps r (State.pageWrite s a1 a2 a3) :=
  (Chg.ite (h.headerWrite (within hs (by decide))) (h.blockWrite (within hs (by decide))))

theorem Chg.execRegisterWrite {a1 a2} (h : Chg ps r s) (hs : [Part.free, .regs, .wide, .rsv, .ledgers, .out, .flt, .pow, .ops, .hif, .mem, .pan, .cad, .srv, .vce, .mur, .ing, .sec] ⊆ ps) : ∃ t, execRegisterWrite a1 a2 s = .next t ∧ Chg ps r t := by
  refine ⟨_, rfl, ?_⟩
  split
  · rename_i y0 y1 y2
    exact (h.access (fun _ _ h3 => (h3.pageWrite (within hs (by decide)))) (within hs (by decide)))
  · rename_i y4 y5 y6
    exact (h.access (fun _ _ h7 => ((h7.pageWrite (within hs (by decide))).pageWrite (within hs (by decide)))) (within hs (by decide)))
  · rename_i y8 y9 y10 y11
    exact (h.access (fun _ _ h12 => (h12.discard (within hs (by decide)))) (within hs (by decide)))

end Sys2Proof.Machine
end

