-- ==== Sys2Proof/WellFormed.lean ====
section
/-! DEFINITION. Which commands the module can meet: the bounds on operands that their types do not already carry, as the spec gives them. An
operand whose type is a bounded number needs no check. -/

namespace Sys2Proof

/-- An instance number of a cadence domain, as CAD_DOM_INSTANCE shows it: 32 bits. -/
def isInstance (n : Nat) : Bool := decide (n < 2 ^ 32)

/-- A sequence slot: 65,536 of them (R195). -/
def isSlot (n : Nat) : Bool := decide (n < 65536)

/-- A batch step's number: it counts SAMPLE_WAIT thresholds and is kept below 2^48 (R203). -/
def isStep (k : Nat) : Bool := decide (k < 2 ^ 48)

/-- A sampling job: the tag of an operation (8,192 of them, R114), or a batch step beyond. -/
def isJob (j : Nat) : Bool := decide (j < 2 ^ 60)

/-- A 4 KiB piece of module memory: module addresses have 41 bits (R282). -/
def isPiece (p : Nat) : Bool := decide (p < 2 ^ 29)

/-- A block of a Fresco command: LBAs have 32 bits (R304). -/
def isBlock (b : Nat) : Bool := decide (b < 2 ^ 32)

/-- A payload that one Ethernet frame carries: its length field has 16 bits. -/
def isPayload (b : List Byte) : Bool := decide (b.length < 65536)

/-- A completion of a host read brings one 64-byte line (R314). -/
def cplWf : HostCpl → Bool
  | .data b => decide (b.length = 64)
  | .poisoned b => decide (b.length = 64)
  | .error => true

def gvspWf : GvspPkt → Bool
  | .leader _ _ _ _ => true
  | .payload _ _ b => isPayload b
  | .trailer _ => true
  | .outside => true

def rtpWf (p : RtpPkt) : Bool := isPayload p.payload

def bodyWf : EthBody → Bool
  | .gvsp _ _ _ p => gvspWf p
  | .rtp _ _ p => rtpWf p
  | .raw b => isPayload b
  | .arp _ => true
  | .ptp _ _ _ => true
  | .igmpQuery => true
  | .unknown => true

/-- Is a command one that the module can meet? The meanings themselves are total and answer ill-formed commands too. -/
def Instr.wf : Instr → Bool
  | .registerWrite _ (.odd o n _) => decide (0 < n.val) && (decide (n.val < 4) || !accessAligned o.val n.val)
  | .registerWrite _ _ => true
  | .enable _ => true
  | .enableCheckEnd _ _ => true
  | .disable _ => true
  | .quiesce _ => true
  | .quiesceClear _ => true
  | .quiesced _ _ => true
  | .softReset _ => true
  | .lockPage _ => true
  | .evtRawClear _ _ => true
  | .evtForce _ _ => true
  | .errStatusClear _ _ _ => true
  | .clrCounts _ => true
  | .ledgerSnapshot _ _ => true
  | .pwrReqDoze _ => true
  | .dozeGated _ => true
  | .pwrReqActive _ => true
  | .clocksRestarted _ => true
  | .clkSelWrite _ _ => true
  | .modPdReq0Write _ => true
  | .modPdReq1Write _ => true
  | .pdTransitionDone => true
  | .quadClearDone _ _ => true
  | .moduleReset _ _ => true
  | .modTimeRead _ => true
  | .modPtpOffsetRead => true
  | .stepStart _ => true
  | .stepEnd _ => true
  | .streamSlotLand _ _ _ => true
  | .meshFlitArrival _ _ => true
  | .grantWithdrawTimeout _ => true
  | .coreSubstitution _ _ => true
  | .pnlRetire _ _ => true
  | .panelSubstitution _ _ _ => true
  | .cnvRetire _ _ => true
  | .proactivePanelRetirement _ _ => true
  | .pnlCyclesRead _ => true
  | .quantumExpiry _ => true
  | .tenantSwitch _ _ => true
  | .doorbell _ _ _ => true
  | .descriptorFetch _ _ _ => true
  | .opRun _ _ => true
  | .opCopy _ _ => true
  | .opFill _ _ => true
  | .opSignal _ _ => true
  | .opWait _ _ => true
  | .cartoonLoad _ _ => true
  | .attend _ _ => true
  | .glazeAppend _ _ => true
  | .glazeMove _ _ _ => true
  | .sample _ _ => true
  | .vdecOpen _ _ _ _ => true
  | .vdecDecode _ _ _ => true
  | .vdecFlush _ _ _ => true
  | .vdecClose _ _ _ => true
  | .vencOpen _ _ _ _ => true
  | .vencEncode _ _ _ => true
  | .vencReconfigure _ _ _ => true
  | .vencFlush _ _ _ => true
  | .vencClose _ _ _ => true
  | .ecEncode _ _ => true
  | .ecRebuild _ _ => true
  | .gesso _ _ => true
  | .prefixLookup _ _ => true
  | .operationComplete _ _ => true
  | .completionPost _ _ => true
  | .operationTimeout _ _ => true
  | .synAdd _ => true
  | .synTAdd _ _ => true
  | .synValueRead _ => true
  | .referenceEdge _ _ _ _ _ _ => true
  | .indexEdge _ _ _ => true
  | .trackerUpdate _ _ => true
  | .positionEvaluation _ _ => true
  | .triggerPulseEnd _ _ => true
  | .standstill _ _ => true
  | .eptCommit _ _ => true
  | .eptBankSwitch _ => true
  | .markQueueRead _ => true
  | .cadDomPositionRead _ _ _ => true
  | .cadRefCountRead _ => true
  | .lossOfSignal _ _ => true
  | .losCleared _ _ => true
  | .voteDecision _ _ => true
  | .skewTimeout _ _ => true
  | .channelRecovery _ _ => true
  | .recoveryWindowClear _ => true
  | .voterCheck _ => true
  | .voterMismatch _ _ _ => true
  | .pairingFrame _ _ _ digest => decide (digest.length = 48)
  | .heartbeatSend _ => true
  | .heartbeatReceive _ _ doms hand _ _ => decide (doms.length ≤ 16) && hand.all isInstance
  | .hbMiss _ => true
  | .snapshotStart _ n => isInstance n
  | .snapshotReceive _ n _ _ _ => isInstance n
  | .snapshotCompare _ => true
  | .handover _ _ => true
  | .takeActive _ _ => true
  | .varDipPeerSerialRead => true
  | .diptychFrameReceive seq _ _ acked => decide (seq < 65536 ∧ acked < 65536)
  | .diptychLaneSwap _ => true
  | .diptychLinkDown _ => true
  | .diptychLinkDownTimeout => true
  | .diptychLinkUp => true
  | .planLoad _ _ => true
  | .seqOpen _ _ _ => true
  | .seqGenerate _ _ => true
  | .seqPause _ _ => true
  | .seqCancel _ _ => true
  | .seqClose _ _ => true
  | .batchStep _ _ only _ => only.all isSlot
  | .stepReissue _ _ k _ => isStep k
  | .easelSampleIssue _ _ k _ => isStep k
  | .samplerDecision job _ => isJob job
  | .tokenCommit job _ => isJob job
  | .seqExpired _ _ => true
  | .tokenRingHead _ _ _ => true
  | .domainKeyInstall _ => true
  | .genKey _ => true
  | .sharedDomainValid _ => true
  | .smpDecisionsRead => true
  | .appendLayer _ _ => true
  | .attendLayerStep _ _ => true
  | .decodeFrameStart _ _ _ => true
  | .decodeFrameEnd _ _ => true
  | .encodeFrameStart _ _ _ => true
  | .sliceEmit _ _ => true
  | .pdestCommit _ _ => true
  | .patrolScrub _ _ _ _ => true
  | .weightRepair _ _ _ => true
  | .weightRepaired _ _ _ => true
  | .pieceRetired piece => isPiece piece
  | .bankHandover _ _ => true
  | .handoverDone _ => true
  | .bankGuestChange _ _ => true
  | .marchStart _ _ => true
  | .marchDone _ fails => fails.all (fun a => decide (a < 2 ^ 41))
  | .marchFailRead _ => true
  | .clearDone _ => true
  | .frescoRingTail _ => true
  | .frescoRead media => media.all isBlock
  | .frescoWrite => true
  | .frescoTrim => true
  | .frescoFlush => true
  | .cmdDone _ => true
  | .perstAssert _ => true
  | .resetRelease _ _ _ _ _ => true
  | .configReady _ _ _ _ _ => true
  | .configRequest _ => true
  | .pciConfigWrite _ _ => true
  | .flr _ _ => true
  | .vfEnableClear _ => true
  | .d3hotEntry _ => true
  | .hostCompletion _ line c => decide (line < 2 ^ 58) && cplWf c
  | .hostCompletionTimeout line => decide (line < 2 ^ 58)
  | .ideFail _ _ => true
  | .ideKm _ _ _ => true
  | .tenantEnable _ _ => true
  | .tenantDisable _ _ => true
  | .tenantQuiet _ _ => true
  | .ringEnable _ _ _ => true
  | .ringDisable _ _ => true
  | .cqEnable _ _ _ => true
  | .cqDisable _ _ => true
  | .cqHeadWrite _ _ _ => true
  | .cqWriteRetry _ _ => true
  | .holdoffEnd _ _ => true
  | .mmuMap => true
  | .mmuUnmap => true
  | .setWindow => true
  | .clearWindow => true
  | .clearWindowRemove => true
  | .mmuFaultPop _ => true
  | .mmuFaultDvaRead _ => true
  | .getTdispVersion _ _ => true
  | .getTdispCapabilities _ _ => true
  | .lockInterfaceRequest _ _ _ _ => true
  | .getDeviceInterfaceReport _ _ => true
  | .getDeviceInterfaceState _ _ => true
  | .startInterfaceRequest _ _ _ => true
  | .stopInterfaceRequest _ _ _ => true
  | .getVersion => true
  | .getCapabilities => true
  | .negotiateAlgorithms _ => true
  | .getCertificate _ _ _ => true
  | .challenge _ _ => true
  | .getMeasurements _ _ _ _ => true
  | .keyExchange data _ => decide (data.length = 96)
  | .spdmHeartbeat _ _ => true
  | .keyUpdate _ => true
  | .muralFrameReceive _ _ _ _ _ _ => true
  | .dataFlitReceive _ flit _ => decide (flit.length = 64)
  | .controlFlitReceive _ wire _ _ _ _ _ _ _ _ => decide (wire.length = 64)
  | .controlFlitSend _ _ => true
  | .nakRepeat _ _ => true
  | .replayTimeout _ _ => true
  | .laneSwapped _ _ _ => true
  | .portPowerWrite _ _ => true
  | .powerDone _ _ => true
  | .muralLinkUp _ _ _ _ _ _ _ => true
  | .muralLinkDown _ _ _ => true
  | .linkDownTimeout _ _ => true
  | .muralWrite _ => true
  | .muralReadReq _ => true
  | .readResp _ => true
  | .writeAck _ => true
  | .muralSignal _ => true
  | .signalAck _ => true
  | .ecContrib _ => true
  | .ecAck _ => true
  | .packetRoute _ _ => true
  | .routeWaitTimeout _ _ => true
  | .requestTimeout _ _ => true
  | .routeStall _ _ => true
  | .routeCommit _ => true
  | .routeEpochRetire => true
  | .jobOpen _ => true
  | .jobClose _ => true
  | .memberStateWrite _ => true
  | .portTest _ _ => true
  | .testDone _ _ => true
  | .ethernetFrame _ _ _ _ b _ => bodyWf b
  | .gvspPacket _ _ _ _ p _ => gvspWf p
  | .rtpPacket _ _ _ p _ => rtpWf p
  | .rtpReorderTimeout _ _ => true
  | .rawPacket _ b _ => isPayload b
  | .frameTimeout _ _ => true
  | .arpRequest _ _ => true
  | .ptpMessage _ _ _ _ _ => true
  | .ptpAnnounceTimeout => true
  | .streamCommit => true
  | .streamDisable => true
  | .linkChange _ _ => true
  | .inputEdge _ _ _ _ => true
  | .mgtInEdgeRead _ => true
  | .mgtOutLevelWrite _ => true
  | .mgtPowerCapWrite _ => true
  | .powerSample _ _ _ _ _ => true
  | .i2cEnable _ _ _ _ _ => true
  | .i2cDisable _ _ => true
  | .i2cStretchTimeout _ _ => true
  | .setEndpointId _ _ => true
  | .getEndpointId => true
  | .getMctpVersionSupport _ => true
  | .getMessageTypeSupport => true
  | .getEndpointUuid => true
  | .getTid => true
  | .getPldmVersion _ => true
  | .getPldmTypes => true
  | .getPldmCommands _ => true
  | .getSensorReading _ => true
  | .setEventReceiver _ _ => true
  | .resetStateEffecter _ => true
  | .powerCapEffecter _ => true
  | .requestUpdate => true
  | .transferComplete image _ => decide (image.length ≤ 536870912)
  | .applyComplete => true
  | .fruRead _ _ _ => true
  | .moistureChange _ => true
  | .flowLow _ => true
  | .lcDeploy _ => true
  | .lcReturn _ => true
  | .lcEnd _ => true
  | .lcWipe _ => true
  | .debugField => true
  | .debugClose => true
  | .debugOpen _ => true
  | .nonceRead => true
  | .arbAdvance _ => true
  | .installJob _ => true
  | .installPair => true
  | .clearJob _ => true
  | .clearPair => true
  | .wrLoad _ => true
  | .wrUnload => true
  | .tamper _ _ _ _ => true
  | .errorSignal _ _ _ _ _ => true
  | .fatalReset _ => true
  | .wirePoll _ _ => true
  | .aggregatorCheckFail _ => true
  | .escalated _ _ => true
  | .fltAck _ _ _ => true
  | .readmitted _ _ => true
  | .recoveryWindowExpiry _ => true
  | .fltInject _ => true
  | .ceSummary _ => true
  | .logFlush _ _ => true
  | .spareMapRetry _ => true
  | .lockstep _ => true
  | .pairLost => true
  | .watchdog => true
  | .clockSwitch => true
  | .wearMeasurement _ _ _ _ _ => true
  | .ledgerCheck _ _ => true
  | .aonPowerOn => true
  | .perstDeassert _ => true
  | .overVoltage _ => true
  | .powerFail _ => true
  | .powerFailEnd _ _ => true
  | .overVoltageRecovery => true
  | .temperatureThreshold _ _ _ => true
  | .generateTimeout _ _ => true
  | .ptpTimeCount _ _ => true
  | .diptychRetryTimeout _ => true
  | .weightLoadComplete media _ => media.all isBlock
  | .spdmFinish _ _ => true
  | .endSession _ => true
  | .trngHealthRestored => true

end Sys2Proof
end

