-- ==== Sys2Proof/Tests/Slice0.lean ====
section
/-! SUPPORT. The package's own tests: for every statement with hypotheses a state and operands that meet them together, a few results worked
out from the spec by hand, and the ill-formed commands that the check refuses. -/

namespace Sys2Proof.Tests

open Sys2Proof Sys2Proof.Machine

/- The tests are checked one after the other: each asks the kernel to evaluate, and many at once wait on one another. -/
set_option Elab.async false

/-- A PF access to a page. -/
abbrev at_ (p : Fin 4096) : Acc := .pf p

/-- The module after reset. -/
abbrev s0 : State := State.reset

/-! ### Register pages -/

theorem witness_unoccupied_read : rsvOf (pageKind 0) 0x47 = none := by decide +kernel
theorem witness_unoccupied_write : s0.takes (at_ 0) ∧ rsvOf (pageKind 0) 0x47 = none ∧ 1#32 ≠ 0#32 := by decide +kernel
theorem witness_no_page : s0.reaches (accFn (at_ 1)) = true ∧ pageExists (accPage (at_ 1)) = false := by decide +kernel
theorem witness_plain_store : s0.takes (at_ 0x141) ∧ ownRule (pageKind 0x141) r_CAD_REF_MODE = false ∧
    ((regRow (pageKind 0x141) r_CAD_REF_MODE).any (fun r => r.checked && (1 &&& r.rsv == 0)) = true) ∧ s0.checkedOpen 0x141 = true := by
  decide +kernel
theorem witness_plain_discard : (s0.setFld 0x141 fSTATE 3).takes (at_ 0x141) ∧ (s0.setFld 0x141 fSTATE 3).checkedOpen 0x141 = false := by
  decide +kernel
theorem witness_event_enable : s0.takes (at_ 0) ∧ RsvClear 0 hENA 1#32 := by decide +kernel
theorem witness_mirror : s0.reaches 0 = true ∧ pageExists 0xC00 = true := by decide +kernel
theorem witness_enable : s0.takes (at_ 0x141) ∧ ownCtrl 0x141 ∧ s0.fld 0x141 fENABLE = 0 ∧ s0.st 0x141 = stOFF ∧ s0.gated 0x141 = false := by
  decide +kernel
theorem witness_readmitted : let s := s0.setFld 0x141 fSTATE 5
    s.st 0x141 = stFENCED ∧ pageKind 0x141 ≠ .pnl ∧ mirrorsState 0x141 = false ∧
    smGet 0 s.flt.lastErr 0x141 + s.fld pgFLT f_FLT_QUIET_MS * 1000000 ≤ max s.time (1000000000000 : DWord).toNat := by decide +kernel
theorem witness_pair : s0.takes (at_ 0x141) ∧ ∃ m, exec (.registerWrite (at_ 0x141) (.word 64 1#32)) s0 = .next m ∧ m.takes (at_ 0x141) :=
  ⟨by decide +kernel, _, rfl, by decide +kernel⟩
theorem witness_check_passes : (s0.setFld 0x60 fSTATE 1).st 0x60 = stCHECKING ∧ ((s0.setFld 0x60 fSTATE 1).at 5).pageCheck 0x60 = none := by
  decide +kernel
theorem witness_check_fails : (s0.setFld 0xE0 fSTATE 1).st 0xE0 = stCHECKING ∧ ((s0.setFld 0xE0 fSTATE 1).at 5).pageCheck 0xE0 = some (9, 2) := by
  decide +kernel

/-- A page with a STATE, and ENABLE and QUIESCE as given. -/
def pageIn (p st e q : Nat) : State := ((s0.setFld p fSTATE st).setFld p fENABLE e).setFld p fQUIESCE q

theorem witness_disable_check : (pageIn 0x141 1 1 0).takes (at_ 0x141) ∧ ownCtrl 0x141 ∧ (pageIn 0x141 1 1 0).fld 0x141 fENABLE = 1 ∧
    (pageIn 0x141 1 1 0).st 0x141 = stCHECKING := by decide +kernel
theorem witness_disable_running : (pageIn 0x141 3 1 0).fld 0x141 fENABLE = 1 ∧ (pageIn 0x141 3 1 0).st 0x141 = stRUNNING ∧
    (pageIn 0x141 3 1 0).hasDependants 0x141 = false := by decide +kernel
theorem witness_quiesce : (pageIn 0x141 3 1 0).takes (at_ 0x141) ∧ ownCtrl 0x141 ∧ (pageIn 0x141 3 1 0).heldBy 0x141 = false := by decide +kernel
theorem witness_check_domain : let s := (pageIn 0x24 4 1 1)
    pageKind 0x24 = .cadDom ∧ s.triptych (pageIndex 0x24) = false ∧ s.takes (at_ 0x24) ∧ s.gated 0x24 = false := by decide +kernel
theorem witness_quiesce_clear : (pageIn 0x141 4 1 1).takes (at_ 0x141) ∧ ownCtrl 0x141 ∧ (pageIn 0x141 4 1 1).st 0x141 = stQUIESCING ∧
    (pageIn 0x141 4 1 1).fld 0x141 fENABLE = 1 ∧ (pageIn 0x141 4 1 1).fld 0x141 fQUIESCE = 1 ∧ (pageIn 0x141 4 1 1).gated 0x141 = false := by
  decide +kernel
theorem witness_quiesced : mirrorsState 0x141 = false ∧ (pageIn 0x141 4 1 1).st 0x141 = stQUIESCING ∧
    ((pageIn 0x141 4 1 1).at 9).workEnded 0x141 = true ∧ smGet false (pageIn 0x141 4 1 1).hif.drained 0x141 = false ∧
    (pageIn 0x141 4 1 1).fld 0x141 fENABLE = 1 := by decide +kernel
theorem witness_quiesced_off : (pageIn 0x141 4 0 0).st 0x141 = stQUIESCING ∧ ((pageIn 0x141 4 0 0).at 9).workEnded 0x141 = true ∧
    (pageIn 0x141 4 0 0).fld 0x141 fENABLE = 0 := by decide +kernel
theorem witness_soft_reset : (pageIn 0x141 6 1 0).takes (at_ 0x141) ∧ ownCtrl 0x141 ∧ tenantOfPage 0x141 = none ∧
    (pageIn 0x141 6 1 0).st 0x141 = stFAULT ∧ smGet false (pageIn 0x141 6 1 0).flt.fatal 0x141 = false := by decide +kernel
theorem witness_lock : s0.takes (at_ 0) ∧ pageKind 0 ≠ .tnt ∧ pageKind 0 ≠ .hifSet ∧ tenantOfPage 0 = none ∧ s0.fld 0 fLOCK = 0 := by
  decide +kernel
theorem witness_disable_discarded : (pageIn 0x141 4 1 0).takes (at_ 0x141) ∧ (pageIn 0x141 4 1 0).fld 0x141 fENABLE = 1 ∧
    (pageIn 0x141 4 1 0).st 0x141 = stQUIESCING ∧ fixedPage 0 = true := by decide +kernel
theorem witness_tenant_ignores : s0.takes (at_ 0x44) ∧ pageKind (accPage (at_ 0x44)) ≠ .tnt ∧ (tenantOfPage (accPage (at_ 0x44))).isSome = true ∧
    s0.fld (accPage (at_ 0x44)) fQUIESCE = 0 := by decide +kernel
theorem witness_no_ctrl : s0.takes (at_ 0x42) ∧ pageKind pgSET = .hifSet := by decide +kernel
theorem witness_soft_reset_discarded : (pageIn 0x141 3 1 0).takes (at_ 0x141) ∧ tenantOfPage 0x141 = none ∧
    (pageIn 0x141 3 1 0).st 0x141 = stRUNNING := by decide +kernel
theorem witness_evt_clear : s0.takes (at_ 0) ∧ RsvClear 0 hRAW 1#32 ∧ RsvClear 0 7 8#32 := by decide +kernel
theorem witness_ledger : s0.takes (at_ 0x70) ∧ RsvClear 0x70 hLSEL 1#32 ∧ (1#32 : Word).toNat < ledgerCount (pageKind 0x70) := by decide +kernel
theorem witness_ledger_beyond : s0.takes (at_ 0x70) ∧ RsvClear 0x70 hLSEL 2#32 ∧ ledgerCount (pageKind 0x70) ≤ (2#32 : Word).toNat := by
  decide +kernel
theorem witness_doze : s0.takes (at_ 0x80) ∧ s0.fld 0x80 fTARGET = 0 ∧ s0.checkedOpen 0x80 = true := by decide +kernel
theorem witness_doze_discarded : (pageIn 0x80 3 1 0).takes (at_ 0x80) ∧
    (pageIn 0x80 3 1 0).checkedOpen 0x80 = false ∧ (pageIn 0x80 3 1 0).drainedPage 0x80 = false := by decide +kernel
/-- A page whose TARGET is DOZE or ACTIVE, its change in progress. -/
def dozing (t : Nat) : State := (s0.setFld 0x80 fTARGET t).setFld 0x80 fTRANSITION 1
theorem witness_doze_again : (dozing 1).takes (at_ 0x80) ∧ (dozing 1).fld 0x80 fTARGET = 1 ∧ (dozing 1).checkedOpen 0x80 = true := by decide +kernel
theorem witness_not_changing : ¬(s0.fld 0x80 fTRANSITION = 1 ∧ s0.fld 0x80 fTARGET = 0) := by decide +kernel
theorem witness_gated : (dozing 1).takes (at_ 0x80) ∧ (dozing 1).fld 0x80 fTRANSITION = 1 ∧ (dozing 1).fld 0x80 fTARGET = 1 ∧
    (dozing 0).fld 0x80 fTRANSITION = 1 ∧ (dozing 0).fld 0x80 fTARGET = 0 := by decide +kernel
theorem witness_clk_panel : s0.takes (at_ 0x401) ∧ pageKind 0x401 = .pnl ∧ (3#32 : Word).toNat % 4 ≤ s0.floorOf (pageInstance 0x401) := by
  decide +kernel
theorem witness_clk_canvas : s0.takes (at_ 0x400) ∧ pageKind 0x400 = .cnv ∧
    (List.range 32).all (fun i => decide ((2#32 : Word).toNat % 4 ≤ s0.floorOf (pageInstance 0x400 * 32 + i))) = true := by decide +kernel
theorem witness_clk_floor : let s := s0.setFld 0x401 f_PNL_MODE_MODE 2
    s.takes (at_ 0x401) ∧ s.floorOf (pageInstance 0x401) < (1#32 : Word).toNat % 4 ∧ s.takes (at_ 0x400) ∧
    (List.range 32).any (fun i => decide (s.floorOf (pageInstance 0x400 * 32 + i) < (1#32 : Word).toNat % 4)) = true := by decide +kernel
theorem witness_clk_other : s0.takes (at_ 0x80) ∧ pageKind 0x80 ≠ .pnl ∧ pageKind 0x80 ≠ .cnv := by decide +kernel
theorem witness_time : s0.reaches 0 = true := by decide +kernel

/-! ### Power and resets -/

/-- The module with a part of its power state replaced. -/
def powIn (f : PowSt → PowSt) : State := { s0 with pow := f s0.pow }

theorem witness_pd0 : s0.reaches 0 = true ∧ RsvClear pgMOD r_MOD_PD_REQ0 0x8087#32 ∧
    (s0.word pgMOD r_MOD_PD_REQ0).toNat % 65536 ≠ (0x8087#32 : Word).toNat % 65536 ||| 0x87 ∧
    s0.pdLegal ((0x8087#32 : Word).toNat % 65536 ||| 0x87) (s0.word pgMOD r_MOD_PD_REQ1).toNat = true := by decide +kernel
theorem witness_pd1 : s0.reaches 0 = true ∧ s0.pow.fwFail = false ∧ s0.word pgMOD r_MOD_PD_REQ1 ≠ 3#32 ∧
    s0.pdLegal (s0.word pgMOD r_MOD_PD_REQ0).toNat 3 = true := by decide +kernel
theorem witness_pd_busy : (s0.setFld pgMOD f_MOD_PD_RESULT_BUSY 1).reaches 0 = true ∧
    (s0.setFld pgMOD f_MOD_PD_RESULT_BUSY 1).fld pgMOD f_MOD_PD_RESULT_BUSY = 1 ∧
    (s0.setFld pgMOD f_MOD_PD_RESULT_BUSY 1).word pgMOD r_MOD_PD_REQ1 ≠ 1#32 := by decide +kernel
theorem witness_pd_done : (powIn (fun p => { p with pd := some ⟨0x87, 1⟩ })).pow.pd = some ⟨0x87, 1⟩ ∧
    domBit 0 1 16 = true ∧ domBit 0 (s0.word pgMOD r_MOD_PD_STATE1).toNat 16 = false := by decide +kernel
theorem witness_quad : smGet false (powIn (fun p => { p with uncleared := [(9, true)] })).pow.uncleared (8 * 1 + 1) = true ∧
    36 ∈ s0.quadPanels 1 1 := by decide +kernel
theorem witness_module_reset : s0.reaches 0 = true ∧ fldGet 0x4D520001#32 f_MOD_RESET_KEY = 0x4D52 ∧ fldGet 0x4D520001#32 f_MOD_RESET_CMD = 1 ∧
    RsvClear pgMOD r_MOD_RESET 0x4D530001#32 ∧ ¬(fldGet 0x4D530001#32 f_MOD_RESET_KEY = 0x4D52) := by decide +kernel
theorem witness_perst : s0.pow.perst = false ∧ s0.pow.phase = .ready ∧ s0.pow.failing = false ∧ s0.pow.phase ≠ .off := by decide +kernel
theorem witness_fatal_reset : let s := (powIn (fun p => { p with resetDue := true })).setFld pgFLT f_FLT_ACTION_FATAL_RESET 1
    s.pow.phase = .ready ∧ s.pow.resetDue = true ∧ s.fld pgFLT f_FLT_ACTION_FATAL_RESET = 1 := by decide +kernel
theorem witness_failing : (powIn (fun p => { p with failing := true })).pow.failing = true := by decide +kernel
theorem witness_aon : (powIn (fun p => { p with phase := .off })).pow.phase = .off ∧ (powIn (fun p => { p with phase := .off })).pow.overVolt = false ∧
    (powIn (fun p => { p with phase := .off, overVolt := true })).pow.overVolt = true := by decide +kernel
theorem witness_boot : let s := powIn (fun p => { p with phase := .held })
    s.pow.phase = .held ∧ s.pow.perst = false ∧ s.pow.failing = false ∧
    0 = (if s.fld pgSEC f_SEC_FW_PENDING = 1 then 1 - s.fld pgSEC f_SEC_FW_ACTIVE else s.fld pgSEC f_SEC_FW_ACTIVE) ∧
    s.fwOk 0 true = true ∧ s.fwOk 0 false = false ∧ s.fwOk 1 false = false ∧ smGet 0 s.sec.arb 0 ≤ s.fwSvn 0 7 ∧ s.fld pgEAS (fPair 0) ≠ 2 := by decide +kernel
theorem witness_released : (powIn (fun p => { p with phase := .released })).pow.phase = .released := by decide +kernel
theorem witness_link_up : s0.pow.phase = .ready ∧ s0.hif.linkUp = true := by decide +kernel
theorem witness_throttle : s0.throttleCap < (2000#11 : BitVec 11).toNat ∧ s0.pow.lowSince = none ∧ s0.pow.skip ≠ 0 := by decide +kernel
theorem witness_voltage : (39000#32 : BitVec 32).toNat < 40000 ∧ (powIn (fun p => { p with outSince := some 5 })).pow.outSince = some 5 ∧
    5 + 10000 ≤ max (powIn (fun p => { p with outSince := some 5 })).time (20000 : DWord).toNat := by decide +kernel
theorem witness_hot : sensorBand 5 (1100#16 : BitVec 16).toInt ≠ 0 ∧
    sensorBand 5 (1100#16 : BitVec 16).toInt ≠ sensorBand 5 (smGet 0 s0.mgt.sensors 5) := by decide +kernel
theorem witness_moist : s0.pow.phase ≠ .off ∧ smGet 0 s0.mgt.sensors 11 ≠ (1 : Fin 3).val := by decide +kernel
theorem witness_flow : let s := powIn (fun p => { p with hotSince := some 5 })
    s.pow.phase ≠ .off ∧ s.pow.hotSince.any (fun t0 => decide (t0 + 10000000000 ≤ (s.at 20000000000).time)) = true := by decide +kernel

/-! ### Management -/

theorem witness_edge : s0.pow.phase ≠ .off ∧ s0.fld pgMGT f_MGT_IN_FILTER_SAMPLES ≤ (63 : Fin 64).val ∧
    (0 : Fin 64).val < (s0.setFld pgMGT f_MGT_IN_FILTER_SAMPLES 3).fld pgMGT f_MGT_IN_FILTER_SAMPLES ∧ (s0.fld pgMGT f_MGT_IN_STATUS_LEVEL).testBit 2 ≠ true := by decide +kernel
theorem witness_out_level : s0.reaches 0 = true ∧ RsvClear pgMGT r_MGT_OUT_LEVEL 0xFFFF#32 := by decide +kernel
theorem witness_cap : s0.reaches 0 = true ∧ RsvClear pgMGT r_MGT_POWER_CAP 1500#32 ∧ s0.capLeast ≤ fldGet 1500#32 f_MGT_POWER_CAP_WATTS ∧
    fldGet 1500#32 f_MGT_POWER_CAP_WATTS ≤ 1500 ∧ RsvClear pgMGT r_MGT_POWER_CAP 1501#32 ∧ 1500 < fldGet 1501#32 f_MGT_POWER_CAP_WATTS := by
  decide +kernel
theorem witness_effecter : s0.capLeast ≤ min (s0.fld pgMGT f_MGT_POWER_CAP_WATTS) (620#11 : BitVec 11).toNat ∧
    min (s0.fld pgMGT f_MGT_POWER_CAP_WATTS) (619#11 : BitVec 11).toNat < s0.capLeast := by decide +kernel
theorem witness_i2c : (s0.setFld pgMGT (f_MGT_I2C_CTRL_EN 3) 0).reaches 0 = true ∧ RsvClear pgMGT (r_MGT_I2C_CTRL 3) 5#32 ∧
    (s0.setFld pgMGT (f_MGT_I2C_CTRL_EN 3) 0).fld pgMGT (f_MGT_I2C_CTRL_EN 3) = 0 ∧
    fldGet 5#32 (f_MGT_I2C_CTRL_SPEED 3) ≠ 3 ∧ fldGet 6#32 (f_MGT_I2C_CTRL_SPEED 3) = 3 ∧ RsvClear pgMGT (r_MGT_I2C_CTRL 3) 6#32 := by decide +kernel
theorem witness_i2c_on : (s0.setFld pgMGT (f_MGT_I2C_CTRL_EN 0) 1).reaches 0 = true ∧
    (s0.setFld pgMGT (f_MGT_I2C_CTRL_EN 0) 1).fld pgMGT (f_MGT_I2C_CTRL_EN 0) = 1 ∧
    (s0.setFld pgMGT (f_MGT_I2C_CTRL_EN 0) 1).fld pgMGT (f_MGT_I2C_STATUS_STATE 0) ≠ 2 := by decide +kernel
theorem witness_update : s0.mgt.update = none ∧ s0.updateBarred = false ∧ (s0.setUpdate (some ⟨[], false, false⟩)).mgt.update = some ⟨[], false, false⟩ ∧
    (s0.setUpdate (some ⟨[1#8], false, true⟩)).mgt.update = some ⟨[1#8], false, true⟩ := by decide +kernel
theorem witness_sensor : smGet false s0.mgt.lost 11 = false := by decide +kernel

/-! ### Panels and canvases -/

/-- A descriptor with an opcode and nothing else. -/
def dsc (opc : Nat) : Desc := ⟨opc, 4, false, 0, 0, 0, 0, 0, 0, 0, 64, 0, 0, 0, 0, 0, 0⟩
/-- An issued operation of the owner on one panel. -/
def op5 : Op := ⟨0, 0, false, 0, dsc 1, 0, 0, 0, 0, .issued, some 0, 0, 1, 0, 0, 0, [5], [], [], false, true, false, [], [], []⟩
/-- Its work on panel 5. -/
def work5 : Work := ⟨9, 0, 0, 0, [], 0, 0, 2, false, false, 0⟩
/-- A port of panel 5. -/
def port5 (state units : Nat) : Port := ⟨state, 9, 0, [], 0, units, 3, 1⟩
/-- Panel 5 RUNNING and DEDICATED with that work, its four inbound bindings full. -/
def pan5 (w : Work) : State :=
  (((s0.setFld (pnlPage 5) fSTATE 3).setFld (pnlPage 5) f_PNL_MODE_MODE 1).setOp 9 op5).setPanel 5
    { panelReset with work := [w], ports := [(0, port5 2 3), (1, port5 2 3), (2, port5 2 3), (3, port5 2 3)] }
theorem witness_step_start : ((pan5 work5).panel 5).lost = false ∧ (pan5 work5).headWork 5 = some work5 ∧ (pan5 work5).op 9 = some op5 ∧ (pan5 work5).canStart 5 work5 op5 = true ∧
    ((pan5 work5).stepWaitOn op5 (stepWait (imgStep [] 0 0)) (stepWaitAdd (imgStep [] 0 0))).any (fun x => (pan5 work5).counterPoisoned x.1) = false ∧
    (pan5 work5).panelMode 5 ≠ 0 := by decide +kernel
/-- An image whose first step waits by slot 0: an image of zeros has its steps at offset 0. -/
def workW : Work := { work5 with image := List.replicate 12 0#8 ++ [0x80#8] }
def waitS : State :=
  let s := ((pan5 workW).setOp 9 { op5 with args := List.replicate 64 0#8 }).setFld pgSYN (f_SYN_ALLOC_COUNT 0) 1
  { s with ops := { s.ops with cpoison := [(0, true)] } }
theorem witness_step_poison : waitS.headWork 5 = some workW ∧ waitS.op 9 = some { op5 with args := List.replicate 64 0#8 } ∧
    (waitS.stepWaitOn { op5 with args := List.replicate 64 0#8 } (stepWait (imgStep workW.image 0 0)) (stepWaitAdd (imgStep workW.image 0 0))).any
      (fun x => waitS.counterPoisoned x.1) = true := by decide +kernel
theorem witness_step_end : ((pan5 { work5 with running := true }).panel 5).work.find? (fun v => v.running && v.kind == 0) =
    some { work5 with running := true } ∧ (pan5 { work5 with running := true }).op 9 = some op5 := by decide +kernel
/-- A tenant-memory read needs a leaf: the owner's DVA 0 is mapped to module memory at 0. -/
def mapped : State := { s0 with hif := { s0.hif with leaves := [(0, ⟨true, false, 0, true, true, false⟩)] } }
def landS : State := (mapped.setOp 9 op5).setPanel 5 { panelReset with ports := [(1, ⟨1, 9, 0, [], 0, 2, 3, 1⟩)] }
theorem witness_land : landS.port 5 1 = some ⟨1, 9, 0, [], 0, 2, 3, 1⟩ ∧ landS.op 9 = some op5 ∧ bindPeer [] = 0 ∧ landS.port 5 2 = none ∧
    landS.readHeld (op5.who 9) (0 + bindFarAt [] 2) 64 = false ∧
    (match landS.readDva (op5.who 9) (0 + bindFarAt [] 2) 64 with | .ok bs po => bs.length == 64 && !po | _ => false) = true := by decide +kernel
/-- A transfer from panel 6 to panel 5. -/
def peerS : State := ((s0.setOp 9 op5).setPanel 5 { panelReset with ports := [(1, ⟨1, 9, 0, [2#8], 6, 0, 20, 1⟩)] }).setPanel 6
  { panelReset with ports := [(6, ⟨3, 9, 0, [3#8], 5, 19, 20, 0⟩)] }
theorem witness_peer : peerS.port 5 1 = some ⟨1, 9, 0, [2#8], 6, 0, 20, 1⟩ ∧ bindPeer [2#8] = 1 ∧
    peerS.senderOf 6 5 9 = some (6, ⟨3, 9, 0, [3#8], 5, 19, 20, 0⟩) := by decide +kernel
/-- The last slot of a binding that sends to tenant memory. -/
def sendS : State := (mapped.setOp 9 op5).setPanel 5 { panelReset with ports := [(5, ⟨3, 9, 0, [1#8], 0, 2, 3, 0⟩)] }
theorem witness_send : sendS.outPort 5 1 = some (5, ⟨3, 9, 0, [1#8], 0, 2, 3, 0⟩) ∧ bindPeer [1#8] = 0 ∧ sendS.op 9 = some op5 ∧
    sendS.writeFault (op5.who 9) 0 (cuts (0 + bindFarAt [1#8] 2) 64) = none ∧
    anyPoison sendS.mem.palPoison (5 * 0x800000 + bindPalAt [1#8] 2 % 0x800000) 64 = false := by decide +kernel
theorem witness_mesh : (meshNext 7 (meshStop 20)).2 ≠ 4 ∧ s0.linkTurn 0 7 2 (meshNext 7 (meshStop 20)) = true ∧
    (s0.setWord (cnvPage 0) r_CNV_MESH_VC 0).linkTurn 0 7 2 (meshNext 7 (meshStop 20)) = false := by
  refine ⟨by decide +kernel, ?_, ?_⟩
  · have h : s0.linkFree 0 2 (meshNext 7 (meshStop 20)) = true ∧ 7 < 36 := by decide +kernel
    simp [State.linkTurn, h]
  · have h : (s0.setWord (cnvPage 0) r_CNV_MESH_VC 0).linkFree 0 2 (meshNext 7 (meshStop 20)) = false := by decide +kernel
    simp only [State.linkTurn, h, Bool.false_and]
/-- A flit in the buffer of a link, and one in that of a die-to-die port. -/
def meshS : State := s0.setCanvas 0 { canvasReset with mesh := [(meshKey 18 2 0, [⟨6, 18, 0, false⟩])], d2d := [(0, [⟨36, 35, 0, false⟩])] }
theorem witness_hop : smGet [] (meshS.canvas 0).mesh (meshKey 18 2 0) = [⟨6, 18, 0, false⟩] ∧ meshNext 18 (meshStop 18) = (18, 4) ∧
    smGet [] (meshS.canvas 0).d2d (0 * 4 + 0) = [⟨36, 35, 0, false⟩] := by decide +kernel
theorem witness_hop_port : (meshNext (meshStop 36) (meshStop 35)).2 ≠ 4 := by
  have h : meshStop 35 = 35 := rfl
  have h1 : meshStop 36 < 6 := by unfold meshStop; rw [if_neg (by decide)]; exact Nat.mod_lt _ (by decide)
  rw [h]; revert h1; generalize meshStop 36 = n; intro h1; interval_cases n <;> decide
theorem witness_retire : s0.reaches 0 = true ∧ RsvClear (pnlPage 5) r_PNL_RETIRE 0x7E710003#32 ∧ fldGet 0x7E710003#32 f_PNL_RETIRE_KEY = 0x7E71 ∧
    (s0.panel 5).freeSpares ≠ [] ∧ (s0.panel 5).coreOut.all (fun c => c.phys != s0.physOf 5 (fldGet 0x7E710003#32 f_PNL_RETIRE_LOGICAL)) = true ∧
    RsvClear (pnlPage 5) r_PNL_RETIRE 3#32 := by decide +kernel
theorem witness_core_out : let s := s0.setPanel 5 { panelReset with coreOut := [⟨7, true, true⟩] }
    s.stepRuns 5 = false ∧ s.coreDue 5 = some ⟨7, true, true⟩ ∧ (s.panel 5).freeSpares = [64, 65, 66, 67] ∧ s.logicalOf 5 7 = some 7 := by
  decide +kernel
theorem witness_subst : ((s0.setPanel 5 { panelReset with substing := true }).panel 5).substing = true ∧
    (s0.setPanel 5 { panelReset with substing := true }).stepRuns 5 = false ∧ (s0.setFld (pnlPage 5) fSTATE 5).st (pnlPage 5) = stFENCED := by
  decide +kernel
theorem witness_cnv_retire : RsvClear (cnvPage 2) r_CNV_RETIRE 0x7E710003#32 ∧ fldGet 0x7E710003#32 f_CNV_RETIRE_KEY = 0x7E71 ∧
    (s0.setWord pgMOD r_MOD_PD_STATE1 0xFFFFFFFF#32).spareState 2 = 0 ∧ (s0.setWord pgMOD r_MOD_PD_STATE1 0xFFFFFFFF#32).reaches 0 = true := by decide +kernel
theorem witness_proactive : let s := (s0.setWord pgMOD r_MOD_PD_STATE1 0xFFFFFFFF#32).setCanvas 0 { canvasReset with retire := [5] }
    (s.canvas (5 / 32)).retire.contains 5 = true ∧ (s.panel 5).work = [] ∧ s.spareState (5 / 32) = 0 ∧ s.panelMode 5 ≠ 2 := by decide +kernel
/-- Panel 5 SHARED: the owner is resident, tenant 3 has work. -/
def sharedS (r : Nat) : State :=
  (((s0.setFld (pnlPage 5) fSTATE 3).setFld (pnlPage 5) f_PNL_STATUS_RESIDENT r).setPanel 5
    { panelReset with work := [{ work5 with tenant := 3 }], quantumOut := true })
theorem witness_switch : (sharedS 0).nextTenant 5 = some 3 ∧ (sharedS 0).panelMode 5 = 0 ∧ (sharedS 0).running (pnlPage 5) = true ∧
    (sharedS 0).stepRuns 5 = false ∧ ((sharedS 0).panel 5).moving = none ∧ ((sharedS 0).panel 5).quantumOut = true ∧
    ((sharedS 0).canvas (5 / 32)).moves < (sharedS 0).fld (cnvPage (5 / 32)) f_CNV_MOVES_LIMIT := by decide +kernel
/-- The move to tenant 3 runs, with a port that drains or without. -/
def movingS (d : Bool) : State :=
  (sharedS 0).setPanel 5 { panelReset with work := [{ work5 with tenant := 3 }], moving := some 3, ports := if d then [(4, port5 3 0)] else [] }
theorem witness_switch_end : ((movingS false).panel 5).moving = some 3 ∧ 3 ≠ (movingS false).resident 5 ∧ (movingS false).resident 5 ≠ 0x3F ∧
    ((movingS false).panel 5).ports.all (fun e => e.2.state != 3) = true ∧ ((movingS false).savedOf 5 3).lost = false ∧
    (movingS false).sec.wiped = false ∧ ((movingS true).panel 5).moving = some 3 ∧
    ((movingS true).panel 5).ports.any (fun e => e.2.state == 3) = true := by decide +kernel

/-! ### Rings, operations and counters -/

/-- The owner's tenant RUNNING, its pages RUNNING, its ring 2 on. -/
def ringS : State :=
  let s := (((mapped.setTenant 0 { tenantReset with state := 3 }).setFld (tenantPage 0 3) fSTATE 3).setFld (ringPage 0 2) fSTATE 3).setFld (ringPage 0 2) (f_RING_CFG_ENABLE 2) 1
  ((s.setFld (ringPage 0 2) (f_RING_CFG_LOG2 2) 6).setFld (hmTEN 0) f_HIF_TEN_CFG_TAGS 8).setFld (ringPage 0 2) (f_RING_BASE_LO 2) 0x10000
theorem witness_doorbell : ringS.reaches 0 = true ∧ ringS.running (tenantPage 0 3) = true ∧ ringS.ringOn 0 2 = true ∧ ringS.tenantRunning 0 = true ∧
    ((1#32 : Word).toNat + 2 ^ 32 - (ringS.ring 0 2).tail) % 2 ^ 32 ≤ 2 ^ ringS.fld (ringPage 0 2) (f_RING_CFG_LOG2 2) -
      ((ringS.ring 0 2).tail + 2 ^ 32 - (ringS.word (ringPage 0 2) (r_RING_HEAD 2)).toNat) % 2 ^ 32 ∧ s0.ringOn 0 2 = false := by decide +kernel
/-- One descriptor waits there: its bytes stand at DVA 0x10000. -/
def slotS (b : List Byte) : State :=
  let s := ringS.setRing 0 2 { ringReset with tail := 1 }
  { s with mem := { s.mem with mem := cWrite [] 0x10000 b } }
/-- A SIGNAL without an argument block, of priority 4. -/
def dscSig : List Byte := [0xA#8, 4#8] ++ List.replicate 62 0#8
theorem witness_fetch : let s := slotS dscSig
    (s.at 7).fetchable 0 2 = true ∧ (match s.readDva (bareWho 0) (s.ringSlot 0 2 0) 64 with | .ok b false => b == dscSig | _ => false) = true ∧
    s.word (ringPage 0 2) (r_RING_HEAD 2) = 0#32 ∧ s.fld (ringPage 0 2) (f_RING_CFG_KIND 2) = 0 ∧
    s.seqKind 0 2 (parseDesc dscSig).seq = .new ∧ s.descTests 0 (parseDesc dscSig) false = none ∧
    s.tagsOf 0 < s.fld (hmTEN 0) f_HIF_TEN_CFG_TAGS ∧ s.pickTag 0 7936 3 = some 3 := by decide +kernel
theorem witness_fetch_refused : (slotS dscSig).descTests 0 (parseDesc ([0x55#8] ++ List.replicate 63 0#8)) false = some (scOPCODE, 0) := by decide +kernel
/-- An OPEN request command. -/
def reqOpen : List Byte := [0x20#8, 1#8] ++ List.replicate 7 0#8 ++ [1#8] ++ List.replicate 54 0#8
theorem witness_fetch_request : let s := (((slotS reqOpen).setFld (ringPage 0 2) (f_RING_CFG_KIND 2) 1).setFld (tenantPage 0 7) (f_SMP_T_RING_CFG_VALID 0) 1).setFld (tenantPage 0 7) fSTATE 3
    (s.at 7).fetchable 0 2 = true ∧ (match s.readDva (bareWho 0) (s.ringSlot 0 2 0) 64 with | .ok b false => b == reqOpen | _ => false) = true ∧
    s.fld (ringPage 0 2) (f_RING_CFG_KIND 2) = 1 ∧ s.seqKind 0 2 (leAt reqOpen 4 4) = .new ∧ s.reqTests 0 reqOpen = none := by decide +kernel
theorem witness_fetch_cadence : let s := ((s0.setDom 4 { s0.dom 4 with ring := [⟨dscSig, 9, 0⟩] }).setFld (pgCAD 4) fSTATE 3)
    (s.dom 4).ring = [⟨dscSig, 9, 0⟩] ∧ s.running (pgCAD 4) = true ∧ s.descTests (s.domOwner 4) (parseDesc dscSig) true = none ∧
    s.pickTag (7936 + 16 * 4) 16 8000 = some 8000 := by decide +kernel
/-- A waiting operation of the owner with an argument block at DVA 64. -/
def opW (opc arg : Nat) : Op := ⟨0, 0, false, 0, { dsc opc with arg := arg }, 0, 0, 0, 0, .waiting, none, 0, 0, 0, 0, 0, [5], [], [], false, true, false, [], [], []⟩
def opS (opc arg : Nat) (at' : Nat) (b : List Byte) : State :=
  let s := mapped.setOp 9 (opW opc arg)
  { s with mem := { s.mem with mem := cWrite [] at' b } }
/-- The state and operation once it is issued. -/
def opB (opc arg : Nat) (at' : Nat) (b : List Byte) : State :=
  (((opS opc arg at' b).at 7).slotsMet 9).setOp 9 { opW opc arg with slots := [], phase := .issued, start := some 7 }
def opO (opc arg : Nat) : Op := { opW opc arg with slots := [], phase := .issued, start := some 7 }
/-- Does a read give these bytes, unpoisoned? -/
def reads (r : Rd) (b : List Byte) : Bool := match r with | .ok x false => x == b | _ => false
theorem witness_signal : (opS 0xA 0 0 []).begins 9 0xA 7 = some (opB 0xA 0 0 [], opO 0xA 0) ∧
    (opS 0xA 64 64 []).begins 9 0xA 7 = some (opB 0xA 64 64 [], opO 0xA 64) ∧
    reads ((opB 0xA 64 64 []).readDva ((opO 0xA 64).who 9) 64 128) (List.replicate 128 0#8) = true ∧
    (opB 0xA 64 64 []).entryFault 0 (List.replicate 128 0#8) = none := by decide +kernel
theorem witness_wait : (opS 0xB 64 64 []).begins 9 0xB 7 = some (opB 0xB 64 64 [], opO 0xB 64) ∧
    reads ((opB 0xB 64 64 []).readDva ((opO 0xB 64).who 9) 64 128) (List.replicate 128 0#8) = true ∧ entriesOf (List.replicate 128 0#8) = [] := by
  decide +kernel
/-- FILL of 16 bytes at DVA 0x100; COPY of 16 bytes from DVA 0x40 to 0x100. -/
def fillArg : List Byte := toLe 8 0x100 ++ [1#8, 2#8, 3#8, 4#8, 5#8, 6#8, 7#8, 8#8] ++ toLe 4 16 ++ toLe 4 1 ++ List.replicate 40 0#8
def copyArg : List Byte := toLe 8 0x40 ++ toLe 8 0x100 ++ toLe 4 16 ++ toLe 4 1 ++ List.replicate 40 0#8
theorem witness_fill : (opS 3 64 64 fillArg).begins 9 3 7 = some (opB 3 64 64 fillArg, opO 3 64) ∧
    reads ((opB 3 64 64 fillArg).readDva ((opO 3 64).who 9) 64 64) fillArg = true ∧ leAt fillArg 0x10 4 = 16 ∧ leAt fillArg 0x14 4 = 1 ∧
    rsvByte fillArg [(0x18, 8), (0x28, 24)] = none ∧ leAt fillArg 0 8 % 65536 + 16 ≤ 65536 ∧
    (match (opB 3 64 64 fillArg).translate ((opO 3 64).who 9) 0 (leAt fillArg 0 8) true with | .ok (.module m) => m == 0x100 | _ => false) = true := by
  decide +kernel
theorem witness_copy : (opS 2 64 64 copyArg).begins 9 2 7 = some (opB 2 64 64 copyArg, opO 2 64) ∧ (opS 2 64 64 copyArg).mem.repairs = [] ∧
    reads ((opS 2 64 64 copyArg).readDva ((opW 2 64).who 9) 64 16) (copyArg.take 16) = true ∧ isMural (leAt (copyArg.take 16) 0 8) = false ∧
    isMural (leAt (copyArg.take 16) 8 8) = false ∧ reads ((opB 2 64 64 copyArg).readDva ((opO 2 64).who 9) 64 64) copyArg = true ∧
    muralArgFault copyArg = none ∧ copyArgFault copyArg = none ∧ leAt copyArg 0x14 4 = 1 ∧ leAt copyArg 0x10 4 = 16 ∧
    reads ((opB 2 64 64 copyArg).readDva ((opO 2 64).who 9) (leAt copyArg 0 8) 16) (copyArg.take 16) = true ∧
    leAt copyArg 8 8 % 65536 + 16 ≤ 65536 ∧
    (match (opB 2 64 64 copyArg).translate ((opO 2 64).who 9) 0 (leAt copyArg 8 8) true with | .ok (.module m) => m == 0x100 | _ => false) = true := by
  decide +kernel
/-- A cartoon image of one panel and one step. -/
def image1 : List Byte :=
  toLe 4 0x4E544351 ++ toLe 4 1 ++ toLe 4 0x0B01 ++ toLe 4 1 ++ toLe 4 704 ++ toLe 4 0 ++ toLe 8 1 ++ toLe 4 0 ++ toLe 4 0 ++ toLe 4 0 ++ toLe 4 0 ++
  toLe 4 0x100 ++ toLe 4 0x100 ++ toLe 4 0x100 ++ toLe 4 0x100 ++ List.replicate 192 0#8 ++
  toLe 4 1 ++ toLe 4 0x140 ++ toLe 4 0x180 ++ toLe 4 0 ++ toLe 4 0x180 ++ toLe 4 0 ++ toLe 8 1 ++ List.replicate 32 0#8 ++
  toLe 4 1 ++ toLe 4 0 ++ List.replicate 4 0xFF#8 ++ List.replicate 20 0#8 ++ List.replicate 352 0#8
theorem test_image_is_good : image1.length = 704 ∧ imageFault image1 704 1 = none := by decide +kernel
def loadArg : List Byte := toLe 8 0x400 ++ toLe 4 704 ++ toLe 4 3 ++ List.replicate 112 0#8
def loadMem : List Byte := loadArg ++ List.replicate 832 0#8 ++ image1
theorem witness_load : (opS 0xF 64 64 loadMem).begins 9 0xF 7 = some (opB 0xF 64 64 loadMem, opO 0xF 64) ∧
    reads ((opB 0xF 64 64 loadMem).readDva ((opO 0xF 64).who 9) 64 128) loadArg = true ∧
    (opS 0xF 64 64 loadMem).cartHeld (opW 0xF 64) ((opS 0xF 64 64 loadMem).argNow 9 (opW 0xF 64) 0xC 4) = false ∧
    loadArgFault loadArg = none ∧
    reads ((opB 0xF 64 64 loadMem).readDva ((opO 0xF 64).who 9) (leAt loadArg 0 8) (leAt loadArg 8 4)) image1 = true ∧
    (opB 0xF 64 64 loadMem).placeFault 5 0 (leAt loadArg 0xC 4) ⟨0, image1, 0, 0, 0, false⟩ = none ∧ leAt loadArg 0x10 4 % 2 = 0 := by decide +kernel
/-- That cartoon resident on panel 5, and a RUN of it. -/
def runS : State := (opS 1 64 64 [3#8]).setCarts [(cartKey 5 0 3, ⟨0, image1, 0, 0, 0, false⟩)]
def runB : State := (opB 1 64 64 [3#8]).setCarts [(cartKey 5 0 3, ⟨0, image1, 0, 0, 0, false⟩)]
theorem witness_run_held : let s := (opS 0xF 64 64 loadMem).setOp 10 { opW 1 0x4C with order := 1 }
    s.runHeld 10 = true := by decide +kernel
theorem witness_run : runS.runHeld 9 = false ∧ runS.begins 9 1 7 = some (runB, opO 1 64) ∧ (opO 1 64).isResult = false ∧
    reads (runB.readDva ((opO 1 64).who 9) 64 320) ([3#8] ++ List.replicate 319 0#8) = true ∧
    runB.runArgFault 0 ([3#8] ++ List.replicate 319 0#8) = none ∧ leAt ([3#8] ++ List.replicate 319 0#8) 4 4 % 2 = 0 ∧
    runB.cart 5 0 (leAt ([3#8] ++ List.replicate 319 0#8) 0 2) = some ⟨0, image1, 0, 0, 0, false⟩ ∧
    slotFaultOf ([3#8] ++ List.replicate 319 0#8) image1 0 = none ∧ bindsOf image1 0 = [] := by decide +kernel
/-- An operation that has ended OK, with a SIGNAL to counter 3. -/
def opE : Op := { opO 3 64 with phase := .ended, d := { dsc 3 with sig := 2 ^ 31 + 3, sigAdd := 5 } }
def endS : State := ((s0.setOp 9 opE).setTenant 0 { tenantReset with state := 3 }).setFld pgSYN (f_SYN_ALLOC_COUNT 0) 1
theorem witness_complete : endS.op 9 = some opE ∧ opE.phase = .ended ∧ opE.onChannels = false ∧ opE.isResult = false ∧ endS.writesOff 0 = false ∧
    opE.ring < 64 ∧ endS.noServing ∧ opE.signals = true ∧ cfValid opE.d.sig = true ∧ endS.relCounter 0 (cfCounter opE.d.sig) = some 3 ∧
    endS.synTakes 3 = true := by decide +kernel
theorem witness_timeout : (s0.setOp 9 { opO 3 64 with timeout := 50 }).op 9 = some { opO 3 64 with timeout := 50 } ∧
    ({ opO 3 64 with timeout := 50 } : Op).decided = false ∧ ({ opO 3 64 with timeout := 50 } : Op).channels = 0 ∧ s0.noServing := by decide +kernel
/-- A queue of the owner at DVA 0 in host memory with one record due. -/
def rec1 : CRec := ⟨3, 9, 1, 9, false, 0, 0, 0, 3, 0, false⟩
def cqS : State :=
  let s := ((s0.setFld (cqPg 0) (f_CQ_CFG_ENABLE 1) 1).setFld (cqPg 0) fSTATE 3).setCq 0 1 { cqReset with due := [rec1] }
  { s with hif := { s.hif with leaves := [(0, ⟨true, true, 0x5000, true, true, false⟩)], bme := [(0, true)] } }
theorem witness_post : (cqS.cq 0 1).due = [rec1] ∧ (cqS.cq 0 1).failed = false ∧ cqS.cqOn 0 1 = true ∧ cqS.running (cqPg 0) = true ∧
    cqS.cqFull 0 1 = false ∧ cqS.cqSlot 0 1 (cqS.cq 0 1).posted % 65536 + 32 ≤ 65536 ∧
    (match cqS.translate { bareWho 0 with tag := rec1.tag, opcode := rec1.opcode } 0 (cqS.cqSlot 0 1 (cqS.cq 0 1).posted) true with
     | .ok (.host a) => a == 0x5000 | _ => false) = true := by decide +kernel
theorem witness_syn : endS.reaches 0 = true ∧ endS.synTakes (endS.fld pgSYN f_SYN_SEL_COUNTER) = true ∧
    s0.synTakes (s0.fld pgSYN f_SYN_SEL_COUNTER) = false ∧
    endS.relCounter 0 (endS.fld (tenantPage 0 5) f_SYN_T_SEL_COUNTER) = some 0 ∧
    s0.relCounter 0 (s0.fld (tenantPage 0 5) f_SYN_T_SEL_COUNTER) = none := by decide +kernel

/-! ### Serving -/

/-- The Sampler, the Glaze Unit and Easel firmware RUNNING, the owner's pages RUNNING, 16 sequences allowed, plan 1 resident. -/
def planB : List Byte := List.replicate 12 0#8 ++ toLe 4 8 ++ List.replicate 16 0#8 ++ toLe 4 32 ++ List.replicate 12 0#8 ++ toLe 4 2
def srvS : State :=
  let s := ((((mapped.setTenant 0 { tenantReset with state := 3 }).setFld pgSMP fSTATE 3).setFld pgGLZ fSTATE 3).setFld pgSMP (f_SMP_SERVE_SEQS 0) 1).setFld (tenantPage 0 7) fSTATE 3
  { s with srv := { s.srv with plans := [(1, planB)] } }
/-- A request command that is waiting, and the state that holds it. -/
def req1 (cmd handle : Nat) : Req := ⟨0, 2, 0, cmd, 4, false, 5, 64, handle, 1, 0, 0, 0, 0, 0, 0⟩
def reqS (cmd : Nat) (b : List Byte) : State :=
  { srvS with srv := { srvS.srv with reqs := [(0, req1 cmd 3)] }, mem := { srvS.mem with mem := cWrite [] 64 b } }
/-- A sequence at slot 3, and a GENERATE of it. -/
def seq1 : Seq := seqReset 0 1 0 false
def gen1 (step : Option Nat) : GenJob := ⟨{ req1 0x22 3 with timeout := 9 }, 4, false, List.replicate 128 0#8, 0, [7], false, 0, step, 1, true, false, false, 0⟩
def seqG (st : Nat) (step : Option Nat) : Seq := { seq1 with state := st, job := some (gen1 step) }
theorem witness_open : let s := reqS 0x21 []
    smFind s.srv.reqs 0 = some (req1 0x21 3) ∧ s.running pgSMP = true ∧ s.writesOff 0 = false ∧
    (s.srv.seqs.filter (fun e => e.2.tenant == 0)).length < s.fld pgSMP (f_SMP_SERVE_SEQS 0) * 16 ∧ s.planResident 0 1 = true ∧ s.seq 3 = none ∧
    (s.setFld pgSMP (f_SMP_SERVE_SEQS 0) 0).fld pgSMP (f_SMP_SERVE_SEQS 0) * 16 ≤ 0 := by decide +kernel
def loadBlk : List Byte := toLe 8 0x100 ++ toLe 4 192
theorem witness_plan_load : let s := reqS 0x20 loadBlk
    smFind s.srv.reqs 0 = some (req1 0x20 3) ∧ s.running pgEAS = true ∧ reads (s.readDva { bareWho 0 with opcode := 0x20 } 64 12) loadBlk = true ∧
    leAt loadBlk 8 4 = 192 ∧ s.srv.seqs.any (fun e => e.2.tenant == 0 && e.2.plan == 1) = false ∧
    reads (s.readDva { bareWho 0 with opcode := 0x20 } 0x100 192) (List.replicate 192 0#8) = true := by decide +kernel
def genBlk : List Byte := toLe 8 0x200 ++ toLe 4 1 ++ toLe 4 1 ++ List.replicate 48 0#8 ++ List.replicate 16 0#8 ++ toLe 4 0x3F800000 ++ toLe 4 0 ++
  toLe 4 0x3F800000 ++ List.replicate 100 0#8
theorem witness_generate : let s := (reqS 0x22 genBlk).setSeq 3 seq1
    s.running pgGLZ = true ∧ s.named 0 3 = some (3, seq1) ∧ seq1.hosted = false ∧ seq1.state = sqIDLE ∧ seq1.job = none ∧
    reads (s.readDva { bareWho 0 with opcode := 0x22 } 64 192) genBlk = true ∧ genArgFault genBlk = none ∧ leAt genBlk 8 4 ≠ 0 ∧
    leAt genBlk 0xC 4 ≠ 0 ∧ s.seqLen seq1 + (s.pendingOf seq1).toList.length + leAt genBlk 8 4 ≤ leAt (s.plan 0 1) 0x20 4 ∧
    reads (s.readDva { bareWho 0 with opcode := 0x22 } 0x200 4) (List.replicate 4 0#8) = true := by decide +kernel
theorem witness_pause : ((reqS 0x23 []).setSeq 3 seq1).named 0 3 = some (3, seq1) ∧
    ((reqS 0x23 []).setSeq 3 (seqG sqGENERATING (some 5))).named 0 3 = some (3, seqG sqGENERATING (some 5)) ∧ (gen1 (some 5)).flying = true ∧
    (req1 0x23 3).cflags % 2 = 0 := by decide +kernel
theorem witness_close : let s := (reqS 0x25 []).setSeq 3 seq1
    s.named 0 3 = some (3, seq1) ∧ s.seqWork 3 seq1 = false ∧ seq1.pause = none ∧ seq1.lastGen = none ∧ seq1.state ≠ sqCLOSING := by decide +kernel
theorem witness_generate_timeout : (gen1 (some 5)).req.timeout ≠ 0 ∧ (gen1 none).flying = false ∧
    (srvS.setSeq 3 (seqG sqGENERATING none)).seq 3 = some (seqG sqGENERATING none) ∧ (gen1 none).req.ring < 64 := by decide +kernel
/-- One decode row of plan 1 can be formed. -/
def formS : State := srvS.setSeq 3 { seqG sqGENERATING none with job := some { gen1 none with decoding := true, maxNew := 0 } }
def formB : List Byte := toLe 4 0 ++ List.replicate 8 0#8 ++ toLe 4 8 ++ List.replicate 8 0#8 ++ toLe 4 4 ++ toLe 4 32 ++ toLe 4 32 ++ List.replicate 4 0#8 ++
  toLe 8 0x1000 ++ toLe 4 2 ++ toLe 4 128
def formP : State := { formS with srv := { formS.srv with plans := [(1, formB)] } }
theorem witness_form : formP.tenantRunning 0 = true ∧ formP.plan 0 1 = formB ∧ formB ≠ [] ∧ smGet 0 formP.srv.stepNo 1 = 0 ∧
    (formP.formStep 0 formB (formP.eligible 0 1 [3])).rows = [⟨3, 3, 7, 0, false, true⟩] ∧
    (formP.formStep 0 formB (formP.eligible 0 1 [3])).stall = false ∧ formP.tagsFit 0 (planTemplates formB) = true ∧ 0 < leAt formB 0x30 4 ∧
    formP.writeFault (bareWho 0) 0 (cuts (leAt formB 0x28 8) (batchBytes 0 [⟨3, 3, 7, 0, false, true⟩]).length) = none := by decide +kernel
def step1 (f : Option (Nat × Nat)) : Step := ⟨0, 1, 6, [⟨3, 3, 7, 0, true, true⟩], f, 0, false, false⟩
def key1 : Nat := stepKey 0 1 6
theorem witness_reissue : let s := srvS.setStep key1 (step1 (some (scTIMEOUT, 4)))
    s.stepAt key1 = some (step1 (some (scTIMEOUT, 4))) ∧ s.stepOps key1 = false ∧ retryable scTIMEOUT = true ∧
    s.tagsFit 0 (planTemplates (s.plan 0 1)) = true := by decide +kernel
theorem witness_sample_issue : let s := (srvS.setStep key1 (step1 none)).setSeq 3 (seqG sqGENERATING (some key1))
    s.waitMet 0 (leAt (s.plan 0 1) 0x50 4) (7 * leAt (s.plan 0 1) 0x54 4) = true ∧ (step1 none).rows.any (fun r => r.sample) = true ∧
    ∀ r ∈ (step1 none).rows, r.sample = true → (s.seq r.slot).any (fun q => q.job.any (fun j => j.step == some (stepKey 0 1 6))) = true := by
  decide +kernel
/-- A SAMPLE of one hosted sequence: its argument block at 64, its row table at 0x100, its sampling block at 0x200. -/
def sampArg : List Byte := toLe 8 0x400 ++ toLe 8 64 ++ toLe 4 1 ++ toLe 4 8 ++ toLe 4 1 ++ toLe 4 0 ++ toLe 8 0x100 ++ List.replicate 24 0#8
def sampTab : List Byte := toLe 4 3 ++ toLe 4 0 ++ toLe 8 0x200
def sampBlk : List Byte := List.replicate 16 0#8 ++ toLe 4 0x3F800000 ++ toLe 4 0 ++ toLe 4 0x3F800000 ++ List.replicate 100 0#8
def sampM : List Byte := sampArg ++ List.replicate 128 0#8 ++ sampTab ++ List.replicate 240 0#8 ++ sampBlk
def hostS (s : State) : State :=
  let a := (((s.setFld pgSMP fSTATE 3).setFld pgGLZ fSTATE 3).setFld (tenantPage 0 7) fSTATE 3).setFld (tenantPage 0 7) (f_SMP_T_RING_CFG_VALID 0) 1
  (a.setFld (tenantPage 0 7) (f_SMP_T_RING_CFG_LOG2_SIZE 0) 4).setSeq 3 { seq1 with hosted := true }
theorem witness_sample : let s := hostS (opS 7 64 64 sampM); let b := hostS (opB 7 64 64 sampM)
    s.begins 9 7 7 = some (b, opO 7 64) ∧ b.running pgSMP = true ∧ reads (b.readDva ((opO 7 64).who 9) 64 64) sampArg = true ∧
    sampleArgFault sampArg = none ∧ leAt sampArg 0x10 4 = 1 ∧ leAt sampArg 0x1C 4 = 0 ∧ b.ringValid 0 0 = true ∧
    reads (b.readDva ((opO 7 64).who 9) (leAt sampArg 0x20 8) 16) sampTab = true ∧ b.sampleRowFault 0 [leAt sampTab 0 3] = none ∧
    reads (b.readDva ((opO 7 64).who 9) (leAt sampTab 8 8) 128) sampBlk = true ∧ samplingFault sampBlk = none ∧ 1 ≤ b.slotsFree 0 0 := by decide +kernel
def sjob (p : Option Pick) : SampJob := ⟨0, some 9, none, 8, true, [⟨3, 3, sampBlk, 0x400, 0⟩], 0, p, 0, 0, none⟩
def sjobS (p : Option Pick) (mark : Bool) : State :=
  ((hostS (opB 7 64 64 sampM)).setJob 9 (sjob p)).setSeq 3 { seq1 with hosted := true, row := some 9, mark := mark }
theorem witness_decision : (sjobS none false).jobOf 9 = some (sjob none) ∧ (sjob none).rows[0]? = some ⟨3, 3, sampBlk, 0x400, 0⟩ ∧
    (sjobS none false).working pgSMP = true := by decide +kernel
theorem witness_commit : (sjobS (some (.tok 5 0)) false).jobOf 9 = some (sjob (some (.tok 5 0))) ∧
    ((sjobS (some (.tok 5 0)) false).seq 3).map (fun q => (q.mark, q.state, q.job.isNone)) = some (false, sqIDLE, true) ∧
    ((sjobS (some (.tok 5 0)) true).seq 3).map (fun q => q.mark) = some true := by decide +kernel
theorem witness_ring_head : let s := hostS s0
    s.reaches 0 = true ∧ (0#32 : Word).toNat % 65536 < s.ringSize 0 0 ∧
    ((0#32 : Word).toNat % 65536 + s.ringSize 0 0 - s.fld (smpPg 0) (f_SMP_T_RING_PTR_HEAD 0) % s.ringSize 0 0) % s.ringSize 0 0 = 0 ∧
    s.ringSize 0 0 ≤ (16#32 : Word).toNat % 65536 := by decide +kernel
theorem witness_domain : let s := s0.setFld pgSMP f_SMP_DOM_SEL_DOMAIN 70
    s.reaches 0 = true ∧ s.selDom = some 70 ∧ fldGet 1#32 f_SMP_DOM_CTRL_VALID = 1 ∧ s.sec.trngFail = false ∧
    fldGet 1#32 f_SMP_DOM_CTRL_GEN_KEY = 0 ∧ fldGet 2#32 f_SMP_DOM_CTRL_GEN_KEY = 1 ∧
    (s0.setFld pgSMP f_SMP_DOM_SEL_DOMAIN 3).selDom = none := by decide +kernel
/-! ### The Glaze Unit -/

/-- Geometry 0: G4 pages of one head of 32 elements in two layers, four HBM sets from address 0x200000. -/
def glzS (s : State) : State :=
  let a := (((s.setFld pgGLZ fSTATE 3).setFld pgGLZ (f_GLZ_GEO_SHAPE_VALID 0) 1).setFld pgGLZ (f_GLZ_GEO_SHAPE_DIM32 0) 1).setFld pgGLZ (f_GLZ_GEO_SHAPE_KV_HEADS 0) 1
  ((a.setFld pgGLZ (f_GLZ_GEO_SHAPE_LAYERS 0) 2).setFld pgGLZ (f_GLZ_GEO_HBM_COUNT_COUNT 0) 4).setFld pgGLZ (f_GLZ_GEO_HBM_BASE_BASE 0) 1
/-- A hosted sequence that holds set 0 for its block 0, with position 0 appended in both layers. -/
def seqK : Seq := { seq1 with hosted := true, geo := some 0, lens := [(0, 1), (1, 1)], blocks := [(0, ⟨0, false, false, false, false, 0⟩)] }
def glzQ (s : State) : State := ((glzS s).setSeq 3 seqK).setPset 0 ⟨some 0, false, 1, false, [], []⟩
/-- The argument block of a GLAZE_APPEND and of an ATTEND of one row in both layers: the count of rows at 0x300, the rows at 0x340. -/
def appArg : List Byte := toLe 8 0x300 ++ toLe 8 0x340 ++ toLe 8 0x400 ++ toLe 8 0x800 ++ toLe 8 64 ++ toLe 8 64 ++ toLe 4 0 ++ toLe 4 512 ++ List.replicate 72 0#8
def attArg : List Byte := appArg.take 64 ++ toLe 4 1 ++ toLe 4 0x3F800000 ++ toLe 4 0 ++ toLe 4 0 ++ toLe 4 0 ++ toLe 4 0 ++ toLe 4 0x80000 ++ toLe 4 1 ++ List.replicate 32 0#8
def rowsM (a : List Byte) : List Byte := a ++ List.replicate 576 0#8 ++ toLe 4 1 ++ List.replicate 60 0#8 ++ toLe 4 3 ++ List.replicate 12 0#8
theorem witness_append : let s := glzQ (opS 5 64 64 (rowsM appArg)); let b := glzQ (opB 5 64 64 (rowsM appArg))
    s.begins 9 5 7 = some (b, opO 5 64) ∧ b.running pgGLZ = true ∧ reads (b.readDva ((opO 5 64).who 9) 64 128) appArg = true ∧
    b.glzArgFault (opO 5 64) appArg 0xFFFFFEF8 = none ∧ rsvByte appArg [(0x48, 56)] = none ∧
    (match b.glzRows 9 (opO 5 64) appArg with | .ok r => r == [(3, 0)] | .error _ => false) = true ∧
    b.rowFault (opO 5 64) (leAt appArg 0x30 4 % 8) [(3, 0)] = none := by decide +kernel
/-- It has begun: its rows wait for layer `i`. -/
def opA (i : Nat) : Op := { opO 5 64 with args := appArg, parts := 1, aux := [i] }
def appS (i : Nat) : State :=
  let s := (glzQ (opB 5 64 64 (rowsM appArg))).setOp 9 (opA i)
  { s with srv := { s.srv with apps := [(9, [⟨3, 0⟩])] } }
theorem witness_append_layer : (appS 0).op 9 = some (opA 0) ∧ smFind (appS 0).srv.apps 9 = some [⟨3, 0⟩] ∧ (appS 0).writesOff 0 = false ∧
    (appS 0).waitPoisoned 0 (opA 0).d.wait0 = false ∧ (appS 0).working pgGLZ = true ∧ (appS 0).layerReady (opA 0) 0 = true ∧
    (((appS 0).at 7).appendRows 9 (opA 0) 0 [(0, ⟨3, 0⟩)]).2 = none ∧ (((appS 1).at 7).appendRows 9 (opA 1) 1 [(0, ⟨3, 0⟩)]).2 = none ∧
    leAt (opA 0).args 0x34 4 / 256 % 512 = 2 := by decide +kernel
def desc1 : PDesc := ⟨0x200000, 0, false, 0, 0, 0, 0⟩
theorem witness_attend : let s := glzQ (opS 4 64 64 (rowsM attArg)); let b := glzQ (opB 4 64 64 (rowsM attArg))
    s.begins 9 4 7 = some (b, opO 4 64) ∧ reads (b.readDva ((opO 4 64).who 9) 64 128) attArg = true ∧
    b.glzArgFault (opO 4 64) attArg 0xFFFFEDF8 = none ∧ b.attArgFault attArg = none ∧
    (match b.glzRows 9 (opO 4 64) attArg with | .ok r => r == [(3, 0)] | .error _ => false) = true ∧
    b.rowFault (opO 4 64) (leAt attArg 0x30 4 % 8) [(3, 0)] = none ∧ b.rowDescs 0 seqK 0 0 (leAt attArg 0x54 4) = [desc1] ∧
    32 * ([desc1].filter (fun d => holdsRow 1 (b.geoHeads 0) 0 d.row)).length + 524288 ≤ leAt attArg 0x58 4 / 2048 * 4096 := by decide +kernel
/-- The ATTEND on panel 5 before its second layer; the scale of that layer's page is not a number. -/
def opT : Op := { opO 4 64 with args := attArg, parts := 1 }
def workT : Work := ⟨9, 0, 1, 0, [], 0, 1, 2, false, false, 0⟩
def attT : Att := ⟨[⟨3, 0⟩], [desc1], 1, [], [], none⟩
def attS : State :=
  (((((glzQ (opB 4 64 64 (rowsM attArg))).memWrite 0x2008C0 [0x7F#8]).setOp 9 opT).setAtt 9 attT).setPanel 5 { panelReset with work := [workT] }).setFld (pnlPage 5) fSTATE 3
theorem witness_attend_layer : (attS.setFld (pnlPage 5) f_PNL_MODE_MODE 1).headWork 5 = some workT ∧ attS.op 9 = some opT ∧ attS.att 9 = some attT ∧
    attS.panelReady 5 = true ∧ attS.writesOff 0 = false ∧ attS.working pgGLZ = true ∧ attS.layerReady opT 1 = true ∧
    (attS.seq 3).any (fun q => decide (0 < smGet 0 q.lens 1)) = true ∧ ((attS.at 7).attItems 9 opT 1 [(0, 0)]).2 = none ∧
    ((attS.at 7).attItems 9 opT 1 [(0, 0)]).1.att 9 ≠ none ∧ (((attS.at 7).attItems 9 opT 1 [(0, 0)]).1.op 9).isSome = true := by decide +kernel
def movArg : List Byte := toLe 4 3 ++ toLe 4 0 ++ toLe 4 1 ++ List.replicate 52 0#8
def hosted1 : Seq := { seq1 with hosted := true }
theorem witness_move : let s := hostS (opS 6 64 64 movArg); let b := hostS (opB 6 64 64 movArg)
    s.begins 9 6 7 = some (b, opO 6 64) ∧ reads (b.readDva ((opO 6 64).who 9) 64 64) movArg = true ∧ moveArgFault movArg = none ∧
    b.named 0 (leAt movArg 0 3) = some (3, hosted1) ∧ b.seqBusyOps 3 = false ∧ s.moveOf (some 9) 0 = none ∧ hosted1.toMove true = [] := by decide +kernel
def parking : Seq := { seq1 with state := sqPARKING, parkTtl := some 5, pause := some (req1 0x23 3) }
theorem witness_easel_move : (srvS.setSeq 3 parking).running pgEAS = true ∧ (srvS.setSeq 3 parking).seq 3 = some parking ∧
    (srvS.setSeq 3 parking).seqWork 3 parking = false ∧ (srvS.setSeq 3 parking).moveOf none 3 = none ∧ parking.toMove true = [] ∧
    srvS.writesOff 0 = false := by decide +kernel
/-- A sequence with a private set in HBM; no Loft set is free. -/
def holds1 : Seq := { parking with hosted := false, geo := some 0, blocks := [(0, ⟨0, false, false, false, false, 0⟩)] }
def lofted : Seq := { seqG sqPARKED none with geo := some 0, blocks := [(0, ⟨0, true, false, false, false, 0⟩)] }
theorem witness_move_full : let s := srvS.setSeq 3 holds1
    s.seqWork 3 holds1 = false ∧ holds1.toMove true = [0] ∧ s.setsFit 0 0 1 true = false ∧
    (hostS (opB 6 64 64 movArg)).setsFit 0 0 1 true = false ∧ ({ holds1 with hosted := true, state := sqIDLE, parkTtl := none, pause := none } : Seq).toMove true = [0] ∧
    lofted.toMove false = [0] ∧ s.setsFit 0 0 1 false = false ∧ (seqG sqPARKED none).toMove false = [] ∧
    (gen1 none).req.ring < 64 := by decide +kernel
/-- A move of one set to the Loft that is under way. -/
def gmoveS (tag : Option Nat) (toLoft : Bool) : State :=
  let s := ((glzS (srvS.setOp 9 (opO 6 64))).setSeq 3 (if toLoft then holds1 else { seq1 with hosted := true, state := sqPARKED })).setPset 0x1000000 ⟨some 0, false, 1, false, [], []⟩
  { s with srv := { s.srv with moves := [(3, ⟨toLoft, if toLoft then [(0, 0x1000000)] else [], tag, 5⟩)] } }
theorem witness_move_end : (gmoveS none true).working pgGLZ = true ∧ (gmoveS none true).moveOf none 3 = some (3, ⟨true, [(0, 0x1000000)], none, 5⟩) ∧
    (gmoveS (some 9) false).moveOf (some 9) 0 = some (3, ⟨false, [], some 9, 5⟩) ∧ (gmoveS none true).seq 3 = some holds1 ∧ holds1.state ≠ sqCLOSING ∧
    holds1.state ≠ sqFAILED ∧ holds1.geo.isSome = true ∧ (smFind holds1.blocks 0).isSome = true ∧
    (gmoveS (some 9) false).op 9 = some (opO 6 64) ∧ (opO 6 64).phase = .issued := by decide +kernel
def lookArg : List Byte := toLe 8 0x100 ++ toLe 4 1 ++ toLe 4 3 ++ List.replicate 48 0#8
theorem witness_lookup : let s := hostS (opS 0x10 64 64 lookArg); let b := hostS (opB 0x10 64 64 lookArg)
    s.begins 9 0x10 7 = some (b, opO 0x10 64) ∧ reads (b.readDva ((opO 0x10 64).who 9) 64 64) lookArg = true ∧ lookupArgFault lookArg = none ∧
    b.named 0 (leAt lookArg 0xC 3) = some (3, hosted1) ∧ b.seqLen hosted1 % 32 = 0 ∧ b.pendingOf hosted1 = none ∧
    reads (b.readDva ((opO 0x10 64).who 9) (leAt lookArg 0 8) 128) (List.replicate 128 0#8) = true ∧ leAt lookArg 0x18 8 = 0 := by decide +kernel
theorem witness_expired : 5 ≤ max srvS.time (7#64 : DWord).toNat ∧ (srvS.setSeq 3 { seq1 with state := sqPARKED, expiry := some 5 }).seq 3 =
    some { seq1 with state := sqPARKED, expiry := some 5 } := by decide +kernel

/-! ### The codec engines -/

/-- Engine 0 RUNNING with four contexts allowed to the owner; a decode context 3 and an encode context 4 with the queues given. -/
def vceS (s : State) (q : List VUnit) (busy : Bool) : State :=
  let a := ((s.setFld (pgVCE 0) fSTATE 3).setFld (pgVCE 0) (f_VCE_QUOTA_CONTEXTS 0) 4).setVctx 0 3 { vctxNew 0 false (List.replicate 256 0#8) 0 with units := q }
  let b := a.setVctx 0 4 { vctxNew 0 true (List.replicate 256 0#8) 0 with units := q }
  if busy then b.setDec 0 (some ⟨3, 0, ⟨none, false, [], [], 0, 0, 0⟩, 0, 0, 0, false⟩) else b
/-- The state a codec operation leaves as it starts at engine 0. -/
def vU (s : State) (opc cmd : Nat) : State := ((s.vBegins 9 opc cmd 7 0).map (fun x => x.1)).getD s0
def vO (opc : Nat) : Op := { opO opc 64 with aux := [0], parts := 1 }
def vStarts' (s : State) (opc cmd : Nat) (b : List Byte) : Bool := (s.vBegins 9 opc cmd 7 0).map (fun x => (x.2.1, x.2.2)) == some (vO opc, b)
/-- The argument block of a command for a context; the parameter block of an OPEN stands at 0x100. -/
def vArg (cmd h prm n : Nat) : List Byte := toLe 4 cmd ++ toLe 4 h ++ toLe 8 prm ++ toLe 8 0x800 ++ toLe 4 n ++ List.replicate 36 0#8
def vPrm : List Byte := toLe 12 0 ++ toLe 4 1 ++ toLe 4 64 ++ toLe 4 64 ++ toLe 4 1 ++ toLe 12 0 ++ toLe 8 0x500000 ++ toLe 8 0 ++ toLe 4 128 ++ toLe 4 1 ++
  toLe 8 0x4000 ++ toLe 16 0 ++ toLe 8 4 ++ List.replicate 160 0#8
def vOpenM (p : List Byte) : List Byte := vArg 0 0 0x100 0 ++ List.replicate 128 0#8 ++ p
theorem witness_vdec_open : let s := vceS (opS 8 64 64 (vOpenM vPrm)) [] false; let u := vU s 8 0
    vStarts' s 8 0 (vArg 0 0 0x100 0) = true ∧ vArgFault true 0 (vArg 0 0 0x100 0) = none ∧ reads (u.readDva ((vO 8).who 9) 0x100 256) vPrm = true ∧
    u.vdecParamFault 0 0 vPrm = none ∧ vpDest vPrm = false ∧ u.vctx 0 7 = none ∧ (u.vctxsOf 0 0).length < u.fld (pgVCE 0) (f_VCE_QUOTA_CONTEXTS 0) ∧
    u.vdecParamFault 0 0 (List.replicate 256 0#8) = some 0xC := by decide +kernel
theorem witness_venc_open : let s := vceS (opS 9 64 64 (vOpenM vPrm)) [] false; let u := vU s 9 0
    vStarts' s 9 0 (vArg 0 0 0x100 0) = true ∧ vArgFault false 0 (vArg 0 0 0x100 0) = none ∧ reads (u.readDva ((vO 9).who 9) 0x100 256) vPrm = true ∧
    u.vctx 0 7 = none ∧ (u.vctxsOf 0 0).length < u.fld (pgVCE 0) (f_VCE_QUOTA_CONTEXTS 0) := by decide +kernel
def vC (enc : Bool) : VCtx := vctxNew 0 enc (List.replicate 256 0#8) 0
theorem witness_vdec_commands : let s := fun c n => vceS (opS 8 64 64 (vArg c 3 0 n)) [] false
    vStarts' (s 1 16) 8 1 (vArg 1 3 0 16) = true ∧ vArgFault true 1 (vArg 1 3 0 16) = none ∧ (vU (s 1 16) 8 1).handled 0 0 3 = some (vC false) ∧
    vStarts' (s 2 0) 8 2 (vArg 2 3 0 0) = true ∧ vArgFault true 2 (vArg 2 3 0 0) = none ∧ (vU (s 2 0) 8 2).handled 0 0 3 = some (vC false) ∧
    vStarts' (s 3 0) 8 3 (vArg 3 3 0 0) = true ∧ vArgFault true 3 (vArg 3 3 0 0) = none ∧ (vU (s 3 0) 8 3).handled 0 0 3 = some (vC false) ∧
    (vU (s 3 0) 8 3).vBusy 0 3 = false ∧ (vceS s0 [] true).vBusy 0 3 = true ∧ leAt (vArg 1 3 0 16) 4 2 = 3 ∧ vpIngest (vC false).params = false := by
  decide +kernel
theorem witness_venc_commands : let s := fun c => vceS (opS 9 64 64 (vArg c 4 (if c = 2 then 0x100 else 0) 0 ++ List.replicate 384 0#8)) [] false
    vStarts' (s 1) 9 1 (vArg 1 4 0 0) = true ∧ vArgFault false 1 (vArg 1 4 0 0) = none ∧ (vU (s 1) 9 1).handled 0 0 4 = some (vC true) ∧
    vStarts' (s 3) 9 3 (vArg 3 4 0 0) = true ∧ vArgFault false 3 (vArg 3 4 0 0) = none ∧ (vU (s 3) 9 3).handled 0 0 4 = some (vC true) ∧
    vStarts' (s 4) 9 4 (vArg 4 4 0 0) = true ∧ vArgFault false 4 (vArg 4 4 0 0) = none ∧ (vU (s 4) 9 4).handled 0 0 4 = some (vC true) ∧
    vStarts' (s 2) 9 2 (vArg 2 4 0x100 0) = true ∧ vArgFault false 2 (vArg 2 4 0x100 0) = none ∧ (vU (s 2) 9 2).handled 0 0 4 = some (vC true) ∧
    reads ((vU (s 2) 9 2).readDva ((vO 9).who 9) 0x100 256) (List.replicate 256 0#8) = true ∧ (vU (s 3) 9 3).vBusy 0 4 = false := by decide +kernel
/-- Units of an operation under tag 9, which is issued. -/
def vUn (tag : Option Nat) (fl : Bool) : VUnit := ⟨tag, fl, toLe 16 0 ++ toLe 8 64 ++ toLe 40 2, List.replicate 256 0#8, 0, 0, 0⟩
def vQ (u : VUnit) : State := vceS (opB 8 64 64 []) [u] false
theorem witness_frame_start : (vQ (vUn none false)).vctx 0 3 = some { vC false with units := [vUn none false] } ∧
    (vQ (vUn none false)).vStarts 0 = true ∧ (vQ (vUn none false)).vPicks 0 3 false = true ∧ (vQ (vUn (some 9) true)).vPicks 0 3 false = true ∧
    smFind (vQ (vUn none false)).vce.dec 0 = none ∧
    reads ((vQ (vUn (some 9) false)).readDva ((vQ (vUn (some 9) false)).vWho (vC false) (vUn (some 9) false))
      (leAt (vUn (some 9) false).bytes 0x10 8) (leAt (vUn (some 9) false).bytes 0x18 4)) [0#8, 0#8] = true ∧
    (vQ (vUn none false)).vPicks 0 4 true = true ∧ smFind (vQ (vUn none false)).vce.enc 0 = none ∧ (vC true).refFault (vUn none false) = false ∧
    reads ((vQ (vUn none false)).vReadRows (bareWho 0) (vencReads (vUn none false).params (vUn none false).bytes).1) [] = true ∧
    reads ((vQ (vUn none false)).vReadRows (bareWho 0) (vencReads (vUn none false).params (vUn none false).bytes).2) [] = true := by decide +kernel
def vRunD (fl : Bool) : State :=
  let s := (vceS (opB 8 64 64 []) [] false).setDec 0 (some ⟨3, 0, vUn (some 9) fl, 0, 0, 0, false⟩)
  if fl then s.setVctx 0 3 { vC false with state := vcFLUSHING } else s
theorem witness_frame_end : smFind (vRunD false).vce.dec 0 = some ⟨3, 0, vUn (some 9) false, 0, 0, 0, false⟩ ∧ (vRunD false).vctx 0 3 = some (vC false) ∧
    (vRunD false).writeFault ((vRunD false).vWho (vC false) (vUn (some 9) false)) 0 (cuts (leAt (vC false).params 0x20 8) (leAt (vC false).params 0x28 8)) = none ∧
    ((vRunD false).op 9).any (fun o => o.phase == .issued) = true ∧ (vRunD true).vctx 0 3 = some { vC false with state := vcFLUSHING } := by decide +kernel
/-- A slice of at most two bytes into a ring of four. -/
def vSl : VUnit := { vUn (some 9) false with params := toLe 0x50 0 ++ toLe 8 64 ++ toLe 4 4 ++ toLe 4 2 ++ List.replicate 160 0#8 }
def vRunE : State := (vceS (opB 9 64 64 []) [] false).setEnc 0 (some ⟨4, 0, vSl, 0, 0, 0, true⟩)
theorem witness_slice : smFind vRunE.vce.enc 0 = some ⟨4, 0, vSl, 0, 0, 0, true⟩ ∧ vRunE.vctx 0 4 = some (vC true) ∧ 0 < leAt vSl.params 0x58 4 ∧
    leAt vSl.params 0x5C 4 ≤ leAt vSl.params 0x58 4 ∧
    (∀ k < 4, ∀ n ≤ 4 - k, vRunE.writeFault (vRunE.vWho (vC true) vSl) 0 (cuts (leAt vSl.params 0x50 8 + k) n) = none) ∧
    vRunE.writeFault (vRunE.vWho (vC true) vSl) 0 (cuts (leAt vSl.params 0x68 8 + 32 * (0 % 2 ^ leAt vSl.params 0x70 4)) 32) = none := by decide +kernel
theorem witness_pdest : s0.reaches 0 = true ∧ RsvClear (pgVCE 1) r_VCE_PDEST_CMD 0x105#32 ∧ bitOf 0x105#32 8 = true ∧ s0.pdBound 1 5 = false ∧
    (s0.setFld (pgVCE 1) f_VCE_PDEST_STATUS_BOUND 32).pdBound 1 5 = true := by decide +kernel

/-! ### Cadence -/

/-- Channel 1 RUNNING in a mode, with index correction of 100 counts a revolution and tolerance 5; domain 4 RUNNING on it. -/
def cadS (mode : Nat) (r : RefCh) (x : Dom) : State :=
  let a := ((((s0.setWord pgMOD r_MOD_PD_STATE0 0xFFFF#32).setFld (pgREF 1) fSTATE 3).setFld (pgREF 1) f_CAD_REF_MODE_MODE mode).setFld (pgREF 1) f_CAD_REF_MODE_INDEX_EN 1).setFld (pgREF 1) f_CAD_REF_INDEX_COUNTS_PER_REV 100
  let b := ((a.setFld (pgREF 1) f_CAD_REF_INDEX_INDEX_TOL 5).setFld (pgCAD 4) fSTATE 3).setFld (pgCAD 4) f_CAD_DOM_CTRL_CHANNEL 1
  (b.setRef 1 r).setDom 4 x
def cadR (mode : Nat) (r : RefCh) : State := cadS mode r domReset
theorem witness_reference_edge : (cadR 0 refReset).domainOn (pgREF 1) = true ∧ (cadR 0 refReset).running (pgREF 1) = true ∧ (cadR 0 refReset).refCh 1 = refReset ∧
    (cadR 0 refReset).fld (pgREF 1) f_CAD_REF_MODE_MODE = 0 ∧ (cadR 1 refReset).fld (pgREF 1) f_CAD_REF_MODE_MODE = 1 ∧
    (cadR 2 refReset).fld (pgREF 1) f_CAD_REF_MODE_MODE = 2 ∧ (cadR 4 refReset).fld (pgREF 1) f_CAD_REF_MODE_MODE = 4 ∧
    (true != refReset.a) = !(false != refReset.b) ∧ true ≠ refReset.a ∧ (cadR 0 refReset).accepted 1 false true 5 = true ∧
    ((cadR 0 refReset).setFld (pgREF 1) f_CAD_REF_FILTER_FILTER 4).accepted 1 false true 3 = false ∧
    3 < ((cadR 0 refReset).setFld (pgREF 1) f_CAD_REF_FILTER_FILTER 4).fld (pgREF 1) f_CAD_REF_FILTER_FILTER := by decide +kernel
theorem witness_index : (cadR 0 refReset).fld (pgREF 1) f_CAD_REF_MODE_INDEX_EN = 1 ∧ refReset.indexRef = none ∧
    (cadR 0 { refReset with count := 203, indexRef := some 0 }).fld (pgREF 1) f_CAD_REF_INDEX_COUNTS_PER_REV ≠ 0 ∧
    (∀ up : Bool, indexDiff 203 0 ((cadR 0 refReset).fld (pgREF 1) f_CAD_REF_INDEX_COUNTS_PER_REV) up = 3) ∧
    (∀ up : Bool, indexDiff 240 0 100 up = 40) ∧ (cadR 0 refReset).ctlOf 4 f_CAD_DOM_CTRL_CHANNEL = 1 ∧ ((cadR 0 refReset).dom 4).origin = none := by
  decide +kernel
theorem witness_los : ((cadR 0 refReset).usedLines 1).testBit 2 = true ∧ (cadR 0 refReset).fld (pgREF 1) f_CAD_REF_STATUS_LOS = 0 ∧
    ((cadR 0 { refReset with los := 4 }).setFld (pgREF 1) f_CAD_REF_STATUS_LOS 1).fld (pgREF 1) f_CAD_REF_STATUS_LOS = 1 ∧
    (((cadR 0 { refReset with los := 4 }).setFld (pgREF 1) f_CAD_REF_STATUS_LOS 1).refCh 1).los = 2 ^ 2 := by decide +kernel
/-- A domain at speed 1, four updates in, with an edge that waits. -/
def domT (m : Int) : Dom := { domReset with origin := some 0, k := 4, tLast := 10, v := 65536, p := 0, pend := some (20, m) }
theorem witness_track : (cadS 0 refReset (domT 12)).running (pgCAD 4) = true ∧ ((cadS 0 refReset (domT 12)).dom 4) = domT 12 ∧
    (trackStep (domT 500) 20 500 0 0).2.2 = 490 ∧
    ((cadS 0 refReset (domT 500)).setWord (pgCAD 4) r_CAD_DOM_SLIP_TOL 5).word (pgCAD 4) r_CAD_DOM_SLIP_TOL = 5#32 := by decide +kernel
/-- A domain whose predicted position is 2^32 + 5 now, H 0, with one entry at offset 3 of an action. -/
def domF (act : Nat) (i : CadInst) : Dom :=
  { domReset with origin := some 0, p := 2 ^ 32 + 5, v := 0, active := [(7, ⟨3, act * 256, 2, 10⟩)], nextPos := 100, inst := if i = instReset then [] else [(1, i)] }
def fireS (act : Nat) (i : CadInst) : State := (cadS 0 refReset (domF act i)).setFld (pgCAD 4) f_CAD_DOM_OUTS_RESULT 0xF0
theorem witness_fire : ∀ act ∈ [1, 2, 3, 5], (fireS act instReset).firesOnce 4 9 (2 ^ 32 + 5) (2 ^ 32 + 3) 15 1 ⟨3, act * 256, 2, 10⟩ ∧
    (fireS act instReset).triggers 4 = true ∧ (fireS act instReset).submits 4 = true ∧ (fireS act instReset).drives 4 = true ∧
    ((fireS act instReset).dom 4).ring.length < 64 ∧ ((fireS act instReset).dom 4).marks.length < 64 ∧ (fireS act instReset).cad.dip.hand = none ∧
    (((fireS act instReset).dom 4).getInst 1).word = none ∧ (fireS act instReset).holding 4 = false ∧ (((fireS act instReset).dom 4).getInst 1).passed = false := by
  unfold State.firesOnce State.movesH; decide +kernel
theorem witness_fire_result : (fireS 3 { instReset with word := some 0x50 }).firesOnce 4 9 (2 ^ 32 + 5) (2 ^ 32 + 3) 15 1 ⟨3, 768, 2, 10⟩ ∧
    (((fireS 3 { instReset with word := some 0x50 }).dom 4).getInst 1).word = some 0x50 := by unfold State.firesOnce State.movesH; decide +kernel
theorem witness_no_fire : let s := cadS 0 refReset { domF 1 instReset with p := 50, nextPos := 2 ^ 33 }
    (s.dom 4).origin.isSome = true ∧ sdiff (s.predict 4 (max s.time 9)) (s.dom 4).h = 50 ∧
    (s.dom 4).next.all (fun c => decide ((s.dom 4).h + 50 < c.1)) = true ∧ s.movesH 4 9 ∧
    ([(1, { instReset with missAt := some 5 })].filter (fun i => i.2.missAt.any (fun m => decide (m / 10 < 20 / 10)))).length = 1 := by
  unfold State.movesH; decide +kernel
theorem witness_pulse : smFind (s0.setPulses [(3, 40)]).cad.pulses 3 = some 40 := by decide +kernel
theorem witness_standstill : (cadS 0 refReset (domT 12)).fld (pgCAD 4) f_CAD_DOM_STATUS_STANDSTILL = 0 ∧
    (cadS 0 refReset (domT 12)).lastEdge 4 + (cadS 0 refReset (domT 12)).fld (pgCAD 4) f_CAD_DOM_STANDSTILL_US * 1000 ≤ (10000000000#64 : DWord).toNat := by decide +kernel
theorem witness_ept : let s := cadS 0 refReset { domT 12 with shadow := [(7, ⟨3, 1280, 0, 0⟩)] }
    s.reaches 0 = true ∧ (1#32 : Word).toNat % 2 = 1 ∧ RsvClear (pgCAD 4) r_CAD_EPT_COMMIT 1#32 ∧ s.fld (pgCAD 4) f_CAD_EPT_STATUS_BUSY = 0 ∧
    s.running pgEAS = true ∧ s.eptCheck 4 (s.dom 4).shadow = none ∧ s.eptCheck 4 [(7, ⟨3, 1536, 0, 0⟩)] = some (1, 7) := by decide +kernel
theorem witness_old_bank : ({ domT 12 with old := some [] } : Dom).oldServes = false ∧
    ((cadS 0 refReset { domT 12 with old := some [] }).dom 4).old.isSome = true := by decide +kernel
theorem witness_marks : ((cadS 0 refReset { domT 12 with marks := [(9, 7, 1)] }).dom 4).marks = [(9, 7, 1)] ∧
    ((cadS 0 refReset (domT 12)).dom 4).marks = [] := by decide +kernel
/-- R148 by hand: at k = 4 with speed 2^16 (in 2^-48 cycle per ns) over 10 ns the prediction is 10; an edge at 14 with ALPHA 2^15 halves
the error. -/
theorem test_track : trackStep (domT 14) 20 14 32768 0 = (12, 65536, 4) := by decide +kernel

/-! ### Triptych -/

/-- Domain 4 Triptych on panels 5, 37 and 69, its record at the start of each panel's palette, tenant the owner. -/
def triS : State :=
  let a := ((((s0.setFld (pgCAD 4) fSTATE 3).setFld (pgCAD 4) f_CAD_DOM_CTRL_TRIPTYCH 1).setFld (pgCAD 4) f_CAD_DOM_RECORD_BYTES 1).setFld pgVAR0 (f_VAR_TRI_CHAN_FIRST1 4) 37).setFld pgVAR0 (f_VAR_TRI_CHAN_FIRST2 4) 69
  a.setFld pgVAR0 (f_VAR_TRI_TIMING_RECOVER_LIMIT 4) 3
def pgrp : Nat := 1 * 2 ^ 8 + 5
/-- The RESULT RUN of instance 6, dispatched on the channels of a mask, and a part of it. -/
def resOp (mask : Nat) : Op :=
  { op5 with cad := true, ring := 4, d := { dsc 1 with panels := pgrp }, aux := [6, 0, 1, 0, mask], phase := .issued }
def partOp (ph : OpPhase) : Op := { op5 with cad := true, ring := 4, phase := ph }
def voteS (mask : Nat) (p0 p1 p2 : OpPhase) : State :=
  (((triS.setOp 9 (resOp mask)).setOp (partTag 9 0) (partOp p0)).setOp (partTag 9 1) (partOp p1)).setOp (partTag 9 2) (partOp p2)
/-- One channel's record differs, or all three do. -/
def vote1 : State := (voteS 7 .ended .ended .ended).palWrite 69 0 [5#8]
def vote0 : State := vote1.palWrite 37 0 [6#8]
def recsOf (s : State) (l : List Nat) : List (Nat × Option (List Byte)) :=
  l.map (fun c => (c, s.record 4 ((s.chanPanels 4 (resOp 7) c).getD (s.fld pgVAR0 (f_VAR_TRI_STATE_RECORD_G 4)) 0)))
theorem witness_vote : vote1.op 9 = some (resOp 7) ∧ (resOp 7).isResult = true ∧ (resOp 7).decided = false ∧ (resOp 7).channels = 7 ∧
    (∀ c ∈ chans 7, (vote1.op (partTag 9 c)).any (fun q => q.phase == .ended && q.status == 0) = true) ∧
    majority (recsOf vote1 (chans 7)) = [0, 1] ∧ majority (recsOf vote0 (chans 7)) = [] ∧ vote0.op 9 = some (resOp 7) ∧
    (voteS 1 .ended .ended .ended).op 9 = some (resOp 1) ∧ majority (recsOf vote0 (chans 1)) = [] := by decide +kernel
def single : State := (s0.setFld (pgCAD 4) fSTATE 3).setOp 9 { resOp 0 with phase := .ended }
theorem witness_vote_single : single.op 9 = some { resOp 0 with phase := .ended } ∧ single.running (pgCAD 4) = true ∧ single.drives 4 = true ∧
    (single.dom 4).lastN < 6 ∧ ((single.dom 4).getInst 6).due = false ∧ ((single.dom 4).getInst 6).passed = false ∧ single.ctlOf 4 f_CAD_DOM_CTRL_RELEASE = 0 ∧
    ({ resOp 0 with phase := .ended, status := 5 } : Op).isResult = true ∧ (resOp 0).channels = 0 := by decide +kernel
theorem witness_skew : ((voteS 7 .ended .ended .issued).op (partTag 9 2)).any (fun q => q.phase == .issued) = true ∧
    (∀ k < 3, k ≠ 2 → ((voteS 7 .ended .ended .issued).op (partTag 9 k)).any (fun q => q.phase == .ended && q.status == 0) = true) ∧
    majority (recsOf (voteS 7 .ended .ended .issued) ((chans 7).filter (fun k => k != 2))) = [0, 1] := by decide +kernel
/-- The RESULT RUN while it waits, with channel 1 alone IN and with none IN. -/
def resW : Op := { resOp 0 with phase := .waiting, start := none, d := { dsc 1 with panels := pgrp, arg := 64 }, aux := [6, 0, 1, 0, 0] }
def runT (m : Nat) : State :=
  let s := ((triS.setFld pgVAR0 (f_VAR_TRI_CHSTATE_CH 4) m).setOp 9 resW)
  { s with hif := { s.hif with leaves := [(0, ⟨true, false, 0, true, true, false⟩)] } }
def runTB (m : Nat) : State := (((runT m).begins 9 1 7).getD (s0, resW) |>.1).lostChannels 4
theorem witness_run_result : (runT 0x2A).runHeld 9 = false ∧ (runT 0x22).runHeld 9 = false ∧ ((runT 0x2A).begins 9 1 7).isSome = true ∧ resW.isResult = true ∧ (runTB 0x2A).triptych 4 = true ∧
    reads ((runTB 0x2A).readDva (Op.who { resW with slots := [], phase := .issued, start := some 7 } 9) 64 320) (List.replicate 320 0#8) = true ∧
    (runTB 0x2A).runArgFault 0 (List.replicate 320 0#8) = none ∧ (chans 7).filter (fun c => (runTB 0x2A).chState 4 c == 0) = [] ∧
    ((runT 0x22).begins 9 1 7).isSome = true ∧ (chans 7).filter (fun c => (runTB 0x22).chState 4 c == 0) = [1] ∧
    (([1].flatMap (fun c => (runTB 0x22).chanPanels 4 resW c)).filterMap (fun p => (runTB 0x22).cart p 0 0)).any triCartBad = false := by decide +kernel
/-- Channel 1 RECOVERING from channel 0: template 0 is the RESULT template, of panel 5. -/
def recS : State :=
  let a := ((triS.setFld (pgCAD 4) (f_CAD_TPL_CTL_W0_VALID 0) 1).setFld (pgCAD 4) (f_CAD_TPL_CTL_W0_RESULT 0) 1).setWord (pgCAD 4) (r_CAD_TPL 0 13) (BitVec.ofNat 32 pgrp)
  ((a.setChState 4 1 1).setFld pgVAR0 (f_VAR_TRI_STATE_SIZE 4) 1).setDom 4 { domReset with recov := [(1, 0)] }
theorem witness_recovery : smFind (recS.dom 4).recov 1 = some 0 ∧ recS.resultTpl 4 = some 0 ∧ leAt (recS.tplBytes 4 0) 52 4 = pgrp ∧
    recS.chState 4 1 = 1 ∧ recS.fld pgVAR0 (f_VAR_TRI_CHAN_FIRST1 4) = 37 ∧ pgFirst pgrp + pgCount pgrp ≤ 37 ∧
    recS.fld pgVAR0 (f_VAR_TRI_STATE_BASE 4) * 4096 + recS.fld pgVAR0 (f_VAR_TRI_STATE_SIZE 4) * 4096 ≤ 0x800000 ∧
    recS.ops.ops = [] ∧ (∀ g < pgCount pgrp, (recS.panel (37 + g)).substing = false ∧ (recS.panel (37 + g)).lost = false) ∧
    recS.moveFree 37 = true ∧ recS.moveFree 5 = true := by decide +kernel
theorem witness_voter : triS.fld pgVAR0 (fVoter 1) ≠ 1 ∧ triS.fld pgVAR0 (fVoter 0) ≠ 1 ∧ triS.fld pgVAR0 f_VAR_VOTER_ACTIVE = 0 ∧
    (triS.setFld pgVAR0 (fVoter 1) 1).fld pgVAR0 (fVoter 1) = 1 ∧ triS.triptych 4 = true ∧ triS.running (pgCAD 4) = true ∧
    vote1.partsLeft 9 (resOp 7) = [] ∧ (voteS 7 .ended .ended .issued).skewed 9 (resOp 7) = true ∧ (resOp 7).onChannels = true ∧
    vote1.fld pgVAR0 (fVoter 0) ≠ 1 ∧ vote1.fld pgVAR0 (fVoter 1) ≠ 1 := by decide +kernel
/-! ### Diptych -/

/-- VAR page 1 RUNNING over domain 4, its link up, a pair key installed, in a role. -/
def dipS (role : Nat) : State :=
  let a := ((((triS.setFld (pgCAD 4) f_CAD_DOM_CTRL_TRIPTYCH 0).setFld pgDIP fSTATE 3).setFld pgDIP f_VAR_DIP_STATUS_LINK 2).setFld pgDIP f_VAR_DIP_STATUS_ROLE role).setWord pgDIP r_VAR_DIP_DOMAINS 16#32
  a.setDip { a.cad.dip with keyed := true, peerRole := 2 }
theorem witness_dip : ∀ r ∈ [0, 1, 2, 3], (dipS r).dipReady = true ∧ (dipS r).role = r ∧ (dipS r).running pgDIP = true ∧ (dipS r).cad.dip.queue = [] ∧ ((dipS r).ledger pgDIP 0).free ≠ 0 ∧
    ((((dipS r).move pgDIP 0 .free .held 64)).ledger pgDIP 0).free = 0 := by decide +kernel
theorem witness_align : (dipS 1).cad.dip.peerDone = false ∧ (dipS 1).paired 4 = true ∧
    (∀ up : Bool, cyclesTo ((dipS 1).dom 4).h (BitVec.ofNat 64 (2 ^ 32 + 5)).toInt up = 1) := by decide +kernel
def snapS (b : Bool) : State :=
  let a := (dipS 3).setDom 4 { domReset with inst := [(6, { instReset with ended := true, snap := true, chan := some 0 })] }
  if b then a.setDip { a.cad.dip with sending := some (4, 5) } else a
theorem witness_snap : (snapS false).snapDue 4 6 = some 0 ∧ (snapS false).dipReady = true ∧ (snapS false).cad.dip.sending = none ∧
    (snapS false).regsRead 4 0 = some [] ∧ (snapS true).snapDue 4 6 = some 0 ∧ (snapS true).cad.dip.sending.isSome = true ∧
    (snapS true).cad.dip.waiting = none := by decide +kernel
/-- A snapshot of one byte of panel 5's palette. -/
def regS (role : Nat) (sh : Nat) : State :=
  ((((dipS role).setFld pgDIP (f_VAR_DIP_SNAP_W0_KIND 4 0) 1).setFld pgDIP (f_VAR_DIP_SNAP_W3_BYTES 4 0) 1).setFld pgDIP f_VAR_DIP_CTRL_SHADOW_RUN sh)
theorem witness_snap_receive : (regS 1 0).paired 4 = true ∧ (regS 1 0).regTotal 4 = 1 ∧ crc32c [7#8] = (BitVec.ofNat 32 (crc32c [7#8])).toNat ∧
    (regS 1 1).fld pgDIP f_VAR_DIP_CTRL_SHADOW_RUN = 1 ∧ ([] : List Byte).length ≠ (regS 1 0).regTotal 4 := by decide +kernel
def cmpS (b : Byte) : State :=
  let a := (regS 2 1).setDom 4 { domReset with inst := [(6, { instReset with ended := true, chan := some 0 })] }
  a.setDip { a.cad.dip with snaps := [(4, ⟨6, [b]⟩)] }
theorem witness_compare : smFind (cmpS 0#8).cad.dip.snaps 4 = some ⟨6, [0#8]⟩ ∧ (((cmpS 0#8).dom 4).getInst 6).ended = true ∧
    (cmpS 0#8).regsRead 4 0 = some [0#8] ∧ (cmpS 7#8).regsRead 4 0 = some [0#8] := by decide +kernel
theorem witness_dip_cmd : (dipS 3).reaches 0 = true ∧ RsvClear pgDIP r_VAR_DIP_CMD 0x44500002#32 ∧ fldGet 0x44500002#32 f_VAR_DIP_CMD_KEY = 0x4450 ∧
    fldGet 0x44500002#32 f_VAR_DIP_CMD_CMD = 2 ∧ (dipS 3).cad.dip.peerRole = 2 ∧ (dipS 3).handDomain = some 4 ∧
    RsvClear pgDIP r_VAR_DIP_CMD 2#32 ∧ fldGet 2#32 f_VAR_DIP_CMD_KEY ≠ 0x4450 ∧ RsvClear pgDIP r_VAR_DIP_CMD 0x44500001#32 ∧
    fldGet 0x44500001#32 f_VAR_DIP_CMD_CMD = 1 ∧
    (dipS 0).cad.dip.heardActive + 3 * ((dipS 0).cad.dip.peerP + 25) * 1000 ≤ max (dipS 0).time 1000000 := by decide +kernel
theorem witness_port : (dipS 3).fld pgDIP f_VAR_DIP_STATUS_LINK = 2 ∧ (dipS 3).fld pgDIP f_VAR_DIP_STATUS_SPARE_LANE = 0 ∧
    ((dipS 3).setFld pgDIP f_VAR_DIP_STATUS_LINK 0).fld pgDIP f_VAR_DIP_STATUS_LINK = 0 ∧
    ((dipS 3).setDip { (dipS 3).cad.dip with unacked := [⟨1, 2, [0], []⟩] }).cad.dip.unacked = [⟨1, 2, [0], []⟩] ∧
    ((dipS 3).setWord pgMOD r_MOD_PD_STATE0 0xFFFF#32).domainOn pgDIP = true := by decide +kernel

/-! ### Stores -/

/-- STU, HBM, LFT and FRS RUNNING, every domain on. -/
def memS : State :=
  let a := ((((mapped.setFld pgSTU fSTATE 3).setFld pgHBM fSTATE 3).setFld pgLFT fSTATE 3).setFld pgFRS fSTATE 3).setWord pgMOD r_MOD_PD_STATE0 0xFFFFFFFF#32
  (a.setWord pgSTU (r_STU_BANK 3) 0x3F#32).setWord pgSTU (r_STU_BANK 31) 0x3F#32
/-- Bank 3 owned by tenant 1 with a hand-over of it in progress. -/
def handS : State := (memS.setFld pgSTU (f_STU_BANK_OWNER 3) 1).handoverStart 3 ⟨0x3F, 2, false, false⟩
theorem witness_bank : memS.reaches 0 = true ∧ RsvClear pgSTU (r_STU_BANK 3) 0x20000#32 ∧ memS.running pgSTU = true ∧
    fldGet 0x20000#32 (f_STU_BANK_OWNER 3) = 0 ∧ fldGet 0x20000#32 (f_STU_BANK_GUEST 3) = 2 ∧ memS.bankState 3 = 0 ∧
    0 ≠ memS.fld pgSTU (f_STU_BANK_OWNER 3) ∧ (memS.setTenant 0 { tenantReset with state := 3 }).tenantRunning 0 = true ∧
    RsvClear pgSTU (r_STU_BANK 3) 0x21#32 ∧ fldGet 0x21#32 (f_STU_BANK_OWNER 3) = 0x21 := by decide +kernel
theorem witness_bank_clear : memS.reaches 0 = true ∧ RsvClear pgSTU (r_STU_BANK 3) 0x3F#32 ∧ fldGet 0x3F#32 (f_STU_BANK_OWNER 3) = 0x3F ∧
    fldGet 0x3F#32 (f_STU_BANK_GUEST 3) = 0 ∧ memS.bankState 3 = 0 ∧ 0x3F ≠ handS.fld pgSTU (f_STU_BANK_OWNER 3) ∧
    1 ≠ memS.fld pgSTU (f_STU_BANK_GUEST 3) ∧ memS.fld pgSTU (f_STU_BANK_OWNER 3) = 0x3F := by decide +kernel
theorem witness_handover : smFind handS.mem.hand 3 = some ⟨0x3F, 2, false, false⟩ := by decide +kernel
/-- A destructive test of one frame of HBM, and of bank 3. -/
def marchS (t : Nat) : State := (memS.setFld (tierPage t) f_HBM_MARCH_BASE_BASE 3).setFld (tierPage t) f_HBM_MARCH_SIZE_FRAMES 1
theorem witness_march : ∀ t ∈ [0, 1, 2], (marchS t).reaches 0 = true ∧ RsvClear (tierPage t) r_HBM_MARCH_CMD 0x4D430001#32 ∧
    fldGet 0x4D430001#32 f_HBM_MARCH_CMD_START = 1 ∧ fldGet 0x4D430001#32 f_HBM_MARCH_CMD_KEY = 0x4D43 ∧ (marchS t).marchRefused t = false ∧
    s0.marchRefused t = true ∧ fldGet 1#32 f_HBM_MARCH_CMD_KEY ≠ 0x4D43 ∧ smFind ((marchS t).marchGo t).mem.march t = some ⟨3, 1, true, false⟩ ∧
    [studioBase + 3 * 0x400000, 3 * 0x200000, loftBase + 3 * 0x200000, 8].filter (marchIn t ⟨3, 1, true, false⟩) =
      [[studioBase + 3 * 0x400000], [3 * 0x200000], [loftBase + 3 * 0x200000]].getD t [] := by
  decide +kernel
theorem witness_tail : memS.reaches 0 = true ∧ RsvClear pgFRS r_FRS_RING_TAIL 1#32 ∧ RsvClear pgFRS r_FRS_RING_TAIL 0xFFFF#32 := by decide +kernel
/-- A ring of 8 slots at DVA 0 that holds one command: an opcode on partition 5 of one MiB, some blocks of LBA 7, memory at DVA 4096. -/
def frsS (op blocks : Nat) : State :=
  let a := (memS.setFld pgFRS f_FRS_RING_CFG_LOG2 3).setFld pgFRS f_FRS_RING_TAIL_TAIL 1
  let w := (a.setFld pgFRS (f_FRS_PART_VALID 5) 1).setFld pgFRS (f_FRS_PART_MIB 5) 1
  let b := { a with mem := { a.mem with layout := [(5, (w.word pgFRS (r_FRS_PART 5)).toNat)] } }
  b.memWrite 0 (toLe 1 op ++ toLe 1 5 ++ toLe 2 0 ++ toLe 4 blocks ++ toLe 8 7 ++ toLe 8 4096 ++ toLe 8 0)
def frsB (op blocks : Nat) : List Byte := toLe 1 op ++ toLe 1 5 ++ toLe 2 0 ++ toLe 4 blocks ++ toLe 8 7 ++ toLe 8 4096 ++ toLe 8 0
theorem witness_fresco : ∀ c ∈ [(1, 1), (2, 1), (3, 1), (4, 0)], (frsS c.1 c.2).running pgFRS = true ∧
    (frsS c.1 c.2).fld pgFRS f_FRS_RING_HEAD_HEAD ≠ (frsS c.1 c.2).fld pgFRS f_FRS_RING_TAIL_TAIL ∧ (frsS c.1 c.2).mem.frsCmds.length < 64 ∧
    reads ((frsS c.1 c.2).readDva (bareWho 0) ((frsS c.1 c.2).frsSlot 0) 32) (frsB c.1 c.2) = true ∧ leAt (frsB c.1 c.2) 0 1 = c.1 ∧
    leAt (frsB c.1 c.2) 4 4 = c.2 ∧ (frsS c.1 c.2).frsStatus (frsB c.1 c.2) = 0 ∧ (frsS c.1 300).frsStatus (frsB c.1 300) ≠ 0 := by decide +kernel
theorem witness_fresco_data : (frsS 1 1).writeFault (bareWho 0) 0 (cuts (leAt (frsB 1 1) 16 8 + 4096 * 0) 4096) = none ∧
    (match (frsS 2 1).readDva (bareWho 0) (leAt (frsB 2 1) 16 8) 4096 with | .ok b _ => b.length == 4096 | _ => false) = true ∧
    s0.running pgFRS = false := by decide +kernel
def frsC : State := { memS with mem := { memS.mem with frsCmds := [⟨0, 1, 5, 1, 7, 4096, true, 4, 2⟩] } }
theorem witness_cmd_done : frsC.mem.frsCmds.find? (fun x => x.done && x.slot == 0) = some ⟨0, 1, 5, 1, 7, 4096, true, 4, 2⟩ ∧
    frsC.writeFault (bareWho 0) 0 (cuts (frsC.frsSlot 0 + 24) 8) = none := by decide +kernel
def dueS (p : Nat) (r : SMap Nat) : State := { memS with mem := { memS.mem with retireDue := [(p, true)], retired := r } }
theorem witness_retire_piece : smGet false (dueS 5 []).mem.retireDue 5 = true ∧ smGet false (dueS 0x8000005 []).mem.retireDue 0x8000005 = true ∧
    decide (loftBase ≤ 5 * 4096) = false ∧ decide (loftBase ≤ 0x8000005 * 4096) = true ∧ (dueS 5 []).reserveFree false (pieceHome (5 * 4096)) = 196608 ∧
    smGet false s0.mem.retireDue 5 = false := by decide +kernel
theorem witness_clear : ∀ e ∈ [(pgLFT, r_LFT_CLEAR), (pgHBM, r_HBM_CLEAR)], bitOf (s0.word e.1 e.2) 31 = false ∧ s0.pow.phase = .ready := by
  decide +kernel
def kindS (k : Nat) : State := (memS.setFrame 0 k 0).memWrite 8 [7#8]
theorem witness_scrub : ∀ k ∈ [kTENANT, kWEIGHT, kFREE], (kindS k).running (tierPage 1) = true ∧ (kindS k).scrubUnit 1 0 (tierSize 1 / tierUnit 1 - 0) = some 0 ∧
    (kindS k).frameKind (frameOf (tierBase 1 + 0)) = k ∧ smGet 0 (kindS k).mem.patrol 1 = 0 := by decide +kernel
theorem witness_scrub_end : let s := { memS with mem := { memS.mem with patrol := [(0, 0x7FFFFF8)] } }
    s.running (tierPage 0) = true ∧ s.scrubUnit 0 31 (tierSize 0 / tierUnit 0 - 31) = some 31 ∧ 0x7FFFFF8 + 8 = tierSize 0 := by decide +kernel
def repS : State := (kindS kWEIGHT).repairStart 0
theorem witness_repair : storeOf (BitVec.ofNat 64 8).toNat = .hbm ∧ (kindS kWEIGHT).frameKind (frameOf (BitVec.ofNat 64 8).toNat) = kWEIGHT ∧
    smGet false repS.mem.repairs 0 = true ∧ smGet false repS.mem.repairs 1 = false := by decide +kernel

/-! ### Errors and the Fault Collector -/

def ceS : State := { s0 with flt := { s0.flt with ce := [(cnvPage 0 * 256 + 1, 3)] } }
theorem witness_error : pageKind (cnvPage 0) = .cnv ∧ errClass .cnv 1 = 1 ∧ errClass .cnv 2 = 2 ∧ s0.pow.phase ≠ .off ∧ s0.fld (cnvPage 0) fERRVALID = 0 ∧
    (s0.report (cnvPage 0) 1 5 6 false).fld (cnvPage 0) fERRVALID = 1 ∧ (s0.report (cnvPage 0) 1 5 6 false).fld (cnvPage 0) fERRCLASS ≠ 0 ∧
    smGet false s0.flt.wire (cnvPage 0 * 4 + 1) = false ∧ smGet false s0.flt.wire (cnvPage 0 * 4 + 2) = false ∧ s0.openRec (cnvPage 0) = none ∧
    smFresh s0.flt.recs 0 64 = some 0 ∧ (smFind ceS.flt.ce (cnvPage 0 * 256 + 1)).isSome = true := by decide +kernel
/-- An open record of canvas 0, its grace timer running; and one of EAS. -/
def recP (p src : Nat) : FltRec := ⟨p, src, 2, 0, 0, false, true, 5, 6, 100⟩
def openS (p src n : Nat) : State :=
  let a := (s0.setFld p fSTATE 3).setRcv p ⟨n, n, false⟩
  { a with flt := { a.flt with recs := [(3, recP p src)] } }
theorem witness_escalated : smFind (openS (cnvPage 0) 2 0).flt.recs 3 = some (recP (cnvPage 0) 2) ∧ unfenceable (cnvPage 0) = false ∧
    (openS (cnvPage 0) 2 0).st (cnvPage 0) = stRUNNING ∧
    ¬(openS (cnvPage 0) 2 0).fld pgFLT f_FLT_RECOVERY_LIMIT ≤ ((openS (cnvPage 0) 2 0).rcv (cnvPage 0)).inWindow ∧
    (openS (cnvPage 0) 2 250).fld pgFLT f_FLT_RECOVERY_LIMIT ≤ ((openS (cnvPage 0) 2 250).rcv (cnvPage 0)).inWindow ∧
    smFind (openS pgEAS 2 0).flt.recs 3 = some (recP pgEAS 2) ∧ unfenceable pgEAS = true ∧ (openS pgEAS 2 0).word pgFLT r_FLT_FATAL_FIRST = 0#32 ∧
    smFind s0.flt.recs 3 = none ∧ (recP pgEAS 2).opened + (recP pgEAS 2).grace * 1000 ≤ max s0.time 100000 ∧
    max s0.time 99999 < (recP pgEAS 2).opened + (recP pgEAS 2).grace * 1000 ∧
    s0.flt.window + s0.fld pgFLT f_FLT_RECOVERY_WINDOW_S * 1000000000 ≤ max s0.time (2 ^ 60) ∧
    max s0.time 0 < s0.flt.window + s0.fld pgFLT f_FLT_RECOVERY_WINDOW_S * 1000000000 := by decide +kernel
theorem witness_wear : s0.pow.phase = .ready ∧ 10 * s0.fld pgFLT f_FLT_WEAR_PERMILLE < 65535 ∧
    (s0.panel 5).coreOut.length < (s0.panel 5).freeSpares.length ∧ (s0.logicalOf 5 7).isSome = true ∧
    (s0.panel 5).coreOut.any (fun c => c.phys == 7) = false ∧ (s0.setFld pgFLT f_FLT_ACTION_WEAR_AUTO 1).fld pgFLT f_FLT_ACTION_WEAR_AUTO = 1 ∧
    (s0.setFld pgFLT f_FLT_ACTION_WEAR_AUTO 0).fld pgFLT f_FLT_ACTION_WEAR_AUTO = 0 := by decide +kernel
/-- The corrected-error pair of canvas 0 is broken, four errors not yet polled. -/
def wireS : State :=
  let a := ((s0.report (cnvPage 0) 1 5 6 false).wireBroken (cnvPage 0) 1).countUp (cnvPage 0) hCE 4
  { a with flt := { a.flt with ce := [(cnvPage 0 * 256 + 1, 1)] } }
theorem witness_poll : smGet false wireS.flt.wire (cnvPage 0 * 4 + 1) = true ∧ wireS.pollCount (cnvPage 0) 1 = 4 ∧
    (smFind wireS.flt.ce (cnvPage 0 * 256 + wireS.fld (cnvPage 0) fERRSOURCE)).isSome = true ∧ smGet false s0.flt.wire (cnvPage 0 * 4 + 1) = false := by
  decide +kernel
theorem witness_agg : s0.fld pgFLT (fAgg 0) = 0 ∧ s0.fld pgFLT (fAgg 1) = 1 ∧ (s0.setFld pgFLT (fAgg 1) 2).fld pgFLT (fAgg (1 - 0)) = 2 ∧
    (s0.setFld pgFLT (fAgg 1) 2).fld pgFLT (fAgg 0) ≠ 2 := by decide +kernel
theorem witness_ack : RsvClear pgFLT r_FLT_ACK 3#32 ∧ (smFind (openS (cnvPage 0) 2 0).flt.recs ((3#32).toNat % 64)).map (fun r => r.fenced) = some false := by
  decide +kernel
/-- FLT_RCV_SEL names canvas 0. -/
def injS : State := s0.setWord pgFLT 0x4D (BitVec.ofNat 32 (blkType .cnv * 65536))
theorem witness_inject : injS.reaches 0 = true ∧ RsvClear pgFLT r_FLT_INJECT 0x46490101#32 ∧ RsvClear pgFLT r_FLT_INJECT 0x46490202#32 ∧
    pageOfId (injS.fld pgFLT f_FLT_RCV_SEL_TYPE) (injS.fld pgFLT f_FLT_RCV_SEL_INSTANCE) (injS.fld pgFLT f_FLT_RCV_SEL_PAGE) = some (cnvPage 0) ∧
    fldGet 0x46490101#32 f_FLT_INJECT_KEY = 0x4649 ∧ fldGet 0x46490101#32 f_FLT_INJECT_CLASS = 1 ∧
    errClass (pageKind (cnvPage 0)) (fldGet 0x46490101#32 f_FLT_INJECT_SOURCE) = 1 ∧ fldGet 0x46490202#32 f_FLT_INJECT_CLASS = 2 ∧
    errClass (pageKind (cnvPage 0)) (fldGet 0x46490202#32 f_FLT_INJECT_SOURCE) = 2 ∧ RsvClear pgFLT r_FLT_INJECT 1#32 ∧
    fldGet 1#32 f_FLT_INJECT_KEY ≠ 0x4649 := by decide +kernel
theorem witness_summary : ceS.flt.lostDue = 0 ∧ ceS.flt.queue.length + ceS.flt.ce.length < 256 := by decide +kernel
def queueS : State := (s0.journal (s0.mkRec logCE 1 false 0 0 0 0 0 [])).journal (s0.mkRec spUNIT 0 false 0 0 0 0 0 [])
theorem witness_flush : (queueS.flt.beside ++ queueS.flt.queue).any (fun r => decide (r.typ < 0x20)) = true := by decide +kernel
theorem witness_pairs : s0.fld pgEAS (fPair 0) = 0 ∧ s0.fld pgEAS (fPair 1) = 1 ∧ (s0.setFld pgEAS (fPair 1) 2).fld pgEAS (fPair 0) ≠ 2 ∧
    (s0.setFld pgEAS (fPair 1) 2).fld pgEAS (fPair (1 - 0)) = 2 ∧ smGet false s0.flt.wire (pgEAS * 4 + 3) = false ∧
    s0.fld pgFLT f_FLT_STATUS_CLOCK_REF = 0 ∧ smGet false s0.flt.refFailed 1 = false ∧ smGet false s0.flt.wire (pgFLT * 4 + 3) = false ∧
    smGet false [(1, true)] (1 - 0) = true := by decide +kernel
def badLedger : State := s0.setLedger (cnvPage 0) 1 ⟨256, 255, 0, 0, 0⟩
theorem witness_ledger_check : (badLedger.ledger (cnvPage 0) 1).sums = false ∧ 1 < ledgerCount (pageKind (cnvPage 0)) ∧
    smGet false badLedger.flt.wire (cnvPage 0 * 4 + 3) = false ∧ badLedger.word pgMOD r_MOD_LEDGER_FIRST_FAULT = 0#32 ∧
    (s0.ledger (cnvPage 0) 1).sums = true ∧ ledgerCount (pageKind (cnvPage 0)) ≤ 2 := by decide +kernel
theorem witness_channels : s0.channelsSettled ∧ (openS (cnvPage 0) 2 0).channelsSettled ∧ (openS (cnvPage 0) 2 250).channelsSettled ∧
    wireS.channelsSettled ∧ injS.channelsSettled := by
  have h : ∀ s ∈ [s0, openS (cnvPage 0) 2 0, openS (cnvPage 0) 2 250, wireS, injS], ∀ d < 16, s.triptych d = false := by decide +kernel
  have g : ∀ s ∈ [s0, openS (cnvPage 0) 2 0, openS (cnvPage 0) 2 250, wireS, injS], s.channelsSettled := by
    intro s hs d hd ht
    rw [h s hs d hd] at ht
    exact Bool.noConfusion ht
  exact ⟨g _ (by simp), g _ (by simp), g _ (by simp), g _ (by simp), g _ (by simp)⟩

/-! ### Rings, the MMU and tenants -/

/-- RingCfg and CqPage of the owner RUNNING, queue 1 on, ring 2 with its base and 64 slots. -/
def hostR : State :=
  let a := (((s0.setFld (ringPage 0 2) fSTATE 3).setFld (cqPg 0) fSTATE 3).setFld (cqPg 0) (f_CQ_CFG_ENABLE 1) 1).setFld (cqPg 0) (f_CQ_CFG_LOG2 1) 6
  (a.setFld (hmTEN 0) f_HIF_TEN_CFG_RINGS 4).setFld (hmTEN 0) f_HIF_TEN_CFG_CQS 4
theorem witness_ring_enable : hostR.reaches 0 = true ∧ RsvClear (ringPage 0 2) (r_RING_CFG 2) 0x80010006#32 ∧ hostR.ringOn 0 2 = false ∧
    hostR.ringRefusal 0 2 0x80010006#32 = none ∧ hostR.ringRefusal 0 2 0x80010005#32 = some 1 ∧ RsvClear (ringPage 0 2) (r_RING_CFG 2) 0x80010005#32 ∧
    (hostR.setFld (ringPage 0 2) (f_RING_CFG_ENABLE 2) 1).ringOn 0 2 = true ∧
    ((hostR.setFld (ringPage 0 2) (f_RING_CFG_ENABLE 2) 1).word (ringPage 0 2) (r_RING_CFG 2) &&& 0x403F001F#32) ≠ 0x80010006#32 &&& 0x403F001F#32 := by
  decide +kernel
theorem witness_cq_enable : hostR.cqOn 0 2 = false ∧ RsvClear (cqPg 0) (r_CQ_CFG 2) 0x80000006#32 ∧ hostR.cqRefusal 0 2 0x80000006#32 = none ∧
    hostR.cqRefusal 0 2 0x80000005#32 = some 1 ∧ hostR.cqOn 0 1 = true ∧ hostR.cqNamed 0 1 = false ∧
    (hostR.setFld (cqPg 0) (f_CQ_CFG_ENABLE 0) 1).cqNamed 0 0 = true ∧ (hostR.word (cqPg 0) (r_CQ_HEAD 1)).toNat = 0 := by decide +kernel
def retryS : State := cqS.setCq 0 1 ⟨0, [rec1], true, true, true⟩
theorem witness_retry : (retryS.cq 0 1).due = [rec1] ∧ (retryS.cq 0 1).failed = true ∧ retryS.cqOn 0 1 = true ∧ retryS.running (cqPg 0) = true ∧
    retryS.cqFull 0 1 = false ∧ (s0.cq 0 1).failed = false ∧ (retryS.cq 0 1).holdoff = true ∧ (retryS.cq 0 1).raiseDue = true := by decide +kernel
/-- The MMU page RUNNING, HBM cleared, a command for tenant 0: one page of 64 KiB at DVA 0x30000, module address 0x400000, readable. -/
def mmuS : State :=
  let a := (s0.setFld pgMMU fSTATE 3).setFld pgHBM f_HBM_CLEAR_DONE 1
  (((a.setFld pgMMU f_MMU_DVA_LO_DVA 3).setFld pgMMU f_MMU_TARGET_LO_TARGET 0x40).setFld pgMMU f_MMU_COUNT_PAGES 1).setFld pgMMU f_MMU_ATTR_READ 1
/-- The same with the page mapped; with a command for the window at 0; with that window. -/
def unmapS : State := let a := mmuS.setFrame 2 kTENANT 0; { a with hif := { a.hif with leaves := [(3, ⟨false, false, 0x400000, true, false, false⟩)] } }
def winS : State := mmuS.setFld pgMMU f_MMU_DVA_LO_DVA 0
def winOn : State := { winS with hif := { winS.hif with window := [(0, 0)] } }
theorem witness_mmu : mmuS.reaches 0 = true ∧ mmuS.mmuBusy = false ∧ s0.mmuBusy = true ∧ mmuS.mapResult (mmuS.mmuRegs 1) = mrOK ∧
    unmapS.mapResult (unmapS.mmuRegs 1) = mrOVERLAP ∧ unmapS.unmapResult (unmapS.mmuRegs 2) = mrOK ∧ mmuS.unmapResult (mmuS.mmuRegs 2) = mrNOTMAPPED ∧
    (mmuS.mmuRegs 1).tenant = 0 ∧ 2 ∈ framesOf 0x400000 0x10000 ∧ mmuS.frameKind 2 = kFREE ∧ unmapS.frameKind 2 = kTENANT := by decide +kernel
theorem witness_window : winS.windowResult (winS.mmuRegs 3) = mrOK ∧ winOn.windowResult (winOn.mmuRegs 3) = mrOVERLAP ∧
    winOn.mmuState (winOn.mmuRegs 4).tenant = mrOK ∧ (smFind winOn.hif.window (winOn.mmuRegs 4).tenant).isSome = true ∧ winOn.mmuBusy = false := by
  decide +kernel
def clearS : State := { winOn with hif := { winOn.hif with cmd := some (winOn.mmuRegs 4), clearing := [(0, true)], faults := [(0, [⟨0x100000040, 1, true, 5, 6⟩])] } }
theorem witness_clear_window : clearS.hif.cmd = some (winOn.mmuRegs 4) ∧ clearS.ops.ops = [] ∧ s0.hif.cmd = none ∧
    smGet [] clearS.hif.faults 0 = [⟨0x100000040, 1, true, 5, 6⟩] := by decide +kernel
/-- Tenant 0 in a state. -/
def tenS (t st tdi : Nat) : State := (s0.setTenant t { tenantReset with state := st, tdi := tdi }).setFld (tenantPage t 0) fSTATE st
theorem witness_tenant : s0.reaches 0 = true ∧ (s0.tenant 0).state = stOFF ∧ (s0.tenant 0).tdi ≠ 3 ∧ ((tenS 0 3 0).tenant 0).state = stRUNNING ∧
    (tenS 0 3 0).tenantDependants 0 = false ∧ ((tenS 0 1 0).tenant 0).state = stCHECKING ∧ ((tenS 0 4 0).tenant 0).state = stQUIESCING ∧
    (tenS 0 4 0).tenDrained 0 = true := by decide +kernel
def vfS (tdi : Nat) : State :=
  let a := tenS 3 3 tdi
  { a with hif := { a.hif with vfEnable := true, numVfs := 4, mse := [(3, true)], ide := [(2, 1)] }, sec := { a.sec with bound := [(3, 2)] } }
theorem witness_functions : (vfS 2).pow.phase = .ready ∧ (vfS 2).hif.linkUp = true ∧ (vfS 2).hif.vfEnable = true ∧ 2 + 1 ≤ (vfS 2).hif.numVfs ∧
    smGet false (vfS 2).hif.mse 3 = true ∧ smGet 0 (vfS 2).hif.ide 2 = 1 ∧ (3, 2) ∈ (vfS 2).sec.bound ∧ smGet 0 s0.hif.ide 2 ≠ 1 ∧
    { s0 with hif := { s0.hif with linkUp := false } }.hif.linkUp = false := by decide +kernel

/-! ### Ingest -/

/-- Stream 3 on interface 0, its own address 7, port 9: PIXFMT 0, 4 by 2 pixels, COUNT 1, nothing to write to; GVSP, RTP or raw. -/
def cfgS (proto short : Nat) : List Nat := [proto, 9, 0, 2 * 65536 + 4, short]
def ingS (proto short : Nat) (fs : List IngFrame) : State :=
  let a := (((s0.setFld pgING fSTATE 3).setFld pgING (f_ING_PORT_STATUS_UP 0) 1).setWord pgING (r_ING_IF_IPV4 0) 7#32).setFld pgING f_ING_STR_SEL_STREAM 3
  a.putStream 3 { streamReset with cfg := some (cfgS proto short), frames := fs }
/-- Frame 5 in progress, with what has arrived. -/
def frmS (proto short : Nat) (data : SMap Byte) : IngFrame := ⟨5, cfgS proto short, none, 0, 0, 4, data, false, false, []⟩
theorem witness_ingest : (ingS 0 1 []).ifUp 0 = true ∧ s0.ifUp 0 = false ∧ (ingS 0 1 []).udpStream 0 8 9 = none ∧
    (ingS 0 1 []).udpStream 0 7 9 = some (3, cfgS 0 1) ∧ icProto (cfgS 0 1) = 0 ∧ 1 ≤ ((ingS 0 1 []).ledger pgING 0).free ∧
    ((ingS 0 1 []).stream 3).frames = [] ∧ ((ingS 0 1 []).stream 3).next = none ∧ ((ingS 0 1 []).stream 3).ended = none ∧
    ((ingS 0 1 []).stream 3).cfg = some (cfgS 0 1) ∧ (ingS 0 1 []).running pgING = true ∧ (ingS 0 1 []).working pgING = true ∧
    ((ingS 0 1 []).setFld pgING fSTATE 4).running pgING = false ∧ ((ingS 0 1 []).setFld pgING fSTATE 4).ifUp 0 = true := by decide +kernel
theorem witness_payload : let s := ingS 0 1 [frmS 0 1 []]
    rxBufs ([1#8, 2#8, 3#8] : List Byte).length ≤ (s.ledger pgING 0).free ∧ (s.stream 3).frames.find? (fun g => g.num == 5) = some (frmS 0 1 []) ∧
    (frmS 0 1 []).row = icLine (frmS 0 1 []).cfg ∧ (frmS 0 1 []).row ≠ 0 ∧ 3 + 3 ≤ icFrame (frmS 0 1 []).cfg := by decide +kernel
def rawB (ty : Nat) : List Byte := [BitVec.ofNat 8 (ty * 16 + 1), 0#8, 0#8, 0#8, 5#8] ++ List.replicate 19 0#8
theorem witness_raw : (List.range 64).findSome? (fun n => match ((ingS 3 1 [frmS 3 1 []]).stream n).cfg with
      | some c => if icProto c = 3 ∧ icIf c = 0 ∧ icTag c = leAt (rawB 2) 1 1 ∧ 2 ≤ (rawB 2).length then some (n, c) else none
      | none => none) = some (3, cfgS 3 1) ∧ rawBad (cfgS 3 1) (rawB 2) = false ∧ rawBad (cfgS 3 1) (rawB 3) = true ∧ leAt (rawB 2) 0 1 / 16 = 2 ∧
    leAt (rawB 2) 4 4 = 5 ∧ ((ingS 3 1 [frmS 3 1 []]).stream 3).frames = [frmS 3 1 []] := by decide +kernel
def rtpS (seq : Option Nat) (win : List (Nat × IngPkt)) (au : Option IngAu) : State :=
  let a := ingS 1 1 []
  a.putStream 3 { a.stream 3 with seq := seq, win := win, au := au }
def nal : List Byte := [0x65#8, 1#8, 2#8]
theorem witness_rtp : (rtpS (some 4) [] none).udpStream 0 7 9 = some (3, cfgS 1 1) ∧ icProto (cfgS 1 1) = 1 ∧
    rtpUnits (icProto (cfgS 1 1) == 2) nal = some ([0#8, 0#8, 0#8, 1#8] ++ nal) ∧ (4 + 65536 - 4) % 65536 = 0 ∧ (6 + 65536 - 4) % 65536 = 2 ∧
    (3 + 65536 - 4) % 65536 = 65535 ∧ rxBufs nal.length ≤ ((rtpS (some 4) [] none).ledger pgING 0).free ∧
    ((rtpS (some 4) [] none).stream 3).cfg = some (cfgS 1 1) ∧
    ((rtpS (some 4) [(6, ⟨1, false, nal, 0, none, 1⟩)] (some ⟨1, 0, none, [9#8], 0, 1⟩)).stream 3).win = [(6, ⟨1, false, nal, 0, none, 1⟩)] := by
  decide +kernel
/-- The clock on, on interface 0 over Ethernet, its exchange half done. -/
def ptpS : State :=
  let a := (ingS 0 1 []).setFld pgING f_ING_PTP_CFG_ENABLE 1
  a.setPtp ⟨some (1, 5), some 1000, 100, some 120⟩
theorem witness_ptp : ptpS.ifUp 0 = true ∧ (ptpS.fld pgING f_ING_PTP_CFG_ENABLE == 1 && ptpS.fld pgING f_ING_PTP_CFG_INTERFACE == 0 &&
      (ptpS.fld pgING f_ING_PTP_CFG_TRANSPORT == 1) == false && ptpS.fld pgING f_ING_PTP_CFG_DOMAIN == 0) = true ∧
    ptpS.ing.ptp.master = some (1, 5) ∧ ptpS.ing.ptp.t1 = some 1000 ∧ ptpS.ing.ptp.t3 = some 120 ∧ s0.ing.ptp.master = none ∧
    ptpS.running pgING = true := by decide +kernel
theorem witness_stream : (ingS 0 1 []).reaches 0 = true ∧ (ingS 0 1 []).running pgING = true ∧ (ingS 0 1 []).fld pgING f_ING_STR_SEL_STREAM = 3 ∧
    ((ingS 0 1 []).stream 3).busy = false ∧ ((ingS 0 1 [frmS 0 1 []]).stream 3).busy = true ∧ ((ingS 0 1 []).stream 3).cfg.isSome = true ∧
    s0.running pgING = false ∧ ((ingS 0 1 []).strRefusal 3).isSome = true := by decide +kernel
/-- Stream 3's registers hold a configuration that passes its tests: to memory, tenant 2, counter 1. -/
def commitS : State :=
  let a := ((((ingS 0 1 []).putStream 3 streamReset).setWord (hmSTR 3) r_ING_STR_SIZE 0x20004#32).setWord (hmSTR 3) r_ING_STR_TIMEOUT 100#32).setWord (hmSTR 3) r_ING_STR_DEST 0x100202#32
  let b := (a.setWord (hmSTR 3) r_ING_STR_BUF_HI 0x10000#32).setWord (hmSTR 3) r_ING_STR_COUNTER 1#32
  ((b.setTenant 2 { tenantReset with state := 3 }).setFld pgSYN (f_SYN_ALLOC_COUNT 2) 1).setFld pgSYN fSTATE 3
theorem witness_stream_commit : commitS.strRefusal 3 = none ∧ commitS.reaches 0 = true ∧ commitS.running pgING = true := by decide +kernel
theorem witness_link : (ingS 0 1 []).running pgING = true ∧ ((ingS 0 1 []).fld pgING (f_ING_PORT_STATUS_UP 0)).testBit 0 = true ∧
    ((ingS 0 1 []).fld pgING (f_ING_PORT_STATUS_UP 1)).testBit 0 = false := by decide +kernel
theorem witness_frame_timeout : ((ingS 0 1 [frmS 0 1 []]).stream 3).frames.find? (fun g => decide (g.seen + icUs g.cfg * 1000 ≤ 0)) = some (frmS 0 1 []) ∧
    ((ingS 0 1 [frmS 0 1 []]).stream 3).frames.find? (fun g => g.num == (frmS 0 1 []).num) = some (frmS 0 1 []) ∧
    ∀ f ∈ ((ingS 0 1 [{ frmS 0 1 [] with seen := 1 }]).stream 3).frames, 0 < f.seen + icUs f.cfg * 1000 := by decide +kernel

/-! ### The Mural fabric -/

/-- Slot 3 open for job 77 of the owner: this module, 5, is member 1 of 4, chunks of one unit, its window at DVA 0, which is mapped. -/
def jobS : State :=
  let a := ((((s0.setFld pgMUR fSTATE 3).setFld pgMUR f_MUR_ID_ID 5).setFld (hmJOB 3) f_MUR_JOB_CFG_MEMBERS 4).setFld (hmJOB 3)
    f_MUR_JOB_CFG_MY_INDEX 1).setFld (hmJOB 3) f_MUR_JOB_ID_ID 77
  let b := (a.setFld (hmJOB 3) f_MUR_JOB_CHUNK_UNITS 1).setFld (hmJOB 3) f_MUR_JOB_WIN_SIZE_UNITS 1
  { b.setMjob 3 ⟨true, some [1#8], 7, [], [(0, 10), (1, 5), (2, 4108), (3, 8205)], none⟩ with
    hif := { b.hif with leaves := [(0, ⟨true, false, 0, true, true, false⟩)] } }
def pktJ (typ src job off len req iv epoch : Nat) : MPkt := ⟨muralHdr 5 src typ 0 job off len req iv 0 epoch ++ List.replicate 16 0#8, none, 0, none, 0⟩
def inS (s : State) (l : List MPkt) : State := { s with mur := { s.mur with inbox := l } }
theorem witness_mural_none : s0.inboxOf 0 = none ∧ s0.inboxOf 4 = none ∧
    (inS jobS [pktJ 0 10 77 0 8 0 1 0, pktJ 4 10 77 0 0 0 2 0]).inboxOf 4 = some (pktJ 4 10 77 0 0 0 2 0) ∧
    ([pktJ 0 10 77 0 8 0 1 0, pktJ 4 10 77 0 0 0 2 0].takeWhile (fun x => x != pktJ 4 10 77 0 0 0 2 0)).any
      (fun x => phType x.bytes == 0 && phSrc x.bytes == phSrc (pktJ 4 10 77 0 0 0 2 0).bytes && phJob x.bytes == phJob (pktJ 4 10 77 0 0 0 2 0).bytes)
      = true := by decide +kernel
theorem witness_mural_request : (inS jobS [pktJ 0 10 77 64 8 0 1 0]).inboxOf 0 = some (pktJ 0 10 77 64 8 0 1 0) ∧ jobS.jobSlot 77 = some 3 ∧
    jobS.jobSlot 78 = none ∧ jobS.memberOf 3 10 = some 0 ∧ jobS.memberOf 3 11 = none ∧ jobS.memberState 3 0 = 0 ∧ jobS.memberState 3 2 = 1 ∧
    jobS.memberState 3 3 = 2 ∧ jobS.mWhere 3 64 8 = some (.window 64) ∧ jobS.mWhere 3 (2 ^ 21) 8 = none ∧
    jobS.writeFault (bareWho (jobS.jobTenant 3)) 4 (cuts 64 8) = none ∧ jobS.writesOff (jobS.jobTenant 3) = false ∧
    jobS.readLines (bareWho (jobS.jobTenant 3)) 4 64 64 8 = .ok (List.replicate 8 0#8, 0) ∧ jobS.jobG 3 = 4 := by decide +kernel
theorem witness_mural_opened :
    ((jobS.setMjob 3 { jobS.mjob 3 with acc := [(10, [1])] }).mOpen 3 (pktJ 0 10 77 64 8 0 1 0).bytes).2 = .replayed ∧
    ((jobS.setMjob 3 { jobS.mjob 3 with key := none }).mOpen 3 (pktJ 0 10 77 64 8 0 1 0).bytes).2 = .badTag := by decide +kernel
/-- Panel 5 RUNNING and DEDICATED to the owner, with a landing region of 4,096 bytes for the fabric. -/
def landM : State := ((((jobS.setFld (pnlPage 5) fSTATE 3).setFld (pnlPage 5) f_PNL_MODE_MODE 1).setFld (pnlPage 5) (f_PNL_REGION_VALID 2) 1).setFld
  (pnlPage 5) (f_PNL_REGION_WRITER 2) 3).setFld (pnlPage 5) (f_PNL_REGION_SIZE 2) 1
theorem witness_landing : landM.mWhere 3 (2 ^ 43 + 5 * 2 ^ 36 + 2 * 2 ^ 33 + 64) 8 = some (.landing 5 64) := by decide +kernel
theorem witness_contribution : let k := pktJ 6 10 77 (2 ^ 32) 64 0 1 1
    (inS jobS [k]).inboxOf 6 = some k ∧ jobS.jobSlot (phJob k.bytes) = some 3 ∧ jobS.memberOf 3 (phSrc k.bytes) = some 0 ∧
    bits (phOff k.bytes) 37 32 = 1 ∧ bits (phOff k.bytes) 40 40 = 0 ∧ jobS.jobMe 3 = 1 ∧
    bits (phOff k.bytes) 29 0 + phLen k.bytes ≤ jobS.jobUnits 3 * 4096 ∧ 0 ∈ dataMembers 4 1 ∧ phPoison k.bytes = 0 ∧
    jobS.jobWin 3 + jobS.slotOff 3 (phEpoch k.bytes % 2) 0 = 16384 ∧
    jobS.readLines (bareWho 0) 4 16384 64 264 = .ok (List.replicate 264 0#8, 0) ∧
    leAt (List.replicate 264 0#8) 0 4 ≠ phEpoch k.bytes ∧ 0 < serial (phEpoch k.bytes) (leAt (List.replicate 264 0#8) 0 4) ∧
    jobS.writeFault (bareWho 0) 4 (cuts (16384 + 4096 + 0) 64) = none ∧ jobS.writeFault (bareWho 0) 4 (cuts 16384 264) = none := by decide +kernel
theorem witness_contribution_more : let k := pktJ 6 10 77 (2 ^ 32) 64 0 1 0
    jobS.jobWin 3 + jobS.slotOff 3 (phEpoch k.bytes % 2) 0 = 0 ∧ leAt (List.replicate 264 0#8) 0 4 = phEpoch k.bytes ∧
    jobS.readLines (bareWho 0) 4 (0 + 4096 + 0) 64 64 = .ok (List.replicate 64 0#8, 0) := by decide +kernel
/-- An erasure operation of the owner under tag 9: its argument block at DVA 0 of module memory names slot 3. -/
def opM (opc : Nat) : Op := { op5 with d := dsc opc, phase := .waiting, group := [], slots := [] }
def ecS (opc : Nat) (m : SMap Byte) : State := ({ jobS with mem := { jobS.mem with mem := m } }.setMjob 3
  ⟨true, some [1#8], 7, [], [(0, 10), (1, 5), (2, 12), (3, 13)], none⟩).setOp 9 (opM opc)
theorem witness_encode : (ecS 0xC [(64, 3#8), (68, 1#8)]).running pgMUR = true ∧ s0.running pgMUR = false ∧
    ((ecS 0xC [(64, 3#8), (68, 1#8)]).begins 9 0xC 5).isSome = true ∧
    (match (ecS 0xC [(64, 3#8), (68, 1#8)]).begins 9 0xC 5 with
    | some (b, o) => (match b.readDva (o.who 9) o.d.arg 64, b.readLines (o.who 9) 4 ((ecS 0xC []).jobWin 3 + (ecS 0xC []).jobShard 3) 64 4096 with
      | .ok a false, .ok _ => rsvByte a [(8, 56)] == none && leAt a 0 4 == 3 && leAt a 4 4 == 1 && decide (o.tenant = jobS.jobTenant 3)
      | _, _ => false)
    | none => false) = true ∧
    (ecS 0xC []).lostAmong 3 ((List.range 4).filter (fun k => k != 1)) = none ∧ (smFresh (ecS 0xC []).mur.reqs 0 8192).isSome = true ∧
    (ecS 0xC []).writesOff 0 = false ∧ (opM 0xC).abandoned = false ∧ (s0.mjob 2).isOpen = false := by decide +kernel
theorem witness_rebuild : let s := ecS 0xD [(64, 3#8), (68, 1#8), (72, 2#8), (76, 2#8)]
    (match s.begins 9 0xD 5 with
    | some (b, o) => (match b.readDva (o.who 9) o.d.arg 64 with
      | .ok a false => rsvByte a [(0x18, 40)] == none && leAt a 0 4 == 3 && leAt a 8 4 == 2 && leAt a 0xC 4 == 2 && leAt a 0x10 8 % 4096 == 0 &&
          (s.lostAmong 3 ((List.range 4).filter (fun m => m != 2 && m != s.jobMe 3))).isNone &&
          (match (s.rbSources 3 a ((dataStripes (s.jobG 3) 2).getD 0 0) none).head? with | some (k, _) => k != s.jobMe 3 | none => false)
      | _ => false)
    | none => false) = true := by decide +kernel
/-- A request of tag 9 for slot 3 in entry 5 of generation 2, the last of a COPY. -/
def muralReqS (opc kind okind sig : Nat) (k : MPkt) : State :=
  let a := (inS jobS [k]).setOp 9 { opM opc with phase := .issued }
  { a with mur := { a.mur with reqs := [(5, ⟨9, 3, 0, kind, 2, 4, 64, 8, 0⟩)], ops := [(9, ⟨okind, 3, 1, 1, 1, false, none, sig, 0, []⟩)] } }
theorem witness_response : let s := muralReqS 2 0 0 0 (pktJ 3 10 77 0 0 (5 + 2 * 8192) 1 0)
    s.inboxOf 3 = some (pktJ 3 10 77 0 0 (5 + 2 * 8192) 1 0) ∧ phReq (pktJ 3 10 77 0 0 (5 + 2 * 8192) 1 0).bytes = 5 + 2 * 8192 ∧
    smFind s.mur.reqs 5 = some ⟨9, 3, 0, 0, 2, 4, 64, 8, 0⟩ ∧ (s.mjob 3).isOpen = true ∧ s.jobId 3 = 77 ∧
    s.mop 9 = some ⟨0, 3, 1, 1, 1, false, none, 0, 0, []⟩ ∧ (s.op 9).isSome = true ∧ s.writesOff 0 = false ∧
    phStatus (pktJ 3 10 77 0 0 (5 + 2 * 8192) 1 0).bytes = 0 ∧
    (∀ q, smFind s.mur.reqs 6 = some q → q.gen ≠ 2 ∨ q.kind ≠ 0) := by
  refine ⟨?_, ?_, ?_, ?_, ?_, ?_, ?_, ?_, ?_, ?_⟩
  iterate 9 decide +kernel
  intro q h
  exact absurd (h.symm.trans (show _ = none by decide +kernel)) (by simp)
theorem witness_request_timeout : smFind (muralReqS 2 0 0 0 (pktJ 3 10 77 0 0 0 1 0)).mur.reqs (5 : Fin 8192).val = some ⟨9, 3, 0, 0, 2, 4, 64, 8, 0⟩ ∧
    smFind s0.mur.reqs (5 : Fin 8192).val = none := by decide +kernel
/-- A packet that waits to be routed; the entry of its destination. -/
def rtS (port : Option Nat) (route : Option Nat) (e : Nat) : State :=
  { jobS with mur := { jobS.mur with arrived := [⟨(pktJ 0 10 77 0 8 0 1 0).bytes, port, 2, route, 0⟩], rtActive := [(5, e)] } }
theorem witness_route : (rtS (some 2) none 0x18).working pgMUR = true ∧ s0.working pgMUR = false ∧ (rtS (some 2) none 0x18).mur.arrived[0]? =
      some ⟨(pktJ 0 10 77 0 8 0 1 0).bytes, some 2, 2, none, 0⟩ ∧ phDst (pktJ 0 10 77 0 8 0 1 0).bytes = 5 ∧ rtValid 0x18 = true ∧ rtLocal 0x18 = true ∧
    rtValid 0 = false ∧ rtLocal 0x13 = false ∧ rtPort 0x13 = 3 ∧ rtAltValid 0x13 = false ∧ jobS.portUsable 3 = false ∧
    (((jobS.setFld (pgPORT 3) fSTATE 3).setLink 3 2)).portUsable 3 = true ∧ (rtS (some 2) (some 0x13) 0).mur.arrived[0]? =
      some ⟨(pktJ 0 10 77 0 8 0 1 0).bytes, some 2, 2, some 0x13, 0⟩ ∧ s0.mur.arrived[0]? = none := by decide +kernel
theorem witness_commit_route : s0.reaches 0 = true ∧ s0.running pgRT = false ∧ (s0.setFld pgRT fSTATE 3).running pgRT = true ∧
    (s0.setFld pgRT fSTATE 3).reaches 0 = true ∧ (s0.setFld pgRT fSTATE 3).running pgEAS = true ∧ RsvClear pgRT r_MUR_RT_COMMIT 1#32 ∧ s0.fld pgRT f_MUR_RT_STATUS_OLD_LIVE = 0 ∧
    (s0.setFld pgRT f_MUR_RT_STATUS_OLD_LIVE 1).fld pgRT f_MUR_RT_STATUS_OLD_LIVE = 1 ∧ s0.running pgEAS = true ∧
    s0.routeRefusal s0.mur.rtShadow = some 0x40 ∧
    ({ s0 with mur := { s0.mur with rtShadow := [(0, 0x18)] } }).routeRefusal [(0, 0x18)] = none := by decide +kernel
/-- The job page RUNNING and the owner's tenant too: slot 2 passes its tests. -/
def openJobS : State :=
  let a := ((tenS 0 3 0).setFld pgJOB fSTATE 3).setFld (hmJOB 2) f_MUR_JOB_CFG_MEMBERS 1
  a.setMjob 2 ⟨false, some [1#8], 0, [], [], none⟩
theorem witness_job : openJobS.reaches 0 = true ∧ openJobS.running pgJOB = true ∧ (openJobS.mjob (2 : Fin 64).val).isOpen = false ∧
    openJobS.jobRefusal (2 : Fin 64).val = none ∧ (openJobS.jobRefusal (4 : Fin 64).val).isSome = true ∧ s0.running pgJOB = false ∧
    (jobS.mjob (3 : Fin 64).val).isOpen = true ∧ RsvClear pgJOB r_MUR_JOB_MEMBER 0x100A#32 ∧ s0.fld pgJOB f_MUR_JOB_SEL_SLOT = 0 ∧
    s0.fld pgJOB f_MUR_JOB_MEMBER_SEL_INDEX = 0 := by decide +kernel

/-! ### Mural links -/

/-- Port 2 in a link state, with a port record. -/
def linkS (l : Nat) (x : MPort) : State := (s0.setLink 2 l).setMport 2 x
def txf : TxFlit := ⟨0, [7#8], some 5, none⟩
theorem witness_frames : (linkS 1 { mportReset with count := 7, off := 3 }).link (2 : Fin 8).val = lkTRAINING ∧ s0.link (2 : Fin 8).val = lkDOWN ∧
    (linkS 1 { mportReset with count := 7, off := 3 }).mport 2 = { mportReset with count := 7, off := 3 } ∧
    (linkS 1 { mportReset with lock := 1, count := 3, off := 3 }).mport 2 = { mportReset with lock := 1, count := 3, off := 3 } ∧
    (linkS 2 { mportReset with lock := 2, count := 3, off := 3 }).link 2 = lkUP := by decide +kernel
/-- A locked port that expects SEQ 9; the bytes of a data flit of VC 0 and a SEQ. -/
def lockS (x : MPort) : State := linkS 2 { x with lock := 2, rxSeq := 9 }
theorem witness_flits : (lockS mportReset).link 2 = lkUP ∧ ((lockS mportReset).mport 2).lock = 2 ∧ sub (flitBytes 0 9 []) 0 64 = flitBytes 0 9 [] ∧
    leAt (flitBytes 0 9 []) 0 2 % 4 = 0 ∧ leAt (flitBytes 0 9 []) 0 2 / 8 = 9 ∧ bits (leAt (flitBytes 0 9 []) 0 2) 2 2 = 0 ∧
    crc32c ((flitBytes 0 9 []).take 60) = leAt (flitBytes 0 9 []) 60 4 ∧ (9000 % 8192 + 8192 - 9) % 8192 < 4096 ∧
    ¬ (8 + 8192 - 9) % 8192 < 4096 := by decide +kernel
/-- Two flits sent, SEQ 3 and 4; one flit in the queue with a credit. -/
def sentS (q : List TxFlit) : State := linkS 2 { mportReset with lock := 2, txSeq := 5, sent := [⟨3, txf, 0, 0⟩, ⟨4, txf, 0, 2⟩], queue := q, credit := [(0, 1)] }
theorem witness_control : (sentS []).link 2 = lkUP ∧ ((sentS []).mport 2).lock = 2 ∧ ((sentS []).mport 2).queue = [] ∧
    (((sentS []).mport 2).sent.filter (fun f => seqUpTo 4 f.seq)) = [⟨4, txf, 0, 2⟩] ∧ ((sentS [txf]).mport 2).queue = [txf] ∧
    (0 : BitVec 16).toNat = smGet 0 ((sentS [txf]).mport 2).seen 0 ∧ smGet 0 ((sentS [txf]).mport 2).credit 0 = 1 ∧
    ((sentS []).mport 2).sent = [⟨3, txf, 0, 0⟩, ⟨4, txf, 0, 2⟩] ∧ s0.link 2 ≠ lkUP := by decide +kernel
theorem witness_ports : (linkS 2 mportReset).link 2 = lkUP ∧ s0.reaches 0 = true ∧ fldGet 0x3#32 f_MUR_PORT_CTRL_POWER = 3 ∧
    fldGet 0x9#32 f_MUR_PORT_CTRL_POWER = 1 ∧ (s0.mport 2).trans = none ∧
    ((linkS 2 { mportReset with trans := some 1, heldTarget := some 2 }).mport 2).trans = some 1 ∧ (linkS 1 mportReset).link 2 = lkTRAINING ∧
    (linkS 2 mportReset).fld (pgPORT 2) f_MUR_PORT_STATUS_LOS = 0 ∧ (linkS 2 mportReset).fld (pgPORT 2) f_MUR_PORT_CTRL_DRAIN = 0 ∧
    RsvClear (pgPORT (2 : Fin 8).val) r_MUR_PORT_TEST 0x50001#32 := by decide +kernel
/-- A sent flit of a COPY's only request: entry 5, tag 9. -/
def downS : State :=
  let a := (linkS 2 { mportReset with lock := 0, sent := [⟨3, txf, 0, 0⟩] }).setOp 9 { op5 with group := [] }
  { a with mur := { a.mur with reqs := [(5, ⟨9, 3, 0, 0, 2, 4, 64, 8, 0⟩)], ops := [(9, ⟨0, 3, 1, 1, 1, false, none, 0, 0, []⟩)] } }
theorem witness_down : 5 ∈ entriesIn ((downS.mport 2).queue ++ (downS.mport 2).sent.map (fun f => f.flit)) ∧
    smFind downS.mur.reqs 5 = some ⟨9, 3, 0, 0, 2, 4, 64, 8, 0⟩ ∧ downS.mop 9 = some ⟨0, 3, 1, 1, 1, false, none, 0, 0, []⟩ ∧
    (downS.op 9).map (fun o => o.phase) = some .issued ∧ downS.link 2 = lkUP ∧ (downS.ledger (pgPORT 2) 2).held ≤ 4096 ∧
    ((linkS 0 { mportReset with downWait := true, heldTarget := some 2 }).mport 2).downWait = true := by decide +kernel
/-- The wire bytes of a data flit behind a history, what the port reads them as, and the gate that holds one. -/
theorem witness_gate : (scrBytes true 5 (sub (scrBytes false 5 (flitBytes 0 9 [])).2 0 64)).2 = flitBytes 0 9 [] ∧
    crc32c ((flitBytes 0 9 []).take 60) = leAt (flitBytes 0 9 []) 60 4 ∧ leAt (flitBytes 0 9 []) 0 2 % 8 < 3 ∧
    ((linkS 2 { mportReset with lock := 1, count := 3, rxSeq := 9, gate := [.data (flitBytes 0 9 [])] }).mport 2).gate = [.data (flitBytes 0 9 [])] ∧
    crc32c ((flitBytes 0 9 []).set 60 0#8 |>.take 60) ≠ leAt ((flitBytes 0 9 []).set 60 0#8) 60 4 ∧
    (linkS 2 { mportReset with lock := 1, count := 3, rxSeq := 9, gate := [.data (flitBytes 0 9 [])] }).link 2 = lkUP := by decide +kernel

/-! ### Security -/

/-- A lifecycle state. -/
def lcS (n : Nat) : State := s0.setFld pgSEC f_SEC_LC_LIFECYCLE n
/-- The same with partition 6 of one MiB, which holds models. -/
def partS (n : Nat) : State :=
  let w := (((lcS n).setFld pgFRS (f_FRS_PART_VALID 6) 1).setFld pgFRS (f_FRS_PART_MIB 6) 1).setFld pgFRS (f_FRS_PART_KIND 6) 4
  { lcS n with mem := { s0.mem with layout := [(6, (w.word pgFRS (r_FRS_PART 6)).toNat)] } }
/-- Tamper loop 0 armed, its level 1, for 20 µs. -/
def armS : State := (((lcS 2).setFld pgSEC f_SEC_TAMPER_CFG_ARM 1).setFld pgSEC f_SEC_TAMPER_CFG_POLARITY 1).setFld pgSEC f_SEC_TAMPER_CFG_FILTER_US 20
theorem witness_lifecycle : s0.reaches 0 = true ∧ (lcS 1).lifecycle = 1 ∧ (lcS 2).lifecycle = 2 ∧ (lcS 3).lifecycle = 3 ∧ (lcS 2).reaches 0 = true ∧
    0 < (partS 2).partBlocks 6 ∧ (partS 2).lifecycle = 2 ∧ s0.sec.load = none ∧ (lcS 2).wrState 0 = wrEMPTY ∧ ((lcS 2).setFld (hmWR 1) f_SEC_WR_STATUS_STATE 2).wrState 1 = wrLOADED ∧
    smGet false s0.flt.wire (pgSEC * 4 + 3) = false ∧ s0.fld pgSEC f_SEC_ARB_SEL_COUNTER = 0 ∧ smGet 0 s0.sec.arb 0 < (5 : Fin 256).val ∧
    s0.pow.phase ≠ .off ∧ (lcS 2).trips 0 0 1 = 4 ∧ (lcS 2).trips 1 255 0 = 0 ∧ armS.trips 1 20 0 = 1 ∧ armS.trips 1 19 0 = 0 ∧ armS.trips 0 20 0 = 0 := by decide +kernel
/-- Region 0's image at LBA 2 of partition 6, which holds models; its frames start at 9. -/
def wrS : State :=
  let a := (partS 2).setFld pgHBM f_HBM_CLEAR_DONE 1
  ((a.setFld (hmWR 0) f_SEC_WR_CFG_PARTITION 6).setWord (hmWR 0) r_SEC_WR_SRC 2#32).setFld (hmWR 0) f_SEC_WR_FRAME_FRAME 9
/-- The same with the load running. -/
def loadS : State := { wrS with sec := { wrS.sec with load := some 0 } }
theorem witness_region_load : wrS.reaches 0 = true ∧ wrS.fld pgSEC f_SEC_WR_SEL_REGION = 0 ∧ wrS.sec.load.isSome = false ∧ wrS.wrState 0 ≠ wrLOADED ∧
    wrS.framesFree 9 2 = true ∧ (match (lcS 3).loadTests 0 with | .error 8 => true | _ => false) = true ∧
    (match (lcS 2).loadTests 0 with | .error 1 => true | _ => false) = true ∧ loadS.sec.load = some 0 ∧ wrS.sec.load = none ∧
    (loadS.wrSource 0).2 < loadS.partBlocks (loadS.wrSource 0).1 := by decide +kernel
/-- The region LOADED, and a mapping of one of its frames. -/
def loadedS (n : Nat) : State := (wrS.setFld (hmWR 0) f_SEC_WR_STATUS_STATE 2).setFld (hmWR 0) f_SEC_WR_FRAMES_FRAMES n
def mappedW : State := let a := loadedS 2; { a with hif := { a.hif with leaves := [(3, ⟨true, false, 10 * 0x200000, true, false, false⟩)] } }
theorem witness_unload : mappedW.wrMapped 0 = true ∧ (loadedS 2).wrMapped 0 = false ∧ (loadedS 2).wrFrames 0 = (9, 2) ∧
    (loadedS 2).wrState 0 = wrLOADED ∧ (∀ f, smGet false (loadedS 2).mem.badDue f = false) := by
  refine ⟨?_, ?_, ?_, ?_, fun f => ?_⟩
  iterate 4 decide +kernel
  have h : (loadedS 2).mem.badDue = [] := by decide +kernel
  simp [h, smGet, smFind]
theorem witness_keys : (lcS 2).keyBusy 1 3 = false ∧ (lcS 2).sec.wiped = false ∧ ((lcS 2).setMjob 3 { mjobReset with isOpen := true }).keyBusy 3 3 = true ∧
    (match (lcS 2).readDva (bareWho 0) (lcS 2).keyArg 256 with | .bad _ _ => true | _ => false) = true ∧
    (match ({ lcS 2 with hif := { s0.hif with leaves := [(0, ⟨true, false, 0, true, true, false⟩)] } } : State).readDva (bareWho 0) 0 256 with
      | .ok b false => (match envelopeKey b 1 0 with | .error 1 => true | _ => false) | _ => false) = true := by decide +kernel
/-- A waiting GESSO of the owner on panel 5, with an argument block at DVA 64 or none. -/
def gesS (arg : Nat) (m : SMap Byte) : State :=
  let a := { mapped with mem := { mapped.mem with mem := m } }
  a.setOp 9 { op5 with d := { dsc 0xE with arg := arg }, phase := .waiting, slots := [] }
theorem witness_gesso : ((gesS 0 []).op 9).any (fun x => x.group.any (fun p => (gesS 0 []).stepRuns p)) = false ∧
    ((gesS 0 []).begins 9 0xE 5).any (fun e => e.2.d.arg == 0 && (e.2.group.find? (fun q => ((gesS 0 []).panel q).lost)).isNone) = true ∧
    (match (gesS 64 [(64, 2#8)]).begins 9 0xE 5 with
      | some (b, o) => (match b.readDva (o.who 9) o.d.arg 64 with | .ok a false => gessoArgFault a == some 0 | _ => false)
      | none => false) = true ∧
    (match (gesS 64 [(64, 1#8)]).begins 9 0xE 5 with
      | some (b, o) => (match b.readDva (o.who 9) o.d.arg 64 with | .ok a false => gessoArgFault a == none && leAt a 0 4 == 1 | _ => false)
      | none => false) = true ∧ (s0.op 8).all (fun o => o.group.any (fun p => s0.stepRuns p)) = true := by decide +kernel
/-- The same with panel 5 lost. -/
def gesLost : State := (gesS 0 []).setPanel 5 { panelReset with lost := true }
theorem witness_gesso_lost : (gesLost.op 9).any (fun o => decide (o.phase = .waiting ∧ o.d.opcode = 0xE ∧ o.abandoned = false ∧
    gesLost.waitPoisoned o.tenant o.d.wait0 = false ∧ gesLost.waitPoisoned o.tenant o.d.wait1 = false ∧ gesLost.ready o = true ∧
    gesLost.yields o = false ∧ o.group.any (fun p => gesLost.stepRuns p) = false ∧
    o.group.findIdx? (fun p => (gesLost.panel p).lost) = some 0)) = true := by decide +kernel

/-! ### SPDM, IDE_KM and TDISP -/

/-- A DEPLOYED module with session 1 established, or open. -/
def spS (est : Bool) : State := let a := lcS 2; { a with sec := { a.sec with sessions := [(1, ⟨est, 0, 0⟩)] } }
theorem witness_spdm : s0.cfgReaches = true ∧ (spS true).cfgReaches = true ∧ (spS true).spdmBare = false ∧ (spS true).sec.wiped = false ∧
    (lcS 0).spdmBare = true ∧ (lcS 0).cfgReaches = true ∧ ({ lcS 2 with sec := { s0.sec with wiped := true } } : State).sec.wiped = true ∧
    (spS true).session (1 : Fin 4).val = some ⟨true, 0, 0⟩ ∧ (spS false).session (1 : Fin 4).val = some ⟨false, 0, 0⟩ ∧
    ((spS false).session (1 : Fin 4).val).all (fun x => !x.established) = true ∧ (spS true).lifecycle = 2 ∧ s0.lifecycle ≠ 2 := by decide +kernel
/-- The same with stream 2 keyed and secure and tenant 3 RUNNING, its TDI in a state with the nonce 9 drawn. -/
def tdS (tdi : Nat) : State :=
  let a := (spS true).setTenant 3 { tenantReset with state := 3, tdi := tdi }
  { a with hif := { a.hif with ide := [(2, 1)], ideKeys := [(2, 1)] }, sec := { a.sec with nonces := [(3, 9)], bound := [(3, 2)] } }
theorem witness_tdisp : (tdS 0).cfgReaches = true ∧ (tdS 0).session (1 : Fin 4).val = some ⟨true, 0, 0⟩ ∧ (2 : Fin 32).val + 1 = 3 ∧
    ((tdS 0).tenant 3).tdi = 0 ∧ (tdS 0).tenantRunning 3 = true ∧ (2 : Fin 34).val ≠ 0 ∧ (tdS 0).ideKeyed (2 : Fin 34).val = true ∧
    smGet 0 (tdS 0).hif.ide (2 : Fin 34).val = 1 ∧ (tdS 0).sec.trngFail = false ∧ ((tdS 1).tenant 3).tdi = 1 ∧
    smFind (tdS 1).sec.nonces 3 = some (9 : BitVec 256).toNat ∧ (tdS 0).spdmBare = false ∧ (tdS 0).sec.wiped = false ∧ (tdS 0).lifecycle = 2 := by
  decide +kernel
/-- No firmware runs: bare. Four sessions open: no fifth. -/
theorem witness_spdm_bounds : ({ spS true with pow := { s0.pow with fwFail := true } } : State).spdmBare = true ∧
    smFresh ({ spS true with sec := { s0.sec with sessions := [(0, ⟨true, 0, 0⟩), (1, ⟨true, 0, 0⟩), (2, ⟨true, 0, 0⟩), (3, ⟨true, 0, 0⟩)] } } :
      State).sec.sessions 0 4 = none ∧ smFresh (spS true).sec.sessions 0 4 = some 0 ∧
    ({ spS true with sec := { s0.sec with trngFail := true } } : State).sec.trngFail = true ∧ (spS true).sec.trngFail = false := by decide +kernel
theorem witness_four_sessions : ∀ k, 4 ≤ k → (spS true).session k = none := by
  intro k h
  have e : (spS true).sec.sessions = [(1, ⟨true, 0, 0⟩)] := by decide +kernel
  simp only [State.session, e, smFind]
  split
  · omega
  · rfl

/-! ### The whole machine -/

theorem witness_mirror_writes : s0.reaches 0 = true ∧ 0xC00 ≤ (0xC01 : Fin 4096).val ∧ pageExists (0xC01 : Fin 4096).val = true := by decide +kernel
theorem witness_step : s0.pending = [] ∧ ({ s0 with pending := [.trngHealthRestored] } : State).pending = [.trngHealthRestored] := ⟨rfl, rfl⟩
theorem witness_invariants : step s0 = .next s0 ∧ StoresCanon s0 ∧ s0.pending.head? ≠ some .aonPowerOn ∧ Instr.trngHealthRestored ≠ .aonPowerOn ∧
    Instr.trngHealthRestored ≠ .overVoltageRecovery ∧ exec .trngHealthRestored s0 = .next { s0 with sec := { s0.sec with trngFail := false } } := by
  refine ⟨rfl, ⟨rfl, rfl, rfl, rfl, rfl, by simp [s0, State.reset]⟩, by simp [s0, State.reset], by simp, by simp, rfl⟩
theorem witness_ledgers : LedgersSum s0 := fun page i => by
  show (ledgerReset page i).free + (ledgerReset page i).held + (ledgerReset page i).transit = (ledgerReset page i).total
  simp [ledgerReset]
theorem witness_no_write : s0.takes (.pf 67) ∧ (tenantOfPage 67).isSome = true ∧ pageKind 67 = .tnt ∧ s0.takes (.pf 66) ∧ pageKind 66 = .hifSet ∧
    s0.takes (.pf 68) ∧ (tenantOfPage 68).isSome = true ∧ fixedPage 68 = false ∧ pageKind 68 ≠ .tnt ∧ s0.fld 68 fQUIESCE = 0 := by decide +kernel

/-! ### Results worked out by hand from the spec -/

/-- The state a command that completes leaves. -/
def after (o : Host.Outcome State Fault Refusal) : State := match o with | .next t => t | _ => s0

/-- R36: W1C of bit 3 leaves bit 0 of 0b1001. -/
theorem test_evt_clear : (after (exec (.evtRawClear (.pf 0) 8#32) (s0.setWord 0 hRAW 9#32))).word 0 hRAW = 1#32 := by decide +kernel
/-- R36: EVT_FORCE of two bits counts 2. -/
theorem test_evt_force : (after (exec (.evtForce (.pf 0) 3#32) s0)).fld 0 fSETCOUNT = 2 := by decide +kernel
/-- R47: the timebase keeps the later of two instants. -/
theorem test_time_monotone : (after (exec (.modTimeRead 5#64) { s0 with time := 9 })).time = 9 := by decide +kernel
/-- R126, R122: a counter at its greatest value stays there. -/
theorem test_counter_saturates : ({ s0 with ops := { s0.ops with counters := [(3, 2 ^ 64 - 1)] } } : State).counter 3 = 2 ^ 64 - 1 := by decide +kernel
/-- R368: in GF(2^8) with polynomial 0x11D, 0x80 times 2 is 0x1D. -/
theorem test_gf_double : gfX 0x80 = 0x1D := by decide
/-- R368: an element times its inverse is 1. -/
theorem test_gf_inverse : gfm 0x53 (gfInv 0x53) = 1 := by decide +kernel
/-- R367: with four members, stripe 1 has its data on members 0 and 3, and member 1 owns data in stripes 2 and 3. -/
theorem test_stripes : dataMembers 4 1 = [0, 3] ∧ dataStripes 4 1 = [2, 3] := by decide
/-- R349: CRC-32C of the nine bytes of "123456789" is 0xE3069283 (its published check value). -/
theorem test_crc32c : crc32c [0x31#8, 0x32#8, 0x33#8, 0x34#8, 0x35#8, 0x36#8, 0x37#8, 0x38#8, 0x39#8] = 0xE3069283 := by decide +kernel
/-- R410's example: with T = 10 and FRAME 1,024, block 100,000 lies at 0x2_07E0_0000. -/
theorem test_weight_block : tagFrames 1199723 = 10 ∧ (1024 + tagFrames 1199723) * 0x200000 + 100000 * 65536 = 0x207E00000 := by decide
/-- R409: the region of that example spans 37,502 frames. -/
theorem test_image_frames : imageFrames 1199723 = 37502 := by decide
/-- R401: a value not above the counter is discarded. -/
theorem test_arb_keeps : (after (exec (.arbAdvance 4) { s0 with sec := { s0.sec with arb := [(0, 5)] } })).sec.arb = [(0, 5)] := by decide +kernel

/-! ### Ill-formed commands -/

/-- The check refuses an operand past each of its bounds, and takes one at the bound. -/
theorem test_instance : (Instr.snapshotStart 0 (2 ^ 32)).wf = false ∧ (Instr.snapshotStart 0 (2 ^ 32 - 1)).wf = true ∧
    (Instr.snapshotReceive 0 (2 ^ 32) 0 [] 0).wf = false := by decide
theorem test_heartbeat : (Instr.heartbeatReceive 0 0 [] (some (2 ^ 32)) false 0).wf = false ∧
    (Instr.heartbeatReceive 0 0 (List.replicate 17 ⟨0, 0, 0, 0, 0⟩) none false 0).wf = false ∧
    (Instr.heartbeatReceive 0 0 (List.replicate 16 ⟨0, 0, 0, 0, 0⟩) none false 0).wf = true := by decide
theorem test_step_number : (Instr.stepReissue 0 0 (2 ^ 48) 0).wf = false ∧ (Instr.easelSampleIssue 0 0 (2 ^ 48) 0).wf = false := by decide
theorem test_job : (Instr.samplerDecision (2 ^ 60) 0).wf = false ∧ (Instr.tokenCommit (2 ^ 60) 0).wf = false := by decide
theorem test_slot : (Instr.batchStep 0 0 [65536] 0).wf = false ∧ (Instr.batchStep 0 0 [65535] 0).wf = true := by decide
theorem test_piece : (Instr.pieceRetired (2 ^ 29)).wf = false := by decide
theorem test_digest_length : (Instr.pairingFrame 0 false 0 []).wf = false := by decide
theorem test_frame_seq : (Instr.diptychFrameReceive 65536 true false 0).wf = false ∧
    (Instr.diptychFrameReceive 0 true false 65536).wf = false := by decide
theorem test_march_address : (Instr.marchDone 0 [2 ^ 41]).wf = false := by decide
theorem test_media_block : (Instr.frescoRead [2 ^ 32]).wf = false ∧ (Instr.weightLoadComplete [2 ^ 32] 0).wf = false := by decide
theorem test_host_line : (Instr.hostCompletion 0 (2 ^ 58) .error).wf = false ∧ (Instr.hostCompletion 0 0 (.data [])).wf = false ∧
    (Instr.hostCompletion 0 0 (.poisoned [])).wf = false ∧ (Instr.hostCompletionTimeout (2 ^ 58)).wf = false := by decide
theorem test_key_exchange : (Instr.keyExchange [] 0).wf = false := by decide
theorem test_flit_length : (Instr.dataFlitReceive 0 [] 0).wf = false := by decide
/-- A payload longer than a frame's length field can say. -/
theorem long_payload (b : List Byte) (h : b.length = 65536) : isPayload b = false := by unfold isPayload; rw [h]; rfl
/-- It is refused in each of its four forms. -/
theorem test_payload_length (b : List Byte) (h : b.length = 65536) : (Instr.rawPacket 0 b 0).wf = false ∧
    (Instr.gvspPacket 0 0 0 false (.payload 0 0 b) 0).wf = false ∧ (Instr.rtpPacket 0 0 0 ⟨0, 0, false, b⟩ 0).wf = false ∧
    (Instr.ethernetFrame 0 0 true 0 (.raw b) 0).wf = false :=
  ⟨long_payload b h, long_payload b h, long_payload b h, long_payload b h⟩
theorem test_image_length (b : List Byte) (h : b.length = 536870913) : (Instr.transferComplete b true).wf = false := by
  show decide (b.length ≤ 536870912) = false; rw [h]; rfl
/-- Such payloads and images there are. -/
theorem witness_long (n : Nat) : ∃ b : List Byte, b.length = n := ⟨List.replicate n 0, List.length_replicate⟩

end Sys2Proof.Tests
end

/-! Proofs: register pages (02). A discarded write, an offset that no register occupies, the TNT mirror, and BLK_CTRL writes out of turn. -/

namespace Sys2Proof.Machine

open Sys2Proof

variable {s : State}

/-! ### Events and discarded writes (R36, R470) -/

/-- A write is discarded in a page: WRITE_DISCARDED is set and counted there, and no other register changes. -/
def Discarded (page : Nat) (s t : State) : Prop :=
  Raised page evWRITE_DISCARDED s t ∧ WordsBut [(page, hRAW), (page, hSETCOUNT)] s t

/-- A bit of a word, in the library's terms. -/
theorem bitOf_eq_getLsbD (v : Word) (b : Nat) : bitOf v b = v.getLsbD b := by
  simp [bitOf, BitVec.getLsbD, Nat.testBit_eq_decide_div_mod_eq, BEq.beq]

theorem irq_regs (page : Nat) : (s.irq page).regs = s.regs := by
  unfold State.irq
  split
  · rfl
  · split <;> rfl

theorem word_event_raw (page bit : Nat) : (s.event page bit).word page hRAW = s.word page hRAW ||| BitVec.ofNat 32 (2 ^ bit) := by
  unfold State.event
  rw [word_of_regs (irq_regs page), word_setFld_ne _ (by simp [hRAW, fSETCOUNT]), word_setWord_self]

theorem fld_event_setcount (page bit : Nat) : (s.event page bit).fld page fSETCOUNT = (s.fld page fSETCOUNT + 1) % 256 := by
  unfold State.event
  rw [fld_of_regs (irq_regs page), fld_setFld_self _ _ _ (by decide) (by decide), fld_setWord_ne _ (by simp [hRAW, fSETCOUNT])]
  rfl

theorem raised_event (page : Nat) {bit : Nat} (h : bit < 32) : Raised page bit s (s.event page bit) := by
  refine ⟨?_, fld_event_setcount page bit⟩
  rw [word_event_raw, bitOf_eq_getLsbD, BitVec.getLsbD_or, BitVec.getLsbD_ofNat, Nat.testBit_two_pow_self]
  simp [h]

theorem wordsBut_event (page bit : Nat) : WordsBut [(page, hRAW), (page, hSETCOUNT)] s (s.event page bit) := by
  intro p w hw hp
  simp only [List.mem_cons, Prod.mk.injEq, List.not_mem_nil, or_false, not_or, hRAW, hSETCOUNT] at hp
  exact word_event_ne (by omega) (by omega)

theorem discarded_discard (page : Nat) : Discarded page s (s.discard page) :=
  ⟨raised_event page (by decide), wordsBut_event page _⟩

/-- Only the registers before the write count. -/
theorem Discarded.of_regs {page : Nat} {r t : State} (h : Discarded page r t) (hr : r.regs = s.regs) : Discarded page s t := by
  obtain ⟨⟨hbit, hcount⟩, hwords⟩ := h
  exact ⟨⟨hbit, hcount.trans (by rw [fld_of_regs hr])⟩, fun p w hw hp => (hwords p w hw hp).trans (word_of_regs hr p w)⟩

theorem wordsBut_of_regs {t : State} (h : t.regs = s.regs) (l : List (Nat × Nat)) : WordsBut l s t := fun p w _ _ => word_of_regs h p w

/-! ### Accesses (R26, R28) -/

section Access

variable {a : Acc} {v : Word} {f : Nat → State → State}

theorem access_takes (h : s.takes a) : s.access a v f = f (accPage a) s := by
  obtain ⟨hreach, hpage, hwrite⟩ := h
  simp [State.access, hreach, hpage, hwrite]

theorem access_readOnly (hreach : s.reaches (accFn a) = true) (hpage : pageExists (accPage a) = true) (hwrite : accWrites a = false) :
    s.access a v f = s.discard (accPage a) := by
  simp [State.access, hreach, hpage, hwrite]

theorem access_noPage (hreach : s.reaches (accFn a) = true) (hpage : pageExists (accPage a) = false) :
    s.access a v f = s.unmappedWrite v.toNat := by
  simp [State.access, hreach, hpage]

end Access

/-- A page that a block occupies lies below the end of the TNT mirror. -/
theorem lt_of_pageExists {page : Nat} (h : pageExists page = true) : page < 0xE00 := by
  simp only [pageExists, Bool.and_eq_true, decide_eq_true_eq] at h
  exact h.1

/-- The owner may not write a page of the TNT mirror (R28). -/
theorem accWrites_mirror {p : Fin 4096} (hp : 0xC00 ≤ p.val) (h : pageExists p.val = true) : accWrites (.pf p) = false := by
  simp [accWrites, hp, lt_of_pageExists h]

/-- Every command by which the owner writes a header register, and every REGISTER_WRITE, is an access to its page. -/
theorem exec_ownerWrite {p : Fin 4096} {c : Instr} {w : RegWrite} {v : Word} {x y : Bool}
    (h : c ∈ [.registerWrite (.pf p) w, .enable (.pf p), .disable (.pf p), .quiesce (.pf p), .quiesceClear (.pf p), .softReset (.pf p),
      .lockPage (.pf p), .evtRawClear (.pf p) v, .evtForce (.pf p) v, .errStatusClear (.pf p) x y, .clrCounts (.pf p), .ledgerSnapshot (.pf p) v,
      .pwrReqDoze (.pf p), .pwrReqActive (.pf p), .clkSelWrite (.pf p) v]) :
    ∃ u f, exec c s = .next (s.access (.pf p) u f) := by
  simp only [List.mem_cons, List.not_mem_nil, or_false] at h
  rcases h with rfl | rfl | rfl | rfl | rfl | rfl | rfl | rfl | rfl | rfl | rfl | rfl | rfl | rfl | rfl
  case inl => cases w <;> exact ⟨_, _, rfl⟩
  all_goals exact ⟨_, _, rfl⟩

/-- Settles O53: whatever the owner writes to a mirror page is an access that may not write it. -/
theorem theTenantMirrorIsReadOnly : Obligations.TheTenantMirrorIsReadOnly := by
  unfold Obligations.TheTenantMirrorIsReadOnly
  intro p c w v x y s hreach hp hpage hc
  obtain ⟨u, f, hexec⟩ := exec_ownerWrite (s := s) hc
  rw [access_readOnly (a := .pf p) hreach hpage (accWrites_mirror hp hpage)] at hexec
  exact ⟨_, hexec, discarded_discard p.val⟩

/-! ### Offsets that no register occupies (R26)

A rule of a page for some of its registers never meets an offset that no register occupies. -/

section Unoccupied

variable {k : PageKind} {page w : Nat} {v : Word}

theorem ne_of_unoccupied (h : regRow k w = none) (r : Nat) (hr : (regRow k r).isSome = true) : w ≠ r := by
  rintro rfl
  simp [h] at hr

theorem idxOf_of_unoccupied (h : regRow k w = none) (n : Nat) (r : Nat → Nat) (hr : ∀ i < n, (regRow k (r i)).isSome = true) :
    idxOf n r w = none := by
  simp only [idxOf, List.find?_eq_none, List.mem_range, beq_iff_eq]
  exact fun i hi => (ne_of_unoccupied h (r i) (hr i hi)).symm

theorem outside_of_unoccupied (h : regRow k w = none) (lo hi : Nat) (hr : ∀ i < hi - lo, (regRow k (lo + i)).isSome = true) :
    ¬(lo ≤ w ∧ w < hi) := by
  rintro ⟨hlo, hhi⟩
  exact ne_of_unoccupied h (lo + (w - lo)) (hr (w - lo) (by omega)) (by omega)

theorem modWrite_of_unoccupied (h : regRow .mod w = none) : s.modWrite w v = s.storeReg pgMOD w v := by
  rw [State.modWrite, if_neg (ne_of_unoccupied h r_MOD_PD_REQ0 (by decide)), if_neg (ne_of_unoccupied h r_MOD_PD_REQ1 (by decide)),
    if_neg (ne_of_unoccupied h r_MOD_RESET (by decide))]

theorem fltWrite_of_unoccupied (h : regRow .flt w = none) : s.fltWrite w v = s.storeReg pgFLT w v := by
  rw [State.fltWrite, if_neg (ne_of_unoccupied h r_FLT_GRACE (by decide)), if_neg (ne_of_unoccupied h r_FLT_QUIET (by decide)),
    if_neg (ne_of_unoccupied h r_FLT_ACK (by decide)), if_neg (ne_of_unoccupied h r_FLT_INJECT (by decide))]

theorem cadWrite_of_unoccupied (h : regRow .cadDom w = none) : s.cadWrite page w v = s.storeReg page w v := by
  simp only [State.cadWrite, idxOf_of_unoccupied h 4 r_CAD_EPT_DATA (by decide), ne_of_unoccupied h r_CAD_EPT_COMMIT (by decide), if_false]

theorem varWrite_of_unoccupied (h : regRow .var0 w = none) : s.varWrite w v = s.storeReg pgVAR0 w v := by
  rw [State.varWrite, if_neg (outside_of_unoccupied h 0x100 0x180 (by decide +kernel))]

theorem tenWrite_of_unoccupied (h : regRow .hifTen w = none) : s.tenWrite w v = s.storeReg pgTEN w v := by
  have hsel : ¬(r_HIF_TEN_STATE ≤ w ∧ w ≤ r_HIF_TEN_QUIET) := fun hw =>
    outside_of_unoccupied h r_HIF_TEN_STATE (r_HIF_TEN_QUIET + 1) (by decide) ⟨hw.1, Nat.lt_succ_of_le hw.2⟩
  simp only [State.tenWrite, ne_of_unoccupied h r_HIF_TEN_CMD (by decide), hsel, if_false]

theorem setWrite_of_unoccupied (hw : 64 ≤ w) (h : regRow .hifSet w = none) : s.setWrite w v = s.storeReg pgSET w v := by
  simp [State.setWrite, rsvOf, Nat.not_lt.2 hw, h]

theorem secWrite_of_unoccupied (h : regRow .sec w = none) : s.secWrite w v = s.storeReg pgSEC w v := by
  simp only [State.secWrite, ne_of_unoccupied h r_SEC_LC_CMD (by decide), ne_of_unoccupied h r_SEC_ARB_CMD (by decide),
    ne_of_unoccupied h r_SEC_KEY_CMD (by decide), ne_of_unoccupied h r_SEC_WR_CMD (by decide), ne_of_unoccupied h r_SEC_WR_SRC (by decide),
    ne_of_unoccupied h r_SEC_WR_CFG (by decide), ne_of_unoccupied h r_SEC_WR_FRAME (by decide),
    idxOf_of_unoccupied h 24 r_SEC_TOKEN (by decide), or_self, if_false, Option.isSome_none, Bool.false_eq_true]

theorem mmuWrite_of_unoccupied (h : regRow .mmu w = none) : s.mmuWrite w v = s.storeReg pgMMU w v := by
  rw [State.mmuWrite, if_neg (ne_of_unoccupied h r_MMU_CMD (by decide))]

theorem synWrite_of_unoccupied (h : regRow .syn w = none) : s.synWrite pgSYN w v = s.storeReg pgSYN w v := by
  simp [State.synWrite, ne_of_unoccupied h r_SYN_ADD_LO (by decide), ne_of_unoccupied h r_SYN_ADD_HI (by decide),
    ne_of_unoccupied h r_SYN_SEL (by decide), idxOf_of_unoccupied h 33 r_SYN_ALLOC (by decide)]

theorem synTWrite_of_unoccupied (hp : page ≠ pgSYN) (h : regRow .synT w = none) : s.synWrite page w v = s.storeReg page w v := by
  simp [State.synWrite, hp, ne_of_unoccupied h r_SYN_T_ADD_LO (by decide), ne_of_unoccupied h r_SYN_T_ADD_HI (by decide),
    ne_of_unoccupied h r_SYN_T_SEL (by decide)]

theorem stuWrite_of_unoccupied (h : regRow .stu w = none) : s.tierWrite 0 w v = s.storeReg pgSTU w v := by
  simp [State.tierWrite, tierPage, ne_of_unoccupied h r_HBM_MARCH_CMD (by decide), ne_of_unoccupied h r_STU_SCRUB (by decide),
    idxOf_of_unoccupied h 32 r_STU_BANK (by decide)]

theorem hbmWrite_of_unoccupied (h : regRow .hbm w = none) : s.tierWrite 1 w v = s.storeReg pgHBM w v := by
  simp [State.tierWrite, tierPage, ne_of_unoccupied h r_HBM_MARCH_CMD (by decide), ne_of_unoccupied h r_HBM_SCRUB (by decide)]

theorem lftWrite_of_unoccupied (h : regRow .lft w = none) : s.tierWrite 2 w v = s.storeReg pgLFT w v := by
  simp [State.tierWrite, tierPage, ne_of_unoccupied h r_HBM_MARCH_CMD (by decide), ne_of_unoccupied h r_LFT_SCRUB (by decide)]

theorem frsWriteReg_of_unoccupied (hw : 64 ≤ w) (h : regRow .frs w = none) : s.frsWriteReg w v = s.storeReg pgFRS w v := by
  have hpart : ¬w < r_FRS_PART 5 := fun hlt => outside_of_unoccupied h 64 (r_FRS_PART 5) (by decide) ⟨hw, hlt⟩
  rw [State.frsWriteReg, if_neg (ne_of_unoccupied h r_FRS_RING_TAIL (by decide)), if_neg hpart]

theorem glzWrite_of_unoccupied (h : regRow .glz w = none) : s.glzWrite w v = s.storeReg pgGLZ w v := by
  simp only [State.glzWrite, idxOf_of_unoccupied h 33 r_GLZ_QUOTA_HBM (by decide), idxOf_of_unoccupied h 33 r_GLZ_QUOTA_LOFT (by decide),
    Option.or_none]

theorem smpWrite_of_unoccupied (h : regRow .smp w = none) : s.smpWrite w v = s.storeReg pgSMP w v := by
  simp only [State.smpWrite, idxOf_of_unoccupied h 33 r_SMP_SERVE (by decide), idxOf_of_unoccupied h 3 r_SMP_DOM_KEY (by decide),
    ne_of_unoccupied h (r_SMP_DOM_KEY 3) (by decide), ne_of_unoccupied h r_SMP_DOM_CTRL (by decide),
    ne_of_unoccupied h r_SMP_DOM_MEMBERS_LO (by decide), ne_of_unoccupied h r_SMP_DOM_MEMBERS_HI (by decide), or_self, if_false]

theorem vceWrite_of_unoccupied (h : regRow .vce w = none) : s.vceWrite page w v = s.storeReg page w v := by
  have hslot : pdSlot w = none := if_neg (outside_of_unoccupied h (r_VCE_PDEST_DESC_LO 0) (r_VCE_PDEST_DESC_LO 16) (by decide))
  simp only [State.vceWrite, idxOf_of_unoccupied h 33 r_VCE_QUOTA (by decide), hslot, ne_of_unoccupied h r_VCE_PDEST_CMD (by decide), if_false]

theorem ingWriteReg_of_unoccupied (h : regRow .ing w = none) : s.ingWriteReg w v = s.storeReg pgING w v := by
  have hstr : ¬(r_ING_STR_FORMAT ≤ w ∧ w ≤ r_ING_STR_CNT_BAD) := fun hw =>
    outside_of_unoccupied h r_ING_STR_FORMAT (r_ING_STR_CNT_BAD + 1) (by decide) ⟨hw.1, Nat.lt_succ_of_le hw.2⟩
  rw [State.ingWriteReg, if_neg (ne_of_unoccupied h r_ING_STR_CMD (by decide)), if_neg hstr]

theorem portWrite_of_unoccupied (h : regRow .murPort w = none) : s.portWrite page w v = s.storeReg page w v := by
  simp only [State.portWrite, ne_of_unoccupied h r_MUR_PORT_CTRL (by decide), ne_of_unoccupied h r_MUR_PORT_TEST (by decide), if_false]

theorem rtWrite_of_unoccupied (h : regRow .murRt w = none) : s.rtWrite w v = s.storeReg pgRT w v := by
  rw [State.rtWrite, if_neg (ne_of_unoccupied h r_MUR_RT_DATA (by decide)), if_neg (ne_of_unoccupied h r_MUR_RT_COMMIT (by decide))]

theorem jobWriteReg_of_unoccupied (h : regRow .murJob w = none) : s.jobWriteReg w v = s.storeReg pgJOB w v := by
  have hjob : ¬(r_MUR_JOB_CFG ≤ w ∧ w ≤ r_MUR_JOB_EC_SIGNAL) := fun hw =>
    outside_of_unoccupied h r_MUR_JOB_CFG (r_MUR_JOB_EC_SIGNAL + 1) (by decide) ⟨hw.1, Nat.lt_succ_of_le hw.2⟩
  rw [State.jobWriteReg, if_neg hjob, if_neg (ne_of_unoccupied h r_MUR_JOB_MEMBER (by decide)),
    if_neg (ne_of_unoccupied h r_MUR_JOB_CMD (by decide))]

theorem mgtWrite_of_unoccupied (h : regRow .mgt w = none) : s.mgtWrite w v = s.storeReg pgMGT w v := by
  simp only [State.mgtWrite, idxOf_of_unoccupied h 4 r_MGT_I2C_CTRL (by decide), ne_of_unoccupied h r_MGT_POWER_CAP (by decide),
    ne_of_unoccupied h r_MGT_OUT_LEVEL (by decide), if_false]

theorem ringWrite_of_unoccupied (t : Nat) (h : regRow .ringCfg w = none) : s.ringWrite t page w v = s.storeReg page w v := by
  have hcfg : ∀ i < 32, (regRow .ringCfg (r_RING_CFG i)).isSome = true := by decide
  have hlo : ∀ i < 32, (regRow .ringCfg (r_RING_BASE_LO i)).isSome = true := by decide
  have hhi : ∀ i < 32, (regRow .ringCfg (r_RING_BASE_HI i)).isSome = true := by decide
  have htime : ∀ i < 32, (regRow .ringCfg (r_RING_TIMEOUT i)).isSome = true := by decide
  unfold State.ringWrite
  extract_lets i r
  by_cases hi : 32 ≤ i
  · rw [if_pos hi]
  · have hlt : i < 32 := by omega
    simp only [hi, ne_of_unoccupied h _ (hcfg i hlt), ne_of_unoccupied h _ (hlo i hlt), ne_of_unoccupied h _ (hhi i hlt),
      ne_of_unoccupied h _ (htime i hlt), if_false, or_self, false_and]

theorem cqWrite_of_unoccupied (t : Nat) (hw : 64 ≤ w) (h : regRow .cqPage w = none) : s.cqWrite t page w v = s.storeReg page w v := by
  have hbeyond : 0x140 ≤ w := Nat.le_of_not_lt fun hlt => outside_of_unoccupied h 64 0x140 (by decide +kernel) ⟨hw, hlt⟩
  simp only [State.cqWrite, hbeyond, if_true]

theorem smpTWrite_of_unoccupied (t : Nat) (h : regRow .smpT w = none) : s.smpTWrite t page w v = s.storeReg page w v := by
  simp only [State.smpTWrite, idxOf_of_unoccupied h 16 r_SMP_T_RING_PTR (by decide)]

theorem tntWrite_of_unoccupied (t : Nat) (h : regRow .tnt w = none) : s.tntWrite t page w v = s.storeReg page w v := by
  rw [State.tntWrite, if_neg (fun hw => ne_of_unoccupied h r_TNT_EVT (by decide) hw.1)]

/-- The one page of a kind that the writes of its block name by its number. -/
def solePage : PageKind → Option Nat
  | .mod => some pgMOD | .flt => some pgFLT | .var0 => some pgVAR0 | .hifTen => some pgTEN | .hifSet => some pgSET | .sec => some pgSEC
  | .mmu => some pgMMU | .syn => some pgSYN | .stu => some pgSTU | .hbm => some pgHBM | .lft => some pgLFT | .frs => some pgFRS
  | .glz => some pgGLZ | .smp => some pgSMP | .ing => some pgING | .murRt => some pgRT | .murJob => some pgJOB | .mgt => some pgMGT
  | _ => none

theorem solePage_tenantPageKind (n : Nat) : solePage (tenantPageKind n) = none := by
  unfold tenantPageKind
  split <;> rfl

/-- A page is the one that its kind names, if its kind names one. -/
def SoleAt (page : Nat) (k : PageKind) : Prop := ∀ q, solePage k = some q → page = q

theorem SoleAt.ite {c : Prop} [Decidable c] {k' : PageKind} (hthen : c → SoleAt page k) (helse : SoleAt page k') :
    SoleAt page (if c then k else k') := by
  split
  · next hc => exact hthen hc
  · exact helse

theorem soleAt_blockPageKind : SoleAt page (blockPageKind page) := by
  unfold blockPageKind
  repeat' refine SoleAt.ite (fun hc => ?_) ?_
  all_goals intro q h
  all_goals
    simp only [↓solePage_tenantPageKind, solePage, Option.some.injEq, reduceCtorEq, pgMOD, pgFLT, pgVAR0, pgTEN, pgSET, pgSEC, pgMMU, pgSYN, pgSTU,
      pgHBM, pgLFT, pgFRS, pgGLZ, pgSMP, pgING, pgRT, pgJOB, pgMGT] at h
  all_goals omega

theorem eq_of_solePage {q : Nat} (hp : pageExists page = true) (hk : pageKind page = k) (h : solePage k = some q) : page = q := by
  have hlt := lt_of_pageExists hp
  rw [← hk, pageKind] at h
  by_cases hblock : page < 0xC00
  · rw [if_pos hblock] at h
    exact soleAt_blockPageKind q h
  · rw [if_neg hblock, if_pos hlt, solePage_tenantPageKind] at h
    cases h

theorem blockWrite_of_unoccupied (hp : pageExists page = true) (hw : 64 ≤ w) (h : regRow (pageKind page) w = none) :
    s.blockWrite page w v = s.storeReg page w v := by
  unfold State.blockWrite
  extract_lets t
  clear_value t
  split <;> rename_i hk
  · exact eq_of_solePage hp hk rfl ▸ modWrite_of_unoccupied (hk ▸ h)
  · exact eq_of_solePage hp hk rfl ▸ fltWrite_of_unoccupied (hk ▸ h)
  · exact cadWrite_of_unoccupied (hk ▸ h)
  · exact eq_of_solePage hp hk rfl ▸ varWrite_of_unoccupied (hk ▸ h)
  · exact if_neg (ne_of_unoccupied (hk ▸ h) r_VAR_DIP_CMD (by decide))
  · exact eq_of_solePage hp hk rfl ▸ tenWrite_of_unoccupied (hk ▸ h)
  · exact eq_of_solePage hp hk rfl ▸ setWrite_of_unoccupied hw (hk ▸ h)
  · exact eq_of_solePage hp hk rfl ▸ secWrite_of_unoccupied (hk ▸ h)
  · exact eq_of_solePage hp hk rfl ▸ mmuWrite_of_unoccupied (hk ▸ h)
  · exact eq_of_solePage hp hk rfl ▸ synWrite_of_unoccupied (hk ▸ h)
  · exact synTWrite_of_unoccupied (by rintro rfl; cases hk) (hk ▸ h)
  · exact eq_of_solePage hp hk rfl ▸ stuWrite_of_unoccupied (hk ▸ h)
  · exact eq_of_solePage hp hk rfl ▸ hbmWrite_of_unoccupied (hk ▸ h)
  · exact eq_of_solePage hp hk rfl ▸ lftWrite_of_unoccupied (hk ▸ h)
  · exact eq_of_solePage hp hk rfl ▸ frsWriteReg_of_unoccupied hw (hk ▸ h)
  · exact eq_of_solePage hp hk rfl ▸ glzWrite_of_unoccupied (hk ▸ h)
  · exact eq_of_solePage hp hk rfl ▸ smpWrite_of_unoccupied (hk ▸ h)
  · exact vceWrite_of_unoccupied (hk ▸ h)
  · exact eq_of_solePage hp hk rfl ▸ ingWriteReg_of_unoccupied (hk ▸ h)
  · exact portWrite_of_unoccupied (hk ▸ h)
  · exact eq_of_solePage hp hk rfl ▸ rtWrite_of_unoccupied (hk ▸ h)
  · exact eq_of_solePage hp hk rfl ▸ jobWriteReg_of_unoccupied (hk ▸ h)
  · exact eq_of_solePage hp hk rfl ▸ mgtWrite_of_unoccupied (hk ▸ h)
  · exact if_neg (ne_of_unoccupied (hk ▸ h) r_CNV_RETIRE (by decide))
  · exact if_neg (ne_of_unoccupied (hk ▸ h) r_PNL_RETIRE (by decide))
  · exact tntWrite_of_unoccupied t (hk ▸ h)
  · exact ringWrite_of_unoccupied t (hk ▸ h)
  · exact if_neg (outside_of_unoccupied (hk ▸ h) 0x40 0x80 (by decide))
  · exact cqWrite_of_unoccupied t hw (hk ▸ h)
  · exact smpTWrite_of_unoccupied t (hk ▸ h)
  · rfl

theorem storeReg_of_unoccupied (h : regRow (pageKind page) w = none) :
    s.storeReg page w v = if v = 0#32 then s else s.discard page := by
  rw [State.storeReg, State.storeAt, h]

/-- The header registers with a rule of their own lie at offsets that a register occupies. -/
theorem headerRsv_isSome (k : PageKind) :
    ∀ r ∈ [hCTRL, hRAW, hENA, 7, hERR, hLSEL, hPWRREQ, hCLKSEL], (headerRsv k r).isSome = true := by
  simp [headerRsv, hCTRL, hRAW, hENA, hERR, hLSEL, hPWRREQ, hCLKSEL]

theorem headerWrite_of_unoccupied (h : headerRsv (pageKind page) w = none) :
    s.headerWrite page w v = if v = 0#32 then s else s.discard page := by
  have hne : ∀ r ∈ [hCTRL, hRAW, hENA, 7, hERR, hLSEL, hPWRREQ, hCLKSEL], w ≠ r := by
    rintro r hr rfl
    simpa [h] using headerRsv_isSome (pageKind page) w hr
  simp only [List.mem_cons, List.not_mem_nil, or_false, forall_eq_or_imp, forall_eq] at hne
  obtain ⟨hctrl, hraw, hena, hforce, herr, hlsel, hpwr, hclk⟩ := hne
  simp only [State.headerWrite, hctrl, hraw, hena, hforce, herr, hlsel, hpwr, hclk, h, if_false]

theorem pageWrite_of_unoccupied (hp : pageExists page = true) (h : rsvOf (pageKind page) w = none) :
    s.pageWrite page w v = if v = 0#32 then s else s.discard page := by
  unfold rsvOf at h
  by_cases hw : w < 64
  · rw [if_pos hw, Option.map_eq_none_iff] at h
    rw [State.pageWrite, if_pos hw, headerWrite_of_unoccupied h]
  · rw [if_neg hw, Option.map_eq_none_iff] at h
    rw [State.pageWrite, if_neg hw, blockWrite_of_unoccupied hp (Nat.le_of_not_lt hw) h, storeReg_of_unoccupied h]

end Unoccupied

theorem exec_registerWrite_word (a : Acc) (w : Fin 1024) (v : Word) :
    exec (.registerWrite a (.word w v)) s = .next (s.access a v (fun page s1 => s1.pageWrite page w.val v)) := rfl

theorem view_unoccupied {page w : Nat} (h : pageExists page = false ∨ rsvOf (pageKind page) w = none) : s.view page w = 0#32 := by
  unfold State.view
  rw [if_pos]
  rcases h with h | h <;> simp [h]

theorem unmappedWrite_zero : s.unmappedWrite (0#32 : Word).toNat = s := rfl

theorem unmappedWrite_of_ne_zero {v : Word} (hv : v ≠ 0#32) : s.unmappedWrite v.toNat = s.countUp pgHIF0 r_HIF_CNT_UNMAPPED 1 :=
  if_neg fun h => hv (BitVec.eq_of_toNat_eq h)

/-- The count saturates (R26). -/
theorem word_countUp_self (page w n : Nat) : ((s.countUp page w n).word page w).toNat = min ((s.word page w).toNat + n) 0xFFFFFFFF := by
  unfold State.countUp
  rw [word_setWord_self, BitVec.toNat_ofNat]
  omega

theorem wordsBut_setWord (page w : Nat) (v : Word) (hw : w < 1024) : WordsBut [(page, w)] s (s.setWord page w v) := by
  intro p' w' hw' hp
  simp only [List.mem_singleton, Prod.mk.injEq] at hp
  exact word_setWord_ne _ (by omega)

/-- Settles O1: at an offset that no register occupies every write of a page comes down to the plain store, which discards it; where no
block occupies the page, the Host Interface counts it. -/
theorem unoccupiedOffsetsReadZeroAndIgnoreWrites : Obligations.UnoccupiedOffsetsReadZeroAndIgnoreWrites := by
  unfold Obligations.UnoccupiedOffsetsReadZeroAndIgnoreWrites
  refine ⟨fun page w s h => view_unoccupied h, fun a w v s hreach hpage hrsv hv => ?_, fun a w s htakes hrsv => ?_,
    fun a w v s hreach hpage hv => ?_, fun a w s hreach hpage => ?_⟩
  · refine ⟨s.discard (accPage a), ?_, discarded_discard (accPage a)⟩
    rw [exec_registerWrite_word]
    by_cases hwrite : accWrites a = true
    · rw [access_takes ⟨hreach, hpage, hwrite⟩, pageWrite_of_unoccupied hpage hrsv, if_neg hv]
    · rw [access_readOnly hreach hpage (Bool.not_eq_true _ ▸ hwrite)]
  · obtain ⟨hreach, hpage, hwrite⟩ := htakes
    rw [exec_registerWrite_word, access_takes ⟨hreach, hpage, hwrite⟩, pageWrite_of_unoccupied hpage hrsv, if_pos rfl]
  · refine ⟨s.countUp pgHIF0 r_HIF_CNT_UNMAPPED 1, ?_, word_countUp_self _ _ _, wordsBut_setWord _ _ _ (by decide)⟩
    rw [exec_registerWrite_word, access_noPage hreach hpage, unmappedWrite_of_ne_zero hv]
  · rw [exec_registerWrite_word, access_noPage hreach hpage, unmappedWrite_zero]

/-! ### BLK_CTRL (R30, R32, R35, R339) -/

/-- A BLK_CTRL value, of its fields ENABLE, QUIESCE, SOFT_RESET and LOCK (R32). -/
def ctrlWord (enable quiesce reset lock : Bool) : Word :=
  BitVec.ofNat 32 (enable.toNat + 2 * quiesce.toNat + 4 * reset.toNat + 8 * lock.toNat)

theorem bitOf_ctrlWord : ∀ e q r l : Bool, bitOf (ctrlWord e q r l) 0 = e ∧ bitOf (ctrlWord e q r l) 1 = q ∧
    bitOf (ctrlWord e q r l) 2 = r ∧ bitOf (ctrlWord e q r l) 3 = l := by decide

theorem rsvClear_ctrlWord (page : Nat) (e q r l : Bool) : RsvClear page hCTRL (ctrlWord e q r l) := by
  have hclear : ∀ e q r l : Bool, ((ctrlWord e q r l).toNat &&& 0xFFFFFFF0 == 0) = true := by decide
  exact hclear e q r l

/-- A one-bit field is a flag. -/
theorem fld_eq_toNat (page : Nat) {f : Fld} (h : f.msb = f.lsb) : ∃ b : Bool, s.fld page f = b.toNat := by
  have hlt : s.fld page f < 2 := by
    simpa [State.fld, fldGet, h] using Nat.mod_lt ((s.word page f.word).toNat / 2 ^ f.lsb) (by decide : 2 > 0)
  exact ⟨s.fld page f == 1, by interval_cases s.fld page f <;> rfl⟩

/-- A command of BLK_CTRL writes back the ENABLE and QUIESCE bits that it reads, changed as the command says. -/
theorem ctrlBit_of_takes {a : Acc} (h : s.takes a) (f : Nat → Nat) :
    ∃ e q : Bool, s.fld (accPage a) fENABLE = e.toNat ∧ s.fld (accPage a) fQUIESCE = q.toNat ∧
      s.ctrlBit a f = s.ctrlWrite (accPage a) (BitVec.ofNat 32 (f (e.toNat + 2 * q.toNat))) := by
  obtain ⟨e, he⟩ := fld_eq_toNat (s := s) (accPage a) (f := fENABLE) rfl
  obtain ⟨q, hq⟩ := fld_eq_toNat (s := s) (accPage a) (f := fQUIESCE) rfl
  exact ⟨e, q, he, hq, by rw [State.ctrlBit, access_takes h, State.ctrlOf, he, hq]⟩

theorem exec_disable {a : Acc} (h : s.takes a) : ∃ q, exec (.disable a) s = .next (s.ctrlWrite (accPage a) (ctrlWord false q false false)) := by
  obtain ⟨e, q, -, -, hbit⟩ := ctrlBit_of_takes h (fun c => c / 2 * 2)
  refine ⟨q, congrArg _ (hbit.trans (congrArg _ ?_))⟩
  cases e <;> cases q <;> rfl

theorem exec_softReset {a : Acc} (h : s.takes a) : ∃ e q, s.fld (accPage a) fENABLE = e.toNat ∧ s.fld (accPage a) fQUIESCE = q.toNat ∧
    exec (.softReset a) s = .next (s.ctrlWrite (accPage a) (ctrlWord e q true false)) := by
  obtain ⟨e, q, he, hq, hbit⟩ := ctrlBit_of_takes h (fun c => c ||| 4)
  refine ⟨e, q, he, hq, congrArg _ (hbit.trans (congrArg _ ?_))⟩
  cases e <;> cases q <;> rfl

theorem exec_lockPage {a : Acc} (h : s.takes a) : ∃ e q, s.fld (accPage a) fENABLE = e.toNat ∧ s.fld (accPage a) fQUIESCE = q.toNat ∧
    exec (.lockPage a) s = .next (s.ctrlWrite (accPage a) (ctrlWord e q false true)) := by
  obtain ⟨e, q, he, hq, hbit⟩ := ctrlBit_of_takes h (fun c => c ||| 8)
  refine ⟨e, q, he, hq, congrArg _ (hbit.trans (congrArg _ ?_))⟩
  cases e <;> cases q <;> rfl

/-- A value whose reserved bits are 0 changes nothing but the note of it (R37). -/
theorem noteRsv_of_rsvClear {page w : Nat} {v : Word} (h : RsvClear page w v) : ∃ x, s.noteRsv page w v = { s with rsv := x } := by
  unfold State.noteRsv
  unfold RsvClear at h
  split
  · exact ⟨s.rsv, rfl⟩
  · next m checked hm =>
    have hv : v.toNat &&& m = 0 := by simpa [hm] using h
    exact ⟨_, by simp [hv]; rfl⟩

section Ctrl

variable {page : Nat} {e q r l : Bool}

/-- A page without a BLK_CTRL of its own takes no write of it (R30, R339). -/
theorem ctrlWrite_noCtrl (h : pageKind page = .tnt ∨ pageKind page = .hifSet) :
    (s.ctrlWrite page (ctrlWord e q r l)).regs = s.regs := by
  obtain ⟨x, hx⟩ := noteRsv_of_rsvClear (s := s) (rsvClear_ctrlWord page e q r l)
  simp only [State.ctrlWrite, if_pos h, hx]

/-- On any other page of which LOCK is not to be set, a write of BLK_CTRL is a SOFT_RESET, is discarded because the page's state is fixed, or
is a write of QUIESCE or of ENABLE. -/
theorem ctrlWrite_noLock (htnt : pageKind page ≠ .tnt) (hset : pageKind page ≠ .hifSet) (hl : l = false ∨ (tenantOfPage page).isSome = true) :
    ∃ x, s.ctrlWrite page (ctrlWord e q r l) =
      let s1 : State := { s with rsv := x }
      if r && !(tenantOfPage page).isSome && !fixedPage page then s1.softReset page
      else if fixedPage page then s1.discard page
      else if e = (s.fld page fENABLE == 1) then s1.quiesceWrite page q
      else s1.enableWrite page e q := by
  obtain ⟨x, hx⟩ := noteRsv_of_rsvClear (s := s) (rsvClear_ctrlWord page e q r l)
  obtain ⟨he, hq, hr, hlock⟩ := bitOf_ctrlWord e q r l
  have hnolock : (l && !(tenantOfPage page).isSome) = false := by rcases hl with h | h <;> simp [h]
  refine ⟨x, ?_⟩
  simp only [State.ctrlWrite, htnt, hset, or_self, if_false, hx, he, hq, hr, hlock, hnolock, Bool.false_and, Bool.false_eq_true, beq_iff_eq]
  rfl

theorem softReset_outOfTurn (hoff : s.st page ≠ stOFF) (hrefused : s.st page ≠ stREFUSED) (hfenced : s.st page ≠ stFENCED)
    (hfatal : s.st page = stFAULT → smGet false s.flt.fatal page = true) : s.softReset page = s.discard page := by
  refine if_neg ?_
  rintro (h | h | h | ⟨hfault, hnot⟩)
  · exact hoff h
  · exact hrefused h
  · exact hfenced h
  · simp [hfatal hfault] at hnot

theorem enableWrite_disable_outOfTurn (hchecking : s.st page ≠ stCHECKING)
    (hrunning : ¬(s.st page = stRUNNING ∧ s.hasDependants page = false)) : s.enableWrite page false q = s.discard page := by
  simp only [State.enableWrite, Bool.false_eq_true, if_false, hchecking, Bool.not_eq_true', hrunning]

/-- A write of QUIESCE as it is does not move a page, but one of QUIESCE 1 to a RUNNING page. -/
theorem quiesceWrite_same (hq : s.fld page fQUIESCE = q.toNat) (hrun : s.fld page fQUIESCE = 0 ∨ s.st page ≠ stRUNNING) :
    s.quiesceWrite page q = s.discard page := by
  have hstill : s.quiesceMoves page q = false := by
    cases q
    · simp [State.quiesceMoves, hq]
    · have : s.st page ≠ stRUNNING := hrun.resolve_left (by simp [hq])
      simp [State.quiesceMoves, this]
  simp [State.quiesceWrite, hstill]

/-- DISABLE of an enabled page that its table condition does not let leave service (R35). -/
theorem ctrlWrite_disable_discarded (htnt : pageKind page ≠ .tnt) (hset : pageKind page ≠ .hifSet) (hen : s.fld page fENABLE = 1)
    (hturn : fixedPage page = true ∨ (s.st page ≠ stCHECKING ∧ ¬(s.st page = stRUNNING ∧ s.hasDependants page = false))) :
    Discarded page s (s.ctrlWrite page (ctrlWord false q false false)) := by
  obtain ⟨x, hx⟩ := ctrlWrite_noLock (s := s) (e := false) (q := q) (r := false) htnt hset (.inl rfl)
  refine Discarded.of_regs (r := { s with rsv := x }) ?_ rfl
  rw [hx]
  by_cases hfixed : fixedPage page = true
  · simpa [hfixed] using discarded_discard page
  · obtain ⟨hchecking, hrunning⟩ := hturn.resolve_left hfixed
    have hdiscard := enableWrite_disable_outOfTurn (s := { s with rsv := x }) (q := q) hchecking hrunning
    simpa [hfixed, hen, hdiscard] using discarded_discard page

/-- SOFT_RESET of a page whose state does not take it (R35). -/
theorem ctrlWrite_softReset_discarded (htnt : pageKind page ≠ .tnt) (hset : pageKind page ≠ .hifSet) (hten : tenantOfPage page = none)
    (hturn : fixedPage page = true ∨ (s.st page ≠ stOFF ∧ s.st page ≠ stREFUSED ∧ s.st page ≠ stFENCED ∧
      (s.st page = stFAULT → smGet false s.flt.fatal page = true))) :
    Discarded page s (s.ctrlWrite page (ctrlWord e q true false)) := by
  obtain ⟨x, hx⟩ := ctrlWrite_noLock (s := s) (e := e) (q := q) (r := true) htnt hset (.inl rfl)
  refine Discarded.of_regs (r := { s with rsv := x }) ?_ rfl
  rw [hx]
  by_cases hfixed : fixedPage page = true
  · simpa [hfixed] using discarded_discard page
  · obtain ⟨hoff, hrefused, hfenced, hfatal⟩ := hturn.resolve_left hfixed
    have hdiscard := softReset_outOfTurn (s := { s with rsv := x }) hoff hrefused hfenced hfatal
    simpa [hfixed, hten, hdiscard] using discarded_discard page

/-- In a tenant's page with a BLK_CTRL, SOFT_RESET and LOCK are ignored (R30), and what is left of the write moves nothing (log entry 17). -/
theorem ctrlWrite_tenantPage_discarded (hpage : pageExists page = true) (htnt : pageKind page ≠ .tnt) (hten : (tenantOfPage page).isSome = true)
    (he : s.fld page fENABLE = e.toNat) (hq : s.fld page fQUIESCE = q.toNat) (hrun : s.fld page fQUIESCE = 0 ∨ s.st page ≠ stRUNNING) :
    Discarded page s (s.ctrlWrite page (ctrlWord e q r l)) := by
  have hset : pageKind page ≠ .hifSet := fun h => by
    rw [eq_of_solePage hpage h rfl] at hten
    cases hten
  obtain ⟨x, hx⟩ := ctrlWrite_noLock (s := s) (e := e) (q := q) (r := r) (l := l) htnt hset (.inr hten)
  refine Discarded.of_regs (r := { s with rsv := x }) ?_ rfl
  rw [hx]
  have hdiscard := quiesceWrite_same (s := { s with rsv := x }) hq hrun
  have hsame : e = (s.fld page fENABLE == 1) := by cases e <;> simp [he]
  by_cases hfixed : fixedPage page = true
  · simpa [hten, hfixed] using discarded_discard page
  · simpa [hten, hfixed, ← hsame, hdiscard] using discarded_discard page

end Ctrl

/-- Settles O6: each of these writes of BLK_CTRL goes down to a rule whose condition fails, so it is discarded (log entry 17 for the writes
that move nothing); a page without a BLK_CTRL of its own takes none. -/
theorem disableAndSoftResetOutOfTurnAreDiscarded : Obligations.DisableAndSoftResetOutOfTurnAreDiscarded := by
  unfold Obligations.DisableAndSoftResetOutOfTurnAreDiscarded
  refine ⟨fun a s ht htnt hset hen hturn => ?_, fun a s ht htnt hset hten hturn => ?_, fun a c s ht hc hkind => ?_,
    fun a c s ht hc htnt hten hrun => ?_⟩
  · obtain ⟨q, hexec⟩ := exec_disable ht
    exact ⟨_, hexec, ctrlWrite_disable_discarded htnt hset hen hturn⟩
  · obtain ⟨e, q, -, -, hexec⟩ := exec_softReset ht
    exact ⟨_, hexec, ctrlWrite_softReset_discarded htnt hset hten hturn⟩
  · simp only [List.mem_cons, List.not_mem_nil, or_false] at hc
    rcases hc with rfl | rfl
    · obtain ⟨q, hexec⟩ := exec_disable ht
      exact ⟨_, hexec, wordsBut_of_regs (ctrlWrite_noCtrl hkind) []⟩
    · obtain ⟨e, q, -, -, hexec⟩ := exec_softReset ht
      exact ⟨_, hexec, wordsBut_of_regs (ctrlWrite_noCtrl hkind) []⟩
  · obtain ⟨hreach, hpage, hwrite⟩ := ht
    simp only [List.mem_cons, List.not_mem_nil, or_false] at hc
    rcases hc with rfl | rfl
    · obtain ⟨e, q, he, hq, hexec⟩ := exec_softReset ⟨hreach, hpage, hwrite⟩
      exact ⟨_, hexec, ctrlWrite_tenantPage_discarded hpage htnt hten he hq hrun⟩
    · obtain ⟨e, q, he, hq, hexec⟩ := exec_lockPage ⟨hreach, hpage, hwrite⟩
      exact ⟨_, hexec, ctrlWrite_tenantPage_discarded hpage htnt hten he hq hrun⟩

end Sys2Proof.Machine
